-- ==== Sys2Proof/Word.lean ====
section
/-!
DEFINITION. The word types, and the records in which the register maps of the spec are written down.
-/

namespace Sys2Proof

/-- A register of device space (R6). -/
abbrev Word := BitVec 32

/-- The smallest addressable unit of device space and of DRAM (R5, R6). -/
abbrev Byte := BitVec 8

/-- A field of a register that is not staged: bits `[lo + width - 1 : lo]` of the register at `addr` (R4). -/
structure RField where
  addr : Nat
  lo : Nat
  width : Nat
  deriving DecidableEq, Repr

/-- A field of a staged register (R256), which has a staged and an in-force copy. -/
structure CField where
  addr : Nat
  lo : Nat
  width : Nat
  deriving DecidableEq, Repr

/-- One row of a register map: `cnt` registers at `off`, `off + stride`, … in their block, the bits of each access code
(R8), the staged bits (R256), the reset word (R10), whether a snapshot captures it (R261), and the bits that take their
reset value only at AON power-up (R10). -/
structure RegDesc where
  off : Nat
  cnt : Nat
  stride : Nat
  rw : Nat
  w1c : Nat
  rc : Nat
  wo : Nat
  spw : Nat
  stg : Nat
  rst : Nat
  ctr : Bool
  aon : Nat
  deriving DecidableEq, Repr

end Sys2Proof
end

