-- ==== Sys2Proof/Syntax.lean ====
section
/-!
DEFINITION. The commands of the block: one constructor of `Instr` for each row of the spec's table of operations and
events. A command's operands are what its row is about (a port, an address, a lane, an engine), and what the world
outside the block contributes to it (a pin's level, a measured figure, received bits). Each docstring names the rules.
-/

namespace Sys2Proof

/-- An access to the window of MMD 30 that reaches no register of device space (R252): writes of ADDR_LO, ADDR_HI, WIN_CTRL
and DATA_LO, and reads of DATA_HI, ADDR_LO, ADDR_HI and WIN_CTRL. -/
inductive MdioAccess where
  | addrLo (v : BitVec 16)
  | addrHi (v : BitVec 16)
  | winCtrl (autoInc : Bool)
  | dataLo (v : BitVec 16)
  | dataHi
  | readAddrLo
  | readAddrHi
  | readWinCtrl
  deriving DecidableEq, Repr

/-- A write on a management port (R251): one register, or a transaction as its bytes: on the I2C/I3C target those after the 7-bit
target address, on the SPI target those from the opcode on. -/
inductive PortWrite where
  | word (port : Fin 5) (addr value : Word)
  | i2c (target : BitVec 7) (bytes : List Byte)
  | spi (bytes : List Byte)
  deriving DecidableEq, Repr

/-- What a deep capture stores of a lane, oldest first (*Capture formats*, R399). -/
inductive CapStream where
  /-- Corrected samples. -/
  | adc (samples : List Int)
  /-- The equaliser's output × 32, rounded, before saturation. -/
  | equalised (z32 : List Int)
  /-- The detector's codes of each line position: of b1, and of b0. -/
  | llr (codes : List (Int × Int))
  deriving DecidableEq, Repr

/-- The bytes that a captured stream takes in the ring (R399). -/
def CapStream.size : CapStream → Nat
  | .adc xs => xs.length
  | .equalised zs => zs.length
  | .llr cs => (2 * cs.length + 9) / 10 * 8

/-- A read on a management port (R251): one register, or a transaction: the bytes that the controller sends before the data, and how
many registers it reads. -/
inductive PortRead where
  | word (port : Fin 5) (addr : Word)
  | i2c (target : BitVec 7) (address : List Byte) (count : Nat)
  | spi (bytes : List Byte) (count : Nat)
  deriving DecidableEq, Repr

/-- The synthesisers, in the order of CLK_STAT.lock (R296). -/
inductive Synth where
  | sys | line | pool | host (k : Fin 4) | dram
  deriving DecidableEq, Repr

/-- A failing word that a memory slice found (R369): SRAM macro, word and bit, or a DRAM pseudo-channel, bank, location
(byte address / 64) and bit. -/
inductive FailWord where
  | sram (macroNo word bit : Nat)
  | dram (pc bank loc bit : Nat)
  deriving DecidableEq, Repr

/-- What a self-test slice ends with (R366, R369). -/
structure SliceReport where
  aborted : Bool
  applied : Nat
  expected : Nat
  signatureOk : Bool
  failing : List FailWord
  deriving DecidableEq, Repr

/-- A 257-bit transcoded block: bit `i` of the number is bit 256 − i of the order sent, so the first bit sent is the most
significant (R5, R44). -/
abbrev Block := BitVec 257

/-- What a host port brings to the end of its PCS (R200, R211): the PAM4 symbols that each of its lanes has received since the last
command, 0 to 3 from the lowest level; the 544 symbols of a codeword, first received first; and how many blocks at its start are
alignment markers. -/
structure HostBurst where
  symbols : List (List (Fin 4))
  codeword : List (BitVec 10)
  markers : Nat
  deriving DecidableEq, Repr

/-- The sub-sample blocks of the pennant receiver that no command has carried before, oldest first: of each lane the raw ADC
codes of the block, none for a lane without power (R214, R216). -/
abbrev PenBlocks := List (Vector (List (BitVec 8)) 8)

/-- Raw codes of a lane's ADC, before any correction (R78), as far as a command needs them. Samples of a lane are counted from
its power-up, and block `b` of the equaliser's grid brings samples 768 b to 768 b + 767 (R87): the codes begin with the 256
samples that stand before those of `block`, which the block overlaps. -/
structure RxBurst where
  block : Nat
  codes : List (BitVec 8)
  deriving DecidableEq, Repr

/-- The corrections of a lane's DAC: of its four sub-DACs the gains in 10^−6, the skews in fs and the offsets in 1/16 code, and
the static errors of its 256 codes in 1/16 code (R66, R67). -/
structure DacCorr where
  gains : List Nat
  skews : List Int
  offsets : List Int
  errors : List Int
  deriving DecidableEq, Repr

/-- What a DAC calibration run measures (R68): the corrections, the spur s of −s dBc in 0.01 dB, and the SNDR in 0.25 dB. -/
structure DacResult where
  corr : DacCorr
  spur : Nat
  sndr : Nat
  deriving DecidableEq, Repr

/-- The commands of the block, one for each row of the table of operations and events. -/
inductive Instr where
  -- Power, reset and boot
  /-- R425. -/
  | vddAonPowerUp
  /-- R425, R347. -/
  | vddAonRemoved
  /-- R425, R8. -/
  | resetNAssert
  /-- R275, R347. -/
  | resetNRelease
  /-- R275: the levels on the strap balls. -/
  | strapSample (bootsel : BitVec 2) (maddr : BitVec 3) (pclass : BitVec 2) (safedef : Bool)
  /-- R277 step 0x02: whether the fuse check passes (R284). -/
  | fuseLoad (checkOk : Bool)
  /-- R363: the checker that fails, if one does. -/
  | checkerSelfTest (failing : Option (Fin 80))
  /-- R277 step 0x0B: whether training succeeded. -/
  | dramInitDone (ok : Bool)
  /-- R279: whether the flash declares a 4 KiB erase, and whether a valid header stands at either offset. -/
  | nvmDiscovery (erase4k headerAt0 headerAt8M : Bool)
  /-- R280: the 64 header bytes of the NVM copy being booted (not used by a download), and whether the other copy has a valid magic. -/
  | headerCheck (bytes : List Byte) (secondaryMagic poison : Bool)
  /-- R282: the frame as read, and as read again up to twice; whether a read returned poison (not used by a download). -/
  | recordRead (reads : List (List Byte)) (poison : Bool)
  /-- R285. -/
  | signatureCheck
  /-- R289, R351. -/
  | igsReportsRunning
  /-- R289. -/
  | igsStartTimeout
  -- Epochs, commits, snapshots and register accesses
  /-- R258, R301: internal-oscillator cycles counted in the always-on cycle that ends. -/
  | alwaysOnCycle (oscCount : Nat)
  /-- R258. -/
  | superframeTimerTick
  /-- R258: nanoseconds from the write to the next boundary. -/
  | commitGo (port : Fin 5) (nsToBoundary : Nat)
  /-- R261, R262. -/
  | snapGo (port : Fin 5) (clear : Bool)
  /-- R261. -/
  | snapComplete
  /-- R263. -/
  | pmonDataRead (port : Fin 5)
  /-- R8, R9, R251: the W1C bits that hardware sets in the cycle in which the first register is written. -/
  | registerWrite (write : PortWrite) (sameCycle : Word)
  /-- R9, R251: what hardware adds to the field or sets in it in the cycle in which the first register is read. -/
  | rcRegisterRead (read : PortRead) (sameCycle : Nat)
  /-- R74, R253. -/
  | loRegisterRead (port : Fin 5) (addr : Word)
  /-- R254. -/
  | unmappedAccess (port : Fin 5) (addr : Word) (write : Option Word)
  /-- R265. -/
  | handshakeTimeout (port : Fin 5) (addr : Word)
  /-- R251, R252: the port address and the MMD of the frame, and the accesses to the window of MMD 30 since the last row of this kind,
  oldest first. -/
  | mdioDataLoRead (phy mmd : BitVec 5) (before : List MdioAccess)
  /-- R251, R252: as above, and the half written to DATA_HI. -/
  | mdioDataHiWrite (phy mmd : BitVec 5) (before : List MdioAccess) (hi : BitVec 16)
  /-- R255, R360: `parity` says that the word of the valid-bit array that covers the block has a parity error. -/
  | dramWindowAccess (port : Fin 5) (addr : Word) (write : Option Word) (parity : Bool)
  -- Mailbox commands (R267–R270): a write of the opcode to TOP_CMD, with the arguments standing in TOP_CMD_ARGk
  | nop (port : Fin 5)
  | link (port : Fin 5)
  | retrain (port : Fin 5)
  | power (port : Fin 5)
  | shutdown (port : Fin 5)
  | resetDp (port : Fin 5)
  | reset (port : Fin 5)
  | capture (port : Fin 5)
  | bist (port : Fin 5)
  | imageLoad (port : Fin 5)
  | debugChal (port : Fin 5)
  | debugResp (port : Fin 5)
  | debugLock (port : Fin 5)
  | laser (port : Fin 5)
  /-- R267: the opcode written. -/
  | commandCollide (port : Fin 5) (opcode : Byte)
  /-- R267. -/
  | commandTakeupTimeout
  /-- R269. -/
  | linkWaitTimeout
  /-- R291. -/
  | debugChallengeExpire
  /-- R290. -/
  | fuseOpGo (port : Fin 5) (op : BitVec 3)
  /-- R290: whether programming failed, and whether the read-back mismatches. -/
  | fuseOpDone (progFailed mismatch : Bool)
  /-- R293: whether the instruction now in force drives pins. -/
  | bscanInstruction (drives : Bool)
  -- Transmit path; `cyc` is the datapath cycle counted from the last superframe timer tick
  | hostRsCodeword (port : Fin 16) (cyc : Nat) (burst : HostBurst)
  | portAmLockLoss (port : Fin 16)
  /-- R200: the skew between the port's lanes in ns. -/
  | portAmLockReturn (port : Fin 16) (skewNs : Nat)
  | localFaultBlockInsert (port : Fin 16) (cyc : Nat)
  /-- R56: the codeword index, and the slots of the group whose payload read returns poison, as positions 0–7 in it. -/
  | slotDecision (cw : Fin 32) (poison : List Nat)
  | controlMessageCapture
  | dacCalRunRequest (port : Fin 5) (lane : Fin 8)
  | dacCalRunEnd (lane : Fin 8) (result : DacResult)
  /-- R67, R68: the spur, in 0.01 dB, and the corrections of the lane's image calibration record, where the record is present and
  checks. -/
  | lanePowerUp (lane : Fin 8) (record : Option (Nat × DacCorr))
  -- Receive converters, clock loop and equaliser
  | adcCalRunRequest (port : Fin 5) (lane : Fin 8)
  | adcCalPeriodExpire (lane : Fin 8)
  /-- R79, R80: the ladder fit in the units of RX_SLICE_DATA, and the skew estimate in 5 fs where it has its samples. -/
  | adcCalOfflineDone (lane : Fin 8) (offset gain : Int) (skew : Option Int)
  /-- R80: the root-mean-square difference in 1/256 LSB. -/
  | adcCalShadowDone (lane : Fin 8) (rms : Nat)
  /-- R79, R100: the spur and SNDR that the run measures, used where the run ends. -/
  | adcCalStepEnd (lane : Fin 8) (spur sndr : Nat)
  /-- R85, R86: the samples of the receive cycles since the lane's last row of this kind or the next. -/
  | cdrFallbackLimit (lane : Fin 8) (burst : RxBurst)
  /-- R85, R86: the same. -/
  | cdrLockChange (lane : Fin 8) (burst : RxBurst)
  /-- R95, R96: the samples that are searched. -/
  | pilotPeakFound (lane : Fin 8) (burst : RxBurst)
  | pilotPlateauNoPeak (lane : Fin 8) (burst : RxBurst)
  /-- R89, R93, R99: the samples of the superframe's pilot field, or of the frame tick in a standard mode, and whether the lane
  detects signal. -/
  | pilotUpdate (lane : Fin 8) (burst : RxBurst) (signal : Bool)
  | throttlePauseEnd (lane : Fin 8)
  | acquireTimeout (lane : Fin 8)
  /-- R88: the block of the equaliser's grid whose samples come next. -/
  | tapSwitch (lane : Fin 8) (block : Nat)
  /-- R97: the samples that are searched. -/
  | fastRetrainPilotFound (lane : Fin 8) (burst : RxBurst)
  | tapDataWrite (port : Fin 5) (lane : Fin 8) (value : Word)
  | tapDataRead (port : Fin 5) (lane : Fin 8)
  /-- R39: the received control field of each lane that has one, as 2,048 scrambled bits in the order sent. -/
  | controlMessageAccept (copies : List (Fin 8 × List Bool))
  -- Detector and decoder pool; `now` is the core cycle, counted on the same origin as datapath cycles
  /-- R87, R107, R109: the samples of the codeword's symbols, and for codeword 31 those of the next stuffing field. -/
  | codewordArrive (lane : Fin 8) (now : Nat) (burst displaced : RxBurst)
  | poolTick
  /-- R118, R123: the queue words whose read returns poison. -/
  | coreDispatch (now : Nat) (poison : List Nat)
  | iterationEnd (core : Fin 16)
  | codewordDeadline (core : Fin 16)
  | notDispatchedExpire
  | coreStall (core : Fin 16)
  | messageMemoryUe (core : Fin 16) (now : Nat)
  /-- R125, R126, R129, R130: whether a word of the unit is read with poison, and whether the history entry cannot be written, its data
  being read with poison or DRAM's write queue being full. -/
  | releaseRecord (poison histLost : Bool)
  | historyBurstWritten
  /-- R147: the superframe count and the codeword index of the group. -/
  | handOn (sfc : Word) (cw : Fin 32)
  -- Ledger
  /-- R178: whether a word of the oldest unverified unit is read with poison. -/
  | holdVerifyRead (poison : Bool)
  | unitExpire
  /-- R181: the payload words that the release read finds uncorrectable, beside those that already stand so in the state. -/
  | unitDueRelease (poison : List Nat)
  | lineFaultOnset
  /-- R164: the bank, as 16 × pseudo-channel + bank. -/
  | bankRebuildDone (bank : Nat)
  -- Bring-up
  | inviteTimer
  | partnerAbsentTimeout
  | bringupStepTimeout
  | partnerLossTimeout
  /-- R144–R146: the 144 hard labels from 8 symbols before the expected origin, and its arrival in symbol periods of the
  local datapath clock. -/
  | ensignCheck (lane : Fin 8) (labels : List (Fin 4)) (arrival : Nat)
  | relockTimeout (lane : Fin 8)
  | fullRetrainTimeout (lane : Fin 8)
  | windowCheckDone
  | lineSignalDetect (lane : Fin 8)
  -- Host lanes
  | hostSignalDetect (lane : Fin 16)
  /-- R197, R198: the openings of the lower, middle and upper eye, in units of 1/65,536. -/
  | hostAdaptDone (lane : Fin 16) (lower middle upper : Nat)
  | hostAdaptTimeout (lane : Fin 16)
  /-- R198: the openings of the lower, middle and upper eye, in units of 1/65,536. -/
  | emfMeasure (lane : Fin 16) (lower middle upper : Nat)
  /-- R197: signal absence or CDR unlock; whether signal is still detected. -/
  | hostLaneDown (lane : Fin 16) (signal : Bool)
  | hostRxRestart (port : Fin 5) (lane : Fin 16)
  /-- R206: whether signal is detected, and the quick eye-margin estimate where the CDR locks within 1 µs. -/
  | hostIdleExit (lane : Fin 16) (quickEmf : Option Byte)
  | hostFastExitTimeout (lane : Fin 16)
  | egressBlockOut (port : Fin 16) (cyc : Nat)
  | prbsResync (port : Fin 5) (lane : Fin 16)
  | prbsSlipBit (port : Fin 5) (lane : Fin 16)
  | prbsSlipSym (port : Fin 5) (lane : Fin 16)
  /-- R209: the PAM4 symbols received since the last command, 0 to 3 from the lowest level. -/
  | prbsCheckLock (lane : Fin 16) (symbols : List (Fin 4))
  | prbsLockLoss (lane : Fin 16) (symbols : List (Fin 4))
  -- Pennant channel
  /-- R224: whether it is the secondary correlator that finds a preamble whose newest 32 symbols end with these blocks. -/
  | pennantPreambleDetect (secondary : Bool) (blocks : PenBlocks)
  | burgeeMatch (secondary : Bool) (blocks : PenBlocks)
  | burgeeTimeout (blocks : PenBlocks)
  | pennantHeaderReceived (blocks : PenBlocks)
  | pennantCapture (blocks : PenBlocks)
  /-- R223, R227: the time in µs at which the codeword's last symbol ended. -/
  | pennantCodewordDecoded (blocks : PenBlocks) (endUs : Nat)
  /-- R214, R228: the time in converter samples. -/
  | pennantTxStart (now : Nat)
  | pennantTxEnd (nowUs : Nat)
  | mailSend (port : Fin 5) (lenM1 : Byte)
  | mailAbort (port : Fin 5)
  | mailAckTimeout
  | mailPop (port : Fin 5)
  | telemetryTimer
  -- Time; `cycles` is the time-clock cycles since the counter last advanced in the model
  | timeWrap (cycles : Nat)
  | timeNowRead (port : Fin 5) (cycles : Nat)
  | timeStepGo (port : Fin 5) (absolute : Bool)
  | timeStepApply (cycles : Nat)
  /-- R239–R241: the direction, the number of the 66-bit block of the port's stream in which the frame's destination address
  begins, and for a host ingress how many time-clock cycles after the counter last advanced its first bit entered (before it, where
  negative). -/
  | ptpIngressStamp (toLine : Bool) (port : Fin 16) (place : Nat) (cycles : Int)
  | ptpEgressCorrect (toLine : Bool) (port : Fin 16) (cycles : Int)
  /-- R246: the edge's polarity, and its time as cycles and 1/16 ns past the counter's last value. -/
  | tsyncEdge (rising : Bool) (cycles : Nat) (sub : Nat)
  | ppsWindowClose (cycles : Nat)
  | servoOfsWrite (port : Fin 5) (value : Word)
  -- Clocks
  /-- R194, R297: REFCLK edges counted in the window, and whether a modulation of REFCLK is detected. -/
  | monWindowEnd (count : Nat) (modulated : Bool)
  /-- R298. -/
  | refclkLoss
  /-- R299, R300, R304. -/
  | synthRelock (synth : Synth)
  /-- R300. -/
  | revert (port : Fin 5)
  /-- R302: the source measured (REFCLK or TSYNC), and the count: REFCLK edges in 64 monitor windows, or oscillator cycles between
  two TSYNC edges. -/
  | trimMeasure (tsync : Bool) (count : Nat)
  /-- R303: the domain that ramps: 0 fabric, 1 transmit datapath, 2 pool. -/
  | rampStep (domain : Fin 3)
  /-- R304. -/
  | pllUnlock (synth : Synth)
  /-- R305, R306: the value written, and the gates with an access in progress. -/
  | clkGateWrite (port : Fin 5) (value : Word) (inProgress : BitVec 4)
  /-- R306. -/
  | gateCloseForced (gate : Fin 4)
  -- Power states
  | quietIdleTimeout
  | standbyIdleTimeout
  /-- R313: what the participant being asked finds that the state does not show: how long the receive half has released no data unit, in µs, and whether DRAM writes are pending. -/
  | participantAnswer (rxIdleUs : Nat) (dramPending : Bool)
  | participantDelayLimit
  | finalWindowEnd
  /-- R318: the source, by its bit. -/
  | wakeSource (source : Fin 6)
  | exitComplete
  /-- R321: the banks whose CRC differs. -/
  | retentionVerify (failed : BitVec 8)
  /-- R322: the source that missed its limit. -/
  | readinessTimeout (source : Fin 10)
  | wakeRetry
  | wakeFailClear (port : Fin 5)
  | followSquelchEnd
  -- Housekeeping, bias, thermal and laser safety
  /-- R325: the raw count N. -/
  | conversionEnd (n : Nat)
  /-- R330: whether the entry was read with poison, so that it is skipped. -/
  | hskEntryDelayEnd (poison : Bool)
  | refReady
  /-- R332: the time in symbol periods of the line. -/
  | biasUpdate (now : Nat)
  /-- R336: the channel, and whether its current has stood at the limit for more than 10 µs or has fallen below it. -/
  | biasCurrentLimit (ch : Fin 16) (atLimit : Bool)
  /-- R340: the sensor voltages in µV. -/
  | sensorReading (microvolts : Vector Nat 12)
  /-- R348. -/
  | txdisChange (high : Bool)
  -- Memory and self-test
  /-- R359, R360: a DRAM byte address / 8, or an SRAM macro × 8,192 + word; the syndrome that a fault gives the read; and whether
  the word of the valid-bit array that covers the location has a parity error. -/
  | scrubRead (dram : Bool) (loc : Nat) (syndrome : BitVec 8) (parity : Bool)
  | memClearGo (port : Fin 5)
  | memClearDone
  /-- R358: the value written to MEM_INJ_CTRL. -/
  | memInjArm (port : Fin 5) (value : Word)
  /-- R362. -/
  | dramBankFail (pc : Fin 32) (bank : Fin 16)
  /-- R366: whether the slice was stopped, the patterns applied and expected, whether the signature matches, and the failing words found (memory units). -/
  | bistSliceEnd (report : SliceReport)
  -- Igsin instructions (R376), each issued by engine `e`
  | nopInstruction (e : Fin 9)
  | add (e : Fin 9) (d a b : Fin 16)
  | sub (e : Fin 9) (d a b : Fin 16)
  | and (e : Fin 9) (d a b : Fin 16)
  | or (e : Fin 9) (d a b : Fin 16)
  | xor (e : Fin 9) (d a b : Fin 16)
  | shl (e : Fin 9) (d a b : Fin 16)
  | shr (e : Fin 9) (d a b : Fin 16)
  | sar (e : Fin 9) (d a b : Fin 16)
  | mul (e : Fin 9) (d a b : Fin 16)
  | slt (e : Fin 9) (d a b : Fin 16)
  | sltu (e : Fin 9) (d a b : Fin 16)
  | min (e : Fin 9) (d a b : Fin 16)
  | max (e : Fin 9) (d a b : Fin 16)
  | addi (e : Fin 9) (d a : Fin 16) (imm : BitVec 18)
  | andi (e : Fin 9) (d a : Fin 16) (imm : BitVec 18)
  | ori (e : Fin 9) (d a : Fin 16) (imm : BitVec 18)
  | xori (e : Fin 9) (d a : Fin 16) (imm : BitVec 18)
  | shli (e : Fin 9) (d a : Fin 16) (imm : BitVec 18)
  | shri (e : Fin 9) (d a : Fin 16) (imm : BitVec 18)
  | sari (e : Fin 9) (d a : Fin 16) (imm : BitVec 18)
  | movi (e : Fin 9) (d : Fin 16) (imm : BitVec 18)
  | movhi (e : Fin 9) (d : Fin 16) (imm : BitVec 16)
  | ld (e : Fin 9) (d a : Fin 16) (imm : BitVec 18)
  | st (e : Fin 9) (src a : Fin 16) (imm : BitVec 18)
  /-- R377: the handshake time in fabric cycles, where the block needs one. -/
  | brd (e : Fin 9) (d a : Fin 16) (imm : BitVec 18) (handshake : Nat)
  | bwr (e : Fin 9) (src a : Fin 16) (imm : BitVec 18)
  /-- R377: the oldest entry completes; nanoseconds to the next boundary, for a write of TOP_COMMIT (R258). -/
  | engineWriteDrain (e : Fin 9) (nsToBoundary : Nat)
  | beq (e : Fin 9) (a b : Fin 16) (off : BitVec 18)
  | bne (e : Fin 9) (a b : Fin 16) (off : BitVec 18)
  | blt (e : Fin 9) (a b : Fin 16) (off : BitVec 18)
  | bge (e : Fin 9) (a b : Fin 16) (off : BitVec 18)
  | bltu (e : Fin 9) (a b : Fin 16) (off : BitVec 18)
  | bgeu (e : Fin 9) (a b : Fin 16) (off : BitVec 18)
  | j (e : Fin 9) (target : BitVec 16)
  | call (e : Fin 9) (target : BitVec 16)
  | ret (e : Fin 9)
  | macc (e : Fin 9) (a b : Fin 16)
  | msub (e : Fin 9) (a b : Fin 16)
  | rdacc (e : Fin 9) (d : Fin 16) (imm : BitVec 18)
  | clracc (e : Fin 9)
  | ldacc (e : Fin 9) (a : Fin 16) (imm : BitVec 18)
  | wfe (e : Fin 9) (d : Fin 16) (imm : BitVec 18)
  | tset (e : Fin 9) (a : Fin 16) (imm : BitVec 18)
  | kick (e : Fin 9)
  | halt (e : Fin 9)
  -- Engine control, events, capture and dump
  | dumpComplete (partialDump : Bool)
  | engineTimerExpire (e : Fin 9) (timer : Fin 2)
  | engineWatchdogExpire (e : Fin 9)
  | engineHaltRequest (port : Fin 5) (e : Fin 9)
  | engineRunRequest (port : Fin 5) (e : Fin 9)
  | engineStepRequest (port : Fin 5) (e : Fin 9)
  | engineRestart (port : Fin 5) (e : Fin 9)
  | engineDoorbell (e : Fin 9)
  | enginePowerAnswer (e : Fin 9) (answer : BitVec 2) (delayMs : BitVec 4)
  | engineLogWrite (e : Fin 9) (code arg : BitVec 16)
  | engineMemDataAccess (port : Fin 5) (e : Fin 9) (write : Option Word)
  | igsFreezeWrite (port : Fin 5) (value : Word)
  /-- R394, R401: the bytes that an armed capture has written when the event reaches the recorder. -/
  | eventAccept (captured : Nat)
  | evrWin0Read (port : Fin 5)
  | evrWin3Read (port : Fin 5)
  | evrFreezeWrite (port : Fin 5) (freeze : Bool)
  /-- R399, R400, R402: the stream that the capture has taken from its start, and, where the staging buffer overflowed, how many of
  the bytes written follow the trigger. -/
  | captureEnd (stream : CapStream) (overrunPost : Option Nat)
  | captureAbort (port : Fin 5)
  | captureWaitTimeout
  | lineSignalLoss (lane : Fin 8)
  | dramControllerFatal (pc : Fin 32)
  | bistCommandTimeout
  | laserTimeout
  | powerAnswerTimeout (e : Fin 9)
  | vddAonFall
  /-- R375: the reserved word fetched. -/
  | illegalInstruction (e : Fin 9) (word : Word)
  deriving DecidableEq, Repr

end Sys2Proof
end

