-- ==== Sys2Proof/Decode.lean ====
section
/-!
DEFINITION. Words that spell commands. The table of operations and events gives none of its rows bits, so no word spells a row
by the table. The words of the Igsin engines (R375, R376), which the engines' memories hold, are decoded and encoded here.
-/

namespace Sys2Proof

/-- The table gives no row bits. -/
def decodeTableWord (_nbits _w : Nat) : Option Instr := none

/-! ## Fields (R375) -/

def igsOp (w : Word) : Nat := (w.extractLsb' 26 6).toNat
def igsD (w : Word) : Fin 16 := (w.extractLsb' 22 4).toFin
def igsA (w : Word) : Fin 16 := (w.extractLsb' 18 4).toFin
def igsB (w : Word) : Fin 16 := (w.extractLsb' 14 4).toFin
def igsImm (w : Word) : BitVec 18 := w.extractLsb' 0 18
/-- The offset of format B stands where format I has its immediate. -/
def igsTarget (w : Word) : BitVec 16 := w.extractLsb' 0 16

/-- The bits from `lo`, `n` of them, are 0. -/
def igsZero (w : Word) (lo n : Nat) : Bool := w.extractLsb' lo n == 0

/-- `i` where the fields marked 0 are 0. -/
def igsIf (ok : Bool) (i : Instr) : Option Instr := if ok then some i else none

/-- Opcodes 0x00 to 0x0D: no operands, and format R. -/
def igsDecodeR (e : Fin 9) (w : Word) : Option Instr :=
  let d := igsD w
  let a := igsA w
  let b := igsB w
  let z := igsZero w 0 14
  match igsOp w with
  | 0x00 => igsIf (igsZero w 0 26) (.nopInstruction e)
  | 0x01 => igsIf z (.add e d a b)
  | 0x02 => igsIf z (.sub e d a b)
  | 0x03 => igsIf z (.and e d a b)
  | 0x04 => igsIf z (.or e d a b)
  | 0x05 => igsIf z (.xor e d a b)
  | 0x06 => igsIf z (.shl e d a b)
  | 0x07 => igsIf z (.shr e d a b)
  | 0x08 => igsIf z (.sar e d a b)
  | 0x09 => igsIf z (.mul e d a b)
  | 0x0A => igsIf z (.slt e d a b)
  | 0x0B => igsIf z (.sltu e d a b)
  | 0x0C => igsIf z (.min e d a b)
  | 0x0D => igsIf z (.max e d a b)
  | _ => none

/-- Opcodes 0x10 to 0x23: immediates, loads and stores. -/
def igsDecodeI (e : Fin 9) (w : Word) (handshake : Nat) : Option Instr :=
  let d := igsD w
  let a := igsA w
  let i := igsImm w
  match igsOp w with
  | 0x10 => some (.addi e d a i)
  | 0x11 => some (.andi e d a i)
  | 0x12 => some (.ori e d a i)
  | 0x13 => some (.xori e d a i)
  | 0x14 => some (.shli e d a i)
  | 0x15 => some (.shri e d a i)
  | 0x16 => some (.sari e d a i)
  | 0x17 => igsIf (igsZero w 18 4) (.movi e d i)
  | 0x18 => igsIf (igsZero w 16 6) (.movhi e d (w.extractLsb' 0 16))
  | 0x20 => some (.ld e d a i)
  | 0x21 => some (.st e d a i)
  | 0x22 => some (.brd e d a i handshake)
  | 0x23 => some (.bwr e d a i)
  | _ => none

/-- Opcodes 0x28 to 0x3F: branches, jumps, the accumulator, events. -/
def igsDecodeB (e : Fin 9) (w : Word) : Option Instr :=
  let d := igsD w
  let a := igsA w
  -- a and b of format B stand where d and a of the other formats do
  let i := igsImm w
  match igsOp w with
  | 0x28 => some (.beq e d a i)
  | 0x29 => some (.bne e d a i)
  | 0x2A => some (.blt e d a i)
  | 0x2B => some (.bge e d a i)
  | 0x2C => some (.bltu e d a i)
  | 0x2D => some (.bgeu e d a i)
  | 0x30 => igsIf (igsZero w 16 10) (.j e (igsTarget w))
  | 0x31 => igsIf (igsZero w 16 10) (.call e (igsTarget w))
  | 0x32 => igsIf (igsZero w 0 26) (.ret e)
  | 0x34 => igsIf (igsZero w 22 4 && igsZero w 0 14) (.macc e a (igsB w))
  | 0x35 => igsIf (igsZero w 22 4 && igsZero w 0 14) (.msub e a (igsB w))
  | 0x36 => igsIf (igsZero w 18 4) (.rdacc e d i)
  | 0x37 => igsIf (igsZero w 0 26) (.clracc e)
  | 0x38 => igsIf (igsZero w 22 4) (.ldacc e a i)
  | 0x3C => igsIf (igsZero w 18 4) (.wfe e d i)
  | 0x3D => igsIf (igsZero w 22 4) (.tset e a i)
  | 0x3E => igsIf (igsZero w 0 26) (.kick e)
  | 0x3F => igsIf (igsZero w 0 26) (.halt e)
  | _ => none

/-- The instruction that a program word of engine `e` spells: none for a reserved opcode, or a field marked 0 that is not
(R375). A format of "—" has its bits 25 to 0 marked 0 (DEDUCED, log entry 30). The handshake time of a BRD is not in its
word. -/
def igsDecode (e : Fin 9) (w : Word) (handshake : Nat) : Option Instr :=
  if igsOp w < 0x10 then igsDecodeR e w
  else if igsOp w < 0x28 then igsDecodeI e w handshake
  else igsDecodeB e w

/-! ## Words -/

def igsWordR (op : Nat) (d a b : Fin 16) : Word :=
  BitVec.ofNat 6 op ++ (BitVec.ofFin d : BitVec 4) ++ (BitVec.ofFin a : BitVec 4) ++ (BitVec.ofFin b : BitVec 4) ++ (0 : BitVec 14)
def igsWordI (op : Nat) (d a : Fin 16) (imm : BitVec 18) : Word :=
  BitVec.ofNat 6 op ++ (BitVec.ofFin d : BitVec 4) ++ (BitVec.ofFin a : BitVec 4) ++ imm
def igsWordJ (op : Nat) (target : BitVec 16) : Word := BitVec.ofNat 6 op ++ (0 : BitVec 10) ++ target
def igsWord0 (op : Nat) : Word := BitVec.ofNat 6 op ++ (0 : BitVec 26)

/-- The word of an Igsin instruction (R375, R376); none for a command that is none. -/
def igsEncode : Instr → Option Word
  | .nopInstruction _ => some (igsWord0 0x00)
  | .add _ d a b => some (igsWordR 0x01 d a b)
  | .sub _ d a b => some (igsWordR 0x02 d a b)
  | .and _ d a b => some (igsWordR 0x03 d a b)
  | .or _ d a b => some (igsWordR 0x04 d a b)
  | .xor _ d a b => some (igsWordR 0x05 d a b)
  | .shl _ d a b => some (igsWordR 0x06 d a b)
  | .shr _ d a b => some (igsWordR 0x07 d a b)
  | .sar _ d a b => some (igsWordR 0x08 d a b)
  | .mul _ d a b => some (igsWordR 0x09 d a b)
  | .slt _ d a b => some (igsWordR 0x0A d a b)
  | .sltu _ d a b => some (igsWordR 0x0B d a b)
  | .min _ d a b => some (igsWordR 0x0C d a b)
  | .max _ d a b => some (igsWordR 0x0D d a b)
  | .addi _ d a i => some (igsWordI 0x10 d a i)
  | .andi _ d a i => some (igsWordI 0x11 d a i)
  | .ori _ d a i => some (igsWordI 0x12 d a i)
  | .xori _ d a i => some (igsWordI 0x13 d a i)
  | .shli _ d a i => some (igsWordI 0x14 d a i)
  | .shri _ d a i => some (igsWordI 0x15 d a i)
  | .sari _ d a i => some (igsWordI 0x16 d a i)
  | .movi _ d i => some (igsWordI 0x17 d 0 i)
  | .movhi _ d i => some (igsWordI 0x18 d 0 (i.setWidth 18))
  | .ld _ d a i => some (igsWordI 0x20 d a i)
  | .st _ r a i => some (igsWordI 0x21 r a i)
  | .brd _ d a i _ => some (igsWordI 0x22 d a i)
  | .bwr _ r a i => some (igsWordI 0x23 r a i)
  | .beq _ a b i => some (igsWordI 0x28 a b i)
  | .bne _ a b i => some (igsWordI 0x29 a b i)
  | .blt _ a b i => some (igsWordI 0x2A a b i)
  | .bge _ a b i => some (igsWordI 0x2B a b i)
  | .bltu _ a b i => some (igsWordI 0x2C a b i)
  | .bgeu _ a b i => some (igsWordI 0x2D a b i)
  | .j _ t => some (igsWordJ 0x30 t)
  | .call _ t => some (igsWordJ 0x31 t)
  | .ret _ => some (igsWord0 0x32)
  | .macc _ a b => some (igsWordR 0x34 0 a b)
  | .msub _ a b => some (igsWordR 0x35 0 a b)
  | .rdacc _ d i => some (igsWordI 0x36 d 0 i)
  | .clracc _ => some (igsWord0 0x37)
  | .ldacc _ a i => some (igsWordI 0x38 0 a i)
  | .wfe _ d i => some (igsWordI 0x3C d 0 i)
  | .tset _ a i => some (igsWordI 0x3D 0 a i)
  | .kick _ => some (igsWord0 0x3E)
  | .halt _ => some (igsWord0 0x3F)
  | _ => none

end Sys2Proof
end

