-- ==== Sys2Proof/Config.lean ====
section
/-!
DEFINITION. What the spec leaves open. Every constant here is opaque: nothing in Lean can evaluate it, so a claim about
the model holds whatever its value is (log entry 1).
-/

namespace Sys2Proof.Config

/-- A value that the spec leaves open, fresh at each draw: the argument is the draw counter `State.draws` (log entry 1). -/
opaque freeNat : Nat → Nat

/-- SHA-384 of FIPS 180-4, which the spec names and does not define (R284, R285, R291): an octet string to 48 octets
(log entry 2). -/
opaque sha384 : List Byte → List Byte

/-- ECDSA P-384 verification of FIPS 186-5, which the spec names and does not define (R285, R291): public key, message
digest, r, s (log entry 2). -/
opaque ecdsaValid : List Byte → List Byte → List Byte → List Byte → Bool

/-- Whether a min-sum product that is no whole number rounds up: the spec gives the normalisation and not its rounding
(R111, R223, log entry 8). The argument is the product times 16. -/
opaque minSumUp : Nat → Nat

/-- Whether a syndrome of odd weight is a column of the check matrix, which the spec does not give (R355, R357, log entry
21). The columns of the check bits are the syndromes of weight 1. -/
opaque hsiaoColumn : Nat → Bool

/-! The signal processing (R63–R107, log entry 16): the spec gives its formulas over real and complex numbers and not the
precision of the device's arithmetic or the unit of a sample. -/

/-- The fraction bits of a quotient, a circular function or a logarithm in the device's arithmetic. -/
opaque precision : Nat

/-- What a corrected sample of one code is in the unit of the equaliser input. -/
opaque sampleUnit : Rat

/-- How hard decisions stand for the known sequence of a block in a standard mode, where a block holds 2 or 4 samples to
the symbol (R99): samples to the symbol and levels to 1,024 samples. -/
opaque knownSamples : Nat → List Int → List Rat

/-- What a division by zero, the angle of 0, or the logarithm of a number that is not positive answers in the signal
processing; the argument is the numerator, or the number. -/
opaque undefQuotient : Rat → Rat

/-- What a register field reads where the figure that it reports lies outside its range, by the figure's numerator and
denominator (R88–R106). -/
opaque outOfField : Rat → Nat

/-! What IEEE 802.3 gives and the spec names only (log entry 121). -/

/-- The inner FEC of IEEE 802.3dj on transmit (R70): from the encoder's state and the PAM4 symbols that come next, its state and
the symbols sent. -/
opaque innerFecSend : Nat → List Nat → Nat × List Nat

/-- The same on receive (R131): the state, the symbols handed on, and how many codewords were corrected and uncorrectable. -/
opaque innerFecReceive : Nat → List Nat → Nat × List Nat × Nat × Nat

/-- The pattern SSPRQ, as the PAM4 symbol of each of its 65,535 places (R76, R209). -/
opaque ssprq : Nat → Nat

/-- The alignment-marker blocks at the start of a codeword of a port of so many lanes (R200, R204), and how many codewords follow
without any. -/
opaque amBlocks : Nat → List (BitVec 257)
opaque amEvery : Nat → Nat

/-- The PAM4 symbols that each lane of a port of so many lanes sends for a codeword (R204). -/
opaque laneSymbols : Nat → List Nat → List (List Nat)

/-- The coefficients that a host lane's adaptation reaches, and the move of each at a background update, by the draw counter
(R197): the spec does not say which coefficients there are. -/
opaque hostTaps : Nat → List Int
opaque hostStep : Nat → Nat → Int

/-- The fixed retimer latencies that TIME_STD_DELAY reports, by line mode and whether the inner FEC is on (R245): the spec
gives bounds and no figures (R73, log entry 17). -/
opaque stdDelay : Nat → Bool → Nat

end Sys2Proof.Config
end

