-- ==== Sys2Proof/Machine/Bits.lean ====
section
/-!
DEFINITION. Bit fields, signed readings, rounding and saturation (R4, R63), the checksums of the spec (R38, R43, R45,
R219, R283), and sparse memories kept in one canonical form.
-/

namespace Sys2Proof.Machine

/-- Field `[lo + n - 1 : lo]` of a number (R4). -/
def bitsOf (v lo n : Nat) : Nat := (v / 2 ^ lo) % 2 ^ n

/-- Bit `i` of a number. -/
def bitOf (v i : Nat) : Bool := (v / 2 ^ i) % 2 == 1

/-- Field `[lo + n - 1 : lo]` of a register (R4). -/
def getField (w : Word) (lo n : Nat) : Nat := bitsOf w.toNat lo n

/-- The bits of a register that field `[lo + n - 1 : lo]` covers. -/
def fieldMask (lo n : Nat) : Word := BitVec.ofNat 32 ((2 ^ n - 1) * 2 ^ lo)

/-- A register with field `[lo + n - 1 : lo]` set to `v`, reduced to the field's width. -/
def putField (w : Word) (lo n v : Nat) : Word :=
  (w &&& ~~~ fieldMask lo n) ||| BitVec.ofNat 32 ((v % 2 ^ n) * 2 ^ lo)

/-- One bit as a number. -/
def b2n (b : Bool) : Nat := if b then 1 else 0

/-- A mask with bit `i` set or cleared. -/
def setBit (m i : Nat) (b : Bool) : Nat :=
  if bitOf m i == b then m else if b then m + 2 ^ i else m - 2 ^ i

/-- The two's-complement reading of the low `n` bits. -/
def toSigned (n v : Nat) : Int :=
  let u := v % 2 ^ n
  if 2 * u < 2 ^ n then (u : Int) else (u : Int) - (2 ^ n : Nat)

/-- The low `n` bits of a number's two's complement. -/
def ofSigned (n : Nat) (i : Int) : Nat := (i % ((2 ^ n : Nat) : Int)).toNat

/-- Saturation to `[lo, hi]`. -/
def satI (lo hi i : Int) : Int := if i < lo then lo else if hi < i then hi else i

/-- `num / den` rounded to the nearest whole number, halves away from zero (R63); `den = 0` is not used. -/
def roundDiv (num : Int) (den : Nat) : Int :=
  let q : Nat := (2 * num.natAbs + den) / (2 * den)
  if num < 0 then - (q : Int) else (q : Int)

/-- `⌈num / den⌉`. -/
def ceilDiv (num den : Nat) : Nat := (num + den - 1) / den

/-- The set bits of `m` below `n`, in increasing order. -/
def bitList (n m : Nat) : List Nat := (List.range n).filter (bitOf m ·)

/-- How many bits of `m` below `n` are set. -/
def popCount (n m : Nat) : Nat := (bitList n m).length

/-- The bits of the low `n` bits of `v`, most significant first: the order of the line (R5, R37). -/
def msbBits (n v : Nat) : List Bool := (List.range n).map fun i => bitOf v (n - 1 - i)

/-- The number that a bit list spells, most significant bit first. -/
def ofMsb (bs : List Bool) : Nat := bs.foldl (fun a b => 2 * a + b2n b) 0

/-- One step of a CRC register of `n` bits, most significant bit first. -/
def crcStep (n poly reg : Nat) (b : Bool) : Nat :=
  let shifted := (2 * reg) % 2 ^ n
  if bitOf reg (n - 1) != b then shifted ^^^ poly else shifted

/-- A CRC over bits in the order sent, without reflection or final inversion (R38, R43, R219). -/
def crcBits (n poly preset : Nat) (bs : List Bool) : Nat := bs.foldl (crcStep n poly) preset

/-- msg_crc and the pennant's payload check (R38, R220). -/
def crc16 (bs : List Bool) : Nat := crcBits 16 0x1021 0xFFFF bs

/-- hcheck (R43). -/
def crc24 (bs : List Bool) : Nat := crcBits 24 0x864CFB 0xFFFFFF bs

/-- The unit's CRC-32, inverted (R45). -/
def crc32Line (bs : List Bool) : Nat := crcBits 32 0x04C11DB7 0xFFFFFFFF bs ^^^ 0xFFFFFFFF

/-- One step of the reflected CRC-32 of R283: the generator 0x04C1_1DB7 reads 0xEDB8_8320 reflected. -/
def crcReflStep (reg : Nat) (b : Bool) : Nat :=
  if (reg % 2 == 1) != b then (reg / 2) ^^^ 0xEDB88320 else reg / 2

/-- The bits of one byte, least significant first: reflected input. -/
def lsbBits8 (b : Byte) : List Bool := (List.range 8).map fun i => bitOf b.toNat i

/-- CRC-32 of the image, the repair record, the retention banks and the dump: reflected input and output, preset and
final inversion 0xFFFF_FFFF, bytes in address order (R283). -/
def crc32 (bytes : List Byte) : Nat :=
  (bytes.foldl (fun r b => (lsbBits8 b).foldl crcReflStep r) 0xFFFFFFFF) ^^^ 0xFFFFFFFF

/-- `n` little-endian bytes of a number (R5). -/
def leBytes (n v : Nat) : List Byte := (List.range n).map fun i => BitVec.ofNat 8 (v / 256 ^ i)

/-- The number that bytes spell little-endian (R5). -/
def ofLeBytes (bs : List Byte) : Nat := bs.foldr (fun b a => b.toNat + 256 * a) 0

/-- `n` bytes of a byte string from offset `i`, zeros beyond its end. -/
def slice (bs : List Byte) (i n : Nat) : List Byte := ((bs.drop i).take n) ++ List.replicate (n - ((bs.drop i).take n).length) 0

/-- The little-endian field of `n` bytes at offset `i`. -/
def leField (bs : List Byte) (i n : Nat) : Nat := ofLeBytes (slice bs i n)

section Sparse
variable {α : Type} [DecidableEq α]

/-- A sparse memory read: an unlisted address reads as `d`. -/
def mapGet (d : α) : List (Nat × α) → Nat → α
  | [], _ => d
  | (k, v) :: t, a => if a = k then v else mapGet d t a

/-- Put an entry in its place among rising addresses. -/
def mapInsert : List (Nat × α) → Nat → α → List (Nat × α)
  | [], a, v => [(a, v)]
  | (k, w) :: t, a, v => if a < k then (a, v) :: (k, w) :: t else (k, w) :: mapInsert t a v

/-- A sparse memory write that keeps the canonical form: `d` is what the address reads as when unlisted. -/
def mapSet (d : α) (m : List (Nat × α)) (a : Nat) (v : α) : List (Nat × α) :=
  let rest := m.filter (·.1 != a)
  if v = d then rest else mapInsert rest a v

/-- The canonical form above `lo`: addresses strictly rising, no entry equal to what its address reads as unlisted. -/
def mapWfFrom (dflt : Nat → α) : Nat → List (Nat × α) → Bool
  | _, [] => true
  | lo, (k, v) :: t => decide (lo ≤ k) && decide (v ≠ dflt k) && mapWfFrom dflt (k + 1) t

/-- The canonical form of a sparse memory. -/
def mapWf (dflt : Nat → α) (m : List (Nat × α)) : Bool := mapWfFrom dflt 0 m

end Sparse

end Sys2Proof.Machine
end

