-- ==== Sys2Proof/Machine/State.lean ====
section
/-!
DEFINITION. The state of the block: every register, queue, store, counter, mode and pin the spec gives it, plain data,
and the queue of the commands that wait. `State.reset` is the block right after hard reset.
-/

namespace Sys2Proof.Machine

/-! ## Device space -/

/-- Registers, sparse and canonical: an unlisted address reads as its reset word (R10). -/
abbrev RegMap := List (Nat × Word)

/-- The device states of R266, with the codes of `DevState.code`. -/
inductive DevState where
  | off | boot | configured | bringup | linked | degraded | partnerAbsent | quiet | standby | sleep | fault
  deriving DecidableEq, Repr

/-- Management domain state beside its registers (R251–R271). -/
structure Mgmt where
  /-- TOP_STATE.state and prev (R266). -/
  dev : DevState
  prev : DevState
  /-- The superframe timer runs (R258). -/
  timerRun : Bool
  /-- The pending commit's go fell less than 40 ns before the next boundary, which it therefore skips (R258). -/
  commitSkip : Bool
  /-- A value of HL0_REF_CTRL that waits for its permitted state (R195). -/
  refPending : Option Word
  /-- Equaliser lanes and the pool tick that the last commit still waits for (R259). -/
  settleLanes : Nat
  settlePool : Bool
  /-- It waits for the HSK sequencer's next entry boundary, the next update of the bias DACs, the host's exit from electrical idle:
  bits 0 to 2 (R207, R259, R328, R332). -/
  settleAux : Nat
  /-- A snapshot is requested with clear = 1 (R262). -/
  snapClear : Bool
  /-- A capture has been taken and its bank is not complete yet (R261). -/
  snapTaken : Bool
  /-- Captured values on their way to the bank, with the epoch of their boundary (R261). -/
  snapNext : RegMap
  snapNextEpoch : Nat
  /-- The snapshot bank that PMON reads (R263). -/
  snapBank : RegMap
  /-- The latched _HI halves of each management port (R253), keyed by port × 2^32 + address. -/
  hiLatch : List (Nat × Option Word)
  /-- Writes of PWR registers, oldest first, which take effect at the next always-on cycle (R323). -/
  pwrWrites : List (Nat × Word)
  /-- The mirror of always-on registers: what they read at the last completed always-on cycle (R264, R308, R323, R353). -/
  mirror : RegMap
  /-- The MMD 30 window: ADDR, auto-increment, error, held low half, latched high half (R252). -/
  mdioAddr : Word
  mdioInc : Bool
  mdioErr : Bool
  mdioHeld : BitVec 16
  mdioHigh : BitVec 16
  /-- What the last read of a register on a port returned, and what a transaction that read several did, in order: the model's own
  fields. -/
  readData : Word
  burst : List Word
  /-- A command is BUSY and IG-M has taken it up (R267). -/
  cmdTaken : Bool
  /-- The write of LEDGER_LINK_CTRL.enable that a LINK command makes at the next boundary (R269). -/
  linkSet : Option Bool
  deriving DecidableEq, Repr

/-! ## Boot and security -/

/-- The repair map entry of R369. -/
structure RepairEntry where
  kind : Nat
  unit : Nat
  index : Nat
  spare : Nat
  source : Nat
  deriving DecidableEq, Repr

/-- What the fuses hold (R277, R284, R290, R302, R340). -/
structure Fuses where
  lc : Nat
  vendorSet : Bool
  ownerSet : Bool
  rollback : Nat
  uid : List Byte
  vendorHash : List Byte
  ownerHash : List Byte
  oscTrim : Nat
  sensorCal : List Nat
  /-- Factory repair (R370). -/
  repair : List RepairEntry
  deriving DecidableEq, Repr

/-- Where the image comes from (R277, R281, R287). -/
inductive ImageSource where
  | nvmPrimary | nvmSecondary | download
  deriving DecidableEq, Repr

/-- What the boot sequencer does (R277). -/
inductive BootPhase where
  | reset        -- RESET_N low, or straps not sampled yet
  | fuses        -- step 0x02
  | checkers     -- step 0x03
  | discovery    -- step 0x04
  | header       -- steps 0x05 and 0x08
  | records      -- step 0x06
  | signature    -- step 0x07, a SIGNATURE record being verified
  | igsStart     -- step 0x0A, after the end-of-records notice
  | imageDone    -- waiting for DRAM and commit 1
  | await        -- waiting for IMAGE_LOAD (R287)
  | halted       -- R288
  | done         -- commit 1 applied
  deriving DecidableEq, Repr

/-- One image record whose CRC has checked: its type and its body (R282). -/
structure ImgRecord where
  kind : Nat
  body : List Byte
  raw : List Byte
  deriving DecidableEq, Repr

/-- Boot, image and security state (R275–R293). -/
structure Boot where
  aonUp : Bool
  /-- VDD_AON counts as removed since it fell (R425). -/
  removed : Bool
  /-- RESET_N is low (R8). -/
  resetLow : Bool
  phase : BootPhase
  fuses : Fuses
  source : ImageSource
  /-- The flash declares a 4 KiB erase (R279), and its secondary copy has a valid magic (R281). -/
  nvmErase : Bool
  secondaryMagic : Bool
  /-- The 64 header bytes of the image being read (R280). -/
  header : List Byte
  /-- Where the next record starts, and how many have been read (R282). -/
  offset : Nat
  nRecords : Nat
  /-- The records of the open signed region, in order (R285). -/
  region : List ImgRecord
  /-- Act-on-write CONFIG pairs held until commit 1 (R278). -/
  held : List (Nat × Word)
  /-- The staged copies, and the index registers of tables, that the image has written (R281). -/
  wrote : List Nat
  /-- The records of the image that have acted, in order: SAFE records for IG-S, and what a failed retention bank is reloaded
  from (R289, R321, R351). -/
  acted : List ImgRecord
  /-- DRAM address and length of the last IMAGE_LOAD (R321, R361). -/
  dlAddr : Nat
  dlLen : Nat
  /-- Commit 1 has been applied (R258, R278). -/
  commitOne : Bool
  /-- Always-on cycles since release (SEC_BOOT_TIME). -/
  sinceRelease : Nat
  /-- The debug challenge (R291). -/
  challenge : List Word
  /-- The fuse operation running (R290). -/
  fuseOp : Nat
  /-- The REPAIR records that SHUTDOWN wrote: secondary, primary (R282). -/
  nvmRepair : List (List RepairEntry)
  deriving DecidableEq, Repr

/-! ## Clocks and power -/

/-- Clock state beside the CLK registers (R295–R307). -/
structure Clk where
  goodRun : Nat
  badRun : Nat
  oscBad : Nat
  /-- The synthesisers hold over (R299). -/
  holdover : Bool
  /-- The multiplexer selects the oscillator (R296, R299). -/
  selOsc : Bool
  /-- A switch is in progress: the synthesisers that have not relocked yet. -/
  relocking : List Synth
  /-- Synthesisers that have not run yet, or were stopped in STANDBY or SLEEP: their start is a source change (R303). -/
  stopped : List Synth
  /-- The return to REFCLK waits for force_osc to clear (R300). -/
  wantReturn : Bool
  /-- The switch in progress is a failover: its end counts and reports the failure (R299). -/
  failing : Bool
  hostLock : Nat
  /-- The divider of the fabric, the transmit datapath and the pool in a ramp (R303); 1 outside one. -/
  rampFabric : Nat
  rampDatapath : Nat
  rampPool : Nat
  /-- Gates whose close waits for an access in progress (R306), bits as CLK_GATE. -/
  closing : Nat
  deriving DecidableEq, Repr

/-- PWR_STATE.phase (R323). -/
inductive PwrPhase where
  | none | asking | preparing | final | exiting
  deriving DecidableEq, Repr

/-- Power state beside the PWR registers (R309–R322). Targets and states are coded as PWR_STATE.pstate. -/
structure Pwr where
  pstate : Nat
  target : Nat
  phase : PwrPhase
  asking : Nat
  forced : Bool
  /-- The entry was proposed by a POWER command, which its end ends (R312). -/
  byCommand : Bool
  /-- The participant asked is delaying (R313). -/
  delaying : Bool
  /-- The state held before entry (R320). -/
  heldState : DevState
  /-- Level sources held in the final four cycles (R318), bits of *Wake sources*. -/
  heldWake : Nat
  /-- The wake timer has expired and is latched until exit (R318). -/
  timerExpired : Bool
  /-- The line transmitters are squelched for 2 µs after a refused follow entry (R317). -/
  followSquelch : Bool
  /-- The entry was proposed by R317. -/
  byFollow : Bool
  /-- Retention-bank CRCs taken at STANDBY entry are held (R314). -/
  retained : Bool
  /-- Always-on time at which TIME stopped, by which it is advanced at exit (R311). -/
  entryTime : Nat
  deriving DecidableEq, Repr

/-! ## Housekeeping, bias, thermal and laser safety -/

/-- The inputs of the monitor ADC (R324, *Housekeeping channels*). -/
inductive HskInput where
  /-- HK_INk. -/
  | pin (k : Fin 12)
  /-- MPDk. -/
  | photodiode (k : Fin 4)
  /-- VDD_CORE, VDD_AON, VDD_ANA, VDD_HS, VDD_IO, VDDQ_DRAM, VDD_AUX. -/
  | supply (k : Fin 7)
  | vref
  /-- The voltage of a thermal sensor. -/
  | sensor (k : Fin 12)
  | biasVoltage (c : Fin 16)
  | biasCurrent (c : Fin 16)
  | ground
  | bandgap
  | reference
  deriving DecidableEq, Repr

/-- The HSK sequencer (R327–R330). -/
structure Hsk where
  running : Bool
  /-- What the input multiplexer selects (R324, R327). -/
  input : HskInput
  entry : Nat
  /-- Conversions of the entry made so far, and whether its settling delay has ended. -/
  made : Nat
  converting : Bool
  /-- The in-force words that the entry in progress was started with (R328). -/
  seqA : Word
  seqB : Word
  ofs : Word
  gain : Word
  /-- The entries of the pass that runs (R328). -/
  len : Nat
  deriving DecidableEq, Repr

/-- One bias channel (R331–R337, R350). -/
structure BiasCh where
  phase : Nat
  codeOut : Nat
  clamped : Bool
  sat : Bool
  released : Bool
  /-- The range in force in the last update (R334). -/
  gainUsed : Nat
  deriving DecidableEq, Repr

structure Bias where
  ch : Vector BiasCh 16
  deriving DecidableEq, Repr

/-- One thermal sensor's history (R342, R346). -/
structure Sensor where
  /-- Last reading, in units of 0.125 °C. -/
  temp : Int
  valid : Bool
  suspect : Bool
  farRun : Nat
  nearRun : Nat
  hotLast : Bool
  deriving DecidableEq, Repr

structure Therm where
  sensors : Vector Sensor 12
  tmax : Int
  tmaxSensor : Nat
  level : Nat
  degraded : Bool
  /-- The level is still on its way down from the hold at 4 (R343). -/
  fromHold : Bool
  /-- Lane temperatures of R341, in units of 1/16 °C. -/
  laneTemp : Vector Int 8
  deriving DecidableEq, Repr

/-- A lane's way through R348. -/
inductive SafePhase where
  | safe        -- LDIS asserted, DAC held, mapped channels at their safe codes
  | ramping     -- LDIS released, mapped channels ramp, DAC held
  | active      -- the DAC hold has ended
  deriving DecidableEq, Repr

structure Safe where
  lane : Vector SafePhase 8
  txdis : Bool
  bscan : Bool
  /-- IG-S runs and has reported running (R289, R349). -/
  igsRun : Bool
  /-- The latched STANDBY, SLEEP and bank-1 hold (R348). -/
  pwrHold : Bool
  /-- A LASER command waits for IG-S (R351). -/
  laserReq : Option (Nat × Bool)
  deriving DecidableEq, Repr

/-! ## Memory, self-test, engines, events -/

/-- What the slices of a unit have come to so far (R366, R369): the worst result, the entries added, the failing words. -/
structure UnitTally where
  worst : Nat
  repaired : Nat
  failing : Nat
  deriving DecidableEq, Repr

/-- A self-test run (R364): its trigger as in BIST_STAT, the units still to do, and where it stands. -/
structure BistRun where
  trigger : Nat
  asked : Nat
  units : Nat
  unit : Nat
  slice : Nat
  tally : UnitTally
  deriving DecidableEq, Repr

structure MemState where
  /-- DRAM bytes, canonical: an unlisted byte reads 0 (R360, R361). -/
  dram : List Host.Cell
  /-- Valid 4 KiB DRAM blocks, rising (R360). -/
  dramValid : List (Nat × Bool)
  /-- Valid 64-byte lines of the retention and hold arrays, by location / 8, rising (R360). Which lines of the shared SRAM are
  valid is not held: the spec does not place its contents (log entry 126). -/
  sramValid : List (Nat × Bool)
  /-- What stands in 64-bit words beside correct check bits (R358): 1 one flipped bit, 2 two, 3 the poison code. DRAM words by
  byte address / 8; SRAM words by macro × 8,192 + word; SRAM words behind device-space addresses by address. -/
  dramEcc : List (Nat × Nat)
  sramEcc : List (Nat × Nat)
  regEcc : List (Nat × Nat)
  /-- Banks mapped to their spare, and banks lost with no spare (R362). -/
  banksSpared : List (Nat × Bool)
  banksLost : List (Nat × Bool)
  /-- Repair map in the always-on registers (R369, R370). -/
  repair : List RepairEntry
  /-- Spares taken: SRAM rows by macro, SRAM columns by macro (R369). -/
  rowsUsed : List (Nat × Nat)
  colsUsed : List (Nat × Nat)
  /-- The BIST run in progress (R364). -/
  run : Option BistRun
  /-- The unit at BIST_NEXT that a stopped SHUTDOWN or SLEEP run has begun (R367). -/
  held : UnitTally
  deriving DecidableEq, Repr

/-- IGS_En_STAT.state (R390). -/
inductive EngState where
  | reset | run | wait | halted | stopped
  deriving DecidableEq, Repr

/-- One Igsin engine (R373–R389). -/
structure Engine where
  pc : Nat
  g : Vector Word 16
  acc : BitVec 64
  stack : List Nat
  ev : BitVec 16
  timer0 : Nat
  timer1 : Nat
  /-- The milliseconds that the watchdog was last restarted with (R380). -/
  wdog : Nat
  st : EngState
  cause : Nat
  restarts : Nat
  /-- Always-on times of recent traps, newest first (R383). -/
  trapTimes : List Nat
  /-- A WFE in progress: destination and mask (R376). -/
  wfe : Option (Fin 16 × BitVec 16)
  /-- The write buffer, oldest first: address, value, and the PC of the BWR (R377). -/
  wbuf : List (Nat × Word × Nat)
  hasProg : Bool
  prog : List (Nat × Word)
  data : List (Nat × Word)
  /-- As `MemState.dramEcc`, for the 64-bit words of program memory by word address / 2, and of data memory by 2^20 + byte
  address / 8 (R358). -/
  ecc : List (Nat × Nat)
  /-- The register that the last LD wrote, for its one-cycle stall; cycles until acc is ready (R376). -/
  ldDest : Option (Fin 16)
  accBusy : Nat
  /-- A counter sample that waits for an instruction to retire: counter and retirements left (R389). -/
  samplePend : Option (Nat × Nat)
  deriving DecidableEq, Repr

/-- One event record entry (R391). -/
structure EvrEntry where
  time : Nat
  source : Nat
  held : Bool
  code : Nat
  argA : Nat
  argB : Nat
  deriving DecidableEq, Repr

/-- The event recorder (R391–R397). -/
structure Evr where
  /-- The always-on timestamp, 48 bits (R391). -/
  time : Nat
  recording : Bool
  /-- EVR_WR_INDEX before its reduction to 32 bits. -/
  wr : Nat
  /-- Entries 0 to 255 (R393). -/
  kept : List EvrEntry
  /-- The newest entries of index 256 and above, at most 1,024, oldest first (R393). -/
  circ : List EvrEntry
  /-- One waiting event for each source, in increasing source order (R394). -/
  waiting : List EvrEntry
  /-- The holding queue (R396). -/
  hold : List EvrEntry
  /-- The latched window entry (R395). -/
  latched : List Word
  deriving DecidableEq, Repr

/-- Deep capture (R399–R402). CAP_STAT.state is `phase`. -/
structure Cap where
  /-- 0 idle, 1 armed, 2 triggered, 3 ended. -/
  phase : Nat
  source : Nat
  lane : Nat
  /-- Ring length in bytes (R400). -/
  len : Nat
  preShare : Nat
  trigCode : Nat
  /-- At the trigger: recorder index, TIME_NOW_NS, always-on timestamp (R402). -/
  trigIndex : Nat
  trigTime : Nat
  trigAon : Nat
  deriving DecidableEq, Repr

/-- A fatal dump in progress or written (R404). -/
structure Dump where
  writing : Bool
  cause : Nat
  detail : Nat
  second : Nat
  time : Nat
  epoch : Nat
  topState : Word
  sram : Bool
  /-- The SRAM dump area, 1 MiB in macros 496–511 (R404). -/
  area : List Host.Cell
  deriving DecidableEq, Repr

/-! ## Transmit path -/

/-- A complete unit: port, commit epoch, 59 blocks, and the datapath cycle of its completion (R52). -/
structure TxUnit where
  port : Nat
  epoch : Nat
  blocks : List Block
  done : Nat
  /-- The number of its first 66-bit block in the port's stream (R243, R244). -/
  start : Nat
  deriving DecidableEq, Repr

/-- What a codeword slot carries (R42, R56, R58): kind 0 filler, 1 data, 2 replay. -/
structure SlotUnit where
  kind : Nat
  seq : Nat
  port : Nat
  epoch : Nat
  blocks : List Block
  badCrc : Bool
  start : Nat
  deriving DecidableEq, Repr

/-- The control message (R37): `nack` lists the used entries, `stuff` lane 0 first. -/
structure CtlMsg where
  version : Nat
  sfc : Nat
  mode : Nat
  laneMask : Nat
  linkStep : Nat
  retryOn : Bool
  holdH : Nat
  altSeed : Nat
  stuff : List Nat
  ackValid : Bool
  ackSeq : Nat
  nack : List (Nat × Nat)
  txOldest : Nat
  txNext : Nat
  probeTag : Nat
  echoTag : Nat
  echoTurn : Nat
  status : Nat
  retrainReq : Nat
  txLanes : Nat
  deriving DecidableEq, Repr

/-- A host port (R51–R54, R200–R204, R182, R183). -/
structure Port where
  /-- The port exists in the grouping in force: first lane and width in lanes; width 0 where it does not (R193). -/
  first : Nat
  width : Nat
  /-- Alignment markers are locked, and the lanes deskewed (R200). -/
  amLock : Bool
  deskew : Bool
  /-- The states of the descrambler and of the scrambler (R200, R204). -/
  rxScr : Nat
  txScr : Nat
  /-- 66-bit blocks that wait for the rest of a 257-bit block, scrambled blocks that wait for the rest of a codeword with the number
  of alignment-marker blocks among them, codewords sent since the last with markers, and the codeword sent last (R204). -/
  gather : List (BitVec 66)
  blocks : List Block
  marks : Nat
  since : Nat
  word : List Nat
  /-- The packing buffer, oldest block first, and whether it holds a Local Fault block of R53. -/
  openBlocks : List Block
  openLf : Bool
  /-- The next block packed is replaced by an error control block (R59). -/
  errNext : Bool
  /-- The elastic buffer in 66-bit blocks, oldest first (R202). -/
  eb : List (BitVec 66)
  /-- The buffer refills to its centre after it ran empty (R203). -/
  refill : Bool
  /-- The last 66-bit block sent. -/
  lastOut : Option (BitVec 66)
  /-- That block was inserted (R202). -/
  inserted : Bool
  /-- The next block for the port is replaced by an error control block (R183). -/
  errEgress : Bool
  /-- Local Fault is sent to the host (R186, R187). -/
  lfOut : Bool
  /-- The due time of the port's most recent unit release, in symbol periods (R182). -/
  lastRelease : Nat
  /-- 66-bit blocks that have entered the packing buffer, and the elastic buffer; and for the last units released the number of the
  first block and the arrival of the nominal slot, newest first (R243). -/
  packed : Nat
  shown : Nat
  froms : List (Nat × Nat)
  deriving DecidableEq, Repr

/-- The framer (R51–R62, R74, R136, R149–R157). -/
structure Framer where
  /-- Superframes are being sent, and are to be sent from the next tick. -/
  sending : Bool
  start : Bool
  /-- A superframe that was cut since the last tick: its SFC and its message (R138, R184). -/
  cut : Option (Nat × Option CtlMsg)
  sfc : Nat
  /-- 2,080 × the ticks of the superframe timer: the datapath cycle of the last one. -/
  base : Nat
  ready : List TxUnit
  /-- The control message captured for the current superframe. -/
  msg : Option CtlMsg
  /-- tx_lane_status as the slot decisions apply it (R76, R156). -/
  laneStatus : Nat
  /-- Lanes out of service for a pattern, a squelch or the safe state since the last superframe boundary (R76). -/
  out76 : Nat
  /-- retrain_req of the last accepted message (R156). -/
  peerReq : Nat
  /-- Superframes of status 0x05 still to be sent before the squelch, and whether the lanes are squelched in electrical
  idle (R157). -/
  idleLeft : Option Nat
  idle : Bool
  /-- The probe tag counter, and the last 1,024 tags sent with the cycle of their position 0 and whether they have yielded a
  sample, newest first (R149, R151). -/
  probe : Nat
  tags : List (Nat × Nat × Bool)
  /-- The partner's last tag and the aligned start, in symbol periods, of the superframe that first carried it (R150). -/
  echoTag : Nat
  echoFrom : Nat
  deriving DecidableEq, Repr

/-- DAC calibration of a lane (R67–R69). The limits use the values of the last accepted run since power-up. -/
structure DacCal where
  /-- A run requested while another is busy. -/
  again : Bool
  /-- A run has been accepted since power-up; its corrections, spur and lane temperature are the references of the next (R67,
  R68). Before one has been, they are those of the calibration record or the factory. -/
  accepted : Bool
  last : DacCorr
  spur : Nat
  temp : Int
  /-- An accepted run's corrections, which the DAC loads at the next position 0 or boundary, and those that it acts with (R68). -/
  waiting : Option DacCorr
  loaded : DacCorr
  deriving DecidableEq, Repr

/-- One lane of the transmit side (R30–R34, R63, R76). -/
structure TxLane where
  powered : Bool
  /-- The slots decided for the current superframe, codeword 0 first. -/
  slots : List SlotUnit
  /-- Displaced payload levels of the previous superframe, as labels (R33). -/
  displaced : List Nat
  /-- alt of the superframe being sent, and stuffs inserted in the previous one (R34, R62). -/
  alt : Bool
  stuffs : Nat
  /-- The last 7 levels that the DAC has sent, oldest first, and those after them that wait for the levels that follow (R63). -/
  tail : List Int
  late : List Int
  /-- The converter sample that comes next in a standard mode (R70, R214). -/
  samples : Nat
  /-- The pattern being sent and its generator's place (R76), the precoder's last symbol, and the inner FEC's state (R70, R71). -/
  gen : Nat × Nat
  pre : Nat
  fec : Nat
  /-- The DAC's output over the last stretch sent, a sample at a time in 1/512 mV (R66). -/
  out : List Int
  cal : DacCal
  deriving DecidableEq, Repr

/-! ## Receive path -/

/-- One ADC slice (R77, R80): corrections in the units of RX_SLICE_DATA, position 0–63, 64 spare, 127 parked. -/
structure Slice where
  offset : Int
  gain : Int
  slot : Nat
  deriving DecidableEq, Repr

/-- ADC background calibration of a lane (R79–R83). -/
structure AdcCal where
  slices : Vector Slice 65
  /-- Skew trims of the slots in 5 fs. -/
  trims : Vector Int 64
  /-- A run waits to start; the busy one is to abort at its step's end and start again. Whether a run is busy, its step and
  its spare slice stand in OLn_RX_CAL_STAT. -/
  request : Bool
  abort : Bool
  j0 : Nat
  tries : Nat
  shadowOk : Bool
  /-- Some result of the run was rejected; steps only re-trim skew (R81). -/
  partialRun : Bool
  skewOnly : Bool
  /-- Lane temperature at the start of this run and of the last completed run, 1/16 °C. -/
  startTemp : Int
  lastTemp : Option Int
  deriving DecidableEq, Repr

/-- The front-end states of R97. -/
inductive FeState where
  | search | acquire | track | hold
  deriving DecidableEq, Repr

/-- The ensign lock states of R145. LOST is left in the check that enters it. -/
inductive EnsState where
  | off | hunt | verify | locked | relock
  deriving DecidableEq, Repr

/-- A tap set with the detector target and variances that go with it (R88, R105, R106). -/
structure TapSet where
  taps : List (Rat × Rat)
  h1 : Rat
  h2 : Rat
  clamped : Bool
  vars : List Rat
  deriving DecidableEq, Repr

/-- The clock loop of a lane (R85, R86); its mode stands in OLn_CDR_STAT. -/
structure CdrLoop where
  /-- φ in UI, and F in UI per cycle. -/
  phase : Rat
  freq : Rat
  /-- |E| of the last cycles spent in track, newest first, and for how many of them F has stood at its limit. -/
  errs : List Rat
  atLimit : Nat
  /-- The lane symbol at which the next cycle begins. -/
  next : Nat
  deriving DecidableEq, Repr

/-- The equaliser and the detector estimates of a lane (R87–R94, R105, R106), bins 0–512. -/
structure Equ where
  acc : List (Rat × Rat)
  pow : List Rat
  inForce : TapSet
  /-- The set that the next switch point puts in force. -/
  next : Option TapSet
  /-- The first lane sample that the set in force equalises, and the set and detector configuration before it (R88). -/
  switchAt : Nat
  before : TapSet
  beforeDet : Word
  beforeTarget : Word
  /-- The staging bank that firmware writes, and whether a commit has armed it (R94). -/
  staged : List (Nat × Word)
  armed : Bool
  ramp : Nat
  dbar : Option Rat
  /-- The group delay of the first set after pilot search (R92). -/
  tau0 : Option Rat
  q : Rat × Rat × Rat
  r : Rat × Rat
  v : List Rat
  /-- OLn_DET_CTRL and OLn_DET_TARGET as the detector acts on them: they change at a switch point (R127). -/
  det : Word
  detTarget : Word
  /-- Consecutive accepted updates that met acq_snr (R97). -/
  good : Nat
  /-- Superframes of the throttle pause in progress (R345). -/
  paused : Bool
  deriving DecidableEq, Repr

/-- The detector's way through a superframe's payload region (R35, R109). -/
structure Destuff where
  pos : Nat
  run : Nat
  last : Nat
  stuffs : Nat
  overflow : Bool
  scr : Nat
  /-- The superframe that is being received and its next codeword; 32 before the first. -/
  sfc : Nat
  cw : Nat
  /-- The last superframe that ended here, with its stuffs, and whether it overflowed (R35). -/
  prev : Option (Nat × Nat × Bool)
  deriving DecidableEq, Repr

/-- One lane of the receive side. -/
structure RxLane where
  powered : Bool
  /-- The corrections of the ADC slices are retained from before STANDBY (R314, R321). -/
  keptCal : Bool
  fe : FeState
  /-- The lane sample, modulo 266,240, at which the front end or the ensign lock expects position 0 (R95, R97, R145). -/
  origin : Nat
  /-- The first lane sample that no command has carried (R78). -/
  heard : Nat
  /-- The sums of the corrected samples of the last 4,096 sub-sample blocks, newest first, in 1/160,000 code (R216, R217). -/
  means : List Int
  /-- The state of the inner FEC's decoder (R131). -/
  fec : Nat
  loop : CdrLoop
  equ : Equ
  adc : AdcCal
  lock : EnsState
  matched : Nat
  misses : Nat
  /-- Whether the ensign word of the superframe being received was matched (R93). -/
  ensignOk : Bool
  /-- A full retrain in LINKED is running, and the stage it has not passed (R155, R159). -/
  full : Bool
  /-- Held in line electrical idle (R157). -/
  heldIdle : Bool
  /-- The expected superframe count, once an accepted copy has taught it (R39). -/
  expSfc : Option Nat
  /-- The arrival of the last position 0, in symbol periods (R146). -/
  lastArrival : Nat
  /-- R146: the first offset of the alignment test, and for a lane that rejoins how many consecutive superframes it has passed
  (R155). -/
  firstSkew : Option Nat
  alignRun : Nat
  ds : Destuff
  deriving DecidableEq, Repr

/-! ## Decoder pool -/

/-- A codeword in a lane's input queue (R109, R110): its codes, and the core cycles of its arrival and deadline. -/
structure CwEntry where
  lane : Nat
  sfc : Nat
  cw : Nat
  codes : List Int
  arrival : Nat
  deadline : Nat
  deriving DecidableEq, Repr

/-- A core's work on a codeword (R111, R112): the loaded codes, posteriors, check-to-bit messages, and the core cycle at
which the work in progress ends. -/
structure Work where
  entry : CwEntry
  codes : List Int
  post : List Int
  msgs : List Int
  iter : Nat
  /-- Iterations that the dispatch has charged (R116). -/
  paid : Nat
  ends : Nat
  poison : Bool
  /-- R117 has released the codeword at its deadline while the core still holds it. -/
  released : Bool
  deriving DecidableEq, Repr

/-- One core of the pool (R111, R120): core cycles of recent uncorrectable reads, and how many codewords ago each of its
recent miscorrections was released. -/
structure PoolCore where
  work : Option Work
  ues : List Nat
  miscorr : List Nat
  deriving DecidableEq, Repr

/-- A decision on its way to its release record, and the core cycle in which it was made (R126). -/
structure Decision where
  entry : CwEntry
  core : Option Nat
  made : Nat
  outcome : Nat
  iter : Nat
  corr : Nat
  bits : List Bool
  poison : Bool
  deriving DecidableEq, Repr

/-- A release record that waits for its group's hand-on (R126, R147). -/
structure Release where
  lane : Nat
  sfc : Nat
  cw : Nat
  outcome : Nat
  hdrOk : Bool
  poison : Bool
  kind : Nat
  seq : Nat
  port : Nat
  /-- The 15,360 unit bits of the final hard decisions. -/
  bits : List Bool
  /-- The codeword's arrival, and its deadline in core cycles from arrival (R117, R147). -/
  arrival : Nat
  deadline : Nat
  deriving DecidableEq, Repr

structure Pool where
  running : Bool
  /-- The core cycle of the last pool tick. -/
  tick : Nat
  /-- n_cores, throttle level and lanes in service at the last tick. -/
  nCores : Nat
  t : Nat
  reserve : Nat
  bal : Vector Int 8
  drawn : Vector Nat 8
  /-- Lanes that delivered a codeword in the current tick (R122). -/
  delivered : Nat
  queue : List CwEntry
  /-- The kept codewords of each lane's recent failures, newest first (R110). -/
  kept : List CwEntry
  cores : Vector PoolCore 16
  decisions : List Decision
  /-- A commit's FEC values that the next tick applies (R127). -/
  staged : Bool
  deadlineNs : Nat
  grant : Nat
  resCap : Nat
  laneMax : Nat
  ctrl : Word
  coreEn : Nat
  /-- History entries that wait for their burst (R130). -/
  burst : List Nat
  histBase : Nat
  histEn : Bool
  deriving DecidableEq, Repr

/-! ## Retry ledger -/

/-- A retained unit (R169–R173). `t1` is absent until it is first sent. -/
structure Retained where
  seq : Nat
  unit : TxUnit
  t1 : Option Nat
  lane : Nat
  count : Nat
  armed : Bool
  lastStart : Nat
  unrec : Bool
  /-- T1 of the unit in which the frame that ends in this one began (R244). -/
  frameT1 : Option Nat
  deriving DecidableEq, Repr

/-- A slot handed on or reported missing (R175): its place in slot order, hand-on time in symbol periods, and what it is
known to carry: 0 a hole that may hold data, 1 identified data, 2 a replay or filler, 3 a slot that cannot hold data. -/
structure Slot where
  sfc : Nat
  cw : Nat
  lane : Nat
  handOn : Nat
  /-- When its first symbol arrived, in symbol periods (R243). -/
  arrived : Nat
  cls : Nat
  seq : Nat
  deriving DecidableEq, Repr

/-- A data sequence number the receive half knows of (R174–R181). `due` is in symbol periods. -/
structure RxUnit where
  seq : Nat
  nominal : Option Slot
  due : Option Nat
  held : Option Release
  /-- When the copy was written to the hold store, in symbol periods (R178). -/
  heldAt : Nat
  verified : Bool
  lost : Bool
  listed : Bool
  /-- The port named by a copy whose header checked (R182). -/
  port : Option Nat
  inRange : Bool
  deriving DecidableEq, Repr

/-- A range of R174: its superframes, both inclusive, and its sequence numbers, from `lo` to before `hi`. -/
structure Range where
  firstSfc : Nat
  lastSfc : Nat
  lo : Nat
  hi : Nat
  deriving DecidableEq, Repr

structure Ledger where
  txRun : Bool
  rxRun : Bool
  retryOn : Bool
  txNext : Nat
  retention : List Retained
  /-- Sequence numbers whose retained copy is unrecoverable (R171). -/
  unrec : List Nat
  lastAck : Nat
  lastAckValid : Bool
  place : Nat
  hOwn : Nat
  hRx : Nat
  hTx : Nat
  hFixed : Bool
  roundSf : Nat
  roundsUsed : Nat
  cap : Nat
  /-- The DRAM bases that the last step 6 took up (R168). -/
  retBase : Nat
  holdBase : Nat
  rxNext : Nat
  units : List RxUnit
  slots : List Slot
  ranges : List Range
  /-- The last accepted message of the receive side: its superframe and its tx_next_seq (R174). -/
  lastMsg : Option (Nat × Nat)
  /-- The partner's tx_oldest_seq as last accepted (R180). -/
  peerOldest : Nat
  /-- Units before rx_next that were declared lost, newest first (R177). -/
  lostSeqs : List Nat
  nackEntries : Nat
  lineFault : Bool
  rttGrown : Bool
  hAsym : Bool
  /-- Banks, as 16 × pseudo-channel + bank, whose slots are still to be rebuilt into a spare (R164). -/
  rebuild : List Nat
  /-- Release records that wait for their group. -/
  records : List Release
  /-- The receive half has run, and with which superframe it last started (R154). -/
  ran : Bool
  startSfc : Nat
  /-- The first superframe with an accepted message since the line fault that stands, and the due time of its group 0, at which
  the fault ends (R186). -/
  lfAfter : Option Nat
  lfDue : Option Nat
  /-- The link has gone down: the fault stands until a unit of the next run is released (R187). -/
  lfDown : Bool
  /-- The last hand-on time, which never decreases (R147). -/
  lastHandOn : Nat
  deriving DecidableEq, Repr

/-! ## Bring-up -/

/-- Bring-up and link state (R135–R159). -/
structure Link where
  step : Nat
  status : Nat
  peerStep : Nat
  peerStatus : Nat
  /-- The always-on time of the last valid partner pennant or accepted control message (R161). -/
  peerSeenAt : Option Nat
  /-- The code of the last failed attempt, 0 if none (R140). -/
  lastFail : Nat
  nonce : Nat
  peerNonce : Nat
  /-- In the attempt (R142): the partner nonce for which an ACCEPT waits, the one that an ACCEPT sent has answered, and the
  sender's nonce of a compatible ACCEPT or STATUS that answered the own nonce; 0 where there is none. -/
  cand : Nat
  answered : Nat
  gotFrom : Nat
  mismatch : Bool
  /-- A compatible pennant has been received in this step 1 (R141). -/
  compatSeen : Bool
  restarts : Nat
  /-- PARTNER_ABSENT was entered with status 0x26, and its first reinvite_ms has not passed (R159). -/
  ignoring : Bool
  readySent : Bool
  samples : List Nat
  /-- Consecutive stable superframes of the alignment test (R146), and its last superframe. -/
  stable : Nat
  stableSfc : Nat
  /-- retrain_req to send, and LINKED entry data. -/
  retrainReq : Nat
  reqSent : Nat
  /-- Accepted tx_lane_status of the partner, last and by superframe, newest first (R148). -/
  peerTx : Nat
  peerTxBy : List (Nat × Nat)
  /-- Accepted alt_seed and stuff_count by superframe, newest first (R35). -/
  peerAlt : List (Nat × Nat)
  peerStuff : List (Nat × List Nat)
  /-- The partner's ready status 2–4 as accepted in this attempt; 0 before (R153). -/
  peerReady : Nat
  /-- Every active receive lane starts afresh on the next entry to step 2 (R138). -/
  fresh : Bool
  /-- Messages lost, discarded under R40, and control disagreements (R39, R40): the spec names no register for them. -/
  ctlLost : Nat
  ctlDiscard : Nat
  ctlDisagree : Nat
  deriving DecidableEq, Repr

/-! ## Host lanes -/

inductive HostState where
  | down | adapt | up | idle
  deriving DecidableEq, Repr

/-- One host lane (R197–R210). -/
structure HostLane where
  st : HostState
  /-- Signal present, CDR locked, adaptation completed since the last DOWN. -/
  sig : Bool
  cdr : Bool
  adapted : Bool
  /-- Settings stored at idle entry (R206), and the 1 µs fast exit running. -/
  stored : Bool
  exiting : Bool
  emf : Nat
  worst : Nat
  emfValid : Bool
  low : Nat
  prbsLocked : Bool
  /-- The checker is seeded, or takes its seed from the bits that come; its pairing is exchanged; its symbol stream is delayed by so
  many symbols, and its bit stream advanced by so many bits, that the bits to come have not met yet (R210). -/
  seeded : Bool
  swapped : Bool
  delay : Nat
  skip : Nat
  /-- The checker's pattern code; its generator: bits still to seed and its place; error-free bits in a row; bits compared, and at which of them the
  last 64 errors stood, newest first (R209). -/
  chk : Nat
  need : Nat
  place : Nat
  clean : Nat
  bits : Nat
  errors : List Nat
  /-- The equaliser's coefficients, and those stored at idle entry (R197, R206). -/
  coeffs : List Int
  kept : List Int
  /-- The transmitter is ordered into electrical idle (R206), and HLn_CTRL, HLn_TX_FIR and HLn_PRBS_CTRL as they were in force at
  that order (R207). -/
  idle : Bool
  held : Option (Word × Word × Word)
  /-- The last symbols before the inverse precoder and after the precoder, the last three levels before the FIR, and the pattern
  being sent with its generator's place (R199, R209). -/
  rxPre : Nat
  txPre : Nat
  line : List Int
  gen : Nat × Nat
  /-- The output over the last symbols sent, in 1/384 mV (R199). -/
  out : List Int
  deriving DecidableEq, Repr

/-! ## Pennant channel -/

/-- A pennant that waits: its type, payload, its seq where an acknowledgement carries it, and whether it is an ACCEPT. -/
structure PenItem where
  kind : Nat
  payload : List Byte
  seq : Option Nat
  accept : Bool
  deriving DecidableEq, Repr

/-- A candidate of a correlator (R216, R224, R225): a preamble is detected, or a burgee word is matched too. -/
structure Candidate where
  matched : Bool
  /-- The 32 signed soft values x_k s_k of the burgee word, from which A and σ² come. -/
  xs : List Int
  /-- The number of blocks that stood at the detection, and the amplitude estimated from the preamble, as Σ x_k s_k. -/
  since : Nat
  amp : Int
  /-- The phase: the block at which the next symbol begins. -/
  next : Nat
  /-- Soft values since the detection, and since the match once there is one, oldest first. -/
  soft : List Int
  /-- Symbols since the last early-late comparison, and what late has exceeded early by over them. -/
  run : Nat
  late : Int
  deriving DecidableEq, Repr

structure Mail where
  seq : Nat
  bytes : List Byte
  deriving DecidableEq, Repr

structure Pen where
  /-- Waiting pennants by R228's priority 1–5; of the periodic ones at most one of each kind. -/
  waiting : List (Nat × PenItem)
  /-- The pennant being sent, and of the one sent last its header, CRC-16, symbols and start in converter samples. -/
  sending : Option PenItem
  sendHead : Nat
  sendCrc : Nat
  sendBits : List Bool
  sendStart : Nat
  /-- Sequence counters by type. -/
  seqs : List (Nat × Nat)
  /-- Header, CRC-16 and end in µs of the last four sent, newest first (R227). -/
  sent : List (Nat × Nat × Nat)
  /-- Sub-sample blocks received, the sum over the selected lanes of the last 4,096, and the signal of R216 of the last 800, as
  4,096 times the sum less the sums of the last 4,096; both newest first. -/
  blockNo : Nat
  sums : List Int
  signal : List Int
  rx : Nat
  cand : Option Candidate
  second : Option Candidate
  head : Nat
  nCw : Nat
  info : List Bool
  whiten : Nat
  failed : Bool
  mbState : Nat
  mbTries : Nat
  mbSeq : Nat
  mbMail : List Byte
  mbWait : Bool
  rxQueue : List Mail
  lastMail : Option Nat
  /-- The far end's latest telemetry, empty before the first, its seq, and the always-on time of its acceptance (R232). -/
  telemetry : List Byte
  telSeq : Nat
  telAt : Nat
  /-- Release records with outcomes 1–5 of each lane since the last telemetry (R231). -/
  fails : Vector Nat 8
  deriving DecidableEq, Repr

/-! ## Time -/

/-- A PTP frame between its ingress and its egress (R239–R244). -/
structure PtpFrame where
  toLine : Bool
  port : Nat
  /-- The number of the 66-bit block of the port's stream in which the destination address begins, and how many the frame takes. -/
  place : Nat
  len : Nat
  bytes : List Byte
  /-- Offset of the PTP header, encapsulation 0 Ethernet, 1 IPv4, 2 IPv6, and the stamp I, where it was stamped. -/
  stamp : Option (Nat × Nat × Nat)
  /-- The payload bit of its unit at which the destination address begins, and the start of the slot of that unit's first
  transmission, in datapath cycles, once it has been sent (R243, R244). -/
  bit : Nat
  t1 : Option Nat
  deriving DecidableEq, Repr

/-- The TIME block beside its registers (R234–R249). -/
structure TimeSt where
  /-- The counter modulo 2^32 ns, in units of 2^−48 / 5 ns: the 48 fraction bits and the exact residue below them (R234). -/
  count : Nat
  wraps : Nat
  /-- The residence base in the same units, never stepped (R238). -/
  base : Nat
  /-- The part of a time-clock cycle that ticks and always-on cycles have left over, in 1/29,184 cycle, and the cycles by which
  commands have let the counter run ahead of them (R234). -/
  rem : Nat
  ahead : Nat
  /-- Of the last 600 ticks the datapath cycle, the residence base then, and the part of a time-clock cycle left over, newest first
  (R243). -/
  marks : List (Nat × Nat × Nat)
  latchFrac : Nat
  servo : Int
  /-- The integral in 1/4,096 ppb (R247). -/
  integ : Int
  step : Option (Nat × Bool)
  edgeSeen : Bool
  missRun : Nat
  flight : List PtpFrame
  lastOut : List Byte
  deriving DecidableEq, Repr

/-- The datapath. -/
structure Datapath where
  ports : Vector Port 16
  framer : Framer
  tx : Vector TxLane 8
  rx : Vector RxLane 8
  pool : Pool
  ledger : Ledger
  link : Link
  host : Vector HostLane 16
  pen : Pen
  time : TimeSt
  deriving DecidableEq, Repr

def Port.initial : Port :=
  { first := 0, width := 0, amLock := false, deskew := false, rxScr := 0, txScr := 0, gather := [], blocks := [], marks := 0, since := 0,
    word := [], openBlocks := [], openLf := false, errNext := false,
    eb := [], refill := false, lastOut := none, inserted := false, errEgress := false, lfOut := false, lastRelease := 0, packed := 0, shown := 0, froms := [] }

def Framer.initial : Framer :=
  { sending := false, start := false, cut := none, sfc := 0, base := 0, ready := [], msg := none, laneStatus := 0, out76 := 0, peerReq := 0,
    idleLeft := none, idle := false, probe := 0, tags := [], echoTag := 0, echoFrom := 0 }

def DacCorr.none : DacCorr := { gains := [], skews := [], offsets := [], errors := [] }

def TxLane.initial : TxLane :=
  { powered := false, slots := [], displaced := [], alt := false, stuffs := 0, tail := [], late := [], samples := 0, gen := (0, 0), pre := 0,
    fec := 0, out := [], cal := { again := false, accepted := false, last := DacCorr.none, spur := 0, temp := 0, waiting := none, loaded := DacCorr.none } }

/-- Corrections of slices that stand where power-up puts them: slice j in slot j, slice 64 the spare (R77). -/
def Slice.home (v : Vector Slice 65) : Vector Slice 65 := v.mapFinIdx fun i x _ => { x with slot := i }

/-- Slice j in slot j, slice 64 the spare (R77). -/
def AdcCal.initial : AdcCal :=
  { slices := Vector.ofFn fun i => { offset := 0, gain := 0, slot := i.val }, trims := Vector.replicate 64 0,
    request := false, abort := false, j0 := 0, tries := 0, shadowOk := false,
    partialRun := false, skewOnly := false, startTemp := 0, lastTemp := none }

def TapSet.initial : TapSet := { taps := [], h1 := 0, h2 := 0, clamped := false, vars := [] }

def Equ.initial : Equ :=
  { acc := [], pow := [], inForce := TapSet.initial, next := none, switchAt := 0, before := TapSet.initial, beforeDet := 0x1080,
    beforeTarget := 0, staged := [], armed := false, ramp := 0,
    dbar := none, tau0 := none, q := (0, 0, 0), r := (0, 0), v := [], det := 0x1080, detTarget := 0, good := 0, paused := false }

def Destuff.initial : Destuff :=
  { pos := 4096, run := 0, last := 0, stuffs := 0, overflow := false, scr := 0, sfc := 0, cw := 32, prev := none }

def CdrLoop.initial : CdrLoop := { phase := 0, freq := 0, errs := [], atLimit := 0, next := 0 }

def RxLane.initial : RxLane :=
  { powered := false, keptCal := false, fe := .search, origin := 0, heard := 0, means := [], fec := 0, loop := CdrLoop.initial, equ := Equ.initial, adc := AdcCal.initial, lock := .off, matched := 0,
    misses := 0, ensignOk := false, full := false, heldIdle := false, expSfc := none, lastArrival := 0,
    firstSkew := none, alignRun := 0, ds := Destuff.initial }

def Pool.initial : Pool :=
  { running := false, tick := 0, nCores := 0, t := 0, reserve := 0, bal := Vector.replicate 8 0,
    drawn := Vector.replicate 8 0, delivered := 0, queue := [], kept := [],
    cores := Vector.replicate 16 { work := none, ues := [], miscorr := [] }, decisions := [], staged := false,
    deadlineNs := 260, grant := 3328, resCap := 32768, laneMax := 8192, ctrl := 0x000C0C50, coreEn := 0xFFFF,
    burst := [], histBase := 1, histEn := true }

def Ledger.initial : Ledger :=
  { txRun := false, rxRun := false, retryOn := false, txNext := 0, retention := [], unrec := [], lastAck := 0,
    lastAckValid := false, place := 0, hOwn := 0, hRx := 0, hTx := 0, hFixed := false, roundSf := 0, roundsUsed := 0,
    cap := 0, retBase := 1, holdBase := 2, rxNext := 0, units := [], slots := [], ranges := [], lastMsg := none,
    peerOldest := 0, lostSeqs := [], nackEntries := 0, lineFault := false, rttGrown := false, hAsym := false,
    rebuild := [], records := [], ran := false, startSfc := 0, lfAfter := none, lfDue := none, lfDown := false, lastHandOn := 0 }

def Link.initial : Link :=
  { step := 0, status := 0, peerStep := 0, peerStatus := 0, peerSeenAt := none, lastFail := 0, nonce := 0, peerNonce := 0, cand := 0, answered := 0,
    gotFrom := 0, mismatch := false, compatSeen := false, restarts := 0, ignoring := false,
    readySent := false, samples := [], stable := 0, stableSfc := 0, retrainReq := 0,
    reqSent := 0, peerTx := 0, peerTxBy := [], peerAlt := [], peerStuff := [], peerReady := 0, fresh := false,
    ctlLost := 0, ctlDiscard := 0, ctlDisagree := 0 }

def HostLane.initial : HostLane :=
  { st := .down, sig := false, cdr := false, adapted := false, stored := false, exiting := false, emf := 0, worst := 0,
    emfValid := false, low := 0, prbsLocked := false, seeded := false, swapped := false, delay := 0,
    skip := 0, chk := 0, need := 0, place := 0, clean := 0, bits := 0, errors := [], coeffs := [], kept := [], idle := false, held := none,
    rxPre := 0, txPre := 0, line := [], gen := (0, 0), out := [] }

def Pen.initial : Pen :=
  { waiting := [], sending := none, sendHead := 0, sendCrc := 0, sendBits := [], sendStart := 0, seqs := [], sent := [],
    blockNo := 0, sums := [], signal := [], rx := 0, cand := none, second := none, head := 0, nCw := 0, info := [], whiten := 0, failed := false, mbState := 0,
    mbTries := 0, mbSeq := 0, mbMail := [], mbWait := false, rxQueue := [], lastMail := none, telemetry := [], telSeq := 0, telAt := 0,
    fails := Vector.replicate 8 0 }

def TimeSt.initial : TimeSt :=
  { count := 0, wraps := 0, base := 0, rem := 0, ahead := 0, marks := [], latchFrac := 0, servo := 0, integ := 0, step := none,
    edgeSeen := false, missRun := 0, flight := [], lastOut := [] }

def Datapath.initial : Datapath :=
  { ports := Vector.replicate 16 Port.initial, framer := Framer.initial, tx := Vector.replicate 8 TxLane.initial,
    rx := Vector.replicate 8 RxLane.initial, pool := Pool.initial, ledger := Ledger.initial, link := Link.initial,
    host := Vector.replicate 16 HostLane.initial, pen := Pen.initial, time := TimeSt.initial }


/-! ## The block -/

/-- No command of this model ends in a fault: the spec gives each an effect. The type is closed. -/
inductive Fault where
  /-- Raised by no command. Safe. -/
  | unreached
  deriving DecidableEq, Repr

/-- Why a command has no effect in the model. -/
inductive Refusal where
  /-- The dispatcher answers it for a command whose meaning is not written. Safe: nothing can be proved of its result. -/
  | notModelled (mnemonic : String)
  deriving DecidableEq, Repr

/-- The whole state. -/
structure State where
  /-- Registers that are not staged, and the status of the block (R6). -/
  regs : RegMap
  /-- The staged and the in-force copies of staged configuration (R256). -/
  staged : RegMap
  inForce : RegMap
  mgmt : Mgmt
  boot : Boot
  clk : Clk
  pwr : Pwr
  hsk : Hsk
  bias : Bias
  therm : Therm
  safe : Safe
  mem : MemState
  eng : Vector Engine 9
  evr : Evr
  cap : Cap
  dump : Dump
  dp : Datapath
  /-- How many free values have been drawn: the model's own field (log entry 1). -/
  draws : Nat
  /-- The commands that wait, first in, first out. -/
  pending : List Instr
  deriving DecidableEq, Repr

def Engine.initial : Engine :=
  { pc := 0, g := Vector.replicate 16 0, acc := 0, stack := [], ev := 0, timer0 := 0, timer1 := 0, wdog := 0,
    st := .reset, cause := 0, restarts := 0, trapTimes := [], wfe := none, wbuf := [], hasProg := false, prog := [],
    data := [], ecc := [], ldDest := none, accBusy := 0, samplePend := none }

/-- The block right after hard reset: VDD_AON up, RESET_N just released, straps not sampled yet (R8, R275, R425). -/
def State.reset : State where
  regs := []
  staged := []
  inForce := []
  mgmt := { dev := .boot, prev := .off, timerRun := false, commitSkip := false, refPending := none, settleLanes := 0, settlePool := false, settleAux := 0,
            snapClear := false, snapTaken := false, snapNext := [], snapNextEpoch := 0, snapBank := [], hiLatch := [], pwrWrites := [], mirror := [],
            mdioAddr := 0, mdioInc := false, mdioErr := false, mdioHeld := 0, mdioHigh := 0, readData := 0, burst := [],
            cmdTaken := false, linkSet := none }
  boot := { aonUp := true, removed := false, resetLow := false, phase := .reset,
            fuses := { lc := 0, vendorSet := false, ownerSet := false, rollback := 0, uid := [], vendorHash := [],
                       ownerHash := [], oscTrim := 0, sensorCal := [], repair := [] },
            source := .nvmPrimary, nvmErase := false, secondaryMagic := false, header := [], offset := 0,
            nRecords := 0, region := [], held := [], wrote := [], acted := [], dlAddr := 0, dlLen := 0,
            commitOne := false, sinceRelease := 0, challenge := [], fuseOp := 0, nvmRepair := [] }
  clk := { goodRun := 0, badRun := 0, oscBad := 0, holdover := false, selOsc := false, relocking := [], stopped := [.sys, .line, .pool, .host 0, .host 1, .host 2, .host 3, .dram],
           wantReturn := false, failing := false, hostLock := 0,
           rampFabric := 1, rampDatapath := 1, rampPool := 1, closing := 0 }
  pwr := { pstate := 0, target := 0, phase := .none, asking := 0, forced := false, byCommand := false,
           delaying := false, heldState := .boot, heldWake := 0, timerExpired := false,
           followSquelch := false, byFollow := false, retained := false, entryTime := 0 }
  hsk := { running := false, input := .pin 0, entry := 0, made := 0, converting := false, seqA := 0, seqB := 0, ofs := 0, gain := 0, len := 64 }
  bias := { ch := Vector.replicate 16
              { phase := 0, codeOut := 0, clamped := false, sat := false, released := false, gainUsed := 0 } }
  therm := { sensors := Vector.replicate 12
               { temp := 0, valid := false, suspect := false, farRun := 0, nearRun := 0, hotLast := false },
             tmax := 0, tmaxSensor := 0, level := 0, degraded := false, fromHold := false, laneTemp := Vector.replicate 8 0 }
  safe := { lane := Vector.replicate 8 .safe, txdis := false, bscan := false, igsRun := false, pwrHold := false,
            laserReq := none }
  mem := { dram := [], dramValid := [], sramValid := [], dramEcc := [], sramEcc := [], regEcc := [],
           banksSpared := [], banksLost := [], repair := [], rowsUsed := [], colsUsed := [], run := none,
           held := { worst := 0, repaired := 0, failing := 0 } }
  eng := Vector.replicate 9 Engine.initial
  evr := { time := 0, recording := false, wr := 0, kept := [], circ := [], waiting := [], hold := [], latched := [] }
  cap := { phase := 0, source := 0, lane := 0, len := 0, preShare := 0, trigCode := 0, trigIndex := 0, trigTime := 0,
           trigAon := 0 }
  dump := { writing := false, cause := 0, detail := 0, second := 0, time := 0, epoch := 0, topState := 0, sram := false,
            area := [] }
  dp := Datapath.initial
  draws := 0
  pending := []

end Sys2Proof.Machine
end

