-- ==== Sys2Proof/Machine/LineFormat.lean ====
section
/-!
DEFINITION. The Ciruvis line format to the bit (R22–R50), and the pennant's format (R218–R222): generators, scramblers,
stuffing, the control field and its code, the retry unit, and the two LDPC codes with their decoder (R111, R223).
-/

namespace Sys2Proof.Machine

/-! ## Symbols and levels (R22, R23) -/

/-- The level of a label (R22). -/
def levelOf (lab : Nat) : Int :=
  match lab % 4 with
  | 0 => -3
  | 1 => -1
  | 3 => 1
  | _ => 3

/-- The label of a level (R22); of a level outside the map, 0. -/
def labelOf (lev : Int) : Nat := if lev = -1 then 1 else if lev = 1 then 3 else if lev = 3 then 2 else 0

/-- Labels of a bit sequence: b1 is the earlier bit of each pair (R23). -/
def toLabels : List Bool → List Nat
  | b1 :: b0 :: t => (2 * b2n b1 + b2n b0) :: toLabels t
  | _ => []

/-- The bits of labels (R23). -/
def ofLabels (ls : List Nat) : List Bool := ls.flatMap fun l => [bitOf l 1, bitOf l 0]

/-- The first `n` outputs of a two-tap generator of `w` state bits (R27, R28, R221): the output is the exclusive-or of the
top bit and bit `tap`, and is shifted in. -/
def lfsr (w tap : Nat) : Nat → Nat → List Bool
  | 0, _ => []
  | n + 1, s =>
    let o := bitOf s (w - 1) != bitOf s tap
    o :: lfsr w tap n ((2 * s + b2n o) % 2 ^ w)

/-- The state after `n` steps of that generator. -/
def lfsrState (w tap : Nat) : Nat → Nat → Nat
  | 0, s => s
  | n + 1, s => lfsrState w tap n ((2 * s + b2n (bitOf s (w - 1) != bitOf s tap)) % 2 ^ w)

/-- The ensign word's levels (R27). -/
def ensign : List Int := (lfsr 7 5 128 0x7F).map fun o => if o then 3 else -3

/-- The pilot sequence of a lane, as labels (R28). -/
def pilot (n : Nat) : List Nat := toLabels (lfsr 11 8 2048 (0x40F ||| (n <<< 4)))

/-- P as levels. -/
def pilotLevels (n : Nat) : List Int := (pilot n).map levelOf

/-- The pilot field: the tail of P, P, P, and the head of P (R28). -/
def pilotField (n : Nat) : List Nat :=
  let p := pilot n
  p.drop 896 ++ p ++ p ++ p.take 128

/-- Two steps of the scrambler generator: s1 and s0 as a label, and the next state (R29). -/
def scramStep (s : Nat) : Nat × Nat :=
  let step (s : Nat) : Nat × Nat :=
    let o := b2n (bitOf s 30 != bitOf s 27)
    (o, (2 * s + o) % 2 ^ 31)
  let (o1, s) := step s
  let (o0, s) := step s
  (2 * o1 + o0, s)

/-- Scramble labels, with the state afterwards (R29). -/
def scramble : List Nat → Nat → List Nat × Nat
  | [], s => ([], s)
  | l :: t, s =>
    let (k, s) := scramStep s
    let (r, s) := scramble t s
    ((l ^^^ k) :: r, s)

/-- The state after `n` pairs of steps. -/
def scramSkip : Nat → Nat → Nat
  | 0, s => s
  | n + 1, s => scramSkip n (scramStep s).2

/-- The header scrambler's seed (R30). -/
def headerSeed (n : Nat) : Nat := 0x22AAAAAA ||| (n <<< 26)

/-- The payload scrambler's seed (R31). -/
def payloadSeed (n : Nat) (alt : Bool) (sfc : Nat) : Nat :=
  0x40000000 ||| (b2n alt <<< 29) ||| (n <<< 26) ||| (sfc % 2 ^ 26)

/-! ## Stuffing (R32–R34) -/

/-- The transmitter's way through the payload region: the next position, run, last level label, stuffs, overflow. -/
structure Stuffing where
  pos : Nat
  run : Nat
  last : Nat
  stuffs : Nat
  overflow : Bool
  deriving DecidableEq, Repr

def Stuffing.start : Stuffing := { pos := 4096, run := 0, last := 0, stuffs := 0, overflow := false }

/-- The stuff symbol after a run at a label: −3 after +3 or +1, +3 after −3 or −1 (R32). -/
def stuffLabel (lab : Nat) : Nat := if levelOf lab > 0 then 0 else 2

/-- Count one line symbol in the run (R32). -/
def Stuffing.count (t : Stuffing) (lab : Nat) : Stuffing :=
  { t with run := if t.run ≠ 0 ∧ t.last = lab then t.run + 1 else 1, last := lab, pos := t.pos + 1 }

/-- Whether a stuff comes before the next payload symbol, and whether it overflows instead (R32, R34). Called only where a
payload symbol remains to be sent. The overflow is an event of the run reaching 40. -/
def Stuffing.due (t : Stuffing) : Bool × Bool :=
  (t.run == 40 && decide (t.pos ≤ 266239) && decide (t.stuffs < 512),
   t.run == 40 && decide (t.pos ≤ 266239) && decide (512 ≤ t.stuffs))

/-- Stuff scrambled payload labels (R32): the line labels in order, and the state at the end. -/
def stuff : List Nat → Stuffing → List Nat × Stuffing
  | [], t => ([], t)
  | l :: rest, t =>
    let (ins, ovf) := t.due
    let t := { t with overflow := t.overflow || ovf }
    let (pre, t) := if ins then
        ([stuffLabel t.last], { (t.count (stuffLabel t.last)) with stuffs := t.stuffs + 1 })
      else ([], t)
    let (r, t) := stuff rest (t.count l)
    (pre ++ l :: r, t)

/-! ## The control field's code (R36): GF(2^12) with p(x) = x^12 + x^6 + x^4 + x + 1 -/

/-- Multiply by α. -/
def gfTimesA (a : Nat) : Nat := let b := 2 * a; if b < 4096 then b else b ^^^ 0x1053

/-- Multiplication in GF(2^12). -/
def gfMul (a b : Nat) : Nat :=
  (List.range 12).reverse.foldl (fun r i => let r := gfTimesA r; if bitOf b i then r ^^^ a else r) 0

/-- α^n. -/
def gfPow : Nat → Nat
  | 0 => 1
  | n + 1 => gfTimesA (gfPow n)

/-- Powers by squaring. -/
def gfExp (a n : Nat) : Nat := (List.range 12).reverse.foldl (fun r i => let r := gfMul r r; if bitOf n i then gfMul r a else r) 1

/-- The inverse of a non-zero element: a^4094. -/
def gfInv (a : Nat) : Nat := gfExp a 4094

/-- The minimal polynomial of α^i over GF(2), coefficient j in bit j: the product of x − α^(i × 2^k), k = 0–11 (R36). -/
def minPoly (i : Nat) : Nat :=
  -- each root is the square of the one before; p × (x + r)
  let poly := (List.range 12).foldl (fun (p : List Nat × Nat) _ =>
    (List.zipWith (· ^^^ ·) (0 :: p.1) (p.1.map (gfMul p.2) ++ [0]), gfMul p.2 p.2)) ([1], gfPow i)
  poly.1.foldr (fun c a => 2 * a + c % 2) 0

/-- Carry-less multiplication of polynomials over GF(2). -/
def polyMul (a b : Nat) : Nat := (List.range 13).foldl (fun r i => if bitOf b i then r ^^^ (a <<< i) else r) 0

/-- g(x), of degree 252 (R36). -/
def bchGen : Nat := (List.range 21).foldl (fun g k => polyMul g (minPoly (2 * k + 1))) 1

/-- The 252 parity bits of a message of 1,792 bits, first sent first (R36). -/
def bchParity (msg : List Bool) : List Bool :=
  let g := bchGen % 2 ^ 252
  let reg := msg.foldl (fun r b =>
    let f := bitOf r 251 != b
    let r := (2 * r) % 2 ^ 252
    if f then r ^^^ g else r) 0
  msbBits 252 reg

/-- Syndrome S_j = c(α^j) of 2,044 received bits (R36), by Horner. -/
def bchSyndrome (bits : List Bool) (j : Nat) : Nat :=
  let a := gfPow (j % 4095)
  bits.foldl (fun r b => gfMul r a ^^^ b2n b) 0

/-- One step of the Berlekamp–Massey iteration over a row of syndromes, in the field of a product and an inverse:
(Λ, B, L, m, b). -/
def bmStep (mul : Nat → Nat → Nat) (inv : Nat → Nat) (syn : List Nat) (st : List Nat × List Nat × Nat × Nat × Nat) (n : Nat) :
    List Nat × List Nat × Nat × Nat × Nat :=
  let (lam, b, l, m, bb) := st
  let d := (List.range (l + 1)).foldl (fun a i => a ^^^ mul (lam.getD i 0) (syn.getD (n - i) 0)) 0
  if d = 0 then (lam, b, l, m + 1, bb)
  else
    let f := mul d (inv bb)
    let sub := List.replicate m 0 ++ b.map (mul f)
    let len := Nat.max lam.length sub.length
    let lam' := (List.range len).map fun i => lam.getD i 0 ^^^ sub.getD i 0
    if 2 * l ≤ n then (lam', lam, n + 1 - l, 1, d) else (lam', b, l, m + 1, bb)

/-- The error locator of the syndromes S_1 to S_42. -/
def bchLocator (syn : List Nat) : List Nat × Nat :=
  let r := (List.range 42).foldl (bmStep gfMul gfInv syn) ([1], [1], 0, 1, 1)
  (r.1, r.2.2.1)

/-- Decode 2,044 received bits within 21 errors (R36, R39): the corrected bits, or none. A codeword is a message with its
parity. -/
def bchDecode (bits : List Bool) : Option (List Bool) :=
  if bits.drop 1792 = bchParity (bits.take 1792) then some bits
  else
    let syn := (List.range 42).map fun j => bchSyndrome bits (j + 1)
    let (lam, l) := bchLocator syn
    if 21 < l then none
    else
      -- bit i is the coefficient of x^(2,043 − i); it is in error when Λ(α^(−(2,043 − i))) = 0
      let fixed := (List.range bits.length).map fun i =>
        let x := gfPow ((4095 - (2043 - i)) % 4095)
        let v := lam.foldr (fun c a => gfMul a x ^^^ c) 0
        (bits.getD i false != (v == 0), v == 0)
      if (fixed.filter (·.2)).length = l ∧ (List.range 42).all (fun j => bchSyndrome (fixed.map (·.1)) (j + 1) == 0)
      then some (fixed.map (·.1)) else none

/-! ## The control message (R37, R38, R40) -/

/-- The 1,776 bits before msg_crc (R37). -/
def CtlMsg.body (m : CtlMsg) : List Bool :=
  let nacks := (List.range 16).flatMap fun i =>
    let (q, n) := m.nack.getD i (0, 0)
    msbBits 18 q ++ msbBits 10 n
  msbBits 4 m.version ++ msbBits 32 m.sfc ++ msbBits 4 m.mode ++ msbBits 8 m.laneMask ++ msbBits 4 m.linkStep
    ++ [m.retryOn] ++ msbBits 10 m.holdH ++ msbBits 8 m.altSeed
    ++ (List.range 8).flatMap (fun i => msbBits 10 (m.stuff.getD i 0))
    ++ [m.ackValid] ++ msbBits 18 m.ackSeq ++ nacks ++ msbBits 18 m.txOldest ++ msbBits 18 m.txNext
    ++ msbBits 16 m.probeTag ++ msbBits 16 m.echoTag ++ msbBits 32 m.echoTurn ++ msbBits 8 m.status
    ++ msbBits 8 m.retrainReq ++ msbBits 8 m.txLanes ++ List.replicate 1034 false

/-- The 1,792 message bits (R37, R38). -/
def CtlMsg.bits (m : CtlMsg) : List Bool := m.body ++ msbBits 16 (crc16 m.body)

/-- The 2,048 bits of the control field before scrambling (R36). -/
def CtlMsg.field (m : CtlMsg) : List Bool := m.bits ++ bchParity m.bits ++ [false, false, false, false]

/-- Field `[off, off + n)` of a message, most significant bit first. -/
def msgField (bits : List Bool) (off n : Nat) : Nat := ofMsb ((bits.drop off).take n)

/-- Read a message whose msg_crc checks; used nack entries are those before the first unused one (R37, R38). -/
def CtlMsg.parse (bits : List Bool) : Option CtlMsg :=
  if crc16 (bits.take 1776) ≠ msgField bits 1776 16 then none
  else
    let f := msgField bits
    some { version := f 0 4, sfc := f 4 32, mode := f 36 4, laneMask := f 40 8, linkStep := f 48 4,
           retryOn := f 52 1 == 1, holdH := f 53 10, altSeed := f 63 8,
           stuff := (List.range 8).map fun i => f (71 + 10 * i) 10,
           ackValid := f 151 1 == 1, ackSeq := f 152 18,
           nack := ((List.range 16).map fun i => (f (170 + 28 * i) 18, f (188 + 28 * i) 10)).filter (·.2 != 0),
           txOldest := f 618 18, txNext := f 636 18, probeTag := f 654 16, echoTag := f 670 16, echoTurn := f 686 32,
           status := f 718 8, retrainReq := f 726 8, txLanes := f 734 8 }

/-- A message that R40 counts and discards. -/
def CtlMsg.discarded (m : CtlMsg) : Bool :=
  m.version != 1 || !(m.mode == 1 || m.mode == 2) || !(decide (2 ≤ m.linkStep) && decide (m.linkStep ≤ 8))
    || (m.retryOn && !(decide (1 ≤ m.holdH) && decide (m.holdH ≤ 512))) || (!m.retryOn && m.holdH != 0)

/-- A received control field of a lane: descrambled, decoded and checked (R30, R36, R38, R39). -/
def readCopy (lane : Nat) (field : List Bool) : Option CtlMsg :=
  let labels := (scramble (toLabels field) (headerSeed lane)).1
  match bchDecode ((ofLabels labels).take 2044) with
  | none => none
  | some bits => CtlMsg.parse (bits.take 1792)

/-! ## The retry unit (R41–R46) -/

/-- The 64 header bits (R42, R43). -/
def unitHeader (seq kind port epoch : Nat) : List Bool :=
  let h := msbBits 18 seq ++ msbBits 2 kind ++ msbBits 4 port ++ msbBits 4 epoch ++ msbBits 12 0
  h ++ msbBits 24 (crc24 h)

/-- The 15,163 payload bits: 59 blocks of 257 bits (R44), zeros where there is none (R46). -/
def unitPayload (blocks : List Block) : List Bool :=
  (List.range 59).flatMap fun i => msbBits 257 (blocks.getD i 0).toNat

/-- The 15,360 bits of a unit (R41, R45); `bad` inverts the CRC-32 (R58). -/
def unitBits (seq kind port epoch : Nat) (blocks : List Block) (bad : Bool) : List Bool :=
  let hp := unitHeader seq kind port epoch ++ unitPayload blocks
  let c := crc32Line hp
  hp ++ msbBits 32 (if bad then c ^^^ 0xFFFFFFFF else c) ++ List.replicate 101 false

/-- The code of a slot's kind (R42): filler 0, data 1, replay 2. -/
def SlotUnit.bits (u : SlotUnit) : List Bool := unitBits u.seq u.kind u.port u.epoch u.blocks u.badCrc

/-- The header of a unit's bits: seq, kind, port and whether it checks; kind 0b11 is a failed header (R43, R46). -/
def readHeader (bits : List Bool) : Nat × Nat × Nat × Bool :=
  let f := msgField bits
  (f 0 18, f 18 2, f 20 4, crc24 (bits.take 40) == f 40 24 && f 18 2 != 3)

/-- The blocks of a unit's bits (R44). -/
def readBlocks (bits : List Bool) : List Block :=
  (List.range 59).map fun i => BitVec.ofNat 257 (ofMsb ((bits.drop (64 + 257 * i)).take 257))

/-- The blocks of a release record's unit. -/
def Release.blocks (r : Release) : List Block := readBlocks r.bits

/-! ## Quasi-cyclic codes (R48, R49, R222) -/

/-- A code: row blocks, information columns, lifting size. The shift of row i and column j < info is i(2j + 1) mod z, and
the parity columns form a staircase of zero shifts. -/
structure QcCode where
  rows : Nat
  info : Nat
  z : Nat
  deriving DecidableEq, Repr

/-- The inner code (R48). -/
def innerCode : QcCode := { rows := 4, info := 60, z := 256 }
/-- The short code of the pennant channel (R222). -/
def shortCode : QcCode := { rows := 8, info := 8, z := 64 }

/-- The shift s(i, j), none for a zero block (R48, R222). -/
def QcCode.shift (q : QcCode) (i j : Nat) : Option Nat :=
  if j < q.info then some (i * (2 * j + 1) % q.z)
  else if j = q.info + i ∨ j + 1 = q.info + i then some 0 else none

/-- The bits that check row `r` of row block `i` includes (R48). -/
def QcCode.check (q : QcCode) (i r : Nat) : List Nat :=
  (List.range (q.info + q.rows)).filterMap fun j => (q.shift i j).map fun s => q.z * j + (r + s) % q.z

/-- The parity blocks (R49, R222): p_t = lam_t xor p_(t−1). -/
def QcCode.parity (q : QcCode) (u : List Bool) : List Bool :=
  let a := u.toArray
  let lam (i r : Nat) : Bool := (List.range q.info).foldl (fun x j =>
    x != a.getD (q.z * j + (r + i * (2 * j + 1) % q.z) % q.z) false) false
  ((List.range q.rows).foldl (fun (acc : List Bool × List Bool) i =>
    let p := (List.range q.z).map fun r => lam i r != acc.2.getD r false
    (acc.1 ++ p, p)) ([], [])).1

/-- A codeword: the information bits, then the parity (R49). -/
def QcCode.encode (q : QcCode) (u : List Bool) : List Bool := u ++ q.parity u

/-- Every check is satisfied (R112). -/
def QcCode.satisfied (q : QcCode) (c : List Bool) : Bool :=
  let a := c.toArray
  (List.range q.rows).all fun i => (List.range q.z).all fun r =>
    !((q.check i r).foldl (fun x b => x != a.getD b false) false)

/-! ## The decoder (R111, R112, R223): layered normalised min-sum -/

/-- α × magnitude, α = `alpha` / 16. The spec does not say how a product that is no whole number is rounded: down, or up by
one, is open (log entry 8). -/
def scaled (alpha mag : Nat) : Nat :=
  let p := alpha * mag
  if p % 16 = 0 then p / 16 else p / 16 + Config.minSumUp p % 2

/-- The new messages of one check from its inputs (R111). -/
def checkUpdate (alpha : Nat) (inp : List Int) : List Int :=
  (List.range inp.length).map fun k =>
    let others := inp.eraseIdx k
    let sgn := others.foldl (fun b x => b != decide (x < 0)) false
    let mag := others.foldl (fun m x => Nat.min m x.natAbs) 31
    let v : Int := satI (-31) 31 (scaled alpha mag)
    if sgn then -v else v

/-- One check of a layered iteration: messages are taken out of the posteriors, renewed and put back; messages saturate at
±31, posteriors at ±127 (R111, log entry 8). -/
def layerCheck (q : QcCode) (alpha : Nat) (st : Array Int × Array Int) (ir : Nat × Nat) : Array Int × Array Int :=
  let bits := q.check ir.1 ir.2
  let base := (ir.1 * q.z + ir.2) * (q.info + 2)
  let pre := (List.range bits.length).map fun k =>
    st.1.getD (bits.getD k 0) 0 - st.2.getD (base + k) 0
  let new := checkUpdate alpha (pre.map (satI (-31) 31))
  (List.range bits.length).foldl (fun st k =>
    (st.1.setIfInBounds (bits.getD k 0) (satI (-127) 127 (pre.getD k 0 + new.getD k 0)),
     st.2.setIfInBounds (base + k) (new.getD k 0))) st

/-- One iteration: row blocks in order, each check of a block once (R111). Posteriors and messages. -/
def QcCode.iterate (q : QcCode) (alpha : Nat) (post msgs : List Int) : List Int × List Int :=
  let order := (List.range q.rows).flatMap fun i => (List.range q.z).map fun r => (i, r)
  let st := order.foldl (layerCheck q alpha) (post.toArray, msgs.toArray)
  (st.1.toList, st.2.toList)

/-- No messages yet. -/
def QcCode.noMsgs (q : QcCode) : List Int := List.replicate (q.rows * q.z * (q.info + 2)) 0

/-- Hard decisions: a posterior ≥ 0 gives bit 0 (R112). -/
def hardBits (post : List Int) : List Bool := post.map fun p => decide (p < 0)

/-- Iterate until every check is satisfied, at most `n` times (R223): the bits, and whether they converged. -/
def QcCode.decode (q : QcCode) (alpha : Nat) : Nat → List Int → List Int → List Bool × Bool
  | 0, post, _ => (hardBits post, q.satisfied (hardBits post))
  | n + 1, post, msgs =>
    if q.satisfied (hardBits post) then (hardBits post, true)
    else
      let (post, msgs) := q.iterate alpha post msgs
      q.decode alpha n post msgs

/-! ## The pennant (R218–R222) -/

/-- The CRC-8 of the header (R219). -/
def crc8 (bs : List Bool) : Nat := crcBits 8 0x07 0xFF bs

/-- The 32 header bits as a number, first bit sent most significant (R219). -/
def penHeader (kind lenM1 seq : Nat) : Nat :=
  let h := msbBits 4 kind ++ msbBits 8 lenM1 ++ msbBits 8 seq ++ msbBits 4 0
  ofMsb (h ++ msbBits 8 (crc8 h))

def penKind (h : Nat) : Nat := bitsOf h 28 4
def penLenM1 (h : Nat) : Nat := bitsOf h 20 8
def penSeq (h : Nat) : Nat := bitsOf h 12 8

/-- A header that checks and has a type of *Pennant types* (R219). -/
def penHeaderOk (h : Nat) : Bool :=
  crc8 ((msbBits 32 h).take 24) == h % 256 && decide (1 ≤ penKind h) && decide (penKind h ≤ 4)

/-- N (R220). -/
def penCodewords (lenM1 : Nat) : Nat := ceilDiv (8 * (lenM1 + 1) + 16) 512

def byteBits (bs : List Byte) : List Bool := bs.flatMap fun b => msbBits 8 b.toNat

/-- The pennant's CRC-16, over header and payload (R220). -/
def penCrc (h : Nat) (payload : List Byte) : Nat := crc16 (msbBits 32 h ++ byteBits payload)

/-- The symbols of a pennant, in the order sent (R218, R220–R222). -/
def penSymbols (h : Nat) (payload : List Byte) : List Bool :=
  let n := penCodewords (penLenM1 h)
  let info := byteBits payload ++ msbBits 16 (penCrc h payload)
  let info := info ++ List.replicate (512 * n - info.length) false
  let cws := (List.range n).flatMap fun u => shortCode.encode ((info.drop (512 * u)).take 512)
  let plain := msbBits 32 h ++ cws
  (List.range 64).map (fun i => i % 2 == 0) ++ msbBits 32 0x0CF39A65
    ++ List.zipWith (· != ·) plain (lfsr 9 4 plain.length 0x1FF)

end Sys2Proof.Machine
end

