-- ==== Sys2Proof/Machine/RegFields.lean ====
section
/-!
DEFINITION. The addresses (`R.NAME`) and the fields (`F.NAME_field`) of every register of the spec's register maps
(R74, R75, R103, R132, R133, R161, R190, R213, R233, R250, R273, R274, R294, R308, R323, R338, R339, R353, R354,
R371, R372, R390, R406, R407). A per-lane register takes its lane number (and its index `k`) as arguments. A field of
a staged register (R256) is a `CField`: it is read through the in-force or the staged copy. Every other field is an
`RField`.
-/

namespace Sys2Proof.Machine

namespace R

def FRAMER_CTRL : Nat := 0x320000
def FRAMER_PORT_EN : Nat := 0x320004
def FRAMER_STAT : Nat := 0x320008
def FRAMER_QUEUE_HWM : Nat := 0x32000C
def FRAMER_WAIT_MAX : Nat := 0x320010
def FRAMER_CNT_DATA_LO : Nat := 0x320020
def FRAMER_CNT_DATA_HI : Nat := 0x320024
def FRAMER_CNT_REPLAY_LO : Nat := 0x320028
def FRAMER_CNT_REPLAY_HI : Nat := 0x32002C
def FRAMER_CNT_FILLER_LO : Nat := 0x320030
def FRAMER_CNT_FILLER_HI : Nat := 0x320034
def FRAMER_CNT_QOVF : Nat := 0x320038
def FRAMER_CNT_POISON : Nat := 0x32003C
def FRAMER_CNT_LOCKFILL : Nat := 0x320040
def FRAMER_CNT_DISCARD : Nat := 0x320044
def OLn_TX_CTRL (n : Nat) : Nat := 0x200000 + 0x10000 * n
def OLn_TX_SWING (n : Nat) : Nat := 0x200004 + 0x10000 * n
def OLn_TX_STAT (n : Nat) : Nat := 0x200008 + 0x10000 * n
def OLn_TX_FIRk (n k : Nat) : Nat := 0x200010 + 0x10000 * n + 4 * k
def OLn_TX_PD_ADDR (n : Nat) : Nat := 0x200050 + 0x10000 * n
def OLn_TX_PD_DATA (n : Nat) : Nat := 0x200054 + 0x10000 * n
def OLn_TX_SAT_CNT (n : Nat) : Nat := 0x200058 + 0x10000 * n
def OLn_TX_STUFF_OVF_CNT (n : Nat) : Nat := 0x20005C + 0x10000 * n
def OLn_TX_CAL_CTRL (n : Nat) : Nat := 0x200060 + 0x10000 * n
def OLn_TX_CAL_STAT (n : Nat) : Nat := 0x200064 + 0x10000 * n
def OLn_TX_QUAL (n : Nat) : Nat := 0x200068 + 0x10000 * n
def OLn_TX_CAL_REJ_CNT (n : Nat) : Nat := 0x20006C + 0x10000 * n
def OLn_RX_CTRL (n : Nat) : Nat := 0x200100 + 0x10000 * n
def OLn_RX_STAT (n : Nat) : Nat := 0x200104 + 0x10000 * n
def OLn_RX_SAT_CNT (n : Nat) : Nat := 0x200108 + 0x10000 * n
def OLn_RX_CAL_CTRL (n : Nat) : Nat := 0x200110 + 0x10000 * n
def OLn_RX_CAL_STAT (n : Nat) : Nat := 0x200114 + 0x10000 * n
def OLn_RX_QUAL (n : Nat) : Nat := 0x200118 + 0x10000 * n
def OLn_RX_CAL_REJ_CNT (n : Nat) : Nat := 0x20011C + 0x10000 * n
def OLn_RX_SLICE_SEL (n : Nat) : Nat := 0x200120 + 0x10000 * n
def OLn_RX_SLICE_DATA (n : Nat) : Nat := 0x200124 + 0x10000 * n
def OLn_RX_SLOT_SKEW (n : Nat) : Nat := 0x200128 + 0x10000 * n
def OLn_CDR_CTRL (n : Nat) : Nat := 0x200200 + 0x10000 * n
def OLn_CDR_STAT (n : Nat) : Nat := 0x200204 + 0x10000 * n
def OLn_CDR_FREQ (n : Nat) : Nat := 0x200208 + 0x10000 * n
def OLn_CDR_FALLBACK_CNT (n : Nat) : Nat := 0x20020C + 0x10000 * n
def OLn_FDE_CTRL (n : Nat) : Nat := 0x200300 + 0x10000 * n
def OLn_FDE_STAT (n : Nat) : Nat := 0x200304 + 0x10000 * n
def OLn_FDE_MSE (n : Nat) : Nat := 0x200308 + 0x10000 * n
def OLn_FDE_LIMITS (n : Nat) : Nat := 0x20030C + 0x10000 * n
def OLn_FDE_SKIP_CNT (n : Nat) : Nat := 0x200310 + 0x10000 * n
def OLn_FDE_SKIP_CAUSE (n : Nat) : Nat := 0x200314 + 0x10000 * n
def OLn_FDE_DELAY (n : Nat) : Nat := 0x200318 + 0x10000 * n
def OLn_FDE_ACQ_CNT (n : Nat) : Nat := 0x20031C + 0x10000 * n
def OLn_FDE_TAP_ADDR (n : Nat) : Nat := 0x200320 + 0x10000 * n
def OLn_FDE_TAP_DATA (n : Nat) : Nat := 0x200324 + 0x10000 * n
def FEC_CTRL : Nat := 0x300000
def FEC_DEADLINE : Nat := 0x300004
def FEC_GRANT : Nat := 0x300008
def FEC_RES_CTRL : Nat := 0x30000C
def FEC_CORE_EN : Nat := 0x300010
def FEC_CORE_STAT : Nat := 0x300014
def FEC_STAT : Nat := 0x300018
def FEC_RESERVE : Nat := 0x30001C
def FEC_HIST_BASE : Nat := 0x300020
def FEC_HIST_CTRL : Nat := 0x300024
def FEC_HIST_WPTR : Nat := 0x300028
def FEC_HIST_LOST : Nat := 0x30002C
def FEC_CNT_MAPOUT : Nat := 0x300030
def FEC_LAT_MAX : Nat := 0x300034
def FEC_LANEn_BAL (n : Nat) : Nat := 0x301000 + 0x100 * n
def FEC_LANEn_CW_LO (n : Nat) : Nat := 0x301008 + 0x100 * n
def FEC_LANEn_CW_HI (n : Nat) : Nat := 0x30100C + 0x100 * n
def FEC_LANEn_ITER_LO (n : Nat) : Nat := 0x301010 + 0x100 * n
def FEC_LANEn_ITER_HI (n : Nat) : Nat := 0x301014 + 0x100 * n
def FEC_LANEn_BITS_LO (n : Nat) : Nat := 0x301018 + 0x100 * n
def FEC_LANEn_BITS_HI (n : Nat) : Nat := 0x30101C + 0x100 * n
def FEC_LANEn_FAIL_DL (n : Nat) : Nat := 0x301020 + 0x100 * n
def FEC_LANEn_FAIL_CR (n : Nat) : Nat := 0x301024 + 0x100 * n
def FEC_LANEn_FAIL_CORE (n : Nat) : Nat := 0x301028 + 0x100 * n
def FEC_LANEn_MISCORR (n : Nat) : Nat := 0x30102C + 0x100 * n
def FEC_LANEn_SRC_POISON (n : Nat) : Nat := 0x301030 + 0x100 * n
def FEC_LANEn_POISON (n : Nat) : Nat := 0x301034 + 0x100 * n
def FEC_LANEn_HDR_UNK (n : Nat) : Nat := 0x301038 + 0x100 * n
def FEC_LANEn_RES_DRAW (n : Nat) : Nat := 0x30103C + 0x100 * n
def FEC_LANEn_HIST_SEL (n : Nat) : Nat := 0x301040 + 0x100 * n
def FEC_LANEn_HIST_DATA (n : Nat) : Nat := 0x301044 + 0x100 * n
def OLn_DET_CTRL (n : Nat) : Nat := 0x200400 + 0x10000 * n
def OLn_DET_STAT (n : Nat) : Nat := 0x200404 + 0x10000 * n
def OLn_DET_TARGET (n : Nat) : Nat := 0x200408 + 0x10000 * n
def OLn_DET_VAR_SEL (n : Nat) : Nat := 0x20040C + 0x10000 * n
def OLn_DET_VAR_DATA (n : Nat) : Nat := 0x200410 + 0x10000 * n
def OLn_DET_STUFF_MM (n : Nat) : Nat := 0x200414 + 0x10000 * n
def OLn_IFEC_CORR (n : Nat) : Nat := 0x200418 + 0x10000 * n
def OLn_IFEC_UNCORR (n : Nat) : Nat := 0x20041C + 0x10000 * n
def LEDGER_LINK_CTRL : Nat := 0x310000
def LEDGER_LINK_TMO1 : Nat := 0x310004
def LEDGER_LINK_TMO2 : Nat := 0x310008
def LEDGER_LINK_PTMO : Nat := 0x31000C
def LEDGER_LINK_STAT : Nat := 0x310010
def LEDGER_LINK_PEER : Nat := 0x310014
def LEDGER_LINK_RTT : Nat := 0x310018
def LEDGER_LINK_RTT_NOW : Nat := 0x31001C
def LEDGER_LINK_ATTEMPT_CNT : Nat := 0x310020
def LEDGER_LINK_DOWN_CNT : Nat := 0x310024
def LEDGER_LINK_RESTART_CNT : Nat := 0x310028
def LEDGER_LINK_ABSENT_CNT : Nat := 0x31002C
def LEDGER_LINK_FAIL : Nat := 0x310030
def LEDGER_LINK_LANEn (n : Nat) : Nat := 0x310040 + 4 * n
def LEDGER_LINK_FAST_CNTn (n : Nat) : Nat := 0x310060 + 4 * n
def LEDGER_LINK_FULL_CNTn (n : Nat) : Nat := 0x310080 + 4 * n
def LEDGER_LINK_MISS_CNTn (n : Nat) : Nat := 0x3100A0 + 4 * n
def LEDGER_CTRL : Nat := 0x310100
def LEDGER_DRAM_BASE : Nat := 0x310104
def LEDGER_STAT : Nat := 0x310108
def LEDGER_HOLD : Nat := 0x31010C
def LEDGER_ROUND : Nat := 0x310110
def LEDGER_CAP : Nat := 0x310114
def LEDGER_HOLD_CYC : Nat := 0x310118
def LEDGER_TX_NEXT : Nat := 0x310120
def LEDGER_TX_OLDEST : Nat := 0x310124
def LEDGER_TX_ACK : Nat := 0x310128
def LEDGER_TX_ARMED : Nat := 0x31012C
def LEDGER_RX_NEXT : Nat := 0x310130
def LEDGER_RX_ACK : Nat := 0x310134
def LEDGER_RX_MISSING : Nat := 0x310138
def HLn_CTRL (n : Nat) : Nat := 0x100000 + 0x10000 * n
def HLn_STAT (n : Nat) : Nat := 0x100004 + 0x10000 * n
def HLn_TX_FIR (n : Nat) : Nat := 0x100008 + 0x10000 * n
def HLn_RX_ADAPT (n : Nat) : Nat := 0x10000C + 0x10000 * n
def HLn_RX_EMF (n : Nat) : Nat := 0x100010 + 0x10000 * n
def HLn_PRBS_CTRL (n : Nat) : Nat := 0x100014 + 0x10000 * n
def HLn_PRBS_STAT (n : Nat) : Nat := 0x100018 + 0x10000 * n
def HLn_PRBS_ERR (n : Nat) : Nat := 0x10001C + 0x10000 * n
def HLn_ADAPT_FAIL (n : Nat) : Nat := 0x100020 + 0x10000 * n
def HLn_DOWN_CNT (n : Nat) : Nat := 0x100024 + 0x10000 * n
def HLn_PORT_CTRL (n : Nat) : Nat := 0x100100 + 0x10000 * n
def HLn_PORT_STAT (n : Nat) : Nat := 0x100104 + 0x10000 * n
def HLn_FEC_CORR_LO (n : Nat) : Nat := 0x100108 + 0x10000 * n
def HLn_FEC_CORR_HI (n : Nat) : Nat := 0x10010C + 0x10000 * n
def HLn_FEC_SYM_LO (n : Nat) : Nat := 0x100110 + 0x10000 * n
def HLn_FEC_SYM_HI (n : Nat) : Nat := 0x100114 + 0x10000 * n
def HLn_FEC_UNCORR (n : Nat) : Nat := 0x100118 + 0x10000 * n
def HLn_AM_LOSS_CNT (n : Nat) : Nat := 0x10011C + 0x10000 * n
def HLn_IDLE_INS (n : Nat) : Nat := 0x100120 + 0x10000 * n
def HLn_IDLE_DEL (n : Nat) : Nat := 0x100124 + 0x10000 * n
def HLn_EB_FILL (n : Nat) : Nat := 0x100128 + 0x10000 * n
def HLn_EB_SLIP_CNT (n : Nat) : Nat := 0x10012C + 0x10000 * n
def HLn_LOOP_DROP (n : Nat) : Nat := 0x100130 + 0x10000 * n
def HL0_REF_CTRL (k : Nat) : Nat := 0x100F00 + 0x10000 * k
def HL0_GROUP (k : Nat) : Nat := 0x100F04 + 0x10000 * k
def HL0_REF_STAT (k : Nat) : Nat := 0x100F08 + 0x10000 * k
def PEN_CTRL : Nat := 0xC0000
def PEN_RX_CFG : Nat := 0xC0004
def PEN_TEL_CFG : Nat := 0xC0008
def PEN_MB_CFG : Nat := 0xC000C
def PEN_STAT : Nat := 0xC0010
def PEN_RX_AMP : Nat := 0xC0014
def PEN_MB_TX_CTRL : Nat := 0xC0018
def PEN_MB_TX_STAT : Nat := 0xC001C
def PEN_MB_RX_STAT : Nat := 0xC0020
def PEN_MB_RX_POP : Nat := 0xC0024
def PEN_TEL_STAT : Nat := 0xC0028
def PEN_MB_TXk (k : Nat) : Nat := 0xC0100 + 4 * k
def PEN_MB_RXk (k : Nat) : Nat := 0xC0200 + 4 * k
def PEN_TEL_RXk (k : Nat) : Nat := 0xC0300 + 4 * k
def TIME_CTRL : Nat := 0xB0000
def TIME_NOW_NS : Nat := 0xB0004
def TIME_NOW_FRAC : Nat := 0xB0008
def TIME_STEP : Nat := 0xB000C
def TIME_STEP_CTRL : Nat := 0xB0010
def TIME_RATE : Nat := 0xB0014
def TIME_SERVO_CTRL : Nat := 0xB0018
def TIME_SERVO_OFS : Nat := 0xB001C
def TIME_SERVO_ADJ : Nat := 0xB0020
def TIME_SERVO_INTEG : Nat := 0xB0024
def TIME_PPS_EXP : Nat := 0xB0028
def TIME_PPS_CAP : Nat := 0xB002C
def TIME_PPS_OFS : Nat := 0xB0030
def TIME_STAT : Nat := 0xB0034
def TIME_INT : Nat := 0xB0038
def TIME_INT_EN : Nat := 0xB003C
def TIME_OFS_HOST_RX : Nat := 0xB0040
def TIME_OFS_HOST_TX : Nat := 0xB0044
def TIME_OFS_LINE_RX : Nat := 0xB0048
def TIME_OFS_LINE_TX : Nat := 0xB004C
def TIME_STD_DELAY : Nat := 0xB0050
def TOP_ID : Nat := 0
def TOP_STEP : Nat := 4
def TOP_STATE : Nat := 8
def TOP_MODE : Nat := 0xC
def TOP_COMMIT : Nat := 0x10
def TOP_COMMIT_STAT : Nat := 0x14
def TOP_EPOCH : Nat := 0x18
def TOP_SNAP : Nat := 0x20
def TOP_SNAP_STAT : Nat := 0x24
def TOP_CMD : Nat := 0x30
def TOP_CMD_ARGk (k : Nat) : Nat := 0x34 + 4 * k
def TOP_CMD_STAT : Nat := 0x44
def TOP_CMD_STATE_CNT : Nat := 0x48
def TOP_INT : Nat := 0x50
def TOP_INT_EN : Nat := 0x54
def TOP_ERR : Nat := 0x58
def TOP_STAGE_DROP_CNT : Nat := 0x5C
def TOP_BUS_ERR_CNT : Nat := 0x60
def TOP_DRAM_WIN : Nat := 0x64
def PMON_ADDR : Nat := 0xE0000
def PMON_DATA : Nat := 0xE0004
def PMON_STAT : Nat := 0xE0008
def SEC_LC : Nat := 0x70000
def SEC_STRAP : Nat := 0x70004
def SEC_BOOT_STAT : Nat := 0x70008
def SEC_BOOT_TIME : Nat := 0x7000C
def SEC_IMAGE_ID : Nat := 0x70010
def SEC_IMAGE_VER : Nat := 0x70014
def SEC_DBG_STAT : Nat := 0x70018
def SEC_DBG_FAIL_CNT : Nat := 0x7001C
def SEC_FUSE_CTRL : Nat := 0x70020
def SEC_FUSE_STAT : Nat := 0x70024
def SEC_INT : Nat := 0x70028
def SEC_INT_EN : Nat := 0x7002C
def SEC_UIDk (k : Nat) : Nat := 0x70040 + 4 * k
def SEC_KEYHASH_Vk (k : Nat) : Nat := 0x70060 + 4 * k
def SEC_KEYHASH_Ok (k : Nat) : Nat := 0x70090 + 4 * k
def SEC_BUFk (k : Nat) : Nat := 0x70100 + 4 * k
def CLK_REF_CTRL : Nat := 0x10000
def CLK_MON_CTRL : Nat := 0x10004
def CLK_STAT : Nat := 0x10008
def CLK_MON_COUNT : Nat := 0x1000C
def CLK_OSC_CTRL : Nat := 0x10010
def CLK_OSC_TRIM : Nat := 0x10014
def CLK_OSC_ERR : Nat := 0x10018
def CLK_RAMP : Nat := 0x1001C
def CLK_BUS_CTRL : Nat := 0x10020
def CLK_GATE : Nat := 0x10024
def CLK_GATE_STAT : Nat := 0x10028
def CLK_INT : Nat := 0x1002C
def CLK_INT_EN : Nat := 0x10030
def CLK_REF_FAIL_CNT : Nat := 0x10034
def CLK_GATE_FORCE_CNT : Nat := 0x10038
def PWR_STATE : Nat := 0x20000
def PWR_IDLE_CTRL : Nat := 0x20004
def PWR_QUIET_CTRL : Nat := 0x20008
def PWR_WAKE_EN : Nat := 0x2000C
def PWR_WAKE_SRC : Nat := 0x20010
def PWR_WAKE_TIMER : Nat := 0x20014
def PWR_LAST_REFUSE : Nat := 0x20018
def PWR_REFUSE_CNT : Nat := 0x2001C
def PWR_ABORT_CNT : Nat := 0x20020
def PWR_RET_STAT : Nat := 0x20024
def PWR_WAKE_FAIL : Nat := 0x20028
def PWR_WAKE_FAIL_CNT : Nat := 0x2002C
def PWR_INT : Nat := 0x20030
def PWR_INT_EN : Nat := 0x20034
def HSK_CTRL : Nat := 0x30000
def HSK_REF_CTRL : Nat := 0x30004
def HSK_STAT : Nat := 0x30008
def HSK_INT : Nat := 0x3000C
def HSK_INT_EN : Nat := 0x30010
def HSK_PASS_CNT : Nat := 0x30014
def HSK_OVR_CNT : Nat := 0x30018
def HSK_SEQk_A (k : Nat) : Nat := 0x30100 + 8 * k
def HSK_SEQk_B (k : Nat) : Nat := 0x30104 + 8 * k
def HSK_CORj_OFS (k : Nat) : Nat := 0x30300 + 8 * k
def HSK_CORj_GAIN (k : Nat) : Nat := 0x30304 + 8 * k
def HSK_RESc (k : Nat) : Nat := 0x30400 + 4 * k
def BIAS_STAT : Nat := 0x40000
def BIAS_INT : Nat := 0x40008
def BIAS_INT_EN : Nat := 0x4000C
def BIAS_TBL_ADDR : Nat := 0x40010
def BIAS_TBL_DATA : Nat := 0x40014
def BIAS_SC_CNT : Nat := 0x40018
def BIAS_CHn_CTRL (n : Nat) : Nat := 0x40100 + 0x20 * n
def BIAS_CHn_CODE (n : Nat) : Nat := 0x40104 + 0x20 * n
def BIAS_CHn_DFREQ (n : Nat) : Nat := 0x40108 + 0x20 * n
def BIAS_CHn_DAMP (n : Nat) : Nat := 0x4010C + 0x20 * n
def BIAS_CHn_OUT (n : Nat) : Nat := 0x40110 + 0x20 * n
def THERM_CTRL : Nat := 0x50000
def THERM_STAT : Nat := 0x50004
def THERM_TMAX : Nat := 0x50008
def THERM_SHUT_INFO : Nat := 0x5000C
def THERM_INT : Nat := 0x50010
def THERM_INT_EN : Nat := 0x50014
def THERM_THR_CNT : Nat := 0x50018
def THERM_SUSPECT_CNT : Nat := 0x5001C
def THERM_TSk (k : Nat) : Nat := 0x50040 + 4 * k
def SAFE_CTRL : Nat := 0x60000
def SAFE_LANE : Nat := 0x60004
def SAFE_FAULT : Nat := 0x60008
def SAFE_STAT : Nat := 0x6000C
def SAFE_INT : Nat := 0x60010
def SAFE_INT_EN : Nat := 0x60014
def SAFE_WR_REJ_CNT : Nat := 0x60018
def SAFE_BDn_LIM (n : Nat) : Nat := 0x60100 + 8 * n
def SAFE_BDn_VAL (n : Nat) : Nat := 0x60104 + 8 * n
def MEM_CTRL : Nat := 0xA0000
def MEM_STAT : Nat := 0xA0004
def MEM_CHK_STAT : Nat := 0xA0008
def MEM_ERR_ADDR : Nat := 0xA000C
def MEM_ERR_INFO : Nat := 0xA0010
def MEM_INJ_ADDR : Nat := 0xA0014
def MEM_INJ_CTRL : Nat := 0xA0018
def MEM_CLEAR_BASE : Nat := 0xA001C
def MEM_CLEAR_LEN : Nat := 0xA0020
def MEM_CLEAR_CTRL : Nat := 0xA0024
def MEM_SPARE_USED : Nat := 0xA0028
def MEM_BANK_LOST : Nat := 0xA002C
def MEM_SRAM_CE_CNT : Nat := 0xA0030
def MEM_SRAM_UE_CNT : Nat := 0xA0034
def MEM_DRAM_CE_CNT : Nat := 0xA0038
def MEM_DRAM_UE_CNT : Nat := 0xA003C
def MEM_BANK_FAIL_CNT : Nat := 0xA0040
def MEM_INT : Nat := 0xA0048
def MEM_INT_EN : Nat := 0xA004C
def BIST_STAT : Nat := 0x90000
def BIST_NEXT : Nat := 0x90004
def BIST_DONE : Nat := 0x90008
def BIST_FAIL_ADDR : Nat := 0x9000C
def BIST_FAIL_BIT : Nat := 0x90010
def BIST_REPAIR_STAT : Nat := 0x90014
def BIST_INT : Nat := 0x90018
def BIST_INT_EN : Nat := 0x9001C
def BIST_RESk (k : Nat) : Nat := 0x90040 + 4 * k
def IGS_FREEZE : Nat := 0xD0000
def IGS_STAT : Nat := 0xD0004
def IGS_INT : Nat := 0xD0008
def IGS_INT_EN : Nat := 0xD000C
def IGS_En_CTRL (n : Nat) : Nat := 0xD1000 + 0x100 * n
def IGS_En_STAT (n : Nat) : Nat := 0xD1004 + 0x100 * n
def IGS_En_WDOG (n : Nat) : Nat := 0xD1008 + 0x100 * n
def IGS_En_DOORBELL (n : Nat) : Nat := 0xD100C + 0x100 * n
def IGS_En_PWR (n : Nat) : Nat := 0xD1010 + 0x100 * n
def IGS_En_LOG (n : Nat) : Nat := 0xD1014 + 0x100 * n
def IGS_En_MEM_ADDR (n : Nat) : Nat := 0xD1018 + 0x100 * n
def IGS_En_MEM_DATA (n : Nat) : Nat := 0xD101C + 0x100 * n
def IGS_En_CYC_LO (n : Nat) : Nat := 0xD1020 + 0x100 * n
def IGS_En_CYC_HI (n : Nat) : Nat := 0xD1024 + 0x100 * n
def IGS_En_SAMPLE (n : Nat) : Nat := 0xD1028 + 0x100 * n
def IGS_En_EVCNTk (n k : Nat) : Nat := 0xD1030 + 0x100 * n + 4 * k
def IGS_En_EVSELk (n k : Nat) : Nat := 0xD1048 + 0x100 * n + 4 * k
def IGS_En_WINk (n k : Nat) : Nat := 0xD1060 + 0x100 * n + 4 * k
def IGS_En_SCRk (n k : Nat) : Nat := 0xD1070 + 0x100 * n + 4 * k
def EVR_CTRL : Nat := 0x80000
def EVR_STAT : Nat := 0x80004
def EVR_WR_INDEX : Nat := 0x80008
def EVR_CURSOR : Nat := 0x8000C
def EVR_WINk (k : Nat) : Nat := 0x80010 + 4 * k
def EVR_WIN_STAT : Nat := 0x80020
def EVR_HOLD_OVF_CNT : Nat := 0x80024
def EVR_DROP_CNT : Nat := 0x80028
def EVR_WATCH : Nat := 0x8002C
def EVR_TIME_LO : Nat := 0x80030
def EVR_TIME_HI : Nat := 0x80034
def EVR_INT : Nat := 0x80038
def EVR_INT_EN : Nat := 0x8003C
def EVR_DUMP_STAT : Nat := 0x80040
def EVR_DUMP_PAGE : Nat := 0x80044
def EVR_DUMP_WIN (k : Nat) : Nat := 0x81000 + 4 * k
def CAP_CTRL : Nat := 0x330000
def CAP_CFG : Nat := 0x330004
def CAP_STAT : Nat := 0x330008
def CAP_WRITTEN : Nat := 0x33000C
def LEDGER_TX_ARM_CNT : Nat := 0x310140
def LEDGER_TX_IGN_CNT : Nat := 0x310144
def LEDGER_TX_LIMIT_CNT : Nat := 0x310148
def LEDGER_TX_LATE_CNT : Nat := 0x31014C
def LEDGER_TX_EXPIRE_CNT : Nat := 0x310150
def LEDGER_TX_EXPOSE_CNT : Nat := 0x310154
def LEDGER_TX_RET_POISON : Nat := 0x310158
def LEDGER_TX_DOWN_CNT : Nat := 0x31015C
def LEDGER_RX_REQ_CNT : Nat := 0x310160
def LEDGER_RX_RECOVER_CNT : Nat := 0x310164
def LEDGER_RX_DUP_CNT : Nat := 0x310168
def LEDGER_RX_LATE_CNT : Nat := 0x31016C
def LEDGER_RX_LOSS_CNT : Nat := 0x310170
def LEDGER_RX_LOSS_CAUSE : Nat := 0x310174
def LEDGER_RX_VERIFY_POISON : Nat := 0x310178
def LEDGER_RX_AMBIG_CNT : Nat := 0x31017C
def LEDGER_RX_ATTR_CNT : Nat := 0x310180
def LEDGER_RX_LF_CNT : Nat := 0x310184
def LEDGER_RX_SEQ_ERR : Nat := 0x310188
def LEDGER_DRAM_REBUILD_CNT : Nat := 0x31018C
def PEN_TX_CNT : Nat := 0xC0040
def PEN_RX_OK_CNT : Nat := 0xC0044
def PEN_RX_FALSE_CNT : Nat := 0xC0048
def PEN_RX_HDR_ERR : Nat := 0xC004C
def PEN_RX_CRC_ERR : Nat := 0xC0050
def PEN_RX_CAPTURE_CNT : Nat := 0xC0054
def PEN_RX_SELF_CNT : Nat := 0xC0058
def PEN_MB_RX_OVF : Nat := 0xC005C
def TIME_PTP_CORR_H2L : Nat := 0xB0060
def TIME_PTP_CORR_L2H : Nat := 0xB0064
def TIME_PTP_SKIP : Nat := 0xB0068
def TIME_PTP_SAT : Nat := 0xB006C
def TIME_PPS_GLITCH : Nat := 0xB0070
def TIME_PPS_MISS : Nat := 0xB0074

end R

namespace F

def FRAMER_CTRL_enable : CField := ⟨R.FRAMER_CTRL, 0, 1⟩
def FRAMER_CTRL_filler_only : CField := ⟨R.FRAMER_CTRL, 1, 1⟩
def FRAMER_PORT_EN_port_en : CField := ⟨R.FRAMER_PORT_EN, 0, 16⟩
def FRAMER_STAT_queue_depth : RField := ⟨R.FRAMER_STAT, 0, 10⟩
def FRAMER_STAT_queue_full : RField := ⟨R.FRAMER_STAT, 10, 1⟩
def FRAMER_STAT_lane_in_service : RField := ⟨R.FRAMER_STAT, 11, 8⟩
def FRAMER_QUEUE_HWM_hwm : RField := ⟨R.FRAMER_QUEUE_HWM, 0, 10⟩
def FRAMER_WAIT_MAX_cycles : RField := ⟨R.FRAMER_WAIT_MAX, 0, 16⟩
def FRAMER_CNT_DATA_LO_count : RField := ⟨R.FRAMER_CNT_DATA_LO, 0, 32⟩
def FRAMER_CNT_DATA_HI_count : RField := ⟨R.FRAMER_CNT_DATA_HI, 0, 32⟩
def FRAMER_CNT_REPLAY_LO_count : RField := ⟨R.FRAMER_CNT_REPLAY_LO, 0, 32⟩
def FRAMER_CNT_REPLAY_HI_count : RField := ⟨R.FRAMER_CNT_REPLAY_HI, 0, 32⟩
def FRAMER_CNT_FILLER_LO_count : RField := ⟨R.FRAMER_CNT_FILLER_LO, 0, 32⟩
def FRAMER_CNT_FILLER_HI_count : RField := ⟨R.FRAMER_CNT_FILLER_HI, 0, 32⟩
def FRAMER_CNT_QOVF_count : RField := ⟨R.FRAMER_CNT_QOVF, 0, 32⟩
def FRAMER_CNT_POISON_count : RField := ⟨R.FRAMER_CNT_POISON, 0, 32⟩
def FRAMER_CNT_LOCKFILL_count : RField := ⟨R.FRAMER_CNT_LOCKFILL, 0, 32⟩
def FRAMER_CNT_DISCARD_count : RField := ⟨R.FRAMER_CNT_DISCARD, 0, 32⟩
def OLn_TX_CTRL_squelch (n : Nat) : CField := ⟨(R.OLn_TX_CTRL n), 0, 1⟩
def OLn_TX_CTRL_fir_en (n : Nat) : CField := ⟨(R.OLn_TX_CTRL n), 1, 1⟩
def OLn_TX_CTRL_pd_en (n : Nat) : CField := ⟨(R.OLn_TX_CTRL n), 2, 1⟩
def OLn_TX_CTRL_precode_en (n : Nat) : CField := ⟨(R.OLn_TX_CTRL n), 3, 1⟩
def OLn_TX_CTRL_inner_fec_en (n : Nat) : CField := ⟨(R.OLn_TX_CTRL n), 4, 1⟩
def OLn_TX_CTRL_pattern (n : Nat) : CField := ⟨(R.OLn_TX_CTRL n), 5, 3⟩
def OLn_TX_SWING_swing (n : Nat) : CField := ⟨(R.OLn_TX_SWING n), 0, 6⟩
def OLn_TX_STAT_in_service (n : Nat) : RField := ⟨(R.OLn_TX_STAT n), 0, 1⟩
def OLn_TX_STAT_cal_busy (n : Nat) : RField := ⟨(R.OLn_TX_STAT n), 1, 1⟩
def OLn_TX_STAT_last_stuff_count (n : Nat) : RField := ⟨(R.OLn_TX_STAT n), 2, 10⟩
def OLn_TX_STAT_alt_seed (n : Nat) : RField := ⟨(R.OLn_TX_STAT n), 12, 1⟩
def OLn_TX_FIRk_coeff (n k : Nat) : CField := ⟨(R.OLn_TX_FIRk n k), 0, 10⟩
def OLn_TX_PD_ADDR_index (n : Nat) : RField := ⟨(R.OLn_TX_PD_ADDR n), 0, 6⟩
def OLn_TX_PD_DATA_offset (n : Nat) : RField := ⟨(R.OLn_TX_PD_DATA n), 0, 7⟩
def OLn_TX_SAT_CNT_count (n : Nat) : RField := ⟨(R.OLn_TX_SAT_CNT n), 0, 32⟩
def OLn_TX_STUFF_OVF_CNT_count (n : Nat) : RField := ⟨(R.OLn_TX_STUFF_OVF_CNT n), 0, 32⟩
def OLn_TX_CAL_CTRL_bg_en (n : Nat) : CField := ⟨(R.OLn_TX_CAL_CTRL n), 0, 1⟩
def OLn_TX_CAL_CTRL_run (n : Nat) : CField := ⟨(R.OLn_TX_CAL_CTRL n), 1, 1⟩
def OLn_TX_CAL_CTRL_dt_c (n : Nat) : CField := ⟨(R.OLn_TX_CAL_CTRL n), 4, 4⟩
def OLn_TX_CAL_CTRL_gain_lim (n : Nat) : CField := ⟨(R.OLn_TX_CAL_CTRL n), 8, 8⟩
def OLn_TX_CAL_CTRL_skew_lim (n : Nat) : CField := ⟨(R.OLn_TX_CAL_CTRL n), 16, 8⟩
def OLn_TX_CAL_STAT_busy (n : Nat) : RField := ⟨(R.OLn_TX_CAL_STAT n), 0, 1⟩
def OLn_TX_CAL_STAT_last (n : Nat) : RField := ⟨(R.OLn_TX_CAL_STAT n), 1, 2⟩
def OLn_TX_CAL_STAT_temp_c (n : Nat) : RField := ⟨(R.OLn_TX_CAL_STAT n), 8, 8⟩
def OLn_TX_CAL_STAT_runs (n : Nat) : RField := ⟨(R.OLn_TX_CAL_STAT n), 16, 16⟩
def OLn_TX_QUAL_spur_db (n : Nat) : RField := ⟨(R.OLn_TX_QUAL n), 0, 8⟩
def OLn_TX_QUAL_sndr_q (n : Nat) : RField := ⟨(R.OLn_TX_QUAL n), 8, 8⟩
def OLn_TX_QUAL_valid (n : Nat) : RField := ⟨(R.OLn_TX_QUAL n), 16, 1⟩
def OLn_TX_CAL_REJ_CNT_count (n : Nat) : RField := ⟨(R.OLn_TX_CAL_REJ_CNT n), 0, 32⟩
def OLn_RX_CTRL_fs_sel (n : Nat) : CField := ⟨(R.OLn_RX_CTRL n), 0, 2⟩
def OLn_RX_CTRL_invert (n : Nat) : CField := ⟨(R.OLn_RX_CTRL n), 2, 1⟩
def OLn_RX_STAT_cdr_locked (n : Nat) : RField := ⟨(R.OLn_RX_STAT n), 0, 1⟩
def OLn_RX_STAT_ref_fallback (n : Nat) : RField := ⟨(R.OLn_RX_STAT n), 1, 1⟩
def OLn_RX_STAT_fde_acquired (n : Nat) : RField := ⟨(R.OLn_RX_STAT n), 2, 1⟩
def OLn_RX_STAT_cal_busy (n : Nat) : RField := ⟨(R.OLn_RX_STAT n), 3, 1⟩
def OLn_RX_STAT_fde_frozen (n : Nat) : RField := ⟨(R.OLn_RX_STAT n), 4, 1⟩
def OLn_RX_STAT_slice_parked (n : Nat) : RField := ⟨(R.OLn_RX_STAT n), 5, 1⟩
def OLn_RX_SAT_CNT_count (n : Nat) : RField := ⟨(R.OLn_RX_SAT_CNT n), 0, 32⟩
def OLn_RX_CAL_CTRL_bg_en (n : Nat) : CField := ⟨(R.OLn_RX_CAL_CTRL n), 0, 1⟩
def OLn_RX_CAL_CTRL_run (n : Nat) : CField := ⟨(R.OLn_RX_CAL_CTRL n), 1, 1⟩
def OLn_RX_CAL_CTRL_dt_c (n : Nat) : CField := ⟨(R.OLn_RX_CAL_CTRL n), 4, 4⟩
def OLn_RX_CAL_CTRL_off_lim (n : Nat) : CField := ⟨(R.OLn_RX_CAL_CTRL n), 8, 4⟩
def OLn_RX_CAL_CTRL_gain_lim (n : Nat) : CField := ⟨(R.OLn_RX_CAL_CTRL n), 12, 8⟩
def OLn_RX_CAL_CTRL_skew_lim (n : Nat) : CField := ⟨(R.OLn_RX_CAL_CTRL n), 20, 8⟩
def OLn_RX_CAL_CTRL_period (n : Nat) : CField := ⟨(R.OLn_RX_CAL_CTRL n), 28, 4⟩
def OLn_RX_CAL_STAT_busy (n : Nat) : RField := ⟨(R.OLn_RX_CAL_STAT n), 0, 1⟩
def OLn_RX_CAL_STAT_last (n : Nat) : RField := ⟨(R.OLn_RX_CAL_STAT n), 1, 2⟩
def OLn_RX_CAL_STAT_step (n : Nat) : RField := ⟨(R.OLn_RX_CAL_STAT n), 3, 7⟩
def OLn_RX_CAL_STAT_spare (n : Nat) : RField := ⟨(R.OLn_RX_CAL_STAT n), 10, 7⟩
def OLn_RX_CAL_STAT_temp_c (n : Nat) : RField := ⟨(R.OLn_RX_CAL_STAT n), 24, 8⟩
def OLn_RX_QUAL_spur_db (n : Nat) : RField := ⟨(R.OLn_RX_QUAL n), 0, 8⟩
def OLn_RX_QUAL_sndr_q (n : Nat) : RField := ⟨(R.OLn_RX_QUAL n), 8, 8⟩
def OLn_RX_QUAL_valid (n : Nat) : RField := ⟨(R.OLn_RX_QUAL n), 16, 1⟩
def OLn_RX_CAL_REJ_CNT_count (n : Nat) : RField := ⟨(R.OLn_RX_CAL_REJ_CNT n), 0, 32⟩
def OLn_RX_SLICE_SEL_slice (n : Nat) : RField := ⟨(R.OLn_RX_SLICE_SEL n), 0, 7⟩
def OLn_RX_SLICE_SEL_slot (n : Nat) : RField := ⟨(R.OLn_RX_SLICE_SEL n), 8, 6⟩
def OLn_RX_SLICE_DATA_offset (n : Nat) : RField := ⟨(R.OLn_RX_SLICE_DATA n), 0, 8⟩
def OLn_RX_SLICE_DATA_gain (n : Nat) : RField := ⟨(R.OLn_RX_SLICE_DATA n), 8, 12⟩
def OLn_RX_SLICE_DATA_slot (n : Nat) : RField := ⟨(R.OLn_RX_SLICE_DATA n), 20, 7⟩
def OLn_RX_SLOT_SKEW_trim (n : Nat) : RField := ⟨(R.OLn_RX_SLOT_SKEW n), 0, 12⟩
def OLn_CDR_CTRL_kp_sh (n : Nat) : CField := ⟨(R.OLn_CDR_CTRL n), 0, 4⟩
def OLn_CDR_CTRL_ki_sh (n : Nat) : CField := ⟨(R.OLn_CDR_CTRL n), 4, 5⟩
def OLn_CDR_CTRL_force_ref (n : Nat) : CField := ⟨(R.OLn_CDR_CTRL n), 9, 1⟩
def OLn_CDR_CTRL_hold (n : Nat) : CField := ⟨(R.OLn_CDR_CTRL n), 10, 1⟩
def OLn_CDR_STAT_locked (n : Nat) : RField := ⟨(R.OLn_CDR_STAT n), 0, 1⟩
def OLn_CDR_STAT_fallback (n : Nat) : RField := ⟨(R.OLn_CDR_STAT n), 1, 1⟩
def OLn_CDR_STAT_at_limit (n : Nat) : RField := ⟨(R.OLn_CDR_STAT n), 2, 1⟩
def OLn_CDR_STAT_phase (n : Nat) : RField := ⟨(R.OLn_CDR_STAT n), 3, 6⟩
def OLn_CDR_STAT_holding (n : Nat) : RField := ⟨(R.OLn_CDR_STAT n), 9, 1⟩
def OLn_CDR_FREQ_ppm (n : Nat) : RField := ⟨(R.OLn_CDR_FREQ n), 0, 24⟩
def OLn_CDR_FALLBACK_CNT_count (n : Nat) : RField := ⟨(R.OLn_CDR_FALLBACK_CNT n), 0, 32⟩
def OLn_FDE_CTRL_lambda_k (n : Nat) : CField := ⟨(R.OLn_FDE_CTRL n), 0, 4⟩
def OLn_FDE_CTRL_freeze (n : Nat) : CField := ⟨(R.OLn_FDE_CTRL n), 4, 1⟩
def OLn_FDE_CTRL_centre_en (n : Nat) : CField := ⟨(R.OLn_FDE_CTRL n), 5, 1⟩
def OLn_FDE_CTRL_eps_sh (n : Nat) : CField := ⟨(R.OLn_FDE_CTRL n), 8, 4⟩
def OLn_FDE_CTRL_acq_snr (n : Nat) : CField := ⟨(R.OLn_FDE_CTRL n), 12, 4⟩
def OLn_FDE_STAT_acquired (n : Nat) : RField := ⟨(R.OLn_FDE_STAT n), 0, 1⟩
def OLn_FDE_STAT_frozen (n : Nat) : RField := ⟨(R.OLn_FDE_STAT n), 1, 1⟩
def OLn_FDE_STAT_k_eff (n : Nat) : RField := ⟨(R.OLn_FDE_STAT n), 2, 4⟩
def OLn_FDE_STAT_weak_bins (n : Nat) : RField := ⟨(R.OLn_FDE_STAT n), 6, 10⟩
def OLn_FDE_STAT_set_seq (n : Nat) : RField := ⟨(R.OLn_FDE_STAT n), 16, 8⟩
def OLn_FDE_MSE_snr_q (n : Nat) : RField := ⟨(R.OLn_FDE_MSE n), 0, 10⟩
def OLn_FDE_MSE_valid (n : Nat) : RField := ⟨(R.OLn_FDE_MSE n), 10, 1⟩
def OLn_FDE_LIMITS_sat_lim (n : Nat) : CField := ⟨(R.OLn_FDE_LIMITS n), 0, 8⟩
def OLn_FDE_LIMITS_ab_sh (n : Nat) : CField := ⟨(R.OLn_FDE_LIMITS n), 8, 4⟩
def OLn_FDE_SKIP_CNT_count (n : Nat) : RField := ⟨(R.OLn_FDE_SKIP_CNT n), 0, 32⟩
def OLn_FDE_SKIP_CAUSE_ensign_miss (n : Nat) : RField := ⟨(R.OLn_FDE_SKIP_CAUSE n), 0, 1⟩
def OLn_FDE_SKIP_CAUSE_pilot_sat (n : Nat) : RField := ⟨(R.OLn_FDE_SKIP_CAUSE n), 1, 1⟩
def OLn_FDE_SKIP_CAUSE_ab_disagree (n : Nat) : RField := ⟨(R.OLn_FDE_SKIP_CAUSE n), 2, 1⟩
def OLn_FDE_SKIP_CAUSE_no_signal (n : Nat) : RField := ⟨(R.OLn_FDE_SKIP_CAUSE n), 3, 1⟩
def OLn_FDE_DELAY_tau (n : Nat) : RField := ⟨(R.OLn_FDE_DELAY n), 0, 16⟩
def OLn_FDE_ACQ_CNT_count (n : Nat) : RField := ⟨(R.OLn_FDE_ACQ_CNT n), 0, 32⟩
def OLn_FDE_TAP_ADDR_bin (n : Nat) : RField := ⟨(R.OLn_FDE_TAP_ADDR n), 0, 10⟩
def OLn_FDE_TAP_DATA_re (n : Nat) : RField := ⟨(R.OLn_FDE_TAP_DATA n), 0, 16⟩
def OLn_FDE_TAP_DATA_im (n : Nat) : RField := ⟨(R.OLn_FDE_TAP_DATA n), 16, 16⟩
def FEC_CTRL_max_iter : CField := ⟨R.FEC_CTRL, 0, 5⟩
def FEC_CTRL_min_iter : CField := ⟨R.FEC_CTRL, 5, 3⟩
def FEC_CTRL_alpha : CField := ⟨R.FEC_CTRL, 8, 4⟩
def FEC_CTRL_min_cores : CField := ⟨R.FEC_CTRL, 16, 5⟩
def FEC_DEADLINE_ns : CField := ⟨R.FEC_DEADLINE, 0, 9⟩
def FEC_GRANT_grant : CField := ⟨R.FEC_GRANT, 0, 16⟩
def FEC_RES_CTRL_lane_max : CField := ⟨R.FEC_RES_CTRL, 0, 16⟩
def FEC_RES_CTRL_res_cap : CField := ⟨R.FEC_RES_CTRL, 16, 16⟩
def FEC_CORE_EN_en : CField := ⟨R.FEC_CORE_EN, 0, 16⟩
def FEC_CORE_STAT_active : RField := ⟨R.FEC_CORE_STAT, 0, 16⟩
def FEC_CORE_STAT_failed : RField := ⟨R.FEC_CORE_STAT, 16, 16⟩
def FEC_STAT_in_service : RField := ⟨R.FEC_STAT, 0, 8⟩
def FEC_STAT_throttle_t : RField := ⟨R.FEC_STAT, 8, 3⟩
def FEC_STAT_cores : RField := ⟨R.FEC_STAT, 11, 5⟩
def FEC_STAT_below_min : RField := ⟨R.FEC_STAT, 16, 1⟩
def FEC_RESERVE_cycles : RField := ⟨R.FEC_RESERVE, 0, 16⟩
def FEC_HIST_BASE_base : CField := ⟨R.FEC_HIST_BASE, 0, 5⟩
def FEC_HIST_CTRL_en : CField := ⟨R.FEC_HIST_CTRL, 0, 1⟩
def FEC_HIST_WPTR_index : RField := ⟨R.FEC_HIST_WPTR, 0, 24⟩
def FEC_HIST_WPTR_wraps : RField := ⟨R.FEC_HIST_WPTR, 24, 8⟩
def FEC_HIST_LOST_count : RField := ⟨R.FEC_HIST_LOST, 0, 32⟩
def FEC_CNT_MAPOUT_count : RField := ⟨R.FEC_CNT_MAPOUT, 0, 32⟩
def FEC_LAT_MAX_cycles : RField := ⟨R.FEC_LAT_MAX, 0, 9⟩
def FEC_LANEn_BAL_bal (n : Nat) : RField := ⟨(R.FEC_LANEn_BAL n), 0, 20⟩
def FEC_LANEn_CW_LO_count (n : Nat) : RField := ⟨(R.FEC_LANEn_CW_LO n), 0, 32⟩
def FEC_LANEn_CW_HI_count (n : Nat) : RField := ⟨(R.FEC_LANEn_CW_HI n), 0, 32⟩
def FEC_LANEn_ITER_LO_count (n : Nat) : RField := ⟨(R.FEC_LANEn_ITER_LO n), 0, 32⟩
def FEC_LANEn_ITER_HI_count (n : Nat) : RField := ⟨(R.FEC_LANEn_ITER_HI n), 0, 32⟩
def FEC_LANEn_BITS_LO_count (n : Nat) : RField := ⟨(R.FEC_LANEn_BITS_LO n), 0, 32⟩
def FEC_LANEn_BITS_HI_count (n : Nat) : RField := ⟨(R.FEC_LANEn_BITS_HI n), 0, 32⟩
def FEC_LANEn_FAIL_DL_count (n : Nat) : RField := ⟨(R.FEC_LANEn_FAIL_DL n), 0, 32⟩
def FEC_LANEn_FAIL_CR_count (n : Nat) : RField := ⟨(R.FEC_LANEn_FAIL_CR n), 0, 32⟩
def FEC_LANEn_FAIL_CORE_count (n : Nat) : RField := ⟨(R.FEC_LANEn_FAIL_CORE n), 0, 32⟩
def FEC_LANEn_MISCORR_count (n : Nat) : RField := ⟨(R.FEC_LANEn_MISCORR n), 0, 32⟩
def FEC_LANEn_SRC_POISON_count (n : Nat) : RField := ⟨(R.FEC_LANEn_SRC_POISON n), 0, 32⟩
def FEC_LANEn_POISON_count (n : Nat) : RField := ⟨(R.FEC_LANEn_POISON n), 0, 32⟩
def FEC_LANEn_HDR_UNK_count (n : Nat) : RField := ⟨(R.FEC_LANEn_HDR_UNK n), 0, 32⟩
def FEC_LANEn_RES_DRAW_count (n : Nat) : RField := ⟨(R.FEC_LANEn_RES_DRAW n), 0, 32⟩
def FEC_LANEn_HIST_SEL_bin (n : Nat) : RField := ⟨(R.FEC_LANEn_HIST_SEL n), 0, 5⟩
def FEC_LANEn_HIST_DATA_count (n : Nat) : RField := ⟨(R.FEC_LANEn_HIST_DATA n), 0, 32⟩
def OLn_DET_CTRL_target_mode (n : Nat) : CField := ⟨(R.OLn_DET_CTRL n), 0, 2⟩
def OLn_DET_CTRL_llr_gain (n : Nat) : CField := ⟨(R.OLn_DET_CTRL n), 2, 6⟩
def OLn_DET_CTRL_var_floor (n : Nat) : CField := ⟨(R.OLn_DET_CTRL n), 8, 8⟩
def OLn_DET_STAT_valid (n : Nat) : RField := ⟨(R.OLn_DET_STAT n), 0, 1⟩
def OLn_DET_STAT_h_clamped (n : Nat) : RField := ⟨(R.OLn_DET_STAT n), 1, 1⟩
def OLn_DET_STAT_pair_fallback (n : Nat) : RField := ⟨(R.OLn_DET_STAT n), 2, 16⟩
def OLn_DET_TARGET_h1 (n : Nat) : CField := ⟨(R.OLn_DET_TARGET n), 0, 16⟩
def OLn_DET_TARGET_h2 (n : Nat) : CField := ⟨(R.OLn_DET_TARGET n), 16, 16⟩
def OLn_DET_VAR_SEL_pair (n : Nat) : RField := ⟨(R.OLn_DET_VAR_SEL n), 0, 4⟩
def OLn_DET_VAR_DATA_var (n : Nat) : RField := ⟨(R.OLn_DET_VAR_DATA n), 0, 16⟩
def OLn_DET_STUFF_MM_count (n : Nat) : RField := ⟨(R.OLn_DET_STUFF_MM n), 0, 32⟩
def OLn_IFEC_CORR_count (n : Nat) : RField := ⟨(R.OLn_IFEC_CORR n), 0, 32⟩
def OLn_IFEC_UNCORR_count (n : Nat) : RField := ⟨(R.OLn_IFEC_UNCORR n), 0, 32⟩
def LEDGER_LINK_CTRL_enable : CField := ⟨R.LEDGER_LINK_CTRL, 0, 1⟩
def LEDGER_LINK_CTRL_retry_req : CField := ⟨R.LEDGER_LINK_CTRL, 1, 1⟩
def LEDGER_LINK_CTRL_fast_en : CField := ⟨R.LEDGER_LINK_CTRL, 2, 1⟩
def LEDGER_LINK_CTRL_ens_tol : CField := ⟨R.LEDGER_LINK_CTRL, 4, 5⟩
def LEDGER_LINK_CTRL_deskew_ns : CField := ⟨R.LEDGER_LINK_CTRL, 9, 9⟩
def LEDGER_LINK_TMO1_acq_ms : CField := ⟨R.LEDGER_LINK_TMO1, 0, 8⟩
def LEDGER_LINK_TMO1_lock_ms : CField := ⟨R.LEDGER_LINK_TMO1, 8, 8⟩
def LEDGER_LINK_TMO1_align_ms : CField := ⟨R.LEDGER_LINK_TMO1, 16, 8⟩
def LEDGER_LINK_TMO1_rtt_ms : CField := ⟨R.LEDGER_LINK_TMO1, 24, 8⟩
def LEDGER_LINK_TMO2_window_ms : CField := ⟨R.LEDGER_LINK_TMO2, 0, 8⟩
def LEDGER_LINK_TMO2_step_retries : CField := ⟨R.LEDGER_LINK_TMO2, 8, 4⟩
def LEDGER_LINK_TMO2_max_attempts : CField := ⟨R.LEDGER_LINK_TMO2, 12, 4⟩
def LEDGER_LINK_TMO2_lane_to_ms : CField := ⟨R.LEDGER_LINK_TMO2, 16, 8⟩
def LEDGER_LINK_TMO2_loss_ms : CField := ⟨R.LEDGER_LINK_TMO2, 24, 8⟩
def LEDGER_LINK_PTMO_inv_ms : CField := ⟨R.LEDGER_LINK_PTMO, 0, 8⟩
def LEDGER_LINK_PTMO_absent_ms : CField := ⟨R.LEDGER_LINK_PTMO, 8, 8⟩
def LEDGER_LINK_PTMO_reinvite_ms : CField := ⟨R.LEDGER_LINK_PTMO, 16, 16⟩
def LEDGER_LINK_STAT_step : RField := ⟨R.LEDGER_LINK_STAT, 0, 4⟩
def LEDGER_LINK_STAT_status : RField := ⟨R.LEDGER_LINK_STAT, 4, 8⟩
def LEDGER_LINK_STAT_peer_step : RField := ⟨R.LEDGER_LINK_STAT, 12, 4⟩
def LEDGER_LINK_STAT_peer_status : RField := ⟨R.LEDGER_LINK_STAT, 16, 8⟩
def LEDGER_LINK_STAT_retry_on : RField := ⟨R.LEDGER_LINK_STAT, 24, 1⟩
def LEDGER_LINK_STAT_peer_seen : RField := ⟨R.LEDGER_LINK_STAT, 25, 1⟩
def LEDGER_LINK_PEER_nonce : RField := ⟨R.LEDGER_LINK_PEER, 0, 32⟩
def LEDGER_LINK_RTT_cycles : RField := ⟨R.LEDGER_LINK_RTT, 0, 24⟩
def LEDGER_LINK_RTT_valid : RField := ⟨R.LEDGER_LINK_RTT, 24, 1⟩
def LEDGER_LINK_RTT_NOW_cycles : RField := ⟨R.LEDGER_LINK_RTT_NOW, 0, 24⟩
def LEDGER_LINK_RTT_NOW_valid : RField := ⟨R.LEDGER_LINK_RTT_NOW, 24, 1⟩
def LEDGER_LINK_ATTEMPT_CNT_count : RField := ⟨R.LEDGER_LINK_ATTEMPT_CNT, 0, 32⟩
def LEDGER_LINK_DOWN_CNT_count : RField := ⟨R.LEDGER_LINK_DOWN_CNT, 0, 32⟩
def LEDGER_LINK_RESTART_CNT_count : RField := ⟨R.LEDGER_LINK_RESTART_CNT, 0, 32⟩
def LEDGER_LINK_ABSENT_CNT_count : RField := ⟨R.LEDGER_LINK_ABSENT_CNT, 0, 32⟩
def LEDGER_LINK_FAIL_last_fail : RField := ⟨R.LEDGER_LINK_FAIL, 0, 8⟩
def LEDGER_LINK_FAIL_fail_step : RField := ⟨R.LEDGER_LINK_FAIL, 8, 4⟩
def LEDGER_LINK_FAIL_consec : RField := ⟨R.LEDGER_LINK_FAIL, 16, 16⟩
def LEDGER_LINK_LANEn_acquired (n : Nat) : RField := ⟨(R.LEDGER_LINK_LANEn n), 0, 1⟩
def LEDGER_LINK_LANEn_locked (n : Nat) : RField := ⟨(R.LEDGER_LINK_LANEn n), 1, 1⟩
def LEDGER_LINK_LANEn_relock (n : Nat) : RField := ⟨(R.LEDGER_LINK_LANEn n), 2, 1⟩
def LEDGER_LINK_LANEn_full (n : Nat) : RField := ⟨(R.LEDGER_LINK_LANEn n), 3, 1⟩
def LEDGER_LINK_LANEn_req_sent (n : Nat) : RField := ⟨(R.LEDGER_LINK_LANEn n), 4, 1⟩
def LEDGER_LINK_LANEn_peer_tx (n : Nat) : RField := ⟨(R.LEDGER_LINK_LANEn n), 5, 1⟩
def LEDGER_LINK_LANEn_skew (n : Nat) : RField := ⟨(R.LEDGER_LINK_LANEn n), 16, 16⟩
def LEDGER_LINK_FAST_CNTn_count (n : Nat) : RField := ⟨(R.LEDGER_LINK_FAST_CNTn n), 0, 32⟩
def LEDGER_LINK_FULL_CNTn_count (n : Nat) : RField := ⟨(R.LEDGER_LINK_FULL_CNTn n), 0, 32⟩
def LEDGER_LINK_MISS_CNTn_count (n : Nat) : RField := ⟨(R.LEDGER_LINK_MISS_CNTn n), 0, 32⟩
def LEDGER_CTRL_rounds : CField := ⟨R.LEDGER_CTRL, 0, 2⟩
def LEDGER_CTRL_rep_max : CField := ⟨R.LEDGER_CTRL, 2, 2⟩
def LEDGER_CTRL_place : CField := ⟨R.LEDGER_CTRL, 4, 2⟩
def LEDGER_CTRL_drain_sf : CField := ⟨R.LEDGER_CTRL, 8, 8⟩
def LEDGER_DRAM_BASE_ret_base : CField := ⟨R.LEDGER_DRAM_BASE, 0, 3⟩
def LEDGER_DRAM_BASE_hold_base : CField := ⟨R.LEDGER_DRAM_BASE, 8, 3⟩
def LEDGER_STAT_tx_run : RField := ⟨R.LEDGER_STAT, 0, 1⟩
def LEDGER_STAT_rx_run : RField := ⟨R.LEDGER_STAT, 1, 1⟩
def LEDGER_STAT_line_fault : RField := ⟨R.LEDGER_STAT, 2, 1⟩
def LEDGER_STAT_rtt_grown : RField := ⟨R.LEDGER_STAT, 3, 1⟩
def LEDGER_STAT_h_asym : RField := ⟨R.LEDGER_STAT, 4, 1⟩
def LEDGER_STAT_rebuild : RField := ⟨R.LEDGER_STAT, 5, 1⟩
def LEDGER_HOLD_h_rx : RField := ⟨R.LEDGER_HOLD, 0, 10⟩
def LEDGER_HOLD_h_own : RField := ⟨R.LEDGER_HOLD, 10, 10⟩
def LEDGER_HOLD_h_tx : RField := ⟨R.LEDGER_HOLD, 20, 10⟩
def LEDGER_HOLD_place : RField := ⟨R.LEDGER_HOLD, 30, 2⟩
def LEDGER_ROUND_round_sf : RField := ⟨R.LEDGER_ROUND, 0, 10⟩
def LEDGER_ROUND_rounds_used : RField := ⟨R.LEDGER_ROUND, 10, 2⟩
def LEDGER_ROUND_budget_sf : RField := ⟨R.LEDGER_ROUND, 12, 9⟩
def LEDGER_CAP_units : RField := ⟨R.LEDGER_CAP, 0, 18⟩
def LEDGER_HOLD_CYC_cycles : RField := ⟨R.LEDGER_HOLD_CYC, 0, 21⟩
def LEDGER_TX_NEXT_seq : RField := ⟨R.LEDGER_TX_NEXT, 0, 18⟩
def LEDGER_TX_OLDEST_seq : RField := ⟨R.LEDGER_TX_OLDEST, 0, 18⟩
def LEDGER_TX_ACK_seq : RField := ⟨R.LEDGER_TX_ACK, 0, 18⟩
def LEDGER_TX_ACK_valid : RField := ⟨R.LEDGER_TX_ACK, 18, 1⟩
def LEDGER_TX_ARMED_units : RField := ⟨R.LEDGER_TX_ARMED, 0, 18⟩
def LEDGER_RX_NEXT_seq : RField := ⟨R.LEDGER_RX_NEXT, 0, 18⟩
def LEDGER_RX_ACK_seq : RField := ⟨R.LEDGER_RX_ACK, 0, 18⟩
def LEDGER_RX_MISSING_units : RField := ⟨R.LEDGER_RX_MISSING, 0, 18⟩
def LEDGER_RX_MISSING_entries : RField := ⟨R.LEDGER_RX_MISSING, 18, 5⟩
def HLn_CTRL_enable (n : Nat) : CField := ⟨(R.HLn_CTRL n), 0, 1⟩
def HLn_CTRL_tx_precode (n : Nat) : CField := ⟨(R.HLn_CTRL n), 1, 1⟩
def HLn_CTRL_rx_precode (n : Nat) : CField := ⟨(R.HLn_CTRL n), 2, 1⟩
def HLn_CTRL_tx_invert (n : Nat) : CField := ⟨(R.HLn_CTRL n), 3, 1⟩
def HLn_CTRL_rx_invert (n : Nat) : CField := ⟨(R.HLn_CTRL n), 4, 1⟩
def HLn_CTRL_loop (n : Nat) : CField := ⟨(R.HLn_CTRL n), 5, 2⟩
def HLn_CTRL_tx_squelch (n : Nat) : CField := ⟨(R.HLn_CTRL n), 7, 1⟩
def HLn_STAT_sig_det (n : Nat) : RField := ⟨(R.HLn_STAT n), 0, 1⟩
def HLn_STAT_cdr_locked (n : Nat) : RField := ⟨(R.HLn_STAT n), 1, 1⟩
def HLn_STAT_adapted (n : Nat) : RField := ⟨(R.HLn_STAT n), 2, 1⟩
def HLn_STAT_lane_up (n : Nat) : RField := ⟨(R.HLn_STAT n), 3, 1⟩
def HLn_STAT_idle (n : Nat) : RField := ⟨(R.HLn_STAT n), 4, 1⟩
def HLn_STAT_loop_active (n : Nat) : RField := ⟨(R.HLn_STAT n), 5, 1⟩
def HLn_TX_FIR_pre2 (n : Nat) : CField := ⟨(R.HLn_TX_FIR n), 0, 3⟩
def HLn_TX_FIR_pre1 (n : Nat) : CField := ⟨(R.HLn_TX_FIR n), 3, 4⟩
def HLn_TX_FIR_post1 (n : Nat) : CField := ⟨(R.HLn_TX_FIR n), 7, 4⟩
def HLn_TX_FIR_amp (n : Nat) : CField := ⟨(R.HLn_TX_FIR n), 11, 4⟩
def HLn_RX_ADAPT_emf_min (n : Nat) : CField := ⟨(R.HLn_RX_ADAPT n), 0, 8⟩
def HLn_RX_ADAPT_restart (n : Nat) : CField := ⟨(R.HLn_RX_ADAPT n), 8, 1⟩
def HLn_RX_ADAPT_freeze (n : Nat) : CField := ⟨(R.HLn_RX_ADAPT n), 9, 1⟩
def HLn_RX_ADAPT_fast_en (n : Nat) : CField := ⟨(R.HLn_RX_ADAPT n), 10, 1⟩
def HLn_RX_EMF_emf (n : Nat) : RField := ⟨(R.HLn_RX_EMF n), 0, 8⟩
def HLn_RX_EMF_worst_eye (n : Nat) : RField := ⟨(R.HLn_RX_EMF n), 8, 2⟩
def HLn_RX_EMF_valid (n : Nat) : RField := ⟨(R.HLn_RX_EMF n), 10, 1⟩
def HLn_PRBS_CTRL_gen (n : Nat) : CField := ⟨(R.HLn_PRBS_CTRL n), 0, 3⟩
def HLn_PRBS_CTRL_chk (n : Nat) : CField := ⟨(R.HLn_PRBS_CTRL n), 3, 3⟩
def HLn_PRBS_CTRL_auto_sync (n : Nat) : CField := ⟨(R.HLn_PRBS_CTRL n), 6, 1⟩
def HLn_PRBS_CTRL_resync (n : Nat) : RField := ⟨(R.HLn_PRBS_CTRL n), 7, 1⟩
def HLn_PRBS_CTRL_slip_bit (n : Nat) : RField := ⟨(R.HLn_PRBS_CTRL n), 8, 1⟩
def HLn_PRBS_CTRL_slip_sym (n : Nat) : RField := ⟨(R.HLn_PRBS_CTRL n), 9, 1⟩
def HLn_PRBS_STAT_locked (n : Nat) : RField := ⟨(R.HLn_PRBS_STAT n), 0, 1⟩
def HLn_PRBS_ERR_count (n : Nat) : RField := ⟨(R.HLn_PRBS_ERR n), 0, 32⟩
def HLn_ADAPT_FAIL_count (n : Nat) : RField := ⟨(R.HLn_ADAPT_FAIL n), 0, 32⟩
def HLn_DOWN_CNT_count (n : Nat) : RField := ⟨(R.HLn_DOWN_CNT n), 0, 32⟩
def HLn_PORT_CTRL_mon_en (n : Nat) : CField := ⟨(R.HLn_PORT_CTRL n), 0, 1⟩
def HLn_PORT_STAT_first_lane (n : Nat) : RField := ⟨(R.HLn_PORT_STAT n), 0, 1⟩
def HLn_PORT_STAT_port (n : Nat) : RField := ⟨(R.HLn_PORT_STAT n), 1, 4⟩
def HLn_PORT_STAT_width (n : Nat) : RField := ⟨(R.HLn_PORT_STAT n), 5, 2⟩
def HLn_PORT_STAT_am_lock (n : Nat) : RField := ⟨(R.HLn_PORT_STAT n), 7, 1⟩
def HLn_PORT_STAT_deskew_ok (n : Nat) : RField := ⟨(R.HLn_PORT_STAT n), 8, 1⟩
def HLn_PORT_STAT_port_up (n : Nat) : RField := ⟨(R.HLn_PORT_STAT n), 9, 1⟩
def HLn_PORT_STAT_lf_out (n : Nat) : RField := ⟨(R.HLn_PORT_STAT n), 10, 1⟩
def HLn_PORT_STAT_lf_fill (n : Nat) : RField := ⟨(R.HLn_PORT_STAT n), 11, 1⟩
def HLn_FEC_CORR_LO_count (n : Nat) : RField := ⟨(R.HLn_FEC_CORR_LO n), 0, 32⟩
def HLn_FEC_CORR_HI_count (n : Nat) : RField := ⟨(R.HLn_FEC_CORR_HI n), 0, 32⟩
def HLn_FEC_SYM_LO_count (n : Nat) : RField := ⟨(R.HLn_FEC_SYM_LO n), 0, 32⟩
def HLn_FEC_SYM_HI_count (n : Nat) : RField := ⟨(R.HLn_FEC_SYM_HI n), 0, 32⟩
def HLn_FEC_UNCORR_count (n : Nat) : RField := ⟨(R.HLn_FEC_UNCORR n), 0, 32⟩
def HLn_AM_LOSS_CNT_count (n : Nat) : RField := ⟨(R.HLn_AM_LOSS_CNT n), 0, 32⟩
def HLn_IDLE_INS_count (n : Nat) : RField := ⟨(R.HLn_IDLE_INS n), 0, 32⟩
def HLn_IDLE_DEL_count (n : Nat) : RField := ⟨(R.HLn_IDLE_DEL n), 0, 32⟩
def HLn_EB_FILL_fill (n : Nat) : RField := ⟨(R.HLn_EB_FILL n), 0, 11⟩
def HLn_EB_FILL_max (n : Nat) : RField := ⟨(R.HLn_EB_FILL n), 11, 11⟩
def HLn_EB_SLIP_CNT_count (n : Nat) : RField := ⟨(R.HLn_EB_SLIP_CNT n), 0, 32⟩
def HLn_LOOP_DROP_count (n : Nat) : RField := ⟨(R.HLn_LOOP_DROP n), 0, 32⟩
def HL0_REF_CTRL_mode (k : Nat) : CField := ⟨(R.HL0_REF_CTRL k), 0, 2⟩
def HL0_REF_CTRL_spread_q (k : Nat) : CField := ⟨(R.HL0_REF_CTRL k), 2, 3⟩
def HL0_GROUP_code (k : Nat) : CField := ⟨(R.HL0_GROUP k), 0, 8⟩
def HL0_REF_STAT_spread_seen (k : Nat) : RField := ⟨(R.HL0_REF_STAT k), 0, 1⟩
def HL0_REF_STAT_group_err (k : Nat) : RField := ⟨(R.HL0_REF_STAT k), 1, 1⟩
def HL0_REF_STAT_ref_pending (k : Nat) : RField := ⟨(R.HL0_REF_STAT k), 2, 1⟩
def PEN_CTRL_tx_en : CField := ⟨R.PEN_CTRL, 0, 1⟩
def PEN_CTRL_rx_en : CField := ⟨R.PEN_CTRL, 1, 1⟩
def PEN_CTRL_path : CField := ⟨R.PEN_CTRL, 2, 1⟩
def PEN_CTRL_cancel_en : CField := ⟨R.PEN_CTRL, 3, 1⟩
def PEN_CTRL_bd : CField := ⟨R.PEN_CTRL, 4, 4⟩
def PEN_CTRL_depth : CField := ⟨R.PEN_CTRL, 8, 4⟩
def PEN_CTRL_tx_mask : CField := ⟨R.PEN_CTRL, 16, 8⟩
def PEN_CTRL_rx_mask : CField := ⟨R.PEN_CTRL, 24, 8⟩
def PEN_RX_CFG_pre_thr : CField := ⟨R.PEN_RX_CFG, 0, 4⟩
def PEN_RX_CFG_burgee_tol : CField := ⟨R.PEN_RX_CFG, 4, 3⟩
def PEN_RX_CFG_cap_db : CField := ⟨R.PEN_RX_CFG, 8, 4⟩
def PEN_RX_CFG_max_iter : CField := ⟨R.PEN_RX_CFG, 12, 5⟩
def PEN_RX_CFG_refl_ms : CField := ⟨R.PEN_RX_CFG, 20, 4⟩
def PEN_TEL_CFG_tel_ms : CField := ⟨R.PEN_TEL_CFG, 0, 8⟩
def PEN_TEL_CFG_hc0 : CField := ⟨R.PEN_TEL_CFG, 8, 5⟩
def PEN_TEL_CFG_hc1 : CField := ⟨R.PEN_TEL_CFG, 13, 5⟩
def PEN_TEL_CFG_hc2 : CField := ⟨R.PEN_TEL_CFG, 18, 5⟩
def PEN_TEL_CFG_hc3 : CField := ⟨R.PEN_TEL_CFG, 23, 5⟩
def PEN_MB_CFG_mb_to_ms : CField := ⟨R.PEN_MB_CFG, 0, 8⟩
def PEN_MB_CFG_mb_retries : CField := ⟨R.PEN_MB_CFG, 8, 4⟩
def PEN_STAT_rx_state : RField := ⟨R.PEN_STAT, 0, 3⟩
def PEN_STAT_tx_busy : RField := ⟨R.PEN_STAT, 3, 1⟩
def PEN_STAT_tx_queue : RField := ⟨R.PEN_STAT, 4, 3⟩
def PEN_RX_AMP_amp : RField := ⟨R.PEN_RX_AMP, 0, 12⟩
def PEN_RX_AMP_esn0_q : RField := ⟨R.PEN_RX_AMP, 12, 8⟩
def PEN_MB_TX_CTRL_len_m1 : RField := ⟨R.PEN_MB_TX_CTRL, 0, 8⟩
def PEN_MB_TX_CTRL_send : RField := ⟨R.PEN_MB_TX_CTRL, 8, 1⟩
def PEN_MB_TX_CTRL_abort : RField := ⟨R.PEN_MB_TX_CTRL, 9, 1⟩
def PEN_MB_TX_STAT_state : RField := ⟨R.PEN_MB_TX_STAT, 0, 2⟩
def PEN_MB_TX_STAT_tries : RField := ⟨R.PEN_MB_TX_STAT, 2, 5⟩
def PEN_MB_TX_STAT_seq : RField := ⟨R.PEN_MB_TX_STAT, 7, 8⟩
def PEN_MB_RX_STAT_count : RField := ⟨R.PEN_MB_RX_STAT, 0, 2⟩
def PEN_MB_RX_STAT_len_m1 : RField := ⟨R.PEN_MB_RX_STAT, 2, 8⟩
def PEN_MB_RX_STAT_seq : RField := ⟨R.PEN_MB_RX_STAT, 10, 8⟩
def PEN_MB_RX_POP_pop : RField := ⟨R.PEN_MB_RX_POP, 0, 1⟩
def PEN_TEL_STAT_age_ms : RField := ⟨R.PEN_TEL_STAT, 0, 16⟩
def PEN_TEL_STAT_seq : RField := ⟨R.PEN_TEL_STAT, 16, 8⟩
def PEN_TEL_STAT_valid : RField := ⟨R.PEN_TEL_STAT, 24, 1⟩
def PEN_MB_TXk_bytes (k : Nat) : RField := ⟨(R.PEN_MB_TXk k), 0, 32⟩
def PEN_MB_RXk_bytes (k : Nat) : RField := ⟨(R.PEN_MB_RXk k), 0, 32⟩
def PEN_TEL_RXk_word (k : Nat) : RField := ⟨(R.PEN_TEL_RXk k), 0, 32⟩
def TIME_CTRL_tc_en : CField := ⟨R.TIME_CTRL, 0, 1⟩
def TIME_CTRL_v6_trail : CField := ⟨R.TIME_CTRL, 1, 1⟩
def TIME_CTRL_src : CField := ⟨R.TIME_CTRL, 2, 2⟩
def TIME_CTRL_tsync_pol : CField := ⟨R.TIME_CTRL, 4, 1⟩
def TIME_NOW_NS_ns : RField := ⟨R.TIME_NOW_NS, 0, 32⟩
def TIME_NOW_FRAC_frac : RField := ⟨R.TIME_NOW_FRAC, 0, 16⟩
def TIME_NOW_FRAC_wraps : RField := ⟨R.TIME_NOW_FRAC, 16, 16⟩
def TIME_STEP_value : RField := ⟨R.TIME_STEP, 0, 32⟩
def TIME_STEP_CTRL_go : RField := ⟨R.TIME_STEP_CTRL, 0, 1⟩
def TIME_STEP_CTRL_absolute : RField := ⟨R.TIME_STEP_CTRL, 1, 1⟩
def TIME_STEP_CTRL_busy : RField := ⟨R.TIME_STEP_CTRL, 2, 1⟩
def TIME_RATE_base : RField := ⟨R.TIME_RATE, 0, 32⟩
def TIME_SERVO_CTRL_kp : CField := ⟨R.TIME_SERVO_CTRL, 0, 8⟩
def TIME_SERVO_CTRL_ki : CField := ⟨R.TIME_SERVO_CTRL, 8, 8⟩
def TIME_SERVO_CTRL_step_sh : CField := ⟨R.TIME_SERVO_CTRL, 16, 5⟩
def TIME_SERVO_OFS_theta : RField := ⟨R.TIME_SERVO_OFS, 0, 32⟩
def TIME_SERVO_ADJ_adj : RField := ⟨R.TIME_SERVO_ADJ, 0, 32⟩
def TIME_SERVO_INTEG_integ : RField := ⟨R.TIME_SERVO_INTEG, 0, 32⟩
def TIME_PPS_EXP_exp : RField := ⟨R.TIME_PPS_EXP, 0, 32⟩
def TIME_PPS_CAP_ns : RField := ⟨R.TIME_PPS_CAP, 0, 32⟩
def TIME_PPS_OFS_theta : RField := ⟨R.TIME_PPS_OFS, 0, 32⟩
def TIME_STAT_pps_lost : RField := ⟨R.TIME_STAT, 0, 1⟩
def TIME_STAT_ref_lost : RField := ⟨R.TIME_STAT, 1, 1⟩
def TIME_STAT_servo_hold : RField := ⟨R.TIME_STAT, 2, 1⟩
def TIME_INT_wrap : RField := ⟨R.TIME_INT, 0, 1⟩
def TIME_INT_pps : RField := ⟨R.TIME_INT, 1, 1⟩
def TIME_INT_pps_lost : RField := ⟨R.TIME_INT, 2, 1⟩
def TIME_INT_servo_step : RField := ⟨R.TIME_INT, 3, 1⟩
def TIME_INT_EN_en : RField := ⟨R.TIME_INT_EN, 0, 4⟩
def TIME_OFS_HOST_RX_ofs : CField := ⟨R.TIME_OFS_HOST_RX, 0, 32⟩
def TIME_OFS_HOST_TX_ofs : CField := ⟨R.TIME_OFS_HOST_TX, 0, 32⟩
def TIME_OFS_LINE_RX_ofs : CField := ⟨R.TIME_OFS_LINE_RX, 0, 32⟩
def TIME_OFS_LINE_TX_ofs : CField := ⟨R.TIME_OFS_LINE_TX, 0, 32⟩
def TIME_STD_DELAY_h2l : RField := ⟨R.TIME_STD_DELAY, 0, 16⟩
def TIME_STD_DELAY_l2h : RField := ⟨R.TIME_STD_DELAY, 16, 16⟩
def TOP_ID_id : RField := ⟨R.TOP_ID, 0, 32⟩
def TOP_STEP_step : RField := ⟨R.TOP_STEP, 0, 32⟩
def TOP_STATE_state : RField := ⟨R.TOP_STATE, 0, 4⟩
def TOP_STATE_prev : RField := ⟨R.TOP_STATE, 4, 4⟩
def TOP_STATE_mode : RField := ⟨R.TOP_STATE, 8, 3⟩
def TOP_STATE_fault : RField := ⟨R.TOP_STATE, 11, 1⟩
def TOP_MODE_line_mode : CField := ⟨R.TOP_MODE, 0, 3⟩
def TOP_COMMIT_go : RField := ⟨R.TOP_COMMIT, 0, 1⟩
def TOP_COMMIT_busy : RField := ⟨R.TOP_COMMIT, 1, 1⟩
def TOP_COMMIT_settled : RField := ⟨R.TOP_COMMIT, 2, 1⟩
def TOP_COMMIT_refused : RField := ⟨R.TOP_COMMIT, 3, 1⟩
def TOP_COMMIT_commit_no : RField := ⟨R.TOP_COMMIT, 16, 16⟩
def TOP_COMMIT_STAT_epoch : RField := ⟨R.TOP_COMMIT_STAT, 0, 32⟩
def TOP_EPOCH_count : RField := ⟨R.TOP_EPOCH, 0, 32⟩
def TOP_SNAP_go : RField := ⟨R.TOP_SNAP, 0, 1⟩
def TOP_SNAP_clear : RField := ⟨R.TOP_SNAP, 1, 1⟩
def TOP_SNAP_busy : RField := ⟨R.TOP_SNAP, 2, 1⟩
def TOP_SNAP_STAT_epoch : RField := ⟨R.TOP_SNAP_STAT, 0, 32⟩
def TOP_CMD_opcode : RField := ⟨R.TOP_CMD, 0, 8⟩
def TOP_CMD_ARGk_value (k : Nat) : RField := ⟨(R.TOP_CMD_ARGk k), 0, 32⟩
def TOP_CMD_STAT_status : RField := ⟨R.TOP_CMD_STAT, 0, 4⟩
def TOP_CMD_STAT_opcode : RField := ⟨R.TOP_CMD_STAT, 4, 8⟩
def TOP_CMD_STAT_port : RField := ⟨R.TOP_CMD_STAT, 12, 3⟩
def TOP_CMD_STAT_collide : RField := ⟨R.TOP_CMD_STAT, 15, 1⟩
def TOP_CMD_STAT_serial : RField := ⟨R.TOP_CMD_STAT, 16, 16⟩
def TOP_CMD_STATE_CNT_count : RField := ⟨R.TOP_CMD_STATE_CNT, 0, 32⟩
def TOP_INT_cmd_done : RField := ⟨R.TOP_INT, 0, 1⟩
def TOP_INT_commit_done : RField := ⟨R.TOP_INT, 1, 1⟩
def TOP_INT_snap_done : RField := ⟨R.TOP_INT, 2, 1⟩
def TOP_INT_state_chg : RField := ⟨R.TOP_INT, 3, 1⟩
def TOP_INT_stage_drop : RField := ⟨R.TOP_INT, 4, 1⟩
def TOP_INT_bus_err : RField := ⟨R.TOP_INT, 5, 1⟩
def TOP_INT_summary : RField := ⟨R.TOP_INT, 16, 16⟩
def TOP_INT_EN_en : RField := ⟨R.TOP_INT_EN, 0, 32⟩
def TOP_ERR_unmapped : RField := ⟨R.TOP_ERR, 0, 1⟩
def TOP_ERR_stage_busy : RField := ⟨R.TOP_ERR, 1, 1⟩
def TOP_ERR_alias_write : RField := ⟨R.TOP_ERR, 2, 1⟩
def TOP_ERR_xd_timeout : RField := ⟨R.TOP_ERR, 3, 1⟩
def TOP_ERR_dram_win : RField := ⟨R.TOP_ERR, 4, 1⟩
def TOP_ERR_poison : RField := ⟨R.TOP_ERR, 5, 1⟩
def TOP_STAGE_DROP_CNT_count : RField := ⟨R.TOP_STAGE_DROP_CNT, 0, 32⟩
def TOP_BUS_ERR_CNT_count : RField := ⟨R.TOP_BUS_ERR_CNT, 0, 32⟩
def TOP_DRAM_WIN_page : RField := ⟨R.TOP_DRAM_WIN, 0, 4⟩
def PMON_ADDR_addr : RField := ⟨R.PMON_ADDR, 0, 32⟩
def PMON_DATA_value : RField := ⟨R.PMON_DATA, 0, 32⟩
def PMON_STAT_not_counter : RField := ⟨R.PMON_STAT, 0, 1⟩
def PMON_STAT_stale : RField := ⟨R.PMON_STAT, 1, 1⟩
def SEC_LC_lc : RField := ⟨R.SEC_LC, 0, 2⟩
def SEC_LC_lc_fused : RField := ⟨R.SEC_LC, 2, 2⟩
def SEC_LC_vendor_set : RField := ⟨R.SEC_LC, 4, 1⟩
def SEC_LC_owner_set : RField := ⟨R.SEC_LC, 5, 1⟩
def SEC_LC_rollback_min : RField := ⟨R.SEC_LC, 6, 6⟩
def SEC_STRAP_bootsel : RField := ⟨R.SEC_STRAP, 0, 2⟩
def SEC_STRAP_maddr : RField := ⟨R.SEC_STRAP, 2, 3⟩
def SEC_STRAP_pclass : RField := ⟨R.SEC_STRAP, 5, 2⟩
def SEC_STRAP_safedef : RField := ⟨R.SEC_STRAP, 7, 1⟩
def SEC_BOOT_STAT_step : RField := ⟨R.SEC_BOOT_STAT, 0, 8⟩
def SEC_BOOT_STAT_done : RField := ⟨R.SEC_BOOT_STAT, 8, 1⟩
def SEC_BOOT_STAT_failed : RField := ⟨R.SEC_BOOT_STAT, 9, 1⟩
def SEC_BOOT_STAT_copy : RField := ⟨R.SEC_BOOT_STAT, 10, 1⟩
def SEC_BOOT_STAT_dram_ready : RField := ⟨R.SEC_BOOT_STAT, 11, 1⟩
def SEC_BOOT_STAT_dram_failed : RField := ⟨R.SEC_BOOT_STAT, 12, 1⟩
def SEC_BOOT_STAT_cal_skip : RField := ⟨R.SEC_BOOT_STAT, 13, 1⟩
def SEC_BOOT_STAT_fail_primary : RField := ⟨R.SEC_BOOT_STAT, 16, 8⟩
def SEC_BOOT_STAT_fail_secondary : RField := ⟨R.SEC_BOOT_STAT, 24, 8⟩
def SEC_BOOT_TIME_ms : RField := ⟨R.SEC_BOOT_TIME, 0, 16⟩
def SEC_IMAGE_ID_build_id : RField := ⟨R.SEC_IMAGE_ID, 0, 32⟩
def SEC_IMAGE_VER_sec_version : RField := ⟨R.SEC_IMAGE_VER, 0, 6⟩
def SEC_DBG_STAT_unlocked : RField := ⟨R.SEC_DBG_STAT, 0, 1⟩
def SEC_DBG_STAT_chal_valid : RField := ⟨R.SEC_DBG_STAT, 1, 1⟩
def SEC_DBG_STAT_lockout : RField := ⟨R.SEC_DBG_STAT, 2, 1⟩
def SEC_DBG_STAT_key : RField := ⟨R.SEC_DBG_STAT, 3, 1⟩
def SEC_DBG_STAT_consec : RField := ⟨R.SEC_DBG_STAT, 4, 2⟩
def SEC_DBG_FAIL_CNT_count : RField := ⟨R.SEC_DBG_FAIL_CNT, 0, 32⟩
def SEC_FUSE_CTRL_op : RField := ⟨R.SEC_FUSE_CTRL, 0, 3⟩
def SEC_FUSE_CTRL_go : RField := ⟨R.SEC_FUSE_CTRL, 3, 1⟩
def SEC_FUSE_STAT_busy : RField := ⟨R.SEC_FUSE_STAT, 0, 1⟩
def SEC_FUSE_STAT_result : RField := ⟨R.SEC_FUSE_STAT, 1, 2⟩
def SEC_INT_boot_done : RField := ⟨R.SEC_INT, 0, 1⟩
def SEC_INT_boot_fail : RField := ⟨R.SEC_INT, 1, 1⟩
def SEC_INT_await : RField := ⟨R.SEC_INT, 2, 1⟩
def SEC_INT_dbg_unlock : RField := ⟨R.SEC_INT, 3, 1⟩
def SEC_INT_dbg_denied : RField := ⟨R.SEC_INT, 4, 1⟩
def SEC_INT_fuse_done : RField := ⟨R.SEC_INT, 5, 1⟩
def SEC_INT_EN_en : RField := ⟨R.SEC_INT_EN, 0, 6⟩
def SEC_UIDk_value (k : Nat) : RField := ⟨(R.SEC_UIDk k), 0, 32⟩
def SEC_KEYHASH_Vk_value (k : Nat) : RField := ⟨(R.SEC_KEYHASH_Vk k), 0, 32⟩
def SEC_KEYHASH_Ok_value (k : Nat) : RField := ⟨(R.SEC_KEYHASH_Ok k), 0, 32⟩
def SEC_BUFk_data (k : Nat) : RField := ⟨(R.SEC_BUFk k), 0, 32⟩
def CLK_REF_CTRL_auto_fail : RField := ⟨R.CLK_REF_CTRL, 0, 1⟩
def CLK_REF_CTRL_auto_return : RField := ⟨R.CLK_REF_CTRL, 1, 1⟩
def CLK_REF_CTRL_revert : RField := ⟨R.CLK_REF_CTRL, 2, 1⟩
def CLK_REF_CTRL_force_osc : RField := ⟨R.CLK_REF_CTRL, 3, 1⟩
def CLK_MON_CTRL_tol : RField := ⟨R.CLK_MON_CTRL, 0, 8⟩
def CLK_MON_CTRL_good_win : RField := ⟨R.CLK_MON_CTRL, 8, 8⟩
def CLK_STAT_ref_ok : RField := ⟨R.CLK_STAT, 0, 1⟩
def CLK_STAT_on_osc : RField := ⟨R.CLK_STAT, 1, 1⟩
def CLK_STAT_osc_fail : RField := ⟨R.CLK_STAT, 2, 1⟩
def CLK_STAT_ramp_busy : RField := ⟨R.CLK_STAT, 3, 1⟩
def CLK_STAT_fabric_direct : RField := ⟨R.CLK_STAT, 4, 1⟩
def CLK_STAT_lock : RField := ⟨R.CLK_STAT, 5, 5⟩
def CLK_STAT_trim_act : RField := ⟨R.CLK_STAT, 10, 2⟩
def CLK_STAT_trim_limit : RField := ⟨R.CLK_STAT, 12, 1⟩
def CLK_MON_COUNT_count : RField := ⟨R.CLK_MON_COUNT, 0, 16⟩
def CLK_OSC_CTRL_trim_src : RField := ⟨R.CLK_OSC_CTRL, 0, 2⟩
def CLK_OSC_TRIM_code : RField := ⟨R.CLK_OSC_TRIM, 0, 10⟩
def CLK_OSC_TRIM_factory : RField := ⟨R.CLK_OSC_TRIM, 16, 10⟩
def CLK_OSC_ERR_err : RField := ⟨R.CLK_OSC_ERR, 0, 16⟩
def CLK_OSC_ERR_valid : RField := ⟨R.CLK_OSC_ERR, 16, 1⟩
def CLK_RAMP_step_us : RField := ⟨R.CLK_RAMP, 0, 4⟩
def CLK_BUS_CTRL_fab_div : RField := ⟨R.CLK_BUS_CTRL, 0, 4⟩
def CLK_BUS_CTRL_per_div : RField := ⟨R.CLK_BUS_CTRL, 4, 6⟩
def CLK_GATE_hsk : RField := ⟨R.CLK_GATE, 0, 1⟩
def CLK_GATE_bias : RField := ⟨R.CLK_GATE, 1, 1⟩
def CLK_GATE_bist : RField := ⟨R.CLK_GATE, 2, 1⟩
def CLK_GATE_cap : RField := ⟨R.CLK_GATE, 3, 1⟩
def CLK_GATE_STAT_open : RField := ⟨R.CLK_GATE_STAT, 0, 4⟩
def CLK_GATE_STAT_held : RField := ⟨R.CLK_GATE_STAT, 4, 4⟩
def CLK_INT_ref_fail : RField := ⟨R.CLK_INT, 0, 1⟩
def CLK_INT_ref_good : RField := ⟨R.CLK_INT, 1, 1⟩
def CLK_INT_gate_forced : RField := ⟨R.CLK_INT, 2, 1⟩
def CLK_INT_pll_unlock : RField := ⟨R.CLK_INT, 3, 1⟩
def CLK_INT_trim_limit : RField := ⟨R.CLK_INT, 4, 1⟩
def CLK_INT_EN_en : RField := ⟨R.CLK_INT_EN, 0, 5⟩
def CLK_REF_FAIL_CNT_count : RField := ⟨R.CLK_REF_FAIL_CNT, 0, 32⟩
def CLK_GATE_FORCE_CNT_count : RField := ⟨R.CLK_GATE_FORCE_CNT, 0, 32⟩
def PWR_STATE_pstate : RField := ⟨R.PWR_STATE, 0, 2⟩
def PWR_STATE_target : RField := ⟨R.PWR_STATE, 2, 2⟩
def PWR_STATE_phase : RField := ⟨R.PWR_STATE, 4, 3⟩
def PWR_STATE_asking : RField := ⟨R.PWR_STATE, 16, 8⟩
def PWR_IDLE_CTRL_quiet_us : RField := ⟨R.PWR_IDLE_CTRL, 0, 16⟩
def PWR_IDLE_CTRL_standby_ms : RField := ⟨R.PWR_IDLE_CTRL, 16, 16⟩
def PWR_QUIET_CTRL_rx_idle_us : RField := ⟨R.PWR_QUIET_CTRL, 0, 16⟩
def PWR_QUIET_CTRL_follow_en : RField := ⟨R.PWR_QUIET_CTRL, 16, 1⟩
def PWR_WAKE_EN_cmd : RField := ⟨R.PWR_WAKE_EN, 0, 1⟩
def PWR_WAKE_EN_en : RField := ⟨R.PWR_WAKE_EN, 1, 5⟩
def PWR_WAKE_SRC_src : RField := ⟨R.PWR_WAKE_SRC, 0, 6⟩
def PWR_WAKE_TIMER_ms : RField := ⟨R.PWR_WAKE_TIMER, 0, 24⟩
def PWR_LAST_REFUSE_id : RField := ⟨R.PWR_LAST_REFUSE, 0, 8⟩
def PWR_LAST_REFUSE_reason : RField := ⟨R.PWR_LAST_REFUSE, 8, 8⟩
def PWR_LAST_REFUSE_target : RField := ⟨R.PWR_LAST_REFUSE, 16, 2⟩
def PWR_LAST_REFUSE_forced : RField := ⟨R.PWR_LAST_REFUSE, 18, 1⟩
def PWR_REFUSE_CNT_count : RField := ⟨R.PWR_REFUSE_CNT, 0, 32⟩
def PWR_ABORT_CNT_count : RField := ⟨R.PWR_ABORT_CNT, 0, 32⟩
def PWR_RET_STAT_fail : RField := ⟨R.PWR_RET_STAT, 0, 8⟩
def PWR_RET_STAT_checked : RField := ⟨R.PWR_RET_STAT, 8, 1⟩
def PWR_WAKE_FAIL_source : RField := ⟨R.PWR_WAKE_FAIL, 0, 4⟩
def PWR_WAKE_FAIL_tries : RField := ⟨R.PWR_WAKE_FAIL, 4, 2⟩
def PWR_WAKE_FAIL_given_up : RField := ⟨R.PWR_WAKE_FAIL, 6, 1⟩
def PWR_WAKE_FAIL_clear : RField := ⟨R.PWR_WAKE_FAIL, 7, 1⟩
def PWR_WAKE_FAIL_CNT_count : RField := ⟨R.PWR_WAKE_FAIL_CNT, 0, 32⟩
def PWR_INT_entered : RField := ⟨R.PWR_INT, 0, 1⟩
def PWR_INT_exited : RField := ⟨R.PWR_INT, 1, 1⟩
def PWR_INT_refused : RField := ⟨R.PWR_INT, 2, 1⟩
def PWR_INT_aborted : RField := ⟨R.PWR_INT, 3, 1⟩
def PWR_INT_ret_fail : RField := ⟨R.PWR_INT, 4, 1⟩
def PWR_INT_wake_fail : RField := ⟨R.PWR_INT, 5, 1⟩
def PWR_INT_EN_en : RField := ⟨R.PWR_INT_EN, 0, 6⟩
def HSK_CTRL_en : CField := ⟨R.HSK_CTRL, 0, 1⟩
def HSK_CTRL_len : CField := ⟨R.HSK_CTRL, 1, 7⟩
def HSK_REF_CTRL_src : CField := ⟨R.HSK_REF_CTRL, 0, 2⟩
def HSK_REF_CTRL_buf_en : CField := ⟨R.HSK_REF_CTRL, 2, 1⟩
def HSK_STAT_running : RField := ⟨R.HSK_STAT, 0, 1⟩
def HSK_STAT_ref_ready : RField := ⟨R.HSK_STAT, 1, 1⟩
def HSK_STAT_entry : RField := ⟨R.HSK_STAT, 2, 7⟩
def HSK_STAT_channel : RField := ⟨R.HSK_STAT, 9, 5⟩
def HSK_INT_pass_done : RField := ⟨R.HSK_INT, 0, 1⟩
def HSK_INT_ref_unready : RField := ⟨R.HSK_INT, 1, 1⟩
def HSK_INT_ovr : RField := ⟨R.HSK_INT, 2, 1⟩
def HSK_INT_EN_en : RField := ⟨R.HSK_INT_EN, 0, 3⟩
def HSK_PASS_CNT_count : RField := ⟨R.HSK_PASS_CNT, 0, 32⟩
def HSK_OVR_CNT_count : RField := ⟨R.HSK_OVR_CNT, 0, 32⟩
def HSK_SEQk_A_ch (k : Nat) : CField := ⟨(R.HSK_SEQk_A k), 0, 5⟩
def HSK_SEQk_A_sel (k : Nat) : CField := ⟨(R.HSK_SEQk_A k), 5, 4⟩
def HSK_SEQk_A_cor (k : Nat) : CField := ⟨(R.HSK_SEQk_A k), 9, 4⟩
def HSK_SEQk_A_repeat (k : Nat) : CField := ⟨(R.HSK_SEQk_A k), 13, 8⟩
def HSK_SEQk_A_delay (k : Nat) : CField := ⟨(R.HSK_SEQk_A k), 21, 8⟩
def HSK_SEQk_B_w (k : Nat) : CField := ⟨(R.HSK_SEQk_B k), 0, 11⟩
def HSK_CORj_OFS_ofs (k : Nat) : CField := ⟨(R.HSK_CORj_OFS k), 0, 24⟩
def HSK_CORj_GAIN_gain (k : Nat) : CField := ⟨(R.HSK_CORj_GAIN k), 0, 24⟩
def HSK_RESc_value (k : Nat) : RField := ⟨(R.HSK_RESc k), 0, 24⟩
def HSK_RESc_valid (k : Nat) : RField := ⟨(R.HSK_RESc k), 24, 1⟩
def HSK_RESc_unsettled (k : Nat) : RField := ⟨(R.HSK_RESc k), 25, 1⟩
def HSK_RESc_ovr (k : Nat) : RField := ⟨(R.HSK_RESc k), 26, 1⟩
def BIAS_STAT_sc : RField := ⟨R.BIAS_STAT, 0, 16⟩
def BIAS_STAT_hold0 : RField := ⟨R.BIAS_STAT, 16, 1⟩
def BIAS_STAT_frozen : RField := ⟨R.BIAS_STAT, 17, 1⟩
def BIAS_INT_sc : RField := ⟨R.BIAS_INT, 0, 16⟩
def BIAS_INT_EN_en : RField := ⟨R.BIAS_INT_EN, 0, 16⟩
def BIAS_TBL_ADDR_index : RField := ⟨R.BIAS_TBL_ADDR, 0, 10⟩
def BIAS_TBL_DATA_value : RField := ⟨R.BIAS_TBL_DATA, 0, 16⟩
def BIAS_SC_CNT_count : RField := ⟨R.BIAS_SC_CNT, 0, 32⟩
def BIAS_CHn_CTRL_en (n : Nat) : CField := ⟨(R.BIAS_CHn_CTRL n), 0, 1⟩
def BIAS_CHn_CTRL_gain (n : Nat) : CField := ⟨(R.BIAS_CHn_CTRL n), 1, 1⟩
def BIAS_CHn_CTRL_dith_en (n : Nat) : CField := ⟨(R.BIAS_CHn_CTRL n), 2, 1⟩
def BIAS_CHn_CODE_code (n : Nat) : CField := ⟨(R.BIAS_CHn_CODE n), 0, 12⟩
def BIAS_CHn_DFREQ_fw (n : Nat) : CField := ⟨(R.BIAS_CHn_DFREQ n), 0, 24⟩
def BIAS_CHn_DAMP_amp (n : Nat) : CField := ⟨(R.BIAS_CHn_DAMP n), 0, 12⟩
def BIAS_CHn_DAMP_doffs (n : Nat) : CField := ⟨(R.BIAS_CHn_DAMP n), 16, 12⟩
def BIAS_CHn_OUT_code_out (n : Nat) : RField := ⟨(R.BIAS_CHn_OUT n), 0, 12⟩
def BIAS_CHn_OUT_clamped (n : Nat) : RField := ⟨(R.BIAS_CHn_OUT n), 12, 1⟩
def BIAS_CHn_OUT_sat (n : Nat) : RField := ⟨(R.BIAS_CHn_OUT n), 13, 1⟩
def THERM_CTRL_thr_c : CField := ⟨R.THERM_CTRL, 0, 8⟩
def THERM_CTRL_step : CField := ⟨R.THERM_CTRL, 8, 4⟩
def THERM_CTRL_hyst : CField := ⟨R.THERM_CTRL, 12, 4⟩
def THERM_CTRL_thr_en : CField := ⟨R.THERM_CTRL, 16, 1⟩
def THERM_STAT_level : RField := ⟨R.THERM_STAT, 0, 3⟩
def THERM_STAT_suspect : RField := ⟨R.THERM_STAT, 3, 12⟩
def THERM_STAT_degraded : RField := ⟨R.THERM_STAT, 15, 1⟩
def THERM_STAT_shut_latched : RField := ⟨R.THERM_STAT, 16, 1⟩
def THERM_TMAX_temp : RField := ⟨R.THERM_TMAX, 0, 16⟩
def THERM_TMAX_sensor : RField := ⟨R.THERM_TMAX, 16, 4⟩
def THERM_SHUT_INFO_temp : RField := ⟨R.THERM_SHUT_INFO, 0, 16⟩
def THERM_SHUT_INFO_sensor : RField := ⟨R.THERM_SHUT_INFO, 16, 4⟩
def THERM_SHUT_INFO_two_sensor : RField := ⟨R.THERM_SHUT_INFO, 20, 1⟩
def THERM_INT_level_chg : RField := ⟨R.THERM_INT, 0, 1⟩
def THERM_INT_suspect : RField := ⟨R.THERM_INT, 1, 1⟩
def THERM_INT_degraded : RField := ⟨R.THERM_INT, 2, 1⟩
def THERM_INT_EN_en : RField := ⟨R.THERM_INT_EN, 0, 3⟩
def THERM_THR_CNT_count : RField := ⟨R.THERM_THR_CNT, 0, 32⟩
def THERM_SUSPECT_CNT_count : RField := ⟨R.THERM_SUSPECT_CNT, 0, 32⟩
def THERM_TSk_temp (k : Nat) : RField := ⟨(R.THERM_TSk k), 0, 16⟩
def THERM_TSk_valid (k : Nat) : RField := ⟨(R.THERM_TSk k), 16, 1⟩
def THERM_TSk_suspect (k : Nat) : RField := ⟨(R.THERM_TSk k), 17, 1⟩
def THERM_TSk_cal (k : Nat) : RField := ⟨(R.THERM_TSk k), 24, 8⟩
def SAFE_CTRL_sc_en : RField := ⟨R.SAFE_CTRL, 0, 1⟩
def SAFE_LANE_req : RField := ⟨R.SAFE_LANE, 0, 8⟩
def SAFE_FAULT_sc : RField := ⟨R.SAFE_FAULT, 0, 8⟩
def SAFE_FAULT_igs : RField := ⟨R.SAFE_FAULT, 8, 8⟩
def SAFE_FAULT_wdog : RField := ⟨R.SAFE_FAULT, 16, 1⟩
def SAFE_FAULT_thermal : RField := ⟨R.SAFE_FAULT, 17, 1⟩
def SAFE_FAULT_txdis_seen : RField := ⟨R.SAFE_FAULT, 18, 1⟩
def SAFE_STAT_safe : RField := ⟨R.SAFE_STAT, 0, 8⟩
def SAFE_STAT_txdis : RField := ⟨R.SAFE_STAT, 8, 1⟩
def SAFE_STAT_bscan : RField := ⟨R.SAFE_STAT, 9, 1⟩
def SAFE_STAT_igs_run : RField := ⟨R.SAFE_STAT, 10, 1⟩
def SAFE_STAT_pwr_hold : RField := ⟨R.SAFE_STAT, 11, 1⟩
def SAFE_STAT_released : RField := ⟨R.SAFE_STAT, 16, 16⟩
def SAFE_INT_safe_entry : RField := ⟨R.SAFE_INT, 0, 1⟩
def SAFE_INT_wr_rej : RField := ⟨R.SAFE_INT, 1, 1⟩
def SAFE_INT_EN_en : RField := ⟨R.SAFE_INT_EN, 0, 2⟩
def SAFE_WR_REJ_CNT_count : RField := ⟨R.SAFE_WR_REJ_CNT, 0, 32⟩
def SAFE_BDn_LIM_clamp_hi (n : Nat) : RField := ⟨(R.SAFE_BDn_LIM n), 0, 12⟩
def SAFE_BDn_LIM_ramp (n : Nat) : RField := ⟨(R.SAFE_BDn_LIM n), 12, 8⟩
def SAFE_BDn_VAL_pwrup (n : Nat) : RField := ⟨(R.SAFE_BDn_VAL n), 0, 12⟩
def SAFE_BDn_VAL_safe (n : Nat) : RField := ⟨(R.SAFE_BDn_VAL n), 12, 12⟩
def SAFE_BDn_VAL_lane (n : Nat) : RField := ⟨(R.SAFE_BDn_VAL n), 24, 4⟩
def MEM_CTRL_sram_scrub : RField := ⟨R.MEM_CTRL, 0, 1⟩
def MEM_CTRL_dram_scrub : RField := ⟨R.MEM_CTRL, 1, 1⟩
def MEM_STAT_dram_ready : RField := ⟨R.MEM_STAT, 0, 1⟩
def MEM_STAT_dram_sr : RField := ⟨R.MEM_STAT, 1, 1⟩
def MEM_STAT_dram_unusable : RField := ⟨R.MEM_STAT, 2, 1⟩
def MEM_STAT_dram_degraded : RField := ⟨R.MEM_STAT, 3, 1⟩
def MEM_STAT_clear_busy : RField := ⟨R.MEM_STAT, 4, 1⟩
def MEM_CHK_STAT_done : RField := ⟨R.MEM_CHK_STAT, 0, 1⟩
def MEM_CHK_STAT_failed : RField := ⟨R.MEM_CHK_STAT, 1, 1⟩
def MEM_CHK_STAT_checker : RField := ⟨R.MEM_CHK_STAT, 2, 7⟩
def MEM_ERR_ADDR_loc : RField := ⟨R.MEM_ERR_ADDR, 0, 31⟩
def MEM_ERR_ADDR_dram : RField := ⟨R.MEM_ERR_ADDR, 31, 1⟩
def MEM_ERR_INFO_scrub : RField := ⟨R.MEM_ERR_INFO, 0, 1⟩
def MEM_ERR_INFO_syndrome : RField := ⟨R.MEM_ERR_INFO, 1, 8⟩
def MEM_INJ_ADDR_addr : RField := ⟨R.MEM_INJ_ADDR, 0, 32⟩
def MEM_INJ_CTRL_kind : RField := ⟨R.MEM_INJ_CTRL, 0, 2⟩
def MEM_INJ_CTRL_bit : RField := ⟨R.MEM_INJ_CTRL, 2, 7⟩
def MEM_INJ_CTRL_arm : RField := ⟨R.MEM_INJ_CTRL, 9, 1⟩
def MEM_INJ_CTRL_armed : RField := ⟨R.MEM_INJ_CTRL, 10, 1⟩
def MEM_CLEAR_BASE_block : RField := ⟨R.MEM_CLEAR_BASE, 12, 20⟩
def MEM_CLEAR_LEN_blocks : RField := ⟨R.MEM_CLEAR_LEN, 0, 21⟩
def MEM_CLEAR_CTRL_go : RField := ⟨R.MEM_CLEAR_CTRL, 0, 1⟩
def MEM_SPARE_USED_pc : RField := ⟨R.MEM_SPARE_USED, 0, 32⟩
def MEM_BANK_LOST_pc : RField := ⟨R.MEM_BANK_LOST, 0, 32⟩
def MEM_SRAM_CE_CNT_count : RField := ⟨R.MEM_SRAM_CE_CNT, 0, 32⟩
def MEM_SRAM_UE_CNT_count : RField := ⟨R.MEM_SRAM_UE_CNT, 0, 32⟩
def MEM_DRAM_CE_CNT_count : RField := ⟨R.MEM_DRAM_CE_CNT, 0, 32⟩
def MEM_DRAM_UE_CNT_count : RField := ⟨R.MEM_DRAM_UE_CNT, 0, 32⟩
def MEM_BANK_FAIL_CNT_count : RField := ⟨R.MEM_BANK_FAIL_CNT, 0, 32⟩
def MEM_INT_ue : RField := ⟨R.MEM_INT, 0, 1⟩
def MEM_INT_bank_fail : RField := ⟨R.MEM_INT, 1, 1⟩
def MEM_INT_clear_done : RField := ⟨R.MEM_INT, 2, 1⟩
def MEM_INT_spare_exhausted : RField := ⟨R.MEM_INT, 3, 1⟩
def MEM_INT_EN_en : RField := ⟨R.MEM_INT_EN, 0, 4⟩
def BIST_STAT_running : RField := ⟨R.BIST_STAT, 0, 1⟩
def BIST_STAT_unit : RField := ⟨R.BIST_STAT, 1, 5⟩
def BIST_STAT_slice : RField := ⟨R.BIST_STAT, 6, 5⟩
def BIST_STAT_trigger : RField := ⟨R.BIST_STAT, 11, 2⟩
def BIST_NEXT_unit : RField := ⟨R.BIST_NEXT, 0, 5⟩
def BIST_NEXT_slice : RField := ⟨R.BIST_NEXT, 5, 5⟩
def BIST_DONE_units : RField := ⟨R.BIST_DONE, 0, 28⟩
def BIST_FAIL_ADDR_loc : RField := ⟨R.BIST_FAIL_ADDR, 0, 32⟩
def BIST_FAIL_BIT_bit : RField := ⟨R.BIST_FAIL_BIT, 0, 7⟩
def BIST_FAIL_BIT_unit : RField := ⟨R.BIST_FAIL_BIT, 7, 5⟩
def BIST_FAIL_BIT_count : RField := ⟨R.BIST_FAIL_BIT, 12, 16⟩
def BIST_REPAIR_STAT_entries : RField := ⟨R.BIST_REPAIR_STAT, 0, 9⟩
def BIST_REPAIR_STAT_valid : RField := ⟨R.BIST_REPAIR_STAT, 9, 1⟩
def BIST_REPAIR_STAT_overflow : RField := ⟨R.BIST_REPAIR_STAT, 10, 1⟩
def BIST_REPAIR_STAT_unrepaired : RField := ⟨R.BIST_REPAIR_STAT, 11, 1⟩
def BIST_INT_done : RField := ⟨R.BIST_INT, 0, 1⟩
def BIST_INT_fail : RField := ⟨R.BIST_INT, 1, 1⟩
def BIST_INT_aborted : RField := ⟨R.BIST_INT, 2, 1⟩
def BIST_INT_EN_en : RField := ⟨R.BIST_INT_EN, 0, 3⟩
def BIST_RESk_result (k : Nat) : RField := ⟨(R.BIST_RESk k), 0, 3⟩
def BIST_RESk_repaired (k : Nat) : RField := ⟨(R.BIST_RESk k), 3, 8⟩
def BIST_RESk_runs (k : Nat) : RField := ⟨(R.BIST_RESk k), 16, 16⟩
def IGS_FREEZE_freeze : RField := ⟨R.IGS_FREEZE, 0, 1⟩
def IGS_FREEZE_on_trap : RField := ⟨R.IGS_FREEZE, 1, 1⟩
def IGS_STAT_running : RField := ⟨R.IGS_STAT, 0, 9⟩
def IGS_STAT_trapped : RField := ⟨R.IGS_STAT, 16, 9⟩
def IGS_INT_trap : RField := ⟨R.IGS_INT, 0, 9⟩
def IGS_INT_EN_en : RField := ⟨R.IGS_INT_EN, 0, 9⟩
def IGS_En_CTRL_halt (n : Nat) : RField := ⟨(R.IGS_En_CTRL n), 0, 1⟩
def IGS_En_CTRL_run (n : Nat) : RField := ⟨(R.IGS_En_CTRL n), 1, 1⟩
def IGS_En_CTRL_step (n : Nat) : RField := ⟨(R.IGS_En_CTRL n), 2, 1⟩
def IGS_En_CTRL_restart (n : Nat) : RField := ⟨(R.IGS_En_CTRL n), 3, 1⟩
def IGS_En_STAT_state (n : Nat) : RField := ⟨(R.IGS_En_STAT n), 0, 3⟩
def IGS_En_STAT_cause (n : Nat) : RField := ⟨(R.IGS_En_STAT n), 3, 4⟩
def IGS_En_STAT_pc (n : Nat) : RField := ⟨(R.IGS_En_STAT n), 7, 16⟩
def IGS_En_STAT_restarts (n : Nat) : RField := ⟨(R.IGS_En_STAT n), 23, 4⟩
def IGS_En_WDOG_ms (n : Nat) : RField := ⟨(R.IGS_En_WDOG n), 0, 8⟩
def IGS_En_DOORBELL_ring (n : Nat) : RField := ⟨(R.IGS_En_DOORBELL n), 0, 1⟩
def IGS_En_PWR_answer (n : Nat) : RField := ⟨(R.IGS_En_PWR n), 0, 2⟩
def IGS_En_PWR_delay_ms (n : Nat) : RField := ⟨(R.IGS_En_PWR n), 2, 4⟩
def IGS_En_PWR_target (n : Nat) : RField := ⟨(R.IGS_En_PWR n), 6, 2⟩
def IGS_En_PWR_pending (n : Nat) : RField := ⟨(R.IGS_En_PWR n), 8, 1⟩
def IGS_En_LOG_code (n : Nat) : RField := ⟨(R.IGS_En_LOG n), 0, 16⟩
def IGS_En_LOG_arg (n : Nat) : RField := ⟨(R.IGS_En_LOG n), 16, 16⟩
def IGS_En_MEM_ADDR_addr (n : Nat) : RField := ⟨(R.IGS_En_MEM_ADDR n), 0, 18⟩
def IGS_En_MEM_ADDR_data (n : Nat) : RField := ⟨(R.IGS_En_MEM_ADDR n), 31, 1⟩
def IGS_En_MEM_DATA_word (n : Nat) : RField := ⟨(R.IGS_En_MEM_DATA n), 0, 32⟩
def IGS_En_CYC_LO_count (n : Nat) : RField := ⟨(R.IGS_En_CYC_LO n), 0, 32⟩
def IGS_En_CYC_HI_count (n : Nat) : RField := ⟨(R.IGS_En_CYC_HI n), 0, 16⟩
def IGS_En_SAMPLE_pc (n : Nat) : RField := ⟨(R.IGS_En_SAMPLE n), 0, 16⟩
def IGS_En_SAMPLE_counter (n : Nat) : RField := ⟨(R.IGS_En_SAMPLE n), 16, 3⟩
def IGS_En_SAMPLE_valid (n : Nat) : RField := ⟨(R.IGS_En_SAMPLE n), 19, 1⟩
def IGS_En_SAMPLE_overrun (n : Nat) : RField := ⟨(R.IGS_En_SAMPLE n), 20, 1⟩
def IGS_En_EVCNTk_count (n k : Nat) : RField := ⟨(R.IGS_En_EVCNTk n k), 0, 32⟩
def IGS_En_EVSELk_sel (n k : Nat) : RField := ⟨(R.IGS_En_EVSELk n k), 0, 4⟩
def IGS_En_EVSELk_ovf_int (n k : Nat) : RField := ⟨(R.IGS_En_EVSELk n k), 4, 1⟩
def IGS_En_WINk_en (n k : Nat) : CField := ⟨(R.IGS_En_WINk n k), 0, 1⟩
def IGS_En_WINk_wr (n k : Nat) : CField := ⟨(R.IGS_En_WINk n k), 1, 1⟩
def IGS_En_WINk_pages_m1 (n k : Nat) : CField := ⟨(R.IGS_En_WINk n k), 4, 8⟩
def IGS_En_WINk_base (n k : Nat) : CField := ⟨(R.IGS_En_WINk n k), 12, 20⟩
def IGS_En_SCRk_value (n k : Nat) : RField := ⟨(R.IGS_En_SCRk n k), 0, 32⟩
def EVR_CTRL_freeze : RField := ⟨R.EVR_CTRL, 0, 1⟩
def EVR_STAT_recording : RField := ⟨R.EVR_STAT, 0, 1⟩
def EVR_STAT_hold_count : RField := ⟨R.EVR_STAT, 1, 6⟩
def EVR_STAT_restart : RField := ⟨R.EVR_STAT, 7, 2⟩
def EVR_WR_INDEX_index : RField := ⟨R.EVR_WR_INDEX, 0, 32⟩
def EVR_CURSOR_index : RField := ⟨R.EVR_CURSOR, 0, 32⟩
def EVR_WINk_word (k : Nat) : RField := ⟨(R.EVR_WINk k), 0, 32⟩
def EVR_WIN_STAT_gone : RField := ⟨R.EVR_WIN_STAT, 0, 1⟩
def EVR_WIN_STAT_future : RField := ⟨R.EVR_WIN_STAT, 1, 1⟩
def EVR_HOLD_OVF_CNT_count : RField := ⟨R.EVR_HOLD_OVF_CNT, 0, 32⟩
def EVR_DROP_CNT_count : RField := ⟨R.EVR_DROP_CNT, 0, 32⟩
def EVR_WATCH_code : RField := ⟨R.EVR_WATCH, 0, 16⟩
def EVR_WATCH_mask : RField := ⟨R.EVR_WATCH, 16, 16⟩
def EVR_TIME_LO_time : RField := ⟨R.EVR_TIME_LO, 0, 32⟩
def EVR_TIME_HI_time : RField := ⟨R.EVR_TIME_HI, 0, 16⟩
def EVR_INT_watch : RField := ⟨R.EVR_INT, 0, 1⟩
def EVR_INT_kept_full : RField := ⟨R.EVR_INT, 1, 1⟩
def EVR_INT_hold_ovf : RField := ⟨R.EVR_INT, 2, 1⟩
def EVR_INT_drop : RField := ⟨R.EVR_INT, 3, 1⟩
def EVR_INT_dump_done : RField := ⟨R.EVR_INT, 4, 1⟩
def EVR_INT_EN_en : RField := ⟨R.EVR_INT_EN, 0, 5⟩
def EVR_DUMP_STAT_present : RField := ⟨R.EVR_DUMP_STAT, 0, 1⟩
def EVR_DUMP_STAT_area : RField := ⟨R.EVR_DUMP_STAT, 1, 1⟩
def EVR_DUMP_STAT_status : RField := ⟨R.EVR_DUMP_STAT, 2, 2⟩
def EVR_DUMP_STAT_pages : RField := ⟨R.EVR_DUMP_STAT, 16, 15⟩
def EVR_DUMP_PAGE_page : RField := ⟨R.EVR_DUMP_PAGE, 0, 14⟩
def EVR_DUMP_WIN_word (k : Nat) : RField := ⟨(R.EVR_DUMP_WIN k), 0, 32⟩
def CAP_CTRL_abort : RField := ⟨R.CAP_CTRL, 0, 1⟩
def CAP_CFG_wait_ms : RField := ⟨R.CAP_CFG, 0, 16⟩
def CAP_STAT_state : RField := ⟨R.CAP_STAT, 0, 2⟩
def CAP_STAT_overrun : RField := ⟨R.CAP_STAT, 2, 1⟩
def CAP_STAT_pre_short : RField := ⟨R.CAP_STAT, 3, 1⟩
def CAP_STAT_source : RField := ⟨R.CAP_STAT, 4, 2⟩
def CAP_STAT_lane : RField := ⟨R.CAP_STAT, 6, 3⟩
def CAP_WRITTEN_units : RField := ⟨R.CAP_WRITTEN, 0, 26⟩
def LEDGER_TX_ARM_CNT_count : RField := ⟨R.LEDGER_TX_ARM_CNT, 0, 32⟩
def LEDGER_TX_IGN_CNT_count : RField := ⟨R.LEDGER_TX_IGN_CNT, 0, 32⟩
def LEDGER_TX_LIMIT_CNT_count : RField := ⟨R.LEDGER_TX_LIMIT_CNT, 0, 32⟩
def LEDGER_TX_LATE_CNT_count : RField := ⟨R.LEDGER_TX_LATE_CNT, 0, 32⟩
def LEDGER_TX_EXPIRE_CNT_count : RField := ⟨R.LEDGER_TX_EXPIRE_CNT, 0, 32⟩
def LEDGER_TX_EXPOSE_CNT_count : RField := ⟨R.LEDGER_TX_EXPOSE_CNT, 0, 32⟩
def LEDGER_TX_RET_POISON_count : RField := ⟨R.LEDGER_TX_RET_POISON, 0, 32⟩
def LEDGER_TX_DOWN_CNT_count : RField := ⟨R.LEDGER_TX_DOWN_CNT, 0, 32⟩
def LEDGER_RX_REQ_CNT_count : RField := ⟨R.LEDGER_RX_REQ_CNT, 0, 32⟩
def LEDGER_RX_RECOVER_CNT_count : RField := ⟨R.LEDGER_RX_RECOVER_CNT, 0, 32⟩
def LEDGER_RX_DUP_CNT_count : RField := ⟨R.LEDGER_RX_DUP_CNT, 0, 32⟩
def LEDGER_RX_LATE_CNT_count : RField := ⟨R.LEDGER_RX_LATE_CNT, 0, 32⟩
def LEDGER_RX_LOSS_CNT_count : RField := ⟨R.LEDGER_RX_LOSS_CNT, 0, 32⟩
def LEDGER_RX_LOSS_CAUSE_due : RField := ⟨R.LEDGER_RX_LOSS_CAUSE, 0, 1⟩
def LEDGER_RX_LOSS_CAUSE_freed : RField := ⟨R.LEDGER_RX_LOSS_CAUSE, 1, 1⟩
def LEDGER_RX_LOSS_CAUSE_poison : RField := ⟨R.LEDGER_RX_LOSS_CAUSE, 2, 1⟩
def LEDGER_RX_VERIFY_POISON_count : RField := ⟨R.LEDGER_RX_VERIFY_POISON, 0, 32⟩
def LEDGER_RX_AMBIG_CNT_count : RField := ⟨R.LEDGER_RX_AMBIG_CNT, 0, 32⟩
def LEDGER_RX_ATTR_CNT_count : RField := ⟨R.LEDGER_RX_ATTR_CNT, 0, 32⟩
def LEDGER_RX_LF_CNT_count : RField := ⟨R.LEDGER_RX_LF_CNT, 0, 32⟩
def LEDGER_RX_SEQ_ERR_count : RField := ⟨R.LEDGER_RX_SEQ_ERR, 0, 32⟩
def LEDGER_DRAM_REBUILD_CNT_count : RField := ⟨R.LEDGER_DRAM_REBUILD_CNT, 0, 32⟩
def PEN_TX_CNT_count : RField := ⟨R.PEN_TX_CNT, 0, 32⟩
def PEN_RX_OK_CNT_count : RField := ⟨R.PEN_RX_OK_CNT, 0, 32⟩
def PEN_RX_FALSE_CNT_count : RField := ⟨R.PEN_RX_FALSE_CNT, 0, 32⟩
def PEN_RX_HDR_ERR_count : RField := ⟨R.PEN_RX_HDR_ERR, 0, 32⟩
def PEN_RX_CRC_ERR_count : RField := ⟨R.PEN_RX_CRC_ERR, 0, 32⟩
def PEN_RX_CAPTURE_CNT_count : RField := ⟨R.PEN_RX_CAPTURE_CNT, 0, 32⟩
def PEN_RX_SELF_CNT_count : RField := ⟨R.PEN_RX_SELF_CNT, 0, 32⟩
def PEN_MB_RX_OVF_count : RField := ⟨R.PEN_MB_RX_OVF, 0, 32⟩
def TIME_PTP_CORR_H2L_count : RField := ⟨R.TIME_PTP_CORR_H2L, 0, 32⟩
def TIME_PTP_CORR_L2H_count : RField := ⟨R.TIME_PTP_CORR_L2H, 0, 32⟩
def TIME_PTP_SKIP_count : RField := ⟨R.TIME_PTP_SKIP, 0, 32⟩
def TIME_PTP_SAT_count : RField := ⟨R.TIME_PTP_SAT, 0, 32⟩
def TIME_PPS_GLITCH_count : RField := ⟨R.TIME_PPS_GLITCH, 0, 32⟩
def TIME_PPS_MISS_count : RField := ⟨R.TIME_PPS_MISS, 0, 32⟩

end F

end Sys2Proof.Machine
end

