-- ==== Sys2Proof/Machine/RegTable.lean ====
section
/-!
DEFINITION. One row for each register of the spec's register maps: where it stands in its block, how often it repeats,
which of its bits have which access code (R8), which are staged (R256), its reset word (R10), whether TOP_SNAP captures
it (R261), and whether its reset value is one taken only at AON power-up (R10).
-/

namespace Sys2Proof.Machine

/-- TOP: TOP_ID and the rows that follow it. -/
def regsTOP0 : List RegDesc := [
  ⟨0, 1, 4, 0, 0, 0, 0, 0, 0, 0xC1B3208, false, 0⟩,
  ⟨4, 1, 4, 0, 0, 0, 0, 0, 0, 0xB0, false, 0⟩,
  ⟨8, 1, 4, 0, 0, 0, 0, 0, 0, 1, false, 0⟩,
  ⟨0xC, 1, 4, 7, 0, 0, 0, 0, 7, 0, false, 0⟩,
  ⟨0x10, 1, 4, 0, 0, 0, 1, 0, 0, 0, false, 0⟩,
  ⟨0x14, 1, 4, 0, 0, 0, 0, 0, 0, 0, false, 0⟩,
  ⟨0x18, 1, 4, 0, 0, 0, 0, 0, 0, 0, false, 0⟩,
  ⟨0x20, 1, 4, 0, 0, 0, 3, 0, 0, 0, false, 0⟩,
  ⟨0x24, 1, 4, 0, 0, 0, 0, 0, 0, 0, false, 0⟩,
  ⟨0x30, 1, 4, 0xFF, 0, 0, 0, 0, 0, 0, false, 0⟩,
  ⟨0x34, 4, 4, 0xFFFFFFFF, 0, 0, 0, 0, 0, 0, false, 0⟩,
  ⟨0x44, 1, 4, 0, 0, 0, 0, 0, 0, 0, false, 0⟩,
  ⟨0x48, 1, 4, 0, 0, 0, 0, 0, 0, 0, true, 0⟩,
  ⟨0x50, 1, 4, 0, 0x3F, 0, 0, 0, 0, 0, false, 0⟩,
  ⟨0x54, 1, 4, 0xFFFFFFFF, 0, 0, 0, 0, 0, 0, false, 0⟩,
  ⟨0x58, 1, 4, 0, 0x3F, 0, 0, 0, 0, 0, false, 0⟩]

/-- TOP: TOP_STAGE_DROP_CNT and the rows that follow it. -/
def regsTOP1 : List RegDesc := [
  ⟨0x5C, 1, 4, 0, 0, 0, 0, 0, 0, 0, true, 0⟩,
  ⟨0x60, 1, 4, 0, 0, 0, 0, 0, 0, 0, true, 0⟩,
  ⟨0x64, 1, 4, 0xF, 0, 0, 0, 0, 0, 0, false, 0⟩]

def regsTOP : List RegDesc := regsTOP0 ++ regsTOP1

/-- CLK: CLK_REF_CTRL and the rows that follow it. -/
def regsCLK : List RegDesc := [
  ⟨0, 1, 4, 0xB, 0, 0, 4, 0, 0, 3, false, 0⟩,
  ⟨4, 1, 4, 0xFFFF, 0, 0, 0, 0, 0, 0x832, false, 0⟩,
  ⟨8, 1, 4, 0, 0, 0, 0, 0, 0, 0x10, false, 0⟩,
  ⟨0xC, 1, 4, 0, 0, 0, 0, 0, 0, 0, false, 0⟩,
  ⟨0x10, 1, 4, 3, 0, 0, 0, 0, 0, 3, false, 0⟩,
  ⟨0x14, 1, 4, 0, 0, 0, 0, 0, 0, 0, false, 0⟩,
  ⟨0x18, 1, 4, 0, 0, 0, 0, 0, 0, 0, false, 0⟩,
  ⟨0x1C, 1, 4, 0xF, 0, 0, 0, 0, 0, 4, false, 0⟩,
  ⟨0x20, 1, 4, 0x3FF, 0, 0, 0, 0, 0, 0x104, false, 0⟩,
  ⟨0x24, 1, 4, 0xF, 0, 0, 0, 0, 0, 0xF, false, 0⟩,
  ⟨0x28, 1, 4, 0, 0, 0, 0, 0, 0, 0xF, false, 0⟩,
  ⟨0x2C, 1, 4, 0, 0x1F, 0, 0, 0, 0, 0, false, 0⟩,
  ⟨0x30, 1, 4, 0x1F, 0, 0, 0, 0, 0, 0, false, 0⟩,
  ⟨0x34, 1, 4, 0, 0, 0, 0, 0, 0, 0, true, 0⟩,
  ⟨0x38, 1, 4, 0, 0, 0, 0, 0, 0, 0, true, 0⟩]

/-- PWR: PWR_STATE and the rows that follow it. -/
def regsPWR : List RegDesc := [
  ⟨0, 1, 4, 0, 0, 0, 0, 0, 0, 0, false, 0⟩,
  ⟨4, 1, 4, 0xFFFFFFFF, 0, 0, 0, 0, 0, 0, false, 0⟩,
  ⟨8, 1, 4, 0x1FFFF, 0, 0, 0, 0, 0, 0x10064, false, 0⟩,
  ⟨0xC, 1, 4, 0x3E, 0, 0, 0, 0, 0, 7, false, 0⟩,
  ⟨0x10, 1, 4, 0, 0x3F, 0, 0, 0, 0, 0, false, 0⟩,
  ⟨0x14, 1, 4, 0xFFFFFF, 0, 0, 0, 0, 0, 0, false, 0⟩,
  ⟨0x18, 1, 4, 0, 0, 0, 0, 0, 0, 0, false, 0⟩,
  ⟨0x1C, 1, 4, 0, 0, 0, 0, 0, 0, 0, true, 0⟩,
  ⟨0x20, 1, 4, 0, 0, 0, 0, 0, 0, 0, true, 0⟩,
  ⟨0x24, 1, 4, 0, 0, 0, 0, 0, 0, 0, false, 0⟩,
  ⟨0x28, 1, 4, 0, 0, 0, 0x80, 0, 0, 0, false, 0⟩,
  ⟨0x2C, 1, 4, 0, 0, 0, 0, 0, 0, 0, true, 0⟩,
  ⟨0x30, 1, 4, 0, 0x3F, 0, 0, 0, 0, 0, false, 0⟩,
  ⟨0x34, 1, 4, 0x3F, 0, 0, 0, 0, 0, 0, false, 0⟩]

/-- HSK: HSK_CTRL and the rows that follow it. -/
def regsHSK : List RegDesc := [
  ⟨0, 1, 4, 0xFF, 0, 0, 0, 0, 0xFF, 0, false, 0⟩,
  ⟨4, 1, 4, 7, 0, 0, 0, 0, 7, 0, false, 0⟩,
  ⟨8, 1, 4, 0, 0, 0, 0, 0, 0, 0, false, 0⟩,
  ⟨0xC, 1, 4, 0, 7, 0, 0, 0, 0, 0, false, 0⟩,
  ⟨0x10, 1, 4, 7, 0, 0, 0, 0, 0, 0, false, 0⟩,
  ⟨0x14, 1, 4, 0, 0, 0, 0, 0, 0, 0, true, 0⟩,
  ⟨0x18, 1, 4, 0, 0, 0, 0, 0, 0, 0, true, 0⟩,
  ⟨0x100, 64, 8, 0x1FFFFFFF, 0, 0, 0, 0, 0x1FFFFFFF, 0, false, 0⟩,
  ⟨0x104, 64, 8, 0x7FF, 0, 0, 0, 0, 0x7FF, 0x7D0, false, 0⟩,
  ⟨0x300, 16, 8, 0xFFFFFF, 0, 0, 0, 0, 0xFFFFFF, 0, false, 0⟩,
  ⟨0x304, 16, 8, 0xFFFFFF, 0, 0, 0, 0, 0xFFFFFF, 0x400000, false, 0⟩,
  ⟨0x400, 32, 4, 0, 0, 0, 0, 0, 0, 0, false, 0⟩]

/-- BIAS: BIAS_STAT and the rows that follow it. -/
def regsBIAS : List RegDesc := [
  ⟨0, 1, 4, 0, 0, 0, 0, 0, 0, 0x10000, false, 0⟩,
  ⟨8, 1, 4, 0, 0xFFFF, 0, 0, 0, 0, 0, false, 0⟩,
  ⟨0xC, 1, 4, 0xFFFF, 0, 0, 0, 0, 0, 0, false, 0⟩,
  ⟨0x10, 1, 4, 0x3FF, 0, 0, 0, 0, 0, 0, false, 0⟩,
  ⟨0x14, 1, 4, 0xFFFF, 0, 0, 0, 0, 0, 0, false, 0⟩,
  ⟨0x18, 1, 4, 0, 0, 0, 0, 0, 0, 0, true, 0⟩,
  ⟨0x100, 16, 0x20, 7, 0, 0, 0, 0, 7, 0, false, 0⟩,
  ⟨0x104, 16, 0x20, 0xFFF, 0, 0, 0, 0, 0xFFF, 0, false, 0⟩,
  ⟨0x108, 16, 0x20, 0xFFFFFF, 0, 0, 0, 0, 0xFFFFFF, 0, false, 0⟩,
  ⟨0x10C, 16, 0x20, 0xFFF0FFF, 0, 0, 0, 0, 0xFFF0FFF, 0, false, 0⟩,
  ⟨0x110, 16, 0x20, 0, 0, 0, 0, 0, 0, 0, false, 0⟩]

/-- THERM: THERM_CTRL and the rows that follow it. -/
def regsTHERM : List RegDesc := [
  ⟨0, 1, 4, 0x1FFFF, 0, 0, 0, 0, 0x1FFFF, 0x1236E, false, 0⟩,
  ⟨4, 1, 4, 0, 0, 0, 0, 0, 0, 0, false, 0x10000⟩,
  ⟨8, 1, 4, 0, 0, 0, 0, 0, 0, 0, false, 0⟩,
  ⟨0xC, 1, 4, 0, 0, 0, 0, 0, 0, 0, false, 0x1FFFFF⟩,
  ⟨0x10, 1, 4, 0, 7, 0, 0, 0, 0, 0, false, 0⟩,
  ⟨0x14, 1, 4, 7, 0, 0, 0, 0, 0, 0, false, 0⟩,
  ⟨0x18, 1, 4, 0, 0, 0, 0, 0, 0, 0, true, 0⟩,
  ⟨0x1C, 1, 4, 0, 0, 0, 0, 0, 0, 0, true, 0⟩,
  ⟨0x40, 12, 4, 0, 0, 0, 0, 0, 0, 0, false, 0⟩]

/-- SAFE: SAFE_CTRL and the rows that follow it. -/
def regsSAFE : List RegDesc := [
  ⟨0, 1, 4, 0, 0, 0, 0, 1, 0, 1, false, 0⟩,
  ⟨4, 1, 4, 0, 0, 0, 0, 0xFF, 0, 0, false, 0⟩,
  ⟨8, 1, 4, 0, 0, 0, 0, 0x7FFFF, 0, 0, false, 0x20000⟩,
  ⟨0xC, 1, 4, 0, 0, 0, 0, 0, 0, 0xFF, false, 0⟩,
  ⟨0x10, 1, 4, 0, 3, 0, 0, 0, 0, 0, false, 0⟩,
  ⟨0x14, 1, 4, 3, 0, 0, 0, 0, 0, 0, false, 0⟩,
  ⟨0x18, 1, 4, 0, 0, 0, 0, 0, 0, 0, true, 0⟩,
  ⟨0x100, 16, 8, 0, 0, 0, 0, 0xFFFFF, 0, 0x1000, false, 0⟩,
  ⟨0x104, 16, 8, 0, 0, 0, 0, 0xFFFFFFF, 0, 0xF000000, false, 0⟩]

/-- SEC: SEC_LC and the rows that follow it. -/
def regsSEC : List RegDesc := [
  ⟨0, 1, 4, 0, 0, 0, 0, 0, 0, 0, false, 0⟩,
  ⟨4, 1, 4, 0, 0, 0, 0, 0, 0, 0, false, 0⟩,
  ⟨8, 1, 4, 0, 0, 0, 0, 0, 0, 0, false, 0⟩,
  ⟨0xC, 1, 4, 0, 0, 0, 0, 0, 0, 0, false, 0⟩,
  ⟨0x10, 1, 4, 0, 0, 0, 0, 0, 0, 0, false, 0⟩,
  ⟨0x14, 1, 4, 0, 0, 0, 0, 0, 0, 0, false, 0⟩,
  ⟨0x18, 1, 4, 0, 0, 0, 0, 0, 0, 0, false, 0⟩,
  ⟨0x1C, 1, 4, 0, 0, 0, 0, 0, 0, 0, true, 0⟩,
  ⟨0x20, 1, 4, 7, 0, 0, 8, 0, 0, 0, false, 0⟩,
  ⟨0x24, 1, 4, 0, 0, 0, 0, 0, 0, 0, false, 0⟩,
  ⟨0x28, 1, 4, 0, 0x3F, 0, 0, 0, 0, 0, false, 0⟩,
  ⟨0x2C, 1, 4, 0x3F, 0, 0, 0, 0, 0, 0, false, 0⟩,
  ⟨0x40, 4, 4, 0, 0, 0, 0, 0, 0, 0, false, 0⟩,
  ⟨0x60, 12, 4, 0, 0, 0, 0, 0, 0, 0, false, 0⟩,
  ⟨0x90, 12, 4, 0, 0, 0, 0, 0, 0, 0, false, 0⟩,
  ⟨0x100, 64, 4, 0xFFFFFFFF, 0, 0, 0, 0, 0, 0, false, 0⟩]

/-- EVR: EVR_CTRL and the rows that follow it. -/
def regsEVR : List RegDesc := [
  ⟨0, 1, 4, 1, 0, 0, 0, 0, 0, 0, false, 0⟩,
  ⟨4, 1, 4, 0, 0, 0, 0, 0, 0, 0, false, 0⟩,
  ⟨8, 1, 4, 0, 0, 0, 0, 0, 0, 0, false, 0⟩,
  ⟨0xC, 1, 4, 0xFFFFFFFF, 0, 0, 0, 0, 0, 0, false, 0⟩,
  ⟨0x10, 4, 4, 0, 0, 0, 0, 0, 0, 0, false, 0⟩,
  ⟨0x20, 1, 4, 0, 0, 0, 0, 0, 0, 0, false, 0⟩,
  ⟨0x24, 1, 4, 0, 0, 0, 0, 0, 0, 0, true, 0⟩,
  ⟨0x28, 1, 4, 0, 0, 0, 0, 0, 0, 0, true, 0⟩,
  ⟨0x2C, 1, 4, 0xFFFFFFFF, 0, 0, 0, 0, 0, 0, false, 0⟩,
  ⟨0x30, 1, 4, 0, 0, 0, 0, 0, 0, 0, false, 0⟩,
  ⟨0x34, 1, 4, 0, 0, 0, 0, 0, 0, 0, false, 0⟩,
  ⟨0x38, 1, 4, 0, 0x1F, 0, 0, 0, 0, 0, false, 0⟩,
  ⟨0x3C, 1, 4, 0x1F, 0, 0, 0, 0, 0, 0, false, 0⟩,
  ⟨0x40, 1, 4, 0, 0, 0, 0, 0, 0, 0, false, 0⟩,
  ⟨0x44, 1, 4, 0x3FFF, 0, 0, 0, 0, 0, 0, false, 0⟩,
  ⟨0x1000, 1024, 4, 0, 0, 0, 0, 0, 0, 0, false, 0⟩]

/-- BIST: BIST_STAT and the rows that follow it. -/
def regsBIST : List RegDesc := [
  ⟨0, 1, 4, 0, 0, 0, 0, 0, 0, 0, false, 0⟩,
  ⟨4, 1, 4, 0, 0, 0, 0, 0, 0, 0, false, 0⟩,
  ⟨8, 1, 4, 0, 0, 0, 0, 0, 0, 0, false, 0⟩,
  ⟨0xC, 1, 4, 0, 0, 0, 0, 0, 0, 0, false, 0⟩,
  ⟨0x10, 1, 4, 0, 0, 0, 0, 0, 0, 0, false, 0⟩,
  ⟨0x14, 1, 4, 0, 0, 0, 0, 0, 0, 0, false, 0⟩,
  ⟨0x18, 1, 4, 0, 7, 0, 0, 0, 0, 0, false, 0⟩,
  ⟨0x1C, 1, 4, 7, 0, 0, 0, 0, 0, 0, false, 0⟩,
  ⟨0x40, 28, 4, 0, 0, 0, 0, 0, 0, 0, false, 0⟩]

/-- MEM: MEM_CTRL and the rows that follow it. -/
def regsMEM0 : List RegDesc := [
  ⟨0, 1, 4, 3, 0, 0, 0, 0, 0, 3, false, 0⟩,
  ⟨4, 1, 4, 0, 0, 0, 0, 0, 0, 0, false, 0⟩,
  ⟨8, 1, 4, 0, 0, 0, 0, 0, 0, 0, false, 0⟩,
  ⟨0xC, 1, 4, 0, 0, 0, 0, 0, 0, 0, false, 0⟩,
  ⟨0x10, 1, 4, 0, 0, 0, 0, 0, 0, 0, false, 0⟩,
  ⟨0x14, 1, 4, 0xFFFFFFFF, 0, 0, 0, 0, 0, 0, false, 0⟩,
  ⟨0x18, 1, 4, 0x1FF, 0, 0, 0x200, 0, 0, 0, false, 0⟩,
  ⟨0x1C, 1, 4, 0xFFFFF000, 0, 0, 0, 0, 0, 0, false, 0⟩,
  ⟨0x20, 1, 4, 0x1FFFFF, 0, 0, 0, 0, 0, 0, false, 0⟩,
  ⟨0x24, 1, 4, 0, 0, 0, 1, 0, 0, 0, false, 0⟩,
  ⟨0x28, 1, 4, 0, 0, 0, 0, 0, 0, 0, false, 0⟩,
  ⟨0x2C, 1, 4, 0, 0, 0, 0, 0, 0, 0, false, 0⟩,
  ⟨0x30, 1, 4, 0, 0, 0, 0, 0, 0, 0, true, 0⟩,
  ⟨0x34, 1, 4, 0, 0, 0, 0, 0, 0, 0, true, 0⟩,
  ⟨0x38, 1, 4, 0, 0, 0, 0, 0, 0, 0, true, 0⟩,
  ⟨0x3C, 1, 4, 0, 0, 0, 0, 0, 0, 0, true, 0⟩]

/-- MEM: MEM_BANK_FAIL_CNT and the rows that follow it. -/
def regsMEM1 : List RegDesc := [
  ⟨0x40, 1, 4, 0, 0, 0, 0, 0, 0, 0, true, 0⟩,
  ⟨0x48, 1, 4, 0, 0xF, 0, 0, 0, 0, 0, false, 0⟩,
  ⟨0x4C, 1, 4, 0xF, 0, 0, 0, 0, 0, 0, false, 0⟩]

def regsMEM : List RegDesc := regsMEM0 ++ regsMEM1

/-- TIME: TIME_CTRL and the rows that follow it. -/
def regsTIME0 : List RegDesc := [
  ⟨0, 1, 4, 0x1F, 0, 0, 0, 0, 0x1F, 7, false, 0⟩,
  ⟨4, 1, 4, 0, 0, 0, 0, 0, 0, 0, false, 0⟩,
  ⟨8, 1, 4, 0, 0, 0, 0, 0, 0, 0, false, 0⟩,
  ⟨0xC, 1, 4, 0xFFFFFFFF, 0, 0, 0, 0, 0, 0, false, 0⟩,
  ⟨0x10, 1, 4, 2, 0, 0, 1, 0, 0, 0, false, 0⟩,
  ⟨0x14, 1, 4, 0xFFFFFFFF, 0, 0, 0, 0, 0, 0, false, 0⟩,
  ⟨0x18, 1, 4, 0x1FFFFF, 0, 0, 0, 0, 0x1FFFFF, 0xC1080, false, 0⟩,
  ⟨0x1C, 1, 4, 0, 0, 0, 0xFFFFFFFF, 0, 0, 0, false, 0⟩,
  ⟨0x20, 1, 4, 0, 0, 0, 0, 0, 0, 0, false, 0⟩,
  ⟨0x24, 1, 4, 0, 0, 0, 0, 0, 0, 0, false, 0⟩,
  ⟨0x28, 1, 4, 0xFFFFFFFF, 0, 0, 0, 0, 0, 0, false, 0⟩,
  ⟨0x2C, 1, 4, 0, 0, 0, 0, 0, 0, 0, false, 0⟩,
  ⟨0x30, 1, 4, 0, 0, 0, 0, 0, 0, 0, false, 0⟩,
  ⟨0x34, 1, 4, 0, 0, 0, 0, 0, 0, 0, false, 0⟩,
  ⟨0x38, 1, 4, 0, 0xF, 0, 0, 0, 0, 0, false, 0⟩,
  ⟨0x3C, 1, 4, 0xF, 0, 0, 0, 0, 0, 0, false, 0⟩]

/-- TIME: TIME_OFS_HOST_RX and the rows that follow it. -/
def regsTIME1 : List RegDesc := [
  ⟨0x40, 1, 4, 0xFFFFFFFF, 0, 0, 0, 0, 0xFFFFFFFF, 0, false, 0⟩,
  ⟨0x44, 1, 4, 0xFFFFFFFF, 0, 0, 0, 0, 0xFFFFFFFF, 0, false, 0⟩,
  ⟨0x48, 1, 4, 0xFFFFFFFF, 0, 0, 0, 0, 0xFFFFFFFF, 0, false, 0⟩,
  ⟨0x4C, 1, 4, 0xFFFFFFFF, 0, 0, 0, 0, 0xFFFFFFFF, 0, false, 0⟩,
  ⟨0x50, 1, 4, 0, 0, 0, 0, 0, 0, 0, false, 0⟩,
  ⟨0x60, 1, 4, 0, 0, 0, 0, 0, 0, 0, true, 0⟩,
  ⟨0x64, 1, 4, 0, 0, 0, 0, 0, 0, 0, true, 0⟩,
  ⟨0x68, 1, 4, 0, 0, 0, 0, 0, 0, 0, true, 0⟩,
  ⟨0x6C, 1, 4, 0, 0, 0, 0, 0, 0, 0, true, 0⟩,
  ⟨0x70, 1, 4, 0, 0, 0, 0, 0, 0, 0, true, 0⟩,
  ⟨0x74, 1, 4, 0, 0, 0, 0, 0, 0, 0, true, 0⟩]

def regsTIME : List RegDesc := regsTIME0 ++ regsTIME1

/-- PEN: PEN_CTRL and the rows that follow it. -/
def regsPEN0 : List RegDesc := [
  ⟨0, 1, 4, 0xFFFF0FFF, 0, 0, 0, 0, 0xFFFF0FFF, 0xFFFF040A, false, 0⟩,
  ⟨4, 1, 4, 0xF1FF7F, 0, 0, 0, 0, 0xF1FF7F, 0x21463A, false, 0⟩,
  ⟨8, 1, 4, 0xFFFFFFF, 0, 0, 0, 0, 0xFFFFFFF, 0x64, false, 0⟩,
  ⟨0xC, 1, 4, 0xFFF, 0, 0, 0, 0, 0xFFF, 0x305, false, 0⟩,
  ⟨0x10, 1, 4, 0, 0, 0, 0, 0, 0, 0, false, 0⟩,
  ⟨0x14, 1, 4, 0, 0, 0, 0, 0, 0, 0, false, 0⟩,
  ⟨0x18, 1, 4, 0xFF, 0, 0, 0x300, 0, 0, 0, false, 0⟩,
  ⟨0x1C, 1, 4, 0, 0, 0, 0, 0, 0, 0, false, 0⟩,
  ⟨0x20, 1, 4, 0, 0, 0, 0, 0, 0, 0, false, 0⟩,
  ⟨0x24, 1, 4, 0, 0, 0, 1, 0, 0, 0, false, 0⟩,
  ⟨0x28, 1, 4, 0, 0, 0, 0, 0, 0, 0, false, 0⟩,
  ⟨0x100, 64, 4, 0xFFFFFFFF, 0, 0, 0, 0, 0, 0, false, 0⟩,
  ⟨0x200, 64, 4, 0, 0, 0, 0, 0, 0, 0, false, 0⟩,
  ⟨0x300, 12, 4, 0, 0, 0, 0, 0, 0, 0, false, 0⟩,
  ⟨0x40, 1, 4, 0, 0, 0, 0, 0, 0, 0, true, 0⟩,
  ⟨0x44, 1, 4, 0, 0, 0, 0, 0, 0, 0, true, 0⟩]

/-- PEN: PEN_RX_FALSE_CNT and the rows that follow it. -/
def regsPEN1 : List RegDesc := [
  ⟨0x48, 1, 4, 0, 0, 0, 0, 0, 0, 0, true, 0⟩,
  ⟨0x4C, 1, 4, 0, 0, 0, 0, 0, 0, 0, true, 0⟩,
  ⟨0x50, 1, 4, 0, 0, 0, 0, 0, 0, 0, true, 0⟩,
  ⟨0x54, 1, 4, 0, 0, 0, 0, 0, 0, 0, true, 0⟩,
  ⟨0x58, 1, 4, 0, 0, 0, 0, 0, 0, 0, true, 0⟩,
  ⟨0x5C, 1, 4, 0, 0, 0, 0, 0, 0, 0, true, 0⟩]

def regsPEN : List RegDesc := regsPEN0 ++ regsPEN1

/-- IGS: IGS_FREEZE and the rows that follow it. -/
def regsIGS : List RegDesc := [
  ⟨0, 1, 4, 3, 0, 0, 0, 0, 0, 0, false, 0⟩,
  ⟨4, 1, 4, 0, 0, 0, 0, 0, 0, 0, false, 0⟩,
  ⟨8, 1, 4, 0, 0x1FF, 0, 0, 0, 0, 0, false, 0⟩,
  ⟨0xC, 1, 4, 0x1FF, 0, 0, 0, 0, 0, 0, false, 0⟩]

/-- IGSE: IGS_En_CTRL and the rows that follow it. -/
def regsIGSE0 : List RegDesc := [
  ⟨0, 1, 4, 0, 0, 0, 0xF, 0, 0, 0, false, 0⟩,
  ⟨4, 1, 4, 0, 0, 0, 0, 0, 0, 0, false, 0⟩,
  ⟨8, 1, 4, 0xFF, 0, 0, 0, 0, 0, 0, false, 0⟩,
  ⟨0xC, 1, 4, 0, 0, 0, 1, 0, 0, 0, false, 0⟩,
  ⟨0x10, 1, 4, 0x3F, 0, 0, 0, 0, 0, 0, false, 0⟩,
  ⟨0x14, 1, 4, 0, 0, 0, 0xFFFFFFFF, 0, 0, 0, false, 0⟩,
  ⟨0x18, 1, 4, 0x8003FFFF, 0, 0, 0, 0, 0, 0, false, 0⟩,
  ⟨0x1C, 1, 4, 0xFFFFFFFF, 0, 0, 0, 0, 0, 0, false, 0⟩,
  ⟨0x20, 1, 4, 0, 0, 0, 0, 0, 0, 0, true, 0⟩,
  ⟨0x24, 1, 4, 0, 0, 0, 0, 0, 0, 0, true, 0⟩,
  ⟨0x28, 1, 4, 0, 0, 0x1FFFFF, 0, 0, 0, 0, false, 0⟩,
  ⟨0x30, 1, 4, 0xFFFFFFFF, 0, 0, 0, 0, 0, 0, true, 0⟩,
  ⟨0x34, 1, 4, 0xFFFFFFFF, 0, 0, 0, 0, 0, 0, true, 0⟩,
  ⟨0x38, 1, 4, 0xFFFFFFFF, 0, 0, 0, 0, 0, 0, true, 0⟩,
  ⟨0x3C, 1, 4, 0xFFFFFFFF, 0, 0, 0, 0, 0, 0, true, 0⟩,
  ⟨0x40, 1, 4, 0xFFFFFFFF, 0, 0, 0, 0, 0, 0, true, 0⟩]

/-- IGSE: IGS_En_EVCNTk and the rows that follow it. -/
def regsIGSE1 : List RegDesc := [
  ⟨0x44, 1, 4, 0xFFFFFFFF, 0, 0, 0, 0, 0, 0, true, 0⟩,
  ⟨0x48, 1, 4, 0x1F, 0, 0, 0, 0, 0, 0, false, 0⟩,
  ⟨0x4C, 1, 4, 0x1F, 0, 0, 0, 0, 0, 0, false, 0⟩,
  ⟨0x50, 1, 4, 0x1F, 0, 0, 0, 0, 0, 0, false, 0⟩,
  ⟨0x54, 1, 4, 0x1F, 0, 0, 0, 0, 0, 0, false, 0⟩,
  ⟨0x58, 1, 4, 0x1F, 0, 0, 0, 0, 0, 0, false, 0⟩,
  ⟨0x5C, 1, 4, 0x1F, 0, 0, 0, 0, 0, 0, false, 0⟩,
  ⟨0x60, 1, 4, 0xFFFFFFF3, 0, 0, 0, 0, 0xFFFFFFF3, 0, false, 0⟩,
  ⟨0x64, 1, 4, 0xFFFFFFF3, 0, 0, 0, 0, 0xFFFFFFF3, 0, false, 0⟩,
  ⟨0x68, 1, 4, 0xFFFFFFF3, 0, 0, 0, 0, 0xFFFFFFF3, 0, false, 0⟩,
  ⟨0x6C, 1, 4, 0xFFFFFFF3, 0, 0, 0, 0, 0xFFFFFFF3, 0, false, 0⟩,
  ⟨0x70, 1, 4, 0xFFFFFFFF, 0, 0, 0, 0, 0, 0, false, 0⟩,
  ⟨0x74, 1, 4, 0xFFFFFFFF, 0, 0, 0, 0, 0, 0, false, 0⟩,
  ⟨0x78, 1, 4, 0xFFFFFFFF, 0, 0, 0, 0, 0, 0, false, 0⟩,
  ⟨0x7C, 1, 4, 0xFFFFFFFF, 0, 0, 0, 0, 0, 0, false, 0⟩]

def regsIGSE : List RegDesc := regsIGSE0 ++ regsIGSE1

/-- PMON: PMON_ADDR and the rows that follow it. -/
def regsPMON : List RegDesc := [
  ⟨0, 1, 4, 0xFFFFFFFF, 0, 0, 0, 0, 0, 0, false, 0⟩,
  ⟨4, 1, 4, 0, 0, 0, 0, 0, 0, 0, false, 0⟩,
  ⟨8, 1, 4, 0, 0, 0, 0, 0, 0, 0, false, 0⟩]

/-- HL: HLn_CTRL and the rows that follow it. -/
def regsHL0 : List RegDesc := [
  ⟨0, 1, 4, 0xFF, 0, 0, 0, 0, 0xFF, 1, false, 0⟩,
  ⟨4, 1, 4, 0, 0, 0, 0, 0, 0, 0, false, 0⟩,
  ⟨8, 1, 4, 0x7FFF, 0, 0, 0, 0, 0x7FFF, 0x4020, false, 0⟩,
  ⟨0xC, 1, 4, 0x6FF, 0, 0, 0x100, 0, 0x6FF, 0x440, false, 0⟩,
  ⟨0x10, 1, 4, 0, 0, 0, 0, 0, 0, 0, false, 0⟩,
  ⟨0x14, 1, 4, 0x7F, 0, 0, 0x380, 0, 0x7F, 0x40, false, 0⟩,
  ⟨0x18, 1, 4, 0, 0, 0, 0, 0, 0, 0, false, 0⟩,
  ⟨0x1C, 1, 4, 0, 0, 0xFFFFFFFF, 0, 0, 0, 0, false, 0⟩,
  ⟨0x20, 1, 4, 0, 0, 0, 0, 0, 0, 0, true, 0⟩,
  ⟨0x24, 1, 4, 0, 0, 0, 0, 0, 0, 0, true, 0⟩,
  ⟨0x100, 1, 4, 1, 0, 0, 0, 0, 1, 0, false, 0⟩,
  ⟨0x104, 1, 4, 0, 0, 0, 0, 0, 0, 0, false, 0⟩,
  ⟨0x108, 1, 4, 0, 0, 0, 0, 0, 0, 0, true, 0⟩,
  ⟨0x10C, 1, 4, 0, 0, 0, 0, 0, 0, 0, true, 0⟩,
  ⟨0x110, 1, 4, 0, 0, 0, 0, 0, 0, 0, true, 0⟩,
  ⟨0x114, 1, 4, 0, 0, 0, 0, 0, 0, 0, true, 0⟩]

/-- HL: HLn_FEC_UNCORR and the rows that follow it. -/
def regsHL1 : List RegDesc := [
  ⟨0x118, 1, 4, 0, 0, 0, 0, 0, 0, 0, true, 0⟩,
  ⟨0x11C, 1, 4, 0, 0, 0, 0, 0, 0, 0, true, 0⟩,
  ⟨0x120, 1, 4, 0, 0, 0, 0, 0, 0, 0, true, 0⟩,
  ⟨0x124, 1, 4, 0, 0, 0, 0, 0, 0, 0, true, 0⟩,
  ⟨0x128, 1, 4, 0, 0, 0x3FF800, 0, 0, 0, 0, false, 0⟩,
  ⟨0x12C, 1, 4, 0, 0, 0, 0, 0, 0, 0, true, 0⟩,
  ⟨0x130, 1, 4, 0, 0, 0, 0, 0, 0, 0, true, 0⟩,
  ⟨0xF00, 1, 4, 0x1F, 0, 0, 0, 0, 0x1F, 0, false, 0⟩,
  ⟨0xF04, 1, 4, 0xFF, 0, 0, 0, 0, 0xFF, 0, false, 0⟩,
  ⟨0xF08, 1, 4, 0, 0, 0, 0, 0, 0, 0, false, 0⟩]

def regsHL : List RegDesc := regsHL0 ++ regsHL1

/-- OL: OLn_TX_CTRL and the rows that follow it. -/
def regsOL0 : List RegDesc := [
  ⟨0, 1, 4, 0xFF, 0, 0, 0, 0, 0xFF, 6, false, 0⟩,
  ⟨4, 1, 4, 0x3F, 0, 0, 0, 0, 0x3F, 0x20, false, 0⟩,
  ⟨8, 1, 4, 0, 0, 0, 0, 0, 0, 0, false, 0⟩,
  ⟨0x10, 7, 4, 0x3FF, 0, 0, 0, 0, 0x3FF, 0, false, 0⟩,
  ⟨0x2C, 1, 4, 0x3FF, 0, 0, 0, 0, 0x3FF, 0x280, false, 0⟩,
  ⟨0x30, 7, 4, 0x3FF, 0, 0, 0, 0, 0x3FF, 0, false, 0⟩,
  ⟨0x50, 1, 4, 0x3F, 0, 0, 0, 0, 0, 0, false, 0⟩,
  ⟨0x54, 1, 4, 0x7F, 0, 0, 0, 0, 0, 0, false, 0⟩,
  ⟨0x58, 1, 4, 0, 0, 0, 0, 0, 0, 0, true, 0⟩,
  ⟨0x5C, 1, 4, 0, 0, 0, 0, 0, 0, 0, true, 0⟩,
  ⟨0x60, 1, 4, 0xFFFFF1, 0, 0, 2, 0, 0xFFFFF1, 0x1E361, false, 0⟩,
  ⟨0x64, 1, 4, 0, 0, 0, 0, 0, 0, 0, false, 0⟩,
  ⟨0x68, 1, 4, 0, 0, 0, 0, 0, 0, 0, false, 0⟩,
  ⟨0x6C, 1, 4, 0, 0, 0, 0, 0, 0, 0, true, 0⟩,
  ⟨0x100, 1, 4, 7, 0, 0, 0, 0, 7, 1, false, 0⟩,
  ⟨0x104, 1, 4, 0, 0, 0, 0, 0, 0, 0, false, 0⟩]

/-- OL: OLn_RX_SAT_CNT and the rows that follow it. -/
def regsOL1 : List RegDesc := [
  ⟨0x108, 1, 4, 0, 0, 0, 0, 0, 0, 0, true, 0⟩,
  ⟨0x110, 1, 4, 0xFFFFFFF1, 0, 0, 2, 0, 0xFFFFFFF1, 0xFFFFF61, false, 0⟩,
  ⟨0x114, 1, 4, 0, 0, 0, 0, 0, 0, 0x10000, false, 0⟩,
  ⟨0x118, 1, 4, 0, 0, 0, 0, 0, 0, 0, false, 0⟩,
  ⟨0x11C, 1, 4, 0, 0, 0, 0, 0, 0, 0, true, 0⟩,
  ⟨0x120, 1, 4, 0x3F7F, 0, 0, 0, 0, 0, 0, false, 0⟩,
  ⟨0x124, 1, 4, 0, 0, 0, 0, 0, 0, 0, false, 0⟩,
  ⟨0x128, 1, 4, 0, 0, 0, 0, 0, 0, 0, false, 0⟩,
  ⟨0x200, 1, 4, 0x7FF, 0, 0, 0, 0, 0x7FF, 0x127, false, 0⟩,
  ⟨0x204, 1, 4, 0, 0, 0, 0, 0, 0, 2, false, 0⟩,
  ⟨0x208, 1, 4, 0, 0, 0, 0, 0, 0, 0, false, 0⟩,
  ⟨0x20C, 1, 4, 0, 0, 0, 0, 0, 0, 0, true, 0⟩,
  ⟨0x300, 1, 4, 0xFF3F, 0, 0, 0, 0, 0xFF3F, 0xCA25, false, 0⟩,
  ⟨0x304, 1, 4, 0, 0, 0, 0, 0, 0, 0, false, 0⟩,
  ⟨0x308, 1, 4, 0, 0, 0, 0, 0, 0, 0, false, 0⟩,
  ⟨0x30C, 1, 4, 0xFFF, 0, 0, 0, 0, 0xFFF, 0x210, false, 0⟩]

/-- OL: OLn_FDE_SKIP_CNT and the rows that follow it. -/
def regsOL2 : List RegDesc := [
  ⟨0x310, 1, 4, 0, 0, 0, 0, 0, 0, 0, true, 0⟩,
  ⟨0x314, 1, 4, 0, 0xF, 0, 0, 0, 0, 0, false, 0⟩,
  ⟨0x318, 1, 4, 0, 0, 0, 0, 0, 0, 0, false, 0⟩,
  ⟨0x31C, 1, 4, 0, 0, 0, 0, 0, 0, 0, true, 0⟩,
  ⟨0x320, 1, 4, 0x3FF, 0, 0, 0, 0, 0, 0, false, 0⟩,
  ⟨0x324, 1, 4, 0xFFFFFFFF, 0, 0, 0, 0, 0, 0, false, 0⟩,
  ⟨0x400, 1, 4, 0xFFFF, 0, 0, 0, 0, 0xFFFF, 0x1080, false, 0⟩,
  ⟨0x404, 1, 4, 0, 0, 0, 0, 0, 0, 0, false, 0⟩,
  ⟨0x408, 1, 4, 0xFFFFFFFF, 0, 0, 0, 0, 0xFFFFFFFF, 0, false, 0⟩,
  ⟨0x40C, 1, 4, 0xF, 0, 0, 0, 0, 0, 0, false, 0⟩,
  ⟨0x410, 1, 4, 0, 0, 0, 0, 0, 0, 0, false, 0⟩,
  ⟨0x414, 1, 4, 0, 0, 0, 0, 0, 0, 0, true, 0⟩,
  ⟨0x418, 1, 4, 0, 0, 0, 0, 0, 0, 0, true, 0⟩,
  ⟨0x41C, 1, 4, 0, 0, 0, 0, 0, 0, 0, true, 0⟩]

def regsOL : List RegDesc := regsOL0 ++ regsOL1 ++ regsOL2

/-- FEC: FEC_CTRL and the rows that follow it. -/
def regsFEC0 : List RegDesc := [
  ⟨0, 1, 4, 0x1F0FFF, 0, 0, 0, 0, 0x1F0FFF, 0xC0C50, false, 0⟩,
  ⟨4, 1, 4, 0x1FF, 0, 0, 0, 0, 0x1FF, 0x104, false, 0⟩,
  ⟨8, 1, 4, 0xFFFF, 0, 0, 0, 0, 0xFFFF, 0xD00, false, 0⟩,
  ⟨0xC, 1, 4, 0xFFFFFFFF, 0, 0, 0, 0, 0xFFFFFFFF, 0x80002000, false, 0⟩,
  ⟨0x10, 1, 4, 0xFFFF, 0, 0, 0, 0, 0xFFFF, 0xFFFF, false, 0⟩,
  ⟨0x14, 1, 4, 0, 0, 0, 0, 0, 0, 0, false, 0⟩,
  ⟨0x18, 1, 4, 0, 0, 0, 0, 0, 0, 0, false, 0⟩,
  ⟨0x1C, 1, 4, 0, 0, 0, 0, 0, 0, 0, false, 0⟩,
  ⟨0x20, 1, 4, 0x1F, 0, 0, 0, 0, 0x1F, 1, false, 0⟩,
  ⟨0x24, 1, 4, 1, 0, 0, 0, 0, 1, 1, false, 0⟩,
  ⟨0x28, 1, 4, 0, 0, 0, 0, 0, 0, 0, false, 0⟩,
  ⟨0x2C, 1, 4, 0, 0, 0, 0, 0, 0, 0, true, 0⟩,
  ⟨0x30, 1, 4, 0, 0, 0, 0, 0, 0, 0, true, 0⟩,
  ⟨0x34, 1, 4, 0, 0, 0x1FF, 0, 0, 0, 0, false, 0⟩,
  ⟨0x1000, 8, 0x100, 0, 0, 0, 0, 0, 0, 0, false, 0⟩,
  ⟨0x1008, 8, 0x100, 0, 0, 0, 0, 0, 0, 0, true, 0⟩]

/-- FEC: FEC_LANEn_CW_HI and the rows that follow it. -/
def regsFEC1 : List RegDesc := [
  ⟨0x100C, 8, 0x100, 0, 0, 0, 0, 0, 0, 0, true, 0⟩,
  ⟨0x1010, 8, 0x100, 0, 0, 0, 0, 0, 0, 0, true, 0⟩,
  ⟨0x1014, 8, 0x100, 0, 0, 0, 0, 0, 0, 0, true, 0⟩,
  ⟨0x1018, 8, 0x100, 0, 0, 0, 0, 0, 0, 0, true, 0⟩,
  ⟨0x101C, 8, 0x100, 0, 0, 0, 0, 0, 0, 0, true, 0⟩,
  ⟨0x1020, 8, 0x100, 0, 0, 0, 0, 0, 0, 0, true, 0⟩,
  ⟨0x1024, 8, 0x100, 0, 0, 0, 0, 0, 0, 0, true, 0⟩,
  ⟨0x1028, 8, 0x100, 0, 0, 0, 0, 0, 0, 0, true, 0⟩,
  ⟨0x102C, 8, 0x100, 0, 0, 0, 0, 0, 0, 0, true, 0⟩,
  ⟨0x1030, 8, 0x100, 0, 0, 0, 0, 0, 0, 0, true, 0⟩,
  ⟨0x1034, 8, 0x100, 0, 0, 0, 0, 0, 0, 0, true, 0⟩,
  ⟨0x1038, 8, 0x100, 0, 0, 0, 0, 0, 0, 0, true, 0⟩,
  ⟨0x103C, 8, 0x100, 0, 0, 0, 0, 0, 0, 0, true, 0⟩,
  ⟨0x1040, 8, 0x100, 0x1F, 0, 0, 0, 0, 0, 0, false, 0⟩,
  ⟨0x1044, 8, 0x100, 0, 0, 0, 0, 0, 0, 0, true, 0⟩]

def regsFEC : List RegDesc := regsFEC0 ++ regsFEC1

/-- LEDGER: LEDGER_LINK_CTRL and the rows that follow it. -/
def regsLEDGER0 : List RegDesc := [
  ⟨0, 1, 4, 0x3FFF7, 0, 0, 0, 0, 0x3FFF7, 0x19084, false, 0⟩,
  ⟨4, 1, 4, 0xFFFFFFFF, 0, 0, 0, 0, 0xFFFFFFFF, 0xA020214, false, 0⟩,
  ⟨8, 1, 4, 0xFFFFFFFF, 0, 0, 0, 0, 0xFFFFFFFF, 0xA148214, false, 0⟩,
  ⟨0xC, 1, 4, 0xFFFFFFFF, 0, 0, 0, 0, 0xFFFFFFFF, 0x643202, false, 0⟩,
  ⟨0x10, 1, 4, 0, 0, 0, 0, 0, 0, 0, false, 0⟩,
  ⟨0x14, 1, 4, 0, 0, 0, 0, 0, 0, 0, false, 0⟩,
  ⟨0x18, 1, 4, 0, 0, 0, 0, 0, 0, 0, false, 0⟩,
  ⟨0x1C, 1, 4, 0, 0, 0, 0, 0, 0, 0, false, 0⟩,
  ⟨0x20, 1, 4, 0, 0, 0, 0, 0, 0, 0, true, 0⟩,
  ⟨0x24, 1, 4, 0, 0, 0, 0, 0, 0, 0, true, 0⟩,
  ⟨0x28, 1, 4, 0, 0, 0, 0, 0, 0, 0, true, 0⟩,
  ⟨0x2C, 1, 4, 0, 0, 0, 0, 0, 0, 0, true, 0⟩,
  ⟨0x30, 1, 4, 0, 0, 0, 0, 0, 0, 0, false, 0⟩,
  ⟨0x40, 8, 4, 0, 0, 0, 0, 0, 0, 0, false, 0⟩,
  ⟨0x60, 8, 4, 0, 0, 0, 0, 0, 0, 0, true, 0⟩,
  ⟨0x80, 8, 4, 0, 0, 0, 0, 0, 0, 0, true, 0⟩]

/-- LEDGER: LEDGER_LINK_MISS_CNTn and the rows that follow it. -/
def regsLEDGER1 : List RegDesc := [
  ⟨0xA0, 8, 4, 0, 0, 0, 0, 0, 0, 0, true, 0⟩,
  ⟨0x100, 1, 4, 0xFF3F, 0, 0, 0, 0, 0xFF3F, 0x10D, false, 0⟩,
  ⟨0x104, 1, 4, 0x707, 0, 0, 0, 0, 0x707, 0x201, false, 0⟩,
  ⟨0x108, 1, 4, 0, 0, 0, 0, 0, 0, 0, false, 0⟩,
  ⟨0x10C, 1, 4, 0, 0, 0, 0, 0, 0, 0, false, 0⟩,
  ⟨0x110, 1, 4, 0, 0, 0, 0, 0, 0, 0, false, 0⟩,
  ⟨0x114, 1, 4, 0, 0, 0, 0, 0, 0, 0, false, 0⟩,
  ⟨0x118, 1, 4, 0, 0, 0, 0, 0, 0, 0, false, 0⟩,
  ⟨0x120, 1, 4, 0, 0, 0, 0, 0, 0, 0, false, 0⟩,
  ⟨0x124, 1, 4, 0, 0, 0, 0, 0, 0, 0, false, 0⟩,
  ⟨0x128, 1, 4, 0, 0, 0, 0, 0, 0, 0, false, 0⟩,
  ⟨0x12C, 1, 4, 0, 0, 0, 0, 0, 0, 0, false, 0⟩,
  ⟨0x130, 1, 4, 0, 0, 0, 0, 0, 0, 0, false, 0⟩,
  ⟨0x134, 1, 4, 0, 0, 0, 0, 0, 0, 0, false, 0⟩,
  ⟨0x138, 1, 4, 0, 0, 0, 0, 0, 0, 0, false, 0⟩,
  ⟨0x140, 1, 4, 0, 0, 0, 0, 0, 0, 0, true, 0⟩]

/-- LEDGER: LEDGER_TX_IGN_CNT and the rows that follow it. -/
def regsLEDGER2 : List RegDesc := [
  ⟨0x144, 1, 4, 0, 0, 0, 0, 0, 0, 0, true, 0⟩,
  ⟨0x148, 1, 4, 0, 0, 0, 0, 0, 0, 0, true, 0⟩,
  ⟨0x14C, 1, 4, 0, 0, 0, 0, 0, 0, 0, true, 0⟩,
  ⟨0x150, 1, 4, 0, 0, 0, 0, 0, 0, 0, true, 0⟩,
  ⟨0x154, 1, 4, 0, 0, 0, 0, 0, 0, 0, true, 0⟩,
  ⟨0x158, 1, 4, 0, 0, 0, 0, 0, 0, 0, true, 0⟩,
  ⟨0x15C, 1, 4, 0, 0, 0, 0, 0, 0, 0, true, 0⟩,
  ⟨0x160, 1, 4, 0, 0, 0, 0, 0, 0, 0, true, 0⟩,
  ⟨0x164, 1, 4, 0, 0, 0, 0, 0, 0, 0, true, 0⟩,
  ⟨0x168, 1, 4, 0, 0, 0, 0, 0, 0, 0, true, 0⟩,
  ⟨0x16C, 1, 4, 0, 0, 0, 0, 0, 0, 0, true, 0⟩,
  ⟨0x170, 1, 4, 0, 0, 0, 0, 0, 0, 0, true, 0⟩,
  ⟨0x174, 1, 4, 0, 7, 0, 0, 0, 0, 0, false, 0⟩,
  ⟨0x178, 1, 4, 0, 0, 0, 0, 0, 0, 0, true, 0⟩,
  ⟨0x17C, 1, 4, 0, 0, 0, 0, 0, 0, 0, true, 0⟩,
  ⟨0x180, 1, 4, 0, 0, 0, 0, 0, 0, 0, true, 0⟩]

/-- LEDGER: LEDGER_RX_LF_CNT and the rows that follow it. -/
def regsLEDGER3 : List RegDesc := [
  ⟨0x184, 1, 4, 0, 0, 0, 0, 0, 0, 0, true, 0⟩,
  ⟨0x188, 1, 4, 0, 0, 0, 0, 0, 0, 0, true, 0⟩,
  ⟨0x18C, 1, 4, 0, 0, 0, 0, 0, 0, 0, true, 0⟩]

def regsLEDGER : List RegDesc := regsLEDGER0 ++ regsLEDGER1 ++ regsLEDGER2 ++ regsLEDGER3

/-- FRAMER: FRAMER_CTRL and the rows that follow it. -/
def regsFRAMER : List RegDesc := [
  ⟨0, 1, 4, 3, 0, 0, 0, 0, 3, 0, false, 0⟩,
  ⟨4, 1, 4, 0xFFFF, 0, 0, 0, 0, 0xFFFF, 0, false, 0⟩,
  ⟨8, 1, 4, 0, 0, 0, 0, 0, 0, 0, false, 0⟩,
  ⟨0xC, 1, 4, 0, 0, 0x3FF, 0, 0, 0, 0, false, 0⟩,
  ⟨0x10, 1, 4, 0, 0, 0xFFFF, 0, 0, 0, 0, false, 0⟩,
  ⟨0x20, 1, 4, 0, 0, 0, 0, 0, 0, 0, true, 0⟩,
  ⟨0x24, 1, 4, 0, 0, 0, 0, 0, 0, 0, true, 0⟩,
  ⟨0x28, 1, 4, 0, 0, 0, 0, 0, 0, 0, true, 0⟩,
  ⟨0x2C, 1, 4, 0, 0, 0, 0, 0, 0, 0, true, 0⟩,
  ⟨0x30, 1, 4, 0, 0, 0, 0, 0, 0, 0, true, 0⟩,
  ⟨0x34, 1, 4, 0, 0, 0, 0, 0, 0, 0, true, 0⟩,
  ⟨0x38, 1, 4, 0, 0, 0, 0, 0, 0, 0, true, 0⟩,
  ⟨0x3C, 1, 4, 0, 0, 0, 0, 0, 0, 0, true, 0⟩,
  ⟨0x40, 1, 4, 0, 0, 0, 0, 0, 0, 0, true, 0⟩,
  ⟨0x44, 1, 4, 0, 0, 0, 0, 0, 0, 0, true, 0⟩]

/-- CAP: CAP_CTRL and the rows that follow it. -/
def regsCAP : List RegDesc := [
  ⟨0, 1, 4, 0, 0, 0, 1, 0, 0, 0, false, 0⟩,
  ⟨4, 1, 4, 0xFFFF, 0, 0, 0, 0, 0, 0, false, 0⟩,
  ⟨8, 1, 4, 0, 0, 0, 0, 0, 0, 0, false, 0⟩,
  ⟨0xC, 1, 4, 0, 0, 0, 0, 0, 0, 0, false, 0⟩]

end Sys2Proof.Machine
end

