-- ==== Sys2Proof/Machine/Ops.lean ====
section
/-!
DEFINITION. The named operations over the state: registers and their copies, counters, free values, interrupts, events,
engine event bits, device states and the end of a command. Every meaning is written over these.
-/

namespace Sys2Proof.Machine

/-! ## The register map -/

/-- The row of a block's register map that covers offset `o`, if one does. -/
def findDesc (ds : List RegDesc) (o : Nat) : Option RegDesc :=
  ds.find? fun d => decide (d.off ≤ o) && (o - d.off) % d.stride == 0 && decide ((o - d.off) / d.stride < d.cnt)

/-- The register at a device address, where one stands (R254, R6). -/
def regDesc (a : Nat) : Option RegDesc :=
  if a < 0x10000 then findDesc regsTOP a
  else if a < 0x20000 then findDesc regsCLK (a - 0x10000)
  else if a < 0x30000 then findDesc regsPWR (a - 0x20000)
  else if a < 0x40000 then findDesc regsHSK (a - 0x30000)
  else if a < 0x50000 then findDesc regsBIAS (a - 0x40000)
  else if a < 0x60000 then findDesc regsTHERM (a - 0x50000)
  else if a < 0x70000 then findDesc regsSAFE (a - 0x60000)
  else if a < 0x80000 then findDesc regsSEC (a - 0x70000)
  else if a < 0x90000 then findDesc regsEVR (a - 0x80000)
  else if a < 0xA0000 then findDesc regsBIST (a - 0x90000)
  else if a < 0xB0000 then findDesc regsMEM (a - 0xA0000)
  else if a < 0xC0000 then findDesc regsTIME (a - 0xB0000)
  else if a < 0xD0000 then findDesc regsPEN (a - 0xC0000)
  else if a < 0xD1000 then findDesc regsIGS (a - 0xD0000)
  else if a < 0xD1900 then
    -- the bus windows stand in the blocks of IG-H and IG-N alone (R381)
    if 0x60 ≤ (a - 0xD1000) % 0x100 ∧ (a - 0xD1000) % 0x100 < 0x70 ∧ (a < 0xD1300 ∨ 0xD1500 ≤ a) then none
    else findDesc regsIGSE ((a - 0xD1000) % 0x100)
  else if a < 0xE0000 then none
  else if a < 0xF0000 then findDesc regsPMON (a - 0xE0000)
  else if a < 0x100000 then none
  else if a < 0x200000 then
    -- the reference and grouping registers stand in HL0 alone (R213)
    if 0x10000 ≤ a - 0x100000 ∧ 0xF00 ≤ (a - 0x100000) % 0x10000 then none
    else findDesc regsHL ((a - 0x100000) % 0x10000)
  else if a < 0x280000 then findDesc regsOL ((a - 0x200000) % 0x10000)
  else if a < 0x300000 then none
  else if a < 0x310000 then findDesc regsFEC (a - 0x300000)
  else if a < 0x320000 then findDesc regsLEDGER (a - 0x310000)
  else if a < 0x330000 then findDesc regsFRAMER (a - 0x320000)
  else if a < 0x340000 then findDesc regsCAP (a - 0x330000)
  else none

/-- The ranges of *Device address map* that hold blocks (R254). -/
def blockMapped (a : Nat) : Bool :=
  decide (a < 0xF0000) || (decide (0x100000 ≤ a) && decide (a < 0x280000)) ||
    (decide (0x300000 ≤ a) && decide (a < 0x340000))

/-! Tables written through an index register have no device address of their own. Their entries stand at keys above
2^32, the model's own (log entry 3). -/

/-- OLn pre-distorter entry `i` (R64). -/
def keyPd (n i : Nat) : Nat := 0x100000000 + 0x1000 * n + i
/-- Dither table entry `i` (R333). -/
def keyDither (i : Nat) : Nat := 0x100100000 + i
/-- Lane `n`'s iteration histogram, bin `b` (R132). -/
def keyHist (n b : Nat) : Nat := 0x100200000 + 0x100 * n + b

/-- A quarter of the default dither table of R333: round(32,767 × sin(2πi / 1,024)) for i = 0–256 is
`sineQuarter i`, by the angle-addition recurrence in fixed point with 60 fraction bits. -/
def sinCosStep (c s : Int) : Int × Int :=
  -- cos and sin of 2π/1,024, times 2^60, rounded
  let k : Int := 1152899801185339687
  let h : Int := 7074193361797233
  ((c * k - s * h) / 2 ^ 60, (s * k + c * h) / 2 ^ 60)

/-- cos and sin of 2πi / 1,024, times 2^60. -/
def sinCos : Nat → Int × Int
  | 0 => (2 ^ 60, 0)
  | i + 1 => sinCosStep (sinCos i).1 (sinCos i).2

/-- The default dither table of R333. -/
def sineEntry (i : Nat) : Int :=
  let q := i % 256
  let v (j : Nat) : Int := roundDiv (32767 * (sinCos j).2) (2 ^ 60)
  match i / 256 % 4 with
  | 0 => v q
  | 1 => v (256 - q)
  | 2 => - v q
  | _ => - v (256 - q)

/-- The word a register holds after hard reset (R10), and an entry of an indexed table. -/
def resetWord (a : Nat) : Word :=
  if 0x100100000 ≤ a ∧ a < 0x100100400 then BitVec.ofNat 32 (ofSigned 16 (sineEntry (a - 0x100100000)))
  else if a = R.IGS_En_WDOG 0 ∨ a = R.IGS_En_WDOG 2 ∨ (R.IGS_En_WDOG 5 ≤ a ∧ a ≤ R.IGS_En_WDOG 8 ∧ a % 0x100 = 8) then 10
  else if a = R.IGS_En_WDOG 1 then 1
  else if a = R.IGS_En_WINk 3 0 then 0x000300F3
  else if a = R.IGS_En_WINk 3 1 then 0x000400F3
  else if a = R.IGS_En_WINk 3 2 then 0x000500F1
  else if a = R.IGS_En_WINk 3 3 then 0x00000003
  else if a = R.IGS_En_WINk 4 0 then 0x000C00F3
  else if a = R.IGS_En_WINk 4 1 then 0x003100F1
  else if a = R.IGS_En_WINk 4 2 then 0x00000003
  else match regDesc a with
    | some d => BitVec.ofNat 32 d.rst
    | none => 0

/-- The canonical form of the register maps. -/
def regMapWf (m : RegMap) : Bool := mapWf resetWord m

namespace State

/-- A register that is not staged. -/
def reg (s : State) (a : Nat) : Word := mapGet (resetWord a) s.regs a
/-- The staged copy (R256). -/
def stagedReg (s : State) (a : Nat) : Word := mapGet (resetWord a) s.staged a
/-- The copy in force (R256). -/
def inForceReg (s : State) (a : Nat) : Word := mapGet (resetWord a) s.inForce a

def setReg (s : State) (a : Nat) (v : Word) : State := { s with regs := mapSet (resetWord a) s.regs a v }
def setStaged (s : State) (a : Nat) (v : Word) : State := { s with staged := mapSet (resetWord a) s.staged a v }
def setInForce (s : State) (a : Nat) (v : Word) : State := { s with inForce := mapSet (resetWord a) s.inForce a v }

/-- Read a field that is not staged. -/
def rd (s : State) (f : RField) : Nat := getField (s.reg f.addr) f.lo f.width
/-- Write a field that is not staged, as hardware. -/
def wr (s : State) (f : RField) (v : Nat) : State := s.setReg f.addr (putField (s.reg f.addr) f.lo f.width v)
/-- A one-bit field. -/
def flag (s : State) (f : RField) : Bool := s.rd f == 1
/-- Set bit `i` of a field. -/
def wrBit (s : State) (f : RField) (i : Nat) (b : Bool) : State := s.wr f (setBit (s.rd f) i b)
/-- The in-force value of a staged field. -/
def cfg (s : State) (f : CField) : Nat := getField (s.inForceReg f.addr) f.lo f.width
def cfgOn (s : State) (f : CField) : Bool := s.cfg f == 1
/-- The staged value of a staged field. -/
def cfgStaged (s : State) (f : CField) : Nat := getField (s.stagedReg f.addr) f.lo f.width
/-- Write both copies of a staged field (R269, R334). -/
def setBoth (s : State) (f : CField) (v : Nat) : State :=
  (s.setStaged f.addr (putField (s.stagedReg f.addr) f.lo f.width v)).setInForce f.addr
    (putField (s.inForceReg f.addr) f.lo f.width v)
/-- Load a staged field with the value in force (R260). -/
def restage (s : State) (f : CField) : State :=
  s.setStaged f.addr (putField (s.stagedReg f.addr) f.lo f.width (s.cfg f))
/-- Put a value in force alone. -/
def force (s : State) (f : CField) (v : Nat) : State :=
  s.setInForce f.addr (putField (s.inForceReg f.addr) f.lo f.width v)

/-! ## Counters (R11) -/

/-- Add to a counter that stops at all ones. -/
def bumpBy (s : State) (a n : Nat) : State :=
  s.setReg a (BitVec.ofNat 32 (Nat.min 0xFFFFFFFF ((s.reg a).toNat + n)))
/-- Increment a counter that stops at all ones. -/
def bump (s : State) (a : Nat) : State := s.bumpBy a 1
/-- Add to a counter that wraps. -/
def bumpWrap (s : State) (a n : Nat) : State := s.setReg a (s.reg a + BitVec.ofNat 32 n)
/-- A counter split into _LO and _HI halves. -/
def count64 (s : State) (lo : Nat) : Nat := (s.reg lo).toNat + 2 ^ 32 * (s.reg (lo + 4)).toNat
def setCount64 (s : State) (lo v : Nat) : State :=
  (s.setReg lo (BitVec.ofNat 32 v)).setReg (lo + 4) (BitVec.ofNat 32 (v / 2 ^ 32))
/-- Add to a 64-bit counter that wraps. -/
def bump64 (s : State) (lo n : Nat) : State := s.setCount64 lo ((s.count64 lo + n) % 2 ^ 64)
/-- Add to a 64-bit counter that stops at all ones. -/
def bump64Sat (s : State) (lo n : Nat) : State := s.setCount64 lo (Nat.min (2 ^ 64 - 1) (s.count64 lo + n))
/-- A high-water mark. -/
def raiseMax (s : State) (f : RField) (v : Nat) : State :=
  if s.rd f < v then s.wr f (Nat.min v (2 ^ f.width - 1)) else s

/-! ## Free values -/

/-- The free value that the next draw gives (log entry 1). -/
def freeNat (s : State) : Nat := Config.freeNat s.draws
/-- The state after the draw. -/
def drew (s : State) : State := { s with draws := s.draws + 1 }

/-! ## Engine event bits and counters (R378, R387–R389) -/

def onEng (s : State) (e : Fin 9) (f : Engine → Engine) : State := { s with eng := s.eng.set e (f s.eng[e]) }

/-- Load IGS_En_SAMPLE and set EV bit 4 (R389). -/
def loadSample (s : State) (e : Fin 9) (k pc : Nat) : State :=
  let lost := s.flag (F.IGS_En_SAMPLE_valid e) || s.flag (F.IGS_En_SAMPLE_overrun e)
  let s := s.setReg (R.IGS_En_SAMPLE e) (BitVec.ofNat 32 (pc % 2 ^ 16 + 2 ^ 16 * k + 2 ^ 19 + 2 ^ 20 * b2n lost))
  s.onEng e fun g => { g with ev := g.ev ||| 0x10, samplePend := none }

/-- Event counter `k` counts `n` (R387); a wrap takes a sample 0 to 3 retirements later, which one of them being open
(R389, log entry 4). `pc` is the instruction's. -/
def countOne (s : State) (e : Fin 9) (sel n pc : Nat) (waiting : Bool) (k : Nat) : State :=
  if s.rd (F.IGS_En_EVSELk_sel e k) ≠ sel then s
  else
    let v := (s.reg (R.IGS_En_EVCNTk e k)).toNat + n
    let s := s.setReg (R.IGS_En_EVCNTk e k) (BitVec.ofNat 32 v)
    if v < 2 ^ 32 ∨ ¬ s.flag (F.IGS_En_EVSELk_ovf_int e k) then s
    else if waiting ∨ s.freeNat % 4 = 0 then (if waiting then s else s.drew).loadSample e k pc
    else
      let left := s.freeNat % 4
      (s.drew).onEng e fun g => { g with samplePend := some (k, left) }

/-- Every event counter of the engine that selects `sel` counts `n`, unless frozen (R387, R388). -/
def evCount (s : State) (e : Fin 9) (sel n pc : Nat) (waiting : Bool := false) : State :=
  if s.flag F.IGS_FREEZE_freeze ∨ n = 0 ∨ sel = 0 ∨ 12 ≤ sel then s
  else (List.range 6).foldl (fun s k => s.countOne e sel n pc waiting k) s

/-- The 48-bit cycle counter (R387). -/
def cycCount (s : State) (e : Fin 9) (n : Nat) : State :=
  if s.flag F.IGS_FREEZE_freeze then s
  else s.setCount64 (R.IGS_En_CYC_LO e) ((s.count64 (R.IGS_En_CYC_LO e) + n) % 2 ^ 48)

/-- An instruction retires: sel 2 counts it, and a waiting counter sample comes nearer (R389). -/
def retire (s : State) (e : Fin 9) (pc : Nat) : State :=
  let s := match s.eng[e].samplePend with
    | none => s
    | some (k, left) =>
      if left ≤ 1 then s.loadSample e k pc
      else s.onEng e fun g => { g with samplePend := some (k, left - 1) }
  s.evCount e 2 1 pc

/-- The return of a WFE whose mask meets a set EV bit (R376): the bits go to the destination and are cleared. The cycles
that it waited are not in the state, so their number is free (log entry 5). -/
def wfeReturn (s : State) (e : Fin 9) (d : Fin 16) (mask : BitVec 16) (waited : Nat) : State :=
  let pc := s.eng[e].pc
  let s := s.onEng e fun g =>
    { g with g := g.g.set d ((g.ev &&& mask).setWidth 32), ev := g.ev &&& ~~~ mask, st := .run, wfe := none,
             pc := g.pc + 1, ldDest := none, accBusy := 0 }
  let s := (s.cycCount e (3 + waited)).evCount e 1 3 pc
  (s.evCount e 4 waited pc true).retire e pc

/-- A WFE that waits for a bit that is set returns. -/
def wakeWfe (s : State) (e : Fin 9) : State :=
  match s.eng[e].st, s.eng[e].wfe with
  | .wait, some (d, m) => if s.eng[e].ev &&& m = 0 then s else (s.drew).wfeReturn e d m s.freeNat
  | _, _ => s

/-- Set EV bit `i` of engine `e`; sel 11 counts a bit that was clear (R378, R387). -/
def setEv (s : State) (e : Fin 9) (i : Nat) : State :=
  let new := !(s.eng[e].ev.getLsbD i)
  let s := s.onEng e fun g => { g with ev := g.ev ||| BitVec.twoPow 16 i }
  if new then s.evCount e 11 1 s.eng[e].pc else s

/-- Raise EV bit `i` of engine `e` (R378), waking a WFE that waits for it. -/
def raiseEv (s : State) (e : Fin 9) (i : Nat) : State := (s.setEv e i).wakeWfe e

/-- Raise an EV bit of every engine. -/
def raiseEvAll (s : State) (i : Nat) : State := (List.finRange 9).foldl (fun s e => s.raiseEv e i) s

/-- The IG-A engine that serves an optical lane, and the one that serves a host lane (R374). -/
def laneEngine (n : Fin 8) : Fin 9 := ⟨5 + n.val / 2, by omega⟩
def hostEngine (n : Fin 16) : Fin 9 := ⟨5 + n.val / 4, by omega⟩

/-! ## Interrupts (R271) -/

/-- One summary: some flag of the block is set and enabled. -/
def intOn (s : State) (flags enable : Nat) : Nat := b2n ((s.reg flags &&& s.reg enable) != 0)

/-- The block summaries, bits 31–16 of TOP_INT (R271): 26 and 28–31 read 0. -/
def summary (s : State) : Nat :=
  s.intOn R.CLK_INT R.CLK_INT_EN + 2 * s.intOn R.PWR_INT R.PWR_INT_EN + 4 * s.intOn R.HSK_INT R.HSK_INT_EN
    + 8 * s.intOn R.BIAS_INT R.BIAS_INT_EN + 16 * s.intOn R.THERM_INT R.THERM_INT_EN
    + 32 * s.intOn R.SAFE_INT R.SAFE_INT_EN + 64 * s.intOn R.SEC_INT R.SEC_INT_EN
    + 128 * s.intOn R.EVR_INT R.EVR_INT_EN
    + 256 * b2n (s.intOn R.MEM_INT R.MEM_INT_EN + s.intOn R.BIST_INT R.BIST_INT_EN != 0)
    + 512 * s.intOn R.TIME_INT R.TIME_INT_EN + 2048 * s.intOn R.IGS_INT R.IGS_INT_EN

/-- A summary bit that was clear before is set now: EV bit 11 of IG-M (R378). -/
def noticeSummary (before : Nat) (s : State) : State :=
  if s.summary &&& (0xFFFF - before) = 0 then s else s.raiseEv 0 11

/-- Set a block's interrupt flag. -/
def setInt (s : State) (f : RField) : State := noticeSummary s.summary (s.wr f (2 ^ f.width - 1))
/-- Set one bit of a block's interrupt flags. -/
def setIntBit (s : State) (f : RField) (i : Nat) : State := noticeSummary s.summary (s.wrBit f i true)

/-- Set a flag of TOP_INT: in SLEEP only cmd_done and state_chg can be set (R264). Setting commit_done raises EV bit 5
of every engine (R378). -/
def setTopInt (s : State) (f : RField) : State :=
  if s.mgmt.dev = .sleep ∧ f ≠ F.TOP_INT_cmd_done ∧ f ≠ F.TOP_INT_state_chg then s
  else
    let s := s.wr f 1
    if f = F.TOP_INT_commit_done then s.raiseEvAll 5 else s

/-- Set a TOP_ERR bit: stage_busy sets stage_drop, every other one bus_err (R258, R265, R271). -/
def setTopErr (s : State) (f : RField) : State :=
  (s.wr f 1).setTopInt (if f = F.TOP_ERR_stage_busy then F.TOP_INT_stage_drop else F.TOP_INT_bus_err)

/-- TOP_INT as it reads (R271, R273): in SLEEP cmd_done and state_chg alone (R264). -/
def topInt (s : State) : Word :=
  if s.mgmt.dev = .sleep then s.reg R.TOP_INT &&& 9 else s.reg R.TOP_INT ||| BitVec.ofNat 32 (s.summary * 2 ^ 16)

/-- INT_N is asserted (R271). -/
def intN (s : State) : Bool := s.topInt &&& s.reg R.TOP_INT_EN != 0

/-! ## Events (R391, R394) -/

/-- Insert a waiting event in increasing source order (R394). -/
def insertWaiting (x : EvrEntry) : List EvrEntry → List EvrEntry
  | [] => [x]
  | y :: t => if x.source < y.source then x :: y :: t else y :: insertWaiting x t

/-- Log an event (R391). Code 0 is never logged (R392); a source with an event waiting drops the new one (R394). -/
def logEvent (s : State) (source code argA argB : Nat) : State :=
  if code % 2 ^ 16 = 0 then s
  else if s.evr.waiting.any (·.source == source) then (s.bump R.EVR_DROP_CNT).setInt F.EVR_INT_drop
  else
    { s with evr := { s.evr with
        waiting := insertWaiting
          { time := s.evr.time, source := source, held := false, code := code % 2 ^ 16, argA := argA % 2 ^ 16,
            argB := argB % 2 ^ 32 } s.evr.waiting } }

end State

/-- Event sources (R391): the block of TOP_INT summary bit 16 + (source − 0x10), and the others. -/
def srcClk : Nat := 0x10
def srcPwr : Nat := 0x11
def srcHsk : Nat := 0x12
def srcBias : Nat := 0x13
def srcTherm : Nat := 0x14
def srcMem : Nat := 0x18
def srcTime : Nat := 0x19
def srcPen : Nat := 0x1A
def srcIgs : Nat := 0x1B
def srcHl : Nat := 0x1C
def srcOl : Nat := 0x1D
def srcFec : Nat := 0x1E
def srcLedger : Nat := 0x1F
def srcEvr : Nat := 0x17
def srcTop : Nat := 0x20
def srcBoot : Nat := 0x21
def srcCap : Nat := 0x22
def srcFramer : Nat := 0x23

/-! ## Device states (R266) -/

/-- The codes of *Device states*. -/
def DevState.code : DevState → Nat
  | .off => 0 | .boot => 1 | .configured => 2 | .bringup => 3 | .linked => 4 | .degraded => 5
  | .partnerAbsent => 6 | .quiet => 7 | .standby => 8 | .sleep => 9 | .fault => 10

namespace State

/-- The device state changes: TOP_INT.state_chg, event 0x0001 and EV bit 10 of IG-M (R266, R378). -/
def setDev (s : State) (d : DevState) : State :=
  if s.mgmt.dev = d then s
  else
    let s := { s with mgmt := { s.mgmt with dev := d, prev := s.mgmt.dev } }
    ((s.setTopInt F.TOP_INT_state_chg).logEvent srcTop 0x0001 s.mgmt.dev.code s.mgmt.prev.code).raiseEv 0 10

/-- FAULT_N is asserted: in FAULT, while a boot step failure stands, while a wake failure stands (R272). -/
def faultN (s : State) : Bool :=
  s.mgmt.dev = .fault || s.flag F.SEC_BOOT_STAT_failed || s.rd F.PWR_WAKE_FAIL_tries != 0
    || s.flag F.PWR_WAKE_FAIL_given_up

/-- CONFIGURED to PARTNER_ABSENT: the states between boot and a power state (R266). -/
def configuredUp (s : State) : Bool :=
  match s.mgmt.dev with
  | .configured | .bringup | .linked | .degraded | .partnerAbsent => true
  | _ => false

/-! ## Commands (R267–R269) -/

/-- A command is BUSY. -/
def cmdBusy (s : State) : Bool := s.rd F.TOP_CMD_STAT_status == 1

/-- The opcode of the last command. -/
def cmdOp (s : State) : Nat := s.rd F.TOP_CMD_STAT_opcode

/-- Argument `k`. -/
def arg (s : State) (k : Nat) : Nat := (s.reg (R.TOP_CMD_ARGk k)).toNat
def setArg (s : State) (k v : Nat) : State := s.setReg (R.TOP_CMD_ARGk k) (BitVec.ofNat 32 v)

/-- The command ends with a status: serial counts, cmd_done is set (R267). -/
def endCmd (s : State) (status : Nat) : State :=
  let s := (s.wr F.TOP_CMD_STAT_status status).wr F.TOP_CMD_STAT_serial (s.rd F.TOP_CMD_STAT_serial + 1)
  let s := { s with mgmt := { s.mgmt with cmdTaken := false } }
  s.setTopInt F.TOP_INT_cmd_done

/-- *Command status codes*. -/
def stOk : Nat := 0
def stBusy : Nat := 1
def stState : Nat := 2
def stArg : Nat := 3
def stDenied : Nat := 4
def stTimeout : Nat := 5
def stFail : Nat := 6
def stPoison : Nat := 7
def stWindow : Nat := 8

/-- The running command is `op`. -/
def running (s : State) (op : Nat) : Bool := s.cmdBusy && s.cmdOp == op

/-- End the running command `op`, if it is the one that runs. -/
def endIf (s : State) (op status : Nat) : State := if s.running op then s.endCmd status else s

/-- End it with a cause in ARG0. -/
def endIfArg (s : State) (op status arg0 : Nat) : State :=
  if s.running op then (s.setArg 0 arg0).endCmd status else s

end State

/-- Every answer of a meaning. -/
abbrev Out := Host.Outcome State Fault Refusal

end Sys2Proof.Machine
end

