-- ==== Sys2Proof/Machine/DpOps.lean ====
section
/-!
DEFINITION. Operations over the datapath's state: its parts, the line mode and its lanes, 257-bit and 66-bit blocks, and
the pennant queue. Times of the line and of the ledger are counted in symbol periods of 1 / 228 GHz: a datapath cycle is
128 of them and a decoder core cycle 152.
-/

namespace Sys2Proof.Machine

namespace State

def onDp (s : State) (f : Datapath → Datapath) : State := { s with dp := f s.dp }
def onFramer (s : State) (f : Framer → Framer) : State := s.onDp fun d => { d with framer := f d.framer }
def onPool (s : State) (f : Pool → Pool) : State := s.onDp fun d => { d with pool := f d.pool }
def onLedger (s : State) (f : Ledger → Ledger) : State := s.onDp fun d => { d with ledger := f d.ledger }
def onLink (s : State) (f : Link → Link) : State := s.onDp fun d => { d with link := f d.link }
def onPen (s : State) (f : Pen → Pen) : State := s.onDp fun d => { d with pen := f d.pen }
def onTime (s : State) (f : TimeSt → TimeSt) : State := s.onDp fun d => { d with time := f d.time }
def onTx (s : State) (n : Fin 8) (f : TxLane → TxLane) : State := s.onDp fun d => { d with tx := d.tx.set n (f d.tx[n]) }
def onRx (s : State) (n : Fin 8) (f : RxLane → RxLane) : State := s.onDp fun d => { d with rx := d.rx.set n (f d.rx[n]) }
def onPort (s : State) (p : Fin 16) (f : Port → Port) : State :=
  s.onDp fun d => { d with ports := d.ports.set p (f d.ports[p]) }
def onHost (s : State) (n : Fin 16) (f : HostLane → HostLane) : State :=
  s.onDp fun d => { d with host := d.host.set n (f d.host[n]) }

/-- TIME's nanosecond counter as the model last advanced it. -/
def timeNs (s : State) : Nat := s.dp.time.count / (5 * 2 ^ 48) % 2 ^ 32

/-- The datapath is without power: STANDBY, SLEEP, or after a thermal shutdown (R309, R346). -/
def dpOff (s : State) : Bool := decide (2 ≤ s.pwr.pstate) || s.flag F.THERM_STAT_shut_latched

/-- The line mode in force (R13): 0 none, 1 CV-FULL, 2 CV-HALF, 3 STD-200, 4 STD-100. -/
def lineMode (s : State) : Nat := if s.cfg F.TOP_MODE_line_mode ≤ 4 then s.cfg F.TOP_MODE_line_mode else 0

/-- CV-FULL or CV-HALF. -/
def cvMode (s : State) : Bool := s.lineMode == 1 || s.lineMode == 2
/-- STD-200 or STD-100. -/
def stdMode (s : State) : Bool := s.lineMode == 3 || s.lineMode == 4

/-- The optical lanes in use (R13), as a mask. -/
def laneMask (s : State) : Nat :=
  match s.lineMode with
  | 0 => 0
  | 2 => 0x0F
  | _ => 0xFF

/-- The active lanes in increasing number. -/
def activeLanes (s : State) : List (Fin 8) := (List.finRange 8).filter fun n => bitOf s.laneMask n

/-- L of R47. -/
def laneCount (s : State) : Nat := s.activeLanes.length

/-- The host lanes in use (R13). -/
def hostLanes (s : State) : List (Fin 16) :=
  (List.finRange 16).filter fun n => s.lineMode == 1 || (s.lineMode != 0 && decide (n.val < 8))

/-- fde_acquired (R97): set on the way from ACQUIRE to TRACK, cleared on entry to SEARCH. -/
def acquired (s : State) (n : Fin 8) : Bool := s.dp.rx[n].fe = .track || s.dp.rx[n].fe = .hold

/-- The lane is powered and squelched or held by the safety partition (R66, R348). -/
def laneSafe (s : State) (n : Fin 8) : Bool := s.safe.lane[n] != .active

/-- The squelch in force on a lane (R76). -/
def squelched (s : State) (n : Fin 8) : Bool := s.cfgOn (F.OLn_TX_CTRL_squelch n)

/-- Converter samples to the symbol (R70, R99); one in the CV modes. -/
def perSymbol (s : State) : Nat := if s.lineMode = 4 then 4 else if s.lineMode = 3 then 2 else 1

/-- The pattern in force on a lane: codes 5–7 act as 0 (R75). -/
def txPattern (s : State) (n : Fin 8) : Nat :=
  if s.cfg (F.OLn_TX_CTRL_pattern n) ≤ 4 then s.cfg (F.OLn_TX_CTRL_pattern n) else 0

/-- The superframe in progress, where there is one, is cut: no more of it is sent (R26, R138, R184). -/
def cutSuperframe (s : State) : State :=
  s.onFramer fun f =>
    { f with cut := if f.sending then some (f.sfc, f.msg) else f.cut, sending := false, msg := none }

/-- A field that acts as 1 when it is 0 (R161). -/
def cfgMin1 (s : State) (f : CField) : Nat := Nat.max 1 (s.cfg f)

/-- DRAM is present, initialised and out of self-refresh (R166); during a DRAM self-test slice it acts as in self-refresh
(R365). -/
def dramReady (s : State) : Bool :=
  s.flag F.MEM_STAT_dram_ready && !s.flag F.MEM_STAT_dram_sr
    && (match s.mem.run with | some r => r.unit != 27 | none => true)

/-- TOP_COMMIT.settled is set once every application point of the commit has been passed (R259). -/
def reviewSettled (s : State) : State :=
  if s.mgmt.settleLanes = 0 ∧ !s.mgmt.settlePool ∧ s.mgmt.settleAux = 0 then s.wr F.TOP_COMMIT_settled 1 else s

/-- A lane has passed its switch point, or has no power to wait for. -/
def laneSettled (s : State) (n : Fin 8) : State :=
  if bitOf s.mgmt.settleLanes n then
    ({ s with mgmt := { s.mgmt with settleLanes := setBit s.mgmt.settleLanes n false } }).reviewSettled
  else s

/-- HSK, BIAS or the host lanes act on what a commit has brought into force, or wait for it: bit `i` of settleAux. -/
def auxSettled (s : State) (i : Nat) : State :=
  if bitOf s.mgmt.settleAux i then
    ({ s with mgmt := { s.mgmt with settleAux := setBit s.mgmt.settleAux i false } }).reviewSettled
  else s
def auxWaits (s : State) (i : Nat) : State := { s with mgmt := { s.mgmt with settleAux := setBit s.mgmt.settleAux i true } }

/-- The pool has taken a commit's values, or has no power to. -/
def poolSettled (s : State) : State :=
  if s.mgmt.settlePool then ({ s with mgmt := { s.mgmt with settlePool := false } }).reviewSettled else s

/-! ## Host lanes and their ports (R193, R207, R208) -/

/-- The lanes of a port, first lane first. -/
def portLanes (s : State) (p : Fin 16) : List (Fin 16) :=
  (List.finRange 16).filter fun n =>
    decide (s.dp.ports[p].first ≤ n.val) && decide (n.val < s.dp.ports[p].first + s.dp.ports[p].width)

/-- A field of HLn_CTRL, of HLn_TX_FIR and of HLn_PRBS_CTRL for what R207 names: while the lane is ordered into electrical idle, as
it was in force at the order. -/
def ctlField (s : State) (n : Fin 16) (f : CField) : Nat :=
  match s.dp.host[n].held with
  | some (w, _, _) => getField w f.lo f.width
  | none => s.cfg f
def firField (s : State) (n : Fin 16) (f : CField) : Nat :=
  match s.dp.host[n].held with
  | some (_, w, _) => getField w f.lo f.width
  | none => s.cfg f
def prbsField (s : State) (n : Fin 16) (f : CField) : Nat :=
  match s.dp.host[n].held with
  | some (_, _, w) => getField w f.lo f.width
  | none => s.cfg f

/-- The loop that acts on a lane (R207, R208). -/
def hostLoop (s : State) (n : Fin 16) : Nat := s.ctlField n (F.HLn_CTRL_loop n)

/-- Every lane of the port selects this loop (R208). -/
def portLoop (s : State) (p : Fin 16) (k : Nat) : Bool :=
  decide (0 < s.dp.ports[p].width) && (s.portLanes p).all fun n => s.hostLoop n == k

/-- Some lane of the port selects a loop, and not all select the same one (R208). -/
def portMixed (s : State) (p : Fin 16) : Bool :=
  decide (0 < s.dp.ports[p].width) && !(List.range 4).any fun k => s.portLoop p k

/-- The port's codewords are received: in a CV mode, and in a standard mode with mon_en = 1 in its first lane (R200, R212). -/
def portMonitored (s : State) (p : Fin 16) : Bool :=
  s.cvMode || (s.stdMode && s.cfgOn (F.HLn_PORT_CTRL_mon_en s.dp.ports[p].first))

/-! ## The pennant channel (R214, R215, R228) -/

/-- Samples of a sub-sample block of 1/25 pennant symbol (R214). -/
def blockSamples (s : State) : Nat :=
  match s.lineMode with
  | 3 => if s.activeLanes.any fun n => s.cfgOn (F.OLn_TX_CTRL_inner_fec_en n) then 1815 else 1700
  | 4 => 1700
  | _ => 1824

/-- The modulation at a time in converter samples: +1 in a symbol of 1, −1 in one of 0, and 0 between pennants (R215). -/
def penAt (s : State) (now : Nat) : Int :=
  if s.dp.pen.sendStart ≤ now then
    match s.dp.pen.sendBits[(now - s.dp.pen.sendStart) / (25 * s.blockSamples)]? with
    | some true => 1
    | some false => -1
    | none => 0
  else 0

/-- The depth in %: 0 and 9–15 act as 4 (R215). -/
def penDepth (s : State) : Nat :=
  let d := s.cfg F.PEN_CTRL_depth
  if 1 ≤ d ∧ d ≤ 8 then d else 4

/-- Two waiting pennants are of one kind: of one priority, and bring-up pennants carry the same message (R140). -/
def samePen (prio : Nat) (x : PenItem) (y : Nat × PenItem) : Bool :=
  y.1 == prio && (prio != 2 || y.2.payload.head? == x.payload.head?)

/-- Queue a pennant of a priority 1–5. An earlier one of the same kind that still waits is replaced, and the new one stands last
in its priority; acknowledgements of mail, which are not periodic, all wait. -/
def queuePen (s : State) (prio : Nat) (x : PenItem) : State :=
  s.onPen fun p =>
    let w := if prio = 3 then p.waiting else p.waiting.filter fun y => !samePen prio x y
    { p with waiting := w.filter (decide <| ·.1 ≤ prio) ++ [(prio, x)] ++ w.filter (decide <| prio < ·.1) }

/-- Bytes of a bit list, most significant bit first. -/
def bitsToBytes (bs : List Bool) : List Byte :=
  (List.range (bs.length / 8)).map fun i => BitVec.ofNat 8 (ofMsb ((bs.drop (8 * i)).take 8))

/-- The bring-up pennant payload (R140). -/
def bringupPayload (s : State) (msg peerNonce : Nat) : List Byte :=
  let l := s.dp.link
  bitsToBytes (msbBits 8 msg ++ msbBits 4 1 ++ msbBits 4 s.lineMode ++ msbBits 8 s.laneMask
    ++ msbBits 8 (s.cfg (F.HL0_GROUP_code 0)) ++ [s.cfgOn F.LEDGER_LINK_CTRL_retry_req] ++ msbBits 15 0
    ++ msbBits 32 l.nonce ++ msbBits 32 peerNonce ++ msbBits 4 l.step ++ msbBits 8 l.status
    ++ msbBits 8 l.lastFail ++ msbBits 16 (s.rd F.LEDGER_LINK_FAIL_consec) ++ msbBits 108 0)

/-- Queue INVITE, ACCEPT or STATUS (R140, R141, R228). -/
def queueInvite (s : State) : State :=
  s.queuePen 2 { kind := 1, payload := s.bringupPayload 1 0, seq := none, accept := false }
def queueAccept (s : State) (peer : Nat) : State :=
  s.queuePen 1 { kind := 1, payload := s.bringupPayload 2 peer, seq := none, accept := true }
def queueStatus (s : State) : State :=
  s.queuePen 2 { kind := 1, payload := s.bringupPayload 3 s.dp.link.peerNonce, seq := none, accept := false }

end State

/-! ## Blocks. The 256B/257B transcoding and the 66-bit block codes are those of IEEE 802.3 Clauses 82 and 119, which the spec
names and does not give (PRESUMED, log entry 9). A 66-bit block is its 2 sync bits and then its 8 bytes, each byte least
significant bit first, first bit sent most significant in the number. -/

/-- The 64 bits of eight bytes in the order sent. -/
def bytesLsb (bs : List Nat) : List Bool := bs.flatMap fun b => (List.range 8).map fun i => bitOf b i

/-- A control block of a type and seven bytes. -/
def ctrlBlock66 (ty : Nat) (bs : List Nat) : BitVec 66 := BitVec.ofNat 66 (ofMsb ([true, false] ++ bytesLsb (ty :: bs)))

/-- Eight idle control characters. -/
def idle66 : BitVec 66 := ctrlBlock66 0x1E [0, 0, 0, 0, 0, 0, 0]
/-- Eight error control characters: the Ethernet error control block of R59 and R182. -/
def error66 : BitVec 66 :=
  BitVec.ofNat 66 (ofMsb ([true, false] ++ bytesLsb [0x1E] ++ (List.range 56).map fun i => bitOf 0x1E (i % 7)))
/-- The Local Fault ordered set. -/
def localFault66 : BitVec 66 := ctrlBlock66 0x4B [0x00, 0x00, 0x01, 0, 0, 0, 0]

def sync66 (b : BitVec 66) : List Bool := (msbBits 66 b.toNat).take 2
def bits66 (b : BitVec 66) : List Bool := (msbBits 66 b.toNat).drop 2
/-- The type field of a control block. -/
def type66 (b : BitVec 66) : Nat := ((bits66 b).take 8).reverse.foldl (fun a x => 2 * a + b2n x) 0
def isCtrl66 (b : BitVec 66) : Bool := sync66 b == [true, false]
def isIdle66 (b : BitVec 66) : Bool := b == idle66
/-- An ordered-set block. -/
def isOrdered66 (b : BitVec 66) : Bool := isCtrl66 b && type66 b == 0x4B
/-- A block that contains a Terminate. -/
def isTerm66 (b : BitVec 66) : Bool :=
  isCtrl66 b && [0x87, 0x99, 0xAA, 0xB4, 0xCC, 0xD2, 0xE1, 0xFF].contains (type66 b)
def isError66 (b : BitVec 66) : Bool := b == error66

/-- The types of control blocks, whose low nibbles differ. -/
def types66 : List Nat := [0x1E, 0x2D, 0x33, 0x4B, 0x55, 0x66, 0x78, 0x87, 0x99, 0xAA, 0xB4, 0xCC, 0xD2, 0xE1, 0xFF]

/-- Four 66-bit blocks as one 257-bit block: a leading 1 where all hold data; otherwise a 0, four flags, and the payloads
with the second nibble of the first control block's type left out. -/
def transcode (bs : List (BitVec 66)) : Block :=
  if bs.all fun b => !isCtrl66 b then BitVec.ofNat 257 (ofMsb (true :: bs.flatMap bits66))
  else
    let flags := bs.map fun b => !isCtrl66 b
    let body := (bs.foldl (fun (acc : List Bool × Bool) b =>
      if isCtrl66 b && !acc.2 then (acc.1 ++ (bits66 b).take 4 ++ (bits66 b).drop 8, true)
      else (acc.1 ++ bits66 b, acc.2)) ([], false)).1
    BitVec.ofNat 257 (ofMsb (false :: flags ++ body))

/-- The four 66-bit blocks of a 257-bit block. -/
def expand (b : Block) : List (BitVec 66) :=
  let bits := msbBits 257 b.toNat
  let mk (ctl : Bool) (p : List Bool) : BitVec 66 := BitVec.ofNat 66 (ofMsb ((if ctl then [true, false] else [false, true]) ++ p))
  if bits.headD false then (List.range 4).map fun i => mk false ((bits.drop (1 + 64 * i)).take 64)
  else
    let flags := (bits.drop 1).take 4
    ((List.range 4).foldl (fun (acc : List (BitVec 66) × List Bool × Bool) i =>
      let (out, rest, seen) := acc
      if flags.getD i true then (out ++ [mk false (rest.take 64)], rest.drop 64, seen)
      else if seen then (out ++ [mk true (rest.take 64)], rest.drop 64, seen)
      else
        let low := (rest.take 4).reverse.foldl (fun a x => 2 * a + b2n x) 0
        let ty := (types66.find? fun t => t % 16 == low).getD 0x1E
        (out ++ [mk true (bytesLsb [ty] ++ (rest.drop 4).take 56)], rest.drop 60, true)) ([], bits.drop 5, false)).1

/-- The Local Fault block of R53. -/
def localFaultBlock : Block := transcode (List.replicate 4 localFault66)
/-- The Ethernet error control block in 257-bit form (R59, R182, R200). -/
def errorBlock : Block := transcode (List.replicate 4 error66)

end Sys2Proof.Machine
end

