-- ==== Sys2Proof/Machine/Clk.lean ====
section
/-!
DEFINITION. Clocks: the REFCLK monitor, failover and return, the oscillator's check and trim, divider ramps, and which
gates are open (R295–R308).
-/

namespace Sys2Proof.Machine

/-- The bit of CLK_STAT.lock for a synthesiser (R308). -/
def synthBit : Synth → Nat
  | .sys => 0 | .line => 1 | .pool => 2 | .host _ => 3 | .dram => 4

namespace State

def onClk (s : State) (f : Clk → Clk) : State := { s with clk := f s.clk }

/-! ## Lock bits -/

/-- The HOST synthesisers that are powered: one for each four host lanes in use (R296). -/
def hostSynths (s : State) : Nat := if s.lineMode = 1 ∨ s.lineMode = 0 then 0xF else 0x3

/-- The HOST bit of lock is 1 only when every powered HOSTk is locked (R308). -/
def reviewHostLock (s : State) : State :=
  s.wrBit F.CLK_STAT_lock 3 (s.clk.hostLock &&& s.hostSynths == s.hostSynths)

/-- A synthesiser locks or unlocks. -/
def setLock (s : State) (x : Synth) (on : Bool) : State :=
  match x with
  | .host k => (s.onClk fun c => { c with hostLock := setBit c.hostLock k on }).reviewHostLock
  | _ => s.wrBit F.CLK_STAT_lock (synthBit x) on

/-- A synthesiser is locked. -/
def isLocked (s : State) (x : Synth) : Bool :=
  match x with
  | .host k => bitOf s.clk.hostLock k
  | _ => bitOf (s.rd F.CLK_STAT_lock) (synthBit x)

def allSynths : List Synth := [.sys, .line, .pool, .host 0, .host 1, .host 2, .host 3, .dram]

/-! ## Failover and return (R298–R300) -/

/-- The switch of the reference multiplexer is complete: every synthesiser has relocked (R299, R300). -/
def switchDone (s : State) : State :=
  let s := s.onClk fun c => { c with holdover := false }
  if s.clk.selOsc ∧ s.clk.failing then
    let s := s.onClk fun c => { c with failing := false }
    let s := ((s.wr F.CLK_STAT_on_osc 1).setInt F.CLK_INT_ref_fail).bump R.CLK_REF_FAIL_CNT
    let s := s.logEvent srcClk 0x1001 0 (s.reg R.CLK_MON_COUNT).toNat
    let s := if s.rd F.CLK_STAT_trim_act = 1 then s.wr F.CLK_STAT_trim_act 0 else s
    s.raiseEv 0 9
  else if !s.clk.selOsc then s.wr F.CLK_STAT_on_osc 0
  else s

/-- The multiplexer selects a source; the running synthesisers relock with phase continuous. A failure of REFCLK during a return
selects the oscillator again, and is a failure like any other. -/
def switchRef (s : State) (osc : Bool) : State :=
  let s := s.onClk fun c =>
    { c with selOsc := osc, holdover := true, wantReturn := false, failing := osc, relocking := allSynths.filter (s.isLocked ·) }
  if s.clk.relocking.isEmpty then s.switchDone else s

/-- REFCLK fails (R298, R299). Without auto_fail, or with the oscillator marked failed, the synthesisers hold over. -/
def refFail (s : State) : State :=
  let was := s.flag F.CLK_STAT_ref_ok
  let s := (s.wr F.CLK_STAT_ref_ok 0).onClk fun c => { c with goodRun := 0, wantReturn := false }
  if !was then s
  else if s.clk.selOsc then s
  else if s.flag F.CLK_REF_CTRL_auto_fail ∧ !s.flag F.CLK_STAT_osc_fail then s.switchRef true
  else s.onClk fun c => { c with holdover := true }

/-- The return to REFCLK, which waits while force_osc = 1 (R300). -/
def refReturn (s : State) : State :=
  if s.flag F.CLK_REF_CTRL_force_osc then s.onClk fun c => { c with wantReturn := true } else s.switchRef false

/-- REFCLK becomes good (R298, R300). -/
def refGood (s : State) : State :=
  let s := s.wr F.CLK_STAT_ref_ok 1
  if s.flag F.CLK_STAT_on_osc then
    let s := s.setInt F.CLK_INT_ref_good
    if s.flag F.CLK_REF_CTRL_auto_return then s.refReturn else s
  else if s.clk.relocking.isEmpty then s.onClk fun c => { c with holdover := false }
  else s

/-- CLK_REF_CTRL.revert (R300). -/
def refRevert (s : State) : State :=
  if s.flag F.CLK_STAT_ref_ok ∧ s.flag F.CLK_STAT_on_osc ∧ s.clk.selOsc then s.refReturn else s

/-- A write of CLK_REF_CTRL that clears force_osc lets a waiting return go (R300). -/
def reviewForce (s : State) : State :=
  if s.clk.wantReturn ∧ !s.flag F.CLK_REF_CTRL_force_osc ∧ s.flag F.CLK_STAT_on_osc ∧ s.flag F.CLK_STAT_ref_ok
    then s.switchRef false else s

/-- spread_q of R297: 0 outside mode 2; in mode 2, 0, 6 and 7 act as 5. -/
def spreadQ (s : State) : Nat :=
  if s.cfg (F.HL0_REF_CTRL_mode 0) ≠ 2 then 0
  else
    let q := s.cfg (F.HL0_REF_CTRL_spread_q 0)
    if 1 ≤ q ∧ q ≤ 5 then q else 5

/-- A monitor window is good (R297), in thousandths of a count. -/
def windowGood (s : State) (count : Nat) : Bool :=
  let q := s.spreadQ
  let tol := if s.rd F.CLK_MON_CTRL_tol = 0 then 50 else s.rd F.CLK_MON_CTRL_tol
  decide ((1000 * (count : Int) - (12800000 - 6400 * q)).natAbs ≤ 256 * tol + 6400 * q)

/-- CLK_MON_CTRL.good_win as it acts. -/
def goodWin (s : State) : Nat := Nat.max 1 (s.rd F.CLK_MON_CTRL_good_win)

/-- One monitor window (R297, R298). -/
def monWindow (s : State) (count : Nat) : State :=
  let s := s.setReg R.CLK_MON_COUNT (BitVec.ofNat 32 (count % 2 ^ 16))
  if s.windowGood count then
    let s := s.onClk fun c => { c with goodRun := c.goodRun + 1, badRun := 0 }
    if !s.flag F.CLK_STAT_ref_ok ∧ s.goodWin ≤ s.clk.goodRun then s.refGood else s
  else
    let s := s.onClk fun c => { c with goodRun := 0, badRun := c.badRun + 1 }
    if 2 ≤ s.clk.badRun then s.refFail else s

/-! ## Oscillator (R301, R302) -/

/-- The oscillator check of an always-on cycle (R301). -/
def oscCheck (s : State) (count : Nat) : State :=
  if 2 * 152588 < 100 * (100 * (count : Int) - 152588).natAbs then
    let n := s.clk.oscBad + 1
    let s := s.onClk fun c => { c with oscBad := n }
    if n = 4 then (s.wr F.CLK_STAT_osc_fail 1).logEvent srcClk 0x1002 0 0 else s
  else s.onClk fun c => { c with oscBad := 0 }

/-- Trim takes REFCLK (R302): source 1 applies. -/
def trimRef (s : State) : Bool := s.flag F.CLK_STAT_ref_ok && !s.flag F.CLK_STAT_on_osc

/-- The source that trims now, which CLK_STAT.trim_act shows once it has given a measurement (R302, R308). -/
def trimActs (s : State) : Bool :=
  let act := s.rd F.CLK_STAT_trim_act
  let src := s.rd F.CLK_OSC_CTRL_trim_src
  !s.flag F.CLK_STAT_osc_fail &&
    ((act == 1 && (src == 1 || src == 3) && s.trimRef) || (act == 2 && (src == 2 || (src == 3 && !s.trimRef))))

/-- The error of the oscillator in ppm, as numerator and denominator (R302). From TSYNC, `count` is the oscillator cycles of an interval:
(count − 50,000,000) / 50 ppm. From REFCLK it is the edges of 64 monitor windows against the expected value of R297: an oscillator
that is fast shortens the windows. -/
def trimError (s : State) (tsync : Bool) (count : Nat) : Int × Nat :=
  if tsync then ((count : Int) - 50000000, 50)
  else
    -- 64 expected counts, in hundredths: 64 × 12,800 × (1 − 0.0005 q)
    let all := 81920000 - 40960 * s.spreadQ
    (((all : Int) - 100 * count) * 1000000, all)

/-- A measurement is taken (R302): the sources that trim_src selects, and no TSYNC interval more than 1,000 ppm off. -/
def trimTakes (s : State) (tsync : Bool) (count : Nat) : Bool :=
  let src := s.rd F.CLK_OSC_CTRL_trim_src
  !s.flag F.CLK_STAT_osc_fail &&
    (if tsync then (src == 2 || (src == 3 && !s.trimRef)) && decide (((count : Int) - 50000000).natAbs ≤ 50000)
     else (src == 1 || src == 3) && s.trimRef)

/-- One trim step (R302): towards zero error where it is at least 2 ppm, at most 256 steps from factory. -/
def trimStep (s : State) (err : Int × Nat) : State :=
  let code := s.rd F.CLK_OSC_TRIM_code
  let factory := s.rd F.CLK_OSC_TRIM_factory
  let want : Int := if err.1.natAbs < 2 * err.2 then code else if 0 < err.1 then (code : Int) - 1 else code + 1
  let new := (satI (Nat.max 0 (factory - 256)) (Nat.min 1023 (factory + 256)) want).toNat
  let s := s.wr F.CLK_OSC_TRIM_code new
  if new = factory + 256 ∨ new + 256 = factory then (s.wr F.CLK_STAT_trim_limit 1).setInt F.CLK_INT_trim_limit
  else s.wr F.CLK_STAT_trim_limit 0

/-! ## Ramps (R303, R304) -/

/-- CLK_STAT.ramp_busy follows the dividers. -/
def reviewRamp (s : State) : State :=
  s.wr F.CLK_STAT_ramp_busy (b2n (s.clk.rampFabric != 1 || s.clk.rampDatapath != 1 || s.clk.rampPool != 1))

/-- A synthesiser that starts, or SYS that returns from the oscillator directly, brings its domain up through the ramp. -/
def startRamp (s : State) (x : Synth) : State :=
  let fresh := s.clk.stopped.contains x
  let s := s.onClk fun c => { c with stopped := c.stopped.filter (· != x) }
  match x with
  | .sys =>
    if s.flag F.CLK_STAT_fabric_direct then
      ((s.wr F.CLK_STAT_fabric_direct 0).onClk fun c => { c with rampFabric := 16 }).reviewRamp
    else s
  | .line => if fresh then (s.onClk fun c => { c with rampDatapath := 16 }).reviewRamp else s
  | .pool => if fresh then (s.onClk fun c => { c with rampPool := 16 }).reviewRamp else s
  | _ => s

/-- The synthesisers stop in STANDBY and SLEEP: their locks are gone. -/
def stopSynths (s : State) (xs : List Synth) : State :=
  let s := xs.foldl (fun s x => s.setLock x false) s
  s.onClk fun c => { c with stopped := xs ++ c.stopped.filter (!xs.contains ·), relocking := c.relocking.filter (!xs.contains ·) }

/-! ## Gates (R305, R306) -/

/-- Some transmitter-disable output is released (R305, R348). -/
def ldisReleased (s : State) : Bool := s.safe.lane.toList.any (· != .safe)

/-- The HSK and BIAS gates are held open while a transmitter-disable output is released. -/
def gateHeld (s : State) (i : Nat) : Bool := decide (i < 2) && !bitOf (s.reg R.CLK_GATE).toNat i && s.ldisReleased

/-- A gate is open to a new access: 0 HSK, 1 BIAS, 2 BIST, 3 CAP. -/
def gateOpen (s : State) (i : Nat) : Bool := bitOf (s.reg R.CLK_GATE).toNat i || s.gateHeld i

/-- CLK_GATE_STAT: a gate that waits for an access to end is still open in force. -/
def gateStat (s : State) : Nat :=
  (List.range 4).foldl (fun m i => m + (if s.gateOpen i || bitOf s.clk.closing i then 2 ^ i else 0)
    + (if s.gateHeld i then 2 ^ (4 + i) else 0)) 0

/-- What the CLK block's status registers read. -/
def viewClk (s : State) (a : Nat) : Option Word :=
  if a = R.CLK_GATE_STAT then some (BitVec.ofNat 32 s.gateStat)
  else if a = R.CLK_STAT then some (if s.trimActs then s.reg a else putField (s.reg a) 10 2 0)
  else none

end State

open State

/-- MON_WINDOW_END (R194, R213, R297, R298): HL0_REF_STAT.spread_seen shows whether a modulation was found in the last window
(DESIGN CHOICE, log entry 84: the spec does not say when the bit changes); the monitor stands in STANDBY and SLEEP. -/
def execMonWindowEnd (count : Nat) (modulated : Bool) (s : State) : Out :=
  if 2 ≤ s.pwr.pstate then .next s
  else .next ((s.wr (F.HL0_REF_STAT_spread_seen 0) (b2n modulated)).monWindow count)

/-- REFCLK_LOSS (R298, R299). -/
def execRefclkLoss (s : State) : Out :=
  if 2 ≤ s.pwr.pstate then .next s else .next s.refFail

/-- SYNTH_RELOCK (R299, R300, R303, R304). -/
def execSynthRelock (synth : Synth) (s : State) : Out :=
  let s := (s.setLock synth true).startRamp synth
  if s.clk.relocking.isEmpty then .next s
  else
    let s := s.onClk fun c => { c with relocking := c.relocking.filter (· != synth) }
    .next (if s.clk.relocking.isEmpty then s.switchDone else s)

/-- TRIM_MEASURE (R302). -/
def execTrimMeasure (tsync : Bool) (count : Nat) (s : State) : Out :=
  if !s.trimTakes tsync count then .next s
  else
    let err := s.trimError tsync count
    -- in units of 0.1 ppm, halves away from zero: DESIGN CHOICE (log entry 126)
    let tenths := satI (-32768) 32767 (roundDiv (10 * err.1) err.2)
    let s := (s.wr F.CLK_OSC_ERR_err (ofSigned 16 tenths)).wr F.CLK_OSC_ERR_valid 1
    .next ((s.wr F.CLK_STAT_trim_act (if tsync then 2 else 1)).trimStep err)

/-- RAMP_STEP (R303). -/
def execRampStep (domain : Fin 3) (s : State) : Out :=
  let half (n : Nat) : Nat := Nat.max 1 (n / 2)
  let s := s.onClk fun c =>
    match domain with
    | 0 => { c with rampFabric := half c.rampFabric }
    | 1 => { c with rampDatapath := half c.rampDatapath }
    | 2 => { c with rampPool := half c.rampPool }
  .next s.reviewRamp

/-- The reference that the multiplexer selects is good (R298, R301). -/
def State.refGoodNow (s : State) : Bool :=
  if s.clk.selOsc then !s.flag F.CLK_STAT_osc_fail else s.flag F.CLK_STAT_ref_ok

/-- PLL_UNLOCK (R304): while its reference is good SYS gives the fabric to the oscillator at once; any other is flagged and
logged. -/
def execPllUnlock (synth : Synth) (s : State) : Out :=
  let s := s.setLock synth false
  match synth with
  | .sys => if !s.refGoodNow then .next s else .next (((s.wr F.CLK_STAT_fabric_direct 1).onClk fun c => { c with rampFabric := 1 }).reviewRamp)
  | _ => .next ((s.setInt F.CLK_INT_pll_unlock).logEvent srcClk 0x1003 (synthBit synth) 0)

end Sys2Proof.Machine
end

