-- ==== Sys2Proof/Machine/Safe.lean ====
section
/-!
DEFINITION. The laser-safety partition (R348–R354): the causes of the safe state, the way into it and out of it, the writes
that only IG-S may make, and the TXDIS pin.
-/

namespace Sys2Proof.Machine

namespace State

def onSafe (s : State) (f : Safe → Safe) : State := { s with safe := f s.safe }
def onBias (s : State) (n : Fin 16) (f : BiasCh → BiasCh) : State :=
  { s with bias := { s.bias with ch := s.bias.ch.set n (f s.bias.ch[n]) } }

/-- A unit of self-test has a result other than PASS (R368): NOT_RUN is no result. -/
def unitFailed (s : State) (u : Nat) : Bool := decide (2 ≤ s.rd (F.BIST_RESk_result u))

/-- The bias channels mapped to a lane (SAFE_BDn_VAL.lane). -/
def mapped (s : State) (n : Fin 8) : List (Fin 16) :=
  (List.finRange 16).filter fun c => s.rd (F.SAFE_BDn_VAL_lane c) == n.val

/-- A cause of *Safe-state causes* covers the lane. Until IG-S reports running every lane is covered, and every lane while
IG-S's self-test has failed (R348, R349, R368). -/
def safeCause (s : State) (n : Fin 8) : Bool :=
  !s.safe.igsRun || !bitOf (s.rd F.SAFE_LANE_req) n || s.safe.txdis || s.safe.bscan || s.safe.pwrHold
    || bitOf (s.rd F.SAFE_FAULT_sc) n || bitOf (s.rd F.SAFE_FAULT_igs) n || s.flag F.SAFE_FAULT_wdog
    || s.flag F.SAFE_FAULT_thermal || s.unitFailed 24

/-- The safe code under clamp_hi (R350). -/
def safeCode (s : State) (c : Fin 16) : Nat := Nat.min (s.rd (F.SAFE_BDn_VAL_safe c)) (s.rd (F.SAFE_BDn_LIM_clamp_hi c))

/-- A mapped channel takes its safe code at once, without the ramp limit, once it is released (R348, R350). -/
def jumpSafe (s : State) (c : Fin 16) : State :=
  if s.bias.ch[c].released ∧ s.cfgOn (F.BIAS_CHn_CTRL_en c) ∧ !s.flag F.BIAS_STAT_hold0
    then s.onBias c fun b => { b with codeOut := s.safeCode c } else s

/-- A lane enters the safe state (R348). -/
def enterSafe (s : State) (n : Fin 8) : State :=
  let s := s.onSafe fun f => { f with lane := f.lane.set n .safe }
  ((s.mapped n).foldl (fun s c => s.jumpSafe c) s).setInt F.SAFE_INT_safe_entry

/-- A lane leaves the safe state: LDIS is released, its mapped channels are released and ramp, and the DAC hold ends at
once where no channel is mapped (R348, R350). -/
def leaveSafe (s : State) (n : Fin 8) : State :=
  let cs := s.mapped n
  let s := s.onSafe fun f => { f with lane := f.lane.set n (if cs.isEmpty then .active else .ramping) }
  cs.foldl (fun s c => s.onBias c fun b => { b with released := true }) s

/-- Hold one lane against its causes. -/
def reviewSafeLane (s : State) (n : Fin 8) : State :=
  if s.safeCause n then (if s.safe.lane[n] = .safe then s else s.enterSafe n)
  else if s.safe.lane[n] = .safe then s.leaveSafe n else s

/-- A current limit that stands on a mapped channel latches its lane's fault while sc_en = 1 (R348). -/
def latchSc (s : State) : State :=
  if !s.flag F.SAFE_CTRL_sc_en then s
  else
    let hit := (List.finRange 8).filter fun n => (s.mapped n).any fun c => bitOf (s.rd F.BIAS_STAT_sc) c
    hit.foldl (fun s n => s.wrBit F.SAFE_FAULT_sc n.val true) s

/-- Hold every lane against its causes. -/
def reviewSafe (s : State) : State := (List.finRange 8).foldl (fun s n => s.reviewSafeLane n) s.latchSc

/-- A write that IG-S makes to a SAFE register: `mask` is its writable bits; a 0 written to SAFE_FAULT.thermal is ignored
(R354). -/
def safeWrite (s : State) (a : Nat) (mask v : Word) : State :=
  let old := s.reg a
  let new := (old &&& ~~~ mask) ||| (v &&& mask)
  let new := if a = R.SAFE_FAULT then new ||| (old &&& 0x20000) else new
  (s.setReg a new).reviewSafe

/-- A write from any other source is rejected (R352). -/
def safeReject (s : State) : State := (s.bump R.SAFE_WR_REJ_CNT).setInt F.SAFE_INT_wr_rej

/-- Every SPW field returns to its hard-reset value, except SAFE_FAULT.thermal (R351). -/
def safeDefaults (s : State) : State :=
  let s := (s.setReg R.SAFE_CTRL (resetWord R.SAFE_CTRL)).setReg R.SAFE_LANE 0
  let s := s.setReg R.SAFE_FAULT (s.reg R.SAFE_FAULT &&& 0x20000)
  (List.range 16).foldl (fun s n =>
    (s.setReg (R.SAFE_BDn_LIM n) (resetWord (R.SAFE_BDn_LIM n))).setReg (R.SAFE_BDn_VAL n) (resetWord (R.SAFE_BDn_VAL n))) s

/-- LASER on would be DENIED for a lane (R351). Whether a finding of IG-S's program still stands is the program's own
matter and not in the state: it is a free value (log entry 18). -/
def laserDenied (s : State) (n : Fin 8) : Bool :=
  s.safe.txdis || s.safe.bscan || s.flag F.SAFE_FAULT_thermal
    || (bitOf (s.rd F.SAFE_FAULT_sc) n && (s.mapped n).any fun c => bitOf (s.rd F.BIAS_STAT_sc) c)
    || (bitOf (s.rd F.SAFE_FAULT_igs) n && bitOf s.freeNat n)

/-- LDISn, asserted in the safe state; until IG-S reports running it follows TXDIS alone where SAFEDEF was sampled as 0 (R348,
R349). It is high while RESET_N is low, and its pull-up holds it high while VDD_AON is off (R418). -/
def ldis (s : State) (n : Fin 8) : Bool :=
  if s.boot.resetLow || !s.boot.aonUp then true
  else if !s.safe.igsRun && s.boot.phase != .reset && !s.flag F.SEC_STRAP_safedef then s.safe.txdis else s.safe.lane[n] == .safe

/-- The lanes in the safe state. -/
def safeMask (s : State) : Nat := (List.finRange 8).foldl (fun m n => m + (if s.safe.lane[n] = .safe then 2 ^ n.val else 0)) 0

/-- The channels released under R350. -/
def releasedMask (s : State) : Nat :=
  (List.finRange 16).foldl (fun m c => m + (if s.bias.ch[c].released then 2 ^ c.val else 0)) 0

/-- What SAFE_STAT reads (R354). -/
def viewSafe (s : State) (a : Nat) : Option Word :=
  if a = R.SAFE_STAT then
    some (BitVec.ofNat 32 (s.safeMask + 2 ^ 8 * b2n s.safe.txdis + 2 ^ 9 * b2n s.safe.bscan + 2 ^ 10 * b2n s.safe.igsRun
      + 2 ^ 11 * b2n s.safe.pwrHold + 2 ^ 16 * s.releasedMask))
  else none

/-- TXDIS changes its level (R348, R352): an assertion sets txdis_seen. -/
def txdisLevel (s : State) (high : Bool) : State :=
  if s.safe.txdis = high then s
  else
    let s := (s.onSafe fun f => { f with txdis := high }).raiseEv 1 9
    (if high then s.wr F.SAFE_FAULT_txdis_seen 1 else s).reviewSafe

end State

/-- TXDIS_CHANGE (R348). -/
def execTxdisChange (high : Bool) (s : State) : Out := .next (s.txdisLevel high)

end Sys2Proof.Machine
end

