-- ==== Sys2Proof/Machine/Bias.lean ====
section
/-!
DEFINITION. The bias DACs (R331–R337) under the limits of the safety partition (R348, R350).
-/

namespace Sys2Proof.Machine

namespace State

/-- The outputs hold their codes: the gate is closed, or the device is in STANDBY (R337). -/
def biasFrozen (s : State) : Bool := !s.gateOpen 1 || s.pwr.pstate == 2

/-- The dither term (R333). -/
def ditherTerm (s : State) (n : Fin 16) : Int :=
  if s.cfgOn (F.BIAS_CHn_CTRL_dith_en n) then
    let t := toSigned 16 (s.inForceReg (keyDither (s.bias.ch[n].phase / 2 ^ 14))).toNat
    roundDiv ((s.cfg (F.BIAS_CHn_DAMP_amp n) : Int) * t) 32767 + toSigned 12 (s.cfg (F.BIAS_CHn_DAMP_doffs n))
  else 0

/-- The pennant offset of a bias channel, on path 1 (R215). -/
def biasPennant (s : State) (n : Fin 16) (now : Nat) : Int :=
  if s.cfgOn F.PEN_CTRL_path ∧ s.cfg F.PEN_CTRL_bd = n.val then
    s.penAt now * roundDiv ((s.penDepth : Int) * s.cfg (F.BIAS_CHn_CODE_code n)) 100
  else 0

/-- code + d + p (R332). -/
def biasSum (s : State) (n : Fin 16) (now : Nat) : Int :=
  (s.cfg (F.BIAS_CHn_CODE_code n) : Int) + s.ditherTerm n + s.biasPennant n now

/-- The lane that a channel is mapped to is in the safe state. -/
def channelSafe (s : State) (n : Fin 16) : Bool :=
  (List.finRange 8).any fun l => s.rd (F.SAFE_BDn_VAL_lane n) == l.val && s.safe.lane[l] == .safe

/-- The target of R350, before clamp_hi. -/
def biasTarget (s : State) (n : Fin 16) (now : Nat) : Int :=
  if !s.bias.ch[n].released then s.rd (F.SAFE_BDn_VAL_pwrup n)
  else if s.channelSafe n then s.rd (F.SAFE_BDn_VAL_safe n)
  else s.biasSum n now

/-- code_out re-expressed in a range that a commit has changed (R334, log entry 19). -/
def biasRange (s : State) (n : Fin 16) : State :=
  let g := s.cfg (F.BIAS_CHn_CTRL_gain n)
  s.onBias n fun b =>
    if b.gainUsed = g then b
    else { b with gainUsed := g,
                  codeOut := Nat.min 4095 (roundDiv ((b.codeOut : Int) * (b.gainUsed + 1)) (g + 1)).toNat }

/-- One update of one channel (R332, R350): the new code, whether clamp_hi or the ramp limit acted, and whether the ramp
limit did. -/
def biasMove (s : State) (n : Fin 16) (now : Nat) : Int × Bool × Bool :=
  let t := s.biasTarget n now
  let top : Int := s.rd (F.SAFE_BDn_LIM_clamp_hi n)
  let t' := if top < t then top else t
  let r : Int := Nat.max 1 (s.rd (F.SAFE_BDn_LIM_ramp n))
  let cur : Int := s.bias.ch[n].codeOut
  let jump := s.bias.ch[n].released && s.channelSafe n
  let v := if jump then t' else satI (cur - r) (cur + r) t'
  (v, top < t || v != t', v != t')

/-- One channel's update: its new code, its flags, its phase and, for an unmapped channel, its release. -/
def biasStep (s : State) (n : Fin 16) (now : Nat) : State :=
  let s := s.biasRange n
  if !s.cfgOn (F.BIAS_CHn_CTRL_en n) then
    s.onBias n fun b => { b with codeOut := 0, clamped := false, sat := false, phase := 0 }
  else
    let (v, clamped, _) := s.biasMove n now
    let out := (satI 0 4095 v).toNat
    let phase := if s.cfgOn (F.BIAS_CHn_CTRL_dith_en n) then
        (s.bias.ch[n].phase + s.cfg (F.BIAS_CHn_DFREQ_fw n)) % 2 ^ 24 else 0
    let free := decide (8 ≤ s.rd (F.SAFE_BDn_VAL_lane n)) && out == s.rd (F.SAFE_BDn_VAL_pwrup n)
    s.onBias n fun b =>
      { b with codeOut := out, clamped := clamped, sat := v != out, phase := phase, released := b.released || free }

/-- A channel stands at its target: the ramp limit did not hold the last update back. A disabled one has none. -/
def biasReached (s : State) (before : State) (n : Fin 16) (now : Nat) : Bool :=
  !s.cfgOn (F.BIAS_CHn_CTRL_en n) || !(before.biasMove n now).2.2

/-- The DAC hold of a lane ends when every mapped channel has reached its target (R348). -/
def endRamp (s before : State) (now : Nat) : State :=
  (List.finRange 8).foldl (fun s n =>
    if s.safe.lane[n] = .ramping ∧ (s.mapped n).all (fun c => s.biasReached before c now)
      then s.onSafe fun f => { f with lane := f.lane.set n .active } else s) s

/-- The update of every channel. While the outputs are frozen only the dither phases are reset, as dither stops. -/
def biasUpdate (s : State) (now : Nat) : State :=
  if s.flag F.BIAS_STAT_hold0 then s
  else if s.biasFrozen then (List.finRange 16).foldl (fun s n => s.onBias n fun b => { b with phase := 0 }) s
  else
    let ranged := (List.finRange 16).foldl (fun s n => s.biasRange n) s
    (((List.finRange 16).foldl (fun s n => s.biasStep n now) s).endRamp ranged now).auxSettled 1

/-- The 0 V hold of R335. -/
def biasHold (s : State) : State :=
  let s := s.wr F.BIAS_STAT_hold0 1
  (List.finRange 16).foldl (fun s n => s.onBias n fun b => { b with codeOut := 0, clamped := false, sat := false, phase := 0 }) s

/-- A channel's current stands at its limit, or no longer does (R336): the onset is counted and latches a lane's fault. -/
def biasLimit (s : State) (c : Fin 16) (atLimit : Bool) : State :=
  let was := bitOf (s.rd F.BIAS_STAT_sc) c
  if was = atLimit then s
  else
    let s := ((s.wrBit F.BIAS_STAT_sc c.val atLimit).raiseEv 1 10).raiseEv 3 10
    if atLimit then
      let s := (s.bump R.BIAS_SC_CNT).setIntBit F.BIAS_INT_sc c
      (s.logEvent srcBias 0x4004 c.val 0).reviewSafe
    else s

/-- The voltage of pin BDOUTn in units of 1.25 V / 4,096 (R331, R335): a channel that is disabled or held drives 0 V. -/
def biasPin (s : State) (n : Fin 16) : Nat := s.bias.ch[n].codeOut * (s.bias.ch[n].gainUsed + 1)

/-- What the BIAS status registers read (R339). -/
def viewBias (s : State) (a : Nat) : Option Word :=
  if a = R.BIAS_STAT then some (putField (s.reg a) 17 1 (b2n s.biasFrozen))
  else
    match (List.finRange 16).find? fun n => R.BIAS_CHn_OUT n.val == a with
    | some n =>
      let b := s.bias.ch[n]
      some (BitVec.ofNat 32 (b.codeOut + 2 ^ 12 * b2n b.clamped + 2 ^ 13 * b2n b.sat))
    | none => none

end State

/-- BIAS_UPDATE (R332): every 100 ns. -/
def execBiasUpdate (now : Nat) (s : State) : Out := .next (s.biasUpdate now)

/-- BIAS_CURRENT_LIMIT (R336). -/
def execBiasCurrentLimit (ch : Fin 16) (atLimit : Bool) (s : State) : Out := .next (s.biasLimit ch atLimit)

end Sys2Proof.Machine
end

