-- ==== Sys2Proof/Machine/MemErr.lean ====
section
/-!
DEFINITION. What an uncorrectable read does (R357), and reads of the datapath that return poison (R358).
-/

namespace Sys2Proof.Machine

namespace State

/-- An uncorrectable read (R357). `loc` is a DRAM byte address / 8, or an SRAM macro × 8,192 + word. -/
def uncorrectable (s : State) (dram scrub : Bool) (loc syndrome : Nat) : State :=
  let a := if dram then 2 ^ 31 + loc / 8 % 2 ^ 26 else loc % 2 ^ 22
  let s := s.bump (if dram then R.MEM_DRAM_UE_CNT else R.MEM_SRAM_UE_CNT)
  let s := s.setReg R.MEM_ERR_ADDR (BitVec.ofNat 32 a)
  let s := s.setReg R.MEM_ERR_INFO (BitVec.ofNat 32 (b2n scrub + 2 * (syndrome % 256)))
  (s.setInt F.MEM_INT_ue).logEvent srcMem 0x3001 syndrome a

/-- A corrected read (R357). -/
def corrected (s : State) (dram : Bool) : State :=
  s.bump (if dram then R.MEM_DRAM_CE_CNT else R.MEM_SRAM_CE_CNT)

/-- A word of the datapath is read with poison. Whether it was stored with the poison code, which counts nowhere, or is
uncorrectable itself is not in the state: the syndrome is free (log entry 13). -/
def poisonRead (s : State) (dram : Bool) (loc : Nat) : State :=
  let syn := s.freeNat % 256
  let s := s.drew
  if syn = 255 then s else s.uncorrectable dram false loc syn

/-- The same in the shared SRAM, whose layout the spec does not give: the location is free too. -/
def poisonReadShared (s : State) : State :=
  let loc := s.freeNat % 2 ^ 21
  (s.drew).poisonRead false (2 ^ 21 + loc)

/-- A syndrome of one wrong bit (R357): of weight 1, or of odd weight and a column of the check matrix. -/
def singleBit (syn : Nat) : Bool :=
  popCount 8 syn == 1 || (popCount 8 syn % 2 == 1 && Config.hsiaoColumn syn)

/-- A stored word is read: 1 one bit is corrected and written back, 2 two bits are uncorrectable, 3 the poison code. The
answer is what stands in the word after the read, and whether the read returns poison (R357, R358). The syndrome of two
flipped bits is that of the check matrix, so a free value. An SRAM location that the spec does not place is free too. -/
def eccRead (s : State) (dram : Bool) (loc : Option Nat) (code : Nat) : State × Nat × Bool :=
  match code with
  | 0 => (s, 0, false)
  | 1 => (s.corrected dram, 0, false)
  | 2 =>
    let syn := 1 + s.freeNat % 254
    let s := s.drew
    match loc with
    | some l => (s.uncorrectable dram false l syn, 2, true)
    | none =>
      let l := s.freeNat % 2 ^ 21
      ((s.drew).uncorrectable dram false (2 ^ 21 + l) syn, 2, true)
  | n => (s, n, true)

/-- A word is written in part: the rest of it is read first, and a word that reads as poison is stored with the poison code
(DEDUCED, log entry 14). -/
def eccPart (s : State) (dram : Bool) (loc : Option Nat) (code : Nat) : State × Nat :=
  let (s, _, poison) := s.eccRead dram loc code
  (s, if poison then 3 else 0)

end State

end Sys2Proof.Machine
end

