-- ==== Sys2Proof/Machine/Dram.lean ====
section
/-!
DEFINITION. Accesses to DRAM (R356–R361): bytes, valid blocks and check bits, each in its canonical sparse form.
-/

namespace Sys2Proof.Machine

namespace State

def onMem (s : State) (f : MemState → MemState) : State := { s with mem := f s.mem }

/-- The DRAM byte at an address: an invalid or unwritten one reads 0 (R360). -/
def dramByte (s : State) (a : Nat) : Byte := mapGet 0 s.mem.dram a

/-- `n` bytes from an address. -/
def dramBytes (s : State) (a n : Nat) : List Byte := (List.range n).map fun i => s.dramByte ((a + i) % 2 ^ 32)

/-- What stands in the 64-bit word at a byte address beside correct check bits (R358). -/
def dramCode (s : State) (a : Nat) : Nat := mapGet 0 s.mem.dramEcc (a / 8)

def setDramCode (s : State) (a code : Nat) : State :=
  s.onMem fun m => { m with dramEcc := mapSet 0 m.dramEcc (a / 8 % 2 ^ 29) code }

/-- A line of the SRAM is valid (R360). -/
def sramLineValid (s : State) (loc : Nat) : Bool := decide (2 ^ 21 ≤ loc) || mapGet false s.mem.sramValid (loc / 8)

/-- The DRAM block of a byte address is valid (R360). -/
def dramBlockValid (s : State) (a : Nat) : Bool := mapGet false s.mem.dramValid (a / 4096)

/-- A bank of a pseudo-channel is lost: every read of it returns poison (R356, R362). -/
def dramLost (s : State) (a : Nat) : Bool := mapGet false s.mem.banksLost (bitsOf a 12 5 * 16 + bitsOf a 17 4)

/-- The word at a byte address is read (R357, R362): whether the read returns poison. -/
def dramReadWord (s : State) (a : Nat) : State × Bool :=
  if s.dramLost a then (s, true)
  else if s.dramCode a = 0 then (s, false)
  else
    let (s, code, poison) := s.eccRead true (some (a / 8)) (s.dramCode a)
    (s.setDramCode a code, poison)

/-- The 64-bit words that `n` bytes from an address touch are read: whether some read returns poison. -/
def dramRead (s : State) (a n : Nat) : State × Bool :=
  (List.range ((a + n + 7) / 8 - a / 8)).foldl
    (fun (s, p) i => let (s, q) := s.dramReadWord ((a / 8 + i) * 8 % 2 ^ 32); (s, p || q)) (s, false)

/-- A word that is written whole is stored with its correct check bits; another keeps what the rest of it carries. -/
def dramWriteWord (s : State) (w a n : Nat) : State :=
  if s.dramCode (8 * w) = 0 then s
  else if a ≤ 8 * w ∧ 8 * w + 8 ≤ a + n then s.setDramCode (8 * w) 0
  else
    let (s, code) := s.eccPart true (some w) (s.dramCode (8 * w))
    s.setDramCode (8 * w) code

/-- Write bytes: the block becomes valid (R360). -/
def dramWrite (s : State) (a : Nat) (bs : List Byte) : State :=
  let n := bs.length
  let s := (List.range ((a + n + 7) / 8 - a / 8)).foldl (fun s i => s.dramWriteWord ((a / 8 + i) % 2 ^ 29) a n) s
  s.onMem fun m =>
    let m := bs.zipIdx.foldl (fun m (b, i) => { m with dram := mapSet 0 m.dram ((a + i) % 2 ^ 32) b }) m
    (List.range ((a + n + 4095) / 4096 - a / 4096)).foldl
      (fun m i => { m with dramValid := mapSet false m.dramValid ((a / 4096 + i) % 2 ^ 20) true }) m

/-- Clear the valid bits of blocks `lo` to `hi − 1`: they read as zero from then on (R361). -/
def dramClear (s : State) (lo hi : Nat) : State :=
  s.onMem fun m =>
    let out (k b : Nat) : Bool := decide (k / b < lo) || decide (hi ≤ k / b)
    { m with dram := m.dram.filter fun c => out c.1 4096, dramValid := m.dramValid.filter fun c => out c.1 1,
             dramEcc := m.dramEcc.filter fun c => out c.1 512 }

/-- Clear the valid bits of one bank (R356, R361, R362). -/
def dramClearBank (s : State) (pc bank : Nat) : State :=
  let out (a : Nat) : Bool := bitsOf a 12 5 != pc || bitsOf a 17 4 != bank
  s.onMem fun m =>
    { m with dram := m.dram.filter fun c => out c.1, dramValid := m.dramValid.filter fun c => out (c.1 * 4096),
             dramEcc := m.dramEcc.filter fun c => out (c.1 * 8) }

end State

end Sys2Proof.Machine
end

