-- ==== Sys2Proof/Machine/Events.lean ====
section
/-!
DEFINITION. The event recorder: acceptance, the kept and circulating areas, the holding queue, the read window and the
watch (R391–R397), and the trigger of a deep capture (R401).
-/

namespace Sys2Proof.Machine

namespace State

def onEvr (s : State) (f : Evr → Evr) : State := { s with evr := f s.evr }

/-- EVR_CTRL.freeze (R396). -/
def evrFrozen (s : State) : Bool := s.flag F.EVR_CTRL_freeze

/-- Write an entry into its area: index 0–255 is kept, later ones circulate through 1,024 slots (R393). -/
def writeEntry (s : State) (x : EvrEntry) : State :=
  let i := s.evr.wr
  let s := s.onEvr fun e =>
    if i < 256 then { e with kept := e.kept ++ [x], wr := i + 1 }
    else { e with circ := (e.circ ++ [x]).drop (e.circ.length + 1 - 1024), wr := i + 1 }
  if i = 255 then s.setInt F.EVR_INT_kept_full else s

/-- The watch (R397): a mask of 0 disables it. -/
def watchHit (s : State) (x : EvrEntry) : Bool :=
  let m := s.rd F.EVR_WATCH_mask
  m != 0 && x.code &&& m == s.rd F.EVR_WATCH_code &&& m

/-- Mark the trigger of an armed capture (R401): `captured` bytes have been written to the ring by then, and a trigger
before the pre-trigger share of the ring is filled sets pre_short. -/
def capTrigger (s : State) (code index captured : Nat) : State :=
  let short := decide (captured * 100 < s.cap.preShare * s.cap.len)
  let s := { s with cap := { s.cap with phase := 2, trigIndex := index, trigTime := s.dp.time.count / (5 * 2 ^ 48) % 2 ^ 32,
                                        trigAon := s.evr.time } }
  let s := (s.wr F.CAP_STAT_state 2).wr F.CAP_STAT_pre_short (b2n short)
  s.logEvent srcCap 0xC001 s.cap.lane code

/-- An accepted entry is tested against the watch and against an armed capture's code (R397, R401); while the recorder is
frozen or has not started it goes to the holding queue, which drops it when full (R396). -/
def acceptEntry (s : State) (x : EvrEntry) (captured : Nat) : State :=
  let s := if s.watchHit x then s.setInt F.EVR_INT_watch else s
  let s := if s.cap.phase = 1 ∧ x.code = s.cap.trigCode then s.capTrigger x.code s.evr.wr captured else s
  if s.evrFrozen || !s.evr.recording then
    if s.evr.hold.length < 32 then s.onEvr fun e => { e with hold := e.hold ++ [x] }
    else (s.bump R.EVR_HOLD_OVF_CNT).setInt F.EVR_INT_hold_ovf
  else s.writeEntry x

/-- Append the holding queue in order, with held set in each entry (R396). -/
def appendHeld (s : State) : State :=
  let q := s.evr.hold
  q.foldl (fun s x => s.writeEntry { x with held := true }) (s.onEvr fun e => { e with hold := [] })

/-- The recorder restarts empty, with the index at 0 (R393). Waiting events stay. -/
def evrRestart (s : State) (why : Nat) (recording : Bool) : State :=
  (s.onEvr fun e => { e with wr := 0, kept := [], circ := [], hold := [], recording := recording }).wr
    F.EVR_STAT_restart why

/-- The entry at an index, if the device holds it (R393). -/
def entryAt (s : State) (i : Nat) : Option EvrEntry :=
  if i < 256 then s.evr.kept[i]?
  else if s.evr.wr - s.evr.circ.length ≤ i then s.evr.circ[i - (s.evr.wr - s.evr.circ.length)]? else none

end State

/-- The four window words of an entry (R391). -/
def EvrEntry.words (x : EvrEntry) : List Word :=
  [BitVec.ofNat 32 x.time,
   BitVec.ofNat 32 (x.time / 2 ^ 32 % 2 ^ 16 + 2 ^ 16 * x.source + 2 ^ 24 * b2n x.held),
   BitVec.ofNat 32 (x.code + 2 ^ 16 * x.argA),
   BitVec.ofNat 32 x.argB]

namespace State

/-- A read of EVR_WIN0 latches the entry at the cursor, or flags gone or future (R395). -/
def evrWin0 (s : State) : State :=
  let i := s.rd F.EVR_CURSOR_index
  let future := decide (s.evr.wr % 2 ^ 32 ≤ i)
  let e := if future then none else s.entryAt i
  let s := (s.wr F.EVR_WIN_STAT_future (b2n future)).wr F.EVR_WIN_STAT_gone (b2n (!future && e.isNone))
  s.onEvr fun v => { v with latched := match e with | some x => x.words | none => [0, 0, 0, 0] }

/-- Word `k` of the latched copy. -/
def evrWord (s : State) (k : Nat) : Word := s.evr.latched.getD k 0

/-- What the recorder's typed status registers read (R406). -/
def viewEvr (s : State) (a : Nat) : Option Word :=
  if a = R.EVR_STAT then
    some (putField (putField (s.reg a) 0 1 (b2n s.evr.recording)) 1 6 s.evr.hold.length)
  else if a = R.EVR_WR_INDEX then some (BitVec.ofNat 32 s.evr.wr)
  else if a = R.EVR_TIME_LO then some (BitVec.ofNat 32 s.evr.time)
  else if a = R.EVR_TIME_HI then some (BitVec.ofNat 32 (s.evr.time / 2 ^ 32 % 2 ^ 16))
  else if R.EVR_WINk 0 ≤ a ∧ a ≤ R.EVR_WINk 3 then some (s.evrWord ((a - R.EVR_WINk 0) / 4))
  else none

end State

/-- EVENT_ACCEPT (R394): one waiting event, of the lowest source, is accepted. -/
def execEventAccept (captured : Nat) (s : State) : Out :=
  match s.evr.waiting with
  | [] => .next s
  | x :: t => .next ((s.onEvr fun e => { e with waiting := t }).acceptEntry x captured)

/-- The effect of writing EVR_CTRL.freeze (R396): clearing it appends the queue. -/
def State.evrFreeze (s : State) (freeze : Bool) : State :=
  let s := s.wr F.EVR_CTRL_freeze (b2n freeze)
  if freeze || !s.evr.recording then s else s.appendHeld

end Sys2Proof.Machine
end

