-- ==== Sys2Proof/Machine/SlotOrder.lean ====
section
/-!
DEFINITION. The order of sequence numbers and of superframes, and the nominal slots of the numbers of a range (R37, R175).
-/

namespace Sys2Proof.Machine

namespace State

/-- How far sequence number `q` lies past `base`, modulo 2^18 (R37). -/
def seqAhead (base q : Nat) : Nat := (q + 2 ^ 18 - base % 2 ^ 18) % 2 ^ 18

end State

/-! ## Nominal slots (R175) -/

/-- Superframe `a` lies before superframe `b`, modulo 2^32. -/
def sfcBefore (a b : Nat) : Bool :=
  let d := (b % 2 ^ 32 + 2 ^ 32 - a % 2 ^ 32) % 2 ^ 32
  decide (0 < d) && decide (d < 2 ^ 31)

/-- Sequence numbers `lo` to `hi − 1` of a range that starts at `n0`, over the candidate holes of their interval and the slot
that bounds it: number, nominal slot, and whether LEDGER_RX_AMBIG_CNT counts it (R175). -/
def assignHoles (n0 lo hi : Nat) (holes : List Slot) (bound : Option Slot) : List (Nat × Option Slot × Bool) :=
  (List.range (hi - lo)).map fun k =>
    ((n0 + lo + k) % 2 ^ 18, (match holes[k]? with | some h => some h | none => bound),
     decide (hi - lo < holes.length) || decide (holes.length ≤ k))

/-- The nominal slots of the unidentified numbers of a range of `n` numbers from `n0`, over its slots in slot order. -/
def resolveRange (n0 n : Nat) (slots : List Slot) : List (Nat × Option Slot × Bool) :=
  let st := slots.foldl (fun (st : Nat × List Slot × List (Nat × Option Slot × Bool)) x =>
    let (lo, holes, acc) := st
    let d := State.seqAhead n0 x.seq
    if x.cls = 0 then (lo, holes ++ [x], acc)
    else if x.cls = 1 ∧ d < n ∧ lo ≤ d then (d + 1, [], acc ++ assignHoles n0 lo d holes (some x))
    else st) (0, [], [])
  st.2.2 ++ assignHoles n0 st.1 n st.2.1 slots.getLast?

/-- The nominal slots of a closed range, over the slots of its superframes (R175). -/
def Range.resolve (g : Range) (slots : List Slot) : List (Nat × Option Slot × Bool) :=
  resolveRange g.lo (State.seqAhead g.lo g.hi)
    (slots.filter fun x => !sfcBefore x.sfc g.firstSfc && !sfcBefore g.lastSfc x.sfc)

end Sys2Proof.Machine
end

