-- ==== Sys2Proof/Machine/Link.lean ====
section
/-!
DEFINITION. Bring-up steps, failed attempts, link down, and entry to LINKED (R135–R159), as operations that the events of
the link share.
-/

namespace Sys2Proof.Machine

namespace State

/-- The link is up (R158). -/
def linkUp (s : State) : Bool := s.mgmt.dev = .linked || s.mgmt.dev = .degraded

/-- A link is up, or stands up behind QUIET, and an entry or a shutdown can take it down (*Entry by target*, R346). -/
def linkStands (s : State) : Bool :=
  s.linkUp || (s.mgmt.dev = .quiet && (s.pwr.heldState = .linked || s.pwr.heldState = .degraded))

/-- LEDGER_LINK_STAT.peer_seen: a valid pennant or an accepted message within the last loss_ms, by the always-on timestamp
(R161). -/
def peerSeen (s : State) : Bool :=
  match s.dp.link.peerSeenAt with
  | some t => decide ((s.evr.time - t) * 1000 < s.cfgMin1 F.LEDGER_LINK_TMO2_loss_ms * 32768)
  | none => false

/-- LEDGER_LINK_STAT (R161). -/
def linkStat (s : State) : Word :=
  let l := s.dp.link
  BitVec.ofNat 32 (l.step + 2 ^ 4 * l.status + 2 ^ 12 * l.peerStep + 2 ^ 16 * l.peerStatus
    + 2 ^ 24 * b2n s.dp.ledger.retryOn + 2 ^ 25 * b2n s.peerSeen)

/-- A fresh non-zero nonce (R141): its value is free. -/
def newNonce (s : State) : State :=
  (s.drew).onLink fun l => { l with nonce := 1 + s.freeNat % (2 ^ 32 - 1) }

/-- The DAC is squelched and no superframe is sent (R138, R158). -/
def squelchAll (s : State) : State :=
  s.cutSuperframe.onFramer fun f =>
    { f with start := false, laneStatus := 0, peerReq := 0, idleLeft := none, idle := false, tags := [], echoTag := 0,
             echoFrom := 0 }

/-- What a new attempt forgets. -/
def clearAttempt (s : State) : State :=
  s.onLink fun l =>
    { l with status := 0, cand := 0, answered := 0, gotFrom := 0, mismatch := false, compatSeen := false, restarts := 0,
             ignoring := false, readySent := false, samples := [], stable := 0,
             retrainReq := 0, reqSent := 0, peerTx := 0, peerTxBy := [], peerAlt := [], peerStuff := [],
             peerReady := 0 }

/-- Idle: state CONFIGURED (R135, R158). -/
def enterIdle (s : State) : State :=
  ((s.clearAttempt.onLink fun l => { l with step := 0 })).setDev .configured

/-- Step 1 (R135, R141): an INVITE is queued. -/
def enterStep1 (s : State) (keepNonce : Bool) : State :=
  let s := if keepNonce then s else s.newNonce
  ((s.clearAttempt.onLink fun l => { l with step := 1 }).setDev .bringup).queueInvite

/-- PARTNER_ABSENT (R138, R159), with a fresh nonce (R141). -/
def enterAbsent (s : State) (status : Nat) : State :=
  let s := (s.newNonce.clearAttempt.onLink fun l =>
    { l with step := 9, status := status, ignoring := status == 0x26 })
  ((s.bump R.LEDGER_LINK_ABSENT_CNT).setDev .partnerAbsent)

/-- The clock loop enters hold mode (R86). -/
def holdLoop (s : State) (n : Fin 8) : State :=
  let s := s.onRx n fun r => { r with loop := { r.loop with errs := [], atLimit := 0 } }
  (s.wr (F.OLn_CDR_STAT_holding n) 1).wr (F.OLn_CDR_STAT_locked n) 0

/-- The clock loop enters fallback with F = 0 (R86). Every entry counts but that at lane power-up; an entry of a loop that is in
fallback already is none. -/
def enterFallback (s : State) (n : Fin 8) : State :=
  let was := s.flag (F.OLn_CDR_STAT_fallback n)
  let s := s.onRx n fun r => { r with loop := { r.loop with phase := 0, freq := 0, errs := [], atLimit := 0 } }
  let s := (s.setReg (R.OLn_CDR_STAT n) 0x2).setReg (R.OLn_CDR_FREQ n) 0
  if was then s else (s.bump (R.OLn_CDR_FALLBACK_CNT n)).logEvent srcOl 0x6002 n.val 0

/-- Pilot search begins: the clock loop is in fallback and fde_acquired is cleared (R86, R97). -/
def enterSearch (s : State) (n : Fin 8) : State :=
  let s := s.onRx n fun r =>
    { r with fe := .search, equ := { r.equ with good := 0, ramp := 0, next := none, paused := false } }
  s.enterFallback n

/-- A lane's ensign lock and all that it has learnt are forgotten, and its front end searches anew (R97, R138). -/
def freshLane (s : State) (n : Fin 8) : State :=
  (s.onRx n fun r =>
    { r with lock := .off, matched := 0, misses := 0, ensignOk := false, full := false, heldIdle := false, expSfc := none,
             lastArrival := 0, firstSkew := none, alignRun := 0, ds := Destuff.initial }).enterSearch n

/-- Every active receive lane starts afresh from pilot search (R138). -/
def freshLanes (s : State) : State := s.activeLanes.foldl (fun s n => s.freshLane n) s

/-- Step 2 (R136, R142): superframes start at the next tick, with SFC 0. -/
def enterStep2 (s : State) (peer : Nat) : State :=
  let s := s.onLink fun l => { l with step := 2, status := 0, restarts := 0, peerNonce := peer }
  let s := s.setReg R.LEDGER_LINK_PEER (BitVec.ofNat 32 peer)
  let s := if s.dp.link.fresh then (s.freshLanes).onLink fun l => { l with fresh := false } else s
  s.onFramer fun f => { f with start := true, sfc := 0 }

/-- Step 1 is complete when an ACCEPT sent answers the partner's nonce and the partner has answered the own one (R142). -/
def tryStep2 (s : State) : State :=
  let l := s.dp.link
  if l.step = 1 ∧ l.gotFrom ≠ 0 ∧ l.answered = l.gotFrom then s.enterStep2 l.gotFrom else s

/-- A step's own measure starts anew. -/
def nextStep (s : State) (k : Nat) : State :=
  let s := s.onLink fun l =>
    { l with step := k, status := 0, restarts := 0, stable := 0, samples := [], readySent := false }
  if k = 4 then s.onDp fun d => { d with rx := d.rx.map fun r => { r with firstSkew := none } } else s

/-- The result of the round-trip measurement: the largest sample (R151). -/
def storeRtt (s : State) : State :=
  s.setReg R.LEDGER_LINK_RTT (BitVec.ofNat 32 (s.dp.link.samples.foldl Nat.max 0 % 2 ^ 24 + 2 ^ 24))

/-- Move on from each of steps 2 to 5 whose condition is met (*Bring-up steps*). -/
def advance2 (s : State) : State :=
  if s.dp.link.step = 2 ∧ s.activeLanes.all (s.acquired ·) then s.nextStep 3 else s
def advance3 (s : State) : State :=
  if s.dp.link.step = 3 ∧ s.activeLanes.all (fun n => s.dp.rx[n].lock = .locked) then s.nextStep 4 else s
def advance4 (s : State) : State :=
  if s.dp.link.step = 4 ∧ 16 ≤ s.dp.link.stable ∧ s.activeLanes.all (fun n => s.dp.rx[n].firstSkew.isSome) then s.nextStep 5 else s
def advance5 (s : State) : State :=
  if s.dp.link.step = 5 ∧ 64 ≤ s.dp.link.samples.length then s.storeRtt.nextStep 6 else s
def advanceSteps (s : State) : State := s.advance2.advance3.advance4.advance5

/-- A LINK command waits, its boundary passed (R269). -/
def linkWaits (s : State) : Bool :=
  s.running 1 && bitOf (s.arg 0) 2 && s.arg 0 % 4 != 0 && s.mgmt.cmdTaken && s.mgmt.linkSet.isNone

/-- A unit that the stopped receive half knows of: its range counts as fixed, and it is due by the nominal slot that its range
gives it, or by the last slot that was handed on. -/
def stopUnit (hold : Nat) (fixed : List (Nat × Option Slot × Bool)) (last : Option Slot) (u : RxUnit) : RxUnit :=
  let own := (fixed.find? (·.1 == u.seq)).bind (·.2.1)
  let nom := (u.nominal.orElse fun _ => own).orElse fun _ => last
  { u with inRange := true, nominal := nom, due := u.due.orElse fun _ => nom.map fun x => x.handOn + hold }

/-- The ledger stops (R158). The receive half goes on releasing the units that it knows of at their due times (R187): no slot
of theirs is handed on any more, so its closed ranges are resolved over those that have been (log entry 118). A line fault
then stands until the first unit of the next run is released. -/
def ledgerStop (s : State) : State :=
  s.onLedger fun l =>
    let fixed := l.ranges.flatMap fun g => g.resolve l.slots
    let last := l.slots.getLast?
    { l with txRun := false, rxRun := false, retryOn := false, records := [], ranges := [], lfDown := l.ran, lfAfter := none,
             lfDue := none, units := l.units.map (stopUnit (l.hRx * 2080 * 128) fixed last) }

/-- An attempt fails (R138). -/
def attemptFail (s : State) (code : Nat) : State :=
  let step := s.dp.link.step
  let s := s.bump R.LEDGER_LINK_ATTEMPT_CNT
  let consec := Nat.min 0xFFFF (s.rd F.LEDGER_LINK_FAIL_consec + 1)
  let s := ((s.wr F.LEDGER_LINK_FAIL_consec consec).wr F.LEDGER_LINK_FAIL_last_fail code).wr F.LEDGER_LINK_FAIL_fail_step step
  let s := s.logEvent srcLedger 0x8001 code step
  let s := (s.squelchAll.onLink fun l => { l with fresh := true, lastFail := code }).ledgerStop
  let s := if s.linkWaits then
      ((s.setArg 0 (s.reg R.LEDGER_LINK_FAIL).toNat).setArg 1 s.linkStat.toNat).endCmd stFail else s
  if s.cfgMin1 F.LEDGER_LINK_TMO2_max_attempts ≤ consec then s.enterAbsent 0x26 else s.enterStep1 false

/-- R187: the transmit half discards its ready queue and retention; a unit held in both counts once. -/
def dropTransmit (s : State) : State :=
  let led := s.dp.ledger
  -- data units of the queue will take consecutive numbers from tx_next_seq on; those stand in retention too
  let queued := s.dp.framer.ready.length
  let sent := (led.retention.filter fun r => r.t1.isSome).length
  let s := s.bumpBy R.LEDGER_TX_DOWN_CNT (queued + sent)
  (s.onFramer fun f => { f with ready := [] }).onLedger fun l =>
    { l with txRun := false, retention := [], unrec := [] }

/-- Steps 1 to 3 of R158 for a link that is up. -/
def linkStop (s : State) (code : Nat) : State :=
  if s.linkStands && s.cvMode then
    let step := s.dp.link.step
    let s := s.bump R.LEDGER_LINK_DOWN_CNT
    let s := (s.wr F.LEDGER_LINK_FAIL_last_fail code).wr F.LEDGER_LINK_FAIL_fail_step step
    let s := s.logEvent srcLedger 0x8003 code 0
    (s.dropTransmit.ledgerStop.squelchAll).onLink fun l => { l with fresh := true }
  else if s.dp.link.step ≠ 0 then
    -- bring-up runs and the link is not up: the attempt ends, counted neither as failed nor as a link down, and R138 orders no
    -- lane afresh
    s.ledgerStop.squelchAll
  else s

/-- The link, or the attempt that runs, ends (R158): step 1 with a new nonce, or the idle state when enable = 0. -/
def linkDown (s : State) (code : Nat) : State :=
  if s.linkUp || s.mgmt.dev = .bringup || s.mgmt.dev = .partnerAbsent then
    let s := s.linkStop code
    if s.cvMode then
      if s.cfgOn F.LEDGER_LINK_CTRL_enable then s.enterStep1 false else s.enterIdle
    else if s.stdMode && s.cfgOn F.LEDGER_LINK_CTRL_enable then s.setDev .bringup
    else s.enterIdle
  else s

/-- A lane in use is down in a standard mode (R160). -/
def stdLaneDown (s : State) : Bool :=
  !(s.activeLanes.all fun n => s.flag (F.OLn_CDR_STAT_locked n)) || !(s.hostLanes.all fun n => s.dp.host[n].st = .up)

/-- LINKED or DEGRADED (R155, R121, R160, R266). -/
def reviewState (s : State) : State :=
  if s.stdMode then
    match s.mgmt.dev with
    | .bringup => if s.cfgOn F.LEDGER_LINK_CTRL_enable && !s.stdLaneDown then s.setDev .linked else s
    | .linked => if s.stdLaneDown then s.setDev .degraded else s
    | .degraded => if s.stdLaneDown then s else s.setDev .linked
    | _ => s
  else
    let bad := s.flag F.FEC_STAT_below_min || s.activeLanes.any fun n => s.dp.rx[n].full
    match s.mgmt.dev with
    | .linked => if bad then s.setDev .degraded else s
    | .degraded => if bad then s else s.setDev .linked
    | _ => s

/-- The end of a LINK command that waits (R269). -/
def linkWaitEnd (s : State) : State :=
  if s.linkWaits && s.linkUp then
    let want := s.cfgOn F.LEDGER_LINK_CTRL_retry_req
    (s.setArg 1 s.linkStat.toNat).endCmd (if s.dp.ledger.retryOn = want then stOk else stWindow)
  else s

/-- Entry to LINKED at a superframe's start (R153, R154). -/
def enterLinked (s : State) : State :=
  let l := s.dp.link
  let retry := l.status == 2 && l.peerReady == 2
  let s := s.onLink fun l => { l with step := 7, retrainReq := 0 }
  let s := s.onLedger fun g =>
    { g with txRun := true, retryOn := retry, txNext := 0, retention := [], unrec := [], lastAck := 0,
             lastAckValid := false, rttGrown := false,
             hTx := if !retry then 0 else if g.hFixed then g.hTx else g.hOwn,
             cap := if retry then g.cap else 0 }
  let s := (s.setReg R.LEDGER_LINK_RTT_NOW 0).wr F.LEDGER_LINK_FAIL_consec 0
  let s := s.onFramer fun f => { f with laneStatus := s.laneMask, peerReq := 0, ready := [] }
  ((s.setDev .linked).reviewState).linkWaitEnd

/-- At a superframe's start in step 6 (R153). -/
def tryLinked (s : State) : State :=
  let l := s.dp.link
  if l.step = 6 ∧ l.readySent ∧ l.peerReady ≠ 0 then s.enterLinked else s

/-- An order to fast-retrain a receive lane (R145, R155). The lane goes to RELOCK and its front end to HOLD. -/
def orderFast (s : State) (n : Fin 8) : State :=
  let s := s.onRx n fun r => { r with lock := .relock, fe := if r.fe = .track then .hold else r.fe, misses := 0 }
  let s := s.holdLoop n
  let s := s.bump (R.LEDGER_LINK_FAST_CNTn n)
  s.onLink fun l => { l with retrainReq := setBit l.retrainReq n true, step := if l.step = 7 then 8 else l.step }

/-- link_step is 8 while any lane is in RELOCK (R155). -/
def reviewStep (s : State) : State :=
  let any := s.activeLanes.any fun n => s.dp.rx[n].lock = .relock
  s.onLink fun l => if l.step = 7 ∧ any then { l with step := 8 } else if l.step = 8 ∧ !any then { l with step := 7 } else l

/-- An order to fully retrain a receive lane (R145, R155): lock state OFF, pilot search anew. -/
def orderFull (s : State) (n : Fin 8) : State :=
  let s := s.onRx n fun r => { r with lock := .off, full := true, misses := 0, matched := 0, firstSkew := none }
  let s := s.enterSearch n
  let s := s.bump (R.LEDGER_LINK_FULL_CNTn n)
  let s := s.onLink fun l => { l with retrainReq := setBit l.retrainReq n true, stable := 0 }
  s.reviewStep.reviewState

end State

end Sys2Proof.Machine
end

