-- ==== Sys2Proof/Machine/Stores.lean ====
section
/-!
DEFINITION. The two stores of the retry ledger (R163, R164, R170): where a unit's words lie, the parity groups of the stores
in DRAM, writing a unit, reading it with what its group rebuilds, and what a lost bank costs.
-/

namespace Sys2Proof.Machine

/-! ## The words of a unit: word w holds bits 64w to 64w + 63 of its 59 blocks in the order sent, the first in its lowest bit
(DESIGN CHOICE, log entry 117). -/

def payloadWords (bs : List Block) : List Nat :=
  let bits := bs.flatMap fun b => msbBits 257 b.toNat
  (List.range 237).map fun w => ((bits.drop (64 * w)).take 64).zipIdx.foldl (fun v (b, k) => v + b2n b * 2 ^ k) 0

def wordsPayload (ws : List Nat) : List Block :=
  let bits := ws.flatMap fun v => (List.range 64).map fun k => bitOf v k
  (List.range 59).map fun i => BitVec.ofNat 257 (ofMsb ((bits.drop (257 * i)).take 257))

/-- The blocks that the poisoned payload words of a unit touch are replaced by error control blocks (R181). Which bits of the
unit a payload word holds is the model's choice (DESIGN CHOICE, log entry 117). -/
def poisonBlocks (words : List Nat) (blocks : List Block) : List Block :=
  blocks.mapIdx fun k b =>
    if words.any fun w => decide (64 * w ≤ 257 * k + 256) && decide (257 * k ≤ 64 * w + 63) then errorBlock else b

/-- The DRAM address of member `i` of parity group `g` of a store at `base`: members 0 to 15 are slots 16g to 16g + 15 and
member 16 is the parity slot. Two groups share 17 consecutive 4 KiB blocks, which lie in 17 banks, and 8,192 groups fill the
272 MiB (DESIGN CHOICE, log entry 117). -/
def memberAddr (base g i : Nat) : Nat := base + g / 2 * 69632 + i * 4096 + g % 2 * 2048

/-- The bank of a DRAM byte address, as 16 × pseudo-channel + bank (R356). -/
def bankOf (a : Nat) : Nat := bitsOf a 12 5 * 16 + bitsOf a 17 4

namespace State

/-- Units in each store, by its placement (R163). -/
def storeSlots (s : State) : Nat := if s.dp.ledger.place = 2 then 131072 else 4352

/-- The DRAM address of a store (R163, LEDGER_DRAM_BASE). -/
def storeBase (s : State) (hold : Bool) : Nat := (if hold then s.dp.ledger.holdBase else s.dp.ledger.retBase) * 2 ^ 29

/-- The DRAM address of the slot of a sequence number. -/
def slotAddr (s : State) (hold : Bool) (q : Nat) : Nat :=
  memberAddr (s.storeBase hold) (q % 131072 / 16) (q % 16)

/-- The first word of the slot of a sequence number in the SRAM arrays, as macro × 8,192 + word: slots of 240 words packed
from the first word of the retention or of the hold array, payload words first (DESIGN CHOICE, log entry 117). -/
def sramSlot (hold : Bool) (q : Nat) : Nat := (if hold then 2 ^ 20 else 0) + q % 4352 * 240

/-- A slot at a DRAM address is not readable: its bank is lost, or not rebuilt yet (R164). -/
def slotDown (s : State) (a : Nat) : Bool := s.dramLost a || s.dp.ledger.rebuild.contains (bankOf a)

/-- The 64-bit word at a DRAM address, little-endian (R5). -/
def dramWord (s : State) (a : Nat) : Nat := ofLeBytes (s.dramBytes a 8)

/-- A word of a member of a group as it stands, where it can be read. -/
def memberWord (s : State) (base g w i : Nat) : Option Nat :=
  let a := memberAddr base g i + 8 * w
  if s.slotDown a || decide (2 ≤ s.dramCode a) then none else some (s.dramWord a)

/-- The exclusive-or of words, where every one can be read. -/
def xorAll (ws : List (Option Nat)) : Option Nat :=
  ws.foldl (fun acc w => match acc, w with | some a, some b => some (a ^^^ b) | _, _ => none) (some 0)

/-- Word `w` of member `i` of a group, rebuilt from the other 16 members (R164). -/
def rebuiltWord (s : State) (base g w i : Nat) : Option Nat :=
  xorAll (((List.range 17).filter (· != i)).map fun k => s.memberWord base g w k)

/-- Word `w` of member `i`: as it stands, else rebuilt. -/
def groupWord (s : State) (base g w i : Nat) : Option Nat :=
  (s.memberWord base g w i).orElse fun _ => s.rebuiltWord base g w i

/-- The parity word of a group after member `i`'s word becomes `v`: the exclusive-or of the 16 slots, where the others can be
read; else the old parity word is updated by exclusive-or (R164). -/
def parityWord (s : State) (base g w i v : Nat) : Option Nat :=
  match xorAll (((List.range 16).filter (· != i)).map fun k => s.memberWord base g w k), s.groupWord base g w i,
      s.groupWord base g w 16 with
  | some x, _, _ => some (x ^^^ v)
  | none, some old, some p => some (p ^^^ old ^^^ v)
  | none, _, _ => none

/-! ## Writing -/

/-- A unit's words are written to its slot in DRAM, and the group's parity slot with them. Words 237 to 255 of a slot, of which
the spec says nothing but that three are tags, take free values (log entry 117). -/
def dramStore (s : State) (hold : Bool) (q : Nat) (blocks : List Block) : State :=
  let base := s.storeBase hold
  let g := q % 131072 / 16
  let i := q % 16
  let free := (List.range 19).map fun k => Config.freeNat (s.draws + k) % 2 ^ 64
  let ws := payloadWords blocks ++ free
  let s := { s with draws := s.draws + 19 }
  let ps := ws.zipIdx.map fun (v, w) => (s.parityWord base g w i v).getD (s.dramWord (memberAddr base g 16 + 8 * w))
  (s.dramWrite (memberAddr base g i) (ws.flatMap fun v => leBytes 8 v)).dramWrite (memberAddr base g 16)
    (ps.flatMap fun v => leBytes 8 v)

/-- A unit is written to a store (R163, R164, R169, R177): correct check bits stand behind it. -/
def storeWrite (s : State) (hold : Bool) (q : Nat) (blocks : List Block) : State :=
  if s.dp.ledger.place = 2 then s.dramStore hold q blocks
  else s.onMem fun m =>
    { m with
      sramEcc := m.sramEcc.filter fun c => decide (c.1 < sramSlot hold q) || decide (sramSlot hold q + 240 ≤ c.1),
      sramValid := (List.range 30).foldl (fun v i => mapSet false v (sramSlot hold q / 8 + i) true) m.sramValid }

/-! ## Reading -/

/-- A word of the SRAM arrays is read (R357, R358): whether the read returns poison. A word of an invalid line counts no error
(R360). -/
def sramReadWord (s : State) (loc : Nat) : State × Bool :=
  if !s.sramLineValid loc then (s, false) else
  let (s, code, poison) := s.eccRead false (some loc) (mapGet 0 s.mem.sramEcc loc)
  (s.onMem fun m => { m with sramEcc := mapSet 0 m.sramEcc loc code }, poison)

/-- Words that turn out uncorrectable at this read hold two wrong bits from now on. -/
def spoil (s : State) (hold : Bool) (q : Nat) (bad : List Nat) : State :=
  bad.foldl (fun s w =>
    if s.dp.ledger.place = 2 then
      let a := s.slotAddr hold q + 8 * w
      if s.dramCode a = 0 then s.setDramCode a 2 else s
    else s.onMem fun m =>
      { m with sramEcc := mapSet 0 m.sramEcc (sramSlot hold q + w) (Nat.max 2 (mapGet 0 m.sramEcc (sramSlot hold q + w))) }) s

/-- One payload word of a unit in DRAM is read, and rebuilt from its group where it cannot be read (R164). -/
def storeWord (s : State) (hold : Bool) (q w : Nat) : State × Option Nat :=
  let base := s.storeBase hold
  let g := q % 131072 / 16
  let a := memberAddr base g (q % 16) + 8 * w
  let (s, poison) := s.dramReadWord a
  (s, if poison || s.slotDown a then s.rebuiltWord base g w (q % 16) else some (s.dramWord a))

/-- The payload of a unit is read from a store: its blocks, and the words that stay unreadable. `bad` are the words that this
read finds uncorrectable, and `kept` is what was written, which the SRAM arrays still hold. -/
def storeRead (s : State) (hold : Bool) (q : Nat) (bad : List Nat) (kept : List Block) : State × List Block × List Nat :=
  let s := s.spoil hold q (bad.filter (decide <| · < 237))
  if s.dp.ledger.place = 2 then
    let (s, ws) := (List.range 237).foldl
      (fun (acc : State × List (Option Nat)) w => let (s, v) := acc.1.storeWord hold q w; (s, acc.2 ++ [v])) (s, [])
    (s, wordsPayload (ws.map (·.getD 0)), (List.range 237).filter fun w => (ws.getD w none).isNone)
  else
    let (s, lost) := (List.range 237).foldl
      (fun (acc : State × List Nat) w =>
        let (s, p) := acc.1.sramReadWord (sramSlot hold q + w)
        (s, if p then acc.2 ++ [w] else acc.2)) (s, [])
    (s, kept, lost)

/-! ## Banks (R164, R170, R362) -/

/-- The members of a group that are not readable. -/
def downMembers (s : State) (base g : Nat) : List Nat :=
  (List.range 17).filter fun i => s.slotDown (memberAddr base g i)

/-- The slots of a store in DRAM that are lost: two of their group are unreadable (R164). -/
def lostSlots (s : State) (hold : Bool) : List Nat :=
  (List.range 8192).flatMap fun g =>
    let down := s.downMembers (s.storeBase hold) g
    if 2 ≤ down.length then (down.filter (decide <| · < 16)).map fun i => 16 * g + i else []

/-- A retained unit is freed unprotected and marked unrecoverable (R170). -/
def expose (s : State) (seq : Nat) : State :=
  let s := s.onLedger fun l =>
    { l with retention := l.retention.filter (·.seq != seq), unrec := seq :: l.unrec.filter (· != seq) }
  (s.bump R.LEDGER_TX_EXPOSE_CNT).logEvent srcLedger 0x9001 0 seq

/-- After a bank is lost, the retained units of the lost slots are exposed, and the capacity falls by those slots for as long
as the link stays up (R170). A unit that has not been sent yet goes from the ready queue, and is only marked. -/
def reviewLost (s : State) : State :=
  if s.dp.ledger.place ≠ 2 ∨ s.dp.ledger.cap = 0 then s
  else
    let lost := s.lostSlots false
    let hit := s.dp.ledger.retention.filter fun r => lost.contains (r.seq % 131072)
    let s := (hit.filter (·.t1.isSome)).foldl (fun s r => s.expose r.seq) s
    s.onLedger fun l =>
      { l with cap := 131072 - lost.length,
               retention := l.retention.map fun r => if hit.any (·.seq == r.seq) then { r with unrec := true } else r }

/-- A failed bank's slots are to be rebuilt into the spare (R164). -/
def rebuildStart (s : State) (bank : Nat) : State :=
  if s.dp.ledger.place = 2 then
    (s.onLedger fun l => { l with rebuild := l.rebuild.filter (· != bank) ++ [bank] }).reviewLost
  else s

/-- The members of the groups of a store that lie in a bank. -/
def membersIn (base bank : Nat) : List (Nat × Nat) :=
  (List.range 8192).flatMap fun g =>
    ((List.range 17).filter fun i => bankOf (memberAddr base g i) == bank).map fun i => (g, i)

/-- One member of a group is rebuilt into its place. A word that no other member gives back stands with the poison code. -/
def rebuildMember (s : State) (base g i : Nat) : State :=
  let a := memberAddr base g i
  let ws := (List.range 256).map fun w => s.rebuiltWord base g w i
  let s := s.dramWrite a (ws.flatMap fun v => leBytes 8 (v.getD 0))
  ws.zipIdx.foldl (fun s (v, w) => if v.isNone then s.setDramCode (a + 8 * w) 3 else s) s

/-- A bank's slots of both stores have been rebuilt (R164). -/
def rebuildDone (s : State) (bank : Nat) : State :=
  let s := [false, true].foldl (fun s hold =>
    (membersIn (s.storeBase hold) bank).foldl (fun s x => s.rebuildMember (s.storeBase hold) x.1 x.2) s) s
  (s.onLedger fun l => { l with rebuild := l.rebuild.filter (· != bank) }).bump R.LEDGER_DRAM_REBUILD_CNT

end State

end Sys2Proof.Machine
end

