-- ==== Sys2Proof/Machine/Framer.lean ====
section
/-!
DEFINITION. The framer (R51–R61, R149, R150, R169–R173, R179, R180): packing, the ready queue and retention, the slot
scheduler, and the control message.
-/

namespace Sys2Proof.Machine

/-- Unit `x` stands before unit `u` in the ready queue: it completed earlier, or in the same cycle on a port that is not
higher (R52). -/
def TxUnit.before (x u : TxUnit) : Bool := decide (x.done < u.done) || (x.done == u.done && decide (x.port ≤ u.port))

/-- A frame of the port lies in a unit at this 66-bit block of the stream. -/
def PtpFrame.inUnit (f : PtpFrame) (u : TxUnit) (block : Nat) : Bool :=
  f.toLine && f.port == u.port && decide (u.start ≤ block) && decide (block < u.start + 236)

namespace State

/-- The port packs: CV mode, framer enabled, the port exists and is enabled (R51, R54, R74), and none of its lanes is
ordered into electrical idle (R206). -/
def packs (s : State) (p : Fin 16) : Bool :=
  s.cvMode && s.cfgOn F.FRAMER_CTRL_enable && bitOf (s.cfg F.FRAMER_PORT_EN_port_en) p
    && decide (0 < s.dp.ports[p].width) && !(s.portLanes p).any fun n => s.dp.host[n].idle

/-- The port's lanes are all up (R200). -/
def portLanesUp (s : State) (p : Fin 16) : Bool := (s.portLanes p).all fun n => s.dp.host[n].st = .up

/-- The port is up: its lanes are up, its alignment markers locked and its lanes deskewed (R200). While its lanes do not all select
the same loop it carries no traffic (R208), and is not up (DESIGN CHOICE, log entry 123). -/
def portUp (s : State) (p : Fin 16) : Bool :=
  s.dp.ports[p].amLock && s.dp.ports[p].deskew && s.portLanesUp p && !s.portMixed p

/-- Local Fault fill stands: the port packs and is not up, and so has no alignment-marker lock (R53, R200, log entry 10). -/
def lfFill (s : State) (p : Fin 16) : Bool := s.packs p && !s.portUp p

/-- The commit epoch that unit headers carry (R42, R258). -/
def epoch4 (s : State) : Nat := s.rd F.TOP_COMMIT_commit_no % 16

/-- tx_oldest_seq (R170). -/
def txOldest (s : State) : Nat :=
  match s.dp.ledger.retention with
  | [] => s.dp.ledger.txNext
  | r :: _ => if r.t1.isSome then r.seq else s.dp.ledger.txNext

/-- How many units of the queue stand before `u` (R52). -/
def queuePlace (u : TxUnit) (l : List TxUnit) : Nat := (l.takeWhile (·.before u)).length

/-- Retained units that have not been sent carry the numbers that they will take: from tx_next_seq on, in queue order. -/
def renumber (txNext : Nat) (l : List Retained) : List Retained :=
  l.zipIdx.map fun (r, k) => { r with seq := (txNext + k) % 2 ^ 18 }

/-- A completing unit that takes place `i` of the queue is written to retention at the slot of the sequence number that it
will take (R169, R170). -/
def retain (s : State) (u : TxUnit) (i : Nat) : State :=
  let q := (s.dp.ledger.txNext + s.dp.framer.ready.length) % 2 ^ 18
  let k := s.storeSlots
  let s := (s.dp.ledger.retention.filter fun r => s.dp.ledger.cap ≠ 0 ∧ r.seq % k = q % k).foldl (fun s r => s.expose r.seq) s
  let s := s.onLedger fun l =>
    let queued := l.retention.filter (·.t1.isNone)
    let new : Retained :=
      { seq := q, unit := u, t1 := none, lane := 0, count := 0, armed := false, lastStart := 0, unrec := false,
        frameT1 := none }
    { l with unrec := l.unrec.filter (· != q),
             retention := l.retention.filter (·.t1.isSome) ++ renumber l.txNext (queued.take i ++ new :: queued.drop i) }
  -- the units that stand behind it move up by one slot
  ((s.dp.ledger.retention.filter (·.t1.isNone)).drop i).foldl (fun s r => s.storeWrite false r.seq r.unit.blocks) s

/-- A unit enters the ready queue at its place. -/
def enqueue (s : State) (u : TxUnit) : State :=
  let i := queuePlace u s.dp.framer.ready
  let s := if s.dp.ledger.retryOn then s.retain u i else s
  let s := s.onFramer fun f => { f with ready := f.ready.take i ++ u :: f.ready.drop i }
  s.raiseMax F.FRAMER_QUEUE_HWM_hwm s.dp.framer.ready.length

/-- The unit of a port is discarded at a full queue (R59). -/
def overflowAt (s : State) (p : Nat) : State :=
  (s.bump R.FRAMER_CNT_QOVF).onPort (Fin.ofNat 16 p) fun q => { q with errNext := true }

/-- A unit completes at a queue of 512: the one that would enter the queue last of those that complete in this cycle is
discarded (R52, R59). -/
def queueFull (s : State) (u : TxUnit) : State :=
  match s.dp.framer.ready.getLast? with
  | some x =>
    if x.before u then s.overflowAt u.port
    else
      let s := s.onFramer fun f => { f with ready := f.ready.dropLast }
      let s := if s.dp.ledger.retryOn then s.onLedger fun l => { l with retention := l.retention.dropLast } else s
      (s.enqueue u).overflowAt x.port
  | none => s.overflowAt u.port

/-- A unit is complete (R52): it enters the ready queue, or is discarded while the transmit half is stopped (R169) or at a
full queue (R59). -/
def completeUnit (s : State) (p : Fin 16) (cyc : Nat) : State :=
  let q := s.dp.ports[p]
  let u : TxUnit :=
    { port := p, epoch := s.epoch4, blocks := q.openBlocks, done := s.dp.framer.base + cyc,
      start := q.packed - 4 * q.openBlocks.length }
  let s := if q.openLf then s.bump R.FRAMER_CNT_LOCKFILL else s
  let s := s.onPort p fun q => { q with openBlocks := [], openLf := false }
  if !s.dp.ledger.txRun then s.bump R.LEDGER_TX_DOWN_CNT
  else if 512 ≤ s.dp.framer.ready.length then s.queueFull u
  else s.enqueue u

/-- A block is placed in the port's packing buffer (R51); the first block after a discarded unit is replaced (R59). -/
def packBlock (s : State) (p : Fin 16) (b : Block) (lf : Bool) (cyc : Nat) : State :=
  if !s.packs p then s
  else
    let s := s.onPort p fun q =>
      { q with openBlocks := q.openBlocks ++ [if q.errNext && q.openBlocks.isEmpty then errorBlock else b],
               openLf := q.openLf || lf, errNext := q.errNext && !q.openBlocks.isEmpty, packed := q.packed + 4 }
    if 59 ≤ s.dp.ports[p].openBlocks.length then s.completeUnit p cyc else s

/-- The HLn block that holds a port's registers: that of its first lane (R193). -/
def portBlock (s : State) (p : Fin 16) : Nat := s.dp.ports[p].first

/-- Alignment-marker lock is lost (R53, R200). -/
def portUnlock (s : State) (p : Fin 16) : State :=
  if s.dp.ports[p].amLock then
    (s.onPort p fun q => { q with amLock := false, deskew := false }).bump (R.HLn_AM_LOSS_CNT (s.portBlock p))
  else s

/-! ## Slots (R55–R58, R76, R156, R172, R173) -/

/-- Lanes that R76 takes out of service: a pattern, a squelch, or the safe state. -/
def blocked76 (s : State) : Nat :=
  (s.activeLanes.filter fun n => s.txPattern n != 0 || s.squelched n || s.laneSafe n).foldl (fun m n => m + 2 ^ n.val) 0

/-- tx_lane_status: in LINKED, the lanes that no request, pattern, squelch, safe state or electrical idle holds out. -/
def serviceMask (s : State) : Nat :=
  if s.linkUp && (s.dp.link.step == 7 || s.dp.link.step == 8) && s.dp.framer.idleLeft.isNone && !s.dp.framer.idle then
    (List.range 8).foldl (fun m n =>
      if bitOf s.laneMask n && !bitOf s.dp.framer.peerReq n && !bitOf s.dp.framer.out76 n then m + 2 ^ n else m) 0
  else 0

/-- The first cycle of a slot of codeword `cw` in the current superframe (R24, R55). -/
def slotStart (s : State) (cw : Nat) : Nat := s.dp.framer.base + 32 + 64 * cw

/-- The last slot start at which a replay can still arrive in time (R170, R172). -/
def lastSlot (s : State) (t1 : Nat) : Nat := t1 + (s.dp.ledger.hTx - 1) * 2080

/-- Armed units that have passed their last eligible slot start are disarmed (R172). -/
def disarmLate (s : State) (start : Nat) : State :=
  let late (r : Retained) : Bool := r.armed && (match r.t1 with | some t => decide (s.lastSlot t < start) | none => false)
  let n := (s.dp.ledger.retention.filter late).length
  (s.bumpBy R.LEDGER_TX_LATE_CNT n).onLedger fun l =>
    { l with retention := l.retention.map fun r => if late r then { r with armed := false } else r }

/-- The unit that a priority-4 slot takes: the lowest armed sequence number eligible for the lane (R172). -/
def pickReplay (s : State) (n : Fin 8) : Option Retained :=
  if s.dp.ledger.retryOn then s.dp.ledger.retention.find? fun r => r.armed && r.t1.isSome && r.lane != n.val else none

/-- The filler slot (R46). -/
def fillerSlot (s : State) : SlotUnit :=
  { kind := 0, seq := s.dp.ledger.txNext, port := 0, epoch := s.epoch4, blocks := [], badCrc := false, start := 0 }

def putSlot (s : State) (n : Fin 8) (u : SlotUnit) : State :=
  s.onTx n fun t => { t with slots := t.slots ++ [u] }

def putFiller (s : State) (n : Fin 8) : State :=
  (s.bump64 R.FRAMER_CNT_FILLER_LO 1).putSlot n s.fillerSlot

/-- The unit in which frames begin is first sent, which fixes their stamps E (R243, R244). -/
def frameSent (s : State) (u : TxUnit) (start : Nat) : State :=
  let fix (f : PtpFrame) : PtpFrame := if f.inUnit u f.place && f.t1.isNone then { f with t1 := some start } else f
  s.onTime fun t => { t with flight := t.flight.map fix }

/-- T1 of the unit in which the frame that ends in `u` began (R244). -/
def frameEnding (s : State) (u : TxUnit) : Option Nat :=
  (s.dp.time.flight.find? fun f => f.inUnit u (f.place + f.len - 1)).bind (·.t1)

/-- A data unit is sent for the first time (R56–R58, R169). -/
def sendData (s : State) (n : Fin 8) (u : TxUnit) (start : Nat) (poison : Bool) : State :=
  let q := s.dp.ledger.txNext
  let s := s.onFramer fun f => { f with ready := f.ready.drop 1 }
  let s := s.frameSent u start
  let tag := s.frameEnding u
  let s := s.onLedger fun l =>
    { l with txNext := (q + 1) % 2 ^ 18,
             retention := l.retention.map fun r =>
               if r.seq = q then { r with t1 := some start, lane := n.val, lastStart := start, frameT1 := tag } else r }
  let s := if poison then (s.bump R.FRAMER_CNT_POISON).poisonReadShared else s
  let s := s.raiseMax F.FRAMER_WAIT_MAX_cycles (start - u.done)
  (s.bump64 R.FRAMER_CNT_DATA_LO 1).putSlot n
    { kind := 1, seq := q, port := u.port, epoch := u.epoch, blocks := u.blocks, badCrc := poison, start := u.start }

/-- A replay is sent, or its retained copy reads poison that its parity group does not rebuild and the slot carries filler
(R164, R172, R173). Which word a poisoned read concerns is free. -/
def sendReplay (s : State) (n : Fin 8) (r : Retained) (start : Nat) (poison : Bool) : State :=
  let (s, blocks, lost) := s.drew.storeRead false r.seq (if poison then [s.freeNat % 237] else []) r.unit.blocks
  if !lost.isEmpty then
    let s := s.onLedger fun l =>
      { l with unrec := r.seq :: l.unrec.filter (· != r.seq),
               retention := l.retention.map fun x => if x.seq = r.seq then { x with armed := false, unrec := true } else x }
    ((s.bump R.LEDGER_TX_RET_POISON).logEvent srcLedger 0x9002 0 r.seq).putFiller n
  else
    let s := s.onLedger fun l =>
      { l with retention := l.retention.map fun x =>
          if x.seq = r.seq then { x with armed := false, count := x.count + 1, lane := n.val, lastStart := start } else x }
    (s.bump64 R.FRAMER_CNT_REPLAY_LO 1).putSlot n
      { kind := 2, seq := r.seq, port := r.unit.port, epoch := r.unit.epoch, blocks := blocks, badCrc := false, start := r.unit.start }

/-- One slot (*Slot priority*). -/
def fillSlot (s : State) (n : Fin 8) (start : Nat) (poison : Bool) : State :=
  if !bitOf s.dp.framer.laneStatus n || s.cfgOn F.FRAMER_CTRL_filler_only then s.putFiller n
  else
    match s.dp.framer.ready with
    | u :: _ => s.sendData n u start poison
    | [] =>
      match s.pickReplay n with
      | some r => s.sendReplay n r start poison
      | none => s.putFiller n

/-- The changes of service take effect from the first slot decision after them (R76, R156). -/
def reviewService (s : State) : State :=
  let s := s.onFramer fun f => { f with out76 := f.out76 ||| s.blocked76 }
  s.onFramer fun f => { f with laneStatus := s.serviceMask }

/-- A pattern that comes into force takes its lane out of service at once (R76). -/
def patternService (s : State) : State :=
  let pat := (s.activeLanes.filter fun n => s.txPattern n != 0).foldl (fun m n => m + 2 ^ n.val) 0
  s.onFramer fun f => { f with out76 := f.out76 ||| s.blocked76, laneStatus := f.laneStatus &&& (0xFF - pat) }

/-! ## The control message (R37, R61, R136, R149, R150, R179, R180) -/

/-- A retained or held unit counts as received correctly: in SRAM placement once its verify read is made (R178, R180,
R184, log entry 11). -/
def receivedOk (s : State) (u : RxUnit) : Bool := u.held.isSome && (u.verified || s.dp.ledger.place != 1)

/-- The lowest sequence number from `q` on that has not been received correctly (R180). -/
def ackFrom (s : State) : Nat → Nat → Nat
  | 0, q => q
  | n + 1, q =>
    let l := s.dp.ledger
    let ok := if 2 ^ 17 ≤ seqAhead l.rxNext q then !l.lostSeqs.contains q
      else match l.units.find? (·.seq == q) with | some u => s.receivedOk u | none => false
    if ok then s.ackFrom n ((q + 1) % 2 ^ 18) else q

/-- ack_seq (R180). -/
def ackSeq (s : State) : Nat := s.ackFrom (2 ^ 17) s.dp.ledger.peerOldest

/-- A missing unit (R179). -/
def missing (u : RxUnit) : Bool := u.inRange && u.held.isNone && !u.lost

/-- Runs of consecutive sequence numbers, split at 1,023 (R179). -/
def splitRuns : List Nat → List (Nat × Nat) → List (Nat × Nat)
  | [], acc => acc
  | q :: t, acc =>
    match acc.getLast? with
    | some (a, n) =>
      if (a + n) % 2 ^ 18 = q ∧ n < 1023 then splitRuns t (acc.dropLast ++ [(a, n + 1)]) else splitRuns t (acc ++ [(q, 1)])
    | none => splitRuns t [(q, 1)]

/-- The units that a capture lists, oldest first: those due at least one round trip after it (R179). -/
def listable (s : State) (t : Nat) : List Nat :=
  (s.dp.ledger.units.filter fun u => missing u &&
    (match u.due with | some d => decide (t + 128 * s.rd F.LEDGER_LINK_RTT_cycles ≤ d) | none => false)).map (·.seq)

/-- The nack entries of a capture at time `t` (R179). -/
def nackList (s : State) (t : Nat) : List (Nat × Nat) := (splitRuns (s.listable t) []).take 16

/-- The sequence numbers that nack entries name. -/
def nackSeqs (l : List (Nat × Nat)) : List Nat := l.flatMap fun (q, n) => (List.range n).map fun i => (q + i) % 2 ^ 18

/-- Units listed for the first time are counted (R179). -/
def countListed (s : State) (nack : List (Nat × Nat)) : State :=
  let qs := nackSeqs nack
  let n := (s.dp.ledger.units.filter fun u => qs.contains u.seq && !u.listed).length
  (s.bumpBy R.LEDGER_RX_REQ_CNT n).onLedger fun l =>
    { l with nackEntries := nack.length,
             units := l.units.map fun u => if qs.contains u.seq then { u with listed := true } else u }

/-- The next probe tag: a 16-bit counter that skips 0 (R149). -/
def nextTag (t : Nat) : Nat := if t % 2 ^ 16 = 0xFFFF then 1 else t % 2 ^ 16 + 1

/-- Probes run in step 5 and in LINKED (R149). -/
def probing (s : State) : Bool := s.dp.link.step == 5 || s.dp.link.step == 7 || s.dp.link.step == 8

/-- The message that cycle 8 captures (R61). -/
def ctlMessage (s : State) (nack : List (Nat × Nat)) : CtlMsg :=
  let f := s.dp.framer
  let l := s.dp.link
  let g := s.dp.ledger
  let linked := l.step == 7 || l.step == 8
  let echo := decide (5 ≤ l.step) && f.echoTag != 0
  { version := 1, sfc := f.sfc, mode := s.lineMode, laneMask := s.laneMask, linkStep := l.step,
    retryOn := linked && g.retryOn,
    holdH := if linked && g.retryOn then (if g.hFixed then g.hRx else g.hOwn) else 0,
    altSeed := (s.activeLanes.filter fun n => s.dp.tx[n].alt).foldl (fun m n => m + 2 ^ n.val) 0,
    stuff := (List.finRange 8).map fun (n : Fin 8) => if bitOf s.laneMask n then s.dp.tx[n].stuffs else 0,
    ackValid := linked && g.retryOn, ackSeq := if linked && g.retryOn then s.ackSeq else 0, nack := nack,
    txOldest := s.txOldest, txNext := g.txNext,
    probeTag := if s.probing then f.probe else 0,
    echoTag := if echo then f.echoTag else 0,
    echoTurn := if echo then (128 * f.base - f.echoFrom) / 128 else 0,
    status := if f.idleLeft.getD 4 < 4 then 5 else l.status,
    retrainReq := l.retrainReq, txLanes := f.laneStatus }

end State

open State

/-- PORT_AM_LOCK_LOSS (R53). -/
def execPortAmLockLoss (port : Fin 16) (s : State) : Out := .next (s.portUnlock port)

/-- PORT_AM_LOCK_RETURN (R53, R200, R212): a port whose lanes are not all up has no lock, and in a standard mode the monitor alone
locks. Lanes with at most 180 ns of skew between them are deskewed. -/
def execPortAmLockReturn (port : Fin 16) (skewNs : Nat) (s : State) : Out :=
  if 0 < s.dp.ports[port].width ∧ s.portLanesUp port ∧ s.portMonitored port then
    .next (s.onPort port fun q => { q with amLock := true, deskew := decide (skewNs ≤ 180) })
  else .next s

/-- LOCAL_FAULT_BLOCK_INSERT (R53). -/
def execLocalFaultBlockInsert (port : Fin 16) (cyc : Nat) (s : State) : Out :=
  if s.lfFill port then .next (s.packBlock port localFaultBlock true cyc) else .next s

/-- SLOT_DECISION (R55, R56). -/
def execSlotDecision (cw : Fin 32) (poison : List Nat) (s : State) : Out :=
  if !s.dp.framer.sending then .next s
  else
    let start := s.slotStart cw
    let s := (s.reviewService).disarmLate start
    .next ((s.activeLanes.zipIdx).foldl (fun s (n, i) => s.fillSlot n start (poison.contains i)) s)

/-- CONTROL_MESSAGE_CAPTURE (R61). -/
def execControlMessageCapture (s : State) : Out :=
  if !s.dp.framer.sending then .next s
  else
    let t := 128 * (s.dp.framer.base + 8)
    let linked := s.dp.link.step = 7 ∨ s.dp.link.step = 8
    let nack := if linked ∧ s.dp.ledger.retryOn then s.nackList t else []
    let s := s.countListed nack
    let s := if s.probing then s.onFramer fun f =>
        let tag := nextTag f.probe
        { f with probe := tag, tags := ((tag, f.base, false) :: f.tags.filter (·.1 != tag)).take 1024 }
      else s
    let m := s.ctlMessage nack
    let s := s.onFramer fun f => { f with msg := some m }
    .next (s.onLink fun l =>
      { l with reqSent := l.retrainReq, readySent := l.readySent || (l.step == 6 && decide (2 ≤ l.status) && decide (l.status ≤ 4)) })

end Sys2Proof.Machine
end

