-- ==== Sys2Proof/Machine/Egress.lean ====
section
/-!
DEFINITION. The egress side of the host ports: the elastic buffer with its slips, deletions and insertions (R202–R204), loop
3 (R208), and what a port is given when a unit is lost (R182, R183).
-/

namespace Sys2Proof.Machine

namespace State

/-- The centre fill in 257-bit blocks (R202). -/
def ebCentre (s : State) (w : Nat) : Nat := if s.cfg (F.HL0_REF_CTRL_mode 0) = 2 then 40 * w else 16 * w

/-- Record a slip (R203): `why` is 0 full, 1 empty. -/
def ebSlip (s : State) (p : Fin 16) (why : Nat) : State :=
  (s.bump (R.HLn_EB_SLIP_CNT (s.portBlock p))).logEvent srcHl 0xA003 p.val why

/-- One 257-bit block enters the elastic buffer; a buffer that reaches 128 × W blocks slips (R202, R203). -/
def ebPush (s : State) (p : Fin 16) (b : Block) : State :=
  let w := s.dp.ports[p].width
  let s := s.onPort p fun q => { q with eb := q.eb ++ expand b, shown := q.shown + 4 }
  let s := s.raiseMax (F.HLn_EB_FILL_max (s.portBlock p)) (s.dp.ports[p].eb.length / 4)
  if 4 * 128 * w ≤ s.dp.ports[p].eb.length then
    let keep := 4 * s.ebCentre w
    (s.onPort p fun q =>
      { q with eb := List.replicate 4 error66 ++ (q.eb.drop (q.eb.length - keep)).drop 4 }).ebSlip p 0
  else s

/-- A unit's blocks, whose nominal slot arrived at `arrived`, are released to a port at time `now` (R182, R204, R208, R243). While
Local Fault is sent in place of blocks they do not reach the buffer. -/
def deliver (s : State) (p : Fin 16) (blocks : List Block) (now arrived : Nat) : State :=
  let s := s.onPort p fun q => { q with lastRelease := now }
  if s.dp.ports[p].width = 0 then s
  else if s.portLoop p 3 then s.bump (R.HLn_LOOP_DROP (s.portBlock p))
  else if s.dp.ports[p].lfOut then s
  else
    let bs := if s.dp.ports[p].errEgress then errorBlock :: blocks.drop 1 else blocks
    bs.foldl (fun s b => s.ebPush p b) (s.onPort p fun q =>
      { q with errEgress := false, froms := ((q.shown, arrived) :: q.froms).take 600 })

/-- 59 error control blocks (R182). -/
def lossBlocks : List Block := List.replicate 59 errorBlock

/-- Enabled ports (R54, R182). -/
def enabledPorts (s : State) : List (Fin 16) :=
  (List.finRange 16).filter fun p => decide (0 < s.dp.ports[p].width) && bitOf (s.cfg F.FRAMER_PORT_EN_port_en) p

/-- The port whose last release lies the most unit periods in the past, the lower port on a tie (R182). The unit period of a
port of W lanes is inverse to W, so the time is weighed by W. -/
def overduePort (s : State) (now : Nat) : Option (Fin 16) :=
  (s.enabledPorts.foldl (fun (best : Option (Fin 16 × Nat)) p =>
    let v := (now - s.dp.ports[p].lastRelease) * s.dp.ports[p].width
    match best with
    | none => some (p, v)
    | some (_, w) => if w < v then some (p, v) else best) none).map (·.1)

/-- The port that a lost unit is given to: that of a copy whose header checked, else the overdue port, counted (R182). -/
def lossPort (s : State) (port : Option Nat) (now : Nat) : State × Option (Fin 16) :=
  match port with
  | some p => (s, some (Fin.ofNat 16 p))
  | none => (s.bump R.LEDGER_RX_ATTR_CNT, s.overduePort now)

/-- Count a loss with its cause: 0 due, 1 freed, 2 poison (R180–R182). -/
def countLoss (s : State) (cause : Nat) : State :=
  let s := s.bump R.LEDGER_RX_LOSS_CNT
  s.setReg R.LEDGER_RX_LOSS_CAUSE (BitVec.ofNat 32 (setBit (s.reg R.LEDGER_RX_LOSS_CAUSE).toNat cause true))

/-- The event of a loss (R182). -/
def logLoss (s : State) (p : Option (Fin 16)) (cause seq : Nat) : State :=
  s.logEvent srcLedger 0x9003 ((match p with | some p => p.val | none => 0) * 16 + cause) seq

/-- While a line fault stands every enabled port sends Local Fault, one that is enabled later too (R186). -/
def reviewLineFault (s : State) : State :=
  let en := s.enabledPorts
  s.onDp fun d => { d with ports := d.ports.mapFinIdx fun i q _ =>
    { q with lfOut := d.ledger.lineFault && en.contains (Fin.ofNat 16 i) } }

/-- The line fault begins or ends (R186). -/
def setLineFault (s : State) (on : Bool) : State :=
  let s := s.onLedger fun l => { l with lineFault := on, lfAfter := none }
  (if on then s.bump R.LEDGER_RX_LF_CNT else s).reviewLineFault

end State

end Sys2Proof.Machine
end

