-- ==== Sys2Proof/Machine/Ledger.lean ====
section
/-!
DEFINITION. The retry ledger's receive half and its window (R147, R148, R163–R188): sizing, the hand-on of codeword groups,
nominal slots, the hold store, releases and losses; and the expiry of retained units (R170).
-/

namespace Sys2Proof.Machine

namespace State

/-! ## Units of the receive half -/

/-- The unit of a sequence number, if the receive half knows of it. -/
def rxUnit (s : State) (q : Nat) : Option RxUnit := s.dp.ledger.units.find? (·.seq == q)

/-- Insert in increasing distance from rx_next. -/
def insertUnit (next : Nat) (u : RxUnit) : List RxUnit → List RxUnit
  | [] => [u]
  | v :: t => if seqAhead next u.seq < seqAhead next v.seq then u :: v :: t else v :: insertUnit next u t

/-- Change the unit of a sequence number, which it first makes known. -/
def updUnit (s : State) (q : Nat) (f : RxUnit → RxUnit) : State :=
  s.onLedger fun l =>
    if l.units.any (·.seq == q) then { l with units := l.units.map fun u => if u.seq = q then f u else u }
    else
      { l with units := insertUnit l.rxNext (f { seq := q, nominal := none, due := none, held := none, heldAt := 0,
                                                 verified := false, lost := false, listed := false, port := none,
                                                 inRange := false }) l.units }

/-- The hold window in symbol periods (R176). -/
def holdTime (s : State) : Nat := s.dp.ledger.hRx * 2080 * 128

/-- A unit's nominal slot and its due time, where it has none yet (R176). -/
def setNominal (s : State) (q : Nat) (x : Slot) : State :=
  let h := s.holdTime
  s.updUnit q fun u =>
    if u.nominal.isSome then u else { u with nominal := some x, due := some (x.handOn + h) }

/-- A missing unit is declared lost (R180). -/
def declareLost (s : State) (q cause : Nat) : State :=
  match s.rxUnit q with
  | some u => if u.lost then s else (s.updUnit q fun u => { u with lost := true }).countLoss cause
  | none => s

/-- Missing units before the partner's tx_oldest_seq are lost at once (R180). -/
def loseFreed (s : State) : State :=
  let l := s.dp.ledger
  let qs := (l.units.filter fun u =>
    missing u && (let d := seqAhead u.seq l.peerOldest; decide (0 < d) && decide (d ≤ 2 ^ 17))).map (·.seq)
  qs.foldl (fun s q => s.declareLost q 1) s

/-! ## Release records (R177) -/

/-- A copy whose header checked, at hand-on time `t` (R177). One before rx_next, one at or past rx_next + cap, and one of a
unit declared lost are discarded and counted whatever their outcome; a good copy is kept, or discarded and counted. -/
def takeCopy (s : State) (r : Release) (t : Nat) : State :=
  let l := s.dp.ledger
  let good := r.outcome == 0 && !r.poison
  if l.cap ≤ seqAhead l.rxNext r.seq then
    let back := seqAhead r.seq l.rxNext
    if 0 < back ∧ back ≤ 2 ^ 17 then
      s.bump (if l.lostSeqs.contains r.seq then R.LEDGER_RX_LATE_CNT else R.LEDGER_RX_DUP_CNT)
    else s.bump R.LEDGER_RX_SEQ_ERR
  else
    let u := s.rxUnit r.seq
    let lost := match u with | some u => u.lost | none => false
    let held := match u with | some u => u.held.isSome | none => false
    let late := r.kind == 2 && (match u with | some { due := some d, .. } => decide (d < t) | _ => false)
    if lost then s.bump R.LEDGER_RX_LATE_CNT
    else if !good then s
    else if late then s.bump R.LEDGER_RX_LATE_CNT
    else if held then s.bump R.LEDGER_RX_DUP_CNT
    else
      let s := if r.kind = 2 then s.bump R.LEDGER_RX_RECOVER_CNT else s
      (s.updUnit r.seq fun u => { u with held := some r, heldAt := t, verified := false }).storeWrite true r.seq r.blocks

/-- One release record with retry on (R175, R177, R182). -/
def handleRecord (s : State) (r : Release) (x : Slot) : State :=
  if !r.hdrOk || (r.kind != 1 && r.kind != 2) then s
  else
    let l := s.dp.ledger
    let inWindow := decide (seqAhead l.rxNext r.seq < l.cap)
    let s := if inWindow && r.kind == 1 then s.setNominal r.seq x else s
    let s := if inWindow then s.updUnit r.seq fun u => { u with port := u.port.orElse fun _ => some r.port } else s
    s.takeCopy r x.handOn

/-- The first unit of a run is released after a link down: the line fault that has stood since ends (R187). -/
def firstRelease (s : State) : State :=
  if s.dp.ledger.lfDown && s.dp.ledger.rxRun then
    let s := s.onLedger fun l => { l with lfDown := false }
    if s.dp.ledger.lineFault then s.setLineFault false else s
  else s

/-- One release record with retry off (R183): a data unit is released, or loss-filled, at its hand-on time. -/
def handleOff (s : State) (r : Release) (x : Slot) : State :=
  if !r.hdrOk || r.kind != 1 then s
  else
    let s := s.firstRelease
    let s := s.updUnit r.seq fun u => { u with nominal := some x }
    let s := s.onLedger fun l => { l with rxNext := (r.seq + 1) % 2 ^ 18 }
    let p := Fin.ofNat 16 r.port
    if r.outcome = 0 ∧ !r.poison then s.deliver p r.blocks x.handOn x.arrived
    else ((s.countLoss 0).deliver p lossBlocks x.handOn x.arrived).logLoss (some p) 0 r.seq

/-- An unidentified number of a resolved range (R175, R176; R183 with retry off, where R175 does not act). -/
def settleNumber (s : State) (now : Nat) (x : Nat × Option Slot × Bool) : State :=
  if s.dp.ledger.retryOn then
    let s := if x.2.2 then s.bump R.LEDGER_RX_AMBIG_CNT else s
    match x.2.1 with
    | some slot => s.setNominal x.1 slot
    | none => s
  else
    let s := s.countLoss 0
    let (s, p) := s.lossPort none now
    let s := match p with | some p => s.onPort p fun q => { q with errEgress := true } | none => s
    s.logLoss p 0 x.1

/-- The oldest closed range is resolved once every slot of its superframes has been handed on. -/
def resolveOne (s : State) : State :=
  match s.dp.ledger.ranges with
  | [] => s
  | g :: rest =>
    let done := s.dp.ledger.slots.any fun x => x.sfc == g.lastSfc && x.cw == 31
    if !done then s
    else
      let slots := s.dp.ledger.slots
      let now := match (slots.filter fun x => !sfcBefore g.lastSfc x.sfc).getLast? with | some x => x.handOn | none => 0
      let n := seqAhead g.lo g.hi
      let s := s.onLedger fun l =>
        { l with ranges := rest, slots := slots.filter fun x => sfcBefore g.lastSfc x.sfc }
      let s := (g.resolve slots).foldl (fun s x => s.settleNumber now x) s
      let s := if s.dp.ledger.retryOn then s
        else s.onLedger fun l => { l with units := l.units.filter fun u => decide (n ≤ seqAhead g.lo u.seq) }
      s.loseFreed

/-- Every closed range that can be resolved is. -/
def resolveRanges (s : State) : State := s.dp.ledger.ranges.foldl (fun s _ => s.resolveOne) s

/-- A new accepted message closes the range that began at the last one (R174). -/
def closeRange (s : State) (sfc next : Nat) : State :=
  match s.dp.ledger.lastMsg with
  | none => s.onLedger fun l => { l with lastMsg := some (sfc, next) }
  | some (s0, n0) =>
    if !sfcBefore s0 sfc then s
    else
      let n := seqAhead n0 next
      let s := s.onLedger fun l =>
        { l with lastMsg := some (sfc, next),
                 ranges := l.ranges ++ [{ firstSfc := s0, lastSfc := (sfc + 2 ^ 32 - 1) % 2 ^ 32, lo := n0, hi := next }] }
      let s := if s.dp.ledger.retryOn then
          (List.range n).foldl (fun s i => s.updUnit ((n0 + i) % 2 ^ 18) fun u => { u with inRange := true }) s
        else s
      s.resolveRanges

/-! ## Hand-on (R147, R148) -/

/-- The lanes that carry units in a superframe (R148): by its accepted message, else by the last accepted one. -/
def carrying (s : State) (sfc : Nat) : Nat :=
  match s.dp.link.peerTxBy.find? (·.1 == sfc) with
  | some (_, m) => m
  | none => s.dp.link.peerTx

/-- LEDGER_LINK_CTRL.deskew_ns as it acts. -/
def deskewNs (s : State) : Nat :=
  let d := s.cfg F.LEDGER_LINK_CTRL_deskew_ns
  if d = 0 ∨ 200 < d then 200 else d

/-- The hand-on time of a group, in symbol periods, from the records of the lanes that carry units (R147, R148). Where no lane
has arrived, slots follow one another at the nominal rate (log entry 12). -/
def handOnTime (s : State) (recs : List Release) (cw : Nat) : Nat :=
  let last := s.dp.ledger.lastHandOn
  match recs with
  | [] => last + 8192 + (if cw = 0 then 4096 else 0)
  | r :: t =>
    let latest := recs.foldl (fun m r => Nat.max m (152 * (r.arrival + r.deadline + 10))) 0
    let earliest := t.foldl (fun m r => Nat.min m r.arrival) r.arrival
    Nat.max last (Nat.max latest (152 * earliest + 228 * s.deskewNs + 512))

/-- The records of the lanes that carry units whose codeword has arrived by the cutoff of R148: the earliest arrival plus
deskew_ns plus 512 symbol periods. -/
def inTime (s : State) (recs : List Release) : List Release :=
  match recs with
  | [] => []
  | r :: t =>
    let earliest := t.foldl (fun m r => Nat.min m r.arrival) r.arrival
    recs.filter fun r => decide (152 * r.arrival ≤ 152 * earliest + 228 * s.deskewNs + 512)

/-- What a slot is known to carry, before the holes that cannot hold data are told apart (R175). -/
def slotClass (r : Option Release) : Nat × Nat :=
  match r with
  | some r => if r.hdrOk then (if r.kind = 1 then (1, r.seq) else (2, 0)) else (0, 0)
  | none => (0, 0)

/-- When the first of a codeword's 8,192 symbols arrived, in symbol periods, for a slot of a group at hand-on time `t`: that of its
own record, else of the earliest that the group has (log entry 124). -/
def slotArrival (t : Nat) (recs : List Release) (r : Option Release) : Nat :=
  match r, recs with
  | some r, _ => 152 * r.arrival - 8192
  | none, x :: rest => 152 * rest.foldl (fun m r => Nat.min m r.arrival) x.arrival - 8192
  | none, [] => t

/-- The slots of a group in slot order: a hole is no candidate on an excluded lane, or after a replay or filler of its group
(R175). -/
def groupSlots (s : State) (sfc cw t mask : Nat) (recs : List Release) : List (Slot × Option Release) :=
  (s.activeLanes.foldl (fun (acc : List (Slot × Option Release) × Bool) (n : Fin 8) =>
    let r := recs.find? (·.lane == n.val)
    let (c, q) := slotClass r
    let cls := if c = 0 ∧ (acc.2 ∨ !bitOf mask n) then 3 else c
    (acc.1 ++ [({ sfc := sfc, cw := cw, lane := n, handOn := t, arrived := slotArrival t recs r, cls := cls, seq := q }, r)], acc.2 || c == 2)) ([], false)).1

end State

open State

namespace State

/-- Group 0 of the first superframe with an accepted message is handed on at `t`: the line fault ends at its due time, with
retry off at `t` itself (R186). -/
def noteFaultEnd (s : State) (sfc cw t : Nat) : State :=
  match s.dp.ledger.lfAfter, s.dp.ledger.lfDue with
  | some a, none => if cw = 0 ∧ !sfcBefore sfc a then s.onLedger fun l => { l with lfDue := some (t + s.holdTime) } else s
  | _, _ => s

/-- A line fault whose end has come by the time `now` ends (R186), but for one that waits for the first unit after a link
down (R187). -/
def reviewFaultEnd (s : State) (now : Nat) : State :=
  match s.dp.ledger.lfDue with
  | some d => if s.dp.ledger.lineFault && !s.dp.ledger.lfDown && decide (d ≤ now) then s.setLineFault false else s
  | none => s

/-- A codeword group is handed on (R147, R148, R175, R177, R183). A lane that carries units and whose codeword has not arrived
in time is reported missing, whatever has come since. -/
def handGroup (s : State) (sfc cw : Nat) (recs : List Release) : State :=
  let mask := s.carrying sfc
  let used := s.inTime (recs.filter fun r => bitOf mask r.lane)
  let recs := recs.filter fun r => !bitOf mask r.lane || used.any (·.lane == r.lane)
  let t := s.handOnTime used cw
  let s := (s.activeLanes.filter fun (n : Fin 8) => bitOf mask n && !(recs.any (·.lane == n.val))).foldl
    (fun s n => s.bump (R.LEDGER_LINK_MISS_CNTn n)) s
  let slots := s.groupSlots sfc cw t mask recs
  let s := s.onLedger fun l => { l with lastHandOn := t, slots := l.slots ++ slots.map (·.1) }
  let s := (s.noteFaultEnd sfc cw t).reviewFaultEnd t
  let s := slots.foldl (fun s x =>
    match x.2 with
    | some r => if s.dp.ledger.retryOn then s.handleRecord r x.1 else s.handleOff r x.1
    | none => s) s
  s.resolveRanges

end State

/-- HAND_ON (R147, R148). -/
def execHandOn (sfc : Word) (cw : Fin 32) (s : State) : Out :=
  let g := sfc.toNat
  let recs := s.dp.ledger.records.filter fun r => r.sfc == g && r.cw == cw.val
  let s := s.onLedger fun l => { l with records := l.records.filter fun r => !(r.sfc == g && r.cw == cw.val) }
  .next (if !s.dp.ledger.rxRun || sfcBefore g s.dp.ledger.startSfc then s else s.handGroup g cw recs)

namespace State

/-- The held unit that was written first and not yet read back (R178). -/
def oldestUnverified (s : State) : Option RxUnit :=
  s.dp.ledger.units.foldl (fun (best : Option RxUnit) u =>
    if u.held.isSome && !u.verified then
      match best with
      | some b => if u.heldAt < b.heldAt then some u else best
      | none => some u
    else best) none

/-- rx_next moves past a unit, which the receive half keeps no more (R181). -/
def passUnit (s : State) (u : RxUnit) (lost : Bool) : State :=
  s.onLedger fun l =>
    let next := (u.seq + 1) % 2 ^ 18
    { l with rxNext := next, units := l.units.filter (·.seq != u.seq),
             lostSeqs := (if lost then [u.seq] else []) ++
               l.lostSeqs.filter fun q => q != u.seq && decide (seqAhead q next ≤ 2 ^ 17) }

/-- The release of the unit `u` at its due time (R181, R182): a held unit is read from the hold store, words of its group
rebuild what cannot be read (R164), and blocks of words that stay unreadable are replaced. -/
def releaseUnit (s : State) (u : RxUnit) (now : Nat) (bad : List Nat) : State :=
  let arrived := match u.nominal with | some x => x.arrived | none => now
  match u.held with
  | some r =>
    let (s, blocks, lost) := s.storeRead true u.seq bad r.blocks
    let p := Fin.ofNat 16 r.port
    let s := if lost.isEmpty then s.deliver p blocks now arrived
      else ((s.countLoss 2).deliver p (poisonBlocks lost blocks) now arrived).logLoss (some p) 2 u.seq
    s.passUnit u false
  | none =>
    let cause := if u.lost then 1 else 0
    let s := s.declareLost u.seq 0
    let (s, p) := s.lossPort u.port now
    let s := match p with | some p => s.deliver p lossBlocks now arrived | none => s
    (s.logLoss p cause u.seq).passUnit u true

/-- The largest window is tried first (R166): the placements allowed, and whether one combination fits. -/
def fitWindow (s : State) (round : Nat) : Nat → Option (Nat × Nat × Nat)
  | 0 => none
  | k + 1 =>
    let h := (k + 1) * round + s.cfgMin1 F.LEDGER_CTRL_drain_sf
    let pl := s.cfg F.LEDGER_CTRL_place
    let fits (cap : Nat) : Bool := decide (32 * s.laneCount * h ≤ cap) && decide (h ≤ 512)
    if pl ≠ 2 ∧ fits 4352 then some (k + 1, 1, h)
    else if pl ≠ 1 ∧ s.dramReady ∧ s.rd F.SEC_STRAP_pclass = 0 ∧ fits 131072 then some (k + 1, 2, h)
    else s.fitWindow round k

/-- HOLD_WINDOW_SIZE (R165, R166, R168). -/
def sizeWindow (s : State) : State × Bool :=
  let round := ceilDiv (s.rd F.LEDGER_LINK_RTT_cycles) 2080 + 3
  let s := s.onLedger fun l => { l with roundSf := round, hFixed := false, hAsym := false, hRx := 0,
                                        rebuild := [], retBase := s.cfg F.LEDGER_DRAM_BASE_ret_base,
                                        holdBase := s.cfg F.LEDGER_DRAM_BASE_hold_base }
  match s.fitWindow round (s.cfgMin1 F.LEDGER_CTRL_rounds) with
  | some (k, pl, h) =>
    (s.onLedger fun l => { l with hOwn := h, hTx := h, place := pl, roundsUsed := k,
                                  cap := if pl = 1 then 4352 else 131072 }, true)
  | none =>
    (s.onLedger fun l => { l with hOwn := round + s.cfgMin1 F.LEDGER_CTRL_drain_sf, hTx := 0, place := 0,
                                  roundsUsed := 0, cap := 0 }, false)

end State

/-- HOLD_VERIFY_READ (R178). -/
def execHoldVerifyRead (poison : Bool) (s : State) : Out :=
  if s.dp.ledger.place ≠ 1 then .next s
  else
    match s.oldestUnverified with
    | none => .next s
    | some u =>
      let (s, _, lost) := s.drew.storeRead true u.seq (if poison then [s.freeNat % 237] else []) []
      if lost.isEmpty then .next (s.updUnit u.seq fun u => { u with verified := true })
      else
        -- missing again: one that lies before the partner's tx_oldest_seq is lost at once (R180)
        let s := (s.updUnit u.seq fun u => { u with held := none }).bump R.LEDGER_RX_VERIFY_POISON
        .next (if s.dp.ledger.retryOn then s.loseFreed else s)

/-- UNIT_EXPIRE (R170): the oldest unit sent reaches T1 + (H_tx − 1) × 2,080. -/
def execUnitExpire (s : State) : Out :=
  match s.dp.ledger.retention with
  | [] => .next s
  | r :: rest =>
    if r.t1.isNone then .next s
    else
      let s := if r.armed then s.bump R.LEDGER_TX_LATE_CNT else s
      .next ((s.onLedger fun l => { l with retention := rest }).bump R.LEDGER_TX_EXPIRE_CNT)

/-- The unit that is released next (R181): rx_next once its range is known; after the receive half has stopped, the next of
the units that it knows of (R187). -/
def State.nextDue (s : State) : Option (RxUnit × Nat) :=
  let u := if s.dp.ledger.rxRun then s.rxUnit s.dp.ledger.rxNext else s.dp.ledger.units.head?
  match u with
  | some u => if u.inRange then u.due.map fun d => (u, d) else none
  | none => none

/-- UNIT_DUE_RELEASE (R181). -/
def execUnitDueRelease (poison : List Nat) (s : State) : Out :=
  match s.nextDue with
  | some (u, now) => .next ((s.reviewFaultEnd now).firstRelease.releaseUnit u now poison)
  | none => .next s

/-- LINE_FAULT_ONSET (R186): at the due time of group 0 of a superframe s, no message of s or of a later one has been
accepted. A fault that a message accepted since has ended at its own due time begins anew. -/
def execLineFaultOnset (s : State) : Out :=
  if !s.dp.ledger.ran then .next s
  else if !s.dp.ledger.lineFault || s.dp.ledger.lfAfter.isSome then .next (s.setLineFault true)
  else .next s

/-- BANK_REBUILD_DONE (R164): `bank` is 16 × pseudo-channel + bank. -/
def execBankRebuildDone (bank : Nat) (s : State) : Out :=
  .next (if s.dp.ledger.rebuild.contains bank then s.rebuildDone bank else s)

/-- WINDOW_CHECK_DONE (R152). -/
def execWindowCheckDone (s : State) : Out :=
  if s.dp.link.step = 6 ∧ s.dp.link.status = 0 then
    let (s, fits) := s.sizeWindow
    let st := if !s.cfgOn F.LEDGER_LINK_CTRL_retry_req then 3 else if fits then 2 else 4
    .next (s.onLink fun l => { l with status := st })
  else .next s

namespace State

/-- LEDGER_STAT, LEDGER_HOLD and the other typed status of the ledger as they read (R190). -/
def viewLedger (s : State) (a : Nat) : Option Word :=
  let l := s.dp.ledger
  let w (v : Nat) : Option Word := some (BitVec.ofNat 32 v)
  if a = R.LEDGER_STAT then
    w (b2n l.txRun + 2 * b2n l.rxRun + 4 * b2n l.lineFault + 8 * b2n l.rttGrown + 16 * b2n l.hAsym
      + 32 * b2n (!l.rebuild.isEmpty))
  else if a = R.LEDGER_HOLD then
    w (l.hRx % 2 ^ 10 + 2 ^ 10 * (l.hOwn % 2 ^ 10) + 2 ^ 20 * (l.hTx % 2 ^ 10) + 2 ^ 30 * l.place)
  else if a = R.LEDGER_ROUND then
    w (l.roundSf % 2 ^ 10 + 2 ^ 10 * l.roundsUsed + 2 ^ 12 * ((l.hRx - l.roundSf) % 2 ^ 9))
  else if a = R.LEDGER_CAP then w l.cap
  else if a = R.LEDGER_HOLD_CYC then w (l.hRx * 2080)
  else if a = R.LEDGER_TX_NEXT then w l.txNext
  else if a = R.LEDGER_TX_OLDEST then w s.txOldest
  else if a = R.LEDGER_TX_ACK then w (l.lastAck + 2 ^ 18 * b2n l.lastAckValid)
  else if a = R.LEDGER_TX_ARMED then w (l.retention.filter (·.armed)).length
  else if a = R.LEDGER_RX_NEXT then w l.rxNext
  else if a = R.LEDGER_RX_ACK then w (if l.retryOn then s.ackSeq else 0)
  else if a = R.LEDGER_RX_MISSING then w ((l.units.filter missing).length + 2 ^ 18 * l.nackEntries)
  else if a = R.LEDGER_LINK_STAT then some s.linkStat
  else none

end State

end Sys2Proof.Machine
end

