-- ==== Sys2Proof/Machine/Pcs.lean ====
section
/-!
DEFINITION. What the host lanes and the retimers take from IEEE 802.3 (R70, R71, R76, R199, R200, R204, R209): RS(544,514), the
self-synchronising scrambler of the PCS, the PMA precoder, and the test patterns. The spec names these and does not define them:
what is written out here is PRESUMED from IEEE 802.3 (log entry 121), and what is not is opaque in Config.
-/

namespace Sys2Proof.Machine

/-! ## RS(544,514) over GF(2^10), p(x) = x^10 + x^3 + 1, with roots α^0 to α^29 -/

def rsTimesA (a : Nat) : Nat := let b := 2 * a; if b < 1024 then b else b ^^^ 0x409

def rsMul (a b : Nat) : Nat :=
  if a = 0 then 0
  else (List.range 10).reverse.foldl (fun r i => let r := rsTimesA r; if bitOf b i then r ^^^ a else r) 0

/-- α^n. -/
def rsPow : Nat → Nat
  | 0 => 1
  | n + 1 => rsTimesA (rsPow n)

/-- a^1022, the inverse of a non-zero element. -/
def rsInv (a : Nat) : Nat :=
  (List.range 10).reverse.foldl (fun r i => let r := rsMul r r; if bitOf 1022 i then rsMul r a else r) 1

/-- The generator polynomial, its coefficient of x^30 first. -/
def rsGen : List Nat :=
  (List.range 30).foldl (fun g i => List.zipWith (· ^^^ ·) (g ++ [0]) (0 :: g.map (rsMul (rsPow i)))) [1]

/-- The 30 parity symbols of a message, the coefficient of the highest power first. -/
def rsParity (msg : List Nat) : List Nat :=
  let g := rsGen.drop 1
  msg.foldl (fun r m =>
    let f := m ^^^ r.headD 0
    List.zipWith (· ^^^ ·) (r.drop 1 ++ [0]) (g.map (rsMul f))) (List.replicate 30 0)

def rsEncode (msg : List Nat) : List Nat := msg ++ rsParity msg

/-- The value of a word, the highest power first, at a field element, by Horner. -/
def rsEval (word : List Nat) (x : Nat) : Nat := word.foldl (fun r c => rsMul r x ^^^ c) 0

def rsSyndromes (word : List Nat) : List Nat := (List.range 30).map fun j => rsEval word (rsPow j)

/-- A codeword with up to 15 symbols in error, corrected, and how many were; none where it is uncorrectable (R200). Error
magnitudes by Forney's rule: X Ω(X⁻¹) / Λ'(X⁻¹). -/
def rsDecode (word : List Nat) : Option (List Nat × Nat) :=
  let syn := rsSyndromes word
  if word.length ≠ 544 then none
  else if syn.all (· == 0) then some (word, 0)
  else
    let r := (List.range 30).foldl (bmStep rsMul rsInv syn) ([1], [1], 0, 1, 1)
    let lam := r.1
    let l := r.2.2.1
    let omega := (List.range 30).map fun i =>
      (List.range (i + 1)).foldl (fun a j => a ^^^ rsMul (lam.getD j 0) (syn.getD (i - j) 0)) 0
    let slope := (lam.drop 1).zipIdx.map fun (c, i) => if i % 2 = 0 then c else 0
    let fixed := word.zipIdx.map fun (c, i) =>
      let x := rsPow (543 - i)
      let y := rsInv x
      if rsEval lam.reverse y = 0 then
        (c ^^^ rsMul x (rsMul (rsEval omega.reverse y) (rsInv (rsEval slope.reverse y))), true)
      else (c, false)
    if l ≤ 15 ∧ (fixed.filter (·.2)).length = l ∧ (rsSyndromes (fixed.map (·.1))).all (· == 0)
    then some (fixed.map (·.1), l) else none

/-! ## Blocks and symbols -/

/-- The bits of 10-bit symbols, least significant bit first. -/
def symbolBits (xs : List Nat) : List Bool := xs.flatMap fun x => (List.range 10).map (bitOf x)

/-- 10-bit symbols of a bit sequence. -/
def bitSymbols (bs : List Bool) : List Nat :=
  (List.range (bs.length / 10)).map fun i => ofMsb ((bs.drop (10 * i)).take 10).reverse

/-- A block's bits, first sent first, and the blocks of a bit sequence. -/
def blockBits (b : Block) : List Bool := msbBits 257 b.toNat
def bitBlocks (bs : List Bool) : List Block :=
  (List.range (bs.length / 257)).map fun i => BitVec.ofNat 257 (ofMsb ((bs.drop (257 * i)).take 257))

/-- The scrambler x^58 + x^39 + 1 (R204), its state before and after. -/
def pcsScramble : List Bool → Nat → List Bool × Nat
  | [], st => ([], st)
  | b :: t, st =>
    let o := b != (bitOf st 57 != bitOf st 38)
    let r := pcsScramble t ((2 * st + b2n o) % 2 ^ 58)
    (o :: r.1, r.2)

/-- The descrambler, which takes its state from the received bits (R200). -/
def pcsDescramble : List Bool → Nat → List Bool × Nat
  | [], st => ([], st)
  | b :: t, st =>
    let r := pcsDescramble t ((2 * st + b2n b) % 2 ^ 58)
    ((b != (bitOf st 57 != bitOf st 38)) :: r.1, r.2)

/-! ## PAM4 symbols, 0 to 3 from the lowest level -/

def symLevel (x : Nat) : Int := 2 * ((x % 4 : Nat) : Int) - 3
/-- The symbol of a label, and the label of a symbol (R22, *PAM4 level map*). -/
def labelSym (lab : Nat) : Nat := ((levelOf lab + 3) / 2).toNat
def symLabel (x : Nat) : Nat := labelOf (symLevel x)

/-- The PMA precoder: each symbol less the one sent before it, modulo 4; and its inverse (R71, R199). -/
def precode : List Nat → Nat → List Nat × Nat
  | [], p => ([], p)
  | x :: t, p =>
    let y := (x + 4 - p % 4) % 4
    let r := precode t y
    (y :: r.1, r.2)
def unprecode : List Nat → Nat → List Nat × Nat
  | [], p => ([], p)
  | y :: t, p =>
    let r := unprecode t y
    ((y + p) % 4 :: r.1, r.2)

/-! ## Test patterns (R76, R209) -/

/-- A pattern of one of the two tables: the width and the taps of its generator, the sequence SSPRQ, or the square of eight symbols
at +3 and eight at −3. -/
inductive Pattern where
  | prbs (w : Nat) (taps : List Nat)
  | ssprq
  | square
  deriving DecidableEq, Repr

def prbs7 : Pattern := .prbs 7 [6, 5]
/-- x^13 + x^12 + x^2 + x + 1. -/
def prbs13 : Pattern := .prbs 13 [12, 11, 1, 0]
def prbs31 : Pattern := .prbs 31 [30, 27]

/-- The place at which a generator starts: every register bit 1, or the first symbol (DESIGN CHOICE, log entry 121). -/
def Pattern.start : Pattern → Nat
  | .prbs w _ => 2 ^ w - 1
  | .ssprq | .square => 0

/-- The next bit, and the place after it: the generator's register, or the number of the bit in the sequence. -/
def Pattern.bit (p : Pattern) (st : Nat) : Bool × Nat :=
  match p with
  | .prbs w taps =>
    let o := taps.foldl (fun o i => o != bitOf st i) false
    (o, (2 * st + b2n o) % 2 ^ w)
  | .ssprq => (bitOf (symLabel (Config.ssprq (st / 2))) (1 - st % 2), (st + 1) % 131070)
  | .square => (st % 2 == 0 && decide (st < 16), (st + 1) % 32)

/-- The next `n` symbols: two bits each, Gray-mapped. -/
def Pattern.run (p : Pattern) : Nat → Nat → List Nat × Nat
  | 0, st => ([], st)
  | n + 1, st =>
    let (b1, st) := p.bit st
    let (b0, st) := p.bit st
    let r := p.run n st
    (labelSym (2 * b2n b1 + b2n b0) :: r.1, r.2)

/-- How many received bits seed a checker, and the place that they give: a register that is not 0, or the first place of the sequence
that fits (R209). -/
def Pattern.seedBits : Pattern → Nat
  | .prbs w _ => w
  | .ssprq => 32
  | .square => 0
def Pattern.seeded (p : Pattern) (v : Nat) : Option Nat :=
  match p with
  | .prbs w _ => if v % 2 ^ w = 0 then none else some (v % 2 ^ w)
  | .ssprq => ((List.range 65535).find? fun i =>
      (List.range 32).all fun k => ((Pattern.ssprq).bit ((2 * i + k) % 131070)).1 == bitOf v (31 - k)).map fun i =>
        (2 * i + 32) % 131070
  | .square => none

/-- OLn_TX_CTRL.pattern (R76); none for traffic. -/
def linePattern (code : Nat) : Option Pattern :=
  match code with
  | 1 => some prbs13
  | 2 => some prbs31
  | 3 => some .ssprq
  | 4 => some .square
  | _ => none

/-- *Host-lane test patterns* (R209); none for traffic. -/
def hostPattern (code : Nat) : Option Pattern :=
  match code with
  | 1 => some prbs7
  | 2 => some prbs13
  | 3 => some prbs31
  | 4 => some .ssprq
  | 5 => some .square
  | _ => none

end Sys2Proof.Machine
end

