-- ==== Sys2Proof/Machine/LineOut.lean ====
section
/-!
DEFINITION. What a lane sends: the labels of a superframe to the bit (R24–R34, R60–R62), patterns (R76), the symbols of a standard
mode (R70, R71), the FIR, the pre-distorter and the DAC with its output (R63–R66), and pennants on path 0 (R215).
-/

namespace Sys2Proof.Machine

/-! ## The FIR and the pre-distorter (R63, R64) -/

/-- y[m] of levels `a`, which hold a[m − 7] at index `m`: taps are pairs of index k and c_k. -/
def firAt (taps : List (Nat × Int)) (a : Array Int) (m : Nat) : Int :=
  taps.foldl (fun y t => y + t.2 * a.getD (m + 14 - t.1) 0) 0

/-- The index of the pre-distorter entry of a symbol and its neighbours (R64). -/
def pdIndex (a b c : Int) : Nat := 16 * labelOf a + 4 * labelOf b + labelOf c

/-- round(y / 16) + p, before saturation (R63). -/
def rawCode (taps : List (Nat × Int)) (pd : List Int) (a : Array Int) (m : Nat) : Int :=
  roundDiv (firAt taps a m) 16 + pd.getD (pdIndex (a.getD (m + 6) 0) (a.getD (m + 7) 0) (a.getD (m + 8) 0)) 0

/-- A row of converter samples as the DAC sends them: the code of each, saturated, and whether one of them did (R63). -/
def saturate (xs : List Int) : List Int × Bool := (xs.map (satI (-128) 127), xs.any fun x => satI (-128) 127 x != x)

/-- The differential output of a code in 1/512 mV at a swing (R66): V_fs is 400 + 10 × swing mV. -/
def outputVolts (swing : Nat) (code : Int) : Int := (2 * code + 1) * (400 + 10 * swing : Nat)

namespace State

/-! ## The superframe to the bit -/

/-- The 1,664 header-scrambled positions 2,432–4,095 of lane `n` (R30, R33): the control field, the displaced symbols as
they stand, and filler. -/
def headerLabels (n : Nat) (m : CtlMsg) (displaced : List Nat) : List Nat :=
  let plain := toLabels m.field ++ List.replicate 640 0
  let sent := (scramble plain (headerSeed n)).1
  sent.take 1024 ++ displaced.take 512 ++ sent.drop (1024 + Nat.min 512 displaced.length)

/-- The unit of a codeword slot: one that no decision has reached is filler. -/
def slotUnit (s : State) (n : Fin 8) (cw : Nat) : SlotUnit := s.dp.tx[n].slots.getD cw s.fillerSlot

/-- The payload's labels before scrambling: 32 codewords (R41, R49, R60). -/
def payloadLabels (s : State) (n : Fin 8) : List Nat :=
  (List.range 32).flatMap fun cw => toLabels (innerCode.encode (s.slotUnit n cw).bits)

/-- The payload of a superframe as it goes to the line, displaced symbols at its end, and how stuffing came out (R31, R32). -/
def payloadLine (s : State) (n : Fin 8) (sfc : Nat) : List Nat × Stuffing :=
  stuff (scramble (s.payloadLabels n) (payloadSeed n s.dp.tx[n].alt sfc)).1 Stuffing.start

/-- The 266,240 levels of a superframe of an SFC with its message (*Superframe layout*). -/
def superframeLevels (s : State) (n : Fin 8) (m : CtlMsg) (payload : List Nat) : List Int :=
  ensign ++ ((pilotField n ++ headerLabels n m s.dp.tx[n].displaced ++ payload.take 262144).map levelOf)

/-! ## The end of a superframe on a lane -/

/-- The taps that act: with fir_en = 0 the main tap alone (R63). -/
def firTaps (s : State) (n : Fin 8) : List (Nat × Int) :=
  let tap (k : Nat) : Nat × Int := (k, toSigned 10 (s.cfg (F.OLn_TX_FIRk_coeff n k)))
  if s.cfgOn (F.OLn_TX_CTRL_fir_en n) then (List.range 15).map tap else [tap 7]

/-- The pre-distorter table: no offset with pd_en = 0 (R63, R64). -/
def pdTable (s : State) (n : Fin 8) : List Int :=
  if s.cfgOn (F.OLn_TX_CTRL_pd_en n) then
    (List.range 64).map fun i => toSigned 7 (getField (s.inForceReg (keyPd n i)) 0 7)
  else []

/-- What a lane's DAC emits: 0 a superframe, or the host's symbols in a standard mode; 1 a pattern; 2 code 0 (R66, R70, R74,
R76, R157, R317, R348). -/
def lineOutput (s : State) (n : Fin 8) : Nat :=
  if !s.dp.tx[n].powered || s.laneSafe n || s.squelched n || s.dp.framer.idle || s.pwr.followSquelch then 2
  else if s.txPattern n ≠ 0 then 1
  else if s.stdMode || s.dp.framer.sending then 0
  else 2

/-- The offset that a pennant on path 0 adds to a code at a converter sample (R215). -/
def penOffset (s : State) (n : Fin 8) (now : Nat) : Int :=
  if !s.cfgOn F.PEN_CTRL_path && bitOf (s.cfg F.PEN_CTRL_tx_mask) n then s.penAt now * roundDiv (128 * s.penDepth : Nat) 100
  else 0

/-- The DAC sends symbols from a converter sample on, each of the unsaturated codes `raws` for the samples of its symbol (R63, R66,
R71, R215). A DAC that is held sends code 0, with the offset of a pennant. -/
def emit (s : State) (n : Fin 8) (start : Nat) (raws : List Int) : State :=
  let k := s.perSymbol
  let held := s.lineOutput n == 2
  let swing := s.cfg (F.OLn_TX_SWING_swing n)
  let syms := raws.zipIdx.map fun (raw, m) =>
    saturate ((List.range k).map fun j => (if held then 0 else raw) + s.penOffset n (start + k * m + j))
  let s := s.bumpBy (R.OLn_TX_SAT_CNT n) (syms.filter (·.2)).length
  s.onTx n fun t =>
    { t with samples := start + k * raws.length, out := syms.flatMap fun x => x.1.map (outputVolts swing) }

/-- Levels pass through the FIR and the pre-distorter to the DAC; `next` are the first levels of what follows. The last 7 for which
no followers are known wait for them (R63). -/
def sendLevels (s : State) (n : Fin 8) (start : Nat) (levels next : List Int) : State :=
  let old := s.dp.tx[n].tail
  let left := List.replicate (7 - old.length) 0 ++ old
  let body := s.dp.tx[n].late ++ levels
  let cnt := Nat.min body.length (body.length + next.length - 7)
  let a := (left ++ body ++ next).toArray
  let s := s.emit n start ((List.range cnt).map (rawCode (s.firTaps n) (s.pdTable n) a))
  s.onTx n fun t => { t with tail := ((left ++ body.take cnt).drop cnt), late := body.drop cnt }

/-- The next `count` symbols of the lane's pattern, and the generator's place after them. A pattern that comes into force begins at
its start. -/
def patternRun (s : State) (n : Fin 8) (count : Nat) : List Int × Nat × Nat :=
  let code := s.txPattern n
  match linePattern code with
  | none => ([], 0, 0)
  | some p =>
    let (xs, st) := p.run count (if s.dp.tx[n].gen.1 = code then s.dp.tx[n].gen.2 else p.start)
    (xs.map symLevel, code, st)

/-- The first 7 levels of what a lane sends from a tick on, where the state after that tick is known to fix them. -/
def firstLevels (s : State) (n : Fin 8) : List Int :=
  if s.txPattern n ≠ 0 then (s.patternRun n 7).1
  else if s.stdMode then []
  else if s.dp.framer.sending then ensign.take 7
  else List.replicate 7 0

/-- A superframe ends (R33, R34, R61, R62). -/
def endSuperframe (s : State) (n : Fin 8) (next : List Int) : State :=
  let f := s.dp.framer
  let (line, st) := s.payloadLine n f.sfc
  let s := s.sendLevels n (128 * f.base) (s.superframeLevels n (f.msg.getD (s.ctlMessage [])) line) next
  let s := if st.overflow then s.bump (R.OLn_TX_STUFF_OVF_CNT n) else s
  let s := s.wr (F.OLn_TX_STAT_last_stuff_count n) st.stuffs
  s.onTx n fun t => { t with displaced := line.drop 262144, stuffs := st.stuffs, alt := st.overflow }

/-- A superframe was cut after symbols whose number the state does not show: it is free (log entry 122). -/
def endCut (s : State) (n : Fin 8) (sfc : Nat) (m : Option CtlMsg) : State :=
  let line := (s.payloadLine n sfc).1
  let levels := s.superframeLevels n (m.getD (s.ctlMessage [])) line
  let k := s.freeNat % 266241
  let sent := ((s.drew.onFramer fun f => { f with sending := true }).sendLevels n (128 * s.dp.framer.base) (levels.take k)
    ((levels.drop k).take 7))
  (sent.onFramer fun f => { f with sending := false }).onTx n fun t => { t with tail := [], late := [] }

/-- No superframe has been sent, and what a new one takes from the one before it is nothing (R33, R34). -/
def forgetSuperframe (s : State) (n : Fin 8) : State :=
  s.onTx n fun t => { t with displaced := [], stuffs := 0, alt := false }

/-- The time of one superframe ends on a lane, under the configuration that was in force; `next` are the first levels of what
follows. A pattern replaces its stream, and no superframe has been sent on it (R76). The symbols of a standard mode have been sent
as they came (R70). -/
def laneEnds (s : State) (n : Fin 8) (next : List Int) : State :=
  let start := 128 * s.dp.framer.base
  if !s.dp.tx[n].powered then s
  else if s.txPattern n ≠ 0 then
    let (levels, gen) := s.patternRun n (266240 / s.perSymbol)
    ((s.sendLevels n start levels next).onTx n fun t => { t with gen := gen }).forgetSuperframe n
  else if s.stdMode then s.onTx n fun t => { t with gen := (0, 0) }
  else
    let s := s.onTx n fun t => { t with gen := (0, 0) }
    if s.dp.framer.sending then s.endSuperframe n next
    else
      let s := match s.dp.framer.cut with
        | some (sfc, m) => s.endCut n sfc m
        | none => (s.emit n start (List.replicate 266240 0)).onTx n fun t => { t with tail := [], late := [] }
      s.forgetSuperframe n

/-- The symbols of a standard mode reach a lane (R70, R71): the inner FEC, the precoder, the FIR and the DAC. A lane that sends a
pattern does not send them. -/
def retimeToLine (s : State) (n : Fin 8) (symbols : List Nat) : State :=
  let t := s.dp.tx[n]
  if !s.stdMode || !t.powered || s.txPattern n != 0 then s
  else
    let inner := s.lineMode = 3 ∧ s.cfgOn (F.OLn_TX_CTRL_inner_fec_en n)
    let (fec, xs) := if inner then Config.innerFecSend t.fec symbols else (t.fec, symbols)
    let (xs, pre) := if s.cfgOn (F.OLn_TX_CTRL_precode_en n) then precode xs t.pre else (xs, t.pre)
    (s.onTx n fun t => { t with fec := fec, pre := pre }).sendLevels n (Nat.max t.samples (128 * s.dp.framer.base))
      (xs.map symLevel) []

/-- What a lane's converters and its inner FEC of STD-200 count of the samples of a superframe's time that no command carries: the
amounts are free (R78, R131, log entry 1). -/
def receiveEnds (s : State) (n : Fin 8) : State :=
  if !s.dp.rx[n].powered then s
  else
    let s := s.drew.bumpBy (R.OLn_RX_SAT_CNT n) (s.freeNat % 266241)
    if s.lineMode = 3 ∧ s.cfgOn (F.OLn_TX_CTRL_inner_fec_en n) then
      let s := s.drew.bumpBy (R.OLn_IFEC_CORR n) (s.freeNat % 2081)
      s.drew.bumpBy (R.OLn_IFEC_UNCORR n) (s.freeNat % 2081)
    else s

end State

end Sys2Proof.Machine
end

