-- ==== Sys2Proof/Machine/HostPath.lean ====
section
/-!
DEFINITION. The symbols of the host lanes: the transmitter with its precoder, FIR and patterns, the receiver with its checker, the
loops, the retimers of the standard modes, and the end of the host PCS in both directions (R199, R200, R204, R206–R212).
-/

namespace Sys2Proof.Machine

/-- y of the four-tap FIR (R199), in 1/64, of each level that has one before it and two after it. -/
def hostFir (pre2 pre1 post1 : Int) : List Int → List Int
  | a :: b :: c :: d :: t =>
    (pre2 * d - pre1 * c + (64 - (pre2 + pre1 + post1)) * b - post1 * a) :: hostFir pre2 pre1 post1 (b :: c :: d :: t)
  | _ => []

/-- A checker that starts over: it takes the next bits as its seed. -/
def HostLane.seed (h : HostLane) (p : Pattern) : HostLane :=
  { h with seeded := true, need := p.seedBits, place := 0, prbsLocked := false, clean := 0, errors := [] }

/-- One bit reaches the checker (R209, R210), and whether it counts as an error. Lock comes with 4,096 error-free bits in a row, and
goes with the 64th error within 4,096 bits; with auto_sync the checker then seeds itself again, as it does after an error before
lock, where it also exchanges the pairing. The order in which it tries the two pairings is a DESIGN CHOICE (log entry 123). -/
def HostLane.checkBit (p : Pattern) (auto : Bool) (h : HostLane) (b : Bool) : HostLane × Bool :=
  if 0 < h.skip then ({ h with skip := h.skip - 1 }, false)
  else if !h.seeded then (h, false)
  else if 0 < h.need then
    let v := 2 * h.place + b2n b
    if h.need = 1 then
      match p.seeded v with
      | some st => ({ h with need := 0, place := st }, false)
      | none => ({ h with need := p.seedBits, place := 0 }, false)
    else ({ h with need := h.need - 1, place := v }, false)
  else
    let (o, st) := p.bit h.place
    let h := { h with place := st, bits := h.bits + 1 }
    if o = b then
      let clean := h.clean + 1
      ({ h with clean := clean, prbsLocked := h.prbsLocked || decide (4096 ≤ clean) }, false)
    else if h.prbsLocked then
      let errors := (h.bits :: h.errors).take 64
      let lost := decide (errors.length = 64) && decide (h.bits - errors.getLastD 0 < 4096)
      let h := { h with clean := 0, errors := errors }
      if !lost then (h, true)
      else if auto then (h.seed p, true)
      else ({ h with prbsLocked := false, errors := [] }, true)
    else if auto then ({ h.seed p with swapped := !h.swapped }, false)
    else ({ h with clean := 0 }, false)

/-- Advance a place by so many bits. -/
def Pattern.skipBits (p : Pattern) : Nat → Nat → Nat
  | 0, st => st
  | n + 1, st => p.skipBits n (p.bit st).2

/-- One symbol reaches the checker: its two bits, Gray-demapped, b1 first unless the pairing is exchanged. A delay of the symbol
stream lets the expected sequence run ahead. -/
def HostLane.checkSymbol (p : Pattern) (auto : Bool) (acc : HostLane × Nat) (x : Nat) : HostLane × Nat :=
  let (h, errs) := acc
  let h := { h with place := if h.need = 0 then p.skipBits (2 * h.delay) h.place else h.place, delay := 0 }
  let lab := symLabel x
  let (h, e1) := h.checkBit p auto (bitOf lab (if h.swapped then 0 else 1))
  let (h, e0) := h.checkBit p auto (bitOf lab (if h.swapped then 1 else 0))
  (h, errs + b2n e1 + b2n e0)

namespace State

/-! ## The checker -/

/-- HLn_PRBS_CTRL.chk as it acts: 5–7 act as 0. -/
def prbsChk (s : State) (n : Fin 16) : Nat :=
  let c := s.prbsField n (F.HLn_PRBS_CTRL_chk n)
  if c ≤ 4 then c else 0

/-- Seed the checker: its lock is tested afresh. -/
def prbsSeed (s : State) (n : Fin 16) : State :=
  s.onHost n fun h =>
    match hostPattern (s.prbsChk n) with
    | some p => { h.seed p with chk := s.prbsChk n }
    | none => h

/-- A slip clears the errors and drops lock (R210): of the bit stream it skips one bit and exchanges the pairing, and the symbol
stream it delays by one symbol. -/
def prbsSlip (s : State) (n : Fin 16) (f : HostLane → HostLane) : State :=
  (s.onHost n fun h => { f h with prbsLocked := false, clean := 0, errors := [] }).setReg (R.HLn_PRBS_ERR n) 0

def prbsSlipBit (s : State) (n : Fin 16) : State := s.prbsSlip n fun h => { h with swapped := !h.swapped, skip := h.skip + 1 }
def prbsSlipSym (s : State) (n : Fin 16) : State := s.prbsSlip n fun h => { h with delay := h.delay + 1 }

/-- Symbols reach a lane's checker. A pattern that is newly selected finds it without a seed. -/
def checkSymbols (s : State) (n : Fin 16) (symbols : List Nat) : State :=
  let code := s.prbsChk n
  match hostPattern code with
  | none => s
  | some p =>
    let auto := s.cfgOn (F.HLn_PRBS_CTRL_auto_sync n)
    let h := s.dp.host[n]
    let h := if h.chk = code then h else { h with chk := code, seeded := false, prbsLocked := false, clean := 0, errors := [] }
    let h := if auto && !h.seeded then h.seed p else h
    let (h, errs) := symbols.foldl (HostLane.checkSymbol p auto) (h, 0)
    (s.bumpBy (R.HLn_PRBS_ERR n) errs).onHost n fun _ => h

/-! ## The transmitter (R199, R206, R208, R209) -/

/-- HLn_PRBS_CTRL.gen as it acts. -/
def prbsGen (s : State) (n : Fin 16) : Nat := s.prbsField n (F.HLn_PRBS_CTRL_gen n)

/-- The output stands at common mode: squelched, in a near-end loop, or in electrical idle. -/
def hostSquelched (s : State) (n : Fin 16) : Bool :=
  s.cfgOn (F.HLn_CTRL_tx_squelch n) || s.hostLoop n == 1 || s.hostLoop n == 2 || s.dp.host[n].idle

/-- The output of values in 1/192 of the full amplitude: 600 + 25 × amp mV peak to peak (R199). -/
def hostOut (s : State) (n : Fin 16) (ys : List Int) : List Int :=
  let pp : Int := (600 + 25 * s.firField n (F.HLn_TX_FIR_amp n) : Nat)
  let sign : Int := if s.cfgOn (F.HLn_CTRL_tx_invert n) then -1 else 1
  ys.map fun y => if s.hostSquelched n then 0 else sign * y * pp

/-- Symbols pass through the FIR to the output; the last two wait for those that follow. -/
def hostShape (s : State) (n : Fin 16) (symbols : List Nat) : State :=
  let h := s.dp.host[n]
  let tap (f : CField) : Int := s.firField n f
  let x := List.replicate (3 - h.line.length) 0 ++ h.line ++ symbols.map symLevel
  let ys := hostFir (tap (F.HLn_TX_FIR_pre2 n)) (tap (F.HLn_TX_FIR_pre1 n)) (tap (F.HLn_TX_FIR_post1 n)) x
  let out := s.hostOut n ys
  s.onHost n fun h => { h with line := x.drop (x.length - 3), out := out }

/-- Symbols are due at a lane's transmitter. A pattern takes their place after the precoder and the FIR. A near-end loop brings
what is sent to the lane's own receiver (R208), and in a standard mode on to the line (R211). -/
def hostSend (s : State) (n : Fin 16) (symbols : List Nat) : State :=
  let h := s.dp.host[n]
  let code := s.prbsGen n
  let (s, sent) := match hostPattern code with
    | some p =>
      let (xs, st) := p.run symbols.length (if h.gen.1 = code then h.gen.2 else p.start)
      let out := s.hostOut n (xs.map fun x => 64 * symLevel x)
      (s.onHost n fun h => { h with gen := (code, st), out := out }, xs)
    | none =>
      let (ys, pre) := if s.cfgOn (F.HLn_CTRL_tx_precode n) then precode symbols h.txPre else (symbols, h.txPre)
      ((s.onHost n fun h => { h with gen := (0, 0), txPre := pre }).hostShape n ys, symbols)
  if s.hostLoop n = 1 ∨ s.hostLoop n = 2 then
    let s := s.checkSymbols n sent
    if h8 : n.val < 8 then s.retimeToLine ⟨n.val, h8⟩ sent else s
  else s

/-- The host transmitters leave electrical idle: 4,096 symbols of PRBS13Q, and then the PCS (R206). What a commit has brought into
force meanwhile now acts (R207). -/
def hostExitAll (s : State) : State :=
  ((List.finRange 16).foldl (fun s n =>
    if s.dp.host[n].idle then
      (s.onHost n fun h => { h with idle := false, held := none }).hostShape n (prbs13.run 4096 prbs13.start).1
    else s) s).auxSettled 2

/-! ## The receiver (R199, R208, R209, R211) -/

/-- Symbols that a lane has received: a near-end loop ignores them, and the far-end loop sends them back. In a standard mode they go
to the line of the lane's number while the lane is up. -/
def laneReceives (s : State) (n : Fin 16) (symbols : List (Fin 4)) : State :=
  let loop := s.hostLoop n
  if loop = 1 ∨ loop = 2 then s
  else
    let xs := symbols.map fun x => if s.cfgOn (F.HLn_CTRL_rx_invert n) then 3 - x.val else x.val
    let (ys, pre) := if s.cfgOn (F.HLn_CTRL_rx_precode n) then unprecode xs s.dp.host[n].rxPre else (xs, s.dp.host[n].rxPre)
    let s := (s.onHost n fun h => { h with rxPre := pre }).checkSymbols n ys
    let s := if loop = 3 then s.hostSend n ys else s
    if h8 : n.val < 8 then if s.dp.host[n].st = .up then s.retimeToLine ⟨n.val, h8⟩ ys else s else s

/-- The decisions of an optical lane go to the transmitter of the host lane of its number (R211), through the inner FEC where it is
on (R131): its codewords are counted. Under the far-end loop the host's own symbols are sent in their place. -/
def retimeToHost (s : State) (n : Fin 8) (symbols : List Nat) : State :=
  if !s.stdMode then s
  else
    let inner := s.lineMode = 3 ∧ s.cfgOn (F.OLn_TX_CTRL_inner_fec_en n)
    let (fec, xs, good, bad) := if inner then Config.innerFecReceive s.dp.rx[n].fec symbols else (s.dp.rx[n].fec, symbols, 0, 0)
    let s := ((s.onRx n fun r => { r with fec := fec }).bumpBy (R.OLn_IFEC_CORR n) good).bumpBy (R.OLn_IFEC_UNCORR n) bad
    let h : Fin 16 := ⟨n.val, Nat.lt_trans n.isLt (by decide)⟩
    if s.hostLoop h = 3 then s else s.hostSend h xs

/-! ## The end of the PCS (R200, R204, R208, R212) -/

/-- A codeword of a port is decoded: its blocks without the alignment markers, descrambled, go to the framer in a CV mode, and error
control blocks in their place where it is uncorrectable. In a standard mode it is counted and not altered. -/
def portIngress (s : State) (p : Fin 16) (cyc : Nat) (word : List Nat) (markers : Nat) : State :=
  let h := s.portBlock p
  let body (w : List Nat) : List Bool × Nat :=
    pcsDescramble ((symbolBits (w.take 514)).drop (257 * markers)) s.dp.ports[p].rxScr
  match rsDecode word with
  | none =>
    let scr := (body word).2
    let s := (s.bump (R.HLn_FEC_UNCORR h)).onPort p fun q => { q with rxScr := scr }
    if s.cvMode then (List.replicate (20 - markers) errorBlock).foldl (fun s b => s.packBlock p b false cyc) s else s
  | some (w, k) =>
    let (bits, scr) := body w
    let s := if k = 0 then s else (s.bump64 (R.HLn_FEC_CORR_LO h) 1).bump64 (R.HLn_FEC_SYM_LO h) k
    let s := s.onPort p fun q => { q with rxScr := scr }
    if s.cvMode then (bitBlocks bits).foldl (fun s b => s.packBlock p b false cyc) s else s

/-- A codeword of 20 blocks leaves a port: it is encoded and distributed to the lanes. Near-end loops bring it back to the port's
ingress where no lane sends a pattern. -/
def sendCodeword (s : State) (p : Fin 16) (cyc : Nat) : State :=
  let q := s.dp.ports[p]
  let word := rsEncode (bitSymbols ((q.blocks.take 20).flatMap blockBits))
  let s := s.onPort p fun q => { q with blocks := q.blocks.drop 20, marks := 0, word := word }
  let s := ((s.portLanes p).zip (Config.laneSymbols q.width word)).foldl (fun s x => s.hostSend x.1 x.2) s
  if (s.portLoop p 1 || s.portLoop p 2) && s.portUp p && (s.portLanes p).all fun n => (hostPattern (s.prbsGen n)).isNone
    then s.portIngress p cyc word q.marks else s

/-- A 66-bit block that leaves the buffer goes into the PCS stream (R204): four are transcoded and scrambled, and 20 blocks, the
alignment markers among them, make a codeword. -/
def regenerate (s : State) (p : Fin 16) (cyc : Nat) (b : BitVec 66) : State :=
  let q := s.dp.ports[p]
  let four := q.gather ++ [b]
  if four.length < 4 then s.onPort p fun q => { q with gather := four }
  else
    let (bits, scr) := pcsScramble (blockBits (transcode four)) q.txScr
    let mark := q.blocks.isEmpty && decide (Config.amEvery q.width ≤ q.since)
    let am := if mark then (Config.amBlocks q.width).take 19 else []
    let s := s.onPort p fun q =>
      { q with gather := [], txScr := scr, blocks := am ++ q.blocks ++ bitBlocks bits,
               marks := if q.blocks.isEmpty then am.length else q.marks,
               since := if mark then 0 else if q.blocks.isEmpty then q.since + 1 else q.since }
    if 20 ≤ s.dp.ports[p].blocks.length then s.sendCodeword p cyc else s

end State

open State

/-- HOST_RS_CODEWORD (R200, R209, R211, R212): the symbols of the port's lanes, and the codeword of a port that is up. A near-end
loop ignores the host's input. -/
def execHostRsCodeword (port : Fin 16) (cyc : Nat) (burst : HostBurst) (s : State) : Out :=
  let s := ((s.portLanes port).zip burst.symbols).foldl (fun s x => s.laneReceives x.1 x.2) s
  if s.portUp port && s.portMonitored port && !(s.portLoop port 1 || s.portLoop port 2) then
    .next (s.portIngress port cyc (burst.codeword.map (·.toNat)) burst.markers)
  else .next s

/-- PRBS_CHECK_LOCK (R209, R210): the symbols with which 4,096 bits have been free of errors. -/
def execPrbsCheckLock (lane : Fin 16) (symbols : List (Fin 4)) (s : State) : Out := .next (s.laneReceives lane symbols)

/-- PRBS_LOCK_LOSS (R209, R210): the symbols with which 64 errors stand within 4,096 bits. With auto_sync the checker seeds itself
again. -/
def execPrbsLockLoss (lane : Fin 16) (symbols : List (Fin 4)) (s : State) : Out := .next (s.laneReceives lane symbols)

end Sys2Proof.Machine
end

