-- ==== Sys2Proof/Machine/PwrOps.lean ====
section
/-!
DEFINITION. Proposals of a power-state entry, requests to its participants, aborts and refusals (R312, R313, R318, R386),
and the begin of an exit (R320).
-/

namespace Sys2Proof.Machine

namespace State

def onPwr (s : State) (f : Pwr → Pwr) : State := { s with pwr := f s.pwr }

/-- An enabled host lane in use detects signal (R312, R313, R318). -/
def hostSignal (s : State) : Bool :=
  s.hostLanes.any fun n => s.cfgOn (F.HLn_CTRL_enable n) && s.dp.host[n].sig

/-- A wake source is enabled: the command always is (R318). -/
def wakeEnabled (s : State) (i : Nat) : Bool := i == 0 || bitOf (s.reg R.PWR_WAKE_EN).toNat i

/-- The states in which a source acts, by the columns of *Wake sources*. The line source is armed only after entry. -/
def sourceActs (pstate i : Nat) : Bool :=
  match i with
  | 0 | 3 => true
  | 1 => pstate != 3
  | 2 => pstate == 1
  | _ => decide (2 ≤ pstate)

/-- Level sources that are present when an entry to `target` is proposed (R318): the line source is armed only after
entry, and a POWER command that waits is the mailbox's. -/
def levelSources (s : State) (target : Nat) : Nat :=
  2 * b2n (s.wakeEnabled 1 && s.hostSignal && sourceActs target 1) + 8 * b2n (s.wakeEnabled 3 && s.pwr.timerExpired)

/-- PWR_LAST_REFUSE (R313, R318). -/
def setRefuse (s : State) (id reason target : Nat) (forced : Bool) : State :=
  s.setReg R.PWR_LAST_REFUSE (BitVec.ofNat 32 (id + 2 ^ 8 * reason + 2 ^ 16 * target + 2 ^ 18 * b2n forced))

/-- No engine is asked any more (R386). -/
def clearAsk (s : State) : State :=
  (s.wr (F.IGS_En_PWR_pending 3) 0).wr (F.IGS_En_PWR_pending 4) 0

/-- The entry, or the exit, is over. -/
def endEntry (s : State) : State :=
  (s.clearAsk).onPwr fun p =>
    { p with phase := .none, target := 0, asking := 0, delaying := false, forced := false, byCommand := false,
             byFollow := false, heldWake := 0 }

/-- The entry ends without reaching its target: grants are returned, and the lanes leave the safe state that IG-S granted
where it has run all along (R313, log entry 25). -/
def dropEntry (s : State) : State :=
  let s := s.endEntry
  if s.safe.igsRun then (s.onSafe fun f => { f with pwrHold := false }).reviewSafe else s

/-- A refused or aborted entry ends a POWER command with FAIL (R313). -/
def failPower (s : State) : State := s.endIfArg 3 stFail (s.reg R.PWR_LAST_REFUSE).toNat

/-- A wake source aborts an entry that is asking (R318). -/
def abortEntry (s : State) : State :=
  let s := s.setRefuse 0 4 s.pwr.target false
  let s := (s.bump R.PWR_ABORT_CNT).setInt F.PWR_INT_aborted
  let s := s.logEvent srcPwr 0x1010 0 (s.reg R.PWR_LAST_REFUSE).toNat
  let cmd := s.pwr.byCommand
  let s := s.dropEntry
  if cmd then s.failPower else s

/-- The final window of an entry opens (R314). -/
def openFinal (s : State) : State := s.onPwr fun p => { p with phase := .final, asking := 0, heldWake := 0 }

/-- Ask participant `k` (R313): a program that runs gets the request in IGS_En_PWR and EV bit 3 (R386). -/
def ask (s : State) (k : Nat) : State :=
  let s := s.onPwr fun p => { p with asking := k, delaying := false }
  let e : Fin 9 := if k = 7 then 3 else 4
  if (k = 7 ∨ k = 8) ∧ (s.eng[e].st = .run ∨ s.eng[e].st = .wait) then
    let s := s.setReg (R.IGS_En_PWR e) (BitVec.ofNat 32 (2 ^ 6 * s.pwr.target + 2 ^ 8))
    s.raiseEv e 3
  else s

/-- An entry is proposed (R312). It aborts at once while a level source is present (R318); from STANDBY it asks no participant
(R314). Nothing is proposed while another entry or an exit runs. -/
def proposeEntry (s : State) (target : Nat) (byCommand byFollow forced : Bool) : State :=
  if s.pwr.phase ≠ .none then s
  else
    let s := s.onPwr fun p =>
      { p with target := target, phase := .asking, byCommand := byCommand, byFollow := byFollow,
               forced := forced, heldState := if s.mgmt.dev = .quiet then p.heldState else s.mgmt.dev, heldWake := 0,
               delaying := false }
    let s := s.raiseEv 2 8
    if s.levelSources target ≠ 0 ∧ !forced then s.abortEntry
    else if s.pwr.pstate = 2 then s.openFinal else s.ask 1

/-- Wake sources are ignored after the third failed wake, and wait while a retry is to come (R322). -/
def wakeAllowed (s : State) : Bool :=
  !s.flag F.PWR_WAKE_FAIL_given_up && s.rd F.PWR_WAKE_FAIL_tries == 0 && s.mgmt.dev != .fault

/-- An exit begins (R318, R320); `sources` are the bits of PWR_WAKE_SRC. From QUIET the line transmitters resume at the next
superframe boundary. -/
def startExit (s : State) (sources : Nat) : State :=
  let s := s.wr F.PWR_WAKE_SRC_src (s.rd F.PWR_WAKE_SRC_src ||| sources)
  (s.onPwr fun p => { p with phase := .exiting, heldWake := 0 }).hostExitAll

/-- A wake source is detected in a power state. -/
def wake (s : State) (sources : Nat) : State :=
  if s.pwr.pstate ≠ 0 ∧ s.pwr.phase = .none ∧ s.wakeAllowed then (s.startExit sources).raiseEv 2 10 else s

end State

end Sys2Proof.Machine
end

