-- ==== Sys2Proof/Machine/Bringup.lean ====
section
/-!
DEFINITION. Bring-up of the link over superframes (R39, R40, R135–R159): the acceptance of control messages with all that
follows from one, ensign lock, alignment, round-trip samples, timers, and line electrical idle.
-/

namespace Sys2Proof.Machine

namespace State

/-- link_step of a linked device. -/
def inLinked (s : State) : Bool := s.dp.link.step == 7 || s.dp.link.step == 8

/-! ## Acknowledgements and requests (R170, R171) -/

/-- ACK_PROCESS (R170): an ack_seq from tx_oldest_seq to tx_next_seq frees the retained units before it. -/
def ackProcess (s : State) (seq : Nat) : State :=
  let old := s.txOldest
  let n := seqAhead old seq
  if seqAhead old s.dp.ledger.txNext < n then s
  else s.onLedger fun l =>
    { l with lastAck := seq, lastAckValid := true,
             retention := l.retention.filter fun r => r.t1.isNone || decide (n ≤ seqAhead old r.seq) }

/-- LEDGER_CTRL.rep_max as it acts: 0 acts as 3. -/
def repMax (s : State) : Nat := if s.cfg F.LEDGER_CTRL_rep_max = 0 then 3 else s.cfg F.LEDGER_CTRL_rep_max

/-- One sequence number of a nack entry at datapath cycle `now` (R171). -/
def nackOne (s : State) (now q : Nat) : State :=
  let l := s.dp.ledger
  let old := s.txOldest
  let inside := decide (seqAhead old q < seqAhead old l.txNext)
  match inside && !l.unrec.contains q, l.retention.find? (·.seq == q) with
  | true, some r =>
    if r.unrec then s.bump R.LEDGER_TX_IGN_CNT
    else if s.repMax ≤ r.count then s.bump R.LEDGER_TX_LIMIT_CNT
    else if r.armed || (decide (0 < r.count) && decide (now < r.lastStart + s.rd F.LEDGER_LINK_RTT_cycles + 4160)) then
      s.bump R.LEDGER_TX_IGN_CNT
    else
      (s.onLedger fun l => { l with retention := l.retention.map fun x =>
        if x.seq = q then { x with armed := true } else x }).bump R.LEDGER_TX_ARM_CNT
  | _, _ => s.bump R.LEDGER_TX_IGN_CNT

/-- The sequence numbers of an entry that are acted on: those up to tx_next_seq − 1 (R171). -/
def nackRange (s : State) (e : Nat × Nat) : List Nat :=
  let left := seqAhead e.1 s.dp.ledger.txNext
  let n := if left ≤ 2 ^ 17 then Nat.min e.2 left else 0
  (List.range n).map fun i => (e.1 + i) % 2 ^ 18

/-- NACK_PROCESS (R171). -/
def nackProcess (s : State) (now : Nat) (entries : List (Nat × Nat)) : State :=
  entries.foldl (fun s e => (s.nackRange e).foldl (fun s q => s.nackOne now q) s) s

/-! ## Round trip (R150, R151, R189) -/

/-- The spread of the samples. -/
def spread (xs : List Nat) : Nat :=
  match xs with
  | [] => 0
  | x :: t => t.foldl Nat.max x - t.foldl Nat.min x

/-- RTT_SAMPLE (R151): in step 5 it is collected, in LINKED it is the latest; RTT_GROWN with retry on (R162, R189). -/
def rttSample (s : State) (rtt : Nat) : State :=
  if s.dp.link.step = 5 then
    let xs := rtt :: s.dp.link.samples
    s.onLink fun l => { l with samples := if 8 < spread xs then [] else xs }
  else if s.inLinked then
    let s := s.setReg R.LEDGER_LINK_RTT_NOW (BitVec.ofNat 32 (rtt % 2 ^ 24 + 2 ^ 24))
    if s.dp.ledger.retryOn ∧ (s.dp.ledger.roundSf - 2) * 2080 < rtt % 2 ^ 24 ∧ !s.dp.ledger.rttGrown then
      (s.onLedger fun l => { l with rttGrown := true }).logEvent srcLedger 0x9004 0 (s.reg R.LEDGER_LINK_RTT_NOW).toNat
    else s
  else s

/-- The probe and the echo of an accepted message whose superframe had the aligned start `t` (R150, R151). -/
def probeEcho (s : State) (m : CtlMsg) (t : Nat) : State :=
  let s := if m.probeTag ≠ 0 ∧ m.probeTag ≠ s.dp.framer.echoTag then
      s.onFramer fun f => { f with echoTag := m.probeTag, echoFrom := t }
    else s
  match s.dp.framer.tags.find? (·.1 == m.echoTag) with
  | some (_, tx, sampled) =>
    if m.echoTag = 0 ∨ sampled then s
    else
      let s := s.onFramer fun f =>
        { f with tags := f.tags.map fun x => if x.1 = m.echoTag then (x.1, x.2.1, true) else x }
      s.rttSample (t / 128 - tx - m.echoTurn)
  | none => s

/-! ## Alignment (R146) -/

/-- One superframe's arrivals of the lanes with accepted copies: offsets from the earliest. -/
def offsets (s : State) (lanes : List (Fin 8)) : List (Fin 8 × Nat) :=
  match lanes with
  | [] => []
  | n :: t =>
    let first := t.foldl (fun m k => Nat.min m s.dp.rx[k].lastArrival) s.dp.rx[n].lastArrival
    (n :: t).map fun k => (k, s.dp.rx[k].lastArrival - first)

/-- The alignment test takes one superframe (R146). -/
def alignTest (s : State) (sfc : Nat) (offs : List (Fin 8 × Nat)) : State :=
  let limit := 228 * s.deskewNs
  let near (x : Fin 8 × Nat) : Bool :=
    match s.dp.rx[x.1].firstSkew with
    | some f => decide (x.2 ≤ f + 4) && decide (f ≤ x.2 + 4)
    | none => true
  let small := offs.all fun x => decide (x.2 ≤ limit)
  let follows := s.dp.link.stable == 0 || sfc == (s.dp.link.stableSfc + 1) % 2 ^ 32
  let go := small && follows && offs.all near
  let s := if go then s else s.onDp fun d => { d with rx := d.rx.map fun r => { r with firstSkew := none } }
  let s := offs.foldl (fun s x => s.onRx x.1 fun r => { r with firstSkew := r.firstSkew.orElse fun _ => some x.2 }) s
  s.onLink fun l => { l with stable := if go then l.stable + 1 else if small then 1 else 0, stableSfc := sfc }

/-- A lane that has been LOCKED again in a full retrain takes the alignment test of one superframe (R146, R155): the first
offset, and for how many consecutive superframes it has held. -/
def rejoinStep (limit : Nat) (follows : Bool) (off : Option Nat) (first : Option Nat) (run : Nat) : Option Nat × Nat :=
  match off, first with
  | none, _ => if follows && run != 0 then (first, run + 1) else (none, 0)
  | some o, some f =>
    if limit < o then (none, 0)
    else if follows && decide (o ≤ f + 4) && decide (f ≤ o + 4) then (some f, run + 1) else (some o, 1)
  | some o, none => if limit < o then (none, 0) else (some o, 1)

/-- Each lane in full retrain that is LOCKED is tested against the lanes in lock, and rejoins after 16 superframes (R155). -/
def rejoin (s : State) (sfc : Nat) (offs : List (Fin 8 × Nat)) : State :=
  let follows := sfc == (s.dp.link.stableSfc + 1) % 2 ^ 32
  let s := s.activeLanes.foldl (fun s n =>
    let r := s.dp.rx[n]
    if r.full && r.lock == .locked then
      let (first, run) := rejoinStep (228 * s.deskewNs) follows ((offs.find? (·.1 == n)).map (·.2)) r.firstSkew r.alignRun
      if 16 ≤ run then
        (s.onRx n fun r => { r with full := false, firstSkew := first, alignRun := 0 }).onLink fun l =>
          { l with retrainReq := setBit l.retrainReq n false }
      else s.onRx n fun r => { r with firstSkew := first, alignRun := run }
    else s) s
  (s.onLink fun l => { l with stableSfc := sfc }).reviewState

/-- ALIGNMENT_TEST (R146): skews are reported in every superframe; the test runs in step 4 and for lanes that rejoin. -/
def align (s : State) (sfc : Nat) (lanes : List (Fin 8)) : State :=
  let offs := s.offsets lanes
  let s := offs.foldl (fun s x => s.wr (F.LEDGER_LINK_LANEn_skew x.1) x.2) s
  if s.dp.link.step = 4 then s.alignTest sfc offs else if s.inLinked then s.rejoin sfc offs else s

/-! ## An accepted message -/

/-- The copies that R39 accepts, in increasing lane number: the count matches the lane's expected one, which a copy itself
teaches before ensign lock and where no copy has taught it yet. -/
def acceptedCopies (s : State) (copies : List (Fin 8 × List Bool)) : List (Fin 8 × CtlMsg) :=
  (List.finRange 8).filterMap fun n =>
    match copies.find? (·.1 == n) with
    | none => none
    | some (_, field) =>
      let r := s.dp.rx[n]
      if !(bitOf s.laneMask n) || !r.powered then none
      else
        match readCopy n field with
        | none => none
        | some m =>
          if (r.lock == .locked || r.lock == .relock) && (match r.expSfc with | some e => e != m.sfc | none => false) then none
          else some (n, m)

/-- The receive half starts (R154, R167). -/
def rxStart (s : State) (m : CtlMsg) (retry : Bool) : State :=
  let h := s.dp.ledger.hOwn
  let want := Nat.max h m.holdH
  let fits := decide (32 * s.laneCount * want ≤ s.dp.ledger.cap) && decide (want ≤ 512)
  s.onLedger fun l =>
    { l with rxRun := true, rxNext := 0, units := [], slots := [], ranges := [], records := [], lostSeqs := [],
             lastMsg := some (m.sfc, m.txNext), peerOldest := m.txOldest, ran := true, startSfc := m.sfc,
             lfDue := none, retryOn := retry, hFixed := retry, hRx := if retry then (if fits then want else h) else 0,
             hAsym := retry && !fits, hTx := if retry then m.holdH else 0 }

/-- What the ledger takes from an accepted message with link_step 7 or 8 (R154, R167, R174, R180, R186). -/
def ledgerMessage (s : State) (m : CtlMsg) (now : Nat) : State :=
  let retry := if s.inLinked then s.dp.ledger.retryOn else s.dp.link.status == 2 && s.dp.link.peerReady == 2
  let s := if !s.dp.ledger.rxRun then s.rxStart m retry
    else
      let s := s.onLedger fun l => { l with hTx := if l.retryOn then m.holdH else l.hTx, peerOldest := m.txOldest }
      s.closeRange m.sfc m.txNext
  let s := s.onLedger fun l =>
    { l with lfAfter := if l.lineFault && !l.lfDown then l.lfAfter.orElse (fun _ => some m.sfc) else none }
  let s := if s.dp.ledger.retryOn then s.loseFreed else s
  if s.dp.ledger.txRun ∧ s.dp.ledger.retryOn then
    let s := if m.ackValid then s.ackProcess m.ackSeq else s.onLedger fun l => { l with lastAckValid := false }
    s.nackProcess now m.nack
  else s

/-- The partner restarts while the link is up or an attempt runs (R159). -/
def partnerRestart (s : State) : State :=
  let s := s.bump R.LEDGER_LINK_RESTART_CNT
  if s.inLinked then s.linkDown 0x25 else s.attemptFail 0x25

/-- Partner absence, loss and restart (R159): what an accepted message ends. -/
def messageEnds (s : State) (m : CtlMsg) : Option (State → State) :=
  if s.inLinked ∧ 2 ≤ m.linkStep ∧ m.linkStep ≤ 5 then some (·.partnerRestart)
  else if m.linkStep = 7 ∧ s.inLinked ∧ m.retryOn ≠ s.dp.ledger.retryOn then some (·.linkDown 0x27)
  else if m.linkStep = 7 ∧ s.dp.link.step = 6 ∧ s.dp.link.status ≠ 0 ∧
      m.retryOn ≠ (s.dp.link.status == 2 && s.dp.link.peerReady == 2) then some (·.attemptFail 0x27)
  else none

/-- The own stuff count of the superframe before an accepted message's, where it is complete: a mismatch counts (R35,
R133). A count completed after the acceptance is compared at its codeword 31. -/
def stuffMismatch (s : State) (m : CtlMsg) : State :=
  s.activeLanes.foldl (fun s (n : Fin 8) =>
    match s.dp.rx[n].ds.prev with
    | some (q, k, _) =>
      if m.sfc = (q + 1) % 2 ^ 32 ∧ m.stuff.getD n 0 ≠ k then s.bump (R.OLn_DET_STUFF_MM n) else s
    | none => s) s

/-- What the bring-up keeps from an accepted message (R35, R39, R148, R153, R161). -/
def noteMessage (s : State) (m : CtlMsg) : State :=
  let ready := if m.linkStep = 6 ∧ 2 ≤ m.status ∧ m.status ≤ 4 then m.status
    else if m.linkStep = 7 ∧ s.dp.link.peerReady = 0 then (if m.retryOn then 2 else 3) else s.dp.link.peerReady
  let s := s.onLink fun l =>
    { l with peerStep := m.linkStep, peerStatus := m.status, peerSeenAt := some s.evr.time, peerTx := m.txLanes, peerReady := ready,
             peerTxBy := ((m.sfc, m.txLanes) :: l.peerTxBy).take 16,
             peerAlt := ((m.sfc, m.altSeed) :: l.peerAlt).take 16,
             peerStuff := ((m.sfc, m.stuff) :: l.peerStuff).take 16 }
  s.onFramer fun f => { f with peerReq := m.retrainReq }

/-- FOLLOW_QUIET (R317): LINKED with follow_en = 1, and status 0x05 accepted on every active lane. -/
def followQuiet (s : State) (m : CtlMsg) (lanes : List (Fin 8)) : State :=
  if m.status = 5 ∧ s.mgmt.dev = .linked ∧ s.flag F.PWR_QUIET_CTRL_follow_en ∧ s.activeLanes.all (lanes.contains ·) then
    s.proposeEntry 1 false true false
  else s

/-- The time at which the control field of the lane has arrived, in datapath cycles. -/
def messageTime (s : State) (lanes : List (Fin 8)) : Nat :=
  match lanes with
  | [] => s.dp.framer.base
  | n :: _ => (s.dp.rx[n].lastArrival + 3456) / 128

end State

open State

/-- CONTROL_MESSAGE_ACCEPT (R39). -/
def execControlMessageAccept (copies : List (Fin 8 × List Bool)) (s : State) : Out :=
  match s.acceptedCopies copies with
  | [] => .next (s.onLink fun l => { l with ctlLost := l.ctlLost + 1 })
  | (n, m) :: rest =>
    let lanes := n :: rest.map (·.1)
    let s := s.onLink fun l => { l with ctlDisagree := l.ctlDisagree + (rest.filter (·.2 != m)).length }
    if m.discarded then
      .next (s.onLink fun l => { l with ctlDiscard := l.ctlDiscard + 1, ctlLost := l.ctlLost + 1 })
    else
      let s := ((n, m) :: rest).foldl (fun s x =>
        if x.2.discarded then s else s.onRx x.1 fun r => { r with expSfc := some x.2.sfc }) s
      let now := s.messageTime lanes
      -- the arrivals of one superframe: those of the LOCKED lanes whose copies carry its sfc (R146)
      let paired := ((n, m) :: rest).filterMap fun (x : Fin 8 × CtlMsg) =>
        if x.2.sfc = m.sfc ∧ s.dp.rx[x.1].lock = EnsState.locked then some x.1 else none
      let start := paired.foldl (fun t k => Nat.max t s.dp.rx[k].lastArrival) 0
      let s := (s.noteMessage m).stuffMismatch m
      match s.messageEnds m with
      | some f => .next (f s)
      | none =>
        let s := s.align m.sfc paired
        let s := if paired.isEmpty then s else s.probeEcho m start
        let s := if (m.linkStep = 7 ∨ m.linkStep = 8) ∧ (s.inLinked ∨ s.dp.link.step = 6) then s.ledgerMessage m now else s
        .next ((s.advanceSteps).followQuiet m lanes)

/-! ## Ensign lock (R144, R145) -/

/-- LEDGER_LINK_CTRL.ens_tol as it acts. -/
def State.ensTol (s : State) : Nat := Nat.min 16 (s.cfg F.LEDGER_LINK_CTRL_ens_tol)

/-- Differences from the ensign at an offset into the labels (R144). -/
def ensignDiff (labels : List (Fin 4)) (off : Nat) : Nat :=
  ((List.zip ensign ((labels.drop off).take 128)).filter fun (e, l) => levelOf l.val != e).length
    + (128 - ((labels.drop off).take 128).length)

/-- The best offset, the lower on a tie (R145). -/
def ensignBest (labels : List (Fin 4)) : Nat × Nat :=
  (List.range 17).foldl (fun b o => if ensignDiff labels o < b.2 then (o, ensignDiff labels o) else b)
    (0, ensignDiff labels 0)

namespace State

/-- Ensign loss is declared (R145). -/
def ensignLost (s : State) (n : Fin 8) : State :=
  if s.inLinked then
    if s.cfgOn F.LEDGER_LINK_CTRL_fast_en then s.orderFast n else s.orderFull n
  else
    let s := s.onRx n fun r => { r with lock := .hunt, misses := 0, matched := 0 }
    s.onLink fun l => if 3 ≤ l.step ∧ l.step ≤ 6 then
      { l with step := 3, status := 0, readySent := false, samples := [], stable := 0 } else l

/-- By how much a lane arrives after each other lane in lock, at most (R145, R146). -/
def laneOffset (s : State) (n : Fin 8) (arrival : Nat) : Nat :=
  (s.activeLanes.filter fun k => k != n && s.dp.rx[k].lock == .locked).foldl (fun m k =>
    let d := ((arrival : Int) - s.dp.rx[k].lastArrival) % 266240
    Nat.max m (if d < 133120 then d.toNat else 0)) 0

end State

/-- ENSIGN_CHECK (R145). `arrival` is that of the expected origin, which stands 8 symbols into the labels. -/
def execEnsignCheck (lane : Fin 8) (labels : List (Fin 4)) (arrival : Nat) (s : State) : Out :=
  let r := s.dp.rx[lane]
  if r.lock = .off ∨ r.heldIdle then .next s
  else
    let hit := decide (ensignDiff labels 8 ≤ s.ensTol)
    let s := s.onRx lane fun r =>
      { r with lastArrival := arrival, ensignOk := hit,
               expSfc := r.expSfc.map fun e => (e + 1) % 2 ^ 32 }
    match r.lock with
    | .off => .next s
    | .hunt =>
      let (o, d) := ensignBest labels
      if d ≤ s.ensTol then
        .next (s.onRx lane fun r =>
          { r with lock := .verify, matched := 1, origin := (r.origin + o + 266240 - 8) % 266240, lastArrival := arrival + o - 8,
                   ensignOk := true, expSfc := none })
      else .next s
    | .verify =>
      if hit then
        let m := r.matched + 1
        let s := s.onRx lane fun r =>
          { r with matched := m, lock := if 3 ≤ m then .locked else .verify, misses := 0, alignRun := 0,
                   ds := { r.ds with cw := 32 } }
        .next s.advanceSteps
      else .next (s.onRx lane fun r => { r with lock := .hunt, matched := 0 })
    | .locked =>
      if hit then .next (s.onRx lane fun r => { r with misses := 0 })
      else if 4 ≤ r.misses + 1 then .next (s.ensignLost lane)
      else .next (s.onRx lane fun r => { r with misses := r.misses + 1 })
    | .relock =>
      -- the origin has been corrected by the pilot correlation once the front end tracks again (R97, R145)
      if hit ∧ r.fe = .track ∧ s.laneOffset lane arrival ≤ 228 * s.deskewNs then
        let s := s.onRx lane fun r => { r with lock := .locked, misses := 0, ds := { r.ds with cw := 32 } }
        .next (s.onLink fun l => { l with retrainReq := setBit l.retrainReq lane false }).reviewStep
      else .next s

/-- RELOCK_TIMEOUT (R145, R157). -/
def execRelockTimeout (lane : Fin 8) (s : State) : Out :=
  if s.dp.rx[lane].lock = .relock then .next (s.orderFull lane) else .next s

/-- FULL_RETRAIN_TIMEOUT (R155, R159). -/
def execFullRetrainTimeout (lane : Fin 8) (s : State) : Out :=
  let r := s.dp.rx[lane]
  if r.full ∧ s.linkUp then
    .next (s.linkDown (if !s.acquired lane then 0x20 else if r.lock != .locked then 0x21 else 0x22))
  else .next s

/-! ## Timers (R137–R143, R159) -/

/-- INVITE_TIMER (R141, R143): the schedule of *Bring-up pennant schedule*. While a mismatch persists INVITE goes on, though a
compatible pennant has come before. -/
def execInviteTimer (s : State) : Out :=
  let l := s.dp.link
  if l.step = 9 then .next (s.onLink fun l => { l with ignoring := false }).queueInvite
  else if l.step = 1 then
    if l.mismatch then .next s.queueInvite
    else if l.compatSeen ∧ l.cand ≠ 0 then .next (s.queueAccept l.cand)
    else if l.compatSeen then .next s
    else .next s.queueInvite
  else if 2 ≤ l.step ∧ l.step ≤ 8 then .next s.queueStatus
  else .next s

/-- PARTNER_ABSENT_TIMEOUT (R159): absent_ms without any valid partner pennant. A partner that is present but mismatched
keeps sending valid pennants, so it does not cause the row; one that falls silent does (R143). -/
def execPartnerAbsentTimeout (s : State) : Out :=
  if s.dp.link.step = 1 then .next (s.enterAbsent 0) else .next s

namespace State

/-- A step starts again (R137). -/
def restartStep (s : State) : State :=
  let s := s.onLink fun l => { l with restarts := l.restarts + 1 }
  match s.dp.link.step with
  | 2 => (s.activeLanes.filter fun n => !s.acquired n).foldl (fun s n => s.enterSearch n) s
  | 3 =>
    (s.activeLanes.filter fun n => s.dp.rx[n].lock != .locked).foldl (fun s n =>
      s.onRx n fun r => { r with lock := if r.lock = .off then .off else .hunt, matched := 0 }) s
  | 4 => (s.onLink fun l => { l with stable := 0 }).onDp fun d =>
      { d with rx := d.rx.map fun r => { r with firstSkew := none } }
  | _ => s.onLink fun l => { l with samples := [] }

end State

/-- BRINGUP_STEP_TIMEOUT (R137). -/
def execBringupStepTimeout (s : State) : Out :=
  let l := s.dp.link
  if l.step = 6 then .next (s.attemptFail 0x26)
  else if 2 ≤ l.step ∧ l.step ≤ 5 then
    if l.restarts < s.cfg F.LEDGER_LINK_TMO2_step_retries then .next s.restartStep
    else .next (s.attemptFail (0x1E + l.step))
  else .next s

/-- PARTNER_LOSS_TIMEOUT (R139, R158, R159). -/
def execPartnerLossTimeout (s : State) : Out :=
  let k := s.dp.link.step
  if 2 ≤ k ∧ k ≤ 6 then .next (s.attemptFail 0x24)
  else if s.inLinked ∧ s.linkUp then .next (s.linkDown 0x24)
  else .next s

/-! ## Line electrical idle (R157) -/

/-- LINE_SIGNAL_LOSS (R157): a lane whose partner announced status 0x05 goes to HOLD. -/
def execLineSignalLoss (lane : Fin 8) (s : State) : Out :=
  if s.dp.link.peerStatus = 5 ∧ bitOf s.laneMask lane ∧ s.inLinked ∧ s.dp.rx[lane].fe = .track then
    let s := s.onRx lane fun r => { r with fe := .hold, heldIdle := true }
    let s := s.holdLoop lane
    .next (s.onLink fun l => { l with retrainReq := setBit l.retrainReq lane true })
  else .next s

/-- LINE_SIGNAL_DETECT (R157): a held lane is ordered to fast-retrain. -/
def execLineSignalDetect (lane : Fin 8) (s : State) : Out :=
  if s.dp.rx[lane].heldIdle then .next ((s.onRx lane fun r => { r with heldIdle := false }).orderFast lane)
  else .next s

namespace State

/-- LEDGER_LINK_LANEn as it reads (R161). -/
def viewLane (s : State) (a : Nat) : Option Word :=
  if R.LEDGER_LINK_LANEn 0 ≤ a ∧ a ≤ R.LEDGER_LINK_LANEn 7 ∧ a % 4 = 0 then
    let n : Fin 8 := Fin.ofNat 8 ((a - R.LEDGER_LINK_LANEn 0) / 4)
    let r := s.dp.rx[n]
    some (BitVec.ofNat 32 (b2n (s.acquired n) + 2 * b2n (r.lock == .locked) + 4 * b2n (r.lock == .relock) + 8 * b2n r.full
      + 16 * b2n (bitOf s.dp.link.reqSent n) + 32 * b2n (bitOf s.dp.link.peerTx n)
      + 2 ^ 16 * s.rd (F.LEDGER_LINK_LANEn_skew n)))
  else none

end State

end Sys2Proof.Machine
end

