-- ==== Sys2Proof/Machine/CalRun.lean ====
section
/-!
DEFINITION. When a calibration run of a lane starts, waits and is aborted: DAC runs (R67) and ADC runs (R79, R82).
-/

namespace Sys2Proof.Machine

namespace State

/-- The lane temperature in °C, halves away from zero (R341). -/
def laneTempC (s : State) (n : Fin 8) : Nat := ofSigned 8 (roundDiv s.therm.laneTemp[n] 16)

/-- Every sensor is suspect: no temperature-triggered run starts (R341). -/
def allSuspect (s : State) : Bool := s.therm.sensors.toList.all (·.suspect)

/-! ## DAC (R67, R68) -/

def onDac (s : State) (n : Fin 8) (f : DacCal → DacCal) : State := s.onTx n fun t => { t with cal := f t.cal }

/-- A DAC run is requested: one requested while another is busy starts when that ends (R67). -/
def dacRequest (s : State) (n : Fin 8) : State :=
  let s := s.raiseEv (laneEngine n) 10
  if !s.dp.tx[n].powered then s
  else if s.flag (F.OLn_TX_CAL_STAT_busy n) then s.onDac n fun c => { c with again := true }
  else s.wr (F.OLn_TX_CAL_STAT_busy n) 1

/-- The temperature condition of R67, tested while no run is busy. -/
def dacTempCheck (s : State) (n : Fin 8) : State :=
  let c := s.dp.tx[n].cal
  let dt := s.cfg (F.OLn_TX_CAL_CTRL_dt_c n)
  if s.dp.tx[n].powered ∧ s.cfgOn (F.OLn_TX_CAL_CTRL_bg_en n) ∧ dt ≠ 0 ∧ c.accepted ∧ !s.allSuspect
      ∧ !s.flag (F.OLn_TX_CAL_STAT_busy n) ∧ 16 * dt < (s.therm.laneTemp[n] - c.temp).natAbs
    then s.dacRequest n else s

/-! ## ADC (R79–R83) -/

def onAdc (s : State) (n : Fin 8) (f : AdcCal → AdcCal) : State := s.onRx n fun r => { r with adc := f r.adc }

def adcBusy (s : State) (n : Fin 8) : Bool := s.flag (F.OLn_RX_CAL_STAT_busy n)

/-- A run starts at slot j0 (R79). -/
def adcStart (s : State) (n : Fin 8) : State :=
  let s := s.onAdc n fun c =>
    { c with request := false, abort := false, tries := 0, shadowOk := false, partialRun := false, skewOnly := false,
             startTemp := s.therm.laneTemp[n] }
  (s.wr (F.OLn_RX_CAL_STAT_busy n) 1).wr (F.OLn_RX_CAL_STAT_step n) 0

/-- The two lanes of one IG-A engine never run at the same time; the lower-numbered starts first (R82). -/
def adcReview (s : State) (n : Fin 8) : State :=
  let lo : Fin 8 := ⟨n.val / 2 * 2 % 8, Nat.mod_lt _ (by decide)⟩
  let hi : Fin 8 := ⟨(n.val / 2 * 2 + 1) % 8, Nat.mod_lt _ (by decide)⟩
  if s.adcBusy lo || s.adcBusy hi then s
  else if s.dp.rx[lo].adc.request && s.dp.rx[lo].powered then s.adcStart lo
  else if s.dp.rx[hi].adc.request && s.dp.rx[hi].powered then s.adcStart hi
  else s

/-- A run is requested; one requested while a run is busy is remembered once (R82). -/
def adcRequest (s : State) (n : Fin 8) : State :=
  let s := s.raiseEv (laneEngine n) 10
  if s.dp.rx[n].powered then (s.onAdc n fun c => { c with request := true }).adcReview n else s

/-- The temperature condition of R82, tested while no run is busy. -/
def adcTempCheck (s : State) (n : Fin 8) : State :=
  let dt := s.cfg (F.OLn_RX_CAL_CTRL_dt_c n)
  match s.dp.rx[n].adc.lastTemp with
  | none => s
  | some t =>
    if s.dp.rx[n].powered ∧ s.cfgOn (F.OLn_RX_CAL_CTRL_bg_en n) ∧ dt ≠ 0 ∧ !s.allSuspect ∧ !s.adcBusy n
        ∧ 16 * dt < (s.therm.laneTemp[n] - t).natAbs
      then s.adcRequest n else s

/-- The ADC run of a lane ends without its last steps: the next one starts one past the slot of its last step (R79). -/
def adcCut (s : State) (n : Fin 8) : State :=
  let step := s.rd (F.OLn_RX_CAL_STAT_step n)
  (s.onAdc n fun c => { c with abort := false, j0 := (c.j0 + step + 1) % 64 }).wr (F.OLn_RX_CAL_STAT_busy n) 0
    |>.wr (F.OLn_RX_CAL_STAT_last n) 3

/-- What follows the end of a DAC run: a run that was requested meanwhile starts, or the temperature is tested (R67). -/
def dacAfter (s : State) (n : Fin 8) : State :=
  if s.dp.tx[n].cal.again then (s.onDac n fun c => { c with again := false }).dacRequest n else s.dacTempCheck n

/-- Busy calibration runs of a lane end aborted (R383). -/
def abortCalLane (s : State) (n : Fin 8) : State :=
  let s := if s.flag (F.OLn_TX_CAL_STAT_busy n) then
      (s.wr (F.OLn_TX_CAL_STAT_busy n) 0).wr (F.OLn_TX_CAL_STAT_last n) 3 else s
  if s.adcBusy n then s.adcCut n else s

/-- Requests that an aborted run has kept waiting are taken up, and the temperature conditions are tested again (R67, R82). -/
def calAfterAbort (s : State) (n : Fin 8) : State := ((s.dacAfter n).adcTempCheck n).adcReview n

end State

end Sys2Proof.Machine
end

