-- ==== Sys2Proof/Machine/Image.lean ====
section
/-!
DEFINITION. The image: its header, record frames and signed regions (R280–R286), as functions of its bytes, and the keys
that the fuses hold.
-/

namespace Sys2Proof.Machine

/-! ## Header (R280) -/

/-- The header's fields. -/
def hdrLength (h : List Byte) : Nat := leField h 0x10 4
def hdrRecords (h : List Byte) : Nat := leField h 0x14 4
def hdrVersion (h : List Byte) : Nat := leField h 0x18 4
def hdrBuild (h : List Byte) : Nat := leField h 0x1C 4

/-- The magic of a header. -/
def hdrMagic (h : List Byte) : Bool := leField h 0 4 == 0x3208A5C3

/-- Every rule of *Image header* but that of sec_version. -/
def hdrValid (h : List Byte) : Bool :=
  hdrMagic h && leField h 4 2 == 1 && leField h 6 2 == 64 && leField h 8 4 == 0x0C1B3208 && leField h 0xC 4 == 0xB0
    && decide (hdrLength h ≤ 0x800000) && (slice h 0x20 28).all (· == 0) && leField h 0x3C 4 == crc32 (slice h 0 0x3C)

/-- The step that a header fails, if one: 0x05, or 0x08 below the rollback minimum. -/
def hdrFails (h : List Byte) (rollback : Nat) : Option Nat :=
  if !hdrValid h then some 5 else if hdrVersion h < rollback then some 8 else none

/-! ## Records (R282) -/

/-- The type, the body's length, and the bytes of a frame with its padding. -/
def frameKind (f : List Byte) : Nat := leField f 0 2
def frameBody (f : List Byte) : Nat := leField f 4 4
def frameLen (f : List Byte) : Nat := (frameBody f + 12 + 7) / 8 * 8

/-- The frame's CRC checks over its type field to the end of its body. -/
def frameOk (f : List Byte) : Bool :=
  decide (frameBody f + 12 ≤ f.length) && leField f (8 + frameBody f) 4 == crc32 (f.take (8 + frameBody f))

/-- The record of a frame. -/
def frameRecord (f : List Byte) : ImgRecord :=
  { kind := frameKind f, body := (f.drop 8).take (frameBody f), raw := slice f 0 (frameLen f) }

/-- The step that a record with a bad CRC fails, by its type; none where the record is skipped. -/
def badCrcStep (kind : Nat) : Option Nat :=
  match kind with
  | 3 | 7 => none
  | 5 => some 7
  | 6 => some 5
  | _ => some 6

/-- The 4-byte words of a body from an offset. -/
def wordsFrom (b : List Byte) (i : Nat) : List Nat := (List.range ((b.length - i) / 4)).map fun k => leField b (i + 4 * k) 4

/-- The pairs of a CONFIG or SAFE body. -/
def pairsOf (b : List Byte) : List (Nat × Word) :=
  (List.range (b.length / 8)).map fun k => (leField b (8 * k) 4, BitVec.ofNat 32 (leField b (8 * k + 4) 4))

/-- Program memory of an engine code, in words (R373). -/
def engineWords (e : Nat) : Nat := if e = 0 then 65536 else 4096

/-- The engine, the word offset and the words of an ENGINE body. -/
def engineOf (b : List Byte) : Nat := leField b 0 1
def engineOffset (b : List Byte) : Nat := leField b 4 4

/-- The step that a record whose CRC checks fails by its content (*Record types*); whether CONFIG addresses are allowed is
`allowed`. Zero padding and a SIGNATURE's leading bytes are taken as content. -/
def contentStep (allowed : Nat → Bool) (r : ImgRecord) : Option Nat :=
  let n := r.body.length
  match r.kind with
  | 1 => if n % 8 ≠ 0 then some 6 else if (pairsOf r.body).all fun p => allowed p.1 then none else some 9
  | 2 =>
    if n < 8 ∨ n % 4 ≠ 0 ∨ 8 < engineOf r.body ∨ leField r.body 1 3 ≠ 0 then some 6
    else if engineOffset r.body + (n - 8) / 4 ≤ engineWords (engineOf r.body) then none else some 9
  | 3 | 7 => none
  | 4 => if n % 8 = 0 then none else some 6
  | 5 => if n = 196 ∧ leField r.body 0 1 ≤ 1 ∧ leField r.body 1 3 = 0 then none else some 7
  | 6 => if n = 0 then none else some 5
  | _ => some 6

/-- A CONFIG record may name any writable register but TOP's other than TOP_MODE and TOP_INT_EN, SEC, SAFE and the in-force
view. -/
def writable (a : Nat) : Bool :=
  match regDesc a with
  | some d => d.rw != 0 || d.w1c != 0 || d.wo != 0
  | none => false
def configAllowed (a : Nat) : Bool :=
  a % 4 == 0 && writable a && (decide (0x10000 ≤ a) || a == R.TOP_MODE || a == R.TOP_INT_EN) && a / 0x10000 != 7
    && a / 0x10000 != 6

/-! ## The repair map in its record (R369, R370) -/

/-- The eight bytes of an entry. -/
def repairBytes (e : RepairEntry) : List Byte :=
  leBytes 8 (e.kind + 2 ^ 4 * e.unit + 2 ^ 16 * e.index + 2 ^ 32 * e.spare + 2 ^ 40 * e.source)

/-- The entry that eight bytes spell. -/
def repairOf (b : List Byte) : RepairEntry :=
  let v := ofLeBytes b
  { kind := bitsOf v 0 4, unit := bitsOf v 4 12, index := bitsOf v 16 16, spare := bitsOf v 32 8, source := bitsOf v 40 8 }

/-- The body of a REPAIR record. -/
def repairBody (m : List RepairEntry) : List Byte :=
  leBytes 2 1 ++ leBytes 2 m.length ++ leBytes 4 0 ++ m.flatMap repairBytes

/-- The entries of a REPAIR body, where its header is in order. -/
def repairMap (b : List Byte) : Option (List RepairEntry) :=
  let n := leField b 2 2
  if leField b 0 2 = 1 ∧ n ≤ 509 ∧ b.length = 8 + 8 * n then
    some ((List.range n).map fun i => repairOf (slice b (8 + 8 * i) 8))
  else none

namespace State

/-! ## Signatures (R284–R286) -/

/-- A key slot as loaded at step 0x02: an unprogrammed one matches no key. -/
def keySlot (s : State) (owner : Bool) : Option (List Byte) :=
  if owner then (if s.flag F.SEC_LC_owner_set then some s.boot.fuses.ownerHash else none)
  else if s.flag F.SEC_LC_vendor_set then some s.boot.fuses.vendorHash else none

/-- A key matches a slot and a signature of `msg` under it is valid. -/
def signed_ (s : State) (owner : Bool) (q r sg msg : List Byte) : Bool :=
  s.keySlot owner == some (Config.sha384 q) && Config.ecdsaValid q (Config.sha384 msg) r sg

/-- *Signatures required* for a record: 0 none needed, 1 none, owner or vendor, 2 vendor, 3 owner. -/
def slotNeeded (s : State) (r : ImgRecord) : Nat :=
  let open3 := r.kind == 1 || r.kind == 4 || (r.kind == 2 && (engineOf r.body == 3 || engineOf r.body == 4))
  if r.kind = 2 ∨ open3 then
    if !open3 then 2
    else match s.rd F.SEC_LC_lc with
      | 0 => 1
      | 1 => 3
      | _ => 2
  else 0

/-- A SIGNATURE record closes its region validly, with a slot that every record of the region allows. -/
def signatureOk (s : State) (header : List Byte) (region : List ImgRecord) (sig : List Byte) : Bool :=
  let owner := leField sig 0 1 == 1
  let covered := region.filter fun r => r.kind != 3 && r.kind != 7
  let msg := header ++ covered.flatMap (·.raw)
  s.signed_ owner (slice sig 4 96) (slice sig 100 48) (slice sig 148 48) msg
    && region.all fun r => match s.slotNeeded r with
      | 2 => !owner
      | 3 => owner
      | _ => true

/-- A record that may act as soon as it has been read (R286, R289): a CAL record is never covered. -/
def actsUnsigned (s : State) (r : ImgRecord) : Bool := s.slotNeeded r == 1 || r.kind == 3

/-- What one record of an image comes to, with the records that act by then: a failing step, or the region that stays open and
the records that act now. -/
def takeRecord (s : State) (header : List Byte) (region : List ImgRecord) (r : ImgRecord) :
    Nat ⊕ (List ImgRecord × List ImgRecord) :=
  match contentStep configAllowed r with
  | some k => .inl k
  | none =>
    if r.kind = 5 then
      if s.signatureOk header region r.body then .inr ([], region.filter fun x => s.slotNeeded x ≥ 2) else .inl 7
    else if r.kind = 6 then
      if region.any fun x => s.slotNeeded x ≥ 2 then .inl 7 else .inr ([], [])
    else .inr (region ++ [r], if s.actsUnsigned r then [r] else [])

/-- Where the END record must stand (*Record types*): at length − 16, as the last of the header's records. -/
def endPlaced (header : List Byte) (offset nRead : Nat) (r : ImgRecord) : Bool :=
  if r.kind = 6 then offset + 16 == hdrLength header && nRead + 1 == hdrRecords header
  else decide (offset + frameLen r.raw + 16 ≤ hdrLength header) && decide (nRead + 1 < hdrRecords header)

/-- The records of an image in DRAM that act, in order, or none where it fails one of steps 0x05 to 0x07 (R321). -/
def scanRecords (s : State) (base : Nat) (header : List Byte) : Nat → Nat → Nat → List ImgRecord → List ImgRecord →
    Option (List ImgRecord)
  | 0, _, _, _, _ => none
  | fuel + 1, off, n, region, acted =>
    let f := s.dramBytes (base + off) (frameLen (s.dramBytes (base + off) 8))
    let r := frameRecord f
    if !endPlaced header off n r then none
    else if frameOk f then
      match s.takeRecord header region r with
      | .inl _ => none
      | .inr (region, now) =>
        if r.kind = 6 then some (acted ++ now) else scanRecords s base header fuel (off + frameLen f) (n + 1) region (acted ++ now)
    else if badCrcStep r.kind = none then scanRecords s base header fuel (off + frameLen f) (n + 1) region acted
    else none

/-- The image that a download left in DRAM, read again (R321). -/
def rescanDownload (s : State) : Option (List ImgRecord) :=
  let h := s.dramBytes s.boot.dlAddr 64
  if hdrFails h (s.rd F.SEC_LC_rollback_min) = none then
    s.scanRecords s.boot.dlAddr h (hdrLength h / 16 + 1) 64 0 [] []
  else none

end State

end Sys2Proof.Machine
end

