-- ==== Sys2Proof/Machine/Fatal.lean ====
section
/-!
DEFINITION. Fatal errors (R403, R404), engine traps and their consequences (R382, R383), and the start of an engine
(R384).
-/

namespace Sys2Proof.Machine

namespace State

/-- TOP_STATE as it reads (R266, R273). -/
def topState (s : State) : Word :=
  BitVec.ofNat 32 (s.mgmt.dev.code + 2 ^ 4 * s.mgmt.prev.code
    + 2 ^ 8 * (if s.cfg F.TOP_MODE_line_mode ≤ 4 then s.cfg F.TOP_MODE_line_mode else 0) + 2 ^ 11 * b2n s.faultN)

/-- An entry to a power state, or an exit from one, ends where the device goes to FAULT. -/
def dropPower (s : State) : State :=
  { s with pwr := { s.pwr with phase := .none, target := 0, asking := 0, delaying := false, forced := false,
                               byCommand := false, byFollow := false, heldWake := 0,
                               pstate := if s.pwr.pstate = 1 then 0 else s.pwr.pstate } }

/-- An engine stops in reset: no program, or its copy of the image failed (R281, R373). -/
def resetEngine (s : State) (e : Fin 9) : State :=
  s.onEng e fun g => { g with st := .reset, wfe := none, wbuf := [], samplePend := none, cause := 0 }

/-- A fatal error (R404): steps 1 to 4. IG-M's own code takes over from its loaded program, which runs no more. Step 5 is
DUMP_COMPLETE. A further error while the dump is written is recorded in it, and a second further one abandons it with status
3. -/
def fatal (s : State) (cause detail : Nat) : State :=
  if s.dump.writing then
    if s.dump.second = 0 then { s with dump := { s.dump with second := cause } }
    else ({ s with dump := { s.dump with writing := false } }).wr F.EVR_DUMP_STAT_status 3
  else
    let top := s.topState
    let s := ((s.linkStop 0x28).onLink fun l => { l with step := 0 }).dropPower.setDev .fault
    let s := if cause = 1 then s else s.resetEngine 0
    let s := s.evrFreeze false
    let s := s.logEvent srcTop 0x0003 cause detail
    let sram := !(s.flag F.MEM_STAT_dram_ready) || cause == 5
    let s := { s with dump := { s.dump with
      writing := true, cause := cause, detail := detail, second := 0, time := s.evr.time,
      epoch := (s.reg R.TOP_EPOCH).toNat, topState := top, sram := sram } }
    (s.wr F.EVR_DUMP_STAT_status 1).wr F.EVR_DUMP_STAT_area (b2n sram)

/-- Program memory in words, data memory in bytes (R373). -/
def progWords (e : Fin 9) : Nat := if e = 0 then 65536 else 4096
def dataBytes (e : Fin 9) : Nat := if e = 0 then 65536 else 2048

/-- The descriptor of a register, and of an empty offset (R7). -/
def desc (a : Nat) : RegDesc := (regDesc a).getD ⟨0, 0, 4, 0, 0, 0, 0, 0, 0, 0, false, 0⟩

/-- A SAFE pair as IG-S applies it: into SPW fields, with SAFE_LANE.req held at 0 (R351). -/
def safePair (s : State) (p : Nat × Word) : State :=
  let a := 0x60000 + p.1
  if 0x10000 ≤ p.1 ∨ a = R.SAFE_LANE ∨ (desc a).spw = 0 then s else s.safeWrite a (BitVec.ofNat 32 (desc a).spw) p.2

/-- IG-S applies a SAFE record. -/
def safeRecord (s : State) (r : ImgRecord) : State := (pairsOf r.body).foldl (fun s p => s.safePair p) s

/-- The SAFE pairs that have been handed to IG-S, in stream order. -/
def safePairs (s : State) : List (Nat × Word) := (s.boot.acted.filter fun r => r.kind == 4).flatMap fun r => pairsOf r.body

/-- IG-S at its start (R351): the SPW fields return to their reset values, and the SAFE records it has been handed are
applied. -/
def igsBegins (s : State) : State := s.safePairs.foldl (fun s p => s.safePair p) s.safeDefaults

/-- An engine starts at PC 0 with registers, accumulator, stack, EV and timers cleared, and its watchdog period at its
reset value (R384). -/
def startEngine (s : State) (e : Fin 9) : State :=
  let s := s.onEng e fun g =>
    { g with pc := 0, g := Vector.replicate 16 0, acc := 0, stack := [], ev := 0, timer0 := 0, timer1 := 0,
             wdog := (resetWord (R.IGS_En_WDOG e)).toNat,
             st := .run, cause := 0, wfe := none, ldDest := none, accBusy := 0, samplePend := none }
  let s := s.setReg (R.IGS_En_WDOG e) (resetWord (R.IGS_En_WDOG e))
  if e = 1 then s.igsBegins else s

/-- The two lanes of an IG-A engine, OL(2k) and OL(2k + 1) of IG-Ak (R374). -/
def engineLanes (e : Fin 9) : List (Fin 8) := [Fin.ofNat 8 (2 * (e.val - 5)), Fin.ofNat 8 (2 * (e.val - 5) + 1)]

/-- IG-S has stopped: SAFE_FAULT.wdog is latched and IG-S no longer runs (R348, R383). -/
def igsStopped (s : State) : State :=
  let s := { s with safe := { s.safe with igsRun := false } }
  (s.wr F.SAFE_FAULT_wdog 1).reviewSafe

/-- *Trap consequences* (R383). IG-Ak restarts; its third trap within one second, in always-on cycles, is fatal. -/
def trapConsequence (s : State) (e : Fin 9) (cause pc : Nat) : State :=
  if e = 0 then s.fatal 1 (cause + 2 ^ 16 * pc)
  else if e = 2 then s.fatal 2 (cause + 2 ^ 16 * pc)
  else if e = 1 then s.igsStopped
  else if 5 ≤ e.val then
    let now := s.evr.time
    let recent := s.eng[e].trapTimes.filter fun t => decide (now - t < 32768)
    let s := s.onEng e fun g => { g with trapTimes := now :: recent, restarts := Nat.min 15 (g.restarts + 1) }
    -- busy calibration runs on its lanes end aborted (R383)
    let s := (engineLanes e).foldl (fun s n => s.abortCalLane n) s
    if 2 ≤ recent.length then s.fatal 3 e.val
    else
      let c := s.eng[e].cause
      let s := (s.startEngine e).onEng e fun g => { g with cause := c }
      (engineLanes e).foldl (fun s n => s.calAfterAbort n) s
  else s

/-- A trap or HALT (R382, R383): the engine stops at the instruction, before any of its effects. Writes in its buffer
still complete. With IGS_FREEZE.on_trap = 1 the counters freeze (R388). -/
def engineTrap (s : State) (e : Fin 9) (cause : Nat) : State :=
  let pc := s.eng[e].pc
  let s := s.onEng e fun g => { g with st := .stopped, cause := cause, wfe := none, samplePend := none }
  let s := if s.flag F.IGS_FREEZE_on_trap ∧ cause ≠ 9 then s.wr F.IGS_FREEZE_freeze 1 else s
  let s := (s.setIntBit F.IGS_INT_trap e).logEvent srcIgs 0x5001 (e.val * 16 + cause) pc
  let s := if s.dump.writing ∧ e ≠ 0 ∧ e ≠ 2 ∧ s.dump.second = 0
    then { s with dump := { s.dump with second := 3 } } else s
  s.trapConsequence e cause pc

end State

end Sys2Proof.Machine
end

