-- ==== Sys2Proof/Machine/Igsin.lean ====
section
/-!
DEFINITION. The Igsin instructions that do not reach device space (R374–R376, R378–R380, R382), one meaning for each. An
engine that does not run issues nothing.
-/

namespace Sys2Proof.Machine

namespace State

/-- Engine `e` runs, so it can issue an instruction. -/
def canIssue (s : State) (e : Fin 9) : Bool := s.eng[e].st = .run

/-- The one-cycle stall of an instruction that uses the register the last LD wrote (R376). -/
def ldStall (s : State) (e : Fin 9) (uses : List (Fin 16)) : Nat :=
  match s.eng[e].ldDest with
  | some r => b2n (uses.contains r)
  | none => 0

/-- An instruction completes: its effect on the engine, the new PC, the cycle and event counters (R376, R387). -/
def complete (s : State) (e : Fin 9) (cycles stall next : Nat) (f : Engine → Engine) : State :=
  let pc := s.eng[e].pc
  let s := s.onEng e fun g =>
    let g := f { g with accBusy := g.accBusy - (cycles + stall), ldDest := none }
    { g with pc := next }
  let s := ((s.cycCount e (cycles + stall)).evCount e 1 (cycles + stall) pc).evCount e 3 stall pc
  s.retire e pc

/-- A 64-bit word of an engine's memories is read: whether the read returns poison (R357, R358). -/
def engineWordRead (s : State) (e : Fin 9) (k : Nat) : State × Bool :=
  if mapGet 0 s.eng[e].ecc k = 0 then (s, false)
  else
    let (s, code, poison) := s.eccRead false none (mapGet 0 s.eng[e].ecc k)
    (s.onEng e fun g => { g with ecc := mapSet 0 g.ecc k code }, poison)

/-- Half of such a word is written. -/
def engineWordPart (s : State) (e : Fin 9) (k : Nat) : State :=
  if mapGet 0 s.eng[e].ecc k = 0 then s
  else
    let (s, code) := s.eccPart false none (mapGet 0 s.eng[e].ecc k)
    s.onEng e fun g => { g with ecc := mapSet 0 g.ecc k code }

/-- An instruction is issued: a PC past the last word of program memory traps with cause 1 instead (R376), and a fetch that
returns poison with cause 2 (R382). -/
def issue (s : State) (e : Fin 9) (k : State → State) : State :=
  if progWords e ≤ s.eng[e].pc then s.engineTrap e 1
  else
    let (s, poison) := s.engineWordRead e (s.eng[e].pc / 2)
    if poison then s.engineTrap e 2 else k s

/-- An instruction that writes one register from registers and goes on. -/
def aluOp (s : State) (e : Fin 9) (uses : List (Fin 16)) (d : Fin 16) (cycles : Nat) (v : Engine → Word) : State :=
  s.issue e fun s =>
    s.complete e cycles (s.ldStall e uses) (s.eng[e].pc + 1) fun g => { g with g := g.g.set d (v g) }

/-- A register-register instruction (format R). -/
def aluR (s : State) (e : Fin 9) (d a b : Fin 16) (cycles : Nat) (op : Word → Word → Word) : State :=
  s.aluOp e [a, b] d cycles fun g => op g.g[a] g.g[b]

/-- A register-immediate instruction (format I): the immediate is sign-extended (R375). -/
def aluI (s : State) (e : Fin 9) (d a : Fin 16) (imm : BitVec 18) (op : Word → Word → Word) : State :=
  s.aluOp e [a] d 1 fun g => op g.g[a] (imm.signExtend 32)

/-- A branch: PC := PC + 1 + off when taken (R376). A PC below 0 reads as one beyond program memory (log entry 6). -/
def branch (s : State) (e : Fin 9) (a b : Fin 16) (off : BitVec 18) (test : Word → Word → Bool) : State :=
  s.issue e fun s =>
    let pc := s.eng[e].pc
    let stall := s.ldStall e [a, b]
    if test s.eng[e].g[a] s.eng[e].g[b] then
      (s.evCount e 5 1 pc).complete e 2 stall (ofSigned 32 ((pc : Int) + 1 + off.toInt)) id
    else s.complete e 1 stall (pc + 1) id

/-- sat64 (R376). -/
def sat64 (i : Int) : BitVec 64 := BitVec.ofInt 64 (satI (- 2 ^ 63) (2 ^ 63 - 1) i)
/-- sat32 (R376). -/
def sat32 (i : Int) : Word := BitVec.ofInt 32 (satI (- 2 ^ 31) (2 ^ 31 - 1) i)

def bool32 (b : Bool) : Word := if b then 1 else 0

/-- A jump to a target: beyond program memory it traps with cause 1 (R376). -/
def jumpTo (s : State) (e : Fin 9) (target : Nat) (f : Engine → Engine) : State :=
  if progWords e ≤ target then s.engineTrap e 1
  else (s.evCount e 5 1 s.eng[e].pc).complete e 2 0 target f

/-- MACC and MSUB (R376): the result is ready 3 cycles after issue. -/
def macOp (s : State) (e : Fin 9) (a b : Fin 16) (sign : Int) : State :=
  s.issue e fun s =>
    let pc := s.eng[e].pc
    let p := s.eng[e].g[a].toInt * s.eng[e].g[b].toInt
    (s.evCount e 9 1 pc).complete e 1 (s.ldStall e [a, b]) (pc + 1) fun g =>
      { g with acc := sat64 (g.acc.toInt + sign * p), accBusy := 2 }

/-- A data address (R374): the faults of R382, a misaligned address first (log entry 7). -/
def dataFault (e : Fin 9) (addr : Word) : Option Nat :=
  if addr.toNat % 4 ≠ 0 then some 5 else if dataBytes e ≤ addr.toNat then some 4 else none

/-- LD (R376, R382). -/
def doLd (s : State) (e : Fin 9) (d a : Fin 16) (imm : BitVec 18) : State :=
  s.issue e fun s =>
    let addr := s.eng[e].g[a] + imm.signExtend 32
    match dataFault e addr with
    | some c => s.engineTrap e c
    | none =>
      let w := addr.toNat / 4
      let (s, poison) := s.engineWordRead e (2 ^ 20 + w / 2)
      if poison then s.engineTrap e 3
      else s.complete e 1 (s.ldStall e [a]) (s.eng[e].pc + 1) fun g =>
        { g with g := g.g.set d (mapGet 0 g.data w), ldDest := some d }

/-- ST (R376, R382). -/
def doSt (s : State) (e : Fin 9) (src a : Fin 16) (imm : BitVec 18) : State :=
  s.issue e fun s =>
    let addr := s.eng[e].g[a] + imm.signExtend 32
    match dataFault e addr with
    | some c => s.engineTrap e c
    | none =>
      let w := addr.toNat / 4
      let s := s.engineWordPart e (2 ^ 20 + w / 2)
      s.complete e 1 (s.ldStall e [src, a]) (s.eng[e].pc + 1) fun g =>
        { g with data := mapSet 0 g.data w g.g[src] }

/-- CALL: the return stack holds 4 entries (R374, R376). -/
def doCall (s : State) (e : Fin 9) (target : Nat) : State :=
  s.issue e fun s =>
    if 4 ≤ s.eng[e].stack.length then s.engineTrap e 6
    else s.jumpTo e target fun g => { g with stack := (s.eng[e].pc + 1) :: g.stack }

/-- RET (R376). -/
def doRet (s : State) (e : Fin 9) : State :=
  s.issue e fun s =>
    match s.eng[e].stack with
    | [] => s.engineTrap e 7
    | t :: rest =>
      (s.evCount e 5 1 s.eng[e].pc).complete e 2 0 t fun g => { g with stack := rest }

/-- RDACC waits for a pending MACC or MSUB (R376). -/
def doRdacc (s : State) (e : Fin 9) (d : Fin 16) (imm : BitVec 18) : State :=
  s.issue e fun s =>
    s.complete e 1 s.eng[e].accBusy (s.eng[e].pc + 1) fun g =>
      { g with g := g.g.set d (sat32 (roundDiv g.acc.toInt (2 ^ (imm.toNat % 64)))) }

/-- LDACC (R376). -/
def doLdacc (s : State) (e : Fin 9) (a : Fin 16) (imm : BitVec 18) : State :=
  s.issue e fun s =>
    s.complete e 1 (s.ldStall e [a]) (s.eng[e].pc + 1) fun g =>
      { g with acc := sat64 (g.g[a].toInt * 2 ^ (imm.toNat % 64)) }

/-- WFE (R376): with a masked EV bit set, or mask 0, it returns at once; otherwise the engine waits. -/
def doWfe (s : State) (e : Fin 9) (d : Fin 16) (imm : BitVec 18) : State :=
  s.issue e fun s =>
    let mask := imm.setWidth 16
    if mask = 0 ∨ s.eng[e].ev &&& mask ≠ 0 then s.wfeReturn e d mask 0
    else s.onEng e fun g => { g with st := .wait, wfe := some (d, mask) }

/-- TSET (R379): a = 0 stops the timer and sets no bit. -/
def doTset (s : State) (e : Fin 9) (a : Fin 16) (imm : BitVec 18) : State :=
  s.issue e fun s =>
    s.complete e 1 (s.ldStall e [a]) (s.eng[e].pc + 1) fun g =>
      if imm.getLsbD 0 then { g with timer1 := g.g[a].toNat } else { g with timer0 := g.g[a].toNat }

/-- An instruction command: nothing happens unless the engine runs. -/
def whenRuns (s : State) (e : Fin 9) (k : State → State) : State := if s.canIssue e then k s else s

end State

open State

def opSlt (a b : Word) : Word := bool32 (a.slt b)
def opSltu (a b : Word) : Word := bool32 (a.ult b)
def opMin (a b : Word) : Word := if a.sle b then a else b
def opMax (a b : Word) : Word := if a.sle b then b else a
/-- Shifts take the amount from the low five bits (R376). -/
def opShl (a b : Word) : Word := a <<< (b.toNat % 32)
def opShr (a b : Word) : Word := a >>> (b.toNat % 32)
def opSar (a b : Word) : Word := a.sshiftRight (b.toNat % 32)
/-- MOVHI's value (R376). -/
def opMovhi (d : Word) (imm : BitVec 16) : Word := (d &&& 0x0000FFFF) ||| (imm.setWidth 32 <<< 16)

/-- NOP (R376). -/
def doNopInstruction (s : State) (e : Fin 9) : State := s.issue e fun s => s.complete e 1 0 (s.eng[e].pc + 1) id
/-- CLRACC (R376). -/
def doClracc (s : State) (e : Fin 9) : State :=
  s.issue e fun s => s.complete e 1 0 (s.eng[e].pc + 1) fun g => { g with acc := 0 }
/-- KICK (R380). -/
def doKick (s : State) (e : Fin 9) : State :=
  s.issue e fun s => s.complete e 1 0 (s.eng[e].pc + 1) fun g => { g with wdog := s.rd (F.IGS_En_WDOG_ms e) }
/-- HALT (R383): cause 9. -/
def doHalt (s : State) (e : Fin 9) : State := s.issue e fun s => s.engineTrap e 9
/-- MOVI (R376). -/
def doMovi (s : State) (e : Fin 9) (d : Fin 16) (imm : BitVec 18) : State :=
  s.aluOp e [] d 1 fun _ => imm.signExtend 32
/-- MOVHI (R376). -/
def doMovhi (s : State) (e : Fin 9) (d : Fin 16) (imm : BitVec 16) : State :=
  s.aluOp e [d] d 1 fun g => opMovhi g.g[d] imm

def execNopInstruction (e : Fin 9) (s : State) : Out := .next (s.whenRuns e fun s => doNopInstruction s e)
def execAdd (e : Fin 9) (d a b : Fin 16) (s : State) : Out := .next (s.whenRuns e fun s => s.aluR e d a b 1 (· + ·))
def execSub (e : Fin 9) (d a b : Fin 16) (s : State) : Out := .next (s.whenRuns e fun s => s.aluR e d a b 1 (· - ·))
def execAnd (e : Fin 9) (d a b : Fin 16) (s : State) : Out := .next (s.whenRuns e fun s => s.aluR e d a b 1 (· &&& ·))
def execOr (e : Fin 9) (d a b : Fin 16) (s : State) : Out := .next (s.whenRuns e fun s => s.aluR e d a b 1 (· ||| ·))
def execXor (e : Fin 9) (d a b : Fin 16) (s : State) : Out := .next (s.whenRuns e fun s => s.aluR e d a b 1 (· ^^^ ·))
def execShl (e : Fin 9) (d a b : Fin 16) (s : State) : Out := .next (s.whenRuns e fun s => s.aluR e d a b 1 opShl)
def execShr (e : Fin 9) (d a b : Fin 16) (s : State) : Out := .next (s.whenRuns e fun s => s.aluR e d a b 1 opShr)
def execSar (e : Fin 9) (d a b : Fin 16) (s : State) : Out := .next (s.whenRuns e fun s => s.aluR e d a b 1 opSar)
def execMul (e : Fin 9) (d a b : Fin 16) (s : State) : Out := .next (s.whenRuns e fun s => s.aluR e d a b 2 (· * ·))
def execSlt (e : Fin 9) (d a b : Fin 16) (s : State) : Out := .next (s.whenRuns e fun s => s.aluR e d a b 1 opSlt)
def execSltu (e : Fin 9) (d a b : Fin 16) (s : State) : Out := .next (s.whenRuns e fun s => s.aluR e d a b 1 opSltu)
def execMin (e : Fin 9) (d a b : Fin 16) (s : State) : Out := .next (s.whenRuns e fun s => s.aluR e d a b 1 opMin)
def execMax (e : Fin 9) (d a b : Fin 16) (s : State) : Out := .next (s.whenRuns e fun s => s.aluR e d a b 1 opMax)
def execAddi (e : Fin 9) (d a : Fin 16) (imm : BitVec 18) (s : State) : Out :=
  .next (s.whenRuns e fun s => s.aluI e d a imm (· + ·))
def execAndi (e : Fin 9) (d a : Fin 16) (imm : BitVec 18) (s : State) : Out :=
  .next (s.whenRuns e fun s => s.aluI e d a imm (· &&& ·))
def execOri (e : Fin 9) (d a : Fin 16) (imm : BitVec 18) (s : State) : Out :=
  .next (s.whenRuns e fun s => s.aluI e d a imm (· ||| ·))
def execXori (e : Fin 9) (d a : Fin 16) (imm : BitVec 18) (s : State) : Out :=
  .next (s.whenRuns e fun s => s.aluI e d a imm (· ^^^ ·))
def execShli (e : Fin 9) (d a : Fin 16) (imm : BitVec 18) (s : State) : Out :=
  .next (s.whenRuns e fun s => s.aluI e d a imm opShl)
def execShri (e : Fin 9) (d a : Fin 16) (imm : BitVec 18) (s : State) : Out :=
  .next (s.whenRuns e fun s => s.aluI e d a imm opShr)
def execSari (e : Fin 9) (d a : Fin 16) (imm : BitVec 18) (s : State) : Out :=
  .next (s.whenRuns e fun s => s.aluI e d a imm opSar)
def execMovi (e : Fin 9) (d : Fin 16) (imm : BitVec 18) (s : State) : Out := .next (s.whenRuns e fun s => doMovi s e d imm)
def execMovhi (e : Fin 9) (d : Fin 16) (imm : BitVec 16) (s : State) : Out := .next (s.whenRuns e fun s => doMovhi s e d imm)
def execLd (e : Fin 9) (d a : Fin 16) (imm : BitVec 18) (s : State) : Out := .next (s.whenRuns e fun s => s.doLd e d a imm)
def execSt (e : Fin 9) (src a : Fin 16) (imm : BitVec 18) (s : State) : Out :=
  .next (s.whenRuns e fun s => s.doSt e src a imm)
def execBeq (e : Fin 9) (a b : Fin 16) (off : BitVec 18) (s : State) : Out :=
  .next (s.whenRuns e fun s => s.branch e a b off fun x y => decide (x = y))
def execBne (e : Fin 9) (a b : Fin 16) (off : BitVec 18) (s : State) : Out :=
  .next (s.whenRuns e fun s => s.branch e a b off fun x y => decide (x ≠ y))
def execBlt (e : Fin 9) (a b : Fin 16) (off : BitVec 18) (s : State) : Out :=
  .next (s.whenRuns e fun s => s.branch e a b off BitVec.slt)
def execBge (e : Fin 9) (a b : Fin 16) (off : BitVec 18) (s : State) : Out :=
  .next (s.whenRuns e fun s => s.branch e a b off fun x y => !(x.slt y))
def execBltu (e : Fin 9) (a b : Fin 16) (off : BitVec 18) (s : State) : Out :=
  .next (s.whenRuns e fun s => s.branch e a b off BitVec.ult)
def execBgeu (e : Fin 9) (a b : Fin 16) (off : BitVec 18) (s : State) : Out :=
  .next (s.whenRuns e fun s => s.branch e a b off fun x y => !(x.ult y))
def execJ (e : Fin 9) (target : BitVec 16) (s : State) : Out :=
  .next (s.whenRuns e fun s => s.issue e fun s => s.jumpTo e target.toNat id)
def execCall (e : Fin 9) (target : BitVec 16) (s : State) : Out := .next (s.whenRuns e fun s => s.doCall e target.toNat)
def execRet (e : Fin 9) (s : State) : Out := .next (s.whenRuns e fun s => s.doRet e)
def execMacc (e : Fin 9) (a b : Fin 16) (s : State) : Out := .next (s.whenRuns e fun s => s.macOp e a b 1)
def execMsub (e : Fin 9) (a b : Fin 16) (s : State) : Out := .next (s.whenRuns e fun s => s.macOp e a b (-1))
def execRdacc (e : Fin 9) (d : Fin 16) (imm : BitVec 18) (s : State) : Out :=
  .next (s.whenRuns e fun s => s.doRdacc e d imm)
def execClracc (e : Fin 9) (s : State) : Out := .next (s.whenRuns e fun s => doClracc s e)
def execLdacc (e : Fin 9) (a : Fin 16) (imm : BitVec 18) (s : State) : Out :=
  .next (s.whenRuns e fun s => s.doLdacc e a imm)
def execWfe (e : Fin 9) (d : Fin 16) (imm : BitVec 18) (s : State) : Out := .next (s.whenRuns e fun s => s.doWfe e d imm)
def execTset (e : Fin 9) (a : Fin 16) (imm : BitVec 18) (s : State) : Out :=
  .next (s.whenRuns e fun s => s.doTset e a imm)
def execKick (e : Fin 9) (s : State) : Out := .next (s.whenRuns e fun s => doKick s e)
def execHalt (e : Fin 9) (s : State) : Out := .next (s.whenRuns e fun s => doHalt s e)
/-- ILLEGAL_INSTRUCTION (R375): a word that spells no instruction is fetched, trap cause 1. -/
def execIllegalInstruction (e : Fin 9) (word : Word) (s : State) : Out :=
  .next (if (igsDecode e word 0).isNone then s.whenRuns e fun s => s.issue e fun s => s.engineTrap e 1 else s)

end Sys2Proof.Machine
end

