-- ==== Sys2Proof/Machine/Engines.lean ====
section
/-!
DEFINITION. What reaches an engine from outside its program: debug control, timers, watchdog, doorbell, event logging, its
memories, the counter freeze, and its windows (R379–R390).
-/

namespace Sys2Proof.Machine

/-- The code of IGS_En_STAT.state (R390). -/
def EngState.code : EngState → Nat
  | .reset => 0 | .run => 1 | .wait => 2 | .halted => 3 | .stopped => 4

namespace State

/-! ## Debug (R292, R385) -/

/-- *Security combinations* grants engine debug for an engine. -/
def debugGrants (s : State) (e : Fin 9) : Bool :=
  s.flag F.SEC_DBG_STAT_unlocked && e != 1 && (s.rd F.SEC_LC_lc != 1 || e == 3 || e == 4)

/-- The port is one on which engine debug can be granted: an engine's own accesses (port 4) are none (DEDUCED, log entry
22). -/
def debugPort (s : State) (port : Fin 5) (e : Fin 9) : Bool := port != 4 && s.debugGrants e

/-- A debugger halts an engine after its current instruction. -/
def engineHalt (s : State) (e : Fin 9) : State :=
  if s.eng[e].st = .run ∨ s.eng[e].st = .wait then s.onEng e fun g => { g with st := .halted } else s

/-- An engine resumes from a debug halt; one that was in a WFE waits on, or returns at once where a masked bit is set. -/
def engineRun (s : State) (e : Fin 9) : State :=
  if s.eng[e].st = .halted then
    match s.eng[e].wfe with
    | none => s.onEng e fun g => { g with st := .run }
    | some (d, m) =>
      if s.eng[e].ev &&& m = 0 then s.onEng e fun g => { g with st := .wait }
      else (s.drew).wfeReturn e d m s.freeNat
  else s

/-- IGS_En_CTRL.restart (R384): an engine with a program. -/
def engineRestart (s : State) (e : Fin 9) : State :=
  if s.eng[e].hasProg then s.startEngine e else s

/-! ## Memories (R385, R390) -/

/-- Whether IGS_En_MEM_ADDR names data memory, its word, and whether the memory has it. -/
def memWhere (s : State) (e : Fin 9) : Bool × Nat × Bool :=
  let data := s.flag (F.IGS_En_MEM_ADDR_data e)
  let w := s.rd (F.IGS_En_MEM_ADDR_addr e) / 4
  (data, w, decide (w < (if data then dataBytes e / 4 else progWords e)))

/-- Each access to IGS_En_MEM_DATA advances addr by 4. -/
def memAdvance (s : State) (e : Fin 9) : State :=
  s.wr (F.IGS_En_MEM_ADDR_addr e) (s.rd (F.IGS_En_MEM_ADDR_addr e) + 4)

/-- A read of IGS_En_MEM_DATA: the word, and whether it is read with poison. -/
def memDataRead (s : State) (e : Fin 9) : State × Word × Bool :=
  let (data, w, ok) := s.memWhere e
  let v := if !ok then 0 else if data then mapGet 0 s.eng[e].data w else mapGet 0 s.eng[e].prog w
  let (s, poison) := if ok then s.engineWordRead e ((if data then 2 ^ 20 else 0) + w / 2) else (s, false)
  (s.memAdvance e, v, poison)

/-- A write of IGS_En_MEM_DATA; `bad` is what an injected error leaves in the word (R358). -/
def memDataWrite (s : State) (e : Fin 9) (v : Word) (bad : Option Nat) : State :=
  let (data, w, ok) := s.memWhere e
  let s :=
    if !ok then s
    else
      let k := (if data then 2 ^ 20 else 0) + w / 2
      let s := s.engineWordPart e k
      let s := s.onEng e fun g =>
        if data then { g with data := mapSet 0 g.data w v } else { g with prog := mapSet 0 g.prog w v, hasProg := true }
      match bad with
      | some c => s.onEng e fun g => { g with ecc := mapSet 0 g.ecc k c }
      | none => s
  s.memAdvance e

/-! ## Logging, doorbell, counters -/

/-- IGS_En_LOG (R391, R392): codes of IG-H and IG-N are forced into class 0xF. -/
def engineLog (s : State) (e : Fin 9) (code arg pc : Nat) : State :=
  let code := if code = 0 then 0 else if e = 3 ∨ e = 4 then code % 2 ^ 12 + 0xF000 else code
  s.logEvent e.val code arg pc

/-- IGS_FREEZE (R388, R390). -/
def freezeWrite (s : State) (v : Word) : State := s.setReg R.IGS_FREEZE (v &&& 3)

/-! ## Windows (R381) -/

/-- A lane block of the device address map: the host lane or the optical lane it belongs to. -/
def hlBlock (a : Nat) : Option Nat := if 0x100000 ≤ a ∧ a < 0x200000 then some ((a - 0x100000) / 0x10000) else none
def olBlock (a : Nat) : Option Nat := if 0x200000 ≤ a ∧ a < 0x280000 then some ((a - 0x200000) / 0x10000) else none

/-- The address lies in one of `ks` 64 KiB blocks. -/
def inBlocks (a : Nat) (ks : List Nat) : Bool := ks.contains (a / 0x10000)

/-- Window `k` of IG-H or IG-N covers an address. -/
def windowCovers (s : State) (e k a : Nat) (write : Bool) : Bool :=
  s.cfgOn (F.IGS_En_WINk_en e k) && (!write || s.cfgOn (F.IGS_En_WINk_wr e k))
    && decide (s.cfg (F.IGS_En_WINk_base e k) ≤ a / 4096)
    && decide (a / 4096 ≤ s.cfg (F.IGS_En_WINk_base e k) + s.cfg (F.IGS_En_WINk_pages_m1 e k))

/-- An engine's access to an address lies in its windows: *Engine windows*, and its own region. -/
def engineMay (s : State) (e : Fin 9) (a : Nat) (write : Bool) : Bool :=
  let own := decide (0xD1000 + 0x100 * e.val ≤ a) && decide (a < 0xD1100 + 0x100 * e.val)
  own || match e with
  | 0 => true
  | 1 => inBlocks a [6] || (!write && inBlocks a [4, 3, 5, 0])
  | 2 => inBlocks a [2, 1] || (!write && inBlocks a [0, 5])
  | 3 | 4 => (List.range 4).any fun k => s.windowCovers e k a write
  | _ =>
    let k := e.val - 5
    (match olBlock a with | some n => n / 2 == k | none => false)
      || (match hlBlock a with | some n => n / 4 == k | none => false)
      || (!write && inBlocks a [5, 0])

/-- Engine `e` runs or waits. -/
def engineAlive (s : State) (e : Fin 9) : Bool := s.eng[e].st = .run || s.eng[e].st = .wait

/-- What the IGS status registers read (R390). -/
def viewIgs (s : State) (a : Nat) : Option Word :=
  if a = R.IGS_STAT then
    some (BitVec.ofNat 32 ((List.finRange 9).foldl (fun m e =>
      m + (if s.engineAlive e then 2 ^ e.val else 0) + (if s.eng[e].st = .stopped then 2 ^ (16 + e.val) else 0)) 0))
  else
    match (List.finRange 9).find? fun e => R.IGS_En_STAT e.val == a with
    | some e =>
      let g := s.eng[e]
      some (BitVec.ofNat 32 (g.st.code + 2 ^ 3 * g.cause + 2 ^ 7 * (g.pc % 2 ^ 16) + 2 ^ 23 * g.restarts))
    | none => none

end State

/-- ENGINE_TIMER_EXPIRE (R379): a stopped timer does not expire. -/
def execEngineTimerExpire (e : Fin 9) (timer : Fin 2) (s : State) : Out :=
  let left := if timer = 0 then s.eng[e].timer0 else s.eng[e].timer1
  if left = 0 then .next s
  else
    .next ((s.onEng e fun g => if timer = 0 then { g with timer0 := 0 } else { g with timer1 := 0 }).raiseEv e (timer.val))

/-- ENGINE_WATCHDOG_EXPIRE (R380): trap cause 8, while the engine runs or waits; 0 disables it, except on IG-S. -/
def execEngineWatchdogExpire (e : Fin 9) (s : State) : Out :=
  .next (if s.engineAlive e ∧ (e = 1 ∨ s.rd (F.IGS_En_WDOG_ms e) ≠ 0) then s.engineTrap e 8 else s)

end Sys2Proof.Machine
end

