-- ==== Sys2Proof/Machine/Real.lean ====
section
/-!
DEFINITION. The functions of real numbers that the signal processing of the block needs, over exact rational numbers: the
circular functions, the angle of a complex number, and the natural logarithm (R87, R89, R92, R96, R107). The spec gives the
formulas and not the precision of the device's arithmetic: quotients and these functions carry `Config.precision` fraction
bits, and sums and products are exact (log entry 16).
-/

namespace Sys2Proof.Machine

/-! ## Complex numbers -/

abbrev Cx := Rat × Rat

def cxAdd (x y : Cx) : Cx := (x.1 + y.1, x.2 + y.2)
def cxSub (x y : Cx) : Cx := (x.1 - y.1, x.2 - y.2)
def cxMul (x y : Cx) : Cx := (x.1 * y.1 - x.2 * y.2, x.1 * y.2 + x.2 * y.1)
def cxConj (x : Cx) : Cx := (x.1, -x.2)
def cxScale (r : Rat) (x : Cx) : Cx := (r * x.1, r * x.2)
def cxAbs2 (x : Cx) : Rat := x.1 * x.1 + x.2 * x.2

def ratSum (xs : List Rat) : Rat := xs.foldl (· + ·) 0

/-! ## Rounding -/

/-- `x` to `n` fraction bits, the nearest with halves up. -/
def roundBits (n : Nat) (x : Rat) : Rat := (((x * 2 ^ n + 1 / 2).floor : Int) : Rat) / 2 ^ n

/-- `x` in the device's precision. -/
def rnd (x : Rat) : Rat := roundBits Config.precision x

/-- A quotient, or the open value of a division by zero. -/
def quot (a b : Rat) : Rat := if b = 0 then Config.undefQuotient a else rnd (a / b)

def cxDiv (x : Cx) (r : Rat) : Cx := (quot x.1 r, quot x.2 r)

/-! ## Series, with enough terms for `Config.precision` fraction bits -/

def seriesTerms : Nat := Config.precision + 8

/-- Σ s^k x^(2k+1) / (2k+1), over k below `n`: artanh x for s = 1, arctan x for s = −1. -/
def arcSeries (s x : Rat) (n : Nat) : Rat :=
  ratSum ((List.range n).map fun k => s ^ k * x ^ (2 * k + 1) / ((2 * k + 1 : Nat) : Rat))

/-- π, by Machin's formula. -/
def piRat : Rat :=
  roundBits (Config.precision + 16)
    (16 * arcSeries (-1) (1 / 5) seriesTerms - 4 * arcSeries (-1) (1 / 239) seriesTerms)

/-- cos y and sin y for 0 ≤ y ≤ π/2. -/
def cosSin (y : Rat) : Cx :=
  let term (k : Nat) : Rat := y ^ k / ((Nat.factorial k : Nat) : Rat)
  let sum (o : Nat) : Rat := ratSum ((List.range seriesTerms).map fun k => (-1) ^ k * term (2 * k + o))
  (sum 0, sum 1)

/-- e^(j2πx): x is taken modulo 1, and the quarter turns of it are exact. -/
def turn (x : Rat) : Cx :=
  let f := x - ((x.floor : Int) : Rat)
  let q := (4 * f).floor.toNat
  let (c, s) := cosSin (2 * piRat * roundBits (Config.precision + 16) (f - (q : Rat) / 4))
  let (c, s) := if f * 4 = (q : Rat) then (1, 0) else (rnd c, rnd s)
  match q with
  | 0 => (c, s)
  | 1 => (-s, c)
  | 2 => (-c, -s)
  | _ => (s, -c)

/-- arctan x for |x| ≤ 1, in turns. -/
def arctanTurns (x : Rat) : Rat :=
  let x := roundBits (Config.precision + 16) x
  let small (t : Rat) : Rat := arcSeries (-1) (roundBits (Config.precision + 16) t) seriesTerms / (2 * piRat)
  if 1 / 2 < x then 1 / 8 + small ((x - 1) / (x + 1))
  else if x < -(1 / 2) then -(1 / 8) + small ((x + 1) / (1 - x))
  else small x

/-- The angle of a complex number in turns, above −1/2 and at most 1/2; that of 0 is open. -/
def angle (z : Cx) : Rat :=
  let (re, im) := z
  if re = 0 ∧ im = 0 then Config.undefQuotient 0
  else if im.abs ≤ re.abs then
    let a := rnd (arctanTurns (im / re))
    if 0 < re then a else if 0 ≤ im then a + 1 / 2 else a - 1 / 2
  else
    let a := rnd (arctanTurns (re / im))
    if 0 < im then 1 / 4 - a else -(1 / 4) - a

/-- ln x for x > 0; the logarithm of any other number is open. -/
def lnRat (x : Rat) : Rat :=
  if x ≤ 0 then Config.undefQuotient x
  else
    let e : Int := (Nat.log2 x.num.natAbs : Int) - Nat.log2 x.den
    let m := if 0 ≤ e then x / 2 ^ e.toNat else x * 2 ^ (-e).toNat
    let u := roundBits (Config.precision + 16) ((m - 1) / (m + 1))
    rnd (2 * arcSeries 1 u seriesTerms + (e : Rat) * (2 * arcSeries 1 (1 / 3) seriesTerms))

end Sys2Proof.Machine
end

