-- ==== Sys2Proof/Machine/Equalise.lean ====
section
/-!
DEFINITION. The arithmetic of the frequency-domain equaliser and of the detector's estimates (R87–R93, R100, R105, R106),
over exact rational numbers. What the spec leaves open of it stands in Config (log entry 16).
-/

namespace Sys2Proof.Machine

/-- 1 − 2^−k (R89). -/
def forget (k : Nat) : Rat := 1 - 1 / (2 ^ k : Nat)

/-- λ old + (1 − λ) new with λ = 1 − 2^−k. -/
def blend (k : Nat) (old new : Rat) : Rat := forget k * old + (1 - forget k) * new

def cxBlend (k : Nat) (old new : Cx) : Cx := (blend k old.1 new.1, blend k old.2 new.2)

/-! ## The transform (R87) -/

/-- The members of a list at even, and at odd, places. -/
def halves {α : Type} : List α → List α × List α
  | [] => ([], [])
  | [x] => ([x], [])
  | x :: y :: t => let (e, o) := halves t; (x :: e, y :: o)

/-- The DFT of 2^k numbers, from those of its halves; `root m` is e^(−j2πm/1,024). -/
def dftOf (root : Nat → Cx) : Nat → List Cx → List Cx
  | 0, x => x
  | k + 1, x =>
    let (e, o) := halves x
    let e := dftOf root k e
    let o := (dftOf root k o).zipIdx.map fun (v, m) => cxMul v (root (m * 2 ^ (9 - k)))
    List.zipWith cxAdd e o ++ List.zipWith cxSub e o

/-- The roots of unity of the 1,024-point transform. -/
def rootTable : Array Cx := ((List.range 512).map fun (m : Nat) => turn (-((m : Rat) / 1024))).toArray
def rootOf (m : Nat) : Cx := rootTable.getD m (0, 0)

/-- A list of 1,024 numbers, zeros where it has fewer. -/
def padTo {α : Type} (z : α) (n : Nat) (x : List α) : List α := x.take n ++ List.replicate (n - x.length) z

/-- Bins 0–512 of the 1,024-point DFT of real samples. -/
def dft (x : List Rat) : List Cx := (dftOf rootOf 10 ((padTo 0 1024 x).map fun v => (v, 0))).take 513

/-- The inverse DFT of bins 0–512, with conjugate symmetry for bins 513–1,023: 1,024 real samples. -/
def idft (w : List Cx) : List Rat :=
  let w := padTo (0, 0) 513 w
  let full := w ++ ((w.drop 1).take 511).reverse.map cxConj
  -- the inverse transform is the conjugate of the transform of the conjugates, over 1,024
  (dftOf rootOf 10 (full.map cxConj)).map fun v => v.1 / 1024

/-! ## Taps (R89, R91, R92) -/

/-- The weak bins of a known sequence (R91). -/
def weakBins (p : List Cx) : List Bool :=
  let mean := ratSum (p.map cxAbs2) / 513
  p.map fun x => decide (16 * cxAbs2 x < mean)

/-- Bin `k` of a tap set, for any integer: the taps of a real filter are conjugate symmetric, so bins below 0 and above 512
mirror the others. -/
def tapAt (w : List Cx) (k : Int) : Cx :=
  if k < 0 then cxConj (w.getD (-k).toNat (0, 0))
  else if 512 < k then cxConj (w.getD (1024 - k).toNat (0, 0))
  else w.getD k.toNat (0, 0)

def weakAt (weak : List Bool) (k : Int) : Bool :=
  weak.getD (if k < 0 then (-k).toNat else if 512 < k then (1024 - k).toNat else k.toNat) false

/-- Weak bins take the linear interpolation of the nearest bins on either side that are not weak (R91). A weak bin at an
end of the range takes the mirrored taps beyond it (log entry 16). -/
def interpolate (weak : List Bool) (w : List Cx) : List Cx :=
  w.zipIdx.map fun (x, k) =>
    if !weak.getD k false then x
    else
      match (List.range 513).find? (fun (i : Nat) => !weakAt weak ((k : Int) - i)),
            (List.range 513).find? (fun (i : Nat) => !weakAt weak ((k : Int) + i)) with
      | some i, some j =>
        let lo := tapAt w ((k : Int) - i)
        let hi := tapAt w ((k : Int) + j)
        cxAdd lo (cxScale (quot (i : Rat) ((i + j : Nat) : Rat)) (cxSub hi lo))
      | _, _ => x

/-- Angles unwrapped: each lies within half a turn of the one before it. -/
def unwrap : List Rat → List Rat
  | [] => []
  | x :: t =>
    (t.foldl (fun (st : List Rat × Rat) y =>
      let y := y - (((y - st.2 + 1 / 2).floor : Int) : Rat)
      (st.1 ++ [y], y)) ([x], x)).1

/-- The slope of the straight line a + b k fitted to values at bins k by weighted least squares. -/
def lineSlope (pts : List (Rat × Rat × Rat)) : Rat :=
  let sum (f : Rat × Rat × Rat → Rat) : Rat := ratSum (pts.map f)
  let w := sum fun (_, _, w) => w
  let k := sum fun (k, _, w) => w * k
  let kk := sum fun (k, _, w) => w * k * k
  let y := sum fun (_, y, w) => w * y
  let ky := sum fun (k, y, w) => w * k * y
  quot (w * ky - k * y) (w * kk - k * k)

/-- The bins that are not weak, with their taps. -/
def strongBins {α : Type} (weak : List Bool) (w : List α) : List (α × Nat) := w.zipIdx.filter fun (_, k) => !weak.getD k false

/-- The group delay τ of a tap set: the unwrapped phase is −2πkτ/1,024 (R92). That the line has a constant term too and is
fitted by least squares is a DESIGN CHOICE (log entry 16). -/
def groupDelay (weak : List Bool) (w : List Cx) (pow : List Rat) : Rat :=
  let bins := strongBins weak w
  let phase := unwrap (bins.map fun (x, _) => angle x)
  lineSlope (List.zipWith (fun (y : Rat) (x : Cx × Nat) => ((x.2 : Rat), y, pow.getD x.2 0)) phase bins) * (-1024)

/-- δ of R96: arg(Y_B,k conj(Y_A,k)) ≈ −2πkδ/1,024 over the bins that are not weak, by least squares with equal weights
(DESIGN CHOICE, log entry 16). -/
def pilotAdvance (weak : List Bool) (ya yb : List Cx) : Rat :=
  let bins := strongBins weak (List.zipWith (fun a b => angle (cxMul b (cxConj a))) ya yb)
  quot (ratSum (bins.map fun (y, k) => (k : Rat) * y)) (ratSum (bins.map fun (_, k) => (k : Rat) * k)) * (-1024)

/-- Multiply every tap by exp(j2πkd / 1,024) (R92). -/
def advance (d : Rat) (w : List Cx) : List Cx :=
  w.zipIdx.map fun (x, k) => cxMul x (turn ((k : Rat) * d / 1024))

/-- The transforms of a superframe's two blocks, of their known sequences, and the weak bins. -/
structure PilotBins where
  ya : List Cx
  yb : List Cx
  pa : List Cx
  pb : List Cx
  weak : List Bool

/-- The bins of the pilot blocks of lane `n` (R89, R91). -/
def pilotBins (n : Nat) (a b : List Rat) : PilotBins :=
  let p := dft ((pilot n).map fun l => ((levelOf l : Int) : Rat))
  { ya := dft a, yb := dft b, pa := p, pb := p, weak := weakBins p }

/-- The bins of two qualified blocks with their decisions in a standard mode (R99): a bin is weak where it is weak in either. -/
def dataBins (perSymbol : Nat) (a b : List Rat × List Nat) : PilotBins :=
  let known (l : List Nat) := dft (Config.knownSamples perSymbol (l.map levelOf))
  let pa := known a.2
  let pb := known b.2
  { ya := dft a.1, yb := dft b.1, pa := pa, pb := pb, weak := List.zipWith (· || ·) (weakBins pa) (weakBins pb) }

/-- A block qualifies (R99): every level makes up an eighth of its symbols, and no run of equal symbols exceeds 16. -/
def longestRun : List Nat → Nat
  | [] => 0
  | x :: t =>
    let (best, _, _) := t.foldl (fun (best, run, last) (y : Nat) =>
      let run := if y = last then run + 1 else 1
      (Nat.max best run, run, y)) (1, 1, x)
    best

def qualified (l : List Nat) : Bool :=
  (List.range 4).all (fun v => decide (l.length ≤ 8 * (l.filter (· == v)).length)) && decide (longestRun l ≤ 16)

/-- A list of 513, zeros where it has none yet. -/
def at513 {α : Type} (z : α) (l : List α) (k : Nat) : α := l.getD k z

/-- Acc of R89. -/
def newAcc (k : Nat) (old : List Cx) (b : PilotBins) : List Cx :=
  (List.range 513).map fun i =>
    cxBlend k (at513 (0, 0) old i)
      (cxAdd (cxMul (b.pa.getD i (0, 0)) (cxConj (b.ya.getD i (0, 0)))) (cxMul (b.pb.getD i (0, 0)) (cxConj (b.yb.getD i (0, 0)))))

/-- Pow of R89. -/
def newPow (k : Nat) (old : List Rat) (b : PilotBins) : List Rat :=
  (List.range 513).map fun i =>
    blend k (at513 0 old i) (cxAbs2 (b.ya.getD i (0, 0)) + cxAbs2 (b.yb.getD i (0, 0)))

/-- ε of R89. -/
def epsOf (sh : Nat) (pow : List Rat) : Rat := ratSum pow / 513 / (2 ^ sh : Nat)

/-- W of R89, before weak bins. -/
def newTaps (eps : Rat) (acc : List Cx) (pow : List Rat) : List Cx :=
  List.zipWith (fun a p => cxDiv a (p + eps)) acc pow

/-- The block disagreement D of R93. -/
def disagreement (eps : Rat) (b : PilotBins) : Rat :=
  let one (p y : List Cx) (i : Nat) : Cx :=
    cxDiv (cxMul (p.getD i (0, 0)) (cxConj (y.getD i (0, 0)))) (cxAbs2 (y.getD i (0, 0)) + eps)
  let ks := (List.range 513).filter fun i => !b.weak.getD i false
  quot (ratSum (ks.map fun i => cxAbs2 (cxSub (one b.pa b.ya i) (one b.pb b.yb i))))
    (ratSum (ks.map fun i => cxAbs2 (cxAdd (one b.pa b.ya i) (one b.pb b.yb i))))

/-! ## Pilots through a tap set: R100, R105, R106 -/

/-- A block through a tap set. -/
def equalise (w : List Cx) (y : List Cx) : List Rat := idft (List.zipWith cxMul w y)

/-- For each symbol of both blocks: z, a[m], a[m−1], a[m−2] and the pair of R106. The symbols before a block are the end of
P (R28). -/
def pilotSymbols (n : Nat) (za zb : List Rat) : List (Rat × Int × Int × Int × Nat) :=
  let p := pilot n
  let lab (m : Nat) : Nat := p.getD ((m + 1024) % 1024) 0
  let block (z : List Rat) : List (Rat × Int × Int × Int × Nat) := z.zipIdx.map fun (v, m) =>
    (v, levelOf (lab m), levelOf (lab (m + 1023)), levelOf (lab (m + 1022)), 4 * lab (m + 1023) + lab m)
  block za ++ block zb

/-- The same for the symbols of a block in a standard mode, whose samples and decisions are given (R99, R131): those from `skip`
on, which stand behind the circular wrap of the block. -/
def dataSymbols (skip : Nat) (z : List Rat) (labels : List Nat) : List (Rat × Int × Int × Int × Nat) :=
  let lab (m : Nat) : Nat := labels.getD m 0
  (z.zipIdx.drop skip).map fun (v, m) =>
    (v, levelOf (lab m), levelOf (lab (m - 1)), levelOf (lab (m - 2)), 4 * lab (m - 1) + lab m)

/-- The pilot MSE (R100). -/
def pilotMse (xs : List (Rat × Int × Int × Int × Nat)) : Rat :=
  ratSum (xs.map fun (z, a, _) => (z - a) * (z - a)) / 2048

/-- round(4 × 10 log10 x) for x ≥ 10^(−1/80): the first n with x below 10^((2n + 1) / 80), or `top` from there on. -/
def quarterDb (top : Nat) (x : Rat) : Nat :=
  ((List.range top).find? fun n => decide (x ^ 80 < (10 : Rat) ^ (2 * n + 1))).getD top

/-- snr_q = round(4 × 10 log10(5 / MSE)) (R100). Outside 0–1,023 the field's value is open. -/
def snrQ (mse : Rat) : Nat :=
  let x := quot 5 mse
  if x ≤ 0 ∨ x ^ 80 * 10 < 1 ∨ quarterDb 1024 x = 1024 then Config.outOfField x % 1024 else quarterDb 1024 x

/-- Of a row of level pairs, those that occur fewer than 32 times (R106), by p. -/
def rareOf (pairs : List Nat) : List Bool := (List.range 16).map fun i => decide ((pairs.filter (· == i)).length < 32)

/-- The rare pairs of P (R106); its first symbol follows the guard's last. -/
def rarePairs (n : Nat) : List Bool :=
  let p := pilot n
  rareOf (p.zipIdx.map fun (l, m) => 4 * p.getD ((m + 1023) % 1024) 0 + l)

/-- Q and r of R105. -/
def newQ (k : Nat) (q : Rat × Rat × Rat) (xs : List (Rat × Int × Int × Int × Nat)) : Rat × Rat × Rat :=
  (blend k q.1 (ratSum (xs.map fun (_, _, b, _, _) => ((b * b : Int) : Rat))),
   blend k q.2.1 (ratSum (xs.map fun (_, _, b, c, _) => ((b * c : Int) : Rat))),
   blend k q.2.2 (ratSum (xs.map fun (_, _, _, c, _) => ((c * c : Int) : Rat))))

def newR (k : Nat) (r : Rat × Rat) (xs : List (Rat × Int × Int × Int × Nat)) : Rat × Rat :=
  (blend k r.1 (ratSum (xs.map fun (z, a, b, _) => (b : Rat) * (z - a))),
   blend k r.2 (ratSum (xs.map fun (z, a, _, c, _) => (c : Rat) * (z - a))))

def satRat (lim v : Rat) : Rat := if v < -lim then -lim else if lim < v then lim else v

/-- (h1, h2) := Q⁻¹ r, clamped (R105), and whether the clamp acted. -/
def solveTarget (q : Rat × Rat × Rat) (r : Rat × Rat) : Rat × Rat × Bool :=
  let det := q.1 * q.2.2 - q.2.1 * q.2.1
  let h1 := quot (r.1 * q.2.2 - q.2.1 * r.2) det
  let h2 := quot (q.1 * r.2 - q.2.1 * r.1) det
  (satRat 1 h1, satRat (1 / 2) h2, satRat 1 h1 != h1 || satRat (1 / 2) h2 != h2)

/-- V of R106; a rare pair keeps no estimate of its own. -/
def newV (k : Nat) (v : List Rat) (h1 h2 : Rat) (xs : List (Rat × Int × Int × Int × Nat)) : List Rat :=
  (List.range 16).map fun p =>
    let es := (xs.filter fun (_, _, _, _, q) => q == p).map fun (z, a, b, c, _) =>
      let e := z - a - h1 * b - h2 * c
      e * e
    blend k (v.getD p 0) (if es.isEmpty then 0 else quot (ratSum es) (es.length : Rat))

/-- The variances with the fallback of R106. -/
def pairVars (rare : List Bool) (v : List Rat) : List Rat :=
  let others := ((List.range 16).filter fun p => !rare.getD p false).map fun p => v.getD p 0
  let mean := quot (ratSum others) (others.length : Rat)
  (List.range 16).map fun p => if rare.getD p false then mean else v.getD p 0

/-! ## Register formats -/

/-- `v` × `scale`, rounded with halves away from zero, in a signed field of `n` bits; outside it the value is open. -/
def fixedField (n : Nat) (scale : Nat) (v : Rat) : Nat :=
  let x := v * scale
  let i := roundDiv x.num x.den
  if -(2 ^ (n - 1) : Int) ≤ i ∧ i < 2 ^ (n - 1) then ofSigned n i else Config.outOfField x % 2 ^ n

/-- The same for an unsigned field. -/
def fixedNat (n : Nat) (scale : Nat) (v : Rat) : Nat :=
  let x := v * scale
  let i := roundDiv x.num x.den
  if 0 ≤ i ∧ i < 2 ^ n then i.toNat else Config.outOfField x % 2 ^ n

/-- The tap of a bin as OLn_FDE_TAP_DATA spells it: 3 integer and 12 fraction bits; the imaginary part of bins 0 and 512
reads 0. -/
def tapWord (w : List Cx) (bin : Nat) : Word :=
  match w[bin]? with
  | none => 0
  | some x =>
    BitVec.ofNat 32 (fixedField 16 4096 x.1 + 2 ^ 16 * (if bin = 0 ∨ bin = 512 then 0 else fixedField 16 4096 x.2))

/-- The tap that a staged word spells. -/
def wordTap (bin : Nat) (w : Word) : Cx :=
  let part (lo : Nat) : Rat := ((toSigned 16 (getField w lo 16) : Int) : Rat) / 4096
  (part 0, if bin = 0 ∨ bin = 512 then 0 else part 16)

end Sys2Proof.Machine
end

