-- ==== Sys2Proof/Machine/Receive.lean ====
section
/-!
DEFINITION. The samples of a receive lane: the corrections of its ADC (R77, R78), overlap-save equalisation (R87, R88), the
max-log BCJR detector (R104, R107), pilot search (R95, R97), and the recurrences of the clock loop (R85, R86).
-/

namespace Sys2Proof.Machine

/-! ## ADC samples (R77, R78) -/

/-- A corrected sample in units of 1/160,000 code: the slice's offset correction, in 1/16 LSB, is added to the raw code and the
sum scaled by the gain correction, in 0.01 % (DESIGN CHOICE: R78 does not give the order, log entry 16). The skew trim of a slot
moves the instant at which the raw code was taken, so the code holds it already. -/
def correctedCode (invert : Bool) (offset gain : Int) (raw : BitVec 8) : Int :=
  let x := (16 * raw.toInt + offset) * (10000 + gain)
  if invert then -x else x

/-- The corrections of the slices in slots 0 to 63 (R77). -/
def slotCorrections (c : AdcCal) : List (Int × Int) :=
  (List.range 64).map fun j =>
    match c.slices.toList.find? (·.slot == j) with
    | some x => (x.offset, x.gain)
    | none => (0, 0)

/-- The corrected samples of a row of codes whose first has number `start`: slot j takes every sample whose number modulo 64 is
j (R77, R78). -/
def correctCodes (invert : Bool) (slots : List (Int × Int)) (start : Nat) (codes : List (BitVec 8)) : List Int :=
  (codes.zipIdx start).map fun (raw, i) =>
    let (o, g) := slots.getD (i % 64) (0, 0)
    correctedCode invert o g raw

/-- A raw code at an end of its range (R78). -/
def saturatedCode (raw : BitVec 8) : Bool := raw.toInt == -128 || raw.toInt == 127

/-! ## The detector (R104–R107) -/

/-- A symbol as the detector leaves it: the equalised sample, the hard label, and Λ of b1 and of b0 (R107). -/
structure RxSym where
  z : Rat
  label : Nat
  l1 : Rat
  l0 : Rat
  deriving DecidableEq, Repr

/-- What the branch metric takes: the target, and for each pair 1/(2σ²) and ½ ln σ² (R107). -/
structure Branches where
  h1 : Rat
  h2 : Rat
  scale : List Rat
  bias : List Rat

def branches (h1 h2 : Rat) (vars : List Rat) : Branches :=
  { h1 := h1, h2 := h2, scale := vars.map fun v => quot 1 (2 * v), bias := vars.map fun v => lnRat v / 2 }

/-- γ of R107 for labels x, y and w of symbols m − 2, m − 1 and m. -/
def branchMetric (b : Branches) (z : Rat) (x y w : Nat) : Rat :=
  let e := z - levelOf w - b.h1 * levelOf y - b.h2 * levelOf x
  e * e * b.scale.getD (4 * y + w) 0 + b.bias.getD (4 * y + w) 0

def minRat : List Rat → Rat
  | [] => 0
  | x :: t => t.foldl (fun a b => if b < a then b else a) x

/-- One step of the forward recursion: metrics of the states (m − 2, m − 1), as 4 × label + label, to those of (m − 1, m). -/
def forwardStep (b : Branches) (z : Rat) (α : List Rat) : List Rat :=
  (List.range 16).map fun st =>
    minRat ((List.range 4).map fun x => α.getD (4 * x + st / 4) 0 + branchMetric b z x (st / 4) (st % 4))

/-- One step of the backward recursion. -/
def backwardStep (b : Branches) (z : Rat) (β : List Rat) : List Rat :=
  (List.range 16).map fun st =>
    minRat ((List.range 4).map fun w => branchMetric b z (st / 4) (st % 4) w + β.getD (4 * (st % 4) + w) 0)

/-- Soft output and hard decision of a symbol (R107); of labels whose paths are equally short, the lowest is the decision
(DESIGN CHOICE, log entry 114). -/
def softOutput (b : Branches) (z : Rat) (α β : List Rat) : RxSym :=
  let best (w : Nat) : Rat := minRat ((List.range 16).map fun st =>
    α.getD st 0 + branchMetric b z (st / 4) (st % 4) w + β.getD (4 * (st % 4) + w) 0)
  let m := (List.range 4).map best
  let at_ (w : Nat) : Rat := m.getD w 0
  { z := z, label := (List.range 4).foldl (fun a w => if at_ w < at_ a then w else a) 0,
    l1 := minRat [at_ 2, at_ 3] - minRat [at_ 0, at_ 1], l0 := minRat [at_ 1, at_ 3] - minRat [at_ 0, at_ 2] }

/-- The symbols of a window, and the backward metrics before it. -/
def sweepWindow (β : List Rat) : List Rat → List (Rat × Branches) → List Rat × List RxSym
  | _, [] => (β, [])
  | α, (z, b) :: t =>
    let (β, out) := sweepWindow β (forwardStep b z α) t
    (backwardStep b z β, softOutput b z α β :: out)

/-- Windows of 128 symbols with 64 warm-up symbols on each side, whose recursions start from equal metrics (R107). `pre` are the
symbols before `rest`, and the first window ends after `len` of it. -/
def detectWindows : Nat → List (Rat × Branches) → Nat → List (Rat × Branches) → List RxSym
  | 0, _, _, _ => []
  | fuel + 1, pre, len, rest =>
    let win := rest.take len
    let after := rest.drop len
    let start := List.replicate 16 (0 : Rat)
    let α := (pre.drop (pre.length - 64)).foldl (fun a (z, b) => forwardStep b z a) start
    let β := (after.take 64).foldr (fun (z, b) a => backwardStep b z a) start
    (sweepWindow β α win).2 ++ detectWindows fuel ((pre ++ win).drop (pre.length + win.length - 64)) 128 after

/-- The detector over consecutive samples of which the first is symbol `base` of the lane: its windows begin at multiples of 128
(DESIGN CHOICE, log entry 114). -/
def detect (base : Nat) (zs : List (Rat × Branches)) : List RxSym :=
  detectWindows (zs.length / 128 + 2) [] (128 - base % 128) zs

/-! ## Pilot search (R95) -/

def intSum (xs : List Int) : Int := xs.foldl (· + ·) 0
def dot (x y : List Int) : Int := intSum (List.zipWith (· * ·) x y)

/-- Sums over 1,024 consecutive members, for each start: each is the one before it, less the member that leaves and with the one
that enters. -/
def slidingSums (x : List Int) : List Int :=
  if x.length < 1024 then []
  else
    let first := intSum (x.take 1024)
    first :: ((List.zip x (x.drop 1024)).foldl (fun (st : List Int × Int) (p : Int × Int) =>
      let v := st.2 - p.1 + p.2
      (v :: st.1, v)) ([], first)).1.reverse

/-- Whether M(d) ≥ 0.75, for each start d (R95). -/
def plateauTests (x : List Int) : List Bool :=
  let y := x.drop 1024
  let num := slidingSums (List.zipWith (· * ·) x y)
  let den := slidingSums (y.map fun v => v * v)
  List.zipWith (fun n d => decide (0 < d) && decide (3 * d ≤ 4 * (n.natAbs : Int))) num den

/-- The first run of at least 512 values that hold, as its start and length. -/
def firstRun (l : List Bool) : Option (Nat × Nat) :=
  let st := l.zipIdx.foldl (fun (st : Option (Nat × Nat) × Nat × Nat) (t, i) =>
    let (found, start, len) := st
    match found with
    | some (a, n) => if t && decide (a + n = i) then (some (a, n + 1), start, len) else st
    | none =>
      let (start, len) := if t then (if len = 0 then i else start, len + 1) else (start, 0)
      (if 512 ≤ len then some (start, len) else none, start, len)) (none, 0, 0)
  st.1

/-- The normalised correlation of 1,024 samples with a pilot sequence is at least 0.5 (R95). -/
def correlates (p : List Int) (x : List Int) : Bool :=
  let c := dot p x
  let x := x.take 1024
  x.length == 1024 && decide (0 < c) && decide (dot x x * dot p p ≤ 4 * (c * c))

/-- What pilot search finds in a row of corrected samples (R95). -/
inductive SearchResult where
  | nothing | noPeak | peak (start : Nat)
  deriving DecidableEq, Repr

/-- Pilot search for the sequence `p`: a plateau, and within it the first start whose correlation reaches the threshold (DESIGN
CHOICE where several do, log entry 16). -/
def pilotSearch (p x : List Int) : SearchResult :=
  match firstRun (plateauTests x) with
  | none => .nothing
  | some (a, n) =>
    match (List.range n).find? fun i => correlates p (x.drop (a + i)) with
    | some i => .peak (a + i)
    | none => .noPeak

/-- The correlation of a fast retrain at starts `first` to `first` + 256: the first that passes (R97). -/
def retrainSearch (p x : List Int) (first : Nat) : Option Nat :=
  ((List.range 257).find? fun i => correlates p (x.drop (first + i)))

/-! ## The clock loop (R85, R86) -/

/-- The limit of F in UI per cycle (R85). -/
def freqLimit : Rat := 3 / 100

/-- E of a cycle, from the symbol before it on (R85). -/
def phaseError (prev : RxSym) (cyc : List RxSym) : Rat :=
  let step (st : Rat × RxSym) (x : RxSym) : Rat × RxSym :=
    (st.1 + st.2.z * levelOf x.label - x.z * levelOf st.2.label, x)
  (cyc.foldl step (0, prev)).1 / 640

/-- One cycle of the loop in track mode (R85), with the errors that `locked` needs and the count at the limit (R86). -/
def CdrLoop.track (l : CdrLoop) (kp ki : Nat) (e : Rat) : CdrLoop :=
  let f := satRat freqLimit (l.freq + e / 2 ^ ki)
  { l with phase := l.phase + e / 2 ^ kp + l.freq, freq := f, errs := (e.abs :: l.errs).take 4096,
           atLimit := if f.abs = freqLimit then l.atLimit + 1 else 0 }

/-- One cycle in hold mode (R86): F is kept, the phase advances by it, and E is ignored. -/
def CdrLoop.hold (l : CdrLoop) : CdrLoop := { l with phase := l.phase + l.freq, errs := [] }

/-- locked (R86). -/
def CdrLoop.locked (l : CdrLoop) : Bool := l.errs.length == 4096 && decide (16 * ratSum l.errs ≤ 4096)

namespace State

def onEqu (s : State) (n : Fin 8) (f : Equ → Equ) : State := s.onRx n fun r => { r with equ := f r.equ }

/-- The corrected samples of a row of codes, in 1/160,000 code (R78). -/
def laneSamples (s : State) (n : Fin 8) (start : Nat) (codes : List (BitVec 8)) : List Int :=
  correctCodes (s.cfgOn (F.OLn_RX_CTRL_invert n)) (slotCorrections s.dp.rx[n].adc) start codes

/-- The corrected samples of a burst; its first code stands at a multiple of 64 (R87). -/
def burstSamples (s : State) (n : Fin 8) (b : RxBurst) : List Int := s.laneSamples n 0 b.codes

/-- The lane's pennant estimate in codes, which it subtracts before the equaliser while PEN_CTRL.cancel_en = 1 in a CV mode, on
the lanes of rx_mask: the last completed block mean less the running mean over 4,096 blocks (R217). A block that has not been
received counts as 0 in the running mean (DESIGN CHOICE, log entry 120). -/
def penEstimate (s : State) (n : Fin 8) : Rat :=
  if s.cvMode && s.cfgOn F.PEN_CTRL_cancel_en && bitOf (s.cfg F.PEN_CTRL_rx_mask) n then
    match s.dp.rx[n].means with
    | [] => 0
    | x :: rest => ((4096 * x - intSum (x :: rest) : Int) : Rat) / (4096 * s.blockSamples * 160000 : Nat)
  else 0

/-- The equaliser's input of a burst (R87, R217). -/
def equInput (s : State) (n : Fin 8) (b : RxBurst) : List Rat :=
  let e := s.penEstimate n
  (s.burstSamples n b).map fun (x : Int) => ((x : Rat) / 160000 - e) * Config.sampleUnit

/-- The mode that the detector acts on: 3 acts as 0. -/
def detMode (det : Word) : Nat :=
  let m := getField det 0 2
  if m = 3 then 0 else m

/-- OLn_DET_TARGET as it was written (R105). -/
def writtenTarget (w : Word) : Rat × Rat :=
  (((toSigned 16 (getField w 0 16) : Int) : Rat) / 16384, ((toSigned 16 (getField w 16 16) : Int) : Rat) / 16384)

/-- The target that a tap set acts with under a detector configuration (R105). -/
def targetOf (t : TapSet) (det target : Word) : Rat × Rat :=
  match detMode det with
  | 1 => writtenTarget target
  | 2 => (0, 0)
  | _ => (t.h1, t.h2)

/-- σ² of each pair (R106). -/
def flooredVars (t : TapSet) (det : Word) : List Rat :=
  let floor : Rat := (getField det 8 8 : Rat) / 1024
  (List.range 16).map fun p => let v := t.vars.getD p 0; if v < floor then floor else v

def branchesOf (t : TapSet) (det target : Word) : Branches :=
  let (h1, h2) := targetOf t det target
  branches h1 h2 (flooredVars t det)

/-- One block of 1,024 samples through a tap set: the last 768 of its output (R87). -/
def blockOut (w : List Cx) (x : List Rat) : List Rat := (idft (List.zipWith cxMul w (dft x))).drop 256

/-- The blocks of a burst, each through the set in force at it, with that set's branches (R88): a block whose first new sample
stands before the last switch point takes the set before. -/
def blocksOut (e : Equ) (now before : Branches) : Nat → Nat → List Rat → List (Rat × Branches)
  | 0, _, _ => []
  | fuel + 1, block, x =>
    if x.length < 1024 then []
    else
      let old := decide (768 * block < e.switchAt)
      let z := blockOut (if old then e.before.taps else e.inForce.taps) (x.take 1024)
      z.map (fun v => (v, if old then before else now)) ++ blocksOut e now before fuel (block + 1) (x.drop 768)

/-- One sample per symbol (R99): every sample in a CV mode; in a standard mode those at the phase of the clock loop. Which
sample of a symbol a phase means is a DESIGN CHOICE (log entry 16): the one at the floor of the phase's fraction. -/
def decimate (s : State) (n : Fin 8) {α : Type} (z : List α) : List α :=
  let k := s.perSymbol
  let φ := s.dp.rx[n].loop.phase
  let o := ((φ - ((φ.floor : Int) : Rat)) * (k : Rat)).floor.toNat
  (z.zipIdx.filter fun (_, i) => i % k == o % k).map (·.1)

/-- The symbols of a burst: equalised, decimated and detected (R87, R88, R99, R107). The first is symbol
768 × block / (samples to the symbol). -/
def listen (s : State) (n : Fin 8) (b : RxBurst) : List RxSym :=
  let e := s.dp.rx[n].equ
  let z := blocksOut e (branchesOf e.inForce e.det e.detTarget) (branchesOf e.before e.beforeDet e.beforeTarget)
    (b.codes.length / 768 + 1) b.block (s.equInput n b)
  detect (768 * b.block / s.perSymbol) (s.decimate n z)

/-- How many samples after the first new one of a burst position `p` of a superframe comes next (CV modes). -/
def samplesTo (s : State) (n : Fin 8) (b : RxBurst) (p : Nat) : Nat :=
  (((s.dp.rx[n].origin + p : Nat) : Int) - (768 * b.block : Nat)) % 266240 |>.toNat

/-- OLn_RX_SAT_CNT counts the raw samples of a burst that no command has carried before (R78). -/
def countSat (s : State) (n : Fin 8) (b : RxBurst) : State :=
  let first := 768 * b.block
  let skip := 256 + (s.dp.rx[n].heard - first)
  let s := s.bumpBy (R.OLn_RX_SAT_CNT n) ((b.codes.drop skip).filter saturatedCode).length
  s.onRx n fun r => { r with heard := Nat.max r.heard (first + (b.codes.length - 256)) }

end State

end Sys2Proof.Machine
end

