-- ==== Sys2Proof/Machine/FrontEnd.lean ====
section
/-!
DEFINITION. The receive front end of a lane: pilot search, acquisition, tap updates and switches, the clock loop's modes,
and the registers that report them (R84–R100, R102, R105, R106, R345).
-/

namespace Sys2Proof.Machine

namespace State

/-- OLn_FDE_CTRL.freeze in force (R94). -/
def frozen (s : State) (n : Fin 8) : Bool := s.cfgOn (F.OLn_FDE_CTRL_freeze n)

/-- k_eff (R90): lambda_k values of 9–15 act as 8. -/
def kEff (s : State) (n : Fin 8) : Nat :=
  Nat.min (Nat.min 8 (s.cfg (F.OLn_FDE_CTRL_lambda_k n))) s.dp.rx[n].equ.ramp

/-- The detector's mode as it acts. -/
def targetMode (s : State) (n : Fin 8) : Nat := detMode s.dp.rx[n].equ.det

/-- The target in force (R105). -/
def target (s : State) (n : Fin 8) : Rat × Rat :=
  let e := s.dp.rx[n].equ
  targetOf e.inForce e.det e.detTarget

/-- OLn_FDE_MSE takes a figure (R100). -/
def setSnr (s : State) (n : Fin 8) (q : Nat) : State := (s.wr (F.OLn_FDE_MSE_snr_q n) q).wr (F.OLn_FDE_MSE_valid n) 1

/-- The loop leaves fallback for track, or for hold while OLn_CDR_CTRL.hold = 1; force_ref = 1 holds fallback (R86). -/
def closeLoop (s : State) (n : Fin 8) : State :=
  if s.cfgOn (F.OLn_CDR_CTRL_force_ref n) then s
  else
    let s := s.wr (F.OLn_CDR_STAT_fallback n) 0
    if s.cfgOn (F.OLn_CDR_CTRL_hold n) then s.holdLoop n else s.wr (F.OLn_CDR_STAT_holding n) 0

/-- ACQUIRE to TRACK (R97): fde_acquired is set and the pilot positions are handed to ensign lock. -/
def enterTrack (s : State) (n : Fin 8) : State :=
  let s := s.onRx n fun r => { r with fe := .track, lock := if r.lock = .off then .hunt else r.lock }
  if s.cfgOn (F.OLn_CDR_CTRL_force_ref n) then s.enterSearch n else s.advanceSteps

/-- An update is skipped (R93): `causes` are the bits of OLn_FDE_SKIP_CAUSE. -/
def skipUpdate (s : State) (n : Fin 8) (causes : Nat) : State :=
  (s.bump (R.OLn_FDE_SKIP_CNT n)).setReg (R.OLn_FDE_SKIP_CAUSE n)
    (s.reg (R.OLn_FDE_SKIP_CAUSE n) ||| BitVec.ofNat 32 causes)

/-- What a superframe, or a frame tick in a standard mode, gives an update (R89, R93, R99): the bins, how many raw samples
saturated, the symbols that the target and the variances are formed from through a tap set (R105, R106, R131), and the level
pairs that are too rare for an estimate. -/
structure Training where
  bins : PilotBins
  sat : Nat
  symbols : List Cx → List (Rat × Int × Int × Int × Nat)
  rare : List Bool

/-- The pilot field of a burst, whose block A begins at code `i` of it (R28, R89): the samples of positions 256 to 1,279 and
1,280 to 2,303, with the saturated raw codes of positions 128 to 2,431 (R93). None where the burst does not hold both blocks. -/
def fieldTraining (s : State) (n : Fin 8) (b : RxBurst) (i : Nat) : Option Training :=
  if b.codes.length < i + 2048 then none
  else
    let x := (s.equInput n b).drop i
    let bins := pilotBins n (x.take 1024) ((x.drop 1024).take 1024)
    some { bins := bins, sat := (((b.codes.take (i + 2176)).drop (i - 128)).filter saturatedCode).length,
           symbols := fun w => pilotSymbols n (equalise w bins.ya) (equalise w bins.yb), rare := rarePairs n }

/-- The pilot field at the lane's origin (R89). -/
def pilotTraining (s : State) (n : Fin 8) (b : RxBurst) : Option Training := s.fieldTraining n b (256 + s.samplesTo n b 256)

/-- The first two blocks of a burst that qualify, each as its input samples, its decisions, and its saturated raw codes (R99). A
block's decisions are those of the symbols that its 1,024 samples hold, so the first block of a burst, whose overlap has none,
is not used. Which samples the saturation limit of R93 counts here is a DESIGN CHOICE: those of the two blocks (log entry 16). -/
def dataBlocks (s : State) (n : Fin 8) (b : RxBurst) : List (List Rat × List Nat × Nat) :=
  let k := s.perSymbol
  let x := s.equInput n b
  let labels := (s.listen n b).map (·.label)
  ((List.range ((b.codes.length - 256) / 768)).filterMap fun j =>
    let mine := (labels.drop ((768 * j - 256) / k)).take (1024 / k)
    if j = 0 ∨ mine.length < 1024 / k ∨ !qualified mine then none
    else some ((x.drop (768 * j)).take 1024, mine, (((b.codes.drop (768 * j)).take 1024).filter saturatedCode).length)).take 2

def dataTraining (s : State) (n : Fin 8) (b : RxBurst) : Option Training :=
  match s.dataBlocks n b with
  | [(xa, ka, sa), (xb, kb, sb)] =>
    let k := s.perSymbol
    let bins := dataBins k (xa, ka) (xb, kb)
    let through (w y : List Cx) (l : List Nat) := dataSymbols (256 / k) (s.decimate n (equalise w y)) l
    let symbols (w : List Cx) := through w bins.ya ka ++ through w bins.yb kb
    some { bins := bins, sat := sa + sb, symbols := symbols, rare := rareOf ((symbols []).map fun (_, _, _, _, p) => p) }
  | _ => none

def training (s : State) (n : Fin 8) (b : RxBurst) : Option Training :=
  if s.stdMode then s.dataTraining n b else s.pilotTraining n b

/-- The target and variances of an accepted update (R105, R106, R131): the symbols are equalised with the new tap set. -/
def updateTarget (s : State) (n : Fin 8) (k : Nat) (taps : List Cx) (tr : Training) : State :=
  let e := s.dp.rx[n].equ
  let xs := tr.symbols taps
  let q := newQ k e.q xs
  let r := newR k e.r xs
  let (h1, h2, clamped) := solveTarget q r
  let adaptive := s.targetMode n == 0
  let (g1, g2) := if adaptive then (h1, h2) else s.target n
  let v := newV k e.v g1 g2 xs
  let set : TapSet :=
    { taps := taps, h1 := if adaptive then h1 else e.inForce.h1, h2 := if adaptive then h2 else e.inForce.h2,
      clamped := if adaptive then clamped else e.inForce.clamped, vars := pairVars tr.rare v }
  let s := s.onEqu n fun e =>
    { e with q := if adaptive then q else e.q, r := if adaptive then r else e.r, v := v, next := some set }
  (s.wr (F.OLn_DET_STAT_valid n) 1).wr (F.OLn_DET_STAT_pair_fallback n)
    (((List.range 16).filter fun p => tr.rare.getD p false).foldl (fun m p => m + 2 ^ p) 0)

/-- OLn_FDE_MSE after an update, and after a frozen superframe, that is not skipped: both pilot blocks through the taps in force
(R100). A standard mode has no pilot symbols, over which R100 defines the figure: its value is open there. -/
def measureSnr (s : State) (n : Fin 8) (tr : Training) : State :=
  if s.stdMode then (s.drew).setSnr n (s.freeNat % 1024)
  else s.setSnr n (snrQ (pilotMse (tr.symbols s.dp.rx[n].equ.inForce.taps)))

/-- ACQUIRE goes to TRACK at the fourth consecutive accepted update whose pilot SNR reaches acq_snr dB (R97). -/
def countGood (s : State) (n : Fin 8) : State :=
  if s.dp.rx[n].fe = .acquire then
    let good := if 4 * s.cfg (F.OLn_FDE_CTRL_acq_snr n) ≤ s.rd (F.OLn_FDE_MSE_snr_q n) then s.dp.rx[n].equ.good + 1 else 0
    let s := s.onEqu n fun e => { e with good := good }
    if 4 ≤ good then s.enterTrack n else s
  else s

/-- An accepted update (R89–R92, R97, R100). OLn_FDE_STAT.weak_bins, which R91 fixes once per lane, is first written by a lane's
first accepted update: DESIGN CHOICE (log entry 16). -/
def acceptUpdate (s : State) (n : Fin 8) (tr : Training) : State :=
  let e := s.dp.rx[n].equ
  let b := tr.bins
  let k := s.kEff n
  let acc := newAcc k e.acc b
  let pow := newPow k e.pow b
  let w := interpolate b.weak (newTaps (epsOf (s.cfg (F.OLn_FDE_CTRL_eps_sh n)) pow) acc pow)
  let tau := groupDelay b.weak w pow
  let tau0 := e.tau0.getD tau
  let centre := s.cfgOn (F.OLn_FDE_CTRL_centre_en n)
  let w := if centre then advance (tau - tau0) w else w
  let s := s.onEqu n fun e => { e with acc := acc, pow := pow, tau0 := some tau0, ramp := e.ramp + 1 }
  let s := (s.wr (F.OLn_FDE_STAT_k_eff n) k).wr (F.OLn_FDE_STAT_weak_bins n) (b.weak.filter id).length
  let s := if centre then s.wr (F.OLn_FDE_DELAY_tau n) (fixedField 16 256 (tau - tau0)) else s
  (((s.closeLoop n).measureSnr n tr).updateTarget n k w tr).countGood n

/-- One superframe's pilots, or a frame tick's data blocks, are processed (R89, R93, R94, R99). -/
def processPilots (s : State) (n : Fin 8) (tr : Option Training) (signal : Bool) : State :=
  let ensignMiss := s.cvMode && s.dp.rx[n].lock == .locked && !s.dp.rx[n].ensignOk
  let sat := match tr with | some t => t.sat | none => 0
  let causes := b2n ensignMiss + 2 * b2n (decide (s.cfg (F.OLn_FDE_LIMITS_sat_lim n) < sat)) + 8 * b2n (!signal || tr.isNone)
  match tr, causes with
  | some t, 0 =>
    let e := s.dp.rx[n].equ
    let d := disagreement (epsOf (s.cfg (F.OLn_FDE_CTRL_eps_sh n)) (newPow (s.kEff n) e.pow t.bins)) t.bins
    let above := match e.dbar with
      | some m => decide ((2 ^ s.cfg (F.OLn_FDE_LIMITS_ab_sh n) : Nat) * m < d)
      | none => false
    let s := s.onEqu n fun e => { e with dbar := some (match e.dbar with | some m => m + (d - m) / 16 | none => d) }
    if above then s.skipUpdate n 4
    else if s.frozen n then s.measureSnr n t
    else s.acceptUpdate n t
  | _, _ => s.skipUpdate n causes

/-- After a superframe that it processed, the engine pauses while the throttle level is not 0 (R345). -/
def pausePilots (s : State) (n : Fin 8) : State :=
  s.onEqu n fun e => { e with paused := decide (1 ≤ s.therm.level) }

/-- A block of the equaliser's grid is the first of its superframe whose first new sample stands at or after position 4,096
(R88). In a standard mode, which has no superframes, the switch point is the block that the command names (DESIGN CHOICE, log
entry 72). -/
def switchBlock (s : State) (n : Fin 8) (block : Nat) : Bool :=
  let p := (((768 * block : Nat) : Int) - (s.dp.rx[n].origin : Nat)) % 266240
  s.stdMode || (decide (4096 ≤ p) && decide (p < 4096 + 768))

/-- The switch point (R88, R94, R105, R127): a loaded set or the new set comes into force, the detector takes its
configuration, and a commit that waited for the lane has settled (R259). -/
def tapSwitch (s : State) (n : Fin 8) (block : Nat) : State :=
  let e := s.dp.rx[n].equ
  let s := s.onEqu n fun e =>
    { e with switchAt := 768 * block, before := e.inForce, beforeDet := e.det, beforeTarget := e.detTarget }
  let s := if e.armed then
      -- bins that firmware has not written are open
      let bank := (List.range 513).map fun k =>
        wordTap k (match e.staged.find? (·.1 == k) with
          | some (_, w) => w
          | none => BitVec.ofNat 32 (Config.freeNat (s.draws + k)))
      let s := { s with draws := s.draws + 513 }
      let s := s.onEqu n fun e =>
        { e with inForce := { e.inForce with taps := bank }, staged := [], armed := false, next := none,
                 acc := List.zipWith (fun w p => cxScale p w) bank e.pow }
      s.wr (F.OLn_FDE_STAT_set_seq n) (s.rd (F.OLn_FDE_STAT_set_seq n) + 1)
    else match e.next, s.frozen n with
      | some set, false =>
        let s := s.onEqu n fun e => { e with inForce := set, next := none }
        s.wr (F.OLn_FDE_STAT_set_seq n) (s.rd (F.OLn_FDE_STAT_set_seq n) + 1)
      | _, _ => s
  (s.onEqu n fun e =>
    { e with det := s.inForceReg (R.OLn_DET_CTRL n), detTarget := s.inForceReg (R.OLn_DET_TARGET n) }).laneSettled n

/-- A read of OLn_FDE_TAP_DATA (R94, R102): the tap in force, and the bin advances. The spec gives OLn_FDE_TAP_ADDR.bin the values
0 to 512: at 513 to 1,023 a read answers 0 and the bin advances by 1, and a write is ignored (DESIGN CHOICE, log entry 119). -/
def tapRead (s : State) (n : Fin 8) : State × Word :=
  let k := s.rd (F.OLn_FDE_TAP_ADDR_bin n)
  if !s.dp.rx[n].powered then (s, 0)
  else (s.wr (F.OLn_FDE_TAP_ADDR_bin n) (if k = 512 then 0 else k + 1), tapWord s.dp.rx[n].equ.inForce.taps k)

/-- A write of OLn_FDE_TAP_DATA: staged while the lane is frozen, ignored otherwise (R94). -/
def tapWrite (s : State) (n : Fin 8) (v : Word) : State :=
  let k := s.rd (F.OLn_FDE_TAP_ADDR_bin n)
  if !s.frozen n ∨ 512 < k then s
  else
    let s := s.onEqu n fun e => { e with staged := (k, v) :: e.staged.filter (·.1 != k) }
    s.wr (F.OLn_FDE_TAP_ADDR_bin n) (if k = 512 then 0 else k + 1)

/-- What OLn_CDR_FREQ and OLn_CDR_STAT report of the loop (R85, R86, R103): F in 0.01 ppm, whether it stands at its limit, the
interpolator's code, and `locked`. A code is the floor of the phase in 1/64 UI (DESIGN CHOICE, log entry 16). -/
def showLoop (s : State) (n : Fin 8) : State :=
  let l := s.dp.rx[n].loop
  let track := !s.flag (F.OLn_CDR_STAT_fallback n) && !s.flag (F.OLn_CDR_STAT_holding n)
  let s := s.wr (F.OLn_CDR_FREQ_ppm n) (fixedField 24 100000000 (l.freq / 128))
  let s := s.wr (F.OLn_CDR_STAT_at_limit n) (b2n (l.freq.abs == freqLimit))
  let s := s.wr (F.OLn_CDR_STAT_phase n) ((l.phase * 64).floor % 64).toNat
  s.wr (F.OLn_CDR_STAT_locked n) (b2n (track && l.locked))

/-- The cycles that a burst brings (R85, R86): whole ones of 128 symbols whose decisions have their warm-up, from the first that the
loop has not run on. It stops where F has stood at its limit for 4,096. -/
def loopCycles (kp ki : Nat) (track : Bool) : Nat → CdrLoop → List RxSym → CdrLoop
  | 0, l, _ => l
  | fuel + 1, l, xs =>
    match xs with
    | [] => l
    | prev :: t =>
      let cyc := t.take 128
      if cyc.length < 128 ∨ 4096 ≤ l.atLimit then l
      else
        let l := if track then l.track kp ki (phaseError prev cyc) else l.hold
        loopCycles kp ki track fuel { l with next := l.next + 128 } (t.drop 127)

/-- The samples of a burst that no command has carried before: the saturated ones are counted (R78), and in a standard mode the
decisions of their symbols go to the host lane (R211). -/
def hear (s : State) (n : Fin 8) (b : RxBurst) : State :=
  let known := (s.dp.rx[n].heard - 768 * b.block) / s.perSymbol
  (s.countSat n b).retimeToHost n (((s.listen n b).drop known).map fun x => labelSym x.label)

/-- The clock loop runs over the cycles of a burst, in the mode that it is in; in fallback the interpolator stands (R86). -/
def runLoop (s : State) (n : Fin 8) (b : RxBurst) : State :=
  if s.flag (F.OLn_CDR_STAT_fallback n) then s
  else
    let base := 768 * b.block / s.perSymbol
    let syms := s.listen n b
    let l := s.dp.rx[n].loop
    let first := Nat.max l.next ((base + 255) / 128 * 128)
    let xs := (syms.drop (first - 1 - base)).take (base + syms.length - 64 - (first - 1))
    let track := !s.flag (F.OLn_CDR_STAT_holding n)
    let l := loopCycles (s.cfg (F.OLn_CDR_CTRL_kp_sh n)) (s.cfg (F.OLn_CDR_CTRL_ki_sh n)) track syms.length { l with next := first } xs
    (s.onRx n fun r => { r with loop := l }).showLoop n

/-- F has stood at its limit for 4,096 consecutive cycles: the loop enters fallback, and in a CV mode pilot search restarts
(R86, R97). -/
def limitFallback (s : State) (n : Fin 8) : State :=
  if s.dp.rx[n].loop.atLimit < 4096 then s else if s.cvMode then s.enterSearch n else s.enterFallback n

/-- What the front end's and the detector's status registers read (R102, R103, R133). A variance is shown in the nearest unit of
1/1,024, halves upwards: DESIGN CHOICE, the rule states no rounding (log entry 125). -/
def viewFrontEnd (s : State) (a : Nat) : Option Word :=
  if a < 0x200000 ∨ 0x280000 ≤ a then none
  else
    let n : Fin 8 := ⟨(a - 0x200000) / 0x10000 % 8, Nat.mod_lt _ (by decide)⟩
    let e := s.dp.rx[n].equ
    if a = R.OLn_RX_STAT n then
      some (BitVec.ofNat 32 (s.rd (F.OLn_CDR_STAT_locked n) + 2 * s.rd (F.OLn_CDR_STAT_fallback n)
        + 4 * b2n (s.acquired n) + 8 * s.rd (F.OLn_RX_CAL_STAT_busy n) + 16 * b2n (s.frozen n)
        + 32 * s.rd (F.OLn_RX_STAT_slice_parked n)))
    else if a = R.OLn_FDE_STAT n then
      some (putField (putField (s.reg a) 0 1 (b2n (s.acquired n))) 1 1 (b2n (s.frozen n)))
    else if a = R.OLn_DET_STAT n then some (putField (s.reg a) 1 1 (b2n (e.inForce.clamped && s.targetMode n == 0)))
    else if a = R.OLn_DET_TARGET n then
      let (h1, h2) := s.target n
      some (BitVec.ofNat 32 (fixedField 16 16384 h1 + 2 ^ 16 * fixedField 16 16384 h2))
    else if a = R.OLn_DET_VAR_DATA n then
      let floor : Rat := (getField e.det 8 8 : Rat) / 1024
      let v := e.inForce.vars.getD (s.rd (F.OLn_DET_VAR_SEL_pair n)) 0
      some (if e.inForce.vars.isEmpty then 0 else BitVec.ofNat 32 (fixedNat 16 1024 (if v < floor then floor else v)))
    else none

end State

open State

/-- PILOT_PEAK_FOUND (R95–R97): the origin, the preload of F, and the first update with k_eff = 0. -/
def execPilotPeakFound (lane : Fin 8) (burst : RxBurst) (s : State) : Out :=
  let r := s.dp.rx[lane]
  if !(s.cvMode && r.powered) || r.fe != .search then .next s
  else
    let s := s.hear lane burst
    match pilotSearch (pilotLevels lane) (s.burstSamples lane burst) with
    | .peak d =>
      -- the burst's codes begin 256 samples before its block, and the origin stands 256 symbols before pilot block A
      let s := s.onRx lane fun r =>
        { r with fe := .acquire, origin := (768 * burst.block + d + 266240 - 512) % 266240,
                 equ := { r.equ with ramp := 0, good := 0, dbar := none, tau0 := none, next := none } }
      let tr := s.fieldTraining lane burst d
      let delta := match tr with | some t => pilotAdvance t.bins.weak t.bins.ya t.bins.yb | none => 0
      let s := (s.onRx lane fun r => { r with loop := { r.loop with freq := satRat freqLimit (-(delta / 8)) } }).showLoop lane
      .next ((s.processPilots lane tr true).pausePilots lane)
    | _ => .next s

/-- PILOT_PLATEAU_NO_PEAK (R95). -/
def execPilotPlateauNoPeak (lane : Fin 8) (burst : RxBurst) (s : State) : Out :=
  if !(s.cvMode && s.dp.rx[lane].powered) || s.dp.rx[lane].fe != .search then .next s
  else
    let s := s.hear lane burst
    if pilotSearch (pilotLevels lane) (s.burstSamples lane burst) = .noPeak then .next (s.bump (R.OLn_FDE_ACQ_CNT lane)) else .next s

/-- PILOT_UPDATE (R89, R93, R99, R345). A lane in SEARCH or HOLD takes none; the standard modes have no such states. A burst
without the pilot field, or a frame tick in which fewer than two blocks qualify, skips the update as no signal. -/
def execPilotUpdate (lane : Fin 8) (burst : RxBurst) (signal : Bool) (s : State) : Out :=
  let r := s.dp.rx[lane]
  let runs := r.powered && bitOf s.laneMask lane && (s.stdMode || r.fe == .acquire || r.fe == .track)
  if !runs then .next s
  else
    let tr := s.training lane burst
    let s := s.hear lane burst
    if r.equ.paused then .next s else .next ((s.processPilots lane tr signal).pausePilots lane)

/-- THROTTLE_PAUSE_END (R345). -/
def execThrottlePauseEnd (lane : Fin 8) (s : State) : Out := .next (s.onEqu lane fun e => { e with paused := false })

/-- ACQUIRE_TIMEOUT (R97). -/
def execAcquireTimeout (lane : Fin 8) (s : State) : Out :=
  if s.dp.rx[lane].fe = .acquire then .next ((s.bump (R.OLn_FDE_ACQ_CNT lane)).enterSearch lane) else .next s

/-- TAP_SWITCH (R88). -/
def execTapSwitch (lane : Fin 8) (block : Nat) (s : State) : Out :=
  if s.dp.rx[lane].powered && s.switchBlock lane block then .next (s.tapSwitch lane block) else .next s

/-- FAST_RETRAIN_PILOT_FOUND (R97): the pilot correlation at the stored origin within ±128 symbols, the corrected origin, and an
update with k_eff = min(lambda_k, 1). Samples are counted on the lane's clock, which in hold mode advances by F each cycle, so
the stored origin has advanced by F with it. -/
def execFastRetrainPilotFound (lane : Fin 8) (burst : RxBurst) (s : State) : Out :=
  let r := s.dp.rx[lane]
  if r.fe ≠ .hold ∨ r.lock ≠ .relock then .next s
  else
    let s := s.hear lane burst
    let a := s.samplesTo lane burst 128
    match retrainSearch (pilotLevels lane) (s.burstSamples lane burst) (256 + a) with
    | none => .next s
    | some i =>
      let s := s.onRx lane fun r =>
        { r with fe := .track, origin := (r.origin + i + 266240 - 128) % 266240,
                 equ := { r.equ with ramp := 1, paused := false } }
      .next ((s.processPilots lane (s.pilotTraining lane burst) true).pausePilots lane)

/-- CDR_FALLBACK_LIMIT (R86, R97). -/
def execCdrFallbackLimit (lane : Fin 8) (burst : RxBurst) (s : State) : Out :=
  if !s.dp.rx[lane].powered then .next s
  else .next (((((s.hear lane burst).runLoop lane burst).limitFallback lane)).reviewState)

/-- CDR_LOCK_CHANGE (R85, R86). -/
def execCdrLockChange (lane : Fin 8) (burst : RxBurst) (s : State) : Out :=
  if !s.dp.rx[lane].powered then .next s
  else .next (((s.hear lane burst).runLoop lane burst).reviewState)

end Sys2Proof.Machine
end

