-- ==== Sys2Proof/Machine/Calib.lean ====
section
/-!
DEFINITION. DAC calibration (R67–R69), ADC background calibration (R77–R83), and the power-up of an optical lane.
-/

namespace Sys2Proof.Machine

namespace State

/-! ## DAC (R67, R68) -/

/-- A result passes the tests of R68. -/
def dacPasses (s : State) (n : Fin 8) (r : DacResult) : Bool :=
  let c := s.dp.tx[n].cal
  let gains := (List.zip r.corr.gains c.last.gains).all fun (g, g0) =>
    decide (1000 * ((g : Int) - g0).natAbs ≤ s.cfg (F.OLn_TX_CAL_CTRL_gain_lim n) * g0)
  let skews := (List.zip r.corr.skews c.last.skews).all fun (k, k0) =>
    decide ((k - k0).natAbs ≤ 10 * s.cfg (F.OLn_TX_CAL_CTRL_skew_lim n))
  decide (c.spur ≤ r.spur + 300) && (!c.accepted || (gains && skews))

/-- A DAC run ends (R68). -/
def dacEnd (s : State) (n : Fin 8) (r : DacResult) : State :=
  let ok := s.dacPasses n r
  let s := (s.wr (F.OLn_TX_CAL_STAT_busy n) 0).wr (F.OLn_TX_CAL_STAT_runs n) (s.rd (F.OLn_TX_CAL_STAT_runs n) + 1)
  let s := if ok then
      let s := s.onDac n fun c =>
        { c with accepted := true, last := r.corr, spur := r.spur, temp := s.therm.laneTemp[n], waiting := some r.corr }
      let s := (s.wr (F.OLn_TX_CAL_STAT_last n) 1).wr (F.OLn_TX_CAL_STAT_temp_c n) (s.laneTempC n)
      ((s.wr (F.OLn_TX_QUAL_spur_db n) (fixedNat 8 1 ((r.spur : Rat) / 100))).wr (F.OLn_TX_QUAL_sndr_q n) r.sndr).wr
        (F.OLn_TX_QUAL_valid n) 1
    else (s.wr (F.OLn_TX_CAL_STAT_last n) 2).bump (R.OLn_TX_CAL_REJ_CNT n)
  s.dacAfter n

/-! ## ADC (R79–R83) -/

/-- The slice in the spare position, and the slot of the current step. -/
def spareSlice (s : State) (n : Fin 8) : Nat := s.rd (F.OLn_RX_CAL_STAT_spare n)
def stepSlot (s : State) (n : Fin 8) : Nat := (s.dp.rx[n].adc.j0 + s.rd (F.OLn_RX_CAL_STAT_step n)) % 64

/-- A result is rejected (R80, R83). -/
def adcReject (s : State) (n : Fin 8) : State :=
  (s.bump (R.OLn_RX_CAL_REJ_CNT n)).onAdc n fun c => { c with partialRun := true }

def setSlice (s : State) (n : Fin 8) (i : Nat) (f : Slice → Slice) : State :=
  s.onAdc n fun c => match c.slices[i]? with
    | some x => { c with slices := c.slices.setIfInBounds i (f x) }
    | none => c

/-- The offline result of the spare slice (R80). -/
def adcOffline (s : State) (n : Fin 8) (offset gain : Int) : State :=
  match s.dp.rx[n].adc.slices[s.spareSlice n]? with
  | none => s
  | some x =>
    if 4 * s.cfg (F.OLn_RX_CAL_CTRL_off_lim n) < (offset - x.offset).natAbs
        ∨ 10 * s.cfg (F.OLn_RX_CAL_CTRL_gain_lim n) < (gain - x.gain).natAbs
      then s.adcReject n
      else s.setSlice n (s.spareSlice n) fun x => { x with offset := offset, gain := gain }

/-- The skew trim of the step's slot (R80). -/
def adcSkew (s : State) (n : Fin 8) (trim : Int) : State :=
  let j := s.stepSlot n
  if 2 * s.cfg (F.OLn_RX_CAL_CTRL_skew_lim n) < (trim - s.dp.rx[n].adc.trims.getD j 0).natAbs then s.adcReject n
  else s.onAdc n fun c => { c with trims := c.trims.setIfInBounds j trim }

/-- The spare takes the step's slot, and the former occupant becomes the spare (R79). -/
def adcSwap (s : State) (n : Fin 8) : State :=
  let j := s.stepSlot n
  match s.dp.rx[n].adc.slices.toList.findIdx? (·.slot == j) with
  | none => s
  | some old =>
    let s := (s.setSlice n (s.spareSlice n) fun x => { x with slot := j }).setSlice n old fun x => { x with slot := 64 }
    (s.wr (F.OLn_RX_CAL_STAT_spare n) old).wr (F.OLn_RX_STAT_slice_parked n) 0

/-- The spare is parked (R81). -/
def adcPark (s : State) (n : Fin 8) : State :=
  let s := s.setSlice n (s.spareSlice n) fun x => { x with slot := 0x7F }
  let s := s.onAdc n fun c => { c with partialRun := true, skewOnly := true }
  (s.wr (F.OLn_RX_STAT_slice_parked n) 1).logEvent srcOl 0x6001 n (s.spareSlice n)

/-- A run ends (R83, R100). A result that was rejected makes the run partial though its repeat was accepted; a shadow test that
failed once and passed when it was repeated does not: DESIGN CHOICE (log entry 119). -/
def adcRunEnd (s : State) (n : Fin 8) (spur sndr : Nat) : State :=
  let c := s.dp.rx[n].adc
  let s := (s.wr (F.OLn_RX_CAL_STAT_busy n) 0).wr (F.OLn_RX_CAL_STAT_last n) (if c.partialRun then 2 else 1)
  let s := s.wr (F.OLn_RX_CAL_STAT_temp_c n) (ofSigned 8 (roundDiv c.startTemp 16))
  let s := ((s.wr (F.OLn_RX_QUAL_spur_db n) spur).wr (F.OLn_RX_QUAL_sndr_q n) sndr).wr (F.OLn_RX_QUAL_valid n) 1
  let s := s.onAdc n fun c => { c with j0 := (c.j0 + 65) % 64, lastTemp := some c.startTemp }
  (s.adcTempCheck n).adcReview n

/-- The end of a step (R79, R81, R83). A failed shadow test keeps the step going until its second has ended. -/
def adcStepEnd (s : State) (n : Fin 8) (spur sndr : Nat) : State :=
  let c := s.dp.rx[n].adc
  if c.abort then
    ((s.adcCut n).onAdc n fun c => { c with request := true }).adcReview n
  else if !c.skewOnly && !c.shadowOk && decide (c.tries < 2) then s
  else
    let s := if c.skewOnly then s else if c.shadowOk then s.adcSwap n else s.adcPark n
    if s.rd (F.OLn_RX_CAL_STAT_step n) = 64 then s.adcRunEnd n spur sndr
    else
      let s := s.wr (F.OLn_RX_CAL_STAT_step n) (s.rd (F.OLn_RX_CAL_STAT_step n) + 1)
      s.onAdc n fun c => { c with tries := 0, shadowOk := false }

/-- What OLn_TX_STAT and the selected slice and slot read (R75, R103). -/
def viewCal (s : State) (a : Nat) : Option Word :=
  if a < 0x200000 ∨ 0x280000 ≤ a then none
  else
    let n : Fin 8 := ⟨(a - 0x200000) / 0x10000 % 8, Nat.mod_lt _ (by decide)⟩
    let c := s.dp.rx[n].adc
    if a = R.OLn_TX_STAT n then
      some (BitVec.ofNat 32 (b2n (bitOf s.dp.framer.laneStatus n) + 2 * s.rd (F.OLn_TX_CAL_STAT_busy n)
        + 4 * s.rd (F.OLn_TX_STAT_last_stuff_count n) + 2 ^ 12 * b2n (s.dp.framer.sending && s.dp.tx[n].alt)))
    else if a = R.OLn_RX_SLICE_DATA n then
      some (match c.slices[s.rd (F.OLn_RX_SLICE_SEL_slice n)]? with
        | some x => BitVec.ofNat 32 (ofSigned 8 x.offset + 2 ^ 8 * ofSigned 12 x.gain + 2 ^ 20 * x.slot)
        | none => 0)
    else if a = R.OLn_RX_SLOT_SKEW n then
      some (BitVec.ofNat 32 (ofSigned 12 (c.trims.getD (s.rd (F.OLn_RX_SLICE_SEL_slot n)) 0)))
    else none

/-! ## Power-up of a lane -/

/-- The corrections of a calibration record, whose format the spec does not give: free values (R77, R82, log entry 1). -/
def recordSlices (s : State) : Vector Slice 65 :=
  Vector.ofFn fun i =>
    { offset := toSigned 8 (Config.freeNat (s.draws + 2 * i.val)), gain := toSigned 12 (Config.freeNat (s.draws + 2 * i.val + 1)),
      slot := i.val }
def recordTrims (s : State) : Vector Int 64 := Vector.ofFn fun i => toSigned 12 (Config.freeNat (s.draws + 130 + i.val))

/-- DAC corrections of the factory, whose figures the spec does not give: free values (R67, log entry 1). -/
def factoryCorr (s : State) : DacCorr :=
  let v (i : Nat) : Nat := Config.freeNat (s.draws + i)
  { gains := (List.range 4).map v, skews := (List.range 4).map fun i => toSigned 16 (v (4 + i)),
    offsets := (List.range 4).map fun i => toSigned 8 (v (8 + i)), errors := (List.range 256).map fun i => toSigned 8 (v (12 + i)) }

/-- A lane powers up (R67, R82, R86, R97): the first DAC run starts from the corrections of the image's CAL record, where it has one
and its check word holds, or the factory's, and the first ADC run and pilot search start. Tap sets, accumulators and, after STANDBY,
slice corrections are those that were kept (R321); slice j stands in slot j again (R77). Of the receive registers, those of the
loop, of calibration and slice_parked take their reset values here, and OLn_FDE_STAT, _MSE, _DELAY, OLn_RX_QUAL and the counters
keep what they held: DESIGN CHOICE, R103 gives reset values and not which events restore them (log entry 119). -/
def lanePowerUp (s : State) (n : Fin 8) (record : Option (Nat × DacCorr)) : State :=
  let record := if s.boot.acted.any (·.kind == 3) then record else none
  let corr := match record with | some (_, c) => c | none => s.factoryCorr
  let s := s.onTx n fun t =>
    { t with powered := true, cal := { TxLane.initial.cal with
      spur := match record with | some (d, _) => d | none => 4500
      temp := s.therm.laneTemp[n], last := corr, loaded := corr } }
  let s := if record.isSome then s else { s with draws := s.draws + 268 }
  let kept := s.dp.rx[n].keptCal
  let s := s.onRx n fun r =>
    { RxLane.initial with
      powered := true, equ := { Equ.initial with acc := r.equ.acc, pow := r.equ.pow, inForce := r.equ.inForce },
      adc := { AdcCal.initial with slices := if kept then Slice.home r.adc.slices else s.recordSlices,
                                   trims := if kept then r.adc.trims else s.recordTrims } }
  let s := if kept then s else { s with draws := s.draws + 194 }
  let s := ((s.setReg (R.OLn_CDR_STAT n) 0x2).setReg (R.OLn_CDR_FREQ n) 0).setReg (R.OLn_RX_CAL_STAT n) 0x10000
  let s := (s.wr (F.OLn_RX_STAT_slice_parked n) 0).onEqu n fun e =>
    { e with det := s.inForceReg (R.OLn_DET_CTRL n), detTarget := s.inForceReg (R.OLn_DET_TARGET n) }
  (s.dacRequest n).adcRequest n

end State

open State

/-- DAC_CAL_RUN_END (R68). -/
def execDacCalRunEnd (lane : Fin 8) (result : DacResult) (s : State) : Out :=
  if s.flag (F.OLn_TX_CAL_STAT_busy lane) then .next (s.dacEnd lane result) else .next s

/-- LANE_POWER_UP (R13, R67, R368): only a lane that the mode uses, and whose equaliser has not failed its self-test. -/
def execLanePowerUp (lane : Fin 8) (record : Option (Nat × DacCorr)) (s : State) : Out :=
  if !bitOf s.laneMask lane || s.unitFailed (16 + lane) || s.dp.tx[lane].powered || s.dpOff then .next s
  else .next (s.lanePowerUp lane record)

/-- ADC_CAL_PERIOD_EXPIRE (R82). -/
def execAdcCalPeriodExpire (lane : Fin 8) (s : State) : Out :=
  if s.cfg (F.OLn_RX_CAL_CTRL_period lane) = 0 then .next s else .next (s.adcRequest lane)

/-- ADC_CAL_OFFLINE_DONE (R79, R80). -/
def execAdcCalOfflineDone (lane : Fin 8) (offset gain : Int) (skew : Option Int) (s : State) : Out :=
  if !s.adcBusy lane then .next s
  else
    let s := if s.dp.rx[lane].adc.skewOnly then s else s.adcOffline lane offset gain
    .next (match skew with | some t => s.adcSkew lane t | none => s)

/-- ADC_CAL_SHADOW_DONE (R80, R81): the limit is 0.5 LSB. -/
def execAdcCalShadowDone (lane : Fin 8) (rms : Nat) (s : State) : Out :=
  let c := s.dp.rx[lane].adc
  if !s.adcBusy lane || c.skewOnly || c.shadowOk || decide (2 ≤ c.tries) then .next s
  else if rms ≤ 128 then .next (s.onAdc lane fun c => { c with shadowOk := true })
  else .next ((s.bump (R.OLn_RX_CAL_REJ_CNT lane)).onAdc lane fun c => { c with tries := c.tries + 1 })

/-- ADC_CAL_STEP_END (R79, R81, R83). -/
def execAdcCalStepEnd (lane : Fin 8) (spur sndr : Nat) (s : State) : Out :=
  if s.adcBusy lane then .next (s.adcStepEnd lane spur sndr) else .next s

end Sys2Proof.Machine
end

