-- ==== Sys2Proof/Machine/HostLanes.lean ====
section
/-!
DEFINITION. Host lanes: grouping into ports, adaptation and lane status, eye-margin figures, electrical idle, the egress of
the elastic buffer, and the status registers (R191–R213).
-/

namespace Sys2Proof.Machine

/-! ## Grouping (R193) -/

/-- Lanes of a port for a width code 0–3. -/
def widthLanes (w : Nat) : Nat := 2 ^ w

/-- The ports of one half that starts at lane `base`: first lane and width. -/
def halfPorts (base w : Nat) : List (Nat × Nat) :=
  if w ≤ 3 then (List.range (8 / widthLanes w)).map fun i => (base + i * widthLanes w, widthLanes w) else []

/-- A grouping code is no reserved one and fits the line mode: the upper half is unused in every mode but CV-FULL. -/
def groupFits (mode code : Nat) : Bool :=
  let ok (w : Nat) := decide (w ≤ 3) || w == 0xF
  ok (code % 16) && ok (code / 16 % 16) && (mode == 0 || mode == 1 || code / 16 % 16 == 0xF)

/-- The ports of a grouping in a line mode, HP0 first. -/
def groupPorts (mode code : Nat) : List (Nat × Nat) :=
  if mode = 0 then []
  else halfPorts 0 (code % 16) ++ (if mode = 1 then halfPorts 8 (code / 16 % 16) else [])

/-- The figure of the smallest opening, in units of 1/65,536 (R198), and the eye that gives it: the lower one on a tie. -/
def eyeFigure (lower middle upper : Nat) : Nat := Nat.min 255 (255 * Nat.min lower (Nat.min middle upper) / 65536)
def worstEye (lower middle upper : Nat) : Nat :=
  let least := Nat.min lower (Nat.min middle upper)
  if lower = least then 0 else if middle = least then 1 else 2

namespace State

/-- The ports take the grouping in force. A port that keeps its lanes keeps its state; any other starts empty. -/
def applyGrouping (s : State) : State :=
  let ps := groupPorts s.lineMode (s.cfg (F.HL0_GROUP_code 0))
  s.onDp fun d => { d with ports := d.ports.mapFinIdx fun i q _ =>
    match ps[i]? with
    | some (f, w) => if q.first = f ∧ q.width = w then q else { Port.initial with first := f, width := w, packed := q.packed, shown := q.shown }
    | none => { Port.initial with packed := q.packed, shown := q.shown } }

/-- The lane is used: the mode and the grouping include it and it is enabled (R197, R213). -/
def hostUsed (s : State) (n : Fin 16) : Bool :=
  s.hostLanes.contains n && s.cfgOn (F.HLn_CTRL_enable n)
    && s.dp.ports.toList.any fun q => decide (q.first ≤ n.val) && decide (n.val < q.first + q.width)

/-- The ports that a lane is in. -/
def portsOfLane (s : State) (n : Fin 16) : List (Fin 16) :=
  (List.finRange 16).filter fun p =>
    decide (s.dp.ports[p].first ≤ n.val) && decide (n.val < s.dp.ports[p].first + s.dp.ports[p].width)

/-- The port whose first lane this is. -/
def portAt (s : State) (n : Fin 16) : Option (Fin 16) :=
  (List.finRange 16).find? fun p => decide (0 < s.dp.ports[p].width) && s.dp.ports[p].first == n.val

/-! ## Lane states (R197, R198, R206) -/

def emfMin (s : State) (n : Fin 16) : Nat := s.cfg (F.HLn_RX_ADAPT_emf_min n)

/-- A port that loses a lane has no alignment-marker lock (R200). -/
def dropPorts (s : State) (n : Fin 16) : State := (s.portsOfLane n).foldl (fun s p => s.portUnlock p) s

/-- A lane goes to DOWN; its taps, stored ones too, are discarded. -/
def hostToDown (s : State) (n : Fin 16) : State :=
  let s := s.onHost n fun h =>
    { h with st := .down, cdr := false, adapted := false, stored := false, exiting := false, emfValid := false, low := 0,
             coeffs := [], kept := [] }
  ((s.raiseEv (hostEngine n) 11).dropPorts n).reviewState

/-- A lane that was UP goes down: counted and logged. -/
def hostLoseLane (s : State) (n : Fin 16) : State :=
  ((s.bump (R.HLn_DOWN_CNT n)).logEvent srcHl 0xA002 n 0).hostToDown n

/-- A lane's receiver enters electrical idle (R206, R207): settings are stored where it was UP. -/
def hostToIdle (s : State) (n : Fin 16) : State :=
  let up := s.dp.host[n].st == .up
  let s := s.onHost n fun h =>
    { h with st := .idle, stored := up, kept := if up then h.coeffs else [], cdr := false, exiting := false, sig := false }
  (s.raiseEv (hostEngine n) 11).dropPorts n

/-- Every host lane in use enters electrical idle: its transmitter, and its receiver where it does not stand DOWN. What is in force
of its loop, FIR and pattern acts until the exit (R207). -/
def hostIdleAll (s : State) : State :=
  s.hostLanes.foldl (fun s (n : Fin 16) =>
    let now := (s.inForceReg (R.HLn_CTRL n), s.inForceReg (R.HLn_TX_FIR n), s.inForceReg (R.HLn_PRBS_CTRL n))
    let s := s.onHost n fun h => { h with idle := true, held := some now }
    if s.dp.host[n].st = .up ∨ s.dp.host[n].st = .adapt then s.hostToIdle n else s) s

/-- The exit of host idle is ordered: the device is active again, or exits a power state. -/
def idleExitOrdered (s : State) : Bool := s.pwr.pstate == 0 || s.pwr.phase == .exiting

/-! ## Egress (R202–R204) -/

/-- The deletion of R202: while the fill exceeds the centre by more than 4 × W blocks, an idle after an idle, and one of two
consecutive identical ordered sets, are deleted. The blocks left, and how many were deleted. -/
def ebDelete (limit : Nat) : Option (BitVec 66) → List (BitVec 66) → List (BitVec 66) × Nat
  | _, [] => ([], 0)
  | last, x :: t =>
    if limit < t.length + 1 ∧ last = some x ∧ (isIdle66 x ∨ isOrdered66 x) then
      let (r, k) := ebDelete limit last t
      (r, k + 1)
    else (x :: t, 0)

/-- One 66-bit block is sent to the host. -/
def sendBlock (s : State) (p : Fin 16) (b : BitVec 66) (inserted : Bool) : State :=
  s.onPort p fun q => { q with lastOut := some b, inserted := inserted }

/-- What a port sends while its buffer is empty or refills (R203). -/
def fillBlock (last : Option (BitVec 66)) : BitVec 66 :=
  match last with
  | some b => if isIdle66 b || isTerm66 b then idle66 else error66
  | none => error66

/-- One 66-bit block leaves a port. While Local Fault is sent it replaces the port's blocks before the buffer. -/
def egressOne (s : State) (p : Fin 16) : State :=
  let h := s.portBlock p
  let w := s.dp.ports[p].width
  let s := if s.dp.ports[p].lfOut then s.onPort p fun q => { q with eb := q.eb ++ [localFault66], shown := q.shown + 1 } else s
  let c := s.ebCentre w
  let q := s.dp.ports[p]
  if q.refill ∧ q.eb.length < 4 * c then s.sendBlock p (fillBlock q.lastOut) false
  else
    let s := s.onPort p fun q => { q with refill := false }
    let (eb, deleted) := ebDelete (4 * (c + 4 * w)) q.lastOut q.eb
    let s := (s.onPort p fun q => { q with eb := eb }).bumpBy (R.HLn_IDLE_DEL h) deleted
    match eb with
    | [] => ((s.onPort p fun q => { q with refill := true }).ebSlip p 1).sendBlock p (fillBlock q.lastOut) false
    | x :: t =>
      let below := decide (eb.length < 4 * (c - 4 * w))
      match below && !q.inserted, q.lastOut with
      | true, some b =>
        if isIdle66 b || isTerm66 b then (s.bump (R.HLn_IDLE_INS h)).sendBlock p idle66 true
        else if isOrdered66 b then (s.bump (R.HLn_IDLE_INS h)).sendBlock p b true
        else (s.onPort p fun q => { q with eb := t }).sendBlock p x false
      | _, _ => (s.onPort p fun q => { q with eb := t }).sendBlock p x false

/-! ## Status registers (R213) -/

/-- HLn_RX_EMF takes a measurement (R198). -/
def showEye (s : State) (n : Fin 16) (lower middle upper : Nat) : State :=
  s.onHost n fun h =>
    { h with emf := eyeFigure lower middle upper, worst := worstEye lower middle upper, emfValid := true }

/-- The background adaptation between two measurements moves each coefficient by at most one code, which way is free, and
HLn_RX_ADAPT.freeze holds them (R197). That it moves them once between two measurements is a DESIGN CHOICE (log entry 123). -/
def adaptOn (s : State) (n : Fin 16) : State :=
  if s.cfgOn (F.HLn_RX_ADAPT_freeze n) then s
  else
    let d := s.draws
    s.drew.onHost n fun h => { h with coeffs := h.coeffs.zipIdx.map fun (c, i) => c + satI (-1) 1 (Config.hostStep d i) }

/-- HLn_PORT_STAT of a port's first lane. -/
def portStat (s : State) (p : Fin 16) : Word :=
  let q := s.dp.ports[p]
  BitVec.ofNat 32 (1 + 2 * p.val + 2 ^ 5 * (if q.width = 8 then 3 else q.width / 2) + 2 ^ 7 * b2n q.amLock + 2 ^ 8 * b2n q.deskew
    + 2 ^ 9 * b2n (s.portUp p) + 2 ^ 10 * b2n q.lfOut + 2 ^ 11 * b2n (s.lfFill p))

/-- What the HLn blocks' status registers read. A lane that is not used is powered down, and its registers that are not
staged read 0; port registers read 0 in lanes that are no port's first. -/
def viewHost (s : State) (a : Nat) : Option Word :=
  if a < 0x100000 ∨ 0x200000 ≤ a then none
  else
    let n : Fin 16 := ⟨(a - 0x100000) / 0x10000 % 16, Nat.mod_lt _ (by decide)⟩
    let o := (a - 0x100000) % 0x10000
    let h := s.dp.host[n]
    if 0xF00 ≤ o then none
    else if 0x100 ≤ o ∧ o ≤ 0x130 ∧ (s.portAt n).isNone then some 0
    else if o = 0x0 ∨ o = 0x8 ∨ o = 0xC ∨ o = 0x14 ∨ o = 0x100 then none
    else if !s.hostUsed n then some 0
    else if o = 0x4 then
      some (BitVec.ofNat 32 (b2n h.sig + 2 * b2n h.cdr + 4 * b2n h.adapted + 8 * b2n (h.st == .up) + 16 * b2n (h.st == .idle)
        + 32 * b2n (s.hostLoop n != 0)))
    else if o = 0x10 then some (BitVec.ofNat 32 (h.emf + 2 ^ 8 * h.worst + 2 ^ 10 * b2n h.emfValid))
    else if o = 0x18 then some (BitVec.ofNat 32 (b2n (h.prbsLocked && h.chk == s.prbsChk n)))
    else match s.portAt n with
      | none => none
      | some p =>
        if o = 0x104 then some (s.portStat p)
        else if o = 0x128 then some (putField (s.reg a) 0 11 (s.dp.ports[p].eb.length / 4))
        else none

end State

open State

/-- HOST_SIGNAL_DETECT (R197). Below the standby states a lane that is DOWN locks its CDR and starts to adapt. -/
def execHostSignalDetect (lane : Fin 16) (s : State) : Out :=
  let s := s.onHost lane fun h => { h with sig := true }
  if s.dp.host[lane].st = .down ∧ s.hostUsed lane ∧ s.pwr.pstate = 0 then
    .next ((s.onHost lane fun h => { h with st := .adapt, cdr := true }).raiseEv (hostEngine lane) 11)
  else .next s

/-- HOST_ADAPT_DONE (R197, R198): the openings measured with the CDR locked. The coefficients that the adaptation has reached are
free. -/
def execHostAdaptDone (lane : Fin 16) (lower middle upper : Nat) (s : State) : Out :=
  if s.dp.host[lane].st = .adapt then
    let s := s.showEye lane lower middle upper
    if s.emfMin lane ≤ eyeFigure lower middle upper then
      let taps := Config.hostTaps s.draws
      .next (((s.drew.onHost lane fun h => { h with st := .up, cdr := true, adapted := true, low := 0, coeffs := taps }).raiseEv
        (hostEngine lane) 11).reviewState)
    else .next s
  else .next s

/-- HOST_ADAPT_TIMEOUT (R197). -/
def execHostAdaptTimeout (lane : Fin 16) (s : State) : Out :=
  if s.dp.host[lane].st = .adapt then .next ((s.bump (R.HLn_ADAPT_FAIL lane)).hostToDown lane) else .next s

/-- EMF_MEASURE (R197, R198). Of a lane that is UP the background adaptation has moved the coefficients, unless they are frozen, and
three consecutive figures below half the threshold take it down. -/
def execEmfMeasure (lane : Fin 16) (lower middle upper : Nat) (s : State) : Out :=
  if s.dp.host[lane].st = .adapt then .next (s.showEye lane lower middle upper)
  else if s.dp.host[lane].st ≠ .up then .next s
  else
    let s := (s.showEye lane lower middle upper).adaptOn lane
    let low := if 2 * eyeFigure lower middle upper < s.emfMin lane then s.dp.host[lane].low + 1 else 0
    let s := s.onHost lane fun h => { h with low := low }
    .next (if 3 ≤ low then s.hostLoseLane lane else s)

/-- HOST_LANE_DOWN (R197). -/
def execHostLaneDown (lane : Fin 16) (signal : Bool) (s : State) : Out :=
  let up := s.dp.host[lane].st == .up
  let s := s.onHost lane fun h => { h with sig := signal, cdr := false }
  .next (if up then s.hostLoseLane lane else s)

/-- HOST_IDLE_EXIT (R206): the receiver returns to UP from its stored settings; without them, or with fast_en = 0, it adapts
anew; where the quick estimate has not been reached the 1 µs runs. -/
def execHostIdleExit (lane : Fin 16) (quickEmf : Option Byte) (s : State) : Out :=
  let h := s.dp.host[lane]
  if h.st ≠ .idle ∨ !s.idleExitOrdered then .next s
  else
    let s := s.onHost lane fun h => { h with sig := true }
    if h.stored ∧ s.cfgOn (F.HLn_RX_ADAPT_fast_en lane) then
      match quickEmf with
      | some e =>
        if s.emfMin lane ≤ e.toNat then
          .next (((s.onHost lane fun h => { h with st := .up, cdr := true, exiting := false, low := 0, coeffs := h.kept }).raiseEv
            (hostEngine lane) 11).reviewState)
        else .next (s.onHost lane fun h => { h with exiting := true })
      | none => .next (s.onHost lane fun h => { h with exiting := true })
    else .next (s.hostToDown lane)

/-- HOST_FAST_EXIT_TIMEOUT (R206). -/
def execHostFastExitTimeout (lane : Fin 16) (s : State) : Out :=
  if s.dp.host[lane].st = .idle ∧ s.dp.host[lane].exiting then .next (s.hostToDown lane) else .next s

/-- EGRESS_BLOCK_OUT (R202–R204, R208). A port ordered into electrical idle, one whose lanes send the host's own symbols back or do
not select the same loop, and a standard mode send no block of the buffer. -/
def execEgressBlockOut (port : Fin 16) (cyc : Nat) (s : State) : Out :=
  if s.cvMode && decide (0 < s.dp.ports[port].width) && !((s.portLanes port).any fun n => s.dp.host[n].idle)
      && !s.portLoop port 3 && !s.portMixed port then
    let s := s.egressOne port
    match s.dp.ports[port].lastOut with
    | some b => .next (s.regenerate port cyc b)
    | none => .next s
  else .next s

end Sys2Proof.Machine
end

