-- ==== Sys2Proof/Machine/Domains.lean ====
section
/-!
DEFINITION. Power domains that lose their supply (R309, R314, R346): optical lanes, the datapath and DRAM.
-/

namespace Sys2Proof.Machine

namespace State

/-- An optical lane loses its power. The retained SRAM may keep its tap sets and accumulators, and its corrections (R314,
R361). -/
def laneOff (s : State) (n : Fin 8) (taps cal : Bool) : State :=
  let s := (s.abortCalLane n).laneSettled n
  let s := s.onTx n fun _ => TxLane.initial
  s.onRx n fun r =>
    { RxLane.initial with
      keptCal := cal && (r.powered || r.keptCal),
      equ := if taps then { Equ.initial with acc := r.equ.acc, pow := r.equ.pow, inForce := r.equ.inForce } else Equ.initial,
      adc := if cal then { AdcCal.initial with slices := r.adc.slices, trims := r.adc.trims } else AdcCal.initial }

/-- The datapath loses its power. Ports keep their grouping, the pool its configuration, and the timer its origin. -/
def datapathOff (s : State) (taps cal : Bool) : State :=
  let s := ((List.finRange 8).foldl (fun s n => s.laneOff n taps cal) s).poolSettled
  s.onDp fun d =>
    { d with
      ports := d.ports.map fun q => { Port.initial with first := q.first, width := q.width },
      framer := { Framer.initial with base := d.framer.base },
      pool := { d.pool with running := false, nCores := 0, t := 0, reserve := 0, bal := Vector.replicate 8 0,
                            drawn := Vector.replicate 8 0, delivered := 0, queue := [], kept := [], decisions := [],
                            cores := Vector.replicate 16 { work := none, ues := [], miscorr := [] }, burst := [] },
      ledger := { Ledger.initial with retBase := d.ledger.retBase, holdBase := d.ledger.holdBase },
      link := Link.initial,
      host := d.host.map fun h => { HostLane.initial with sig := h.sig, prbsLocked := false },
      pen := { Pen.initial with seqs := d.pen.seqs, lastMail := d.pen.lastMail } }

/-- DRAM loses its power and its contents (R309, R346). -/
def dramOff (s : State) : State :=
  let s := (s.wr F.MEM_STAT_dram_ready 0).wr F.MEM_STAT_dram_sr 0
  { s with mem := { s.mem with dram := [], dramValid := [], dramEcc := [] } }

end State

end Sys2Proof.Machine
end

