-- ==== Sys2Proof/Machine/Mem.lean ====
section
/-!
DEFINITION. Patrol reads, clears, error injection, the loss of DRAM banks and the repair map (R357–R362, R369–R371).
-/

namespace Sys2Proof.Machine

namespace State

/-! ## The patrol (R359) -/

/-- What stands in a word that a patrol reads. -/
def patrolCode (s : State) (dram : Bool) (loc : Nat) : Nat :=
  if dram then mapGet 0 s.mem.dramEcc (loc % 2 ^ 29) else mapGet 0 s.mem.sramEcc (loc % 2 ^ 22)
def setPatrolCode (s : State) (dram : Bool) (loc code : Nat) : State :=
  s.onMem fun m =>
    if dram then { m with dramEcc := mapSet 0 m.dramEcc (loc % 2 ^ 29) code }
    else { m with sramEcc := mapSet 0 m.sramEcc (loc % 2 ^ 22) code }

/-- A unit of memory that a patrol reads is valid (R359, R360). -/
def patrolValid (s : State) (dram : Bool) (loc : Nat) : Bool :=
  if dram then s.dramBlockValid (loc % 2 ^ 29 * 8) else s.sramLineValid (loc % 2 ^ 22)

/-- One patrol read (R357, R359): an uncorrectable word is rewritten with the poison code; one that stands with it is left alone.
Where the word stands with correct check bits, `syn` is the syndrome that a fault from outside gives it; the syndrome of two
flipped bits is that of the check matrix, a free value. -/
def patrol (s : State) (dram : Bool) (loc syn : Nat) : State :=
  match s.patrolCode dram loc with
  | 0 =>
    if syn = 0 then s
    else if syn = 0xFF then s.setPatrolCode dram loc 3
    else if singleBit syn then s.corrected dram
    else (s.uncorrectable dram true loc syn).setPatrolCode dram loc 3
  | 1 => (s.corrected dram).setPatrolCode dram loc 0
  | 2 => (s.drew.uncorrectable dram true loc (1 + s.freeNat % 254)).setPatrolCode dram loc 3
  | _ => s

/-! ## The valid-bit arrays (R360) -/

/-- A block that a parity error makes valid: its stale contents, and what their check bits say of them, are free values. -/
def staleBlock (s : State) (b : Nat) : State :=
  if s.dramBlockValid (4096 * b) then s
  else
    let bs := (List.range 4096).map fun i => BitVec.ofNat 8 (Config.freeNat (s.draws + i))
    let s := { s.dramWrite (4096 * b) bs with draws := s.draws + 4096 }
    (List.range 512).foldl (fun s w => (s.setDramCode (4096 * b + 8 * w) (s.freeNat % 4)).drew) s

/-- The same for a line of SRAM, by its number. -/
def staleLine (s : State) (l : Nat) : State :=
  if s.sramLineValid (8 * l) then s
  else
    let s := s.onMem fun m => { m with sramValid := mapSet false m.sramValid l true }
    (List.range 8).foldl (fun s w => (s.setPatrolCode false (8 * l + w) (s.freeNat % 4)).drew) s

/-- A parity error of word `w` of a valid-bit array: all 32 units are valid from then on, and the event is logged. -/
def validParity (s : State) (dram : Bool) (w : Nat) : State :=
  ((List.range 32).foldl (fun s k => if dram then s.staleBlock (32 * w + k) else s.staleLine (32 * w + k)) s).logEvent
    srcMem 0x3002 (b2n dram) w

/-- The word of its valid-bit array that covers a location. -/
def validWord (dram : Bool) (loc : Nat) : Nat := if dram then loc % 2 ^ 29 / 512 / 32 else loc % 2 ^ 22 / 8 / 32

/-! ## Clears and injection (R358, R361) -/

/-- MEM_CLEAR_CTRL.go (R361): the range stops at the end of DRAM; every later access sees the cleared state. -/
def memClear (s : State) : State :=
  if s.flag F.MEM_STAT_clear_busy then s
  else
    let base := s.rd F.MEM_CLEAR_BASE_block
    (s.dramClear base (Nat.min (2 ^ 20) (base + s.rd F.MEM_CLEAR_LEN_blocks))).wr F.MEM_STAT_clear_busy 1

/-- A write to MEM_INJ_CTRL (R371). -/
def injWrite (s : State) (v : Word) : State :=
  let s := (s.wr F.MEM_INJ_CTRL_kind (getField v 0 2)).wr F.MEM_INJ_CTRL_bit (getField v 2 7)
  if v.getLsbD 9 then s.wr F.MEM_INJ_CTRL_armed 1 else s

/-- The next write to the armed address is corrupted: what it leaves in its word, by kind. -/
def takeInjection (s : State) (addr : Nat) : State × Option Nat :=
  if s.flag F.MEM_INJ_CTRL_armed ∧ (s.reg R.MEM_INJ_ADDR).toNat = addr then
    (s.wr F.MEM_INJ_CTRL_armed 0,
      if s.rd F.MEM_INJ_CTRL_kind = 0 then none else some (s.rd F.MEM_INJ_CTRL_kind))
  else (s, none)

/-! ## Repairs (R362, R369) -/

/-- The entries of the repair map change. -/
def reviewRepair (s : State) : State := s.wr F.BIST_REPAIR_STAT_entries s.mem.repair.length

/-- An entry of the repair map: one that finds the map full is applied for the present power cycle only. -/
def addRepair (s : State) (e : RepairEntry) : State :=
  if s.mem.repair.length < 509 then (s.onMem fun m => { m with repair := m.repair ++ [e] }).reviewRepair
  else s.wr F.BIST_REPAIR_STAT_overflow 1

/-- The map is written to the always-on registers (R370). -/
def writeRepairMap (s : State) : State := s.wr F.BIST_REPAIR_STAT_valid 1

/-- The spare of a pseudo-channel is mapped in place of a bank, whose valid bits are cleared. -/
def mapSpare (s : State) (pc bank source : Nat) : State :=
  let s := s.wrBit F.MEM_SPARE_USED_pc pc true
  let s := s.onMem fun m => { m with banksSpared := mapSet false m.banksSpared (16 * pc + bank) true }
  (s.dramClearBank pc bank).addRepair { kind := 3, unit := pc, index := bank, spare := 16, source := source }

/-- A bank fails (R362): the stores of the ledger that lie in DRAM are rebuilt (R164). -/
def bankFail (s : State) (pc bank : Nat) : State :=
  if mapGet false s.mem.banksLost (16 * pc + bank) then s
  else if bitOf (s.rd F.MEM_SPARE_USED_pc) pc then
    let s := s.onMem fun m => { m with banksLost := mapSet false m.banksLost (16 * pc + bank) true }
    let s := (s.wrBit F.MEM_BANK_LOST_pc pc true).wr F.MEM_STAT_dram_degraded 1
    ((s.setInt F.MEM_INT_spare_exhausted).logEvent srcMem 0x3004 pc bank).reviewLost
  else
    let s := ((s.mapSpare pc bank 1).writeRepairMap).bump R.MEM_BANK_FAIL_CNT
    let s := (s.setInt F.MEM_INT_bank_fail).logEvent srcMem 0x3003 pc bank
    s.rebuildStart (16 * pc + bank)

end State

/-- SCRUB_READ (R359, R360): patrols stop in STANDBY and SLEEP, and skip what is not valid. `parity` says that the word of the
valid-bit array that covers the location has a parity error. -/
def execScrubRead (dram : Bool) (loc : Nat) (syndrome : BitVec 8) (parity : Bool) (s : State) : Out :=
  let on := if dram then s.flag F.MEM_CTRL_dram_scrub else s.flag F.MEM_CTRL_sram_scrub
  if !(on && decide (s.pwr.pstate ≤ 1)) then .next s
  else
    let s := if parity then s.validParity dram (State.validWord dram loc) else s
    .next (if s.patrolValid dram loc then s.patrol dram loc syndrome.toNat else s)

/-- MEM_CLEAR_DONE (R361). -/
def execMemClearDone (s : State) : Out :=
  .next (if s.flag F.MEM_STAT_clear_busy then (s.wr F.MEM_STAT_clear_busy 0).setInt F.MEM_INT_clear_done else s)

/-- DRAM_BANK_FAIL (R362). -/
def execDramBankFail (pc : Fin 32) (bank : Fin 16) (s : State) : Out := .next (s.bankFail pc bank)

end Sys2Proof.Machine
end

