-- ==== Sys2Proof/Machine/Detector.lean ====
section
/-!
DEFINITION. From the detector's symbols to codewords: destuffing, descrambling, likelihood codes, and the arrival of a
codeword in its lane's input queue (R35, R107–R110, R117).
-/

namespace Sys2Proof.Machine

/-- A likelihood code (R108): Λ × llr_gain / 16, halves away from zero, saturated to ±31. -/
def llrCode (gain : Nat) (l : Rat) : Int := satI (-31) 31 (roundDiv (l.num * gain) (16 * l.den))

/-- The two codes of a payload symbol, negated where the scrambler bit was 1 (R108, R109). -/
def symCodes (gain : Nat) (x : RxSym) (scr : Nat) : List Int :=
  let c1 := llrCode gain x.l1
  let c0 := llrCode gain x.l0
  [if bitOf scr 1 then -c1 else c1, if bitOf scr 0 then -c0 else c0]

/-- Count a received line symbol in the run of equal hard decisions (R32, R35). -/
def Destuff.count (d : Destuff) (lab : Nat) : Destuff :=
  { d with run := if d.run ≠ 0 ∧ d.last = lab then d.run + 1 else 1, last := lab, pos := d.pos + 1 }

/-- One symbol of the payload region: a stuff is removed, any other gives two codes (R35, R109). -/
def Destuff.take (gain : Nat) (d : Destuff) (x : RxSym) : Destuff × List Int :=
  let full := d.run == 40 && decide (d.pos ≤ 266239)
  if full ∧ d.stuffs < 512 then ({ (d.count x.label) with stuffs := d.stuffs + 1 }, [])
  else
    let (k, scr) := scramStep d.scr
    ({ (d.count x.label) with scr := scr, overflow := d.overflow || full }, symCodes gain x k)

/-- The symbols of a codeword in the payload region, in order: until it has its 16,384 codes or the region ends (R109). -/
def Destuff.takeAll (gain : Nat) : Destuff → Nat → List RxSym → Destuff × List Int
  | d, _, [] => (d, [])
  | d, need, x :: t =>
    if need = 0 ∨ 266240 ≤ d.pos then (d, [])
    else
      let (d, c) := d.take gain x
      let (d, r) := Destuff.takeAll gain d (need - c.length) t
      (d, c ++ r)

/-- Displaced symbols, which the stuffing field sends as they stand (R33, R109). -/
def Destuff.displaced (gain : Nat) : Destuff → List RxSym → Destuff × List Int
  | d, [] => (d, [])
  | d, x :: t =>
    let (k, scr) := scramStep d.scr
    let (d, r) := Destuff.displaced gain { d with scr := scr } t
    (d, symCodes gain x k ++ r)

namespace State

/-- OLn_DET_CTRL.llr_gain as it acts: 0 acts as 32. -/
def llrGain (s : State) (n : Fin 8) : Nat :=
  let g := getField s.dp.rx[n].equ.det 2 6
  if g = 0 then 32 else g

/-- alt of the superframe: from its accepted message, else from the receiver's own overflow in the superframe before it
(R35). -/
def rxAlt (s : State) (n : Fin 8) (sfc : Nat) : Bool :=
  match s.dp.link.peerAlt.find? (·.1 == sfc), s.dp.rx[n].ds.prev with
  | some (_, m), _ => bitOf m n
  | none, some (q, _, overflow) => overflow && sfc == (q + 1) % 2 ^ 32
  | none, none => false

/-- The payload region of a new superframe begins on a lane. A count that no accepted copy has taught is free (log entry
15). -/
def startDestuff (s : State) (n : Fin 8) : State :=
  let (s, sfc) := match s.dp.rx[n].expSfc with
    | some e => (s, e)
    | none => (s.drew, s.freeNat % 2 ^ 32)
  let alt := s.rxAlt n sfc
  s.onRx n fun r =>
    { r with ds := { r.ds with pos := 4096, run := 0, last := 0, stuffs := 0, overflow := false,
                               scr := payloadSeed n alt sfc, sfc := sfc, cw := 0 } }

/-- The lane delivers codewords to the pool (R122). -/
def delivers (s : State) (n : Fin 8) : Bool :=
  s.cvMode && s.dp.pool.running && bitOf s.laneMask n && s.dp.rx[n].lock == .locked
    && (s.dp.rx[n].fe == .track || s.dp.rx[n].fe == .acquire)

/-- Entries of a lane's input queue in use (R110): codewords that wait, are decoded or await their release, and the one that fills. -/
def inUse (p : Pool) (n : Nat) : Nat :=
  (p.queue.filter (·.lane == n)).length + (p.decisions.filter (·.entry.lane == n)).length
    + (p.cores.toList.filter fun c => match c.work with | some w => w.entry.lane == n | none => false).length + 1

/-- A lane keeps what failed codewords the 48 entries hold beside those in use (R110). -/
def trimKept (s : State) (n : Nat) : State :=
  s.onPool fun p => { p with kept := (p.kept.filter (·.lane == n)).take (48 - inUse p n) ++ p.kept.filter (·.lane != n) }

/-- Make up a codeword's codes to 16,384: those that a stuffing mismatch leaves out are free (R35, log entry 15). Where the
accepted stuff_count exceeds the own count, so that codeword 31 would take more than 16,384, its last ones are dropped: DESIGN
CHOICE, the rule does not say which are kept (log entry 15). -/
def fullCodes (s : State) (codes : List Int) : State × List Int :=
  let k := 16384 - codes.length
  ({ s with draws := s.draws + k },
   codes.take 16384 ++ (List.range k).map fun i => ((Config.freeNat (s.draws + i) % 63 : Nat) : Int) - 31)

/-- The end of a superframe's payload: how many displaced symbols codeword 31 takes, and whether a mismatch counts (R35). -/
def displacedCount (s : State) (n : Fin 8) : Nat × Bool :=
  let d := s.dp.rx[n].ds
  match s.dp.link.peerStuff.find? (·.1 == (d.sfc + 1) % 2 ^ 32) with
  | some (_, st) => (st.getD n 0, st.getD n 0 != d.stuffs)
  | none => (d.stuffs, false)

/-- FEC_DEADLINE.ns as it acts: 40 to 260. -/
def deadlineCycles (ns : Nat) : Nat := 3 * Nat.min 260 (Nat.max 40 ns) / 2

end State

/-- The symbols of a burst from position `p` of a superframe on. -/
def State.symbolsFrom (s : State) (n : Fin 8) (b : RxBurst) (p : Nat) : List RxSym := (s.listen n b).drop (s.samplesTo n b p)

/-- CODEWORD_ARRIVE (R107–R109). -/
def execCodewordArrive (lane : Fin 8) (now : Nat) (burst displaced : RxBurst) (s : State) : Out :=
  if !s.delivers lane then .next s
  else
    let s := (s.countSat lane burst).countSat lane displaced
    let s := if 32 ≤ s.dp.rx[lane].ds.cw then s.startDestuff lane else s
    let gain := s.llrGain lane
    let cw := s.dp.rx[lane].ds.cw
    let (d, codes) := s.dp.rx[lane].ds.takeAll gain 16384 (s.symbolsFrom lane burst s.dp.rx[lane].ds.pos)
    let s := s.onRx lane fun r => { r with ds := d }
    let (k, mismatch) := s.displacedCount lane
    let (d, more) := if cw = 31 then d.displaced gain ((s.symbolsFrom lane displaced 3456).take k) else (d, [])
    let (s, codes) := s.fullCodes (codes ++ more)
    let s := if cw = 31 ∧ mismatch then s.bump (R.OLn_DET_STUFF_MM lane) else s
    let d := { d with cw := cw + 1 }
    let d := if cw = 31 then { d with prev := some (d.sfc, d.stuffs, d.overflow) } else d
    let s := s.onRx lane fun r => { r with ds := d }
    let e : CwEntry := { lane := lane, sfc := d.sfc, cw := cw, codes := codes, arrival := now,
                         deadline := now + State.deadlineCycles s.dp.pool.deadlineNs }
    .next ((s.onPool fun p =>
      { p with queue := p.queue ++ [e], delivered := setBit p.delivered lane true }).trimKept lane)

end Sys2Proof.Machine
end

