-- ==== Sys2Proof/Machine/Pool.lean ====
section
/-!
DEFINITION. The shared decoder pool (R110–R132): ticks and credit, dispatch, iterations and deadlines, core failures, release
records and the history ring.
-/

namespace Sys2Proof.Machine

/-! ## Work cycles and pauses (R119) -/

/-- The core cycle at which `w` work cycles that begin at cycle `c` have been done: cycle x is a pause when (x − origin) mod 8
< t. The first argument bounds the search. -/
def workEnd (t origin : Nat) : Nat → Nat → Nat → Nat
  | 0, c, _ => c
  | fuel + 1, c, w =>
    if w = 0 then c
    else if ((c + 8 * 2 ^ 32 - origin % 8) % 8) < t then workEnd t origin fuel (c + 1) w
    else workEnd t origin fuel (c + 1) (w - 1)

/-- The work cycles among so many core cycles from cycle `c`. -/
def workIn (t origin : Nat) : Nat → Nat → Nat
  | 0, _ => 0
  | k + 1, c => b2n (decide (t ≤ (c + 8 * 2 ^ 32 - origin % 8) % 8)) + workIn t origin k (c + 1)

/-- Work whose end lies past a tick at core cycle `now`, at which the throttle level goes from `old` to `new` (R119). -/
def Work.throttled (w : Work) (old new now : Nat) : Work :=
  if w.ends ≤ now then w
  else
    let left := workIn old now (w.ends - now) now
    { w with ends := workEnd new now (2 * left + 16) now left }

namespace State

/-- The end of `w` work cycles from core cycle `c` at the throttle level in force. -/
def ends (s : State) (c w : Nat) : Nat := workEnd s.dp.pool.t s.dp.pool.tick (2 * w + 16) c w

def maxIter (s : State) : Nat :=
  let v := getField s.dp.pool.ctrl 0 5
  if v = 0 ∨ 16 < v then 16 else v
def minIter (s : State) : Nat :=
  let v := getField s.dp.pool.ctrl 5 3
  if v = 0 ∨ 4 < v then 2 else v
def alpha (s : State) : Nat :=
  let v := getField s.dp.pool.ctrl 8 4
  if v = 0 then 12 else v
/-- FEC_CTRL.min_cores as the pool acts on it. -/
def minCores (s : State) : Nat := getField s.dp.pool.ctrl 16 5

/-- FEC_CORE_STAT.failed. -/
def failedCores (s : State) : Nat := s.rd F.FEC_CORE_STAT_failed
/-- DCk is in service. -/
def coreActive (s : State) (k : Nat) : Bool := bitOf s.dp.pool.coreEn k && !bitOf s.failedCores k
def activeCores (s : State) : Nat := ((List.range 16).filter fun k => s.coreActive k).length

def onCore (s : State) (k : Fin 16) (f : PoolCore → PoolCore) : State :=
  s.onPool fun p => { p with cores := p.cores.set k (f p.cores[k]) }

/-- R121: fewer active cores than min_cores. -/
def reviewCores (s : State) : State :=
  let below := decide (s.activeCores < s.minCores)
  let was := s.flag F.FEC_STAT_below_min
  let s := s.wr F.FEC_STAT_below_min (b2n below)
  let s := if below ∧ !was then s.logEvent srcFec 0x7002 s.activeCores 0 else s
  s.reviewState

/-! ## Decisions (R113, R117, R126) -/

/-- The corrected-bit count (R113). -/
def corrCount (codes : List Int) (bits : List Bool) : Nat :=
  Nat.min 8191 ((List.zip codes bits).filter fun (c, b) => decide (c < 0) != b).length

/-- A codeword is decided: it waits for its release record (R126), and FEC_LAT_MAX keeps the largest time. -/
def decide_ (s : State) (e : CwEntry) (core : Option Nat) (outcome iter at_ : Nat) (codes : List Int) (bits : List Bool)
    (poison : Bool) : State :=
  let s := s.raiseMax F.FEC_LAT_MAX_cycles (at_ - e.arrival)
  s.onPool fun p =>
    { p with decisions := p.decisions ++ [{ entry := e, core := core, made := at_, outcome := outcome, iter := iter,
                                            corr := corrCount codes bits, bits := bits, poison := poison }] }

/-- A core's codeword is decided, and the core is idle. -/
def decideWork (s : State) (k : Fin 16) (w : Work) (outcome at_ : Nat) : State :=
  let s := if w.released then s else s.decide_ w.entry (some k.val) outcome w.iter at_ w.codes (hardBits w.post) w.poison
  s.onCore k fun c => { c with work := none }

/-- The outcome of a converged codeword by its CRC-32 (R45, R126). -/
def crcOutcome (bits : List Bool) : Nat :=
  let got := msgField bits 15227 32
  let want := crc32Line (bits.take 15227)
  if got = want then 0 else if got = want ^^^ 0xFFFFFFFF then 6 else 1

/-- CORE_MAP_OUT (R120). `row` is that of *Core failure conditions*, and `at_` the core cycle at which work in progress is
decided. -/
def mapOut (s : State) (k : Fin 16) (row : Nat) (at_ : Work → Nat) : State :=
  if bitOf s.failedCores k then s
  else
    let s := match s.dp.pool.cores[k].work with
      | some w => s.decideWork k w 4 (at_ w)
      | none => s
    let s := s.wrBit F.FEC_CORE_STAT_failed k true
    let s := (s.bump R.FEC_CNT_MAPOUT).logEvent srcFec 0x7001 k.val row
    s.reviewCores

/-! ## Credit (R115, R116) -/

def bal (s : State) (n : Fin 8) : Int := s.dp.pool.bal[n]
def setBal (s : State) (n : Fin 8) (v : Int) : State := s.onPool fun p => { p with bal := p.bal.set n v }

/-- The cost of later iterations is funded from the balance, then from the reserve (R116). -/
def fund (s : State) (n : Fin 8) : Option State :=
  let have_ := (max (s.bal n) 0).toNat
  if 16 ≤ have_ then some (s.setBal n (s.bal n - 16))
  else
    let need := 16 - have_
    let p := s.dp.pool
    if need ≤ p.reserve ∧ p.drawn[n] + need ≤ p.laneMax then
      let s := s.onPool fun p => { p with reserve := p.reserve - need, drawn := p.drawn.set n (p.drawn[n] + need) }
      some ((s.setBal n (s.bal n - have_)).bumpWrap (R.FEC_LANEn_RES_DRAW n) need)
    else none

/-- A commit's FEC values come into force at a tick (R127). A new base restarts the ring (R130): entries that still wait for their
burst go to the new one (DEDUCED, log entry 125). -/
def takeFecConfig (s : State) : State :=
  if !s.dp.pool.staged then s
  else
    let base := s.cfg F.FEC_HIST_BASE_base
    let s := if base ≠ s.dp.pool.histBase then s.setReg R.FEC_HIST_WPTR 0 else s
    let s := s.onPool fun p =>
      { p with staged := false, deadlineNs := s.cfg F.FEC_DEADLINE_ns, grant := s.cfg F.FEC_GRANT_grant,
               resCap := s.cfg F.FEC_RES_CTRL_res_cap, laneMax := s.cfg F.FEC_RES_CTRL_lane_max,
               ctrl := s.inForceReg R.FEC_CTRL, coreEn := s.cfg F.FEC_CORE_EN_en, histBase := base,
               histEn := s.cfgOn F.FEC_HIST_CTRL_en }
    s.poolSettled

/-- Credit is redistributed (R115). -/
def redistribute (s : State) : State :=
  let p := s.dp.pool
  let inSvc := p.delivered
  let lanes := (List.finRange 8).filter fun (n : Fin 8) => bitOf inSvc n
  let give := p.bal.toList.foldl (fun g b => g + (max b 0).toNat) 0
  let c := p.nCores * 219 * (8 - p.t)
  let (g, surplus) := if lanes.length * p.grant ≤ c then (p.grant, c - lanes.length * p.grant)
    else (c / lanes.length, 0)
  s.onPool fun p =>
    { p with reserve := Nat.min (p.reserve + give + surplus) p.resCap,
             bal := p.bal.mapFinIdx fun i b _ =>
               (if b > 0 ∨ !bitOf inSvc i then 0 else b) + (if bitOf inSvc i then (g : Int) else 0),
             drawn := p.drawn.mapFinIdx fun i d _ => if bitOf inSvc i then 0 else d,
             delivered := 0 }

/-- The waiting codeword with the earliest deadline, the lower lane on a tie (R118). -/
def earliest (s : State) : Option CwEntry :=
  s.dp.pool.queue.foldl (fun (best : Option CwEntry) e =>
    match best with
    | none => some e
    | some b => if e.deadline < b.deadline ∨ (e.deadline = b.deadline ∧ e.lane < b.lane) then some e else best) none

/-- Take an entry from the queue. -/
def unqueue (s : State) (e : CwEntry) : State :=
  s.onPool fun p => { p with queue := p.queue.filter fun x => !(x.lane == e.lane && x.sfc == e.sfc && x.cw == e.cw) }

/-- The input codes' signs as bits. -/
def signBits (codes : List Int) : List Bool := codes.map fun c => decide (c < 0)

/-- Release a waiting codeword that can no longer be dispatched in time (R118). -/
def expireWaiting (s : State) (e : CwEntry) : State :=
  let w := 8 + 16 * s.minIter
  let fits := (List.range (e.deadline - e.arrival + 1)).filter fun i => s.ends (e.arrival + i) w ≤ e.deadline
  let at_ := match fits.getLast? with | some i => e.arrival + i + 1 | none => e.arrival
  (s.unqueue e).decide_ e none 5 0 at_ e.codes (signBits e.codes) false

/-- Lane counters of a release record (R132). -/
def countRecord (s : State) (d : Decision) (hdrOk : Bool) : State :=
  let n := d.entry.lane
  let s := (s.bump64 (R.FEC_LANEn_CW_LO n) 1).bump64 (R.FEC_LANEn_ITER_LO n) d.iter
  let s := if d.outcome = 0 ∨ d.outcome = 6 then s.bump64 (R.FEC_LANEn_BITS_LO n) d.corr else s
  let s := match d.outcome with
    | 1 => s.bump (R.FEC_LANEn_MISCORR n)
    | 2 => s.bump (R.FEC_LANEn_FAIL_DL n)
    | 3 => s.bump (R.FEC_LANEn_FAIL_CR n)
    | 4 => s.bump (R.FEC_LANEn_FAIL_CORE n)
    | 5 => s.bump (R.FEC_LANEn_FAIL_DL n)
    | 6 => s.bump (R.FEC_LANEn_SRC_POISON n)
    | _ => s
  let failed := decide (1 ≤ d.outcome) && decide (d.outcome ≤ 5)
  let s := if failed ∧ !hdrOk then s.bump (R.FEC_LANEn_HDR_UNK n) else s
  let s := s.bump (keyHist n d.iter)
  if failed then
    let l : Fin 8 := Fin.ofNat 8 n
    s.onPen fun p => { p with fails := p.fails.set l (Nat.min 0xFFFF (p.fails[l] + 1)) }
  else s

/-- Keep a failed codeword's codes, the oldest overwritten first (R110). -/
def keepFailed (s : State) (d : Decision) : State :=
  if d.outcome = 0 ∨ d.outcome = 6 then s
  else (s.onPool fun p => { p with kept := d.entry :: p.kept }).trimKept d.entry.lane

/-- An entry of the history ring (R129). -/
def historyEntry (s : State) (d : Decision) (hdrOk : Bool) : Nat :=
  d.entry.lane + 2 ^ 3 * d.entry.cw + 2 ^ 8 * (d.entry.sfc % 2 ^ 16) + 2 ^ 24 * d.iter + 2 ^ 29 * d.outcome
    + 2 ^ 32 * b2n d.poison + 2 ^ 33 * b2n hdrOk + 2 ^ 34 * d.corr + 2 ^ 47 * (s.timeNs / 2 ^ 15)

/-- The history entry of a record waits for its burst, or is dropped: its data read with poison or DRAM's write queue is full, or
DRAM cannot take it (R125, R129, R130). -/
def addHistory (s : State) (d : Decision) (hdrOk lost : Bool) : State :=
  if !s.dp.pool.histEn then s
  else if lost || !s.dramReady then s.bump R.FEC_HIST_LOST
  else s.onPool fun p => { p with burst := p.burst ++ [s.historyEntry d hdrOk] }

/-- A core's record of miscorrections: four among its last 65,536 codewords map it out (R120). -/
def noteMiscorr (s : State) (core : Option Nat) (mis : Bool) (now : Nat) : State :=
  match core with
  | none => s
  | some k =>
    let k := Fin.ofNat 16 k
    let ages := (s.dp.pool.cores[k].miscorr.map (· + 1)).filter (decide <| · < 65536)
    let ages := if mis then 0 :: ages else ages
    let s := s.onCore k fun c => { c with miscorr := ages }
    if 4 ≤ ages.length then s.mapOut k 3 (fun _ => now) else s

end State

open State

/-- POOL_TICK (R115, R119, R127). The pool starts with its first tick: the reserve is 0 and the core cycles begin. Where that first
tick falls the rule leaves open: in the core cycle in which the superframe timer last ticked, or the next (DESIGN CHOICE, log entry
125). -/
def execPoolTick (s : State) : Out :=
  if !s.cvMode || s.dpOff then .next s
  else
    let s := if s.dp.pool.running then s.onPool fun p => { p with tick := p.tick + 1752 }
      else s.onPool fun p =>
        { p with running := true, tick := ceilDiv (128 * s.dp.framer.base) 152, reserve := 0,
                 bal := Vector.replicate 8 0, drawn := Vector.replicate 8 0, delivered := 0 }
    let s := s.takeFecConfig
    let slowed (c : PoolCore) : PoolCore := { c with work := c.work.map fun w => w.throttled s.dp.pool.t s.therm.level s.dp.pool.tick }
    let s := s.onPool fun p => { p with t := s.therm.level, nCores := s.activeCores, cores := p.cores.map slowed }
    let s := s.wr F.FEC_STAT_in_service s.dp.pool.delivered
    let s := (s.wr F.FEC_STAT_throttle_t s.dp.pool.t).wr F.FEC_STAT_cores s.dp.pool.nCores
    .next s.redistribute.reviewCores

/-- CORE_DISPATCH (R111, R116, R118, R123). -/
def execCoreDispatch (now : Nat) (poison : List Nat) (s : State) : Out :=
  let idle := (List.finRange 16).find? fun (k : Fin 16) => s.coreActive k && s.dp.pool.cores[k].work.isNone
  match idle, s.earliest with
  | some k, some e =>
    if e.deadline < s.ends now (8 + 16 * s.minIter) then .next (s.expireWaiting e)
    else
      let n := Fin.ofNat 8 e.lane
      let s := s.unqueue e
      let s := s.setBal n (s.bal n - (8 + 16 * s.minIter : Nat))
      let s := if poison.isEmpty then s
        else (poison.foldl (fun s _ => s.poisonReadShared) s).bump (R.FEC_LANEn_POISON e.lane)
      let codes := e.codes.mapIdx fun i c => if poison.contains (i / 10) then 0 else c
      let w : Work := { entry := e, codes := codes, post := codes, msgs := innerCode.noMsgs, iter := 0, paid := s.minIter, ends := s.ends now 24,
                        poison := !poison.isEmpty, released := false }
      .next (s.onCore k fun c => { c with work := some w })
  | _, _ => .next s

/-- ITERATION_END (R111, R112, R116, R118). -/
def execIterationEnd (core : Fin 16) (s : State) : Out :=
  match s.dp.pool.cores[core].work with
  | none => .next s
  | some w =>
    if w.released then .next (s.onCore core fun c => { c with work := none })
    else
      let (post, msgs) := innerCode.iterate s.alpha w.post w.msgs
      let w := { w with post := post, msgs := msgs, iter := w.iter + 1 }
      let bits := hardBits post
      if s.minIter ≤ w.iter ∧ innerCode.satisfied bits then .next (s.decideWork core w (crcOutcome bits) w.ends)
      else if s.maxIter ≤ w.iter then .next (s.decideWork core w 2 w.ends)
      else
        let e := s.ends w.ends 16
        if w.entry.deadline < e then .next (s.decideWork core w 2 w.ends)
        else if w.iter < w.paid then .next (s.onCore core fun c => { c with work := some { w with ends := e } })
        else
          match s.fund (Fin.ofNat 8 w.entry.lane) with
          | some s => .next (s.onCore core fun c => { c with work := some { w with ends := e } })
          | none => .next (s.decideWork core w 3 w.ends)

/-- CODEWORD_DEADLINE (R117): the core still holds the codeword. -/
def execCodewordDeadline (core : Fin 16) (s : State) : Out :=
  match s.dp.pool.cores[core].work with
  | none => .next s
  | some w =>
    if w.released then .next s
    else
      let s := s.decide_ w.entry (some core.val) 4 w.iter w.entry.deadline w.codes (hardBits w.post) w.poison
      .next (s.onCore core fun c => { c with work := some { w with released := true } })

/-- NOT_DISPATCHED_EXPIRE (R118). -/
def execNotDispatchedExpire (s : State) : Out :=
  match s.earliest with
  | some e => .next (s.expireWaiting e)
  | none => .next s

/-- CORE_STALL (R120): the work has not ended 32 cycles after its computed end. -/
def execCoreStall (core : Fin 16) (s : State) : Out :=
  if s.dp.pool.cores[core].work.isSome then .next (s.mapOut core 1 fun w => w.ends + 32) else .next s

/-- MESSAGE_MEMORY_UE (R120, R124, R131): the read counts as uncorrectable (R357); where it was is free. -/
def execMessageMemoryUe (core : Fin 16) (now : Nat) (s : State) : Out :=
  if !s.cvMode then .next s else
  let loc := 2 ^ 21 + s.freeNat % 2 ^ 21
  let s := s.drew
  let syn := s.freeNat % 255
  let s := (s.drew).uncorrectable false false loc syn
  let s := match s.dp.pool.cores[core].work with
    | some w => s.decideWork core w 4 now
    | none => s
  let ues := now :: s.dp.pool.cores[core].ues.filter fun t => decide (now - t < 2 ^ 24)
  let s := s.onCore core fun c => { c with ues := ues }
  if 2 ≤ ues.length then .next (s.mapOut core 2 fun _ => now) else .next s

/-- RELEASE_RECORD (R125, R126, R129): the oldest decision. -/
def execReleaseRecord (poison histLost : Bool) (s : State) : Out :=
  match s.dp.pool.decisions with
  | [] => .next s
  | d :: rest =>
    let s := s.onPool fun p => { p with decisions := rest }
    let s := if poison then s.poisonReadShared else s
    let bits := d.bits.take 15360
    let (seq, kind, port, ok) := readHeader bits
    let r : Release := { lane := d.entry.lane, sfc := d.entry.sfc, cw := d.entry.cw, outcome := d.outcome, hdrOk := ok,
                         poison := poison, kind := kind, seq := seq, port := port, bits := bits,
                         arrival := d.entry.arrival, deadline := d.entry.deadline - d.entry.arrival }
    let s := (s.countRecord d ok).keepFailed d
    let s := s.addHistory d ok histLost
    let s := s.onLedger fun l => { l with records := l.records ++ [r] }
    .next (s.noteMiscorr d.core (d.outcome == 1) (d.made + 10))

/-- HISTORY_BURST_WRITTEN (R129, R130). -/
def execHistoryBurstWritten (s : State) : Out :=
  let xs := s.dp.pool.burst
  if xs.length < 64 ∨ !s.cvMode then .next s
  else
    let s := s.onPool fun p => { p with burst := xs.drop 64 }
    if !s.dramReady then .next (s.bumpBy R.FEC_HIST_LOST 64)
    else
      let i := s.rd F.FEC_HIST_WPTR_index
      let a := s.dp.pool.histBase * 2 ^ 27 + 8 * i
      let s := s.dramWrite a ((xs.take 64).flatMap fun v => leBytes 8 v)
      let s := s.wr F.FEC_HIST_WPTR_index ((i + 64) % 2 ^ 24)
      .next (if 2 ^ 24 ≤ i + 64 then s.wr F.FEC_HIST_WPTR_wraps (s.rd F.FEC_HIST_WPTR_wraps + 1) else s)

namespace State

/-- The pool's typed status as it reads (R132). -/
def viewPool (s : State) (a : Nat) : Option Word :=
  if a = R.FEC_CORE_STAT then
    some (BitVec.ofNat 32 ((List.range 16).foldl (fun m k => m + b2n (s.coreActive k) * 2 ^ k) 0 + 2 ^ 16 * s.failedCores))
  else if a = R.FEC_RESERVE then some (BitVec.ofNat 32 s.dp.pool.reserve)
  else if R.FEC_LANEn_BAL 0 ≤ a ∧ a ≤ R.FEC_LANEn_HIST_DATA 7 ∧ (a - R.FEC_LANEn_BAL 0) % 256 = 0 then
    some (BitVec.ofNat 32 (ofSigned 20 s.dp.pool.bal[Fin.ofNat 8 ((a - R.FEC_LANEn_BAL 0) / 256)]))
  else if R.FEC_LANEn_HIST_DATA 0 ≤ a ∧ a ≤ R.FEC_LANEn_HIST_DATA 7 ∧ (a - R.FEC_LANEn_HIST_DATA 0) % 256 = 0 then
    let n := (a - R.FEC_LANEn_HIST_DATA 0) / 256
    let b := s.rd (F.FEC_LANEn_HIST_SEL_bin n)
    some (if b ≤ 16 then s.reg (keyHist n b) else 0)
  else none

end State

end Sys2Proof.Machine
end

