-- ==== Sys2Proof/Machine/Bist.lean ====
section
/-!
DEFINITION. Self-test in slices, its results, and the repairs it allocates (R364–R370).
-/

namespace Sys2Proof.Machine

/-- How many slices a unit has (*Self-test units*). -/
def sliceCount (u : Nat) : Nat := if u < 25 then 1 else if u < 27 then 16 else 17

/-- The column of a failing SRAM bit: 72 bits of each of the eight words of a row (R355, R369). -/
def sramColumn (word bit : Nat) : Nat := word % 8 * 72 + bit

/-- A list without its repeats, first ones kept. -/
def distinct {α : Type} [DecidableEq α] : List α → List α
  | [] => []
  | x :: t => x :: (distinct t).filter (· ≠ x)

/-- The failing SRAM bits of a slice: macro, word, bit. -/
def sramFails (fs : List FailWord) : List (Nat × Nat × Nat) :=
  fs.filterMap fun f => match f with
    | .sram m w b => some (m, w, b)
    | .dram _ _ _ _ => none

/-- The failing DRAM banks of a slice. -/
def dramFails (fs : List FailWord) : List (Nat × Nat) :=
  distinct (fs.filterMap fun f => match f with
    | .sram _ _ _ => none
    | .dram pc bank _ _ => some (pc, bank))

namespace State

/-! ## The run -/

def setRun (s : State) (r : Option BistRun) : State := s.onMem fun m => { m with run := r }

/-- What a unit needs before its slice runs: IG-S is taken out of service, and the report of a memory unit starts anew
(R364, R369). -/
def sliceSetup (s : State) (r : BistRun) : State :=
  let s := if r.unit = 24 then
      ((s.resetEngine 1).onSafe fun f => { f with igsRun := false }).reviewSafe else s
  if 25 ≤ r.unit ∧ r.slice = 0 then
    (s.setReg R.BIST_FAIL_ADDR 0).setReg R.BIST_FAIL_BIT (BitVec.ofNat 32 (2 ^ 7 * r.unit))
  else s

/-- A run begins its next slice. -/
def sliceStart (s : State) (r : BistRun) : State := (s.setRun (some r)).sliceSetup r

def noTally : UnitTally := { worst := 0, repaired := 0, failing := 0 }

/-- The lowest unit of a mask. -/
def lowestUnit (m : Nat) : Option Nat := (bitList 28 m).head?

/-- A BIST command's run: always a fresh run of its own units (R367). -/
def bistCommand (s : State) (mask : Nat) : State :=
  match lowestUnit mask with
  | some u => s.sliceStart { trigger := 0, asked := mask, units := mask, unit := u, slice := 0, tally := noTally }
  | none => s

/-- A SHUTDOWN or SLEEP run resumes the round at BIST_NEXT (R367). -/
def bistRound (s : State) (trigger : Nat) : State :=
  let todo := (0xFFFFFFF : Nat) - s.rd F.BIST_DONE_units % 2 ^ 28
  let slice := s.rd F.BIST_NEXT_slice
  s.sliceStart { trigger := trigger, asked := todo, units := todo, unit := s.rd F.BIST_NEXT_unit, slice := slice,
                 tally := if slice = 0 then noTally else s.mem.held }

/-! ## Repair (R369) -/

/-- The spares of a macro that are taken. -/
def rowsTaken (s : State) (m : Nat) : Nat := mapGet 0 s.mem.rowsUsed m
def colsTaken (s : State) (m : Nat) : Nat := mapGet 0 s.mem.colsUsed m

/-- A failing column takes a spare column, if the macro has one left. -/
def repairColumn (s : State) (m col : Nat) : State × Bool :=
  let k := s.colsTaken m
  if k < 2 then
    ((s.onMem fun x => { x with colsUsed := mapSet 0 x.colsUsed m (k + 1) }).addRepair
      { kind := 2, unit := m, index := col, spare := k, source := 0 }, true)
  else (s, false)

/-- A failing row takes a spare row. -/
def repairRow (s : State) (m row : Nat) : State × Bool :=
  let k := s.rowsTaken m
  if k < 4 then
    ((s.onMem fun x => { x with rowsUsed := mapSet 0 x.rowsUsed m (k + 1) }).addRepair
      { kind := 1, unit := m, index := row, spare := k, source := 0 }, true)
  else (s, false)

/-- A failing bank takes its pseudo-channel's spare; the spare bank itself has none. -/
def repairBank (s : State) (pc bank : Nat) : State × Bool :=
  if bank < 16 ∧ !bitOf (s.rd F.MEM_SPARE_USED_pc) pc then (s.mapSpare pc bank 0, true) else (s, false)

/-- Fold a repair over what fails: the state, how many entries were added, and what stays unrepaired. -/
def repairAll {α : Type} (s : State) (fix : State → α → State × Bool) (xs : List α) : State × Nat × List α :=
  xs.foldl (fun (s, n, left) x =>
    let (s, ok) := fix s x
    if ok then (s, n + 1, left) else (s, n, left ++ [x])) (s, 0, [])

/-- The repairs of one slice, in the order of R369: the state, the entries added, and whether a failing word stays. -/
def repairSlice (s : State) (fs : List FailWord) : State × Nat × Bool :=
  let sram := sramFails fs
  let cols := (distinct (sram.map fun (m, w, b) => (m, sramColumn w b))).filter fun (m, c) =>
    decide (3 ≤ (distinct ((sram.filter fun (m', w, b) => m' == m && sramColumn w b == c).map fun (_, w, _) => w / 8)).length)
  let (s, n1, left) := s.repairAll (fun s (m, c) => s.repairColumn m c) cols
  let fixed := cols.filter fun x => !left.contains x
  let rows := distinct ((sram.filter fun (m, w, b) => !fixed.contains (m, sramColumn w b)).map fun (m, w, _) => (m, w / 8))
  let (s, n2, left2) := s.repairAll (fun s (m, r) => s.repairRow m r) rows
  let (s, n3, left3) := s.repairAll (fun s (p, b) => s.repairBank p b) (dramFails fs)
  let bad := !left2.isEmpty || !left3.isEmpty
  (if bad then s.wr F.BIST_REPAIR_STAT_unrepaired 1 else s, n1 + n2 + n3, bad)

/-- The first failing word of the unit's run, and the count of them (R369). -/
def reportFails (s : State) (u before : Nat) (fs : List FailWord) : State :=
  let first (s : State) : State := match fs.head? with
    | some (.sram m w b) => (s.setReg R.BIST_FAIL_ADDR (BitVec.ofNat 32 (m * 2 ^ 13 + w))).wr F.BIST_FAIL_BIT_bit b
    | some (.dram _ _ loc b) =>
      (s.setReg R.BIST_FAIL_ADDR (BitVec.ofNat 32 (2 ^ 31 + loc))).wr F.BIST_FAIL_BIT_bit b
    | none => s
  let s := if before = 0 then first s else s
  (s.wr F.BIST_FAIL_BIT_unit u).wr F.BIST_FAIL_BIT_count (Nat.min 0xFFFF (before + fs.length))

/-! ## Slices (R366, R367) -/

/-- What a slice leaves behind (*Self-test units*). -/
def sliceContents (s : State) (u slice : Nat) : State :=
  if u < 16 then s.onCore (Fin.ofNat 16 u) fun _ => { work := none, ues := [], miscorr := [] }
  else if u < 24 then
    let n := Fin.ofNat 8 (u - 16)
    if s.dp.rx[n].powered then s.enterSearch n else s
  else if u = 24 then (if s.eng[1].hasProg then s.startEngine 1 else s)
  else if u = 25 then
    s.onMem fun m => { m with sramEcc := m.sramEcc.filter fun c => c.1 / 2 ^ 17 != slice,
                              sramValid := m.sramValid.filter fun c => c.1 / 2 ^ 14 != slice }
  else if u = 27 ∧ slice < 16 then (List.range 32).foldl (fun s pc => s.dramClearBank pc slice) s
  else s

/-- The result of a slice (R366): PASS 1, FAIL 2, INCOMPLETE 3. -/
def sliceResult (r : SliceReport) (u : Nat) (bad : Bool) : Nat :=
  if r.applied ≠ r.expected then 3
  else if u < 25 then (if r.signatureOk then 1 else 2)
  else if bad || (r.failing.isEmpty && !r.signatureOk) then 2 else 1

/-- *Consequences of a unit result* (R368). -/
def unitConsequence (s : State) (u result : Nat) : State :=
  if u < 16 then
    if result = 1 then (s.wrBit F.FEC_CORE_STAT_failed u false).reviewCores else s.mapOut (Fin.ofNat 16 u) 4 (·.ends)
  else if u < 24 then (if result = 1 then s else s.laneOff (Fin.ofNat 8 (u - 16)) false false)
  else if u = 24 then s.reviewSafe
  else s

/-- A unit has a result. -/
def setUnit (s : State) (u : Nat) (t : UnitTally) : State :=
  let s := (s.wr (F.BIST_RESk_result u) t.worst).wr (F.BIST_RESk_repaired u) (Nat.min 255 t.repaired)
  (if t.worst = 2 ∨ t.worst = 3 then s.setInt F.BIST_INT_fail else s).unitConsequence u t.worst

/-- The resume point (R367), which a BIST command leaves alone. -/
def setNext (s : State) (trigger unit slice : Nat) : State :=
  if trigger = 0 then s else (s.wr F.BIST_NEXT_unit unit).wr F.BIST_NEXT_slice slice

/-- A run or a round ends (R367, R370). -/
def runEnd (s : State) (trigger : Nat) : State :=
  let s := if trigger = 0 then s else (s.setReg R.BIST_NEXT 0).setReg R.BIST_DONE 0
  ((s.setRun none).writeRepairMap).setInt F.BIST_INT_done

/-- A unit is done: the next unit's slice 0, or the end. The answer says whether the run has ended. -/
def unitEnd (s : State) (r : BistRun) : State × Bool :=
  let s := (s.setUnit r.unit r.tally).wr (F.BIST_RESk_runs r.unit) (s.rd (F.BIST_RESk_runs r.unit) + 1)
  let s := if r.trigger = 0 then s else s.wrBit F.BIST_DONE_units r.unit true
  let left := setBit r.units r.unit false
  match lowestUnit left with
  | some u =>
    ((s.setNext r.trigger u 0).sliceStart { r with units := left, unit := u, slice := 0, tally := noTally }, false)
  | none => (s.runEnd r.trigger, true)

/-- The running slice is stopped (R367): its unit reads ABORTED, and the run is over. BIST_NEXT names the slice. -/
def sliceAbort (s : State) : State :=
  match s.mem.run with
  | none => s
  | some r =>
    let s := if r.trigger = 0 then s else s.onMem fun m => { m with held := r.tally }
    let s := s.sliceContents r.unit r.slice
    let s := (s.setUnit r.unit { r.tally with worst := 4 }).setNext r.trigger r.unit r.slice
    ((s.setRun none).writeRepairMap).setInt F.BIST_INT_aborted

/-- A slice ends by itself. The answer says whether its run has ended. -/
def sliceEnd (s : State) (r : BistRun) (rep : SliceReport) : State × Bool :=
  let s := s.sliceContents r.unit r.slice
  let (s, n, bad) := if 25 ≤ r.unit then s.repairSlice rep.failing else (s, 0, false)
  let s := if 25 ≤ r.unit then s.reportFails r.unit r.tally.failing rep.failing else s
  let t : UnitTally :=
    { worst := Nat.max r.tally.worst (sliceResult rep r.unit bad), repaired := r.tally.repaired + n,
      failing := r.tally.failing + rep.failing.length }
  if r.slice + 1 < sliceCount r.unit then
    ((s.setNext r.trigger r.unit (r.slice + 1)).sliceStart { r with slice := r.slice + 1, tally := t }, false)
  else s.unitEnd { r with tally := t }

/-- BIST's result in the arguments (R365). -/
def bistArgs (s : State) (mask : Nat) : State :=
  let us := bitList 28 mask
  let count (v : Nat) : Nat := (us.filter fun u => s.rd (F.BIST_RESk_result u) == v).length
  let bad := us.foldl (fun m u => if s.rd (F.BIST_RESk_result u) = 1 then m else m + 2 ^ u) 0
  (s.setArg 0 bad).setArg 1 (count 2 + 2 ^ 8 * count 3 + 2 ^ 16 * count 4)

/-- What BIST_STAT reads (R372). -/
def viewBist (s : State) (a : Nat) : Option Word :=
  if a = R.BIST_STAT then
    some (match s.mem.run with
      | some r => BitVec.ofNat 32 (1 + 2 * r.unit + 2 ^ 6 * r.slice + 2 ^ 11 * r.trigger)
      | none => 0)
  else none

end State

end Sys2Proof.Machine
end

