-- ==== Sys2Proof/Machine/Capture.lean ====
section
/-!
DEFINITION. Deep capture (R399–R402, R407).
-/

namespace Sys2Proof.Machine

/-- The code of a capture's source (R399). -/
def capSource : CapStream → Nat
  | .adc _ => 0
  | .equalised _ => 1
  | .llr _ => 2

/-- A captured stream as it is packed (R399): a signed byte for each sample and for each symbol, saturated; ten 6-bit codes in each
64-bit word, code k in bits 6k + 5 to 6k, b1 before b0. -/
def capBytes : CapStream → List Byte
  | .adc xs => xs.map fun x => BitVec.ofInt 8 (satI (-128) 127 x)
  | .equalised zs => zs.map fun z => BitVec.ofInt 8 (satI (-127) 127 z)
  | .llr cs =>
    let codes := cs.flatMap fun c => [c.1, c.2]
    (List.range ((codes.length + 9) / 10)).flatMap fun w =>
      leBytes 8 ((List.range 10).foldl (fun a k => a + 2 ^ (6 * k) * ofSigned 6 (codes.getD (10 * w + k) 0)) 0)

/-- What stands in a ring of `len` bytes that is written round and round (R401). -/
def ringAfter (len : Nat) (bs : List Byte) : List Byte :=
  if bs.length ≤ len then bs
  else
    let tail := bs.drop (bs.length - len)
    let split := len - bs.length % len
    tail.drop split ++ tail.take split

namespace State

def onCap (s : State) (f : Cap → Cap) : State := { s with cap := f s.cap }

/-- A capture runs: armed or triggered. -/
def capRuns (s : State) : Bool := s.cap.phase == 1 || s.cap.phase == 2

/-- The DRAM byte of the capture header and of the ring (R400). -/
def capHeader : Nat := 0x7FFFF000
def capRing : Nat := 0x80000000

/-- A region of `n` bytes from `lo` meets the capture region for a ring of `len` bytes. -/
def capMeets (len lo n : Nat) : Bool := decide (lo < capRing + len) && decide (capHeader < lo + n)

/-- The capture region overlaps a ledger store in use or the history ring (R400). -/
def capOverlaps (s : State) (len : Nat) : Bool :=
  (s.dp.ledger.place == 2 && (capMeets len (s.dp.ledger.retBase * 2 ^ 29) (2 ^ 28)
      || capMeets len (s.dp.ledger.holdBase * 2 ^ 29) (2 ^ 28)))
    || (s.dp.pool.histEn && capMeets len (s.dp.pool.histBase * 2 ^ 27) (2 ^ 27))

/-- The bytes written after the trigger (R401). -/
def capPost (s : State) : Nat := s.cap.len * (100 - s.cap.preShare) / 100 / 64 * 64

/-- The arguments of CAPTURE are outside their ranges (R268, R401). -/
def capBadArgs (s : State) : Bool :=
  decide (s.arg 0 % 4 = 3) || decide (s.arg 1 % 4096 = 0) || decide (2048 < s.arg 1 % 4096) || decide (100 < s.arg 3 % 128)

/-- CAPTURE is accepted: it fails at once, or arms, and with ARG2[16] triggers (R399–R401). Where more than one cause of
failure holds, the model takes DRAM, then the lane, then the overlap, then the gate (DESIGN CHOICE, log entry 23). -/
def capStart (s : State) : State :=
  let n := Fin.ofNat 8 (bitsOf (s.arg 0) 8 3)
  let len := (s.arg 1 % 4096) * 2 ^ 20
  let fail (c : Nat) : State := s.endIfArg 7 stFail c
  if !s.dramReady then fail 1
  else if !s.dp.rx[n].powered then fail 5
  else if s.capOverlaps len then fail 2
  else if !s.gateOpen 3 then fail 4
  else
    let s := s.onCap fun _ =>
      { phase := 1, source := s.arg 0 % 4, lane := n.val, len := len, preShare := s.arg 3 % 128,
        trigCode := s.arg 2 % 2 ^ 16, trigIndex := 0, trigTime := 0, trigAon := 0 }
    let s := s.setReg R.CAP_STAT (BitVec.ofNat 32 (1 + 2 ^ 4 * s.cap.source + 2 ^ 6 * s.cap.lane))
    let s := s.setReg R.CAP_WRITTEN 0
    if bitOf (s.arg 2) 16 then s.capTrigger s.cap.trigCode 0xFFFFFFFF 0 else s

/-- The capture header (R402). -/
def capHeaderBytes (s : State) (status oldest trig post : Nat) : List Byte :=
  let c := s.cap
  let mode := if s.cfg F.TOP_MODE_line_mode ≤ 4 then s.cfg F.TOP_MODE_line_mode else 0
  leBytes 4 0x3208CA70 ++ leBytes 1 c.source ++ leBytes 1 c.lane ++ leBytes 1 mode ++ leBytes 1 status ++ leBytes 4 c.len
    ++ leBytes 4 oldest ++ leBytes 4 trig ++ leBytes 4 post ++ leBytes 4 c.trigIndex ++ leBytes 4 c.trigTime
    ++ leBytes 6 c.trigAon ++ leBytes 1 (s.rd F.CAP_STAT_overrun + 2 * s.rd F.CAP_STAT_pre_short)
    ++ List.replicate 4057 0

/-- A capture ends: the ring and the header stand in DRAM, the status in the command (R402). -/
def capEnd (s : State) (ring : List Byte) (written post status arg0 : Nat) : State :=
  let len := Nat.max 1 s.cap.len
  let s := s.dramWrite capRing (ring.take len)
  let oldest := if len < written then written % len else 0
  let s := s.dramWrite capHeader (s.capHeaderBytes status oldest ((written - post) % len) post)
  let s := (s.wr F.CAP_STAT_state 3).wr F.CAP_WRITTEN_units (Nat.min (written / 64) (len / 64))
  let s := s.onCap fun c => { c with phase := 3 }
  let s := s.logEvent srcCap 0xC002 status (if status = stFail then arg0 else 0)
  if status = stTimeout then s.endIf 7 status else s.endIfArg 7 status arg0

/-- Bytes that the spec does not give, from the free values at `k` on. -/
def freeBytes (k n : Nat) : List Byte := (List.range n).map fun i => BitVec.ofNat 8 (Config.freeNat (k + i))

/-- A capture ends early. How many bytes it had written, how many of them after the trigger, and what they are, is not in the
state: free values (log entry 23). -/
def capStop (s : State) (status arg0 : Nat) : State :=
  if !s.capRuns then s
  else
    let written := s.freeNat
    let s := s.drew
    let post := if s.cap.phase = 2 then s.freeNat % (written + 1) else 0
    let s := s.drew
    let n := Nat.min written s.cap.len
    let ring := freeBytes s.draws n
    ({ s with draws := s.draws + n }).capEnd ring written post status arg0

/-- CAP_CTRL.abort (R402). -/
def capAbort (s : State) : State := s.capStop stFail 4

end State

open State

/-- CAPTURE_END (R399–R402): of itself, or by an overflow of the staging buffer. -/
def execCaptureEnd (stream : CapStream) (overrunPost : Option Nat) (s : State) : Out :=
  let bs := capBytes stream
  let written := bs.length
  let ring := ringAfter s.cap.len bs
  if !s.capRuns || capSource stream != s.cap.source then .next s
  else match overrunPost with
    | some post => .next ((s.wr F.CAP_STAT_overrun 1).capEnd ring written post stFail 3)
    | none => if s.cap.phase = 2 then .next (s.capEnd ring written s.capPost stOk capHeader) else .next s

/-- CAPTURE_WAIT_TIMEOUT (R402). -/
def execCaptureWaitTimeout (s : State) : Out :=
  .next (if s.cap.phase = 1 ∧ s.rd F.CAP_CFG_wait_ms ≠ 0 then s.capStop stTimeout 0 else s)


end Sys2Proof.Machine
end

