-- ==== Sys2Proof/Machine/Gates.lean ====
section
/-!
DEFINITION. Clock gates of HSK, BIAS, BIST and CAP (R305, R306), and what a stopped self-test run leaves to do.
-/

namespace Sys2Proof.Machine

namespace State

/-- A self-test run is stopped (R367): a BIST command ends with its result, and SLEEP entry goes on. Nothing but hard reset
stops one of SHUTDOWN, or of its SLEEP entry (log entry 28). -/
def stopRun (s : State) : State :=
  match s.mem.run with
  | none => s
  | some r =>
    if r.trigger = 1 ∨ (r.trigger = 2 ∧ s.pwr.forced) then s
    else if r.trigger = 0 then ((s.sliceAbort).bistArgs r.asked).endIf 8 stOk
    else s.sliceAbort.openFinal

/-- A run that has just begun meets a closed gate. -/
def gateRun (s : State) : State := if s.gateOpen 2 then s else s.stopRun

/-- What the close of gate `i` does to its block: HSK's discarded conversion and BIAS's held outputs need nothing. -/
def gateClosed (s : State) (i : Nat) : State :=
  if i = 2 then s.stopRun else if i = 3 then s.capStop stFail 4 else s

/-- A write of CLK_GATE: a gate closes at once, or at the end of the access in progress. -/
def gateWrite (s : State) (v : Word) (inProgress : Nat) : State :=
  let old := (s.reg R.CLK_GATE).toNat
  let new := v.toNat % 16
  let shut := (List.range 4).filter fun i => bitOf old i && !bitOf new i
  let wait := shut.filter (bitOf inProgress ·)
  let s := s.setReg R.CLK_GATE (BitVec.ofNat 32 new)
  let s := s.onClk fun c =>
    { c with closing := (List.range 4).foldl (fun m i =>
        if (bitOf c.closing i && !bitOf new i) || wait.contains i then m + 2 ^ i else m) 0 }
  (shut.filter fun i => !wait.contains i).foldl (fun s i => s.gateClosed i) s

/-- A gate that waited closes. -/
def gateDone (s : State) (i : Nat) : State :=
  (s.onClk fun c => { c with closing := setBit c.closing i false }).gateClosed i

/-- Every access that a gate waited for has ended by the next always-on cycle. -/
def gatesDone (s : State) : State := (bitList 4 s.clk.closing).foldl (fun s i => s.gateDone i) s

end State

/-- GATE_CLOSE_FORCED (R306). -/
def execGateCloseForced (gate : Fin 4) (s : State) : Out :=
  if !bitOf s.clk.closing gate then .next s
  else
    let s := ((s.setInt F.CLK_INT_gate_forced).bump R.CLK_GATE_FORCE_CNT).logEvent srcClk 0x1004 gate 0
    .next (s.gateDone gate)

end Sys2Proof.Machine
end

