-- ==== Sys2Proof/Machine/Hsk.lean ====
section
/-!
DEFINITION. The monitor ADC and its sequencer (R324–R330).
-/

namespace Sys2Proof.Machine

/-- Full scale in counts by window code: 4 × 50 MHz × T (R325). -/
def hskFull (w : Nat) : Nat :=
  if w < 10 then 20000 else if w ≤ 2000 then 2000 * w else if w = 2001 then 3333332 else 4000000

/-- The raw value of a count (R326). -/
def hskRaw (n w : Nat) : Nat := Nat.min 0xFFFFFF (roundDiv ((Nat.min n (hskFull w) : Nat) * 2 ^ 24) (hskFull w)).toNat

/-- The corrected result (R326). -/
def hskResult (raw : Nat) (ofs : Int) (gain : Nat) : Nat :=
  (satI 0 0xFFFFFF (roundDiv (((raw : Int) - ofs) * gain) (2 ^ 22))).toNat

/-- The input of a channel, with its sel field (R324): HC30 and HC31 convert as HC27. -/
def hskInput (ch sel : Nat) : HskInput :=
  if ch < 12 then .pin (Fin.ofNat 12 ch)
  else if ch < 16 then .photodiode (Fin.ofNat 4 (ch - 12))
  else if ch < 23 then .supply (Fin.ofNat 7 (ch - 16))
  else if ch = 23 then .vref
  else if ch = 24 then .sensor (if sel < 12 then Fin.ofNat 12 sel else 0)
  else if ch = 25 then .biasVoltage (Fin.ofNat 16 sel)
  else if ch = 26 then .biasCurrent (Fin.ofNat 16 sel)
  else if ch = 28 then .bandgap
  else if ch = 29 then .reference
  else .ground

/-- The scale of an input (R324), as numerator and denominator: a result v stands for v / 2^24 × V_ref × scale, in volts, or in
amperes where the input is a current. -/
def hskScale : HskInput → Nat × Nat
  | .photodiode _ => (1, 625)
  | .supply _ => (4, 1)
  | .vref | .biasVoltage _ | .bandgap | .reference => (2, 1)
  | .biasCurrent _ => (1, 125)
  | .pin _ | .sensor _ | .ground => (1, 1)

namespace State

def onHsk (s : State) (f : Hsk → Hsk) : State := { s with hsk := f s.hsk }

/-- The entries of a pass in force: 0 and 65–127 act as 64. -/
def hskLen (s : State) : Nat :=
  let n := s.cfg F.HSK_CTRL_len
  if n = 0 ∨ 64 < n then 64 else n

/-- Begin an entry, with the table and the correction set in force (R327, R328). -/
def hskBegin (s : State) (k : Nat) : State :=
  let a := s.inForceReg (R.HSK_SEQk_A k)
  let j := getField a 9 4
  (s.auxSettled 0).onHsk fun h =>
    { h with running := true, input := hskInput (getField a 0 5) (getField a 5 4), entry := k, made := 0, converting := false, seqA := a, seqB := s.inForceReg (R.HSK_SEQk_B k),
             ofs := s.inForceReg (R.HSK_CORj_OFS j), gain := s.inForceReg (R.HSK_CORj_GAIN j), len := s.hskLen }

/-- The sequencer starts at entry 0 while en = 1 (R328, R330). -/
def hskStart (s : State) : State :=
  if s.cfgOn F.HSK_CTRL_en ∧ !s.hsk.running then s.hskBegin 0 else s

def hskStop (s : State) : State := (s.auxSettled 0).onHsk fun h => { h with running := false, converting := false }

/-- An entry boundary (R327, R328): the commit's table and en act here. `last` says that the pass returns to entry 0. -/
def hskBoundary (s : State) (last : Bool) : State :=
  let s := s.raiseEv 3 9
  if !s.cfgOn F.HSK_CTRL_en then s.hskStop
  else
    let k := s.hsk.entry + 1
    s.hskBegin (if last ∨ s.hskLen ≤ k then 0 else k)

/-- The entry that runs completes; after the last one the pass is counted (R327). -/
def hskEntryEnd (s : State) : State :=
  let last := decide (s.hsk.len ≤ s.hsk.entry + 1)
  let s := if last then
      (((s.bump R.HSK_PASS_CNT).setInt F.HSK_INT_pass_done).raiseEv 1 11).raiseEv 3 8
    else s
  s.hskBoundary last

/-- A conversion ends (R326, R329). -/
def hskConvert (s : State) (n : Nat) : State :=
  let h := s.hsk
  let w := getField h.seqB 0 11
  let ch := getField h.seqA 0 5
  let above := decide (hskFull w < n)
  let ready := s.flag F.HSK_STAT_ref_ready
  let v := hskResult (hskRaw n w) (toSigned 24 h.ofs.toNat) (getField h.gain 0 24)
  let s := s.setReg (R.HSK_RESc ch) (BitVec.ofNat 32 (v + 2 ^ 24 + 2 ^ 25 * b2n (!ready) + 2 ^ 26 * b2n above))
  let s := if above then (s.bump R.HSK_OVR_CNT).setInt F.HSK_INT_ovr else s
  let s := if ready then s else s.setInt F.HSK_INT_ref_unready
  let s := s.onHsk fun h => { h with made := h.made + 1 }
  if Nat.max 1 (getField h.seqA 13 8) ≤ s.hsk.made then s.hskEntryEnd else s

/-- The sequencer moves: it runs, its gate is open and the device is in ACTIVE or QUIET (R305, R330). -/
def hskMoves (s : State) : Bool := s.hsk.running && s.gateOpen 0 && decide (s.pwr.pstate ≤ 1)

/-- What HSK_STAT reads (R338). -/
def viewHsk (s : State) (a : Nat) : Option Word :=
  if a = R.HSK_STAT then
    some (BitVec.ofNat 32 (b2n s.hsk.running + 2 * b2n (s.flag F.HSK_STAT_ref_ready) + 4 * s.hsk.entry
      + 2 ^ 9 * getField s.hsk.seqA 0 5))
  else none

end State

/-- CONVERSION_END (R327): a discarded conversion has no end, so while the gate is closed nothing ends (R330). -/
def execConversionEnd (n : Nat) (s : State) : Out :=
  .next (if s.hskMoves ∧ s.hsk.converting then s.hskConvert n else s)

/-- HSK_ENTRY_DELAY_END (R327); an entry read with poison is skipped (R330). -/
def execHskEntryDelayEnd (poison : Bool) (s : State) : Out :=
  if !s.hskMoves || s.hsk.converting then .next s
  else if poison then
    .next ((s.logEvent srcHsk 0x4005 s.hsk.entry 0).hskBoundary (s.hsk.len ≤ s.hsk.entry + 1))
  else .next (s.onHsk fun h => { h with converting := true })

/-- REF_READY (R329): with src = 2 and the buffer off, ref_ready stays 0. -/
def execRefReady (s : State) : Out :=
  .next (if s.cfg F.HSK_REF_CTRL_src = 2 ∧ !s.cfgOn F.HSK_REF_CTRL_buf_en then s else s.wr F.HSK_STAT_ref_ready 1)

end Sys2Proof.Machine
end

