-- ==== Sys2Proof/Machine/Therm.lean ====
section
/-!
DEFINITION. Thermal sensors, throttling and thermal shutdown (R340–R347). Temperatures are in units of 0.125 °C.
-/

namespace Sys2Proof.Machine

/-- *Sensor placement*: the neighbours of each sensor. -/
def neighbours : Fin 12 → List (Fin 12)
  | 0 => [1, 4, 8]
  | 1 => [0, 2, 5]
  | 2 => [1, 3, 6]
  | 3 => [2, 7, 9]
  | 4 => [0, 5, 8, 10]
  | 5 => [1, 4, 6, 11]
  | 6 => [2, 5, 7, 11]
  | 7 => [3, 6, 9, 10]
  | 8 => [0, 4, 9]
  | 9 => [3, 7, 8]
  | 10 => [4, 7, 11]
  | 11 => [5, 6, 10]

/-- Insert into a rising list. -/
def insertInt (x : Int) : List Int → List Int
  | [] => [x]
  | y :: t => if x ≤ y then x :: y :: t else y :: insertInt x t

/-- Twice the median: with an even count the mean of the middle two (R342). -/
def median2 (xs : List Int) : Int :=
  let v := xs.foldr insertInt []
  let n := v.length
  if n % 2 = 1 then 2 * v.getD (n / 2) 0 else v.getD (n / 2 - 1) 0 + v.getD (n / 2) 0

/-- A sensor voltage as a temperature, halves away from zero (R340). -/
def sensorTemp (cal : Nat) (microvolts : Nat) : Int :=
  roundDiv (200 * 1500 + 8 * (700000 + 100 * toSigned 8 cal - microvolts)) 1500

/-- One sensor's test against twice the median of its usable neighbours (R342): 10 °C is 80 units and 5 °C is 40. A reading
with fewer than two usable neighbours breaks a run (log entry 20). -/
def Sensor.test (x : Sensor) (t : Int) (usable : List Int) : Sensor :=
  let x := { x with temp := t, valid := true, hotLast := decide (1000 ≤ t) }
  if usable.length < 2 then { x with farRun := 0, nearRun := 0 }
  else
    let d := (2 * t - median2 usable).natAbs
    if x.suspect then
      let near := if d ≤ 80 then x.nearRun + 1 else 0
      if 64 ≤ near then { x with suspect := false, nearRun := 0, farRun := 0 } else { x with nearRun := near }
    else
      let far := if 160 < d then x.farRun + 1 else 0
      if 3 ≤ far then { x with suspect := true, nearRun := 0, farRun := 0 } else { x with farRun := far }

namespace State

def onTherm (s : State) (f : Therm → Therm) : State := { s with therm := f s.therm }

/-- The highest of some sensors, the lower-numbered on a tie (R343, R346). -/
def hottest (temps : Vector Int 12) (ks : List (Fin 12)) : Option (Fin 12) :=
  ks.foldl (fun best k => match best with
    | none => some k
    | some b => if temps[b] < temps[k] then some k else some b) none

/-- The lane temperature of R341, in 1/16 °C. -/
def laneTempOf (temps : Vector Int 12) (usable : Fin 12 → Bool) (tmax old : Int) (n : Fin 8) : Int :=
  let k : Fin 12 := ⟨n.val / 2, by omega⟩
  if (List.finRange 12).all fun j => !usable j then old
  else if usable k then 2 * temps[k]
  else
    let near := (neighbours k).filter usable
    if near.isEmpty then 2 * tmax else median2 (near.map fun j => temps[j])

/-- The throttle level changes (R344): a rise is counted. -/
def setLevel (s : State) (t : Nat) : State :=
  let old := s.therm.level
  let s := s.onTherm fun h => { h with level := t }
  let s := if old < t then s.bump R.THERM_THR_CNT else s
  if old = t then s else s.setInt F.THERM_INT_level_chg

/-- Spacing of the thresholds in °C. -/
def thermStep (s : State) : Nat := Nat.max 1 (s.cfg F.THERM_CTRL_step)

/-- Threshold k in °C. -/
def threshold (s : State) (k : Nat) : Nat := s.cfg F.THERM_CTRL_thr_c + k * s.thermStep

/-- How many thresholds Tmax has reached. -/
def reached (s : State) : Nat := ((List.range 4).filter fun k => decide ((8 * s.threshold k : Nat) ≤ s.therm.tmax)).length

/-- R343 and R344, with the sensors that are usable for this reading. -/
def throttle (s : State) (usable : Nat) : State :=
  if usable < 6 then
    let s := if s.therm.degraded then s
      else (s.setInt F.THERM_INT_degraded).logEvent srcTherm 0x4002 usable 0
    (s.onTherm fun h => { h with degraded := true, fromHold := true }).setLevel 4
  else
    let s := s.onTherm fun h => { h with degraded := false }
    let t := s.therm.level
    if s.cfgOn F.THERM_CTRL_thr_en then
      if t < s.reached then (s.onTherm fun h => { h with fromHold := false }).setLevel s.reached
      else if t ≠ 0 ∧ s.therm.tmax < 8 * ((s.threshold (t - 1) : Int) - s.cfg F.THERM_CTRL_hyst) then
        (s.onTherm fun h => { h with fromHold := h.fromHold && t != 1 }).setLevel (t - 1)
      else s
    else if s.therm.fromHold then
      (s.onTherm fun h => { h with fromHold := decide (1 < t) }).setLevel (t - 1)
    else s.setLevel 0

/-- Thermal shutdown (R346). -/
def thermalShutdown (s : State) (k : Fin 12) (temp : Int) (two : Bool) : State :=
  let s := (s.wr F.SAFE_FAULT_thermal 1).reviewSafe
  let s := s.biasHold
  let s := (s.linkStop 0x28).onLink fun l => { l with step := 0 }
  let s := s.wr F.THERM_STAT_shut_latched 1
  let s := s.setReg R.THERM_SHUT_INFO (BitVec.ofNat 32 (ofSigned 16 temp + 2 ^ 16 * k.val + 2 ^ 20 * b2n two))
  let s := (s.datapathOff false false).dramOff
  let s := s.stopSynths [.line, .pool, .host 0, .host 1, .host 2, .host 3, .dram]
  (s.logEvent srcTherm 0x4003 k.val (ofSigned 16 temp)).dropPower.setDev .fault

/-- The shutdown tests of R346, with the suspects before this reading. -/
def shutdownTest (s : State) (temps : Vector Int 12) (was : Vector Sensor 12) : State :=
  let hot := (List.finRange 12).filter fun k => decide ((1000 : Int) ≤ temps[k])
  let single := hot.filter fun k => !was[k].suspect && was[k].hotLast
  if s.flag F.THERM_STAT_shut_latched then s
  else match hottest temps single with
    | some k => s.thermalShutdown k temps[k] false
    | none =>
      if 2 ≤ hot.length then
        match hottest temps hot with
        | some k => s.thermalShutdown k temps[k] true
        | none => s
      else s

/-- A sensor has become suspect (R342). -/
def suspectEvent (s : State) (was : Vector Sensor 12) (k : Fin 12) : State :=
  if s.therm.sensors[k].suspect && !was[k].suspect then
    ((s.bump R.THERM_SUSPECT_CNT).setInt F.THERM_INT_suspect).logEvent srcTherm 0x4001 k.val
      (ofSigned 16 s.therm.sensors[k].temp)
  else s

/-- One reading of every sensor. -/
def sensorReading (s : State) (microvolts : Vector Nat 12) : State :=
  let was := s.therm.sensors
  let temps : Vector Int 12 := Vector.ofFn fun k => sensorTemp (s.rd (F.THERM_TSk_cal k)) microvolts[k]
  let usable (k : Fin 12) : Bool := !was[k].suspect
  let ok := (List.finRange 12).filter usable
  let s := s.onTherm fun h =>
    { h with sensors := Vector.ofFn fun k => was[k].test temps[k] (((neighbours k).filter usable).map fun j => temps[j]) }
  let s := match hottest temps ok with
    | some k => s.onTherm fun h => { h with tmax := temps[k], tmaxSensor := k.val }
    | none => s
  let s := s.onTherm fun h => { h with laneTemp := Vector.ofFn fun n => laneTempOf temps usable h.tmax h.laneTemp[n] n }
  let s := (List.finRange 12).foldl (fun s k => s.suspectEvent was k) s
  let s := s.throttle ok.length
  let s := (List.finRange 8).foldl (fun s n => (s.dacTempCheck n).adcTempCheck n) s
  s.shutdownTest temps was

/-- What the THERM status registers read (R353). -/
def viewTherm (s : State) (a : Nat) : Option Word :=
  if a = R.THERM_STAT then
    let susp := (List.finRange 12).foldl (fun m k => m + (if s.therm.sensors[k].suspect then 2 ^ k.val else 0)) 0
    some (BitVec.ofNat 32 (s.therm.level + 8 * susp + 2 ^ 15 * b2n s.therm.degraded
      + 2 ^ 16 * s.rd F.THERM_STAT_shut_latched))
  else if a = R.THERM_TMAX then some (BitVec.ofNat 32 (ofSigned 16 s.therm.tmax + 2 ^ 16 * s.therm.tmaxSensor))
  else
    match (List.finRange 12).find? fun k => R.THERM_TSk k.val == a with
    | some k =>
      let x := s.therm.sensors[k]
      some (BitVec.ofNat 32 (ofSigned 16 x.temp + 2 ^ 16 * b2n x.valid + 2 ^ 17 * b2n x.suspect
        + 2 ^ 24 * s.rd (F.THERM_TSk_cal k)))
    | none => none

end State

/-- SENSOR_READING (R340): in every power state but SLEEP. -/
def execSensorReading (microvolts : Vector Nat 12) (s : State) : Out :=
  .next (if s.pwr.pstate = 3 ∨ s.boot.resetLow then s else s.sensorReading microvolts)

end Sys2Proof.Machine
end

