-- ==== Sys2Proof/Machine/Reset.lean ====
section
/-!
DEFINITION. Hard reset and soft reset: what each keeps (R8, R10, R264, R269, R335, R350, R361, R393, R425).
-/

namespace Sys2Proof.Machine

/-- Registers that a soft reset of all but the always-on domain keeps: PWR, SAFE, the TOP subset of R264, what boot latched
from straps and fuses, the always-on BIST registers, and the shutdown record (R10, R269, R275, R323, R354, R372; log entry
24). -/
def keptBySoft (a : Nat) : Bool :=
  (decide (0x20000 ≤ a) && decide (a < 0x30000)) || (decide (0x60000 ≤ a) && decide (a < 0x70000))
    || a == R.TOP_CMD || (decide (R.TOP_CMD_ARGk 0 ≤ a) && decide (a ≤ R.TOP_CMD_ARGk 3)) || a == R.TOP_CMD_STAT
    || a == R.TOP_INT || a == R.TOP_INT_EN || a == R.SEC_STRAP || a == R.SEC_DBG_STAT || a == R.THERM_STAT
    || a == R.THERM_SHUT_INFO || a == R.BIST_NEXT || a == R.BIST_DONE || a == R.BIST_REPAIR_STAT
    || (decide (R.BIST_RESk 0 ≤ a) && decide (a ≤ R.BIST_RESk 27)) || a == R.CLK_STAT || a == R.CLK_OSC_TRIM
    || a == R.EVR_STAT || a == R.MEM_SPARE_USED || a == R.MEM_BANK_LOST || a == R.LEDGER_TX_DOWN_CNT
    || a == R.FEC_CORE_STAT

namespace State

/-- The DRAM blocks of the last IMAGE_LOAD (R361): 4 KiB block `b` is one of them. -/
def downloadBlock (s : State) (b : Nat) : Bool :=
  decide (0 < s.boot.dlLen) && decide (s.boot.dlAddr / 4096 ≤ b)
    && decide (b ≤ (s.boot.dlAddr + s.boot.dlLen - 1) / 4096)

/-- DRAM after a soft reset keeps the blocks of the last IMAGE_LOAD. -/
def dramSoft (s : State) : State :=
  s.onMem fun m =>
    { m with dram := m.dram.filter fun c => s.downloadBlock (c.1 / 4096),
             dramValid := m.dramValid.filter fun c => s.downloadBlock c.1,
             dramEcc := m.dramEcc.filter fun c => s.downloadBlock (c.1 / 512),
             sramEcc := [], sramValid := [], regEcc := [], run := none }

end State

/-- An engine after a soft reset: its memories are retained (R361), and it has no program until the image gives it one. -/
def Engine.soft (g : Engine) : Engine := { Engine.initial with prog := g.prog, data := g.data, ecc := g.ecc }

namespace State

/-- Debug is locked and no challenge stands; a lockout lasts until hard reset (R291). -/
def lockDebug (s : State) : State :=
  let s := (s.wr F.SEC_DBG_STAT_unlocked 0).wr F.SEC_DBG_STAT_chal_valid 0
  { s with boot := { s.boot with challenge := [] } }

/-- Soft reset of all but the always-on domain. `banks` tells whether the retention banks are kept: by a RESET command, and
not by SLEEP. The command's status, the arguments, TOP_INT.cmd_done and TOP_INT_EN stand (log entry 24). -/
def softReset (s : State) (banks : Bool) : State :=
  let s := s.lockDebug
  let s := (s.datapathOff banks false).biasHold
  let s := { s with
    regs := s.regs.filter fun c => keptBySoft c.1, staged := [], inForce := [],
    mgmt := { State.reset.mgmt with dev := s.mgmt.dev, prev := s.mgmt.prev },
    boot := { s.boot with phase := .fuses, header := [], offset := 0, nRecords := 0, region := [],
                          held := [], wrote := [], acted := [], commitOne := false, sinceRelease := 0, fuseOp := 0 },
    clk := { s.clk with closing := 0 },
    hsk := State.reset.hsk,
    bias := { ch := s.bias.ch.map fun (b : BiasCh) => { b with released := false } },
    therm := State.reset.therm,
    safe := { s.safe with igsRun := false, laserReq := none },
    eng := if banks then s.eng.map Engine.soft else State.reset.eng,
    cap := State.reset.cap, dump := State.reset.dump,
    dp := { s.dp with pen := Pen.initial, time := TimeSt.initial, pool := Pool.initial, ledger := Ledger.initial,
                      ports := Vector.replicate 16 Port.initial } }
  let s := s.dramSoft
  let s := s.setReg R.TOP_INT (s.reg R.TOP_INT &&& 1)
  (if s.evr.recording then s.appendHeld else s).reviewSafe

/-- Hard reset: every field at its reset value but those that only power-up of VDD_AON resets, which `latch` keeps (R8, R10,
R353, R354). Fuses and the flash are no part of the reset; the TXDIS pin keeps its level. -/
def hardReset (s : State) (latch : Bool) : State :=
  let r := { State.reset with
    pending := s.pending, draws := s.draws,
    boot := { State.reset.boot with fuses := s.boot.fuses, nvmRepair := s.boot.nvmRepair },
    safe := { State.reset.safe with txdis := s.safe.txdis } }
  if latch then
    ((r.wr F.THERM_STAT_shut_latched (s.rd F.THERM_STAT_shut_latched)).setReg R.THERM_SHUT_INFO
      (s.reg R.THERM_SHUT_INFO)).wr F.SAFE_FAULT_thermal (s.rd F.SAFE_FAULT_thermal)
  else r

end State

open State

/-- The device is OFF; with VDD_AON up and RESET_N high it goes to BOOT, a change of state as any other (R266). -/
def State.leaveOff (s : State) : State :=
  let s := { s with mgmt := { s.mgmt with dev := .off, prev := .off } }
  if s.boot.aonUp ∧ !s.boot.resetLow then s.setDev .boot else s

/-- VDD_AON_POWER_UP (R425): a hard reset, with RESET_N low or high as it stands. -/
def execVddAonPowerUp (s : State) : Out :=
  if s.boot.aonUp then .next s
  else
    let r := s.hardReset (!s.boot.removed)
    .next { r with boot := { r.boot with resetLow := s.boot.resetLow } }.leaveOff

/-- VDD_AON_FALL (R425): the always-on state is lost, but for the latch that only a removal clears. -/
def execVddAonFall (s : State) : Out :=
  if !s.boot.aonUp then .next s
  else
    let r := s.hardReset true
    .next { r with boot := { r.boot with aonUp := false, removed := false, resetLow := s.boot.resetLow },
                   mgmt := { r.mgmt with dev := .off, prev := .off } }

/-- VDD_AON_REMOVED (R347, R425): it has stayed below 0.30 V for 10 ms. -/
def execVddAonRemoved (s : State) : Out :=
  .next (if s.boot.aonUp then s else { s with boot := { s.boot with removed := true } })

/-- RESET_N_ASSERT (R8): hard reset. -/
def execResetNAssert (s : State) : Out :=
  let r := s.hardReset true
  .next { r with boot := { r.boot with aonUp := s.boot.aonUp, removed := s.boot.removed, resetLow := true },
                 mgmt := { r.mgmt with dev := .off } }

/-- RESET_N_RELEASE (R266, R275): OFF to BOOT. -/
def execResetNRelease (s : State) : Out :=
  if !s.boot.resetLow then .next s
  else .next { s with boot := { s.boot with resetLow := false } }.leaveOff

end Sys2Proof.Machine
end

