-- ==== Sys2Proof/Machine/Time.lean ====
section
/-!
DEFINITION. The time counter, its steps and its servo (R234–R238, R246–R250).
-/

namespace Sys2Proof.Machine

/-- A nanosecond in the counter's units of 2^−48 / 5 ns. -/
def nsUnit : Nat := 5 * 2 ^ 48
/-- The counter's modulus: 2^32 ns. -/
def timeMod : Nat := 2 ^ 32 * nsUnit

namespace State

/-! ## The counter (R234–R237) -/

/-- The total adjustment in units of 2^−40, saturated (R234). -/
def timeAdj (s : State) : Int :=
  satI (-(2 ^ 31)) (2 ^ 31) (toSigned 32 (s.reg R.TIME_RATE).toNat + s.dp.time.servo)

/-- What the counter and the residence base add in one time-clock cycle. -/
def timeInc (s : State) : Nat := ((2 ^ 40 + s.timeAdj).toNat) * 2 ^ 11

/-- The counter wraps `k` times (R235). -/
def timeWrapped (s : State) (k : Nat) : State :=
  if k = 0 then s else (s.onTime fun t => { t with wraps := (t.wraps + k) % 2 ^ 16 }).setInt F.TIME_INT_wrap

/-- Time-clock cycles pass (R234, R235, R238). -/
def timeAdvance (s : State) (cycles : Nat) : State :=
  let inc := cycles * s.timeInc
  let k := (s.dp.time.count + inc) / timeMod
  (s.onTime fun t => { t with count := (t.count + inc) % timeMod, base := t.base + inc }).timeWrapped k

/-- A command falls so many time-clock cycles after the counter last advanced. -/
def timeRun (s : State) (cycles : Nat) : State :=
  (s.timeAdvance cycles).onTime fun t => { t with ahead := t.ahead + cycles }

/-- The counter in 1/16 ns, modulo 2^36. -/
def timeSixteenths (s : State) : Nat := s.dp.time.count / (5 * 2 ^ 44)

/-- TIME_NOW_NS. -/
def timeNowNs (s : State) : Nat := s.dp.time.count / nsUnit % 2 ^ 32

/-- TIME_NOW_FRAC: 16 fraction bits and the wrap count. -/
def timeFrac (s : State) : Nat := s.dp.time.count / 5 / 2 ^ 32 % 2 ^ 16 + 2 ^ 16 * s.dp.time.wraps

/-- A read of TIME_NOW_NS latches the fraction and the wrap count (R236). -/
def timeRead (s : State) : State × Word :=
  (s.onTime fun t => { t with latchFrac := s.timeFrac }, BitVec.ofNat 32 s.timeNowNs)

/-- Step the counter by a signed number of its units; the wrap count stays (R237). -/
def timeShift (s : State) (d : Int) : State :=
  s.onTime fun t => { t with count := (((t.count : Int) + d) % timeMod).toNat }

/-- TIME_STEP_CTRL.go (R237). -/
def timeStepGo (s : State) (absolute : Bool) : State :=
  if s.dp.time.step.isSome then s
  else s.onTime fun t => { t with step := some ((s.reg R.TIME_STEP).toNat, absolute) }

/-- The requested step is applied. -/
def timeStepApply (s : State) : State :=
  match s.dp.time.step with
  | none => s
  | some (v, absolute) =>
    let s := if absolute then s.onTime fun t => { t with count := v * nsUnit } else s.timeShift (toSigned 32 v * nsUnit)
    s.onTime fun t => { t with step := none }

/-! ## The servo (R246–R249) -/

/-- TIME_CTRL.src as it acts: 3 acts as 0. -/
def timeSrc (s : State) : Nat := if s.cfg F.TIME_CTRL_src = 3 then 0 else s.cfg F.TIME_CTRL_src

/-- TIME_SERVO_CTRL.step_sh as it acts. -/
def stepSh (s : State) : Nat :=
  let v := s.cfg F.TIME_SERVO_CTRL_step_sh
  if 4 ≤ v ∧ v ≤ 30 then v else 12

/-- One update with θ in 1/16 ns (R247, R248). The servo output is adj × 1,099.5: where that is no whole unit, which of the
two nearest it is stays open. -/
def servoUpdate (s : State) (theta : Int) : State :=
  if 16 * 2 ^ s.stepSh ≤ theta.natAbs then
    ((s.timeShift (-theta * (5 * 2 ^ 44))).setInt F.TIME_INT_servo_step).logEvent srcTime 0xB003 0 (ofSigned 32 theta)
  else
    let integ := s.dp.time.integ + s.cfg F.TIME_SERVO_CTRL_ki * theta
    let adj := satI (-500000 * 4096) (500000 * 4096) (-(s.cfg F.TIME_SERVO_CTRL_kp * theta + integ))
    let exact := adj * 2199
    let out := exact / 8192 + (if exact % 8192 = 0 then 0 else ((s.freeNat % 2 : Nat) : Int))
    (s.drew).onTime fun t => { t with integ := integ, servo := out }

/-- TIME_PPS_EXP is written: the window of the new EXP has seen no edge (R246). -/
def expWrite (s : State) (v : Word) : State := (s.setReg R.TIME_PPS_EXP v).onTime fun t => { t with edgeSeen := false }

/-- EXP advances by one second (R246). -/
def expAdvance (s : State) : State := s.setReg R.TIME_PPS_EXP (s.reg R.TIME_PPS_EXP + 1000000000)

/-- The first edge of a window (R246). -/
def ppsEdge (s : State) (capture : Nat) : State :=
  let theta := toSigned 36 (capture + 2 ^ 36 - 16 * (s.reg R.TIME_PPS_EXP).toNat)
  let s := s.setReg R.TIME_PPS_CAP (BitVec.ofNat 32 (capture / 16))
  let s := s.setReg R.TIME_PPS_OFS (BitVec.ofNat 32 (fixedField 32 1 theta))
  let s := (s.wr F.TIME_STAT_pps_lost 0).wr F.TIME_STAT_servo_hold 0
  let s := (s.onTime fun t => { t with edgeSeen := true, missRun := 0 }).setInt F.TIME_INT_pps
  s.servoUpdate theta

/-- The window of EXP closes (R246). -/
def ppsClose (s : State) : State :=
  let seen := s.dp.time.edgeSeen
  let s := (s.expAdvance).onTime fun t => { t with edgeSeen := false }
  if seen then s
  else
    let run := s.dp.time.missRun + 1
    let s := (s.bump R.TIME_PPS_MISS).onTime fun t => { t with missRun := run }
    if run = 2 then ((s.wr F.TIME_STAT_pps_lost 1).wr F.TIME_STAT_servo_hold 1).setInt F.TIME_INT_pps_lost else s

/-- A write of TIME_SERVO_OFS (R249). -/
def servoWrite (s : State) (v : Word) : State := if s.timeSrc = 2 then s.servoUpdate (toSigned 32 v.toNat) else s

/-- A commit that changes TIME_CTRL.src clears i; with src = 0 the output is held at 0 (R249). -/
def servoSource (s : State) (old : Nat) : State :=
  if s.timeSrc = old then s
  else s.onTime fun t => { t with integ := 0, servo := if s.timeSrc = 0 then 0 else t.servo }

/-- What the TIME block's status registers read (R250). -/
def viewTime (s : State) (a : Nat) : Option Word :=
  if a = R.TIME_NOW_NS then some (BitVec.ofNat 32 s.timeNowNs)
  else if a = R.TIME_NOW_FRAC then some (BitVec.ofNat 32 s.dp.time.latchFrac)
  else if a = R.TIME_STEP_CTRL then some (putField (s.reg a) 2 1 (b2n s.dp.time.step.isSome))
  else if a = R.TIME_SERVO_ADJ then some (BitVec.ofNat 32 (fixedField 32 1 s.timeAdj))
  else if a = R.TIME_SERVO_INTEG then some (BitVec.ofNat 32 (fixedField 32 1 ((s.dp.time.integ : Rat) / 256)))
  else if a = R.TIME_STAT then some (putField (s.reg a) 1 1 (b2n s.clk.selOsc))
  else if a = R.TIME_STD_DELAY then
    some (if s.stdMode then BitVec.ofNat 32 (Config.stdDelay s.lineMode (s.cfgOn (F.OLn_TX_CTRL_inner_fec_en 0))) else 0)
  else none

end State

open State

/-- TIME_WRAP (R235): the counter has run over its end. -/
def execTimeWrap (cycles : Nat) (s : State) : Out := .next (s.timeRun cycles)

/-- TIME_STEP_APPLY (R237). -/
def execTimeStepApply (cycles : Nat) (s : State) : Out := .next ((s.timeRun cycles).timeStepApply)

/-- TSYNC_EDGE (R246). -/
def execTsyncEdge (rising : Bool) (cycles : Nat) (sub : Nat) (s : State) : Out :=
  let s := s.timeRun cycles
  if s.timeSrc ≠ 1 ∨ rising = s.cfgOn F.TIME_CTRL_tsync_pol then .next s
  else if s.dp.time.edgeSeen then .next (s.bump R.TIME_PPS_GLITCH)
  else .next (s.ppsEdge ((s.timeSixteenths + sub) % 2 ^ 36))

/-- The counter has passed EXP + 0.5 s (R246). -/
def State.pastWindow (s : State) : Bool :=
  decide (500000000 ≤ toSigned 32 (s.timeNowNs + 2 ^ 32 - (s.reg R.TIME_PPS_EXP).toNat))

/-- PPS_WINDOW_CLOSE (R246). -/
def execPpsWindowClose (cycles : Nat) (s : State) : Out :=
  let s := s.timeRun cycles
  if s.timeSrc = 1 ∧ s.pastWindow then .next s.ppsClose else .next s

end Sys2Proof.Machine
end

