-- ==== Sys2Proof/Machine/Pwr.lean ====
section
/-!
DEFINITION. Power states: the answers of the participants, the preparation of a target, its final window, wake sources,
exits and failed wakes (R309–R323, R386), and the POWER command (R269, R312).
-/

namespace Sys2Proof.Machine

namespace State

/-! ## Preparation (R314) -/

/-- A link, or an attempt, that an entry takes down (R158, *Entry by target*). From QUIET it is the link that was held. -/
def entryLinkDown (s : State) : State :=
  let d := s.mgmt.dev
  let on := s.cfgOn F.LEDGER_LINK_CTRL_enable
  match d with
  | .bringup | .linked | .degraded => (s.linkStop 0x28).onLink fun l => { l with step := 0 }
  | .quiet =>
    match s.pwr.heldState with
    | .bringup | .linked | .degraded =>
      let s := (s.linkStop 0x28).onLink fun l => { l with step := 0 }
      s.onPwr fun p => { p with heldState := if on then .bringup else .configured }
    | _ => s
  | _ => s

/-- A link that was taken down restarts: step 1, or the idle state (R158). -/
def linkRestart (s : State) : State :=
  if s.cfgOn F.LEDGER_LINK_CTRL_enable then
    if s.cvMode then s.enterStep1 false else if s.stdMode then s.setDev .bringup else s.enterIdle
  else s.enterIdle

/-- History entries that are not written yet are dropped (R130, R313). -/
def dropHistory (s : State) : State :=
  (s.bumpBy R.FEC_HIST_LOST s.dp.pool.burst.length).onPool fun p => { p with burst := [] }

/-- Every participant has granted. QUIET waits for four superframes of status 0x05 where superframes are sent (R157); SLEEP
runs the self-test round. -/
def prepare (s : State) : State :=
  let s := s.clearAsk.onPwr fun p => { p with phase := .preparing, asking := 0, delaying := false }
  if s.pwr.target = 1 then
    let s := s.hostIdleAll
    if s.dp.framer.sending then s.onFramer fun f => { f with idleLeft := some 4 }
    else (s.onFramer fun f => { f with idle := true }).openFinal
  else
    let s := s.entryLinkDown.dropHistory
    if s.pwr.target = 2 then s.openFinal else (s.bistRound 2).gateRun

/-- A wake source aborts an entry before its final window: what was prepared is undone (R318, R367). -/
def abortAny (s : State) : State :=
  if s.pwr.phase ≠ .preparing then s.abortEntry
  else if s.pwr.target = 1 then
    (s.onFramer fun f => { f with idleLeft := none }).hostExitAll.abortEntry
  else
    let s := s.sliceAbort.abortEntry
    match s.mgmt.dev with
    | .bringup | .linked | .degraded => if s.dp.link.step = 0 then s.linkRestart else s
    | _ => s

/-! ## Answers (R313, R315, R316, R386) -/

/-- The participant asked has granted. -/
def granted (s : State) : State := if s.pwr.asking < 9 then s.ask (s.pwr.asking + 1) else s.prepare

/-- It refuses. A forced entry records that and goes on (R315). A refused follow entry ends the partner's line silence by a
gap of 2 µs (R317). -/
def refused (s : State) (reason : Nat) : State :=
  let p := s.pwr
  let s := s.setRefuse p.asking reason p.target p.forced
  let s := (s.bump R.PWR_REFUSE_CNT).setInt F.PWR_INT_refused
  let s := s.logEvent srcPwr 0x1010 0 (s.reg R.PWR_LAST_REFUSE).toNat
  if p.forced then s.granted
  else
    let s := s.dropEntry
    let s := if p.byFollow then s.onPwr fun q => { q with followSquelch := true } else s
    if p.byCommand then s.failPower else s

def delays (s : State) : State := s.onPwr fun p => { p with delaying := true }

/-- PWR_QUIET_CTRL.rx_idle_us as it acts. -/
def rxIdleLimit (s : State) : Nat := if s.rd F.PWR_QUIET_CTRL_rx_idle_us = 0 then 100 else s.rd F.PWR_QUIET_CTRL_rx_idle_us

/-- The ready queue, the retention store or the hold store holds a unit. -/
def unitsHeld (s : State) : Bool :=
  !s.dp.framer.ready.isEmpty || !s.dp.ledger.retention.isEmpty || s.dp.ledger.units.any (·.held.isSome)

/-- Codewords remain queued or in decoding. -/
def decoding (s : State) : Bool := !s.dp.pool.queue.isEmpty || s.dp.pool.cores.toList.any (·.work.isSome)

/-- A BIST command runs. -/
def bistCommandRuns (s : State) : Bool := match s.mem.run with | some r => r.trigger == 0 | none => false

/-- An engine participant whose program has the request before it. -/
def programAsked (s : State) (e : Fin 9) : Bool := s.flag (F.IGS_En_PWR_pending e) || s.pwr.delaying

/-- The answer of the participant asked (*Entry participants*). One of IG-H and IG-N whose program has the request answers by
itself. -/
def answer (s : State) (rxIdleUs : Nat) (dramPending : Bool) : State :=
  let quiet := s.pwr.target == 1
  match s.pwr.asking with
  | 1 => if quiet && s.hostSignal then s.refused 1 else s.granted
  | 2 =>
    if quiet && s.mgmt.dev == .linked && s.cvMode && decide (rxIdleUs < s.rxIdleLimit) then s.refused 1
    else if s.unitsHeld then s.delays else s.granted
  | 3 => if s.decoding then s.delays else s.granted
  | 4 => if s.capRuns then s.refused 2 else s.granted
  | 5 => if s.bistCommandRuns then s.refused 2 else s.granted
  | 6 => if dramPending then s.delays else s.granted
  | 7 => if s.programAsked 3 then s else s.granted
  | 8 => if s.dp.pen.mbState = 1 then s.refused 2 else if s.programAsked 4 then s else s.granted
  | _ =>
    if quiet then s.granted
    else (((s.raiseEv 1 3).onSafe fun f => { f with pwrHold := true }).reviewSafe).granted

/-- The engine participant that is being asked. -/
def askedEngine (s : State) : Option (Fin 9) :=
  if s.pwr.phase ≠ .asking then none else if s.pwr.asking = 7 then some 3 else if s.pwr.asking = 8 then some 4 else none

/-- A write of IGS_En_PWR: the answer is read when written. -/
def powerAnswer (s : State) (e : Fin 9) (ans delayMs : Nat) : State :=
  let s := (s.wr (F.IGS_En_PWR_answer e) ans).wr (F.IGS_En_PWR_delay_ms e) delayMs
  if s.askedEngine = some e ∧ s.programAsked e ∧ ans ≠ 0 then
    let s := (s.wr (F.IGS_En_PWR_pending e) 0).raiseEv 2 9
    if ans = 1 then s.granted else if ans = 2 then s.refused 5 else s.delays
  else s

/-! ## The target is reached (R314) -/

/-- The entry is complete. Level sources that were held, or stand, begin the exit in the next always-on cycle (R318). -/
def reached_ (s : State) (pstate : Nat) (dev : DevState) : State :=
  let held := s.pwr.heldWake ||| s.levelSources s.pwr.target
  let cmd := s.pwr.byCommand
  let s := s.endEntry.onPwr fun p => { p with pstate := pstate, heldWake := held, entryTime := s.evr.time }
  let s := (s.setDev dev).setInt F.PWR_INT_entered
  if cmd then s.endIf 3 stOk else s

/-- What STANDBY stops: engines, housekeeping, the timer, the synthesisers and the datapath. Host-lane settings are retained
(R309, R314). -/
def standbyOff (s : State) : State :=
  let s := s.lockDebug.hskStop
  let s := (List.finRange 9).foldl (fun s e =>
    if s.engineAlive e || s.eng[e].st == .halted then s.resetEngine e else s) s
  let s := (s.onSafe fun f => { f with igsRun := false, pwrHold := true }).reviewSafe
  let s := (s.stopSynths allSynths).wr F.CLK_STAT_fabric_direct 1
  let s := { s with mgmt := { s.mgmt with timerRun := false } }
  let s := if s.flag F.MEM_STAT_dram_ready then s.wr F.MEM_STAT_dram_sr 1 else s
  let host := s.dp.host
  let s := s.datapathOff true true
  s.onDp fun d => { d with host := Vector.ofFn fun n =>
    if host[n].st = .up ∨ (host[n].st = .idle ∧ host[n].stored) then { d.host[n] with st := .idle, stored := true }
    else d.host[n] }

/-- What SLEEP switches off: all but the always-on domain. The TIME counter is held (R309, R311, R314). -/
def sleepOff (s : State) : State :=
  let time := s.dp.time
  let started := if s.pwr.pstate = 2 then s.pwr.entryTime else s.evr.time
  let s := (s.softReset false).dramOff
  let s := { s with clk := State.reset.clk }
  let s := s.setReg R.CLK_STAT (resetWord R.CLK_STAT)
  let s := s.onTime fun t => { t with count := time.count, wraps := time.wraps }
  let s := (s.onSafe fun f => { f with pwrHold := true }).reviewSafe
  let s := s.setReg R.TOP_INT (s.reg R.TOP_INT &&& 9)
  s.onPwr fun p => { p with entryTime := started }

/-- A tracking receive lane goes to HOLD on entry to QUIET (R86, R97, R157): a fast retrain brings one of a link back when its
signal is detected. In a standard mode, which has no front-end states, the clock loop alone holds. -/
def quietLane (s : State) (n : Fin 8) : State :=
  if s.stdMode then
    if s.dp.rx[n].powered && !s.flag (F.OLn_CDR_STAT_fallback n) then s.holdLoop n else s
  else if s.dp.rx[n].fe ≠ .track then s
  else
    let s := (s.onRx n fun r => { r with fe := .hold, heldIdle := true }).holdLoop n
    s.onLink fun l => { l with retrainReq := setBit l.retrainReq n.val true }

/-- In the standard modes the lanes track again on exit. -/
def quietLaneBack (s : State) (n : Fin 8) : State :=
  if s.stdMode && s.dp.rx[n].powered && !s.flag (F.OLn_CDR_STAT_fallback n) then s.closeLoop n else s

/-- The end of the final window. -/
def finalEnd (s : State) : State :=
  match s.pwr.target with
  | 1 => (s.activeLanes.foldl (fun s n => s.quietLane n) s).reached_ 1 .quiet
  | 2 => ((s.onPwr fun p => { p with retained := true }).standbyOff).reached_ 2 .standby
  | _ =>
    let s := s.sleepOff
    let started := s.pwr.entryTime
    (s.reached_ 3 .sleep).onPwr fun p => { p with entryTime := started }

/-! ## Exit (R311, R320) -/

/-- TIME is advanced by the always-on cycles that have passed: one is 1,953,125 / 64 ns. The next TSYNC edge realigns the counter
(R311): it is the first of its window. -/
def timeCatchUp (s : State) : State :=
  let v := s.dp.time.count + (s.evr.time - s.pwr.entryTime) * 1953125 * 5 * 2 ^ 42
  (s.onTime fun t => { t with count := v % timeMod, edgeSeen := false }).timeWrapped (v / timeMod)

/-- Every engine that STANDBY stopped starts again (R384). -/
def enginesAgain (s : State) : State :=
  (List.finRange 9).foldl (fun s e => if s.eng[e].st = .reset ∧ s.eng[e].hasProg then s.startEngine e else s) s

/-- The exit completes in its resulting state. A wake that succeeds on a retry releases FAULT_N (R322). -/
def exitDone (s : State) (dev : DevState) : State :=
  let s := s.endEntry.onPwr fun p => { p with pstate := 0, timerExpired := false, retained := false }
  let s := ((s.wr F.PWR_WAKE_FAIL_tries 0).setDev dev).setInt F.PWR_INT_exited
  if s.running 3 ∧ s.arg 0 % 4 = 0 then s.endCmd stOk else s

/-- From QUIET the device returns to the state it held. -/
def exitQuiet (s : State) : State :=
  let dev := s.pwr.heldState
  let s := (s.exitDone dev).wr F.PWR_RET_STAT_checked 0
  let s := s.activeLanes.foldl (fun s n => s.quietLaneBack n) s
  let s := if s.dp.link.step = 0 ∧ dev = .bringup ∧ s.cvMode then s.enterStep1 false else s
  s.reviewState

/-- From STANDBY to CONFIGURED: DRAM leaves self-refresh, the engines and HSK restart, the timer starts again, and bring-up
restarts when enable = 1 (R258, R266, R320, R330). The lines of the retention and hold arrays are no longer valid (R361). -/
def exitStandby (s : State) : State :=
  let s := ((s.wr F.MEM_STAT_dram_sr 0).onMem fun m =>
    { m with sramValid := [], sramEcc := m.sramEcc.filter fun c => decide (2 ^ 21 ≤ c.1) }).timeCatchUp
  let s := (s.exitDone .configured).enginesAgain.hskStart
  let s := { s with mgmt := { s.mgmt with timerRun := s.boot.commitOne } }
  if s.cfgOn F.LEDGER_LINK_CTRL_enable then
    if s.cvMode then s.enterStep1 false else if s.stdMode then s.setDev .bringup else s
  else s

/-- From SLEEP to BOOT: the recorder restarts empty, and boot goes on from the fuse load with the repair map of the
always-on registers (R275, R320, R370, R393). -/
def exitSleep (s : State) : State :=
  (((s.timeCatchUp).wr F.PWR_RET_STAT_checked 0).exitDone .boot).evrRestart 1 false

/-! ## POWER (R269, R312) -/

/-- POWER with a target that cannot be reached from the present state (*Entry by target*). -/
def powerBarred (s : State) (t : Nat) : Bool :=
  match s.mgmt.dev with
  | .bringup | .standby => t == 1
  | .sleep => t == 1 || t == 2
  | _ => false

/-- A BUSY POWER command is taken up: at once, and in every always-on cycle in which no entry and no exit runs. A higher
target is a wake source: it aborts an entry that asks or prepares, and is held in the final window (R318). -/
def powerStep (s : State) : State :=
  if !s.running 3 then s
  else if s.mgmt.dev = .fault then s.failPower
  else
    let t := s.arg 0 % 4
    if s.pwr.phase = .none then
      if t = s.pwr.pstate then s.endCmd stOk
      else if s.powerBarred t then (s.bump R.TOP_CMD_STATE_CNT).endCmd stState
      else if t = 0 then s.wake 1
      else s.proposeEntry t true false false
    else if s.pwr.phase = .final then
      if t = 0 then s.onPwr fun p => { p with heldWake := p.heldWake ||| 1 } else s
    else if s.pwr.phase = .exiting ∨ s.pwr.byCommand ∨ s.pwr.forced ∨ s.pwr.target ≤ t then s
    else
      let s := (s.raiseEv 2 10).abortAny
      if t = s.pwr.pstate then s.endCmd stOk else s

end State

open State

/-- QUIET_IDLE_TIMEOUT (R312): proposed where *Entry by target* has an entry. -/
def execQuietIdleTimeout (s : State) : Out :=
  if s.rd F.PWR_IDLE_CTRL_quiet_us = 0 ∨ s.hostSignal ∨ !s.configuredUp ∨ s.mgmt.dev = .bringup then .next s
  else .next (s.proposeEntry 1 false false false)

/-- STANDBY_IDLE_TIMEOUT (R312). -/
def execStandbyIdleTimeout (s : State) : Out :=
  if s.rd F.PWR_IDLE_CTRL_standby_ms = 0 then .next s
  else match s.mgmt.dev with
    | .configured | .partnerAbsent | .quiet => .next (s.proposeEntry 2 false false false)
    | _ => .next s

/-- PARTICIPANT_ANSWER (R313, R316). -/
def execParticipantAnswer (rxIdleUs : Nat) (dramPending : Bool) (s : State) : Out :=
  if s.pwr.phase = .asking then .next ((s.raiseEv 2 9).answer rxIdleUs dramPending) else .next s

/-- PARTICIPANT_DELAY_LIMIT (R313): a refusal with reason 0x03; MEM's unwritten history entries are dropped. -/
def execParticipantDelayLimit (s : State) : Out :=
  if s.pwr.phase = .asking ∧ s.pwr.delaying then
    let s := if s.pwr.asking = 6 then s.dropHistory else s
    .next ((s.raiseEv 2 9).refused 3)
  else .next s

/-- ENGINE_POWER_ANSWER (R386): only an engine reaches its own register so. -/
def execEnginePowerAnswer (e : Fin 9) (answer : BitVec 2) (delayMs : BitVec 4) (s : State) : Out :=
  .next (if s.engineAlive e then s.powerAnswer e answer.toNat delayMs.toNat else s)

/-- POWER_ANSWER_TIMEOUT (R386): counted as granting. -/
def execPowerAnswerTimeout (e : Fin 9) (s : State) : Out :=
  if s.askedEngine = some e ∧ s.flag (F.IGS_En_PWR_pending e) then
    .next (((s.wr (F.IGS_En_PWR_pending e) 0).raiseEv 2 9).granted)
  else .next s

/-- FINAL_WINDOW_END (R314). -/
def execFinalWindowEnd (s : State) : Out := .next (if s.pwr.phase = .final then s.finalEnd else s)

/-- WAKE_SOURCE (R318): a source acts by the column of the state held, or of the target that is being entered. A forced entry
is not aborted (R315, R367, log entry 26). -/
def execWakeSource (source : Fin 6) (s : State) : Out :=
  let s := if source = 3 ∧ s.rd F.PWR_WAKE_TIMER_ms ≠ 0 then s.onPwr fun p => { p with timerExpired := true } else s
  if !s.wakeEnabled source then .next s
  else match s.pwr.phase with
    | .exiting => .next s
    | .none => .next (if sourceActs s.pwr.pstate source then s.wake (2 ^ source.val) else s)
    | .final =>
      .next (if decide (source.val < 4) && source != 2 && sourceActs s.pwr.target source then
        (s.raiseEv 2 10).onPwr fun p => { p with heldWake := p.heldWake ||| 2 ^ source.val } else s)
    | _ =>
      if sourceActs s.pwr.target source ∧ source ≠ 2 ∧ !s.pwr.forced then
        let s := (s.raiseEv 2 10).abortAny
        .next (if sourceActs s.pwr.pstate source then s.wake (2 ^ source.val) else s)
      else .next s

/-- EXIT_COMPLETE (R320): from STANDBY once the retention banks are verified (R321). -/
def execExitComplete (s : State) : Out :=
  if s.pwr.phase ≠ .exiting then .next s
  else if s.pwr.pstate = 1 then .next s.exitQuiet
  else if s.pwr.pstate = 2 then .next (if s.pwr.retained then s else s.exitStandby)
  else if s.pwr.pstate = 3 then .next s.exitSleep
  else .next s

/-- READINESS_TIMEOUT (R322). The third failure gives up. -/
def execReadinessTimeout (source : Fin 10) (s : State) : Out :=
  if s.pwr.phase ≠ .exiting ∨ s.pwr.pstate < 2 ∨ source = 0 then .next s
  else
    let tries := s.rd F.PWR_WAKE_FAIL_tries + 1
    let s := (s.stopSynths allSynths).wr F.CLK_STAT_fabric_direct 1
    let s := s.onPwr fun p => { p with phase := .none, retained := s.pwr.pstate == 2 }
    let s := ((s.wr F.PWR_WAKE_FAIL_source source).wr F.PWR_WAKE_FAIL_tries tries).bump R.PWR_WAKE_FAIL_CNT
    let s := if 3 ≤ tries then s.wr F.PWR_WAKE_FAIL_given_up 1 else s
    .next ((s.setInt F.PWR_INT_wake_fail).logEvent srcPwr 0x1012 source tries)

/-- WAKE_RETRY (R322). -/
def execWakeRetry (s : State) : Out :=
  if s.pwr.phase = .none ∧ 2 ≤ s.pwr.pstate ∧ s.rd F.PWR_WAKE_FAIL_tries ≠ 0 ∧ !s.flag F.PWR_WAKE_FAIL_given_up then
    .next (s.startExit 0)
  else .next s

/-- PWR_WAKE_FAIL.clear ends the given-up condition (R322). -/
def State.wakeFailClear (s : State) : State :=
  if s.flag F.PWR_WAKE_FAIL_given_up then (s.wr F.PWR_WAKE_FAIL_tries 0).wr F.PWR_WAKE_FAIL_given_up 0 else s

/-- FOLLOW_SQUELCH_END (R317). -/
def execFollowSquelchEnd (s : State) : Out := .next (s.onPwr fun p => { p with followSquelch := false })

end Sys2Proof.Machine
end

