-- ==== Sys2Proof/Machine/Commit.lean ====
section
/-!
DEFINITION. Commits (R256–R260): what is refused (R276, R193, R334, R368, R381), how the staged copies come into force, and
what each owning block does about it.
-/

namespace Sys2Proof.Machine

namespace State

/-! ## Refusals (R260) -/

/-- A changed field is refused: its staged copy takes the value in force. -/
def refuseField (s : State) (f : CField) : State :=
  if s.cfgStaged f = s.cfg f then s else (s.restage f).wr F.TOP_COMMIT_refused 1

/-- A line mode field as it acts. -/
def modeOf (v : Nat) : Nat := if v ≤ 4 then v else 0

/-- The state as it would stand with every staged value in force. -/
def staging (s : State) : State := { s with inForce := s.staged }

/-- A mode that uses a lane whose equaliser has failed its self-test (R368). -/
def refuseFailedLane (s : State) : State :=
  if s.staging.lineMode ≠ s.lineMode ∧ s.staging.activeLanes.any fun n => s.unitFailed (16 + n.val)
    then s.refuseField F.TOP_MODE_line_mode else s

/-- The Maximum column of *Power by mode and state* for the configuration in force, in units of 0.5 W (R276, R427). -/
def maxPower (s : State) : Nat :=
  let dram := s.rd F.SEC_STRAP_pclass == 0 && s.cfgOn F.LEDGER_LINK_CTRL_retry_req
  match s.lineMode with
  | 1 => if dram then 70 else 60
  | 2 => if dram then 40 else 34
  | 3 => if s.activeLanes.any fun n => s.cfgOn (F.OLn_TX_CTRL_inner_fec_en n) then 28 else 24
  | 4 => 21
  | _ => 0

/-- The ceiling of *Power ceiling classes* in the same units, and whether the class allows the mode. -/
def overCeiling (s : State) : Bool :=
  let m := s.lineMode
  match s.rd F.SEC_STRAP_pclass with
  | 0 => decide (72 < s.maxPower)
  | 1 => decide (60 < s.maxPower)
  | 2 => m == 1 || decide (40 < s.maxPower)
  | _ => m == 1 || m == 2 || decide (24 < s.maxPower)

/-- The power test (R276, R428). -/
def refusePower (s : State) : State :=
  if s.staging.overCeiling then
    let s := (s.refuseField F.TOP_MODE_line_mode).refuseField F.LEDGER_LINK_CTRL_retry_req
    (List.range 8).foldl (fun s n => s.refuseField (F.OLn_TX_CTRL_inner_fec_en n)) s
  else s

/-- A grouping that is reserved or does not fit the mode (R193). -/
def refuseGroup (s : State) : State :=
  let code := s.cfgStaged (F.HL0_GROUP_code 0)
  if code = s.cfg (F.HL0_GROUP_code 0) ∧ s.staging.lineMode = s.lineMode then s
  else if groupFits s.staging.lineMode code then s.wr (F.HL0_REF_STAT_group_err 0) 0
  else
    (((s.refuseField (F.HL0_GROUP_code 0)).wr F.TOP_COMMIT_refused 1).wr (F.HL0_REF_STAT_group_err 0) 1).logEvent
      srcHl 0xA001 code 0

/-- `v` rescaled from range `old` to range `new`, each 1 or 2 (R334). -/
def rescale (v : Int) (old new : Nat) : Int := roundDiv (v * old) new

/-- A field that a rescaled value fits, or else a free value: the spec gives none. -/
def stageScaled (s : State) (f : CField) (v lo hi : Int) : State :=
  let put (s : State) (x : Nat) : State := s.setStaged f.addr (putField (s.stagedReg f.addr) f.lo f.width x)
  if lo ≤ v ∧ v ≤ hi then put s (ofSigned f.width v) else put s.drew s.freeNat

/-- A change of range without one of the code (R334): the staged values are rescaled, or the change is refused. With one of
the code, the output goes on from its code in the new range. -/
def rescaleBias (s : State) (n : Fin 16) : State :=
  let g := F.BIAS_CHn_CTRL_gain n
  let c := F.BIAS_CHn_CODE_code n
  if s.cfgStaged g = s.cfg g then s
  else if s.cfgStaged c ≠ s.cfg c then s.onBias n fun b => { b with gainUsed := s.cfgStaged g }
  else
    let old := s.cfg g + 1
    let new := s.cfgStaged g + 1
    let code := rescale (s.cfg c) old new
    if 4095 < code then s.refuseField g
    else
      let s := s.stageScaled c code 0 4095
      let s := s.stageScaled (F.BIAS_CHn_DAMP_amp n) (rescale (s.cfgStaged (F.BIAS_CHn_DAMP_amp n)) old new) 0 4095
      s.stageScaled (F.BIAS_CHn_DAMP_doffs n) (rescale (toSigned 12 (s.cfgStaged (F.BIAS_CHn_DAMP_doffs n))) old new)
        (-2048) 2047

/-- A window that would overlap SEC, IGS or the DRAM window (R381). -/
def refuseWindow (s : State) (e k : Nat) : State :=
  let t := s.staging
  let lo := t.cfg (F.IGS_En_WINk_base e k)
  let hi := lo + t.cfg (F.IGS_En_WINk_pages_m1 e k)
  let meets (a b : Nat) : Bool := decide (lo ≤ b) && decide (a ≤ hi)
  if t.cfgOn (F.IGS_En_WINk_en e k) ∧ (meets 0x70 0x7F ∨ meets 0xD0 0xDF ∨ meets 0x10000 0x1FFFF) then
    [F.IGS_En_WINk_en e k, F.IGS_En_WINk_wr e k, F.IGS_En_WINk_pages_m1 e k, F.IGS_En_WINk_base e k].foldl
      (fun s f => s.refuseField f) s
  else s

/-- Every refusal of a commit. -/
def refuseAll (s : State) : State :=
  let s := (s.refuseFailedLane.refusePower).refuseGroup
  let s := (List.finRange 16).foldl (fun s n => s.rescaleBias n) s
  (List.range 8).foldl (fun s i => s.refuseWindow (3 + i / 4) (i % 4)) s

/-! ## What changes (R259) -/

/-- A register, or a field, that a new in-force map changes. -/
def changes (s : State) (new : RegMap) (a : Nat) : Bool := s.inForceReg a != mapGet (resetWord a) new a
def changesField (s : State) (new : RegMap) (f : CField) : Bool :=
  s.cfg f != getField (mapGet (resetWord f.addr) new f.addr) f.lo f.width

/-- The line mode changes. -/
def changesMode (s : State) (new : RegMap) : Bool := ({ s with inForce := new }).lineMode != s.lineMode

/-- The change restarts bring-up (R143). -/
def changesLink (s : State) (new : RegMap) : Bool :=
  s.changesMode new || s.changesField new (F.HL0_GROUP_code 0) || s.changesField new F.LEDGER_LINK_CTRL_retry_req

/-- HL0_REF_CTRL may change: the bring-up step is Idle, or the state is CONFIGURED in a standard mode (R195). -/
def refAllowed (s : State) : Bool :=
  (s.dp.link.step == 0 && !s.stdMode) || s.mgmt.dev == .configured || s.mgmt.dev == .boot

/-- Applying a reference change takes every host lane down and re-adapts it (R195). -/
def refApplied (s : State) : State :=
  let s := ({ s with mgmt := { s.mgmt with refPending := none } }).wr (F.HL0_REF_STAT_ref_pending 0) 0
  (List.finRange 16).foldl (fun s n => if s.dp.host[n].st = .down then s else s.hostToDown n) s

/-- A reference change that waited is applied at the first boundary at which its state is entered. -/
def refReview (s : State) : State :=
  match s.mgmt.refPending with
  | some v => if s.refAllowed then (s.setInForce (R.HL0_REF_CTRL 0) v).refApplied else s
  | none => s

/-- An enabled port that packs no more loses its open buffer (R54, R74). -/
def dropOpen (s : State) (p : Fin 16) : State :=
  if s.dp.ports[p].openBlocks.isEmpty then s
  else (s.bump R.FRAMER_CNT_DISCARD).onPort p fun q => { q with openBlocks := [], openLf := false }

/-- A port that packs goes on packing under a new in-force map: it exists on the same lanes, it is enabled, and the framer
runs. A port that a change of the grouping or of the mode moves is disabled as it was (R54, log entry 116). -/
def packsOn (s : State) (new : RegMap) (p : Fin 16) : Bool :=
  let t := { s with inForce := new }
  let q := s.dp.ports[p]
  t.cvMode && t.cfgOn F.FRAMER_CTRL_enable && bitOf (t.cfg F.FRAMER_PORT_EN_port_en) p
    && (groupPorts t.lineMode (t.cfg (F.HL0_GROUP_code 0)))[p.val]? == some (q.first, q.width)

/-- The open buffers of the ports that pack no more are discarded and counted, before the grouping changes (R54). -/
def closePorts (s : State) (new : RegMap) : State :=
  ((List.finRange 16).filter fun p => !s.packsOn new p).foldl (fun s p => s.dropOpen p) s

/-- The framer's part: the framer itself disabled or enabled (R74). A cleared queue takes its copies in retention with it
(log entry 116). -/
def framerChange (was s : State) : State :=
  let before := was.cfgOn F.FRAMER_CTRL_enable
  let now := s.cfgOn F.FRAMER_CTRL_enable
  if before && !now then
    let s := s.cutSuperframe.onFramer fun f => { f with start := false, ready := [], laneStatus := 0 }
    s.onLedger fun l => { l with retention := l.retention.filter (·.t1.isSome) }
  else if !before && now && decide (2 ≤ s.dp.link.step) && decide (s.dp.link.step ≤ 8) then
    s.onFramer fun f => { f with start := true, sfc := 0 }
  else s

/-- Lanes that the mode does not use have no power (R13); calibration runs that a change aborts (R69, R83). -/
def laneChange (was s : State) (n : Fin 8) : State :=
  if !bitOf s.laneMask n then
    if s.dp.tx[n].powered || s.dp.rx[n].powered then s.laneOff n false false else s
  else
    let mode := was.lineMode != s.lineMode
    let swing := was.cfg (F.OLn_TX_SWING_swing n) != s.cfg (F.OLn_TX_SWING_swing n)
    let fs := was.cfg (F.OLn_RX_CTRL_fs_sel n) != s.cfg (F.OLn_RX_CTRL_fs_sel n)
    let s := if (mode || swing) && s.flag (F.OLn_TX_CAL_STAT_busy n) then s.wr (F.OLn_TX_CAL_STAT_last n) 3 else s
    if (mode || fs) && s.adcBusy n then s.onAdc n fun c => { c with abort := true } else s

/-- The receive side of a lane: what waits for a switch point (R94, R127), and the clock loop's orders (R86). -/
def receiveChange (was s : State) (n : Fin 8) : State :=
  if !s.dp.rx[n].powered then s
  else
    let det := was.inForceReg (R.OLn_DET_CTRL n) != s.inForceReg (R.OLn_DET_CTRL n)
      || was.inForceReg (R.OLn_DET_TARGET n) != s.inForceReg (R.OLn_DET_TARGET n)
    let taps := !s.dp.rx[n].equ.staged.isEmpty && !s.dp.rx[n].equ.armed
    let s := if taps then s.onEqu n fun e => { e with armed := true } else s
    let s := if det || taps then { s with mgmt := { s.mgmt with settleLanes := setBit s.mgmt.settleLanes n true } } else s
    let f := F.OLn_CDR_CTRL_force_ref n
    if !was.cfgOn f && s.cfgOn f && !s.flag (F.OLn_CDR_STAT_fallback n) then s.enterSearch n
    else if was.cfg (F.OLn_CDR_CTRL_hold n) = s.cfg (F.OLn_CDR_CTRL_hold n) ∨ s.flag (F.OLn_CDR_STAT_fallback n)
        ∨ s.dp.rx[n].fe = .hold then s
    else if s.cfgOn (F.OLn_CDR_CTRL_hold n) then s.holdLoop n
    else s.wr (F.OLn_CDR_STAT_holding n) 0

/-- In a standard mode, and with no mode, the pool is clock-gated (R131): what it held is gone (DESIGN CHOICE, log entry 125). -/
def poolGate (was s : State) : State :=
  if was.cvMode && !s.cvMode then
    s.onPool fun p =>
      { p with running := false, queue := [], decisions := [], delivered := 0, cores := p.cores.map fun c => { c with work := none } }
  else s

/-- The pool takes its values at its next tick (R127). -/
def poolChange (was s : State) : State :=
  if [R.FEC_CTRL, R.FEC_DEADLINE, R.FEC_GRANT, R.FEC_RES_CTRL, R.FEC_CORE_EN, R.FEC_HIST_BASE, R.FEC_HIST_CTRL].any fun a =>
      was.inForceReg a != s.inForceReg a then
    let s := s.onPool fun p => { p with staged := true }
    if s.dpOff then s else { s with mgmt := { s.mgmt with settlePool := true } }
  else s

/-- The registers of a range that a commit has changed. -/
def changedIn (was s : State) (keep : Nat → Bool) : Bool :=
  was.inForce.filter (fun x => keep x.1) != s.inForce.filter (fun x => keep x.1)

/-- What waits for an entry boundary of a running sequencer, for the next update of the bias DACs, and for the exit of host lanes
from electrical idle (R207, R259, R328, R332). -/
def settleChange (was s : State) : State :=
  let hsk := s.hsk.running && changedIn was s fun a => a / 0x10000 == 3 && a != R.HSK_REF_CTRL
  let bias := changedIn was s fun a => a / 0x10000 == 4 || (decide (keyDither 0 ≤ a) && decide (a < keyDither 1024))
  let host := (List.finRange 16).any fun (n : Fin 16) => s.dp.host[n].held.isSome &&
    [R.HLn_CTRL n.val, R.HLn_TX_FIR n.val, R.HLn_PRBS_CTRL n.val].any fun a => was.inForceReg a != s.inForceReg a
  let s := if hsk then s.auxWaits 0 else s
  let s := if bias then s.auxWaits 1 else s
  if host then s.auxWaits 2 else s

/-- Housekeeping and bias (R328–R330, R333, R334). -/
def auxChange (was s : State) : State :=
  let ref := was.inForceReg R.HSK_REF_CTRL != s.inForceReg R.HSK_REF_CTRL
  let s := if ref then (s.wr F.HSK_STAT_ref_ready 0).onHsk fun h => { h with converting := false } else s
  let s := if s.pwr.pstate ≤ 1 then s.hskStart else s
  (List.finRange 16).foldl (fun s n =>
    if !was.cfgOn (F.BIAS_CHn_CTRL_dith_en n.val) && s.cfgOn (F.BIAS_CHn_CTRL_dith_en n.val)
      then s.onBias n fun b => { b with phase := 0 } else s) s

/-- A monitor that is turned off has no lock, which is no loss to count (R212). -/
def monitorChange (s : State) : State :=
  (List.finRange 16).foldl (fun s p =>
    if s.portMonitored p then s else s.onPort p fun q => { q with amLock := false, deskew := false }) s

/-- Host lanes that are not used any more are down (R197). -/
def hostChange (s : State) : State :=
  (List.finRange 16).foldl (fun s n => if s.hostUsed n || s.dp.host[n].st == .down then s else s.hostToDown n) s

/-- CONFIGURED with enable = 1 in force: bring-up, or R160 (R135, R266). -/
def bringupIfEnabled (s : State) : State :=
  if s.mgmt.dev = .configured ∧ s.cfgOn F.LEDGER_LINK_CTRL_enable ∧ (s.pwr.phase = .none ∨ s.pwr.phase = .asking) then
    if s.cvMode then s.enterStep1 false else if s.stdMode then (s.setDev .bringup).reviewState else s
  else s

/-- A link, or an attempt, that a change of the configuration ends: it stops under the old configuration. -/
def changeStop (s : State) : State :=
  match s.mgmt.dev with
  | .bringup | .linked | .degraded | .partnerAbsent => s.linkStop 0x28
  | .quiet => s.entryLinkDown
  | _ => s

/-- It goes on under the new one (R143, R158). -/
def changeGoOn (s : State) : State :=
  match s.mgmt.dev with
  | .bringup | .linked | .degraded | .partnerAbsent => s.linkRestart
  | .quiet => s.onPwr fun p =>
      { p with heldState := if s.cfgOn F.LEDGER_LINK_CTRL_enable && s.lineMode != 0 then .bringup else .configured }
  | _ => s

/-- An in-force map comes into force, and every block that acts at the boundary does so. `restart` orders bring-up to start
again (R269). -/
def loadConfig (s : State) (new : RegMap) (restart : Bool) : State :=
  let was := s
  let link := restart || s.changesLink new
    || (s.cfgOn F.LEDGER_LINK_CTRL_enable && s.changesField new F.LEDGER_LINK_CTRL_enable)
  let group := s.changesMode new || s.changesField new (F.HL0_GROUP_code 0)
  let ref := s.changes new (R.HL0_REF_CTRL 0)
  let s := if link then s.changeStop else s
  let s := { s.closePorts new with inForce := new }
  let s := if group then s.applyGrouping else s
  let s := (List.finRange 8).foldl (fun s n => (laneChange was s n)) s
  let s := (framerChange was s).hostChange.monitorChange.reviewLineFault
  let s := if ref then s.refApplied else s
  let s := (List.finRange 8).foldl (fun s n => receiveChange was s n) s
  let s := auxChange was (settleChange was (poolChange was (poolGate was s)))
  let s := (s.servoSource was.timeSrc).reviewHostLock
  let s := if link then s.changeGoOn else s
  (s.bringupIfEnabled.patternService).reviewState

/-- A commit has been applied: its number, its epoch, and whether it has settled (R258, R259). -/
def commitDone (s : State) : State :=
  let s := s.wr F.TOP_COMMIT_commit_no (s.rd F.TOP_COMMIT_commit_no + 1)
  let s := s.setReg R.TOP_COMMIT_STAT (s.reg R.TOP_EPOCH)
  ((s.wr F.TOP_COMMIT_settled 0).reviewSettled).setTopInt F.TOP_INT_commit_done

/-- A change of HL0_REF_CTRL that is not allowed yet waits, and the old value stays in force (R195). -/
def holdRef (s : State) : State × RegMap :=
  let a := R.HL0_REF_CTRL 0
  if s.stagedReg a = s.inForceReg a then
    (({ s with mgmt := { s.mgmt with refPending := none } }).wr (F.HL0_REF_STAT_ref_pending 0) 0, s.staged)
  else if s.refAllowed then (s, s.staged)
  else
    (({ s with mgmt := { s.mgmt with refPending := some (s.stagedReg a) } }).wr (F.HL0_REF_STAT_ref_pending 0) 1,
     mapSet (resetWord a) s.staged a (s.inForceReg a))

/-- The commit that TOP_COMMIT.go requested is applied (R258). -/
def applyCommit (s : State) : State :=
  let s := (s.wr F.TOP_COMMIT_refused 0).wr F.TOP_COMMIT_settled 0
  let (s, new) := s.refuseAll.holdRef
  ((s.loadConfig new false).wr F.TOP_COMMIT_busy 0).commitDone

/-- LINK's write of LEDGER_LINK_CTRL.enable, which leaves every other staged change staged (R269). -/
def applyLink (s : State) (enable restart : Bool) : State :=
  let f := F.LEDGER_LINK_CTRL_enable
  let s := (s.wr F.TOP_COMMIT_refused 0).wr F.TOP_COMMIT_settled 0
  let s := s.setStaged f.addr (putField (s.stagedReg f.addr) f.lo f.width (b2n enable))
  let new := mapSet (resetWord f.addr) s.inForce f.addr (putField (s.inForceReg f.addr) f.lo f.width (b2n enable))
  (s.loadConfig new restart).commitDone

end State

end Sys2Proof.Machine
end

