-- ==== Sys2Proof/Machine/Commands.lean ====
section
/-!
DEFINITION. The mailbox (R267–R270): the legality test, and the effect and the end of each command; fuse operations (R290),
debug unlock (R291) and boundary scan (R293).
-/

namespace Sys2Proof.Machine

namespace State

/-! ## Reach of the ports (R251, R264, R292) -/

/-- What a port reaches in SLEEP: PWR and the always-on TOP subset. -/
def sleepReach (a : Nat) : Bool :=
  a / 0x10000 == 2 || [R.TOP_ID, R.TOP_STEP, R.TOP_STATE, R.TOP_CMD, R.TOP_CMD_ARGk 0, R.TOP_CMD_ARGk 1, R.TOP_CMD_ARGk 2,
    R.TOP_CMD_ARGk 3, R.TOP_CMD_STAT, R.TOP_INT, R.TOP_INT_EN].contains a

/-- A port reaches an address: no port works in OFF; JTAG does while debug is unlocked, in ACTIVE and QUIET. Port 4 is an
engine's. -/
def reach (s : State) (port : Nat) (a : Nat) : Bool :=
  s.mgmt.dev != .off
    && (port != 3 || (s.flag F.SEC_DBG_STAT_unlocked && decide (s.pwr.pstate < 2)))
    && (s.mgmt.dev != .sleep || sleepReach a)

/-! ## Legality (R268, R270) -/

/-- *Command legality by state*. -/
def cmdLegal (s : State) (op : Nat) : Bool :=
  let d := s.mgmt.dev
  match op with
  | 0 => true
  | 1 | 7 => s.configuredUp
  | 2 => d == .linked || d == .degraded
  | 3 => s.configuredUp || d == .quiet || d == .standby || d == .sleep
  | 4 | 13 => s.configuredUp || d == .quiet
  | 5 => d == .bringup || d == .linked || d == .degraded
  | 6 => d != .fault || !s.flag F.THERM_STAT_shut_latched
  | 8 => d == .configured
  | 9 => d == .boot
  | _ => d == .boot || d == .fault || s.configuredUp

/-- A row of *Commands* that names its own reason for STATE: RETRAIN in the standard modes. -/
def cmdBarred (s : State) (op : Nat) : Bool := op == 2 && s.stdMode

/-- An argument outside its stated range. -/
def cmdBadArgs (s : State) (op : Nat) : Bool :=
  match op with
  | 1 => s.arg 0 % 4 == 3
  | 2 => (bitList 8 (s.arg 0)).any fun n => !bitOf s.laneMask n
  | 5 => s.arg 0 % 4 == 0
  | 6 => s.arg 0 != 0x5AFE
  | 7 => s.capBadArgs
  | 8 => decide (2 ^ 28 ≤ s.arg 0)
  | 11 => s.arg 0 != 192
  | _ => false

/-- The registers that a command reads its arguments from. -/
def cmdReads (op : Nat) : List Nat :=
  match op with
  | 0 | 10 | 12 => []
  | 1 | 9 => [R.TOP_CMD_ARGk 0, R.TOP_CMD_ARGk 1]
  | 7 => [R.TOP_CMD_ARGk 0, R.TOP_CMD_ARGk 1, R.TOP_CMD_ARGk 2, R.TOP_CMD_ARGk 3]
  | 11 => R.TOP_CMD_ARGk 0 :: (List.range 48).map R.SEC_BUFk
  | _ => [R.TOP_CMD_ARGk 0]

/-- A register's word is read: whether the read returns poison (R357, R358). -/
def regReadEcc (s : State) (a : Nat) : State × Bool :=
  if mapGet 0 s.mem.regEcc a = 0 then (s, false)
  else
    let (s, code, poison) := s.eccRead false none (mapGet 0 s.mem.regEcc a)
    (s.onMem fun m => { m with regEcc := mapSet 0 m.regEcc a code }, poison)

/-- The arguments are read: whether one returns poison. -/
def argsRead (s : State) (op : Nat) : State × Bool :=
  (cmdReads op).foldl (fun (s, p) a => let (s, q) := s.regReadEcc a; (s, p || q)) (s, false)

/-! ## LINK, RETRAIN, RESET_DP -/

/-- LINK at the epoch boundary (R269). Without wait, and for down, it ends there. -/
def linkBoundary (s : State) : State :=
  match s.mgmt.linkSet with
  | none => s.linkWaitEnd
  | some enable =>
    let s := { s with mgmt := { s.mgmt with linkSet := none } }
    let s := s.applyLink enable (s.arg 0 % 4 == 2)
    if s.linkWaits then s.linkWaitEnd
    else if s.running 1 then (s.setArg 1 s.linkStat.toNat).endCmd stOk else s

/-- RETRAIN orders the retrain of each lane named (R269). A fast one starts from LOCKED alone (*Ensign lock states*). -/
def retrainLanes (s : State) : State :=
  let full := bitOf (s.arg 0) 8
  ((List.finRange 8).filter fun n => bitOf (s.arg 0) n.val).foldl (fun s n =>
    if full then s.orderFull n else if s.dp.rx[n].lock = .locked then s.orderFast n else s) s

/-- Registers that return to their reset words. -/
def resetRegs (s : State) (as : List Nat) : State := as.foldl (fun s a => s.setReg a (resetWord a)) s

/-- Soft reset of the transmit datapath: the superframe in progress is cut, the ready queue and the ledger's state are kept
(R184, log entry 27). The framer goes on with the SFC after that of the cut superframe: DESIGN CHOICE, since R26 does not
say whether RESET_DP counts as a start of the framer, which would put SFC back to 0 (log entry 27). -/
def resetTransmit (s : State) : State :=
  let s := s.resetRegs ([R.FRAMER_QUEUE_HWM, R.FRAMER_WAIT_MAX] ++ (List.range 8).map R.OLn_TX_PD_ADDR)
  let sent := s.dp.framer.sending
  s.cutSuperframe.onFramer fun f =>
    { f with start := f.start || sent, sfc := if sent then (f.sfc + 1) % 2 ^ 32 else f.sfc }

/-- Soft reset of the receive datapath: the codewords in the detectors and the pool are lost; locks, taps and the ledger's
state are kept, and the missing units are requested when messages resume (R184, log entry 27). -/
def resetReceive (s : State) : State :=
  let s := s.resetRegs ([R.FEC_LAT_MAX, R.LEDGER_RX_LOSS_CAUSE] ++ (List.range 8).flatMap fun n =>
    [R.OLn_RX_SLICE_SEL n, R.OLn_FDE_SKIP_CAUSE n, R.OLn_FDE_TAP_ADDR n, R.OLn_DET_VAR_SEL n, R.FEC_LANEn_HIST_SEL n])
  let s := s.onPool fun p =>
    { p with queue := [], decisions := [], delivered := 0, cores := p.cores.map fun c => { c with work := none } }
  s.onDp fun d => { d with rx := d.rx.map fun r => { r with ds := Destuff.initial } }

/-- RESET_DP (R269): the duration is the device's own. -/
def resetDatapath (s : State) : State :=
  let a := s.arg 0
  let s := if bitOf a 0 then s.resetTransmit else s
  let s := if bitOf a 1 then s.resetReceive else s
  ((s.drew).setArg 0 (s.freeNat % 2 ^ 32)).endCmd stOk

/-! ## SHUTDOWN, RESET -/

/-- The REPAIR records are written, unless the flash declares no 4 KiB erase (R279, R282, R370); OK is set; and the SLEEP
entry that cannot be refused is proposed (R269, R315). -/
def shutdownTail (s : State) : State :=
  let s := if s.boot.nvmErase then { s with boot := { s.boot with nvmRepair := [s.mem.repair, s.mem.repair] } }
    else s.logEvent srcBoot 0x2003 0 0
  let s := s.endIf 4 stOk
  if s.mgmt.dev = .fault then s else s.endEntry.proposeEntry 3 false false true

/-- SHUTDOWN is accepted (R269, R364): an entry that an idle timer proposed gives way to it. -/
def shutdownStart (s : State) : State :=
  let s := (s.endEntry.onFramer fun f => { f with idleLeft := none }).entryLinkDown
  let s := (s.onSafe fun f => { f with pwrHold := true }).reviewSafe
  if bitOf (s.arg 0) 0 then s.bistRound 1 else s.shutdownTail

/-- RESET (R269): OK, then a soft reset, then BOOT. A wake failure that stood is over, and out of SLEEP the recorder
restarts empty (R272, R393). -/
def resetCommand (s : State) : State :=
  let asleep := s.pwr.pstate == 3
  -- a link that is up goes down first: its units are counted and the event is logged (R19, R158, R187)
  let s := (s.endCmd stOk).endEntry.entryLinkDown.softReset true
  let s := s.onPwr fun p => { p with pstate := 0, timerExpired := false, followSquelch := false, retained := false }
  let s := ((s.wr F.PWR_WAKE_FAIL_tries 0).wr F.PWR_WAKE_FAIL_given_up 0).setDev .boot
  if asleep then s.evrRestart 1 false else s

/-! ## IMAGE_LOAD (R287) -/

/-- The causes of FAIL that change no boot state, the first listed first. -/
def loadBarred (s : State) : Option Nat :=
  let a := s.arg 0
  if a < 0x10000000 ∨ 0x20000000 ≤ a ∨ !s.dramReady then some 0x0B
  else if s.boot.phase = .await then none
  else if 2 ≤ s.rd F.SEC_STRAP_bootsel then some 0x01
  else some 0x0D

/-- A download starts at step 0x05. -/
def loadStart (s : State) : State :=
  match s.loadBarred with
  | some k => (s.setArg 0 k).endCmd stFail
  | none =>
    let at_ := s.rd F.TOP_DRAM_WIN_page * 2 ^ 28 + (s.arg 0 - 0x10000000)
    let s := { s with boot := { s.boot with
      source := .download, dlAddr := at_, dlLen := s.arg 1, phase := .header, header := [], offset := 0,
      nRecords := 0, region := [], held := [], wrote := [], acted := [] } }
    (s.wr F.SEC_BOOT_STAT_step 5).wr F.SEC_BOOT_STAT_copy 0

/-! ## Debug (R291) -/

/-- DEBUG_CHAL: four fresh random words. -/
def debugChallenge (s : State) : State :=
  let c : List Nat := (List.range 4).map fun i => Config.freeNat (s.draws + i) % 2 ^ 32
  let s := { s with draws := s.draws + 4, boot := { s.boot with challenge := c.map (BitVec.ofNat 32) } }
  let s := c.zipIdx.foldl (fun s (v, i) => s.setArg i v) s
  (s.wr F.SEC_DBG_STAT_chal_valid 1).endCmd stOk

/-- The slot whose key unlocks debug (*Security combinations*). -/
def unlockOwner (s : State) : Bool :=
  match s.rd F.SEC_LC_lc with
  | 0 => s.flag F.SEC_LC_owner_set
  | 1 => true
  | _ => false

/-- SEC_BUF as bytes. -/
def secBuf (s : State) (n : Nat) : List Byte := (List.range ((n + 3) / 4)).flatMap fun k => leBytes 4 (s.reg (R.SEC_BUFk k)).toNat

/-- The message that a response signs: the challenge, SEC_UID0–3, TOP_ID and SEC_LC.lc. -/
def debugMessage (s : State) : List Byte :=
  (s.boot.challenge ++ (List.range 4).map fun k => s.reg (R.SEC_UIDk k)).flatMap (fun w => leBytes 4 w.toNat)
    ++ leBytes 4 (resetWord R.TOP_ID).toNat ++ leBytes 4 (s.rd F.SEC_LC_lc)

/-- A response that unlocks debug. -/
def debugAccepts (s : State) : Bool :=
  let b := s.secBuf 192
  !s.flag F.SEC_DBG_STAT_lockout && s.flag F.SEC_DBG_STAT_chal_valid
    && s.signed_ s.unlockOwner (slice b 0 96) (slice b 96 48) (slice b 144 48) s.debugMessage

/-- DEBUG_RESP: the challenge is used, whatever the answer. -/
def debugResponse (s : State) : State :=
  let ok := s.debugAccepts
  let owner := s.unlockOwner
  let s := ({ s with boot := { s.boot with challenge := [] } }).wr F.SEC_DBG_STAT_chal_valid 0
  if ok then
    let s := ((s.wr F.SEC_DBG_STAT_unlocked 1).wr F.SEC_DBG_STAT_key (b2n owner)).wr F.SEC_DBG_STAT_consec 0
    (s.setInt F.SEC_INT_dbg_unlock).endCmd stOk
  else
    let n := Nat.min 3 (s.rd F.SEC_DBG_STAT_consec + 1)
    let s := (s.wr F.SEC_DBG_STAT_consec n).bump R.SEC_DBG_FAIL_CNT
    let s := if n = 3 then s.wr F.SEC_DBG_STAT_lockout 1 else s
    (s.setInt F.SEC_INT_dbg_denied).endCmd stDenied

/-! ## LASER (R351) -/

/-- IG-S answers LASER. -/
def laserAct (s : State) (lanes : Nat) (on : Bool) : State :=
  let named := (List.finRange 8).filter fun n => bitOf lanes n.val
  if on then
    if named.any fun n => s.laserDenied n then s.drew.endIf 13 stDenied
    else
      let s := named.foldl (fun s n =>
        ((s.wrBit F.SAFE_FAULT_sc n.val false).wrBit F.SAFE_FAULT_igs n.val false).wrBit F.SAFE_LANE_req n.val true) s.drew
      s.reviewSafe.endIf 13 stOk
  else (named.foldl (fun s n => s.wrBit F.SAFE_LANE_req n.val false) s).reviewSafe.endIf 13 stOk

/-- A LASER request that waits is answered where IG-S runs. -/
def laserReview (s : State) : State :=
  match s.safe.laserReq with
  | some (lanes, on) =>
    if s.safe.igsRun then (s.onSafe fun f => { f with laserReq := none }).laserAct lanes on else s
  | none => s

/-- LASER reaches IG-S (R378). -/
def laserStart (s : State) : State :=
  let a := s.arg 0
  (((s.raiseEv 1 8).onSafe fun f => { f with laserReq := some (a % 256, bitOf a 8) })).laserReview

/-! ## Execution -/

/-- A command that has been taken up runs (*Commands*). -/
def cmdRun (s : State) : State :=
  let s := { s with mgmt := { s.mgmt with cmdTaken := true } }
  match s.cmdOp with
  | 0 => (s.setArg 0 (resetWord R.TOP_ID).toNat).endCmd stOk
  | 1 => { s with mgmt := { s.mgmt with linkSet := some (s.arg 0 % 4 != 0) } }
  | 2 => s.retrainLanes.endCmd stOk
  | 3 => s.powerStep
  | 4 => s.shutdownStart
  | 5 => s.resetDatapath
  | 6 => s.resetCommand
  | 7 => s.capStart
  | 8 => if s.arg 0 = 0 then (s.bistArgs 0).endCmd stOk else (s.bistCommand (s.arg 0)).gateRun
  | 9 => s.loadStart
  | 10 => s.debugChallenge
  | 11 => s.debugResponse
  | 12 => (s.wr F.SEC_DBG_STAT_unlocked 0).endCmd stOk
  | _ => s.laserStart

/-- IG-M takes a command up, unless a debugger holds it halted; in STANDBY and SLEEP the always-on decoder does (R267). -/
def takesUp (s : State) : Bool := decide (2 ≤ s.pwr.pstate) || s.eng[0].st != .halted

/-- A command that waits to be taken up. -/
def takeUp (s : State) : State := if s.cmdBusy ∧ !s.mgmt.cmdTaken ∧ s.takesUp then s.cmdRun else s

/-- A write of TOP_CMD stops the self-test of a SLEEP entry, and POWER aborts the entry (R318, R367). The entry inside
SHUTDOWN is not stopped (log entry 28). -/
def cmdStops (s : State) (op : Nat) : State :=
  match s.mem.run with
  | some r =>
    if r.trigger = 2 ∧ !s.pwr.forced then (if op = 3 then (s.raiseEv 2 10).abortAny else s.stopRun) else s
  | none => s

/-- A command that is not BUSY is tested and, if it passes, accepted. -/
def cmdTest (s : State) (port op : Nat) : State :=
  let s := ((s.wr F.TOP_CMD_opcode op).wr F.TOP_CMD_STAT_opcode op).wr F.TOP_CMD_STAT_port port
  if 13 < op then s.endCmd stArg
  else if !s.cmdLegal op || s.cmdBarred op then (s.bump R.TOP_CMD_STATE_CNT).endCmd stState
  else
    let (s, poison) := s.argsRead op
    if poison then s.endCmd stPoison
    else if s.cmdBadArgs op then s.endCmd stArg
    else ((s.wr F.TOP_CMD_STAT_collide 0).wr F.TOP_CMD_STAT_status stBusy).takeUp

/-- A write of TOP_CMD (R267). -/
def cmdWrite (s : State) (port op : Nat) : State :=
  let busy := s.cmdBusy
  let s := (s.raiseEv 0 8).cmdStops op
  if busy then s.wr F.TOP_CMD_STAT_collide 1 else s.cmdTest port op

/-- A mailbox command, by the port it comes on. -/
def command (s : State) (port : Fin 5) (op : Nat) : State := if s.reach port R.TOP_CMD then s.cmdWrite port op else s

/-! ## Fuses (R290) -/

/-- *Fuse operations*: in CONFIGURED (R290), and in BOOT where halt is selected (R288, log entry 29). -/
def fuseAllowed (s : State) (op : Nat) : Bool :=
  let f := s.boot.fuses
  let lc := s.rd F.SEC_LC_lc
  (s.mgmt.dev == .configured || (s.mgmt.dev == .boot && s.boot.phase == .halted)) && s.flag F.SEC_DBG_STAT_unlocked &&
    match op with
    | 1 => lc == 0 && f.lc == 0 && !f.ownerSet
    | 2 => lc == 0 && f.lc == 0 && f.ownerSet
    | 3 => lc == 1 && f.lc == 1 && s.flag F.SEC_DBG_STAT_key
    | 4 => decide (lc ≤ 1) && decide (f.rollback < 32)
    | _ => false

/-- A fuse operation ends. -/
def fuseEnd (s : State) (result : Nat) : State :=
  ((s.wr F.SEC_FUSE_STAT_busy 0).wr F.SEC_FUSE_STAT_result result).setInt F.SEC_INT_fuse_done

/-- SEC_FUSE_CTRL.go. -/
def fuseGo (s : State) (op : Nat) : State :=
  let s := s.wr F.SEC_FUSE_CTRL_op op
  if s.flag F.SEC_FUSE_STAT_busy then s
  else if s.fuseAllowed op then ({ s with boot := { s.boot with fuseOp := op } }).wr F.SEC_FUSE_STAT_busy 1
  else s.fuseEnd 1

/-- What an operation leaves in the fuses. -/
def fuseSet (f : Fuses) (op : Nat) (hash : List Byte) : Fuses :=
  match op with
  | 1 => { f with ownerSet := true, ownerHash := hash }
  | 2 => { f with lc := 1 }
  | 3 => { f with lc := 2 }
  | _ => { f with rollback := f.rollback + 1 }

/-- An operation that has run ends. What one that failed leaves in the fuses is not stated: free (log entry 29). -/
def fuseDone (s : State) (progFailed mismatch : Bool) : State :=
  let bad := progFailed || mismatch
  let hash := if bad then (List.range 48).map fun i => BitVec.ofNat 8 (Config.freeNat (s.draws + 1 + i)) else s.secBuf 48
  let took := !bad || s.freeNat % 2 == 1
  let s := if bad then { s with draws := s.draws + 49 } else s
  let f := if took then fuseSet s.boot.fuses s.boot.fuseOp hash else s.boot.fuses
  let s := ({ s with boot := { s.boot with fuses := f, fuseOp := 0 } }).wr F.SEC_LC_lc_fused f.lc
  s.fuseEnd (if progFailed then 2 else if mismatch then 3 else 0)

/-! ## Self-test slices (R365–R367) -/

/-- A slice of a run ends. In SHUTDOWN, and in its SLEEP entry, nothing stops one. -/
def sliceDone (s : State) (r : BistRun) (rep : SliceReport) : State :=
  if rep.aborted ∧ r.trigger ≠ 1 ∧ !(r.trigger = 2 ∧ s.pwr.forced) then s.stopRun
  else
    let (s, done) := s.sliceEnd r rep
    if !done then s
    else if r.trigger = 0 then (s.bistArgs r.asked).endIf 8 stOk
    else if r.trigger = 1 then s.shutdownTail
    else if s.pwr.phase = .preparing then s.openFinal
    else s

end State

open State

/-- NOP (R269). -/
def execNop (port : Fin 5) (s : State) : Out := .next (s.command port 0)
/-- LINK (R269). -/
def execLink (port : Fin 5) (s : State) : Out := .next (s.command port 1)
/-- RETRAIN (R269). -/
def execRetrain (port : Fin 5) (s : State) : Out := .next (s.command port 2)
/-- POWER (R269, R312). -/
def execPower (port : Fin 5) (s : State) : Out := .next (s.command port 3)
/-- SHUTDOWN (R269). -/
def execShutdown (port : Fin 5) (s : State) : Out := .next (s.command port 4)
/-- RESET_DP (R269). -/
def execResetDp (port : Fin 5) (s : State) : Out := .next (s.command port 5)
/-- RESET (R269). -/
def execReset (port : Fin 5) (s : State) : Out := .next (s.command port 6)
/-- CAPTURE (R269, R399). -/
def execCapture (port : Fin 5) (s : State) : Out := .next (s.command port 7)
/-- BIST (R269, R364). -/
def execBist (port : Fin 5) (s : State) : Out := .next (s.command port 8)
/-- IMAGE_LOAD (R269, R287). -/
def execImageLoad (port : Fin 5) (s : State) : Out := .next (s.command port 9)
/-- DEBUG_CHAL (R269, R291). -/
def execDebugChal (port : Fin 5) (s : State) : Out := .next (s.command port 10)
/-- DEBUG_RESP (R269, R291). -/
def execDebugResp (port : Fin 5) (s : State) : Out := .next (s.command port 11)
/-- DEBUG_LOCK (R269, R291). -/
def execDebugLock (port : Fin 5) (s : State) : Out := .next (s.command port 12)
/-- LASER (R269, R351). -/
def execLaser (port : Fin 5) (s : State) : Out := .next (s.command port 13)

/-- COMMAND_COLLIDE (R267): a write of TOP_CMD, which a BUSY command makes ineffective. -/
def execCommandCollide (port : Fin 5) (opcode : Byte) (s : State) : Out := .next (s.command port opcode.toNat)

/-- COMMAND_TAKEUP_TIMEOUT (R267). -/
def execCommandTakeupTimeout (s : State) : Out :=
  .next (if s.cmdBusy ∧ !s.mgmt.cmdTaken then s.endCmd stTimeout else s)

/-- LINK_WAIT_TIMEOUT (R269). -/
def execLinkWaitTimeout (s : State) : Out :=
  .next (if s.linkWaits then (s.setArg 1 s.linkStat.toNat).endCmd stTimeout else s)

/-- LASER_TIMEOUT (R269). -/
def execLaserTimeout (s : State) : Out :=
  .next (if s.safe.laserReq.isSome then (s.onSafe fun f => { f with laserReq := none }).endIf 13 stTimeout else s)

/-- BIST_COMMAND_TIMEOUT (R365). -/
def execBistCommandTimeout (s : State) : Out :=
  match s.mem.run with
  | some r => .next (if r.trigger = 0 then (s.sliceAbort.bistArgs r.asked).endIf 8 stTimeout else s)
  | none => .next s

/-- DEBUG_CHALLENGE_EXPIRE (R291). -/
def execDebugChallengeExpire (s : State) : Out :=
  .next (({ s with boot := { s.boot with challenge := [] } }).wr F.SEC_DBG_STAT_chal_valid 0)

/-- BIST_SLICE_END (R366, R367). -/
def execBistSliceEnd (report : SliceReport) (s : State) : Out :=
  match s.mem.run with
  | some r => .next (s.sliceDone r report)
  | none => .next s

/-- FUSE_OP_GO (R290). -/
def execFuseOpGo (port : Fin 5) (op : BitVec 3) (s : State) : Out :=
  .next (if s.reach port R.SEC_FUSE_CTRL then s.fuseGo op.toNat else s)

/-- FUSE_OP_DONE (R290). -/
def execFuseOpDone (progFailed mismatch : Bool) (s : State) : Out :=
  .next (if s.flag F.SEC_FUSE_STAT_busy then s.fuseDone progFailed mismatch else s)

/-- BSCAN_INSTRUCTION (R292, R293): boundary scan is not available in STANDBY and SLEEP. -/
def execBscanInstruction (drives : Bool) (s : State) : Out :=
  .next ((s.onSafe fun f => { f with bscan := drives && decide (s.pwr.pstate < 2) }).reviewSafe)

end Sys2Proof.Machine
end

