-- ==== Sys2Proof/Machine/Pennant.lean ====
section
/-!
DEFINITION. The pennant channel: the receiver's states and capture, the transmitter, bring-up pennants, mail and telemetry
(R140–R143, R159, R214–R233).
-/

namespace Sys2Proof.Machine

/-- The burgee word's symbols, oldest first (R218). -/
def burgeeBits : List Bool := msbBits 32 0x0CF39A65

/-- +1 for a 1 and −1 for a 0. -/
def signOf (b : Bool) : Int := if b then 1 else -1

/-! ## Blocks and symbols (R216, R224) -/

/-- The soft value of the symbol that ended `back` blocks ago: the sum of the middle 21 of its 25 blocks. Signals stand newest
first. -/
def softValue (signal : List Int) (back : Nat) : Int := intSum ((signal.drop (back + 2)).take 21)

/-- The last 32 soft values on the phase of the newest block, oldest first. -/
def lastSymbols (signal : List Int) : List Int := ((List.range 32).map fun k => softValue signal (25 * k)).reverse

/-- Σ x s of 32 soft values with the alternating pattern, whose oldest symbol is 1. -/
def alternating (soft : List Int) : Int := intSum (soft.zipIdx.map fun (x, i) => x * signOf (i % 2 == 0))

/-- The preamble test (R224): Σ x s / √(32 Σ x²) ≥ thr / 16 over the last 32 soft values. -/
def preambleHit (thr : Nat) (soft : List Int) : Bool :=
  let c := alternating soft
  let e := intSum (soft.map fun x => x * x)
  decide (soft.length = 32) && decide (0 < c) && decide ((thr * thr : Nat) * 32 * e ≤ 256 * c * c)

/-- A candidate meets the newest of `blockNo` blocks. Where it ends a symbol, the symbol's soft value is taken; and every 64
symbols the sums one block late and one block early are compared in magnitude, and the phase moves by one block towards the
greater (R216). That measure and that step are a DESIGN CHOICE (log entry 120): the rule names the comparison only. -/
def Candidate.meet (c : Candidate) (blockNo : Nat) (signal : List Int) : Candidate :=
  if blockNo < c.next + 25 then c
  else
    let early := intSum ((signal.drop 3).take 21)
    let late := intSum ((signal.drop 1).take 21)
    let d := c.late + ((late.natAbs : Int) - (early.natAbs : Int))
    let soft := c.soft ++ [softValue signal 0]
    if c.run = 63 then
      { c with soft := soft, run := 0, late := 0,
               next := if 0 < d then blockNo + 1 else if d < 0 then blockNo - 1 else blockNo }
    else { c with soft := soft, run := c.run + 1, late := d, next := blockNo }

/-- A candidate's 96 symbols have passed (R224). -/
def Candidate.over (c : Candidate) (blockNo : Nat) : Bool := decide (c.since + 2400 ≤ blockNo)

/-- The burgee's soft values, each with its expected sign. -/
def signed (soft : List Int) : List Int := List.zipWith (fun x b => x * signOf b) soft burgeeBits

/-- PEN_RX_AMP.amp: A in 1/64 code, the mean over the 32 burgee symbols of soft values that are sums of 21 blocks of `n` samples
(R216, R224). -/
def ampField (n : Nat) (xs : List Int) : Nat := fixedNat 12 1 ((2 * intSum xs : Rat) / (4096 * n * 160000 : Nat))

/-- A 6-bit LLR, negative for a bit of 1 as in R112: −2 A x / σ² with the A and σ² of the burgee word, rounded, and ±31 at most; with σ² = 0, ∓31 by
the sign of x (R216; the scale is a DESIGN CHOICE, log entry 120). -/
def scaledLlr (xs : List Int) (x : Int) : Int :=
  let a := intSum xs
  let v := 32 * intSum (xs.map fun x => x * x) - a * a
  if v = 0 then Int.sign x * (-31) else satI (-31) 31 (roundDiv (a * x * (-64)) v.toNat)

/-- esn0_q (R216): A² / σ² = (Σx)² / (32 Σx² − (Σx)²); σ² = 0 gives 255. -/
def esn0Field (xs : List Int) : Nat :=
  let s := intSum xs
  let v := 32 * intSum (xs.map fun x => x * x) - s * s
  if v = 0 then 255
  else
    let x : Rat := ((s * s : Int) : Rat) / (v : Rat)
    if x ^ 80 * 10 < 1 then 0 else quarterDb 255 x

/-- The capture test (R226): the second amplitude is at least 10^(cap_db / 20) × A. -/
def captures (capDb : Nat) (second cur : List Int) : Bool :=
  let a := intSum second
  let b := intSum cur
  decide (0 ≤ a) && (decide (b ≤ 0) || decide (b ^ 20 * 10 ^ capDb ≤ a ^ 20))

/-- Byte `i` of a payload as a number. -/
def byteAt (p : List Byte) (i : Nat) : Nat := (p.getD i 0).toNat

/-- A 32-bit word of a payload, most significant byte first, at a byte offset. -/
def be32 (p : List Byte) (i : Nat) : Nat :=
  2 ^ 24 * byteAt p i + 2 ^ 16 * byteAt p (i + 1) + 2 ^ 8 * byteAt p (i + 2) + byteAt p (i + 3)

namespace State

def penThr (s : State) : Nat := if s.cfg F.PEN_RX_CFG_pre_thr = 0 then 10 else s.cfg F.PEN_RX_CFG_pre_thr
def burgeeTol (s : State) : Nat := Nat.min 6 (s.cfg F.PEN_RX_CFG_burgee_tol)
def penIter (s : State) : Nat := if s.cfg F.PEN_RX_CFG_max_iter = 0 then 20 else s.cfg F.PEN_RX_CFG_max_iter

/-- How many hard decisions differ from the burgee word (R224). The decision of a soft value of 0 is free. -/
def burgeeDiff (s : State) (soft : List Int) : State × Nat :=
  let bit (x : Int) (i : Nat) : Bool := if x = 0 then (Config.freeNat (s.draws + i)) % 2 == 1 else decide (0 < x)
  ({ s with draws := s.draws + soft.length },
   ((List.zip soft.zipIdx burgeeBits).filter fun ((x, i), b) => bit x i != b).length + (32 - soft.length))

/-! ## Receiving (R224–R227) -/

/-- A sub-sample block is received (R216, R217): the sum of each lane, the sum over the lanes that PEN_CTRL.rx_mask selects and
that have power, and that sum less its running mean. A block that has not been received counts as 0 in the running mean, which
takes in the block itself (DESIGN CHOICE, log entry 120). -/
def penBlock (s : State) (b : Vector (List (BitVec 8)) 8) : State :=
  let start := s.dp.pen.blockNo * s.blockSamples
  let sumOf (n : Fin 8) : Int := intSum (s.laneSamples n start b[n])
  let lanes := (List.finRange 8).filter fun n => s.dp.rx[n].powered
  let x := intSum ((lanes.filter fun (n : Fin 8) => bitOf (s.cfg F.PEN_CTRL_rx_mask) n).map sumOf)
  let s := lanes.foldl (fun s n => s.onRx n fun r => { r with means := (sumOf n :: r.means).take 4096 }) s
  s.onPen fun p =>
    let sums := (x :: p.sums).take 4096
    let signal := ((4096 * x - intSum sums) :: p.signal).take 800
    let k := p.blockNo + 1
    { p with blockNo := k, sums := sums, signal := signal, cand := p.cand.map fun c => c.meet k signal,
             second := (p.second.map fun c => c.meet k signal).filter fun c => c.matched || !c.over k }

/-- The blocks that a command brings. An unmatched candidate of the secondary correlator lapses with its 96 symbols (R225). -/
def penBlocks (s : State) (bs : PenBlocks) : State := bs.foldl penBlock s

/-- A preamble is detected on the phase of the newest block (R224): the candidate with its phase and amplitude. -/
def newCandidate (s : State) : Candidate :=
  let k := s.dp.pen.blockNo
  { matched := false, xs := [], since := k, amp := alternating (lastSymbols s.dp.pen.signal), next := k, soft := [],
    run := 0, late := 0 }

/-- Hard decisions of the first 32 soft values since the burgee word, and the candidate without them. A soft value of 0 has a
free decision (R219, R224). -/
def headerBits (s : State) (c : Candidate) : State × List Bool × Candidate :=
  let bit (x : Int) (i : Nat) : Bool := if x = 0 then (Config.freeNat (s.draws + i)) % 2 == 1 else decide (0 < x)
  ({ s with draws := s.draws + 32 }, ((c.soft.take 32).zipIdx.map fun (x, i) => bit x i), { c with soft := c.soft.drop 32 })

/-- Return to SEARCH, or take over the secondary's candidate with its phase, detection time and any match (R225). -/
def penSearch (s : State) : State :=
  s.onPen fun p =>
    match p.second with
    | some c => { p with rx := if c.matched then 2 else 1, cand := some c, second := none, info := [] }
    | none => { p with rx := 0, cand := none, info := [] }

/-- A burgee word is matched (R224–R226). -/
def burgeeMatched (s : State) (secondary : Bool) (c : Candidate) : State :=
  if !secondary then s.onPen fun p => { p with rx := 2, cand := some c }
  else if s.dp.pen.rx = 1 then
    (s.bump R.PEN_RX_FALSE_CNT).onPen fun p => { p with rx := 2, cand := some c, second := none }
  else s.onPen fun p => { p with second := some c }

/-- The candidate in which a correlator looks for a burgee word: the primary's in WAIT, the secondary's while it is unmatched. -/
def waitingCandidate (s : State) (secondary : Bool) : Option Candidate :=
  let p := s.dp.pen
  (if secondary then p.second else if p.rx = 1 then p.cand else none).filter fun c =>
    !c.matched && !c.over p.blockNo && decide (32 ≤ c.soft.length)

/-- A valid header is taken up: N codewords follow (R220, R221). -/
def takeHeader (s : State) (h : Nat) : State :=
  s.onPen fun p =>
    { p with rx := 3, head := h, nCw := penCodewords (penLenM1 h), info := [], failed := false,
             whiten := lfsrState 9 4 32 0x1FF }

/-- The secondary's matched candidate is strong enough to capture the current pennant (R226). -/
def capturing (s : State) : Bool :=
  match s.dp.pen.second, s.dp.pen.cand with
  | some c, some cur =>
    (s.dp.pen.rx == 2 || s.dp.pen.rx == 3) && c.matched && captures (s.cfg F.PEN_RX_CFG_cap_db) c.xs cur.xs
  | _, _ => false

/-- The secondary correlator keeps the candidate that it holds. -/
def keepsSecond (s : State) : Bool :=
  match s.dp.pen.second with
  | some c => !c.matched || s.capturing
  | none => false

/-- The 32 header bits without their whitening (R221). -/
def plainHeader (bits : List Bool) : Nat := ofMsb (List.zipWith (· != ·) bits (lfsr 9 4 32 0x1FF))

/-- The event and status of mail that has ended (R229). -/
def mailEnd (s : State) (state : Nat) : State :=
  let q := s.dp.pen.mbSeq
  ((s.onPen fun p => { p with mbState := state, mbWait := false, waiting := p.waiting.filter (·.1 != 4) }).logEvent srcPen
    0xB001 state q).raiseEv 4 9

/-- The mail is sent, or sent again (R229). -/
def mailQueue (s : State) : State :=
  let p := s.dp.pen
  (s.queuePen 4 { kind := 2, payload := p.mbMail, seq := some p.mbSeq, accept := false }).onPen fun p =>
    { p with mbTries := p.mbTries + 1, mbWait := false }

/-- Resend, up to mb_retries resends; then the mail has failed (R229). -/
def mailRetry (s : State) : State :=
  if s.dp.pen.mbTries < 1 + s.cfg F.PEN_MB_CFG_mb_retries then s.mailQueue else s.mailEnd 3

/-- An accepted acknowledgement (R229): only one for the mail that waits counts. -/
def mailAck (s : State) (seq status : Nat) : State :=
  let p := s.dp.pen
  if p.mbState ≠ 1 ∨ p.mbSeq ≠ seq then s
  else if status = 0 then s.mailEnd 2
  else if status = 1 ∧ p.mbWait then s.mailRetry
  else s

/-- Answer a mail (R230). -/
def mailAnswer (s : State) (seq status : Nat) : State :=
  s.queuePen 3 { kind := 3, payload := [BitVec.ofNat 8 status], seq := some seq, accept := false }

/-- An accepted mail (R230). -/
def mailReceive (s : State) (seq : Nat) (bytes : List Byte) : State :=
  let p := s.dp.pen
  if p.lastMail = some seq then s.mailAnswer seq 0
  else if p.rxQueue.length < 2 then
    let s := s.onPen fun p => { p with rxQueue := p.rxQueue ++ [{ seq := seq, bytes := bytes }], lastMail := some seq }
    (s.mailAnswer seq 0).logEvent srcPen 0xB002 seq (bytes.length - 1)
  else (s.bump R.PEN_MB_RX_OVF).mailAnswer seq 1

/-! ## Bring-up pennants (R140–R143, R159) -/

/-- A pennant in step 1. -/
def step1Pennant (s : State) (p : List Byte) (compat : Bool) (status : Nat) : State :=
  let nonce := be32 p 6
  if !compat then
    let changed := s.dp.link.status ≠ status
    let s := s.onLink fun l => { l with status := status, mismatch := true }
    if changed then s.logEvent srcLedger 0x8002 status 0 else s
  else
    let was := s.dp.link.mismatch
    let s := s.onLink fun l => { l with compatSeen := true, mismatch := false, status := 0 }
    let s := if was then s.logEvent srcLedger 0x8002 0 0 else s
    let s := if s.dp.link.cand ≠ nonce then (s.queueAccept nonce).onLink fun l => { l with cand := nonce } else s
    let s := if (byteAt p 0 = 2 ∨ byteAt p 0 = 3) ∧ be32 p 10 = s.dp.link.nonce then
        s.onLink fun l => { l with gotFrom := nonce } else s
    s.tryStep2

/-- An accepted bring-up pennant. -/
def bringupPennant (s : State) (p : List Byte) : State :=
  let msg := byteAt p 0
  let nonce := be32 p 6
  let l := s.dp.link
  if !s.cvMode ∨ nonce = l.nonce ∨ msg = 0 ∨ 3 < msg then s
  else
    -- offset 112 is byte 14, offset 116 straddles bytes 14 and 15
    let s := s.onLink fun l =>
      { l with peerSeenAt := some s.evr.time, peerStep := byteAt p 14 / 16,
               peerStatus := byteAt p 14 % 16 * 16 + byteAt p 15 / 16 }
    let status :=
      if byteAt p 1 / 16 ≠ 1 then 0x10
      else if byteAt p 1 % 16 ≠ s.lineMode ∨ byteAt p 2 ≠ s.laneMask then 0x11
      else if byteAt p 3 ≠ s.cfg (F.HL0_GROUP_code 0) then 0x12 else 0
    let compat := status == 0
    if l.step = 0 ∨ (l.step = 9 ∧ l.ignoring) then s
    else if l.step = 1 then s.step1Pennant p compat status
    else if l.step = 9 then
      if compat ∧ msg ≠ 3 then (s.enterStep1 true).step1Pennant p compat status else s
    else if msg = 1 ∧ nonce ≠ (s.reg R.LEDGER_LINK_PEER).toNat then
      let s := s.partnerRestart
      if s.dp.link.step = 1 then s.step1Pennant p compat status else s
    else s

/-! ## Acceptance (R223, R227, R232) -/

/-- An accepted pennant goes to its user. -/
def penDispatch (s : State) (h : Nat) (payload : List Byte) : State :=
  match penKind h with
  | 1 => if payload.length = 32 then s.bringupPennant payload else s
  | 2 => s.mailReceive (penSeq h) payload
  | 3 => s.mailAck (penSeq h) (byteAt payload 0)
  | _ => s.onPen fun p => { p with telemetry := payload, telSeq := penSeq h, telAt := s.evr.time }

/-- It is a reflection of one of the last four sent: it ended within refl_ms of the end of that transmission (R227). -/
def reflected (s : State) (h crc endUs : Nat) : Bool :=
  let w := s.cfg F.PEN_RX_CFG_refl_ms
  w != 0 && s.dp.pen.sent.any fun (h', c', t) =>
    h' == h && c' == crc && decide (endUs ≤ t + 1000 * w) && decide (t ≤ endUs + 1000 * w)

/-- The last codeword of a pennant, whose last symbol ended at `endUs`, is decoded. -/
def penComplete (s : State) (endUs : Nat) : State :=
  let p := s.dp.pen
  let n := penLenM1 p.head + 1
  let payload := bitsToBytes (p.info.take (8 * n))
  let crc := ofMsb ((p.info.drop (8 * n)).take 16)
  let s' := s.penSearch
  if p.failed ∨ crc ≠ penCrc p.head payload then s'.bump R.PEN_RX_CRC_ERR
  else
    let xs := match p.cand with | some c => c.xs | none => []
    let s := s'.setReg R.PEN_RX_AMP (BitVec.ofNat 32 (ampField s.blockSamples xs + 2 ^ 12 * esn0Field xs))
    if s.reflected p.head crc endUs then s.bump R.PEN_RX_SELF_CNT
    else ((s.bump R.PEN_RX_OK_CNT).raiseEv 4 8).penDispatch p.head payload

/-! ## Sending (R228–R231) -/

/-- The next pennant is sent: its seq is its type's counter, or the one that it carries. -/
def penSend (s : State) (now : Nat) : State :=
  match s.dp.pen.waiting with
  | [] => s
  | (_, x) :: rest =>
    let n := (s.dp.pen.seqs.find? (·.1 == x.kind)).elim 0 (·.2)
    let seq := x.seq.getD n
    let s := if x.seq.isSome then s else s.onPen fun p =>
      { p with seqs := (x.kind, (n + 1) % 256) :: p.seqs.filter (·.1 != x.kind) }
    let h := penHeader x.kind (x.payload.length - 1) seq
    s.onPen fun p =>
      { p with waiting := rest, sending := some x, sendHead := h, sendCrc := penCrc h x.payload,
               sendBits := penSymbols h x.payload, sendStart := now }

/-- 32 unmodulated symbols have passed since the last pennant (R228). -/
def penGap (s : State) (now : Nat) : Bool :=
  s.dp.pen.sendBits.isEmpty ||
    decide (s.dp.pen.sendStart + (s.dp.pen.sendBits.length + 32) * (25 * s.blockSamples) ≤ now)

/-- The pennant being sent has ended. -/
def penSent (s : State) (x : PenItem) (nowUs : Nat) : State :=
  let s := ((s.bump R.PEN_TX_CNT).raiseEv 4 10).onPen fun p =>
    { p with sending := none, sent := ((p.sendHead, p.sendCrc, nowUs) :: p.sent).take 4,
             mbWait := if x.kind = 2 ∧ x.seq = some p.mbSeq ∧ p.mbState = 1 then true else p.mbWait }
  if x.accept ∧ s.dp.link.step = 1 then
    (s.onLink fun l => { l with answered := be32 x.payload 10 }).tryStep2
  else s

/-- The mail of PEN_MB_TXk is taken up (R229). -/
def mailSend (s : State) : State :=
  if s.dp.pen.mbState = 1 then s
  else
    let n := s.rd F.PEN_MB_TX_CTRL_len_m1 + 1
    let bytes := ((List.range 64).flatMap fun k => leBytes 4 (s.reg (R.PEN_MB_TXk k)).toNat).take n
    let seq := (s.dp.pen.seqs.find? (·.1 == 2)).elim 0 (·.2)
    let s := s.onPen fun p =>
      { p with mbState := 1, mbTries := 0, mbSeq := seq, mbMail := bytes, mbWait := false,
               seqs := (2, (seq + 1) % 256) :: p.seqs.filter (·.1 != 2) }
    s.mailQueue

/-- PEN_MB_TX_CTRL.abort (R229). -/
def mailAbort (s : State) : State := if s.dp.pen.mbState = 1 then s.mailEnd 3 else s

/-- PEN_MB_RX_POP.pop (R230). -/
def mailPop (s : State) : State := s.onPen fun p => { p with rxQueue := p.rxQueue.drop 1 }

/-- The telemetry payload (R231). -/
def telemetryPayload (s : State) : List Byte :=
  let l := s.dp.link
  let snr (n : Fin 8) : Nat := if s.dp.rx[n].powered then s.rd (F.OLn_FDE_MSE_snr_q n) else 0
  let mon (c : Nat) : Nat := s.rd (F.HSK_RESc_value c) / 2 ^ 8
  bitsToBytes (msbBits 8 1 ++ msbBits 8 s.mgmt.dev.code ++ msbBits 4 l.step ++ msbBits 4 0 ++ msbBits 8 l.status
    ++ msbBits 16 (ofSigned 16 s.therm.tmax) ++ (List.finRange 8).flatMap (fun n => msbBits 10 (snr n))
    ++ s.dp.pen.fails.toList.flatMap (fun x => msbBits 16 x) ++ msbBits 32 (s.reg R.LEDGER_RX_LOSS_CNT).toNat
    ++ [s.cfg F.PEN_TEL_CFG_hc0, s.cfg F.PEN_TEL_CFG_hc1, s.cfg F.PEN_TEL_CFG_hc2, s.cfg F.PEN_TEL_CFG_hc3].flatMap
      (fun c => msbBits 16 (mon c))
    ++ msbBits 32 s.timeNs)

/-- What the PEN block's status registers read (R233). -/
def viewPennant (s : State) (a : Nat) : Option Word :=
  let p := s.dp.pen
  let words (bs : List Byte) (k : Nat) : Word := BitVec.ofNat 32 (leField bs (4 * k) 4)
  if a = R.PEN_STAT then some (BitVec.ofNat 32 (p.rx + 8 * b2n p.sending.isSome + 16 * Nat.min 7 p.waiting.length))
  else if a = R.PEN_MB_TX_STAT then some (BitVec.ofNat 32 (p.mbState + 4 * p.mbTries + 2 ^ 7 * p.mbSeq))
  else if a = R.PEN_MB_RX_STAT then
    some (BitVec.ofNat 32 (p.rxQueue.length + (match p.rxQueue with
      | m :: _ => 4 * (m.bytes.length - 1) + 2 ^ 10 * m.seq
      | [] => 0)))
  else if R.PEN_MB_RXk 0 ≤ a ∧ a ≤ R.PEN_MB_RXk 63 then
    some (match p.rxQueue with | m :: _ => words m.bytes ((a - R.PEN_MB_RXk 0) / 4) | [] => 0)
  else if a = R.PEN_TEL_STAT then
    some (if p.telemetry.isEmpty then 0
      else BitVec.ofNat 32 (Nat.min 0xFFFF ((s.evr.time - p.telAt) * 1000 / 32768) + 2 ^ 16 * p.telSeq + 2 ^ 24))
  else if R.PEN_TEL_RXk 0 ≤ a ∧ a ≤ R.PEN_TEL_RXk 11 then some (words p.telemetry ((a - R.PEN_TEL_RXk 0) / 4))
  else none

end State

open State

/-- PENNANT_PREAMBLE_DETECT (R224): in SEARCH the primary takes what either correlator detects. The secondary keeps the candidate
that it holds, but for a matched one that is too weak to capture the current pennant, which a later preamble replaces (DESIGN
CHOICE, log entry 120). -/
def execPennantPreambleDetect (secondary : Bool) (blocks : PenBlocks) (s : State) : Out :=
  let s := s.penBlocks blocks
  if !s.cfgOn F.PEN_CTRL_rx_en || !preambleHit s.penThr (lastSymbols s.dp.pen.signal) then .next s
  else if s.dp.pen.rx = 0 then .next (s.onPen fun p => { p with rx := 1, cand := some s.newCandidate })
  else if secondary then .next (if s.keepsSecond then s else s.onPen fun p => { p with second := some s.newCandidate })
  else .next s

/-- BURGEE_MATCH (R224–R226): the last 32 symbols of the correlator's candidate. -/
def execBurgeeMatch (secondary : Bool) (blocks : PenBlocks) (s : State) : Out :=
  let s := s.penBlocks blocks
  if !s.cfgOn F.PEN_CTRL_rx_en then .next s
  else
    match s.waitingCandidate secondary with
    | none => .next s
    | some c =>
      let word := c.soft.drop (c.soft.length - 32)
      let (s, d) := s.burgeeDiff word
      .next (if d ≤ s.burgeeTol then s.burgeeMatched secondary { c with matched := true, xs := signed word, soft := [] } else s)

/-- BURGEE_TIMEOUT (R224, R225). -/
def execBurgeeTimeout (blocks : PenBlocks) (s : State) : Out :=
  let s := s.penBlocks blocks
  match s.dp.pen.cand with
  | some c => if s.dp.pen.rx = 1 ∧ c.over s.dp.pen.blockNo then .next ((s.bump R.PEN_RX_FALSE_CNT).penSearch) else .next s
  | none => .next s

/-- PENNANT_HEADER_RECEIVED (R219, R224): 32 symbols have followed the burgee word. -/
def execPennantHeaderReceived (blocks : PenBlocks) (s : State) : Out :=
  let s := s.penBlocks blocks
  match s.dp.pen.cand with
  | some c =>
    if s.dp.pen.rx = 2 ∧ 32 ≤ c.soft.length then
      let (s, bits, c) := s.headerBits c
      let h := plainHeader bits
      .next (if penHeaderOk h then (s.onPen fun p => { p with cand := some c }).takeHeader h
        else (s.bump R.PEN_RX_HDR_ERR).penSearch)
    else .next s
  | none => .next s

/-- PENNANT_CAPTURE (R226): the header of the secondary's matched candidate. -/
def execPennantCapture (blocks : PenBlocks) (s : State) : Out :=
  let s := s.penBlocks blocks
  match s.dp.pen.second with
  | some c =>
    if s.capturing ∧ 32 ≤ c.soft.length then
      let (s, bits, c) := s.headerBits c
      let h := plainHeader bits
      let s := s.onPen fun p => { p with second := none }
      .next (if penHeaderOk h then
          ((s.bump R.PEN_RX_CAPTURE_CNT).onPen fun p => { p with cand := some c }).takeHeader h
        else s)
    else .next s
  | none => .next s

/-- PENNANT_CODEWORD_DECODED (R216, R223, R227): the next 1,024 symbols, without their whitening. -/
def execPennantCodewordDecoded (blocks : PenBlocks) (endUs : Nat) (s : State) : Out :=
  let s := s.penBlocks blocks
  match s.dp.pen.cand with
  | some c =>
    if s.dp.pen.rx = 3 ∧ 1024 ≤ c.soft.length then
      let w := lfsr 9 4 1024 s.dp.pen.whiten
      let codes := List.zipWith (fun x o => let l := scaledLlr c.xs x; if o then -l else l) (c.soft.take 1024) w
      let (bits, ok) := shortCode.decode 12 s.penIter codes shortCode.noMsgs
      let s := s.onPen fun p =>
        { p with info := p.info ++ bits.take 512, failed := p.failed || !ok, whiten := lfsrState 9 4 1024 p.whiten,
                 cand := some { c with soft := c.soft.drop 1024 } }
      .next (if 512 * s.dp.pen.nCw ≤ s.dp.pen.info.length then s.penComplete endUs else s)
    else .next s
  | none => .next s

/-- PENNANT_TX_START (R228): at least 32 unmodulated symbols have followed the pennant sent last. -/
def execPennantTxStart (now : Nat) (s : State) : Out :=
  if s.cfgOn F.PEN_CTRL_tx_en && s.dp.pen.sending.isNone && s.penGap now then .next (s.penSend now) else .next s

/-- PENNANT_TX_END (R142, R227–R229). -/
def execPennantTxEnd (nowUs : Nat) (s : State) : Out :=
  match s.dp.pen.sending with
  | some x => .next (s.penSent x nowUs)
  | none => .next s

/-- MAIL_ACK_TIMEOUT (R229). -/
def execMailAckTimeout (s : State) : Out :=
  if s.dp.pen.mbState = 1 ∧ s.dp.pen.mbWait then .next s.mailRetry else .next s

/-- TELEMETRY_TIMER (R231). -/
def execTelemetryTimer (s : State) : Out :=
  if s.cfg F.PEN_TEL_CFG_tel_ms = 0 then .next s
  else
    let p := s.telemetryPayload
    .next ((s.queuePen 5 { kind := 4, payload := p, seq := none, accept := false }).onPen fun q =>
      { q with fails := Vector.replicate 8 0 })

end Sys2Proof.Machine
end

