-- ==== Sys2Proof/Machine/Access.lean ====
section
/-!
DEFINITION. Accesses to device space from a management port or an engine: what a read of an address returns and does, and
what a write of it does (R6–R9, R74, R251–R265, R305–R307, R323, R352, R358, R377, R381).
-/

namespace Sys2Proof.Machine

/-- Who makes an access: the port as TOP_CMD_STAT.port codes it, the engine, the PC of its instruction, the nanoseconds to
the next boundary (R258), and the gates with an access in progress (R306). -/
structure Source where
  port : Fin 5
  eng : Option (Fin 9)
  pc : Nat
  ns : Nat
  inProgress : Nat
  deriving DecidableEq, Repr

/-- An engine's access. -/
def Source.ofEngine (e : Fin 9) (pc ns : Nat) : Source := { port := 4, eng := some e, pc := pc, ns := ns, inProgress := 0 }

/-- An access on a port that reaches the next boundary in time. Port 4 in a row of the table stands for IG-M. -/
def Source.ofPort (port : Fin 5) (ns inProgress : Nat) : Source :=
  { port := port, eng := if port = 4 then some 0 else none, pc := 0, ns := ns, inProgress := inProgress }

/-- Each port and each engine has its own latches of _HI halves (R253). -/
def Source.latchKey (x : Source) (a : Nat) : Nat := (match x.eng with | some e => 5 + e.val | none => x.port.val) * 2 ^ 32 + a

/-- The bits of `m` take those of `v`. -/
def merge (old : Word) (m : Nat) (v : Word) : Word := (old &&& ~~~ BitVec.ofNat 32 m) ||| (v &&& BitVec.ofNat 32 m)

namespace State

/-! ## What a register reads -/

/-- PWR_STATE (R323). -/
def viewPwr (s : State) (a : Nat) : Option Word :=
  if a = R.PWR_STATE then
    let phase := match s.pwr.phase with | .none => 0 | .asking => 1 | .preparing => 2 | .final => 3 | .exiting => 4
    some (BitVec.ofNat 32 (s.pwr.pstate + 2 ^ 2 * s.pwr.target + 2 ^ 4 * phase + 2 ^ 16 * s.pwr.asking))
  else none

/-- FRAMER_STAT (R74). -/
def viewFramer (s : State) (a : Nat) : Option Word :=
  if a = R.FRAMER_STAT then
    let q := s.dp.framer.ready.length
    some (BitVec.ofNat 32 (q + 2 ^ 10 * b2n (q == 512) + 2 ^ 11 * s.dp.framer.laneStatus))
  else none

/-- TOP_STATE, TOP_INT and MEM_STAT.dram_ready. -/
def viewTop (s : State) (a : Nat) : Option Word :=
  if a = R.TOP_STATE then some s.topState
  else if a = R.TOP_INT then some s.topInt
  else if a = R.MEM_STAT then
    some (putField (s.reg a) 0 1 (b2n (s.flag F.MEM_STAT_dram_ready && !s.flag F.MEM_STAT_dram_sr)))
  else none

/-- The registers that report what a block does. -/
def view (s : State) (a : Nat) : Option Word :=
  s.viewTop a <|> s.viewClk a <|> s.viewPwr a <|> s.viewHsk a <|> s.viewBias a <|> s.viewTherm a <|> s.viewSafe a
    <|> s.viewEvr a <|> s.viewBist a <|> s.viewIgs a <|> s.viewTime a <|> s.viewPennant a <|> s.viewHost a
    <|> s.viewCal a <|> s.viewFrontEnd a <|> s.viewPool a <|> s.viewLedger a <|> s.viewLane a <|> s.viewFramer a

/-- What the register at an address holds: its staged bits from the staged copy, or in the in-force view from the copy in
force (R256, R257); WO bits read 0 (R8). -/
def word (s : State) (inForce : Bool) (a : Nat) : Word :=
  let d := desc a
  if inForce ∧ d.stg ≠ 0 then merge (merge (s.reg a) d.stg (s.inForceReg a)) d.wo 0
  else match s.view a with
    | some w => w
    | none => merge (merge (s.reg a) d.stg (s.stagedReg a)) d.wo 0

/-! ## The always-on mirror (R264) -/

/-- The registers of a block's map. -/
def descAddrs (base : Nat) (ds : List RegDesc) : List Nat :=
  ds.flatMap fun d => (List.range d.cnt).map fun i => base + d.off + i * d.stride

/-- The registers that read through the mirror: PWR, THERM but for THERM_CTRL, and the oscillator's (R308, R323, R353). -/
def mirrorAddrs : List Nat :=
  descAddrs 0x20000 regsPWR ++ (descAddrs 0x50000 regsTHERM).filter (· != R.THERM_CTRL) ++ [R.CLK_OSC_TRIM, R.CLK_OSC_ERR]

/-- The mirror is refreshed in each always-on cycle. -/
def refreshMirror (s : State) : State :=
  let m : RegMap := mirrorAddrs.foldl (fun m a => mapSet (resetWord a) m a (s.word false a)) []
  { s with mgmt := { s.mgmt with mirror := m } }

/-- In SLEEP the ports reach PWR itself. -/
def mirrored (s : State) (a : Nat) : Bool := s.mgmt.dev != .sleep && mirrorAddrs.contains a

/-! ## Blocks that do not answer -/

/-- The gate of a block's clock (R305). -/
def gateOf (a : Nat) : Option Nat :=
  match a / 0x10000 with
  | 0x03 => some 0
  | 0x04 => some 1
  | 0x09 => some 2
  | 0x33 => some 3
  | _ => none

/-- The address lies in a gated block: a read returns 0 and a write is ignored, without an error. -/
def gated (s : State) (a : Nat) : Bool := match gateOf a with | some i => !s.gateOpen i | none => false

/-- The registers of a block live in a clock domain that is off: true where a read is a handshake that is not acknowledged
(R265), false where the block's chapter lets a powered-down lane read 0 (R102, R213). -/
def domainOff (s : State) (a : Nat) : Option Bool :=
  if 0x100000 ≤ a ∧ a < 0x200000 then
    if s.dpOff then some false else none
  else if 0x200000 ≤ a ∧ a < 0x280000 then
    let n : Fin 8 := Fin.ofNat 8 ((a - 0x200000) / 0x10000)
    let o := (a - 0x200000) % 0x10000
    if 0x100 ≤ o ∧ o < 0x420 then (if s.dp.rx[n].powered && !s.dpOff then none else some false)
    else if s.dpOff then some true else none
  else if (0x300000 ≤ a ∧ a < 0x330000) ∨ (0xB0000 ≤ a ∧ a < 0xD0000) then (if s.dpOff then some true else none)
  else none

/-- A setting of CLK_BUS_CTRL that keeps R307's ratio: fab_div outside 4–8 acts as 4, per_div below 8 as 16. -/
def ratioOk (s : State) : Bool :=
  let f := if 4 ≤ s.rd F.CLK_BUS_CTRL_fab_div ∧ s.rd F.CLK_BUS_CTRL_fab_div ≤ 8 then s.rd F.CLK_BUS_CTRL_fab_div else 4
  let p := if 8 ≤ s.rd F.CLK_BUS_CTRL_per_div then s.rd F.CLK_BUS_CTRL_per_div else 16
  p % f == 0 && decide (2 * f ≤ p)

/-- An access crosses between the buses under a broken ratio (R307): whether it goes wrong is open. -/
def crossesBroken (s : State) (a : Nat) : Bool := decide (0x10000 ≤ a) && decide (a < 0xD0000) && !s.ratioOk

/-! ## Reads -/

/-- What a largest depth since the last read is at once after that read: the depth that stands (R74, R213). -/
def standing (s : State) (a : Nat) : Nat :=
  if a = R.FRAMER_QUEUE_HWM then s.dp.framer.ready.length
  else if 0x100000 ≤ a ∧ a < 0x200000 ∧ a % 0x10000 = 0x128 then
    match s.portAt (Fin.ofNat 16 ((a - 0x100000) / 0x10000)) with
    | some p => s.dp.ports[p].eb.length / 4
    | none => 0
  else 0

/-- A register with RC fields is read: they clear, but for what hardware adds or sets in the same cycle (R9), which stands
from the lowest RC bit. -/
def clearRc (s : State) (a same : Nat) : State :=
  let m := (desc a).rc
  if m = 0 then s
  else s.setReg a (merge (s.reg a) m (BitVec.ofNat 32 (Nat.max same (s.standing a) * (m ^^^ (m &&& (m - 1))))))

/-- The registers split into _LO and _HI whose _LO latches its _HI (R74, R132, R213, R390, R406). -/
def isLo (a : Nat) : Bool :=
  [R.FRAMER_CNT_DATA_LO, R.FRAMER_CNT_REPLAY_LO, R.FRAMER_CNT_FILLER_LO, R.EVR_TIME_LO].contains a
    || (List.range 8).any (fun n => [R.FEC_LANEn_CW_LO n, R.FEC_LANEn_ITER_LO n, R.FEC_LANEn_BITS_LO n].contains a)
    || (List.range 16).any (fun n => [R.HLn_FEC_CORR_LO n, R.HLn_FEC_SYM_LO n].contains a)
    || (List.range 9).any (fun e => R.IGS_En_CYC_LO e == a)

def setLatch (s : State) (k : Nat) (w : Option Word) : State :=
  { s with mgmt := { s.mgmt with hiLatch := mapSet none s.mgmt.hiLatch k w } }

/-- A plain read, with the latches of R253: the read of _LO latches _HI, and the next read of _HI returns it. -/
def latchRead (s : State) (x : Source) (inForce : Bool) (a same : Nat) : State × Word :=
  let w := if s.mirrored a then mapGet (resetWord a) s.mgmt.mirror a else s.word inForce a
  if isLo a then (s.setLatch (x.latchKey (a + 4)) (some (s.word inForce (a + 4))), w)
  else match mapGet none s.mgmt.hiLatch (x.latchKey a) with
    | some h => (s.setLatch (x.latchKey a) none, h)
    | none => (s.clearRc a same, w)

/-- A read of PMON_DATA (R263). -/
def pmonRead (s : State) : State × Word :=
  let at_ := (s.reg R.PMON_ADDR).toNat
  let counter := (desc at_).ctr
  let w := if counter then mapGet (resetWord at_) s.mgmt.snapBank at_ else 0
  let s := (s.wr F.PMON_STAT_not_counter (b2n !counter)).wr F.PMON_STAT_stale (s.rd F.TOP_SNAP_busy)
  (s.setReg R.PMON_ADDR (BitVec.ofNat 32 (at_ + 4)), w)

/-- The index of the dither table advances (R339). -/
def tblAdvance (s : State) : State := s.wr F.BIAS_TBL_ADDR_index (s.rd F.BIAS_TBL_ADDR_index + 1)

/-- A word of the fatal dump (R404, R406): pages beyond it read 0. -/
def dumpRead (s : State) (k : Nat) : State × Word × Bool :=
  let page := s.rd F.EVR_DUMP_PAGE_page
  let at_ := page * 4096 + 4 * k
  if s.rd F.EVR_DUMP_STAT_pages ≤ page then (s, 0, false)
  else if s.flag F.EVR_DUMP_STAT_area then
    (s, BitVec.ofNat 32 (ofLeBytes ((List.range 4).map fun i => mapGet 0 s.dump.area (at_ + i))), false)
  else if !s.dramReady then (s, 0, false)
  else
    let (s, poison) := s.dramRead at_ 4
    (s, BitVec.ofNat 32 (ofLeBytes (s.dramBytes at_ 4)), poison)

/-- A read of a register that answers: the word, and whether its data carry poison. -/
def regRead (s : State) (x : Source) (inForce : Bool) (a same : Nat) : State × Word × Bool :=
  let plain (r : State × Word) : State × Word × Bool := (r.1, r.2, false)
  if a = R.PMON_DATA then plain s.pmonRead
  else if a = R.EVR_WINk 0 then let s := s.evrWin0; (s, s.evrWord 0, false)
  else if a = R.EVR_WINk 3 then (s.wr F.EVR_CURSOR_index (s.rd F.EVR_CURSOR_index + 1), s.evrWord 3, false)
  else if a = R.TIME_NOW_NS then plain s.timeRead
  else if R.EVR_DUMP_WIN 0 ≤ a ∧ a ≤ R.EVR_DUMP_WIN 1023 then s.dumpRead ((a - R.EVR_DUMP_WIN 0) / 4)
  else if a = R.BIAS_TBL_DATA then
    let k := keyDither (s.rd F.BIAS_TBL_ADDR_index)
    if inForce then (s, s.inForceReg k, false) else (s.tblAdvance, s.stagedReg k, false)
  else if 0x200000 ≤ a ∧ a < 0x280000 ∧ a % 0x10000 = 0x54 then
    let n := (a - 0x200000) / 0x10000
    let k := keyPd n (s.rd (F.OLn_TX_PD_ADDR_index n))
    (s, if inForce then s.inForceReg k else s.stagedReg k, false)
  else if 0x200000 ≤ a ∧ a < 0x280000 ∧ a % 0x10000 = 0x324 then plain (s.tapRead (Fin.ofNat 8 ((a - 0x200000) / 0x10000)))
  else if 0xD1000 ≤ a ∧ a < 0xD1900 ∧ a % 0x100 = 0x1C then
    let e : Fin 9 := Fin.ofNat 9 ((a - 0xD1000) / 0x100)
    if s.debugPort x.port e then s.memDataRead e else (s, 0, false)
  else plain (s.latchRead x inForce a same)

/-- What keeps a read: staged registers live in the fabric domain. -/
def readOff (s : State) (a : Nat) : Option Bool := if (desc a).stg = 0 then s.domainOff a else none

/-- A read of a block's register, after what keeps the block from answering. -/
def devRead (s : State) (x : Source) (inForce : Bool) (a same : Nat) : State × Word × Bool :=
  if !blockMapped a then ((s.setTopErr F.TOP_ERR_unmapped).bump R.TOP_BUS_ERR_CNT, 0, false)
  else if (regDesc a).isNone ∨ s.gated a then (s, 0, false)
  else if s.crossesBroken a ∧ s.freeNat % 2 = 1 then
    let s := s.drew
    (s.drew, BitVec.ofNat 32 s.freeNat, false)
  else
    let s := if s.crossesBroken a then s.drew else s
    match s.readOff a with
    | some true => (s.setTopErr F.TOP_ERR_xd_timeout, 0, false)
    | some false => (s, 0, false)
    | none =>
      let (s, poison) := s.regReadEcc a
      let (s, w, p) := s.regRead x inForce a same
      (s, w, poison || p)

/-- The DRAM byte that an address of the window reaches (R255). -/
def winByte (s : State) (a : Nat) : Nat := s.rd F.TOP_DRAM_WIN_page * 2 ^ 28 + (a - 0x10000000)

/-- The address lies in the DRAM window, and in the in-force view. -/
def inWindow (a : Nat) : Bool := decide (0x10000000 ≤ a) && decide (a < 0x20000000)
def inView (a : Nat) : Bool := decide (0x80000000 ≤ a) && decide (a < 0x80400000)

/-- An address is that of an aligned word. -/
def aligned (a : Nat) : Nat := a / 4 * 4

/-- A read of the DRAM window (R255). -/
def windowRead (s : State) (a : Nat) : State × Word × Bool :=
  if !s.dramReady then (s.setTopErr F.TOP_ERR_dram_win, 0, false)
  else
    let (t, poison) := s.dramRead (s.winByte a) 4
    (t, BitVec.ofNat 32 (ofLeBytes (t.dramBytes (s.winByte a) 4)), poison)

/-- A read of device space: the word, and whether its data carry poison. -/
def busRead (s : State) (x : Source) (addr same : Nat) : State × Word × Bool :=
  let a := aligned addr
  if !s.reach x.port a then (s, 0, false)
  else if inWindow a then s.windowRead a
  else if inView a then s.devRead x true (a - 0x80000000) same
  else s.devRead x false a same

/-! ## Writes -/

/-- What every write leaves in its register: staged bits in the staged copy, RW bits, cleared W1C bits (R8, R256). -/
def plainWrite (s : State) (a : Nat) (v : Word) : State :=
  let d := desc a
  let s := if d.stg = 0 then s else s.setStaged a (merge (s.stagedReg a) d.stg v)
  let rw := d.rw &&& (0xFFFFFFFF - d.stg)
  if rw = 0 ∧ d.w1c = 0 then s
  else noticeSummary s.summary (s.setReg a (merge (s.reg a) rw v &&& ~~~ (v &&& BitVec.ofNat 32 d.w1c)))

/-- TOP_COMMIT.go (R258): ignored while a commit is pending. -/
def commitGo (s : State) (ns : Nat) : State :=
  if s.flag F.TOP_COMMIT_busy then s
  else ({ s with mgmt := { s.mgmt with commitSkip := decide (ns < 40) } }).wr F.TOP_COMMIT_busy 1

/-- TOP_SNAP.go (R261, R262): ignored while a snapshot is being taken. -/
def snapGo (s : State) (clear : Bool) : State :=
  if s.flag F.TOP_SNAP_busy then s
  else ({ s with mgmt := { s.mgmt with snapClear := clear, snapTaken := false } }).wr F.TOP_SNAP_busy 1

/-- Registers of TOP and PMON whose write does more than store. -/
def topWrite (s : State) (x : Source) (a : Nat) (v : Word) : Option State :=
  if a = R.TOP_COMMIT then some (if v.getLsbD 0 then s.commitGo x.ns else s)
  else if a = R.TOP_SNAP then some (if v.getLsbD 0 then s.snapGo (v.getLsbD 1) else s)
  else if a = R.TOP_CMD then some (s.cmdWrite x.port (getField v 0 8))
  else if R.TOP_CMD_ARGk 0 ≤ a ∧ a ≤ R.TOP_CMD_ARGk 3 then some (if s.cmdBusy then s else s.plainWrite a v)
  else if a = R.PMON_ADDR then some (s.setReg a (v &&& ~~~ 3))
  else none

/-- Registers of CLK, SEC, EVR and MEM whose write acts. -/
def baseWrite (s : State) (x : Source) (a : Nat) (v : Word) : Option State :=
  if a = R.CLK_GATE then some (s.gateWrite v x.inProgress)
  else if a = R.CLK_REF_CTRL then
    let s := s.plainWrite a v
    some ((if v.getLsbD 2 then s.refRevert else s).reviewForce)
  else if a = R.SEC_FUSE_CTRL then
    some (if v.getLsbD 3 then s.fuseGo (getField v 0 3) else s.plainWrite a v)
  else if a = R.EVR_CTRL then some (s.evrFreeze (v.getLsbD 0))
  else if a = R.MEM_INJ_CTRL then some (s.injWrite v)
  else if a = R.MEM_CLEAR_CTRL then some (if v.getLsbD 0 then s.memClear else s)
  else if a = R.CAP_CTRL then some (if v.getLsbD 0 then s.capAbort else s)
  else none

/-- Registers of TIME and PEN whose write acts (R229, R230, R237, R249). -/
def linkWrite (s : State) (a : Nat) (v : Word) : Option State :=
  if a = R.TIME_PPS_EXP then some (s.expWrite v)
  else if a = R.TIME_STEP then some (if s.dp.time.step.isSome then s else s.plainWrite a v)
  else if a = R.TIME_STEP_CTRL then
    let s := s.plainWrite a v
    some (if v.getLsbD 0 then s.timeStepGo (v.getLsbD 1) else s)
  else if a = R.TIME_SERVO_OFS then some (s.servoWrite v)
  else if a = R.PEN_MB_TX_CTRL then
    let s := s.plainWrite a v
    let s := if v.getLsbD 8 then s.mailSend else s
    some (if v.getLsbD 9 then s.mailAbort else s)
  else if R.PEN_MB_TXk 0 ≤ a ∧ a ≤ R.PEN_MB_TXk 63 ∧ s.dp.pen.mbState = 1 then some s
  else if a = R.PEN_MB_RX_POP then some (if v.getLsbD 0 then s.mailPop else s)
  else none

/-- Registers of an optical lane whose write acts: their WO bits, the staged predistorter entries and the taps (R64, R67,
R82, R94). -/
def opticalWrite (s : State) (a : Nat) (v : Word) : Option State :=
  if a < 0x200000 ∨ 0x280000 ≤ a then none
  else
    let n : Fin 8 := Fin.ofNat 8 ((a - 0x200000) / 0x10000)
    match (a - 0x200000) % 0x10000 with
    | 0x54 => some (s.setStaged (keyPd n (s.rd (F.OLn_TX_PD_ADDR_index n))) (v &&& 0x7F))
    | 0x60 => let s := s.plainWrite a v; some (if v.getLsbD 1 then s.dacRequest n else s)
    | 0x110 => let s := s.plainWrite a v; some (if v.getLsbD 1 then s.adcRequest n else s)
    | 0x324 => some (s.tapWrite n v)
    | _ => none

/-- Registers of a host lane whose write acts (R197, R210, R213). -/
def hostWrite (s : State) (a : Nat) (v : Word) : Option State :=
  if a < 0x100000 ∨ 0x200000 ≤ a then none
  else
    let n : Fin 16 := Fin.ofNat 16 ((a - 0x100000) / 0x10000)
    let o := (a - 0x100000) % 0x10000
    let on := s.hostUsed n && !s.dpOff
    if 0x100 ≤ o ∧ o ≤ 0x130 ∧ (s.portAt n).isNone then some s
    else if o = 0xC then let s := s.plainWrite a v; some (if v.getLsbD 8 && on then s.hostToDown n else s)
    else if o = 0x14 then
      let s := s.plainWrite a v
      let s := if v.getLsbD 7 && on then s.prbsSeed n else s
      let s := if v.getLsbD 8 && on then s.prbsSlipBit n else s
      some (if v.getLsbD 9 && on then s.prbsSlipSym n else s)
    else none

/-- Registers of IGS whose write acts (R380, R385, R386, R388, R391). IGS_En_CTRL.step is `engineStep`. -/
def igsWrite (s : State) (x : Source) (a : Nat) (v : Word) (bad : Option Nat) : Option State :=
  if a = R.IGS_FREEZE then some (s.freezeWrite v)
  else if a < 0xD1000 ∨ 0xD1900 ≤ a then none
  else
    let e : Fin 9 := Fin.ofNat 9 ((a - 0xD1000) / 0x100)
    let debug := s.debugPort x.port e
    match (a - 0xD1000) % 0x100 with
    | 0x00 =>
      if !debug then some s
      else
        let s := if v.getLsbD 0 then s.engineHalt e else s
        let s := if v.getLsbD 1 then s.engineRun e else s
        some (if v.getLsbD 3 then s.engineRestart e else s)
    | 0x08 => some (if x.eng = some e then s.plainWrite a v else s)
    | 0x0C => some (if v.getLsbD 0 then s.raiseEv e 2 else s)
    | 0x10 => some (s.powerAnswer e (getField v 0 2) (getField v 2 4))
    | 0x14 => some (s.engineLog e (getField v 0 16) (getField v 16 16) (if x.eng = some e then x.pc else s.eng[e].pc))
    | 0x18 => some (if debug then s.plainWrite a v else s)
    | 0x1C => some (if debug then s.memDataWrite e v bad else s)
    | _ => none

/-- A write of a SAFE register (R352). -/
def safeRegWrite (s : State) (x : Source) (a : Nat) (v : Word) : Option State :=
  if a / 0x10000 ≠ 6 ∨ a = R.SAFE_INT ∨ a = R.SAFE_INT_EN then none
  else if x.eng = some 1 then some (s.safeWrite a (BitVec.ofNat 32 (desc a).spw) v) else some s.safeReject

/-- The write of a register that takes it: its own effect, or what every write leaves. -/
def regWrite (s : State) (x : Source) (a : Nat) (v : Word) (bad : Option Nat) : State :=
  (s.topWrite x a v <|> s.baseWrite x a v <|> s.linkWrite a v <|> s.opticalWrite a v <|> s.hostWrite a v
    <|> s.igsWrite x a v bad <|> s.safeRegWrite x a v).getD
  (if a = R.BIAS_TBL_DATA then
    (s.setStaged (keyDither (s.rd F.BIAS_TBL_ADDR_index)) (v &&& 0xFFFF)).tblAdvance
  else s.plainWrite a v)

/-- The staged registers: those with staged bits, and the two through which tables are staged. -/
def isStaged (a : Nat) : Bool := (desc a).stg != 0 || a == R.BIAS_TBL_DATA || (decide (0x200000 ≤ a) && a % 0x10000 == 0x54 && decide (a < 0x280000))

/-- A staged register is written while a commit is pending (R258). -/
def stageDrop (s : State) : State := (s.setTopErr F.TOP_ERR_stage_busy).bump R.TOP_STAGE_DROP_CNT

/-- A write of PWR takes effect at the next always-on cycle (R323). -/
def pwrWrite (s : State) (a : Nat) (v : Word) : State :=
  let s := s.plainWrite a v
  if a = R.PWR_WAKE_FAIL ∧ v.getLsbD 7 then s.wakeFailClear else s

/-- The PWR writes that wait take effect, in order. -/
def pwrSettle (s : State) : State :=
  let s' := { s with mgmt := { s.mgmt with pwrWrites := [] } }
  s.mgmt.pwrWrites.foldl (fun s w => s.pwrWrite w.1 w.2) s'

/-- A write of a block's register, after what keeps the block from taking it; a write that is taken leaves correct check bits
behind its address, or what an armed injection makes of them (R358). -/
def devWrite (s : State) (x : Source) (a : Nat) (v : Word) : State :=
  if !blockMapped a then (s.setTopErr F.TOP_ERR_unmapped).bump R.TOP_BUS_ERR_CNT
  else if (regDesc a).isNone ∨ s.gated a then s
  else if s.crossesBroken a ∧ s.freeNat % 2 = 1 then s.drew
  else
    let s := if s.crossesBroken a then s.drew else s
    if !isStaged a ∧ (s.domainOff a).isSome then s
    else if isStaged a ∧ s.flag F.TOP_COMMIT_busy then s.stageDrop
    else
      let (s, bad) := s.takeInjection a
      let s := s.onMem fun m => { m with regEcc := mapSet 0 m.regEcc a (bad.getD 0) }
      if a / 0x10000 = 2 then { s with mgmt := { s.mgmt with pwrWrites := s.mgmt.pwrWrites ++ [(a, v)] } }
      else s.regWrite x a v bad

/-- A write of the DRAM window (R255, R358). -/
def windowWrite (s : State) (a : Nat) (v : Word) : State :=
  if !s.dramReady then s.setTopErr F.TOP_ERR_dram_win
  else
    let (s, bad) := s.takeInjection a
    let s := s.dramWrite (s.winByte a) (leBytes 4 v.toNat)
    match bad with
    | some c => s.setDramCode (s.winByte a) c
    | none => s

/-- A write of device space. -/
def busWrite (s : State) (x : Source) (addr : Nat) (v : Word) : State :=
  let a := aligned addr
  if !s.reach x.port a then s
  else if inWindow a then s.windowWrite a v
  else if inView a then s.setTopErr F.TOP_ERR_alias_write
  else s.devWrite x a v

end State

end Sys2Proof.Machine
end

