-- ==== Sys2Proof/Machine/IgsBus.lean ====
section
/-!
DEFINITION. The Igsin instructions that reach device space (R377, R381, R382), the write buffer, and single-stepping by a
debugger (R385).
-/

namespace Sys2Proof.Machine

namespace State

/-- The oldest entry of an engine's write buffer completes (R377). -/
def drainOne (s : State) (e : Fin 9) (ns : Nat) : State :=
  match s.eng[e].wbuf with
  | [] => s
  | (a, v, pc) :: t => (s.onEng e fun g => { g with wbuf := t }).busWrite (Source.ofEngine e pc ns) a v

/-- The whole buffer drains, in order. -/
def drainAll (s : State) (e : Fin 9) : State := s.eng[e].wbuf.foldl (fun s _ => s.drainOne e 40) s

/-- A device-space address: the faults of R382, a misaligned one first (log entry 7). -/
def busFault (s : State) (e : Fin 9) (addr : Word) (write : Bool) : Option Nat :=
  if addr.toNat % 4 ≠ 0 then some 5 else if !s.engineMay e addr.toNat write then some 4 else none

/-- A block whose reads are handshakes (R264): TIME, PEN and the datapath. -/
def handshakeBlock (a : Nat) : Bool := decide (0xB0000 ≤ a) && a / 0x10000 != 0xD && a / 0x10000 != 0xE && a / 0x10000 != 0x33

/-- The cycles of a BRD (R377): 6 for TOP, PMON and IGS, 6 + 2 × per_div / fab_div on the peripheral bus, and the handshake
time, at most 256, in the datapath domains. -/
def brdCycles (s : State) (a handshake : Nat) : Nat :=
  if a / 0x10000 = 0 ∨ a / 0x10000 = 0xD ∨ a / 0x10000 = 0xE then 6
  else if !handshakeBlock a then
    let f := if 4 ≤ s.rd F.CLK_BUS_CTRL_fab_div ∧ s.rd F.CLK_BUS_CTRL_fab_div ≤ 8 then s.rd F.CLK_BUS_CTRL_fab_div else 4
    let p := if 8 ≤ s.rd F.CLK_BUS_CTRL_per_div then s.rd F.CLK_BUS_CTRL_per_div else 16
    6 + 2 * p / f
  else Nat.min 256 handshake

/-- How long an instruction waits for earlier writes is not in the state: free where some wait (log entry 5). -/
def waitFor (s : State) (waits : Bool) : State × Nat := if waits then (s.drew, s.freeNat) else (s, 0)

/-- An engine's read: a handshake that is not acknowledged within 256 cycles answers 0 (R265). -/
def engineRead (s : State) (e : Fin 9) (pc a handshake : Nat) : State × Word × Bool :=
  if handshakeBlock a ∧ 256 < handshake then (s.setTopErr F.TOP_ERR_xd_timeout, 0, false)
  else s.busRead (Source.ofEngine e pc 40) a 0

/-- BRD (R377): the engine's earlier writes complete first. Data that carry poison set TOP_ERR.poison and trap (R265, R377). -/
def doBrd (s : State) (e : Fin 9) (d a : Fin 16) (imm : BitVec 18) (handshake : Nat) : State :=
  s.issue e fun s =>
    let addr := s.eng[e].g[a] + imm.signExtend 32
    let pc := s.eng[e].pc
    match s.busFault e addr false with
    | some c => s.engineTrap e c
    | none =>
      let (s, wait) := s.waitFor (!s.eng[e].wbuf.isEmpty)
      let s := s.drainAll e
      let n := s.brdCycles addr.toNat handshake
      let (s, w, poison) := s.engineRead e pc addr.toNat handshake
      if poison then (s.setTopErr F.TOP_ERR_poison).engineTrap e 3
      else
        ((s.evCount e 6 1 pc).evCount e 10 n pc).complete e 0 (n + wait + s.ldStall e [a]) (pc + 1) fun g =>
          { g with g := g.g.set d w }

/-- BWR (R377): posted into the write buffer; on a full one it stalls until the oldest entry has drained. -/
def doBwr (s : State) (e : Fin 9) (src a : Fin 16) (imm : BitVec 18) : State :=
  s.issue e fun s =>
    let addr := s.eng[e].g[a] + imm.signExtend 32
    let pc := s.eng[e].pc
    match s.busFault e addr true with
    | some c => s.engineTrap e c
    | none =>
      let full := decide (4 ≤ s.eng[e].wbuf.length)
      let (s, wait) := s.waitFor full
      let s := if full then s.drainOne e 40 else s
      ((s.evCount e 7 1 pc).evCount e 8 wait pc).complete e 1 (wait + s.ldStall e [src, a]) (pc + 1) fun g =>
        { g with wbuf := g.wbuf ++ [(addr.toNat, g.g[src], pc)] }

end State

/-- BRD (R377). -/
def execBrd (e : Fin 9) (d a : Fin 16) (imm : BitVec 18) (handshake : Nat) (s : State) : Out :=
  .next (s.whenRuns e fun s => s.doBrd e d a imm handshake)

/-- BWR (R377). -/
def execBwr (e : Fin 9) (src a : Fin 16) (imm : BitVec 18) (s : State) : Out :=
  .next (s.whenRuns e fun s => s.doBwr e src a imm)

/-- ENGINE_WRITE_DRAIN (R377). -/
def execEngineWriteDrain (e : Fin 9) (nsToBoundary : Nat) (s : State) : Out := .next (s.drainOne e nsToBoundary)

/-- The instruction that a program word spells. -/
def igsExec (i : Instr) (s : State) : Out :=
  match i with
  | .nopInstruction e => execNopInstruction e s
  | .add e d a b => execAdd e d a b s
  | .sub e d a b => execSub e d a b s
  | .and e d a b => execAnd e d a b s
  | .or e d a b => execOr e d a b s
  | .xor e d a b => execXor e d a b s
  | .shl e d a b => execShl e d a b s
  | .shr e d a b => execShr e d a b s
  | .sar e d a b => execSar e d a b s
  | .mul e d a b => execMul e d a b s
  | .slt e d a b => execSlt e d a b s
  | .sltu e d a b => execSltu e d a b s
  | .min e d a b => execMin e d a b s
  | .max e d a b => execMax e d a b s
  | .addi e d a i => execAddi e d a i s
  | .andi e d a i => execAndi e d a i s
  | .ori e d a i => execOri e d a i s
  | .xori e d a i => execXori e d a i s
  | .shli e d a i => execShli e d a i s
  | .shri e d a i => execShri e d a i s
  | .sari e d a i => execSari e d a i s
  | .movi e d i => execMovi e d i s
  | .movhi e d i => execMovhi e d i s
  | .ld e d a i => execLd e d a i s
  | .st e r a i => execSt e r a i s
  | .brd e d a i h => execBrd e d a i h s
  | .bwr e r a i => execBwr e r a i s
  | .beq e a b o => execBeq e a b o s
  | .bne e a b o => execBne e a b o s
  | .blt e a b o => execBlt e a b o s
  | .bge e a b o => execBge e a b o s
  | .bltu e a b o => execBltu e a b o s
  | .bgeu e a b o => execBgeu e a b o s
  | .j e t => execJ e t s
  | .call e t => execCall e t s
  | .ret e => execRet e s
  | .macc e a b => execMacc e a b s
  | .msub e a b => execMsub e a b s
  | .rdacc e d i => execRdacc e d i s
  | .clracc e => execClracc e s
  | .ldacc e a i => execLdacc e a i s
  | .wfe e d i => execWfe e d i s
  | .tset e a i => execTset e a i s
  | .kick e => execKick e s
  | .halt e => execHalt e s
  | _ => .next s

namespace State

/-- One instruction of an engine that runs: the word at its PC. -/
def stepWord (s : State) (e : Fin 9) : State :=
  let w := mapGet 0 s.eng[e].prog s.eng[e].pc
  let h := s.freeNat % 257
  match igsDecode e w h with
  | some i => match igsExec i s.drew with | .next t => t | _ => s
  | none => s.issue e fun s => s.engineTrap e 1

/-- IGS_En_CTRL.step (R385): one instruction of a halted engine, which is halted again after it. A WFE that it was in returns
where a masked bit is set. -/
def engineStep (s : State) (e : Fin 9) : State :=
  if s.eng[e].st ≠ .halted then s
  else
    let s := match s.eng[e].wfe with
      | some _ => s.engineRun e
      | none => (s.engineRun e).stepWord e
    s.engineHalt e

end State

end Sys2Proof.Machine
end

