-- ==== Sys2Proof/Machine/Ports.lean ====
section
/-!
DEFINITION. The rows that are accesses on a management port (R8, R9, R251–R265), those of them that have a row of their own
among the rows of their chapters, and the completion of a snapshot (R261).
-/

namespace Sys2Proof.Machine

namespace State

/-- A read on a port: poison reads 0 and sets TOP_ERR.poison (R265). -/
def portRead (s : State) (x : Source) (addr same : Nat) : State :=
  let (s, w, poison) := s.busRead x addr same
  let s := if poison then s.setTopErr F.TOP_ERR_poison else s
  { s with mgmt := { s.mgmt with readData := if poison then 0 else w } }

/-- The engine whose IGS_En_CTRL stands at an address. -/
def ctrlEngine (a : Nat) : Option (Fin 9) := (List.finRange 9).find? fun e => R.IGS_En_CTRL e.val == a

/-- A write on a port. -/
def portWrite (s : State) (x : Source) (addr : Nat) (v : Word) : State :=
  let t := s.busWrite x addr v
  match ctrlEngine (aligned addr) with
  | some e => if v.getLsbD 2 && s.reach x.port (aligned addr) && s.debugPort x.port e then t.engineStep e else t
  | none => t

/-- A write with nothing in progress, and time enough before the next boundary. -/
def put (s : State) (port : Fin 5) (addr : Nat) (v : Word) : State := s.portWrite (Source.ofPort port 40 0) addr v
/-- A read in whose cycle hardware touches nothing. -/
def get (s : State) (port : Fin 5) (addr : Nat) : State := s.portRead (Source.ofPort port 40 0) addr 0

/-- Either of the two. -/
def access (s : State) (port : Fin 5) (addr : Nat) : Option Word → State
  | some v => s.put port addr v
  | none => s.get port addr

/-! ## Transactions of the serial ports (R251) -/

/-- The port and MDIO addresses follow the MADDR straps. -/
def maddr (s : State) : Nat := s.rd F.SEC_STRAP_maddr
/-- The 7-bit address of the I2C/I3C target. -/
def i2cAddress (s : State) : Nat := 0x28 + s.maddr

/-- Four address bytes, most significant first. -/
def busAddress (bytes : List Byte) : Option Nat :=
  match bytes with
  | a :: b :: c :: d :: _ => some (2 ^ 24 * a.toNat + 2 ^ 16 * b.toNat + 2 ^ 8 * c.toNat + d.toNat)
  | _ => none

/-- The words of data bytes, four to a register, least significant first; a register that is cut short is not written. -/
def busWords : List Byte → List Word
  | a :: b :: c :: d :: t => BitVec.ofNat 32 (a.toNat + 2 ^ 8 * b.toNat + 2 ^ 16 * c.toNat + 2 ^ 24 * d.toNat) :: busWords t
  | _ => []

/-- The registers that a run of them from an address names: the address advances by 4. -/
def busRun (start count : Nat) : List Nat := (List.range count).map fun k => (start + 4 * k) % 2 ^ 32

/-- The writes that address and data bytes spell. -/
def frameWrites (bytes : List Byte) : List (Nat × Word) :=
  match busAddress bytes with
  | some a => let ws := busWords (bytes.drop 4); (busRun a ws.length).zip ws
  | none => []

/-- The reads that address bytes and a count spell. -/
def frameReads (bytes : List Byte) (count : Nat) : List Nat :=
  match busAddress bytes with
  | some a => busRun a count
  | none => []

/-- The port and the writes of a write on a port: the I2C/I3C target is port 0 and answers to its address alone; the SPI target is port
2 and its opcode is 0x02. -/
def portWrites (s : State) : PortWrite → Fin 5 × List (Nat × Word)
  | .word port addr value => (port, [(addr.toNat, value)])
  | .i2c target bytes => (0, if target.toNat = s.i2cAddress then frameWrites bytes else [])
  | .spi bytes => (2, if bytes.headD 0 = 2 then frameWrites (bytes.drop 1) else [])

/-- The port and the registers of a read on a port; the SPI target's opcode is 0x0B, with four dummy bytes after the address. -/
def portReads (s : State) : PortRead → Fin 5 × List Nat
  | .word port addr => (port, [addr.toNat])
  | .i2c target address count => (0, if target.toNat = s.i2cAddress then frameReads address count else [])
  | .spi bytes count => (2, if bytes.headD 0 = 0x0B ∧ bytes.length = 9 then frameReads (bytes.drop 1) count else [])

/-- Registers of a transaction after its first are read in turn. -/
def burstRead (s : State) (port : Fin 5) (addrs : List Nat) : State :=
  addrs.foldl (fun s a =>
    let s := s.get port a
    { s with mgmt := { s.mgmt with burst := s.mgmt.burst ++ [s.mgmt.readData] } }) s

/-! ## The window of MMD 30 (R252) -/

def onMgmt (s : State) (f : Mgmt → Mgmt) : State := { s with mgmt := f s.mgmt }

def mdioAdvance (m : Mgmt) : Mgmt := if m.mdioInc then { m with mdioAddr := m.mdioAddr + 4 } else m

/-- An access to the window that reaches no register. -/
def mdioBefore (s : State) (x : MdioAccess) : State :=
  s.onMgmt fun m =>
    match x with
    | .addrLo v => { m with mdioAddr := m.mdioAddr.extractLsb' 16 16 ++ v }
    | .addrHi v => { m with mdioAddr := v ++ m.mdioAddr.extractLsb' 0 16 }
    | .winCtrl b => { m with mdioInc := b }
    | .dataLo v => { m with mdioHeld := v, mdioErr := false }
    | .dataHi => mdioAdvance { m with readData := m.mdioHigh.setWidth 32 }
    | .readAddrLo => { m with readData := (m.mdioAddr.extractLsb' 0 16).setWidth 32 }
    | .readAddrHi => { m with readData := (m.mdioAddr.extractLsb' 16 16).setWidth 32 }
    | .readWinCtrl => { m with readData := BitVec.ofNat 32 (b2n m.mdioInc + 2 ^ 15 * b2n m.mdioErr) }

/-- Whether an access sets a bit of TOP_ERR. -/
def errs (s : State) (f : State → State) : Bool := (f (s.setReg R.TOP_ERR 0)).reg R.TOP_ERR != 0

/-- MDIO is port 1. -/
def mdioRead (s : State) : State :=
  let f (s : State) : State := s.get 1 s.mgmt.mdioAddr.toNat
  let bad := s.errs f
  (f s).onMgmt fun m =>
    { m with mdioErr := bad, mdioHigh := m.readData.extractLsb' 16 16, readData := (m.readData.extractLsb' 0 16).setWidth 32 }

def mdioWrite (s : State) (hi : BitVec 16) : State :=
  let f (s : State) : State := s.put 1 s.mgmt.mdioAddr.toNat (hi ++ s.mgmt.mdioHeld)
  let bad := s.errs f
  (f s).onMgmt fun m => mdioAdvance { m with mdioErr := m.mdioErr || bad }

end State

open State

/-! ## Accesses -/

/-- W1C bits that hardware sets in the cycle of a write stand set after it (R9). -/
def State.setSame (s : State) (a : Nat) (same : Word) : State :=
  let m := same &&& BitVec.ofNat 32 (desc a).w1c
  if m = 0 then s else noticeSummary s.summary (s.setReg a (s.reg a ||| m))

/-- REGISTER_WRITE (R8, R9, R251). -/
def execRegisterWrite (write : PortWrite) (sameCycle : Word) (s : State) : Out :=
  match s.portWrites write with
  | (_, []) => .next s
  | (port, (a, v) :: rest) =>
    .next (rest.foldl (fun s x => s.put port x.1 x.2) ((s.put port a v).setSame (aligned a) sameCycle))

/-- RC_REGISTER_READ (R9, R251). -/
def execRcRegisterRead (read : PortRead) (sameCycle : Nat) (s : State) : Out :=
  match s.portReads read with
  | (_, []) => .next s
  | (port, a :: rest) =>
    let s := s.portRead (Source.ofPort port 40 0) a sameCycle
    if rest.isEmpty then .next s
    else .next (({ s with mgmt := { s.mgmt with burst := [s.mgmt.readData] } }).burstRead port rest)

/-- LO_REGISTER_READ (R74, R253). -/
def execLoRegisterRead (port : Fin 5) (addr : Word) (s : State) : Out := .next (s.get port addr.toNat)

/-- UNMAPPED_ACCESS (R254). -/
def execUnmappedAccess (port : Fin 5) (addr : Word) (write : Option Word) (s : State) : Out :=
  .next (s.access port addr.toNat write)

/-- HANDSHAKE_TIMEOUT (R252, R265). On MDIO it is a read of DATA_LO, which latches the upper half, 0 too, and sets WIN_CTRL.error. -/
def execHandshakeTimeout (port : Fin 5) (addr : Word) (s : State) : Out :=
  if !s.reach port addr.toNat then .next s
  else
    let s := (s.setTopErr F.TOP_ERR_xd_timeout).onMgmt fun m => { m with readData := 0 }
    .next (if port = 1 then s.onMgmt fun m => { m with mdioErr := true, mdioHigh := 0 } else s)

/-- An MDIO frame is the device's: its port address follows MADDR, and device space lies in MMD 30 (R251). -/
def State.mdioMine (s : State) (phy mmd : BitVec 5) : Bool := phy.toNat == s.maddr && mmd == 30

/-- MDIO_DATA_LO_READ (R251, R252). -/
def execMdioDataLoRead (phy mmd : BitVec 5) (before : List MdioAccess) (s : State) : Out :=
  if s.mdioMine phy mmd then .next (before.foldl (fun s x => s.mdioBefore x) s).mdioRead else .next s

/-- MDIO_DATA_HI_WRITE (R251, R252). -/
def execMdioDataHiWrite (phy mmd : BitVec 5) (before : List MdioAccess) (hi : BitVec 16) (s : State) : Out :=
  if s.mdioMine phy mmd then .next ((before.foldl (fun s x => s.mdioBefore x) s).mdioWrite hi) else .next s

/-- DRAM_WINDOW_ACCESS (R255, R360). `parity` says that the word of the valid-bit array that covers the block has a parity
error. -/
def execDramWindowAccess (port : Fin 5) (addr : Word) (write : Option Word) (parity : Bool) (s : State) : Out :=
  let s := if parity && s.dramReady && decide (addr.toNat / 2 ^ 28 = 1)
    then s.validParity true (s.winByte addr.toNat / 4096 / 32) else s
  .next (s.access port addr.toNat write)

/-- PMON_DATA_READ (R263). -/
def execPmonDataRead (port : Fin 5) (s : State) : Out := .next (s.get port R.PMON_DATA)

/-- COMMIT_GO (R258). -/
def execCommitGo (port : Fin 5) (nsToBoundary : Nat) (s : State) : Out :=
  .next (s.portWrite (Source.ofPort port nsToBoundary 0) R.TOP_COMMIT 1)

/-- SNAP_GO (R261, R262). -/
def execSnapGo (port : Fin 5) (clear : Bool) (s : State) : Out := .next (s.put port R.TOP_SNAP (if clear then 3 else 1))

/-- SNAP_COMPLETE (R261). -/
def execSnapComplete (s : State) : Out :=
  if !(s.flag F.TOP_SNAP_busy && s.mgmt.snapTaken) then .next s
  else
    let s := s.onMgmt fun m => { m with snapBank := m.snapNext, snapNext := [], snapTaken := false }
    let s := (s.setReg R.TOP_SNAP_STAT (BitVec.ofNat 32 s.mgmt.snapNextEpoch)).wr F.TOP_SNAP_busy 0
    .next (s.setTopInt F.TOP_INT_snap_done)

/-! ## Clocks and power -/

/-- REVERT (R300). -/
def execRevert (port : Fin 5) (s : State) : Out := .next (s.put port R.CLK_REF_CTRL (s.reg R.CLK_REF_CTRL ||| 4))

/-- CLK_GATE_WRITE (R305, R306). -/
def execClkGateWrite (port : Fin 5) (value : Word) (inProgress : BitVec 4) (s : State) : Out :=
  .next (s.portWrite (Source.ofPort port 40 inProgress.toNat) R.CLK_GATE value)

/-- WAKE_FAIL_CLEAR (R322, R323). -/
def execWakeFailClear (port : Fin 5) (s : State) : Out := .next (s.put port R.PWR_WAKE_FAIL 0x80)

/-! ## Lanes -/

/-- DAC_CAL_RUN_REQUEST (R67). -/
def execDacCalRunRequest (port : Fin 5) (lane : Fin 8) (s : State) : Out :=
  .next (s.put port (R.OLn_TX_CAL_CTRL lane) (s.stagedReg (R.OLn_TX_CAL_CTRL lane) ||| 2))

/-- ADC_CAL_RUN_REQUEST (R82). -/
def execAdcCalRunRequest (port : Fin 5) (lane : Fin 8) (s : State) : Out :=
  .next (s.put port (R.OLn_RX_CAL_CTRL lane) (s.stagedReg (R.OLn_RX_CAL_CTRL lane) ||| 2))

/-- TAP_DATA_WRITE (R94). -/
def execTapDataWrite (port : Fin 5) (lane : Fin 8) (value : Word) (s : State) : Out :=
  .next (s.put port (R.OLn_FDE_TAP_DATA lane) value)

/-- TAP_DATA_READ (R94). -/
def execTapDataRead (port : Fin 5) (lane : Fin 8) (s : State) : Out := .next (s.get port (R.OLn_FDE_TAP_DATA lane))

/-- HOST_RX_RESTART (R197). -/
def execHostRxRestart (port : Fin 5) (lane : Fin 16) (s : State) : Out :=
  .next (s.put port (R.HLn_RX_ADAPT lane) (s.stagedReg (R.HLn_RX_ADAPT lane) ||| 0x100))

/-- PRBS_RESYNC (R210). -/
def execPrbsResync (port : Fin 5) (lane : Fin 16) (s : State) : Out :=
  .next (s.put port (R.HLn_PRBS_CTRL lane) (s.stagedReg (R.HLn_PRBS_CTRL lane) ||| 0x80))

/-- PRBS_SLIP_BIT (R210). -/
def execPrbsSlipBit (port : Fin 5) (lane : Fin 16) (s : State) : Out :=
  .next (s.put port (R.HLn_PRBS_CTRL lane) (s.stagedReg (R.HLn_PRBS_CTRL lane) ||| 0x100))

/-- PRBS_SLIP_SYM (R210). -/
def execPrbsSlipSym (port : Fin 5) (lane : Fin 16) (s : State) : Out :=
  .next (s.put port (R.HLn_PRBS_CTRL lane) (s.stagedReg (R.HLn_PRBS_CTRL lane) ||| 0x200))

/-! ## Mailbox of the pennant channel, time -/

/-- MAIL_SEND (R229). -/
def execMailSend (port : Fin 5) (lenM1 : Byte) (s : State) : Out :=
  .next (s.put port R.PEN_MB_TX_CTRL (lenM1.setWidth 32 ||| 0x100))

/-- MAIL_ABORT (R229). -/
def execMailAbort (port : Fin 5) (s : State) : Out :=
  .next (s.put port R.PEN_MB_TX_CTRL (s.reg R.PEN_MB_TX_CTRL ||| 0x200))

/-- MAIL_POP (R230). -/
def execMailPop (port : Fin 5) (s : State) : Out := .next (s.put port R.PEN_MB_RX_POP 1)

/-- TIME_NOW_READ (R236): the counter has run on by `cycles`. -/
def execTimeNowRead (port : Fin 5) (cycles : Nat) (s : State) : Out :=
  .next ((if s.dpOff then s else s.timeRun cycles).get port R.TIME_NOW_NS)

/-- TIME_STEP_GO (R237). -/
def execTimeStepGo (port : Fin 5) (absolute : Bool) (s : State) : Out :=
  .next (s.put port R.TIME_STEP_CTRL (if absolute then 3 else 1))

/-- SERVO_OFS_WRITE (R249). -/
def execServoOfsWrite (port : Fin 5) (value : Word) (s : State) : Out := .next (s.put port R.TIME_SERVO_OFS value)

/-! ## Memory -/

/-- MEM_CLEAR_GO (R361). -/
def execMemClearGo (port : Fin 5) (s : State) : Out := .next (s.put port R.MEM_CLEAR_CTRL 1)

/-- MEM_INJ_ARM (R358). -/
def execMemInjArm (port : Fin 5) (value : Word) (s : State) : Out := .next (s.put port R.MEM_INJ_CTRL value)

/-! ## Engines, events, capture -/

/-- ENGINE_HALT_REQUEST (R385). -/
def execEngineHaltRequest (port : Fin 5) (e : Fin 9) (s : State) : Out := .next (s.put port (R.IGS_En_CTRL e) 1)

/-- ENGINE_RUN_REQUEST (R385). -/
def execEngineRunRequest (port : Fin 5) (e : Fin 9) (s : State) : Out := .next (s.put port (R.IGS_En_CTRL e) 2)

/-- ENGINE_STEP_REQUEST (R385). -/
def execEngineStepRequest (port : Fin 5) (e : Fin 9) (s : State) : Out := .next (s.put port (R.IGS_En_CTRL e) 4)

/-- ENGINE_RESTART (R384). -/
def execEngineRestart (port : Fin 5) (e : Fin 9) (s : State) : Out := .next (s.put port (R.IGS_En_CTRL e) 8)

/-- ENGINE_DOORBELL (R378): from any port that reaches the block. -/
def execEngineDoorbell (e : Fin 9) (s : State) : Out :=
  .next (if s.reach 4 (R.IGS_En_DOORBELL e) then s.raiseEv e 2 else s)

/-- ENGINE_LOG_WRITE (R391, R392): the engine's own write. -/
def execEngineLogWrite (e : Fin 9) (code arg : BitVec 16) (s : State) : Out :=
  .next (s.busWrite (Source.ofEngine e s.eng[e].pc 40) (R.IGS_En_LOG e) (arg ++ code))

/-- ENGINE_MEM_DATA_ACCESS (R385). -/
def execEngineMemDataAccess (port : Fin 5) (e : Fin 9) (write : Option Word) (s : State) : Out :=
  .next (s.access port (R.IGS_En_MEM_DATA e) write)

/-- IGS_FREEZE_WRITE (R388). -/
def execIgsFreezeWrite (port : Fin 5) (value : Word) (s : State) : Out := .next (s.put port R.IGS_FREEZE value)

/-- EVR_WIN0_READ (R395). -/
def execEvrWin0Read (port : Fin 5) (s : State) : Out := .next (s.get port (R.EVR_WINk 0))

/-- EVR_WIN3_READ (R395). -/
def execEvrWin3Read (port : Fin 5) (s : State) : Out := .next (s.get port (R.EVR_WINk 3))

/-- EVR_FREEZE_WRITE (R396). -/
def execEvrFreezeWrite (port : Fin 5) (freeze : Bool) (s : State) : Out := .next (s.put port R.EVR_CTRL (if freeze then 1 else 0))

/-- CAPTURE_ABORT (R402). -/
def execCaptureAbort (port : Fin 5) (s : State) : Out := .next (s.put port R.CAP_CTRL 1)

end Sys2Proof.Machine
end

