-- ==== Sys2Proof/Machine/Boot.lean ====
section
/-!
DEFINITION. The boot sequence (R275–R289): its steps, what the records of an image do, the failure of a copy, commit 1, the
report of IG-S (R351), and the retention banks at STANDBY exit (R321).
-/

namespace Sys2Proof.Machine

namespace State

def onBoot (s : State) (f : Boot → Boot) : State := { s with boot := f s.boot }

/-- The boot sequencer is in a phase of BOOT. -/
def booting (s : State) (p : BootPhase) : Bool := s.mgmt.dev == .boot && s.boot.phase == p

/-- A phase begins, with its step code. -/
def bootStep (s : State) (p : BootPhase) (step : Nat) : State :=
  (s.onBoot fun b => { b with phase := p }).wr F.SEC_BOOT_STAT_step step

/-! ## Steps 0x01 to 0x03 and 0x0B -/

/-- A list of bytes as the registers from `a`. -/
def loadBytes (s : State) (a words : Nat) (bs : List Byte) : State :=
  (List.range words).foldl (fun s k => s.setReg (a + 4 * k) (BitVec.ofNat 32 (leField bs (4 * k) 4))) s

/-- Spare rows and columns that the entries of a map take. -/
def takeSpares (s : State) (es : List RepairEntry) : State :=
  s.onMem fun m => es.foldl (fun m e =>
    if e.kind = 1 then { m with rowsUsed := mapSet 0 m.rowsUsed e.unit (mapGet 0 m.rowsUsed e.unit + 1) }
    else if e.kind = 2 then { m with colsUsed := mapSet 0 m.colsUsed e.unit (mapGet 0 m.colsUsed e.unit + 1) }
    else m) m

/-- The fuses are loaded (R277, R284, R302, R340, R370). With a failed check the lifecycle reads 3 and the slots count as
unprogrammed. -/
def fuseLoad (s : State) (checkOk : Bool) : State :=
  let f := s.boot.fuses
  let s := (s.wr F.SEC_LC_lc (if checkOk then f.lc else 3)).wr F.SEC_LC_lc_fused f.lc
  let s := (s.wr F.SEC_LC_vendor_set (b2n (checkOk && f.vendorSet))).wr F.SEC_LC_owner_set (b2n (checkOk && f.ownerSet))
  let s := (s.wr F.SEC_LC_rollback_min f.rollback).loadBytes (R.SEC_UIDk 0) 4 f.uid
  let s := s.loadBytes (R.SEC_KEYHASH_Vk 0) 12 (if checkOk && f.vendorSet then f.vendorHash else [])
  let s := s.loadBytes (R.SEC_KEYHASH_Ok 0) 12 (if checkOk && f.ownerSet then f.ownerHash else [])
  let s := (s.wr F.CLK_OSC_TRIM_code f.oscTrim).wr F.CLK_OSC_TRIM_factory f.oscTrim
  let s := (f.sensorCal.take 12).zipIdx.foldl (fun s (c, k) => s.wr (F.THERM_TSk_cal k) c) s
  let s := s.onMem fun m => { m with rowsUsed := [], colsUsed := [] }
  let s := s.takeSpares f.repair
  if s.flag F.BIST_REPAIR_STAT_valid then s.takeSpares s.mem.repair else s.onMem fun m => { m with repair := [] }

/-- Where boot goes after step 0x03, by BOOTSEL (R275, R287, R288). -/
def afterCheckers (s : State) : State :=
  match s.rd F.SEC_STRAP_bootsel with
  | 0 => (s.onBoot fun b => { b with source := .nvmPrimary }).bootStep .discovery 4
  | 1 => (s.onBoot fun b => { b with source := .download }).bootStep .await 0x0B
  | _ => s.bootStep .halted 0

/-- The checkers pass (R363, R393): the recorder starts. -/
def checkersPass (s : State) : State :=
  let s := (s.wr F.MEM_CHK_STAT_done 1).onEvr fun e => { e with recording := true }
  (if s.evrFrozen then s else s.appendHeld).afterCheckers

/-- A checker fails: a fatal error of cause 4. -/
def checkersFail (s : State) (k : Nat) : State :=
  let s := (s.wr F.MEM_CHK_STAT_failed 1).wr F.MEM_CHK_STAT_checker k
  ((s.wr F.MEM_CHK_STAT_done 1).logEvent srcMem 0x3005 k 0).fatal 4 k

/-- The banks of a repair map have their spares mapped (R277, R370). -/
def mapBanks (s : State) (es : List RepairEntry) : State :=
  es.foldl (fun s e =>
    if e.kind = 3 then
      (s.wrBit F.MEM_SPARE_USED_pc e.unit true).onMem fun m =>
        { m with banksSpared := mapSet false m.banksSpared (16 * e.unit + e.index) true }
    else s) s

/-- A phase in which step 0x0B runs beside boot. -/
def dramStepRuns (s : State) : Bool :=
  s.mgmt.dev == .boot && !s.flag F.SEC_BOOT_STAT_dram_ready && !s.flag F.SEC_BOOT_STAT_dram_failed
    && !(s.boot.phase == .reset || s.boot.phase == .fuses || s.boot.phase == .checkers || s.boot.phase == .halted
      || s.boot.phase == .done)

/-- Step 0x0B ends. The wait for IMAGE_LOAD then sets SEC_INT.await (R287). -/
def dramInit (s : State) (ok : Bool) : State :=
  if ok then
    let s := ((s.wr F.MEM_STAT_dram_ready 1).wr F.SEC_BOOT_STAT_dram_ready 1).mapBanks (s.boot.fuses.repair ++ s.mem.repair)
    if s.boot.phase = .await then s.setInt F.SEC_INT_await else s
  else ((s.wr F.MEM_STAT_dram_unusable 1).wr F.SEC_BOOT_STAT_dram_failed 1).logEvent srcBoot 0x2002 0 0

/-! ## The failure of a copy (R281, R287) -/

/-- Nothing that the failed copy wrote stays: staged copies, held writes, programs, IG-S. -/
def undoImage (s : State) : State :=
  let s := s.boot.wrote.foldl (fun s k =>
    let s := s.setStaged k (resetWord k)
    if (desc k).stg = 0 ∧ k < 2 ^ 32 then s.setReg k (resetWord k) else s) s
  let s := s.resetEngine 1
  let s := { s with eng := s.eng.map fun (g : Engine) => { g with prog := [], hasProg := false, ecc := g.ecc.filter fun c => 2 ^ 20 ≤ c.1 } }
  let s := s.onBoot fun b => { b with held := [], wrote := [], acted := [], region := [], header := [], offset := 0, nRecords := 0 }
  (s.onSafe fun f => { f with igsRun := false }).reviewSafe

/-- Boot has failed: FAULT_N is asserted through SEC_BOOT_STAT.failed, and IMAGE_LOAD is awaited. -/
def bootFailed (s : State) (step : Nat) : State :=
  ((s.wr F.SEC_BOOT_STAT_failed 1).setInt F.SEC_INT_boot_fail).bootStep .await step

/-- The status that ends an IMAGE_LOAD by the step that failed (R287). -/
def loadStatus (step : Nat) : Nat := if step = 7 then stDenied else if step = 0x0C then stPoison else stFail

/-- A step of the image being booted fails. -/
def bootFail (s : State) (step : Nat) : State :=
  let src := s.boot.source
  let s := s.undoImage.logEvent srcBoot 0x2001 step (b2n (src == .nvmSecondary))
  match src with
  | .download =>
    let s := (s.wr F.SEC_BOOT_STAT_fail_primary step).bootFailed step
    s.endIfArg 9 (loadStatus step) step
  | .nvmPrimary =>
    let s := s.wr F.SEC_BOOT_STAT_fail_primary step
    if s.boot.secondaryMagic then
      ((s.onBoot fun b => { b with source := .nvmSecondary }).bootStep .header 5).wr F.SEC_BOOT_STAT_copy 1
    else
      let s := s.bootFailed step
      if s.dramReady then s.setInt F.SEC_INT_await else s
  | .nvmSecondary =>
    let s := (s.wr F.SEC_BOOT_STAT_fail_secondary step).bootFailed step
    if s.dramReady then s.setInt F.SEC_INT_await else s

/-! ## Records (R278, R282, R289) -/

/-- The registers that select an entry of a staged table: the boot stream writes them at once (log entry 31). -/
def isIndex (a : Nat) : Bool := a == R.BIAS_TBL_ADDR || (List.range 8).any fun n => R.OLn_TX_PD_ADDR n == a

/-- The staged copy that a CONFIG pair writes. -/
def stagedKey (s : State) (a : Nat) : Nat :=
  if a = R.BIAS_TBL_DATA then keyDither (s.rd F.BIAS_TBL_ADDR_index)
  else if 0x200000 ≤ a ∧ a < 0x280000 ∧ a % 0x10000 = 0x54 then
    keyPd ((a - 0x200000) / 0x10000) (s.rd (F.OLn_TX_PD_ADDR_index ((a - 0x200000) / 0x10000)))
  else a

/-- The boot sequencer's own writes. -/
def Source.boot : Source := { port := 4, eng := none, pc := 0, ns := 40, inProgress := 0 }

/-- A CONFIG pair (R278): staged bits go to the staged copy, an index register is written, and what acts when written is held. -/
def configPair (s : State) (p : Nat × Word) : State :=
  let (a, v) := p
  let d := desc a
  if isIndex a then (s.plainWrite a v).onBoot fun b => { b with wrote := a :: b.wrote }
  else if a = R.BIAS_TBL_DATA ∨ s.stagedKey a ≠ a then
    (s.onBoot fun b => { b with wrote := s.stagedKey a :: b.wrote }).regWrite Source.boot a v none
  else
    let s := if d.stg = 0 then s else
      (s.setStaged a (merge (s.stagedReg a) d.stg v)).onBoot fun b => { b with wrote := a :: b.wrote }
    if (d.rw ||| d.w1c ||| d.wo) = d.stg then s else s.onBoot fun b => { b with held := b.held ++ [(a, v)] }

/-- A held pair is written at commit 1: the staged bits of its register stand by then. -/
def heldPair (s : State) (p : Nat × Word) : State :=
  let v := merge p.2 (desc p.1).stg (s.stagedReg p.1)
  if p.1 / 0x10000 = 2 then s.pwrWrite p.1 v else s.regWrite Source.boot p.1 v none

/-- An ENGINE record loads program words. IG-S starts once its records have been verified (R289). -/
def engineRecord (s : State) (b : List Byte) : State :=
  let e : Fin 9 := Fin.ofNat 9 (engineOf b)
  let words := wordsFrom b 8
  let s := s.onEng e fun g =>
    { g with hasProg := true,
             prog := words.zipIdx.foldl (fun m (w, i) => mapSet 0 m (engineOffset b + i) (BitVec.ofNat 32 w)) g.prog,
             ecc := (List.range (words.length + 1)).foldl (fun m i => mapSet 0 m ((engineOffset b + i) / 2) 0) g.ecc }
  if e = 1 ∧ s.eng[e].st ≠ .run ∧ s.eng[e].st ≠ .wait ∧ !s.unitFailed 24 then s.startEngine 1 else s

/-- A record acts. A SAFE record is handed to IG-S, which applies it at once where it runs (R289, R351). -/
def actRecord (s : State) (r : ImgRecord) : State :=
  let s := s.onBoot fun b => { b with acted := b.acted ++ [r] }
  match r.kind with
  | 1 => (pairsOf r.body).foldl (fun s p => s.configPair p) s
  | 2 => s.engineRecord r.body
  | 4 => if s.eng[(1 : Fin 9)].st = .run ∨ s.eng[(1 : Fin 9)].st = .wait then s.safeRecord r else s
  | _ => s

/-- A REPAIR record that checks is applied, unless the always-on registers hold a valid map (R282, R370). -/
def repairRecord (s : State) (b : List Byte) : State :=
  if s.flag F.BIST_REPAIR_STAT_valid then s
  else match repairMap b with
    | none => s
    | some es =>
      let s := ((s.onMem fun m => { m with repair := es }).reviewRepair).takeSpares es
      if s.flag F.SEC_BOOT_STAT_dram_ready then s.mapBanks es else s

/-- The END record has been read: IG-S is told, if it has a program (R289). -/
def endRecord (s : State) : State :=
  if s.boot.region.any fun x => decide (2 ≤ s.slotNeeded x) then s.bootFail 7
  else if s.eng[1].hasProg ∧ !s.unitFailed 24 then s.bootStep .igsStart 0x0A
  else s.bootFail 0x0A

/-- A record whose frame checks is taken. -/
def takeFrame (s : State) (r : ImgRecord) : State :=
  let next (s : State) : State := s.onBoot fun b => { b with offset := b.offset + frameLen r.raw, nRecords := b.nRecords + 1 }
  if !endPlaced s.boot.header s.boot.offset s.boot.nRecords r then s.bootFail 5
  else match contentStep configAllowed r with
    | some k => s.bootFail k
    | none =>
      let s := next s
      match r.kind with
      | 5 => (s.onBoot fun b => { b with region := b.region ++ [r] }).bootStep .signature 7
      | 6 => s.endRecord
      | 7 => s.repairRecord r.body
      | _ =>
        let s := s.onBoot fun b => { b with region := b.region ++ [r] }
        if s.actsUnsigned r then s.actRecord r else s

/-- A record whose CRC has failed three times: skipped, or a failing step (*Record types*). -/
def badFrame (s : State) (f : List Byte) : State :=
  match badCrcStep (frameKind f) with
  | some k => s.bootFail k
  | none =>
    let s := if frameKind f = 3 then s.wr F.SEC_BOOT_STAT_cal_skip 1 else s
    s.onBoot fun b => { b with offset := b.offset + frameLen f, nRecords := b.nRecords + 1 }

/-- A record is read, up to three times (R282). -/
def readRecord (s : State) (reads : List (List Byte)) (poison : Bool) : State :=
  if poison then s.bootFail 0x0C
  else match (reads.take 3).find? frameOk with
    | some f => s.takeFrame (frameRecord f)
    | none => match reads with
      | f :: _ => s.badFrame f
      | [] => s

/-- The frame that a download reads from DRAM, and whether a read returned poison. -/
def dramFrame (s : State) : State × List Byte × Bool :=
  let a := s.boot.dlAddr + s.boot.offset
  let f := s.dramBytes a (frameLen (s.dramBytes a 8))
  let (s, poison) := s.dramRead a f.length
  (s, f, poison)

/-- A SIGNATURE record is verified (R285, R286): the records of its region that needed it act. -/
def checkSignature (s : State) : State :=
  let rs := s.boot.region.dropLast
  match s.boot.region.getLast? with
  | none => s
  | some sig =>
    if s.signatureOk s.boot.header rs sig.body then
      let acts := rs.filter fun x => decide (2 ≤ s.slotNeeded x)
      let s := (s.onBoot fun b => { b with region := [] }).bootStep .records 6
      acts.foldl (fun s r => s.actRecord r) s
    else s.bootFail 7

/-- The header of the image is checked (R280). -/
def checkHeader (s : State) (h : List Byte) (poison : Bool) : State :=
  if poison then s.bootFail 0x0C
  else match hdrFails h (s.rd F.SEC_LC_rollback_min) with
    | some k => s.bootFail k
    | none => (s.onBoot fun b => { b with header := h, offset := 64, nRecords := 0, region := [] }).bootStep .records 6

/-! ## IG-S reports running (R289, R351) -/

/-- The value that the last SAFE record for SAFE_LANE gives req. -/
def safeLaneReq (s : State) : Nat :=
  match (s.safePairs.filter fun p => 0x60000 + p.1 == R.SAFE_LANE).getLast? with
  | some p => getField p.2 0 8
  | none => 0

/-- No further SAFE record follows: SAFE_LANE.req takes lane by lane, but for a lane for which LASER on would be denied, and IG-S
reports running. A LASER command that waits is answered. -/
def igsReports (s : State) : State :=
  let s := (List.finRange 8).foldl (fun s (n : Fin 8) =>
    if bitOf s.safeLaneReq n && !s.laserDenied n then s.wrBit F.SAFE_LANE_req n.val true else s) s
  let s := (s.drew).onSafe fun f => { f with igsRun := true, pwrHold := false }
  s.reviewSafe.laserReview

/-! ## Commit 1 (R258, R277, R278, R281, R287) -/

/-- The image is done, and DRAM is ready or unusable. -/
def commitOneDue (s : State) : Bool :=
  s.booting .imageDone && (s.flag F.SEC_BOOT_STAT_dram_ready || s.flag F.SEC_BOOT_STAT_dram_failed)

/-- Every engine but IG-S that has a program starts. -/
def startEngines (s : State) : State :=
  (List.finRange 9).foldl (fun s (e : Fin 9) => if e ≠ 1 ∧ s.eng[e].hasProg then s.startEngine e else s) s

/-- Commit 1 at an always-on boundary. -/
def commitOneApply (s : State) : State :=
  let s := (s.wr F.TOP_COMMIT_busy 0).applyCommit
  let s := s.boot.held.foldl (fun s p => s.heldPair p) s
  let s := (s.wr F.BIAS_STAT_hold0 0).startEngines
  let h := s.boot.header
  let s := { s with mgmt := { s.mgmt with timerRun := true, commitSkip := false } }
  let s := s.onBoot fun b => { b with commitOne := true, held := [], wrote := [] }
  let s := (((s.bootStep .done 0).wr F.SEC_BOOT_STAT_done 1).wr F.SEC_BOOT_STAT_failed 0).wr F.SEC_IMAGE_ID_build_id (hdrBuild h)
  let s := s.wr F.SEC_IMAGE_VER_sec_version (hdrVersion h)
  let s := s.wr F.SEC_BOOT_TIME_ms (Nat.min 0xFFFF (s.boot.sinceRelease * 1000 / 32768))
  let s := ((s.setInt F.SEC_INT_boot_done).setDev .configured).bringupIfEnabled
  (s.hskStart).endIf 9 stOk

/-! ## Retention banks (R321) -/

/-- The engines of a bank. -/
def bankEngines (k : Nat) : List (Fin 9) :=
  match k with
  | 0 => [0]
  | 1 => [1]
  | 2 => [2, 3, 4, 5, 6, 7, 8]
  | _ => []

/-- The records from which a bank is reloaded: those of the copy that booted; after a download, the image that DRAM keeps. -/
def bankRecords (s : State) : Option (List ImgRecord) :=
  if s.boot.source = .download then s.rescanDownload else some s.boot.acted

/-- CONFIG pairs of a bank put both copies back. -/
def reloadPair (which : Nat → Bool) (s : State) (p : Nat × Word) : State :=
  let a := p.1
  if isIndex a then s.plainWrite a p.2
  else if which a then
    let k := s.stagedKey a
    let m := if k = a then (desc a).stg else if a = R.BIAS_TBL_DATA then 0xFFFF else 0x7F
    let s := (s.setStaged k (merge (s.stagedReg k) m p.2)).setInForce k (merge (s.inForceReg k) m p.2)
    if a = R.BIAS_TBL_DATA then s.tblAdvance else s
  else s

/-- The CONFIG registers of bank 3: FIR and pre-distorter; of bank 7: HSK table, correction sets, dither table. -/
def bank3Reg (a : Nat) : Bool :=
  decide (0x200000 ≤ a) && decide (a < 0x280000) && (decide (0x10 ≤ a % 0x10000) && decide (a % 0x10000 ≤ 0x48) || a % 0x10000 == 0x54)
def bank7Reg (a : Nat) : Bool := (decide (0x30100 ≤ a) && decide (a < 0x30380)) || a == R.BIAS_TBL_DATA

/-- Both copies of the registers of a bank read as zero. -/
def zeroBoth (s : State) (as : List Nat) : State := as.foldl (fun s a => (s.setStaged a 0).setInForce a 0) s

/-- The copies of banks 3 and 7. -/
def bank3Keys : List Nat :=
  (List.range 8).flatMap fun n => (List.range 15).map (R.OLn_TX_FIRk n) ++ (List.range 64).map (keyPd n)
def bank7Keys : List Nat :=
  (List.range 64).flatMap (fun k => [R.HSK_SEQk_A k, R.HSK_SEQk_B k])
    ++ (List.range 16).flatMap (fun j => [R.HSK_CORj_OFS j, R.HSK_CORj_GAIN j]) ++ (List.range 1024).map keyDither

/-- The pairs of the image's CONFIG records. -/
def configPairs (rs : List ImgRecord) : List (Nat × Word) := (rs.filter fun r => r.kind == 1).flatMap fun r => pairsOf r.body

/-- A bank that fails its check: its valid bits are cleared, and its owner reloads it (*Retention banks*). -/
def reloadBank (s : State) (rs : List ImgRecord) (k : Nat) : State :=
  match k with
  | 3 =>
    let s := (s.zeroBoth bank3Keys).onDp fun d => { d with rx := d.rx.map fun r => { r with keptCal := false, adc := AdcCal.initial } }
    (configPairs rs).foldl (reloadPair bank3Reg) s
  | 4 => s.onDp fun d => { d with rx := d.rx.map fun r =>
      { r with equ := { r.equ with acc := [], pow := [], inForce := TapSet.initial } } }
  | 5 => s.onDp fun d => { d with host := d.host.map fun h => { h with stored := false } }
  | 6 => s.evrRestart 2 s.evr.recording
  | 7 => (configPairs rs).foldl (reloadPair bank7Reg) (s.zeroBoth bank7Keys)
  | _ =>
    let es := bankEngines k
    let s := es.foldl (fun s e => s.onEng e fun g => { g with prog := [], data := [], ecc := [], hasProg := false }) s
    let s := (rs.filter fun r => r.kind == 2 && es.any fun e => e.val == engineOf r.body).foldl (fun s r =>
      let e : Fin 9 := Fin.ofNat 9 (engineOf r.body)
      s.onEng e fun g =>
        { g with hasProg := true,
                 prog := (wordsFrom r.body 8).zipIdx.foldl (fun m (w, i) =>
                   mapSet 0 m (engineOffset r.body + i) (BitVec.ofNat 32 w)) g.prog }) s
    if k = 1 then (s.onSafe fun f => { f with pwrHold := true }).reviewSafe else s

/-- A bank's failure is reported. -/
def bankFailed (s : State) (k : Nat) : State :=
  ((s.wrBit F.PWR_RET_STAT_fail k true).setInt F.PWR_INT_ret_fail).logEvent srcPwr 0x1011 k 0

/-- The image that banks are to be reloaded from fails: the device enters BOOT and waits for IMAGE_LOAD. -/
def reloadFails (s : State) : State :=
  let s := (s.failPower.endEntry.onPwr fun p => { p with pstate := 0, retained := false, timerExpired := false }).setDev .boot
  ((s.onBoot fun b => { b with commitOne := false }).bootStep .await 0x0B).setInt F.SEC_INT_await

/-- The banks are verified at STANDBY exit. -/
def verifyBanks (s : State) (failed : Nat) : State :=
  let s := ((s.wr F.PWR_RET_STAT_checked 1).wr F.PWR_RET_STAT_fail 0).onPwr fun p => { p with retained := false }
  let bad := bitList 8 failed
  let s := bad.foldl (fun s k => s.bankFailed k) s
  if bad.any (fun k => k != 4 && k != 5 && k != 6) then
    match s.bankRecords with
    | some rs => bad.foldl (fun s k => s.reloadBank rs k) s
    | none => (bad.foldl (fun s k => s.reloadBank [] k) s).reloadFails
  else bad.foldl (fun s k => s.reloadBank [] k) s

end State

open State

/-- STRAP_SAMPLE (R275): after a latched thermal shutdown the device enters FAULT instead (R347). -/
def execStrapSample (bootsel : BitVec 2) (maddr : BitVec 3) (pclass : BitVec 2) (safedef : Bool) (s : State) : Out :=
  if !(s.booting .reset && s.boot.aonUp && !s.boot.resetLow) then .next s
  else
    let s := s.setReg R.SEC_STRAP
      (BitVec.ofNat 32 (bootsel.toNat + 2 ^ 2 * maddr.toNat + 2 ^ 5 * pclass.toNat + 2 ^ 7 * b2n safedef))
    let s := if bootsel = 3 then s.wr F.SEC_BOOT_STAT_fail_primary 1 else s
    .next (if s.flag F.THERM_STAT_shut_latched then s.setDev .fault else s.bootStep .fuses 2)

/-- FUSE_LOAD (R277). -/
def execFuseLoad (checkOk : Bool) (s : State) : Out :=
  .next (if s.booting .fuses then (s.fuseLoad checkOk).bootStep .checkers 3 else s)

/-- CHECKER_SELF_TEST (R363). -/
def execCheckerSelfTest (failing : Option (Fin 80)) (s : State) : Out :=
  if !s.booting .checkers then .next s
  else match failing with
    | some k => .next (s.checkersFail k.val)
    | none => .next s.checkersPass

/-- DRAM_INIT_DONE (R277). -/
def execDramInitDone (ok : Bool) (s : State) : Out := .next (if s.dramStepRuns then s.dramInit ok else s)

/-- NVM_DISCOVERY (R279, R281). -/
def execNvmDiscovery (erase4k headerAt0 headerAt8M : Bool) (s : State) : Out :=
  if !s.booting .discovery then .next s
  else
    let s := s.onBoot fun b => { b with nvmErase := erase4k, secondaryMagic := headerAt8M }
    if headerAt0 || headerAt8M then .next (s.bootStep .header 5)
    else .next (s.bootFail 4)

/-- HEADER_CHECK (R280). A download's header is read from DRAM. -/
def execHeaderCheck (bytes : List Byte) (secondaryMagic poison : Bool) (s : State) : Out :=
  if !s.booting .header then .next s
  else if s.boot.source = .download then
    let h := s.dramBytes s.boot.dlAddr 64
    let (s, p) := s.dramRead s.boot.dlAddr 64
    .next (s.checkHeader h p)
  else
    let s := s.onBoot fun b => { b with secondaryMagic := secondaryMagic && b.source == .nvmPrimary }
    .next (s.checkHeader (slice bytes 0 64) poison)

/-- RECORD_READ (R282). -/
def execRecordRead (reads : List (List Byte)) (poison : Bool) (s : State) : Out :=
  if !s.booting .records then .next s
  else if s.boot.source = .download then
    let (s, f, p) := s.dramFrame
    .next (s.readRecord [f] p)
  else .next (s.readRecord reads poison)

/-- SIGNATURE_CHECK (R285). -/
def execSignatureCheck (s : State) : Out := .next (if s.booting .signature then s.checkSignature else s)

/-- IGS_REPORTS_RUNNING (R289, R351): while IG-S runs and has not reported yet; in boot, after the notice. -/
def execIgsReportsRunning (s : State) : Out :=
  if !s.engineAlive 1 || s.safe.igsRun then .next s
  else if s.mgmt.dev = .boot then
    .next (if s.boot.phase = .igsStart then s.igsReports.bootStep .imageDone 0x0A else s)
  else .next s.igsReports

/-- IGS_START_TIMEOUT (R289). -/
def execIgsStartTimeout (s : State) : Out := .next (if s.booting .igsStart then s.bootFail 0x0A else s)

/-- RETENTION_VERIFY (R321). -/
def execRetentionVerify (failed : BitVec 8) (s : State) : Out :=
  .next (if s.pwr.phase = .exiting ∧ s.pwr.pstate = 2 ∧ s.pwr.retained then s.verifyBanks failed.toNat else s)

end Sys2Proof.Machine
end

