-- ==== Sys2Proof/Machine/Boundary.lean ====
section
/-!
DEFINITION. Epoch boundaries of both kinds (R258–R264): the capture of a snapshot, commits, the always-on cycle, and the tick
of the superframe timer with the superframe that it begins.
-/

namespace Sys2Proof.Machine

/-- The counter registers of a block's map. -/
def countersOf (base : Nat) (ds : List RegDesc) : List Nat := State.descAddrs base (ds.filter (·.ctr))

/-- Every statistics counter of the device (R261). -/
def counterAddrs : List Nat :=
  countersOf 0 regsTOP ++ countersOf 0x10000 regsCLK ++ countersOf 0x20000 regsPWR ++ countersOf 0x30000 regsHSK
    ++ countersOf 0x40000 regsBIAS ++ countersOf 0x50000 regsTHERM ++ countersOf 0x60000 regsSAFE
    ++ countersOf 0x70000 regsSEC ++ countersOf 0x80000 regsEVR ++ countersOf 0x90000 regsBIST
    ++ countersOf 0xA0000 regsMEM ++ countersOf 0xB0000 regsTIME ++ countersOf 0xC0000 regsPEN
    ++ countersOf 0xD0000 regsIGS ++ (List.range 9).flatMap (fun e => countersOf (0xD1000 + 0x100 * e) regsIGSE)
    ++ (List.range 16).flatMap (fun n => countersOf (0x100000 + 0x10000 * n) regsHL)
    ++ (List.range 8).flatMap (fun n => countersOf (0x200000 + 0x10000 * n) regsOL)
    ++ countersOf 0x300000 regsFEC ++ countersOf 0x310000 regsLEDGER ++ countersOf 0x320000 regsFRAMER
    ++ countersOf 0x330000 regsCAP

namespace State

/-! ## Snapshots (R261, R262, R305) -/

/-- A counter as it stands in the capture cycle; one of a gated block as 0. -/
def captured (s : State) (a : Nat) : Word := if s.gated a then 0 else s.word false a

/-- A captured counter is cleared: of a lane's histogram, the bin that was captured. -/
def clearCounter (s : State) (a : Nat) : State :=
  if s.gated a then s
  else if 0x301000 ≤ a ∧ a < 0x301800 ∧ a % 0x100 = 0x44 then
    let n := (a - 0x301000) / 0x100
    s.setReg (keyHist n (s.rd (F.FEC_LANEn_HIST_SEL_bin n))) 0
  else s.setReg a 0

/-- The capture of a snapshot that waits for the boundary. -/
def snapCapture (s : State) : State :=
  if !s.flag F.TOP_SNAP_busy || s.mgmt.snapTaken then s
  else
    let bank : RegMap := counterAddrs.foldl (fun m a => mapSet (resetWord a) m a (s.captured a)) []
    let s := { s with mgmt := { s.mgmt with
      snapNext := bank, snapTaken := true, snapNextEpoch := ((s.reg R.TOP_EPOCH).toNat + 1) % 2 ^ 32 } }
    if s.mgmt.snapClear then counterAddrs.foldl (fun s a => s.clearCounter a) s else s

/-! ## The boundary (R258) -/

/-- A commit that waits is applied, unless its go fell less than 40 ns before this boundary. Boot alone applies commit 1. -/
def boundaryCommit (s : State) : State :=
  if !s.flag F.TOP_COMMIT_busy || !s.boot.commitOne then s
  else if s.mgmt.commitSkip then { s with mgmt := { s.mgmt with commitSkip := false } }
  else s.applyCommit

/-- An epoch boundary. -/
def boundary (s : State) : State :=
  let s := (s.snapCapture).bumpWrap R.TOP_EPOCH 1
  s.linkBoundary.boundaryCommit.refReview

/-! ## The time counter's clock (R234) -/

/-- Time-clock cycles pass, in units of 1 / 29,184 cycle. The counter has run over some of them already where commands have said
so. -/
def timePass (s : State) (parts : Nat) : State :=
  let total := s.dp.time.rem + parts
  let cycles := total / 29184
  (s.timeAdvance (cycles - s.dp.time.ahead)).onTime fun t => { t with rem := total % 29184, ahead := t.ahead - cycles }

/-- An always-on cycle is 9,765,625 / 512 cycles of the time clock. While the superframe timer runs, its ticks stand for the
clock; with a power state that stops it, or the LINE synthesiser not locked, there is none (R311). -/
def aonTime (s : State) : State :=
  if s.mgmt.timerRun || decide (2 ≤ s.pwr.pstate) || !bitOf (s.rd F.CLK_STAT_lock) 1 then s else s.timePass 556640625

/-! ## The always-on cycle -/

/-- The clock's own counts: the timestamp of 48 bits (R391), and the time since release. -/
def aonCount (s : State) : State :=
  { s with evr := { s.evr with time := (s.evr.time + 1) % 2 ^ 48 },
           boot := { s.boot with sinceRelease := s.boot.sinceRelease + 1 } }

/-- Commit 1 where it is due, else a boundary while the superframe timer is stopped. -/
def aonBoundary (s : State) : State :=
  if s.mgmt.timerRun || s.mgmt.dev = .sleep then s
  else if s.commitOneDue then (s.snapCapture.bumpWrap R.TOP_EPOCH 1).commitOneApply
  else s.boundary

/-- Sources that were held in the final window begin the exit in the cycle after it (R318). -/
def heldExit (s : State) : State :=
  if s.pwr.phase = .none ∧ s.pwr.pstate ≠ 0 ∧ s.pwr.heldWake ≠ 0 then
    let held := s.pwr.heldWake
    (s.onPwr fun p => { p with heldWake := 0 }).wake held
  else s

/-- One cycle of the 32.768 kHz clock. -/
def aonCycle (s : State) (oscCount : Nat) : State :=
  let s := (s.aonCount.aonTime.heldExit.pwrSettle).gatesDone
  let s := if s.mgmt.dev = .sleep then s else s.oscCheck oscCount
  (s.aonBoundary.takeUp).powerStep.refreshMirror

/-! ## The tick of the superframe timer -/

/-- 2,080 datapath cycles are 41,600 / 57 cycles of the time clock (R234). -/
def tickTime (s : State) : State :=
  let s := (s.timePass 21299200).onFramer fun f => { f with base := f.base + 2080 }
  s.onTime fun t => { t with marks := ((s.dp.framer.base, t.base - t.ahead * s.timeInc, t.rem) :: t.marks).take 600 }

/-- Accepted corrections are loaded at position 0, in the standard modes at the boundary (R68). -/
def loadCorrections (s : State) : State :=
  if !s.stdMode && !s.dp.framer.sending then s
  else s.onDp fun d => { d with tx := d.tx.map fun t =>
    { t with cal := { t.cal with loaded := t.cal.waiting.getD t.cal.loaded, waiting := none } } }

/-- Superframes may be sent: CV mode, framer enabled, steps 2 to 8 (R74, R135). -/
def maySend (s : State) : Bool :=
  s.cvMode && s.cfgOn F.FRAMER_CTRL_enable && decide (2 ≤ s.dp.link.step) && decide (s.dp.link.step ≤ 8)

/-- The lanes leave electrical idle when the exit has begun, or where the device never reached the power state (R157,
R320). -/
def leavesIdle (s : State) : Bool :=
  s.pwr.phase == .exiting || (s.pwr.pstate == 0 && (s.pwr.phase == .none || s.pwr.phase == .asking))

/-- The next superframe begins, or the last one before electrical idle has ended (R26, R136, R157). -/
def beginSuperframe (s : State) : State :=
  let f := s.dp.framer
  if f.idle then
    if s.leavesIdle then
      s.onFramer fun f => { f with idle := false, start := false, sending := s.maySend, peerReq := s.laneMask, laneStatus := 0 }
    else s
  else match f.idleLeft with
    | some 0 =>
      let s := s.onFramer fun f =>
        { f with sending := false, idle := true, idleLeft := none, sfc := (f.sfc + 1) % 2 ^ 32, laneStatus := 0 }
      if s.pwr.phase = .preparing ∧ s.pwr.target = 1 then s.openFinal else s
    | some (k + 1) => s.onFramer fun f => { f with idleLeft := some k, sfc := (f.sfc + 1) % 2 ^ 32, laneStatus := 0 }
    | none =>
      if f.sending then s.onFramer fun f => { f with sfc := (f.sfc + 1) % 2 ^ 32 }
      else if f.start && s.maySend then s.onFramer fun f => { f with start := false, sending := true }
      else s

/-- The slots and the message of a new superframe are still to be decided; lanes return to service (R61, R76). A lane whose
squelch, pattern or safe state a commit ends at this boundary returns at this same boundary, not at the one after it: DESIGN
CHOICE, since R76 names only the first boundary after its conditions hold (log entry 116). -/
def freshSuperframe (s : State) : State :=
  let back := s.dp.framer.out76 &&& (0xFF - s.blocked76)
  let s := s.onFramer fun f => { f with msg := none, out76 := s.blocked76 }
  let s := s.onFramer fun f => { f with laneStatus := f.laneStatus ||| (back &&& s.serviceMask) }
  s.onDp fun d => { d with tx := d.tx.map fun t => { t with slots := [] } }

/-- EV bits 8 and 9 of the lanes' engines (R378). -/
def superframeEvents (s : State) : State :=
  if s.dp.framer.sending then s.activeLanes.foldl (fun s n => s.raiseEv (laneEngine n) (8 + n.val % 2)) s else s

/-- Nothing of a superframe that was cut remains to be sent: at the tick it has been accounted for, and one that the boundary itself
cuts has just ended. -/
def dropCut (s : State) : State :=
  if s.dp.framer.cut.isNone then s
  else ((List.finRange 8).foldl forgetSuperframe s).onFramer fun f => { f with cut := none }

/-- The boundary, and the superframe that begins at it (R258). -/
def newSuperframe (s : State) : State := s.tickTime.boundary.dropCut.beginSuperframe

/-- The superframe timer's tick: the superframe that ends has been sent under the configuration that was in force, its last symbols
beside the first of what follows (R63, R65). -/
def timerTick (s : State) : State :=
  let after := s.newSuperframe
  let s := s.activeLanes.foldl (fun s n => (s.laneEnds n (after.firstLevels n)).receiveEnds n) s
  let s := s.newSuperframe.freshSuperframe
  let s := (if s.dp.framer.sending then s.tryLinked else s).reviewFaultEnd (128 * s.dp.framer.base)
  s.loadCorrections.superframeEvents

end State

open State

/-- ALWAYS_ON_CYCLE (R258, R301): the always-on domain runs from AON power-up on. -/
def execAlwaysOnCycle (oscCount : Nat) (s : State) : Out :=
  .next (if s.boot.aonUp ∧ s.mgmt.dev ≠ .off then s.aonCycle oscCount else s)

/-- SUPERFRAME_TIMER_TICK (R258): the timer runs from commit 1, and not in STANDBY and SLEEP. -/
def execSuperframeTimerTick (s : State) : Out := .next (if s.mgmt.timerRun then s.timerTick else s)

end Sys2Proof.Machine
end

