-- ==== Sys2Proof/Machine/DumpWrite.lean ====
section
/-!
DEFINITION. The fatal dump (R403–R405): its sections and its header, as they are written to DRAM or to the SRAM area.
-/

namespace Sys2Proof.Machine

/-- Overwrite the bytes from `lo` of a sparse memory whose unlisted bytes read 0. -/
def blit (lo : Nat) (bs : List Byte) (m : List Host.Cell) : List Host.Cell :=
  m.filter (fun c => decide (c.1 < lo)) ++ (bs.zipIdx.filterMap fun (b, i) => if b = 0 then none else some (lo + i, b))
    ++ m.filter (fun c => decide (lo + bs.length ≤ c.1))

/-- Exactly `n` bytes. -/
def padBytes (n : Nat) (bs : List Byte) : List Byte := slice bs 0 n

/-- The bytes of words. -/
def wordBytes (ws : List Word) : List Byte := ws.flatMap fun w => leBytes 4 w.toNat

/-- One input-queue entry: its codes packed ten to a 64-bit word in bit order, six bits each (R110). Which end of the word holds the
first of the ten the rule does not say: the low one (DESIGN CHOICE, log entry 125). -/
def codeBytes (codes : List Int) : List Byte :=
  (List.range 1639).flatMap fun w =>
    leBytes 8 ((List.range 10).foldl (fun a i => a + 2 ^ (6 * i) * ofSigned 6 (codes.getD (10 * w + i) 0)) 0)

/-- Where a section stands and how long it is: id, first page, bytes (*Dump sections*). -/
def dumpPlan : List (Nat × Nat × Nat) :=
  [(1, 1, 1152), (2, 2, 352256), (3, 88, 20992), (4, 94, 65536), (5, 110, 262144), (6, 174, 129024), (7, 206, 8388608),
   (8, 2254, 5035008)]

/-- The bases of the 43 blocks in address-map order. -/
def dumpBlocks : List Nat :=
  (List.range 15).map (0x10000 * ·) ++ (List.range 16).map (fun n => 0x100000 + 0x10000 * n)
    ++ (List.range 8).map (fun n => 0x200000 + 0x10000 * n) ++ [0x300000, 0x310000, 0x320000, 0x330000]

namespace State

/-- Section 1. The widths and places of the fields after IGS_En_STAT are open: those 52 bytes of a record are free. -/
def engineSection (s : State) : List Byte :=
  (List.finRange 9).flatMap fun (e : Fin 9) =>
    let g := s.eng[e]
    wordBytes g.g.toList ++ leBytes 8 g.acc.toNat ++ leBytes 4 (s.word false (R.IGS_En_STAT e)).toNat
      ++ freeBytes (s.draws + 52 * e.val) 52

/-- A read of the in-force view times out. -/
def viewTimesOut (s : State) (a : Nat) : Bool :=
  (regDesc a).isSome && !s.gated a && (desc a).stg == 0 && s.domainOff a == some true

/-- Section 2: the in-force view is read by IG-M's own code; a read that times out, or returns poison, is stored as 0. -/
def viewSection (s : State) : State × List Byte × Nat :=
  let r := (dumpBlocks.flatMap fun b => (List.range 2048).map fun k => b + 4 * k).foldl
    (fun (acc : State × Array Word × Nat) a =>
      let out := acc.1.viewTimesOut a
      let (s, w, poison) := acc.1.devRead (Source.ofEngine 0 0 40) true a 0
      (s, acc.2.1.push (if poison || out then 0 else w), if out then acc.2.2 + 1 else acc.2.2)) (s, #[], 0)
  (r.1, wordBytes r.2.1.toList, r.2.2)

/-- Section 3: the kept and the circulating area in index order, then the holding queue. -/
def recorderSection (s : State) : List Byte :=
  let area (n : Nat) (l : List EvrEntry) : List Byte := padBytes (16 * n) (l.flatMap fun x => wordBytes x.words)
  area 256 s.evr.kept ++ area 1024 s.evr.circ ++ area 32 s.evr.hold

/-- Words of an engine's memory. -/
def memBytes (m : List (Nat × Word)) (words : Nat) : List Byte := wordBytes ((List.range words).map fun i => mapGet 0 m i)

/-- Sections 4 to 6. IG-S's memories are never dumped (R292). -/
def dataSection (s : State) : List Byte := memBytes s.eng[0].data 16384
def progSection (s : State) : List Byte := memBytes s.eng[0].prog 65536
def enginesSection (s : State) : List Byte :=
  ((List.finRange 9).drop 2).flatMap fun (e : Fin 9) => memBytes s.eng[e].prog 4096 ++ memBytes s.eng[e].data 512

/-- Section 7: the last 2^20 entries of the history ring, oldest first (R129). -/
def historySection (s : State) : List Byte :=
  let first := s.rd F.FEC_HIST_WPTR_index + 2 ^ 24 - 2 ^ 20
  (List.range (2 ^ 20)).flatMap fun k => s.dramBytes (s.dp.pool.histBase * 2 ^ 27 + 8 * ((first + k) % 2 ^ 24)) 8

/-- The input-queue entries of a lane whose codes the device knows: waiting, in a core, and kept (R110). -/
def laneEntries (s : State) (n : Nat) : List CwEntry :=
  let p := s.dp.pool
  ((p.cores.toList.filterMap fun c => c.work.map (·.entry)) ++ p.queue ++ p.kept).filter (·.lane == n)

/-- Section 8. Which of its 48 entries a codeword stands in is open, and so is what an entry that holds none of them carries. -/
def queueSection (s : State) : List Byte :=
  (List.range 8).flatMap fun n =>
    let known := ((s.laneEntries n).take 48).map fun e => codeBytes e.codes
    let k := s.draws + 629377 * n
    let all := known ++ (List.range (48 - known.length)).map fun i => freeBytes (k + 1 + 13112 * i) 13112
    (all.rotateLeft (Config.freeNat k % 48)).flatten

/-- The sections of a dump and how many thousands of reads have timed out. -/
def dumpSections (s : State) : State × List (Nat × List Byte) × Nat :=
  let one := s.engineSection
  let (s, two, outs) := ({ s with draws := s.draws + 468 }).viewSection
  let six := [(1, one), (2, two), (3, s.recorderSection), (4, s.dataSection), (5, s.progSection), (6, s.enginesSection)]
  let all := if s.dump.sram then six else six ++ [(7, s.historySection), (8, s.queueSection)]
  ({ s with draws := s.draws + 5035016 }, all, Nat.min 255 (outs / 1000))

/-- Bytes of a dump in all (R404). -/
def dumpLen (s : State) : Nat := if s.dump.sram then 843776 else 14270464

/-- One section entry of the header: `part` names the section in progress when a further error came. -/
def sectionEntry (secs : List (Nat × List Byte)) (outs part : Nat) (x : Nat × Nat × Nat) : List Byte :=
  match secs.find? (·.1 == x.1) with
  | some (_, bs) =>
    leBytes 2 x.1 ++ leBytes 2 (1 + 2 * b2n (part == x.1) + (if x.1 = 2 then 256 * outs else 0)) ++ leBytes 4 (4096 * x.2.1)
      ++ leBytes 4 bs.length ++ leBytes 4 (crc32 bs)
  | none => leBytes 2 x.1 ++ List.replicate 14 0

/-- The header (*Dump header*). -/
def dumpHeader (s : State) (secs : List (Nat × List Byte)) (outs part status : Nat) : List Byte :=
  let d := s.dump
  let head := leBytes 4 0x3208DF00 ++ leBytes 2 1 ++ leBytes 2 8 ++ leBytes 2 d.cause ++ leBytes 1 (b2n d.sram) ++ leBytes 1 status
    ++ leBytes 6 d.time ++ leBytes 2 d.second ++ leBytes 4 d.epoch ++ leBytes 4 d.topState.toNat
    ++ leBytes 4 (s.rd F.SEC_IMAGE_ID_build_id) ++ leBytes 4 d.detail ++ leBytes 4 s.dumpLen ++ List.replicate 20 0
  head ++ leBytes 4 (crc32 head) ++ dumpPlan.flatMap fun x => sectionEntry secs outs part x

/-- Bytes of the dump are written to its area. -/
def dumpPut (s : State) (lo : Nat) (bs : List Byte) : State :=
  if s.dump.sram then { s with dump := { s.dump with area := blit lo bs s.dump.area } }
  else
    let pages := (bs.length + 4095) / 4096
    s.onMem fun m =>
      { m with dram := blit lo bs m.dram,
               dramEcc := m.dramEcc.filter fun c => decide (8 * c.1 < lo) || decide (lo + bs.length ≤ 8 * c.1),
               dramValid := (List.range pages).foldl (fun v i => mapSet false v (lo / 4096 + i) true) m.dramValid }

/-- The dump is complete (R404, step 5). The section in progress at a further error is not in the state: free. -/
def dumpFinish (s : State) (partialDump : Bool) : State :=
  let (s, secs, outs) := s.dumpSections
  let bad := partialDump || s.dump.second != 0
  let part := if bad then 1 + s.freeNat % secs.length else 0
  let status := if bad then 3 else 2
  let head := s.dumpHeader secs outs part status
  let s := secs.foldl (fun s x => match dumpPlan.find? (·.1 == x.1) with
    | some p => s.dumpPut (4096 * p.2.1) x.2
    | none => s) (s.drew)
  let s := s.dumpPut 0 head
  let s := { s with dump := { s.dump with writing := false } }
  let s := ((s.wr F.EVR_DUMP_STAT_present 1).wr F.EVR_DUMP_STAT_area (b2n s.dump.sram)).wr F.EVR_DUMP_STAT_status status
  let s := s.wr F.EVR_DUMP_STAT_pages (s.dumpLen / 4096)
  (s.setInt F.EVR_INT_dump_done).logEvent srcEvr 0xC003 (b2n s.dump.sram) status

end State

open State

/-- DUMP_COMPLETE (R404). -/
def execDumpComplete (partialDump : Bool) (s : State) : Out :=
  .next (if s.dump.writing then s.dumpFinish partialDump else s)

/-- DRAM_CONTROLLER_FATAL (R403): a controller that is in service. -/
def execDramControllerFatal (pc : Fin 32) (s : State) : Out :=
  .next (if s.flag F.MEM_STAT_dram_ready then s.fatal 5 pc.val else s)

end Sys2Proof.Machine
end

