-- ==== Sys2Proof/Machine/Ptp.lean ====
section
/-!
DEFINITION. The transparent clock (R239–R245): finding a frame in a port's block stream, its stamp at ingress and its correction at
egress, both made in the blocks themselves.
-/

namespace Sys2Proof.Machine

/-! ## Frames as bytes -/

/-- A 16-bit field of a frame, first byte most significant. -/
def be16 (b : List Byte) (i : Nat) : Nat := 256 * (b.getD i 0).toNat + (b.getD (i + 1) 0).toNat

/-- The number that bytes spell, first byte most significant. -/
def ofBe (b : List Byte) : Nat := b.foldl (fun a x => 256 * a + x.toNat) 0

/-- `n` bytes of a number, most significant first. -/
def beBytes (n v : Nat) : List Byte := (leBytes n v).reverse

/-- Overwrite bytes of a frame at an offset. -/
def patch (b : List Byte) (i : Nat) (v : List Byte) : List Byte := b.take i ++ v ++ b.drop (i + v.length)

/-- Where the EtherType stands: after up to two VLAN tags (R239). -/
def etherAt (b : List Byte) : Nat :=
  let tag (i : Nat) : Bool := be16 b i == 0x8100 || be16 b i == 0x88A8
  if tag 12 then (if tag 16 then 20 else 16) else 12

/-- The encapsulation, 0 Ethernet, 1 IPv4 and 2 IPv6, and the offsets of the UDP header and of the PTP header of a frame of
*Recognised encapsulations*. -/
def encapsulation (b : List Byte) : Option (Nat × Nat × Nat) :=
  let t := etherAt b
  let ip := t + 2
  let at_ (i : Nat) : Nat := (b.getD i 0).toNat
  if be16 b t = 0x88F7 then some (0, 0, t + 2)
  else if be16 b t = 0x0800 then
    let udp := ip + 4 * (at_ ip % 16)
    if at_ ip / 16 = 4 ∧ be16 b (ip + 6) % 0x4000 = 0 ∧ at_ (ip + 9) = 17 ∧ be16 b (udp + 2) = 319 then some (1, udp, udp + 8)
    else none
  else if be16 b t = 0x86DD then
    let udp := ip + 40
    if at_ (ip + 6) = 17 ∧ be16 b (udp + 2) = 319 then some (2, udp, udp + 8) else none
  else none

/-- A PTP event message: encapsulation, UDP and PTP offsets (R239). -/
def ptpEvent (b : List Byte) : Option (Nat × Nat × Nat) :=
  match encapsulation b with
  | none => none
  | some (e, u, p) =>
    if p + 34 ≤ b.length ∧ (b.getD p 0).toNat % 16 ≤ 3 ∧ (b.getD (p + 1) 0).toNat % 16 = 2 then some (e, u, p) else none

/-- The sum of the 16-bit words of an even run of bytes. -/
def wordSum : List Byte → Nat
  | [] => 0
  | [a] => 256 * a.toNat
  | a :: b :: t => 256 * a.toNat + b.toNat + wordSum t

/-- The last two bytes of the UDP payload after its correctionField has changed, so that the one's complement sum stays
(R242): both spellings of zero keep it, and `neg` chooses. -/
def trailWord (old new : List Byte) (trail : Nat) (odd neg : Bool) : Nat :=
  let d := (wordSum old + (65535 - wordSum new % 65535)) % 65535
  let d := if odd then d % 256 * 256 + d / 256 else d
  let r := (trail + d) % 65535
  if r = 0 ∧ neg then 0xFFFF else r

/-- The frame with its FCS computed anew: the CRC of IEEE 802.3, which has the parameters of R283 (log entry 9). -/
def withFcs (b : List Byte) : List Byte :=
  let body := b.take (b.length - 4)
  body ++ leBytes 4 (crc32 body)

/-! ## Frames as 66-bit blocks -/

/-- The bytes of a block that belong to a frame: eight of a data block, those before the terminate character of a terminate block. -/
def frameBytes66 (b : BitVec 66) : List Byte :=
  let bs := (List.range 8).map fun i => BitVec.ofNat 8 (ofMsb (((bits66 b).drop (8 * i)).take 8).reverse)
  if isCtrl66 b then (bs.drop 1).take ([0x87, 0x99, 0xAA, 0xB4, 0xCC, 0xD2, 0xE1, 0xFF].idxOf (type66 b)) else bs

/-- The block with those bytes of a frame in place of its own. -/
def withBytes66 (b : BitVec 66) (v : List Byte) : BitVec 66 :=
  let new := bytesLsb (v.map (·.toNat))
  let bits := bits66 b
  let skip := if isCtrl66 b then 8 else 0
  BitVec.ofNat 66 (ofMsb (sync66 b ++ bits.take skip ++ new ++ bits.drop (skip + new.length)))

/-- A frame read from a stream: its bytes so far, the blocks that they take, whether it ends with its FCS in them, and whether a
control block other than a terminate block meets it first (R240). -/
structure FrameView where
  bytes : List Byte
  len : Nat
  whole : Bool
  marked : Bool
  deriving DecidableEq, Repr

/-- Read a frame from block `n` of a stream on. -/
def readFrame (get : Nat → Option (BitVec 66)) : Nat → Nat → FrameView → FrameView
  | 0, _, v => v
  | fuel + 1, n, v =>
    match get n with
    | none => v
    | some b =>
      if isTerm66 b then { v with bytes := v.bytes ++ frameBytes66 b, len := v.len + 1, whole := true }
      else if isCtrl66 b then { v with marked := true }
      else readFrame get fuel (n + 1) { v with bytes := v.bytes ++ frameBytes66 b, len := v.len + 1 }

/-- The blocks of a frame at `place` that change when its bytes become `new`. -/
def changedBlocks (get : Nat → Option (BitVec 66)) (place : Nat) (v : FrameView) (new : List Byte) : List (Nat × BitVec 66) :=
  (List.range v.len).filterMap fun k =>
    match get (place + k) with
    | some b =>
      let own := (new.drop (8 * k)).take (frameBytes66 b).length
      if own = frameBytes66 b then none else some (place + k, withBytes66 b own)
    | none => none

/-- 66-bit blocks of a stream are replaced in the 257-bit blocks of a run of them that begins at number `start`. -/
def swapBlocks (ws : List (Nat × BitVec 66)) (start : Nat) (blocks : List Block) : List Block :=
  ws.foldl (fun bs (n, b) =>
    let k := n - start
    if start ≤ n ∧ k < 4 * bs.length then bs.set (k / 4) (transcode ((expand (bs.getD (k / 4) 0)).set (k % 4) b)) else bs) blocks

/-- Those of `ws` that a unit with its first block at `start` holds. -/
def touchesUnit (ws : List (Nat × BitVec 66)) (start : Nat) : Bool :=
  ws.any fun w => decide (start ≤ w.1) && decide (w.1 < start + 236)

/-- The payload bit of a unit at which the 66-bit block number `k` of it begins, where no control block follows in its 257-bit block
before it ends (R44): the first bits of a 257-bit block with a control block are four longer and that block four shorter. -/
def payloadBit (k : Nat) : Nat := 257 * (k / 4) + 1 + 64 * (k % 4)

/-- Whole units of 1/256 ns in a time of the residence base. -/
def baseUnits (t : Int) : Int := t / (5 * 2 ^ 40)

/-- Symbol periods at 228 GBd in units of the residence base (R243). -/
def symTime (n : Nat) : Nat := n * (64 * 5 * 2 ^ 40) / 57

/-- The residence base in datapath cycle `c`, from the ticks `marks`: between two ticks it has advanced evenly, and since the newest
by `inc` in each time-clock cycle (R243). -/
def baseFrom (inc c : Nat) : Option (Nat × Nat) → List (Nat × Nat × Nat) → Option Nat
  | _, [] => none
  | newer, (m, b, r) :: t =>
    if m ≤ c then
      let k := (r + (c - m) * 10240) / 29184
      match newer with
      | none => some (b + k * inc)
      | some (m2, b2) => some (b + k * (b2 - b) / Nat.max 1 ((r + (m2 - m) * 10240) / 29184))
    else baseFrom inc c (some (m, b)) t

namespace State

/-! ## Where a port's blocks stand -/

/-- The number of the first block of the open unit of a port. -/
def openStart (s : State) (p : Fin 16) : Nat := s.dp.ports[p].packed - 4 * s.dp.ports[p].openBlocks.length

/-- The units of a port on their way to the line, with the number of their first 66-bit block: the open one, those of the ready
queue, those in this superframe's slots, and the retained ones. -/
def unitsOf (s : State) (p : Fin 16) : List (Nat × List Block) :=
  (s.openStart p, s.dp.ports[p].openBlocks)
    :: ((s.dp.framer.ready.filter (·.port == p.val)).map fun u => (u.start, u.blocks))
    ++ (s.dp.tx.toList.flatMap fun t => (t.slots.filter fun u => u.kind != 0 && u.port == p.val).map fun u => (u.start, u.blocks))
    ++ ((s.dp.ledger.retention.filter (·.unit.port == p.val)).map fun r => (r.unit.start, r.unit.blocks))

/-- The unit of a port that holds block `n`. -/
def unitWith (s : State) (p : Fin 16) (n : Nat) : Option (Nat × List Block) :=
  (s.unitsOf p).find? fun u => decide (u.1 ≤ n) && decide (n < u.1 + 4 * u.2.length)

/-- Block `n` of a port's stream: of the stream to the line, or of the one in the elastic buffer. -/
def blockAt (s : State) (toLine : Bool) (p : Fin 16) (n : Nat) : Option (BitVec 66) :=
  if toLine then
    (s.unitWith p n).bind fun u => (u.2[(n - u.1) / 4]?).map fun b => (expand b).getD ((n - u.1) % 4) error66
  else
    let q := s.dp.ports[p]
    let first := q.shown - q.eb.length
    if first ≤ n then q.eb[n - first]? else none

/-- Blocks of a port's stream are replaced wherever they stand, in the retained copies too: a replay carries what the first
transmission carried (R244). -/
def patchBlocks (s : State) (toLine : Bool) (p : Fin 16) (ws : List (Nat × BitVec 66)) : State :=
  if toLine then
    let first := s.openStart p
    let s := s.onPort p fun q => { q with openBlocks := swapBlocks ws first q.openBlocks }
    let inUnit (u : TxUnit) : TxUnit := if u.port = p.val then { u with blocks := swapBlocks ws u.start u.blocks } else u
    let inSlot (u : SlotUnit) : SlotUnit :=
      if u.kind ≠ 0 ∧ u.port = p.val then { u with blocks := swapBlocks ws u.start u.blocks } else u
    let mine (r : Retained) : Bool := r.unit.port == p.val && touchesUnit ws r.unit.start
    let s := s.onFramer fun f => { f with ready := f.ready.map inUnit }
    let s := s.onDp fun d => { d with tx := d.tx.map fun t => { t with slots := t.slots.map inSlot } }
    let s := s.onLedger fun l => { l with retention := l.retention.map fun r => { r with unit := inUnit r.unit } }
    (s.dp.ledger.retention.filter mine).foldl (fun s r => s.storeWrite false r.seq r.unit.blocks) s
  else
    let first := s.dp.ports[p].shown - s.dp.ports[p].eb.length
    s.onPort p fun q => { q with eb := ws.foldl (fun bs (n, b) => if first ≤ n then bs.set (n - first) b else bs) q.eb }

/-- The frame that begins at block `place`: a start block stands before it, unless that has gone (R240). -/
def frameAt (s : State) (toLine : Bool) (p : Fin 16) (place : Nat) : FrameView :=
  let get := s.blockAt toLine p
  let begun := match get (place - 1) with | some b => isCtrl66 b && type66 b == 0x78 | none => true
  if begun then readFrame get 2048 place { bytes := [], len := 0, whole := false, marked := false }
  else { bytes := [], len := 0, whole := false, marked := false }

/-! ## Measurement points (R243) -/

/-- The offset of a measurement point. -/
def pointOfs (s : State) (a : Nat) : Int := toSigned 32 (s.inForceReg a).toNat

/-- The residence base that a datapath cycle held. -/
def baseAt (s : State) (c : Nat) : Nat := (baseFrom s.timeInc c none s.dp.time.marks).getD s.dp.time.base

/-- The residence base so many time-clock cycles after the counter last advanced. -/
def baseAfter (s : State) (cycles : Int) : Int := s.dp.time.base + cycles * s.timeInc

/-- The stamp I of a frame, in 1/256 ns: at a host ingress the base at the entry of its destination address; at a line ingress that of
the arrival of its first unit's nominal slot, plus the symbol position. None where its unit is not known. -/
def stampI (s : State) (toLine : Bool) (p : Fin 16) (place : Nat) (cycles : Int) : Option Nat :=
  if toLine then some (ofSigned 32 (baseUnits (s.baseAfter cycles) - s.pointOfs R.TIME_OFS_HOST_RX))
  else
    (s.dp.ports[p].froms.find? fun u => decide (u.1 ≤ place) && decide (place < u.1 + 236)).map fun u =>
      let at_ := s.baseAt (u.2 / 128) + symTime (u.2 % 128 + (64 + payloadBit (place - u.1)) / 2)
      ofSigned 32 (baseUnits at_ - s.pointOfs R.TIME_OFS_LINE_RX)

/-- The stamp E of a frame (R243, R244): at a line egress it is known once its first unit has been sent. -/
def stampE (s : State) (f : PtpFrame) (cycles : Int) : Option Nat :=
  if f.toLine then
    f.t1.map fun t => ofSigned 32 (baseUnits (s.baseAt t + symTime ((64 + f.bit) / 2)) + s.pointOfs R.TIME_OFS_LINE_TX)
  else some (ofSigned 32 (baseUnits (s.baseAfter cycles) + s.pointOfs R.TIME_OFS_HOST_TX))

/-- The payload bit of its unit at which a frame on its way to the line begins, and T1 of that unit where it has been sent. -/
def frameStart (s : State) (p : Fin 16) (place : Nat) : Nat × Option Nat :=
  let start := match s.unitWith p place with | some u => u.1 | none => place
  (payloadBit (place - start),
    (s.dp.ledger.retention.find? fun r => r.unit.port == p.val && r.unit.start == start).bind (·.t1))

/-! ## Stamp and correction -/

/-- A recognised frame is skipped at ingress (R240). -/
def ptpSkipped (s : State) (b : List Byte) (e u p : Nat) (marked : Bool) : Bool :=
  be16 b (p + 16) != 0 || be16 b (p + 18) != 0 || decide (160 < p + 34 - 6) || marked
    || (e == 2 && (decide (be16 b (u + 4) < be16 b (p + 2) + 2) || !s.cfgOn F.TIME_CTRL_v6_trail))

/-- A frame passes an ingress (R239–R241). -/
def ptpIngress (s : State) (toLine : Bool) (port : Fin 16) (place : Nat) (cycles : Int) : State :=
  let v := s.frameAt toLine port place
  match ptpEvent v.bytes, s.stampI toLine port place cycles with
  | some (e, u, p), some i =>
    if s.ptpSkipped v.bytes e u p v.marked then s.bump R.TIME_PTP_SKIP
    else
      let b := patch v.bytes (p + 16) (beBytes 4 i)
      let b := if e = 1 then patch b (u + 6) [0, 0] else b
      let (bit, t1) := if toLine then s.frameStart port place else (0, none)
      let f : PtpFrame :=
        { toLine := toLine, port := port, place := place, len := v.len, bytes := b, stamp := some (p, e, i), bit := bit, t1 := t1 }
      (s.patchBlocks toLine port (changedBlocks (s.blockAt toLine port) place v b)).onTime fun t => { t with flight := t.flight ++ [f] }
  | _, _ => s

/-- The corrected correctionField, and whether it saturates (R242). -/
def corrected64 (old r : Nat) : Nat × Bool :=
  let v := toSigned 64 old + (256 * r : Nat)
  if old = 2 ^ 63 - 1 ∨ (2 ^ 63 - 1 : Int) < v then (2 ^ 63 - 1, true) else (ofSigned 64 v, false)

/-- A stamped frame of bytes `b` with its PTP header at `p` is corrected by the residence time `r` (R242). -/
def ptpCorrect (s : State) (b : List Byte) (p e r : Nat) (toLine : Bool) : State × List Byte :=
  let old := (b.drop (p + 8)).take 8
  let (v, sat) := corrected64 (ofBe old) r
  let new := beBytes 8 v
  let b := patch (patch b (p + 8) new) (p + 16) [0, 0, 0, 0]
  let u := p - 8
  let last := u + be16 b (u + 4) - 2
  let (s, b) := if e = 2 then
      (s.drew, patch b last (beBytes 2 (trailWord old new (be16 b last) (be16 b (u + 4) % 2 == 1) (s.freeNat % 2 == 1))))
    else (s, b)
  let s := if sat then s.bump R.TIME_PTP_SAT else s
  (s.bump (if toLine then R.TIME_PTP_CORR_H2L else R.TIME_PTP_CORR_L2H), withFcs b)

/-- A stamped frame passes an egress (R240, R242): one that an error control block meets before its FCS keeps it, and has only its
stamp taken out again. -/
def ptpEgress (s : State) (f : PtpFrame) (port : Fin 16) (p e i t : Nat) (v : FrameView) : State :=
  let (s', b) :=
    if v.marked then (s.bump R.TIME_PTP_SKIP, patch v.bytes (p + 16) [0, 0, 0, 0])
    else s.ptpCorrect v.bytes p e ((t + 2 ^ 32 - i) % 2 ^ 32) f.toLine
  (s'.patchBlocks f.toLine port (changedBlocks (s.blockAt f.toLine port) f.place v b)).onTime fun x => { x with lastOut := b }

/-- The first stamped frame of a direction and port that stands whole, or met by an error, in the stream and whose stamp E is
known. -/
def readyFrame (s : State) (toLine : Bool) (port : Fin 16) (cycles : Int) : Option (PtpFrame × FrameView × Nat) :=
  s.dp.time.flight.findSome? fun f =>
    if f.toLine == toLine && f.port == port.val then
      let v := s.frameAt toLine port f.place
      if v.whole || v.marked then (s.stampE f cycles).map fun t => (f, v, t) else none
    else none

end State

open State

/-- PTP_INGRESS_STAMP (R239–R241, R243). -/
def execPtpIngressStamp (toLine : Bool) (port : Fin 16) (place : Nat) (cycles : Int) (s : State) : Out :=
  let known := s.dp.time.flight.any fun f => f.toLine == toLine && f.port == port.val && f.place == place
  if s.cvMode && s.cfgOn F.TIME_CTRL_tc_en && !known then .next (s.ptpIngress toLine port place cycles) else .next s

/-- PTP_EGRESS_CORRECT (R240, R242–R244). -/
def execPtpEgressCorrect (toLine : Bool) (port : Fin 16) (cycles : Int) (s : State) : Out :=
  match s.readyFrame toLine port cycles with
  | some (f, v, t) =>
    let s := s.onTime fun x => { x with flight := x.flight.filter (· != f) }
    match f.stamp with
    | some (p, e, i) => .next (s.ptpEgress f port p e i t v)
    | none => .next s
  | none => .next s

end Sys2Proof.Machine
end

