-- ==== Sys2Proof/Machine/Dispatch.lean ====
section
/-!
DEFINITION. The meaning of each command: one arm for each row of the table of operations and events.
-/

namespace Sys2Proof.Machine

def exec (i : Instr) (s : State) : Host.Outcome State Fault Refusal :=
  match i with
  | .vddAonPowerUp => Sys2Proof.Machine.execVddAonPowerUp s
  | .vddAonRemoved => Sys2Proof.Machine.execVddAonRemoved s
  | .resetNAssert => Sys2Proof.Machine.execResetNAssert s
  | .resetNRelease => Sys2Proof.Machine.execResetNRelease s
  | .strapSample bootsel maddr pclass safedef => Sys2Proof.Machine.execStrapSample bootsel maddr pclass safedef s
  | .fuseLoad checkOk => Sys2Proof.Machine.execFuseLoad checkOk s
  | .checkerSelfTest failing => Sys2Proof.Machine.execCheckerSelfTest failing s
  | .dramInitDone ok => Sys2Proof.Machine.execDramInitDone ok s
  | .nvmDiscovery erase4k headerAt0 headerAt8M => Sys2Proof.Machine.execNvmDiscovery erase4k headerAt0 headerAt8M s
  | .headerCheck bytes secondaryMagic poison => Sys2Proof.Machine.execHeaderCheck bytes secondaryMagic poison s
  | .recordRead reads poison => Sys2Proof.Machine.execRecordRead reads poison s
  | .signatureCheck => Sys2Proof.Machine.execSignatureCheck s
  | .igsReportsRunning => Sys2Proof.Machine.execIgsReportsRunning s
  | .igsStartTimeout => Sys2Proof.Machine.execIgsStartTimeout s
  | .alwaysOnCycle oscCount => Sys2Proof.Machine.execAlwaysOnCycle oscCount s
  | .superframeTimerTick => Sys2Proof.Machine.execSuperframeTimerTick s
  | .commitGo port nsToBoundary => Sys2Proof.Machine.execCommitGo port nsToBoundary s
  | .snapGo port clear => Sys2Proof.Machine.execSnapGo port clear s
  | .snapComplete => Sys2Proof.Machine.execSnapComplete s
  | .pmonDataRead port => Sys2Proof.Machine.execPmonDataRead port s
  | .registerWrite write sameCycle => Sys2Proof.Machine.execRegisterWrite write sameCycle s
  | .rcRegisterRead read sameCycle => Sys2Proof.Machine.execRcRegisterRead read sameCycle s
  | .loRegisterRead port addr => Sys2Proof.Machine.execLoRegisterRead port addr s
  | .unmappedAccess port addr write => Sys2Proof.Machine.execUnmappedAccess port addr write s
  | .handshakeTimeout port addr => Sys2Proof.Machine.execHandshakeTimeout port addr s
  | .mdioDataLoRead phy mmd before => Sys2Proof.Machine.execMdioDataLoRead phy mmd before s
  | .mdioDataHiWrite phy mmd before hi => Sys2Proof.Machine.execMdioDataHiWrite phy mmd before hi s
  | .dramWindowAccess port addr write parity => Sys2Proof.Machine.execDramWindowAccess port addr write parity s
  | .nop port => Sys2Proof.Machine.execNop port s
  | .link port => Sys2Proof.Machine.execLink port s
  | .retrain port => Sys2Proof.Machine.execRetrain port s
  | .power port => Sys2Proof.Machine.execPower port s
  | .shutdown port => Sys2Proof.Machine.execShutdown port s
  | .resetDp port => Sys2Proof.Machine.execResetDp port s
  | .reset port => Sys2Proof.Machine.execReset port s
  | .capture port => Sys2Proof.Machine.execCapture port s
  | .bist port => Sys2Proof.Machine.execBist port s
  | .imageLoad port => Sys2Proof.Machine.execImageLoad port s
  | .debugChal port => Sys2Proof.Machine.execDebugChal port s
  | .debugResp port => Sys2Proof.Machine.execDebugResp port s
  | .debugLock port => Sys2Proof.Machine.execDebugLock port s
  | .laser port => Sys2Proof.Machine.execLaser port s
  | .commandCollide port opcode => Sys2Proof.Machine.execCommandCollide port opcode s
  | .commandTakeupTimeout => Sys2Proof.Machine.execCommandTakeupTimeout s
  | .linkWaitTimeout => Sys2Proof.Machine.execLinkWaitTimeout s
  | .debugChallengeExpire => Sys2Proof.Machine.execDebugChallengeExpire s
  | .fuseOpGo port op => Sys2Proof.Machine.execFuseOpGo port op s
  | .fuseOpDone progFailed mismatch => Sys2Proof.Machine.execFuseOpDone progFailed mismatch s
  | .bscanInstruction drives => Sys2Proof.Machine.execBscanInstruction drives s
  | .hostRsCodeword port cyc burst => Sys2Proof.Machine.execHostRsCodeword port cyc burst s
  | .portAmLockLoss port => Sys2Proof.Machine.execPortAmLockLoss port s
  | .portAmLockReturn port skewNs => Sys2Proof.Machine.execPortAmLockReturn port skewNs s
  | .localFaultBlockInsert port cyc => Sys2Proof.Machine.execLocalFaultBlockInsert port cyc s
  | .slotDecision cw poison => Sys2Proof.Machine.execSlotDecision cw poison s
  | .controlMessageCapture => Sys2Proof.Machine.execControlMessageCapture s
  | .dacCalRunRequest port lane => Sys2Proof.Machine.execDacCalRunRequest port lane s
  | .dacCalRunEnd lane result => Sys2Proof.Machine.execDacCalRunEnd lane result s
  | .lanePowerUp lane record => Sys2Proof.Machine.execLanePowerUp lane record s
  | .adcCalRunRequest port lane => Sys2Proof.Machine.execAdcCalRunRequest port lane s
  | .adcCalPeriodExpire lane => Sys2Proof.Machine.execAdcCalPeriodExpire lane s
  | .adcCalOfflineDone lane offset gain skew => Sys2Proof.Machine.execAdcCalOfflineDone lane offset gain skew s
  | .adcCalShadowDone lane rms => Sys2Proof.Machine.execAdcCalShadowDone lane rms s
  | .adcCalStepEnd lane spur sndr => Sys2Proof.Machine.execAdcCalStepEnd lane spur sndr s
  | .cdrFallbackLimit lane burst => Sys2Proof.Machine.execCdrFallbackLimit lane burst s
  | .cdrLockChange lane burst => Sys2Proof.Machine.execCdrLockChange lane burst s
  | .pilotPeakFound lane burst => Sys2Proof.Machine.execPilotPeakFound lane burst s
  | .pilotPlateauNoPeak lane burst => Sys2Proof.Machine.execPilotPlateauNoPeak lane burst s
  | .pilotUpdate lane burst signal => Sys2Proof.Machine.execPilotUpdate lane burst signal s
  | .throttlePauseEnd lane => Sys2Proof.Machine.execThrottlePauseEnd lane s
  | .acquireTimeout lane => Sys2Proof.Machine.execAcquireTimeout lane s
  | .tapSwitch lane block => Sys2Proof.Machine.execTapSwitch lane block s
  | .fastRetrainPilotFound lane burst => Sys2Proof.Machine.execFastRetrainPilotFound lane burst s
  | .tapDataWrite port lane value => Sys2Proof.Machine.execTapDataWrite port lane value s
  | .tapDataRead port lane => Sys2Proof.Machine.execTapDataRead port lane s
  | .controlMessageAccept copies => Sys2Proof.Machine.execControlMessageAccept copies s
  | .codewordArrive lane now burst displaced => Sys2Proof.Machine.execCodewordArrive lane now burst displaced s
  | .poolTick => Sys2Proof.Machine.execPoolTick s
  | .coreDispatch now poison => Sys2Proof.Machine.execCoreDispatch now poison s
  | .iterationEnd core => Sys2Proof.Machine.execIterationEnd core s
  | .codewordDeadline core => Sys2Proof.Machine.execCodewordDeadline core s
  | .notDispatchedExpire => Sys2Proof.Machine.execNotDispatchedExpire s
  | .coreStall core => Sys2Proof.Machine.execCoreStall core s
  | .messageMemoryUe core now => Sys2Proof.Machine.execMessageMemoryUe core now s
  | .releaseRecord poison histLost => Sys2Proof.Machine.execReleaseRecord poison histLost s
  | .historyBurstWritten => Sys2Proof.Machine.execHistoryBurstWritten s
  | .handOn sfc cw => Sys2Proof.Machine.execHandOn sfc cw s
  | .holdVerifyRead poison => Sys2Proof.Machine.execHoldVerifyRead poison s
  | .unitExpire => Sys2Proof.Machine.execUnitExpire s
  | .unitDueRelease poison => Sys2Proof.Machine.execUnitDueRelease poison s
  | .lineFaultOnset => Sys2Proof.Machine.execLineFaultOnset s
  | .bankRebuildDone bank => Sys2Proof.Machine.execBankRebuildDone bank s
  | .inviteTimer => Sys2Proof.Machine.execInviteTimer s
  | .partnerAbsentTimeout => Sys2Proof.Machine.execPartnerAbsentTimeout s
  | .bringupStepTimeout => Sys2Proof.Machine.execBringupStepTimeout s
  | .partnerLossTimeout => Sys2Proof.Machine.execPartnerLossTimeout s
  | .ensignCheck lane labels arrival => Sys2Proof.Machine.execEnsignCheck lane labels arrival s
  | .relockTimeout lane => Sys2Proof.Machine.execRelockTimeout lane s
  | .fullRetrainTimeout lane => Sys2Proof.Machine.execFullRetrainTimeout lane s
  | .windowCheckDone => Sys2Proof.Machine.execWindowCheckDone s
  | .lineSignalDetect lane => Sys2Proof.Machine.execLineSignalDetect lane s
  | .hostSignalDetect lane => Sys2Proof.Machine.execHostSignalDetect lane s
  | .hostAdaptDone lane lower middle upper => Sys2Proof.Machine.execHostAdaptDone lane lower middle upper s
  | .hostAdaptTimeout lane => Sys2Proof.Machine.execHostAdaptTimeout lane s
  | .emfMeasure lane lower middle upper => Sys2Proof.Machine.execEmfMeasure lane lower middle upper s
  | .hostLaneDown lane signal => Sys2Proof.Machine.execHostLaneDown lane signal s
  | .hostRxRestart port lane => Sys2Proof.Machine.execHostRxRestart port lane s
  | .hostIdleExit lane quickEmf => Sys2Proof.Machine.execHostIdleExit lane quickEmf s
  | .hostFastExitTimeout lane => Sys2Proof.Machine.execHostFastExitTimeout lane s
  | .egressBlockOut port cyc => Sys2Proof.Machine.execEgressBlockOut port cyc s
  | .prbsResync port lane => Sys2Proof.Machine.execPrbsResync port lane s
  | .prbsSlipBit port lane => Sys2Proof.Machine.execPrbsSlipBit port lane s
  | .prbsSlipSym port lane => Sys2Proof.Machine.execPrbsSlipSym port lane s
  | .prbsCheckLock lane symbols => Sys2Proof.Machine.execPrbsCheckLock lane symbols s
  | .prbsLockLoss lane symbols => Sys2Proof.Machine.execPrbsLockLoss lane symbols s
  | .pennantPreambleDetect secondary blocks => Sys2Proof.Machine.execPennantPreambleDetect secondary blocks s
  | .burgeeMatch secondary blocks => Sys2Proof.Machine.execBurgeeMatch secondary blocks s
  | .burgeeTimeout blocks => Sys2Proof.Machine.execBurgeeTimeout blocks s
  | .pennantHeaderReceived blocks => Sys2Proof.Machine.execPennantHeaderReceived blocks s
  | .pennantCapture blocks => Sys2Proof.Machine.execPennantCapture blocks s
  | .pennantCodewordDecoded blocks endUs => Sys2Proof.Machine.execPennantCodewordDecoded blocks endUs s
  | .pennantTxStart now => Sys2Proof.Machine.execPennantTxStart now s
  | .pennantTxEnd nowUs => Sys2Proof.Machine.execPennantTxEnd nowUs s
  | .mailSend port lenM1 => Sys2Proof.Machine.execMailSend port lenM1 s
  | .mailAbort port => Sys2Proof.Machine.execMailAbort port s
  | .mailAckTimeout => Sys2Proof.Machine.execMailAckTimeout s
  | .mailPop port => Sys2Proof.Machine.execMailPop port s
  | .telemetryTimer => Sys2Proof.Machine.execTelemetryTimer s
  | .timeWrap cycles => Sys2Proof.Machine.execTimeWrap cycles s
  | .timeNowRead port cycles => Sys2Proof.Machine.execTimeNowRead port cycles s
  | .timeStepGo port absolute => Sys2Proof.Machine.execTimeStepGo port absolute s
  | .timeStepApply cycles => Sys2Proof.Machine.execTimeStepApply cycles s
  | .ptpIngressStamp toLine port place cycles => Sys2Proof.Machine.execPtpIngressStamp toLine port place cycles s
  | .ptpEgressCorrect toLine port cycles => Sys2Proof.Machine.execPtpEgressCorrect toLine port cycles s
  | .tsyncEdge rising cycles sub => Sys2Proof.Machine.execTsyncEdge rising cycles sub s
  | .ppsWindowClose cycles => Sys2Proof.Machine.execPpsWindowClose cycles s
  | .servoOfsWrite port value => Sys2Proof.Machine.execServoOfsWrite port value s
  | .monWindowEnd count modulated => Sys2Proof.Machine.execMonWindowEnd count modulated s
  | .refclkLoss => Sys2Proof.Machine.execRefclkLoss s
  | .synthRelock synth => Sys2Proof.Machine.execSynthRelock synth s
  | .revert port => Sys2Proof.Machine.execRevert port s
  | .trimMeasure tsync count => Sys2Proof.Machine.execTrimMeasure tsync count s
  | .rampStep domain => Sys2Proof.Machine.execRampStep domain s
  | .pllUnlock synth => Sys2Proof.Machine.execPllUnlock synth s
  | .clkGateWrite port value inProgress => Sys2Proof.Machine.execClkGateWrite port value inProgress s
  | .gateCloseForced gate => Sys2Proof.Machine.execGateCloseForced gate s
  | .quietIdleTimeout => Sys2Proof.Machine.execQuietIdleTimeout s
  | .standbyIdleTimeout => Sys2Proof.Machine.execStandbyIdleTimeout s
  | .participantAnswer rxIdleUs dramPending => Sys2Proof.Machine.execParticipantAnswer rxIdleUs dramPending s
  | .participantDelayLimit => Sys2Proof.Machine.execParticipantDelayLimit s
  | .finalWindowEnd => Sys2Proof.Machine.execFinalWindowEnd s
  | .wakeSource source => Sys2Proof.Machine.execWakeSource source s
  | .exitComplete => Sys2Proof.Machine.execExitComplete s
  | .retentionVerify failed => Sys2Proof.Machine.execRetentionVerify failed s
  | .readinessTimeout source => Sys2Proof.Machine.execReadinessTimeout source s
  | .wakeRetry => Sys2Proof.Machine.execWakeRetry s
  | .wakeFailClear port => Sys2Proof.Machine.execWakeFailClear port s
  | .followSquelchEnd => Sys2Proof.Machine.execFollowSquelchEnd s
  | .conversionEnd n => Sys2Proof.Machine.execConversionEnd n s
  | .hskEntryDelayEnd poison => Sys2Proof.Machine.execHskEntryDelayEnd poison s
  | .refReady => Sys2Proof.Machine.execRefReady s
  | .biasUpdate now => Sys2Proof.Machine.execBiasUpdate now s
  | .biasCurrentLimit ch atLimit => Sys2Proof.Machine.execBiasCurrentLimit ch atLimit s
  | .sensorReading microvolts => Sys2Proof.Machine.execSensorReading microvolts s
  | .txdisChange high => Sys2Proof.Machine.execTxdisChange high s
  | .scrubRead dram loc syndrome parity => Sys2Proof.Machine.execScrubRead dram loc syndrome parity s
  | .memClearGo port => Sys2Proof.Machine.execMemClearGo port s
  | .memClearDone => Sys2Proof.Machine.execMemClearDone s
  | .memInjArm port value => Sys2Proof.Machine.execMemInjArm port value s
  | .dramBankFail pc bank => Sys2Proof.Machine.execDramBankFail pc bank s
  | .bistSliceEnd report => Sys2Proof.Machine.execBistSliceEnd report s
  | .nopInstruction e => Sys2Proof.Machine.execNopInstruction e s
  | .add e d a b => Sys2Proof.Machine.execAdd e d a b s
  | .sub e d a b => Sys2Proof.Machine.execSub e d a b s
  | .and e d a b => Sys2Proof.Machine.execAnd e d a b s
  | .or e d a b => Sys2Proof.Machine.execOr e d a b s
  | .xor e d a b => Sys2Proof.Machine.execXor e d a b s
  | .shl e d a b => Sys2Proof.Machine.execShl e d a b s
  | .shr e d a b => Sys2Proof.Machine.execShr e d a b s
  | .sar e d a b => Sys2Proof.Machine.execSar e d a b s
  | .mul e d a b => Sys2Proof.Machine.execMul e d a b s
  | .slt e d a b => Sys2Proof.Machine.execSlt e d a b s
  | .sltu e d a b => Sys2Proof.Machine.execSltu e d a b s
  | .min e d a b => Sys2Proof.Machine.execMin e d a b s
  | .max e d a b => Sys2Proof.Machine.execMax e d a b s
  | .addi e d a imm => Sys2Proof.Machine.execAddi e d a imm s
  | .andi e d a imm => Sys2Proof.Machine.execAndi e d a imm s
  | .ori e d a imm => Sys2Proof.Machine.execOri e d a imm s
  | .xori e d a imm => Sys2Proof.Machine.execXori e d a imm s
  | .shli e d a imm => Sys2Proof.Machine.execShli e d a imm s
  | .shri e d a imm => Sys2Proof.Machine.execShri e d a imm s
  | .sari e d a imm => Sys2Proof.Machine.execSari e d a imm s
  | .movi e d imm => Sys2Proof.Machine.execMovi e d imm s
  | .movhi e d imm => Sys2Proof.Machine.execMovhi e d imm s
  | .ld e d a imm => Sys2Proof.Machine.execLd e d a imm s
  | .st e src a imm => Sys2Proof.Machine.execSt e src a imm s
  | .brd e d a imm handshake => Sys2Proof.Machine.execBrd e d a imm handshake s
  | .bwr e src a imm => Sys2Proof.Machine.execBwr e src a imm s
  | .engineWriteDrain e nsToBoundary => Sys2Proof.Machine.execEngineWriteDrain e nsToBoundary s
  | .beq e a b off => Sys2Proof.Machine.execBeq e a b off s
  | .bne e a b off => Sys2Proof.Machine.execBne e a b off s
  | .blt e a b off => Sys2Proof.Machine.execBlt e a b off s
  | .bge e a b off => Sys2Proof.Machine.execBge e a b off s
  | .bltu e a b off => Sys2Proof.Machine.execBltu e a b off s
  | .bgeu e a b off => Sys2Proof.Machine.execBgeu e a b off s
  | .j e target => Sys2Proof.Machine.execJ e target s
  | .call e target => Sys2Proof.Machine.execCall e target s
  | .ret e => Sys2Proof.Machine.execRet e s
  | .macc e a b => Sys2Proof.Machine.execMacc e a b s
  | .msub e a b => Sys2Proof.Machine.execMsub e a b s
  | .rdacc e d imm => Sys2Proof.Machine.execRdacc e d imm s
  | .clracc e => Sys2Proof.Machine.execClracc e s
  | .ldacc e a imm => Sys2Proof.Machine.execLdacc e a imm s
  | .wfe e d imm => Sys2Proof.Machine.execWfe e d imm s
  | .tset e a imm => Sys2Proof.Machine.execTset e a imm s
  | .kick e => Sys2Proof.Machine.execKick e s
  | .halt e => Sys2Proof.Machine.execHalt e s
  | .dumpComplete partialDump => Sys2Proof.Machine.execDumpComplete partialDump s
  | .engineTimerExpire e timer => Sys2Proof.Machine.execEngineTimerExpire e timer s
  | .engineWatchdogExpire e => Sys2Proof.Machine.execEngineWatchdogExpire e s
  | .engineHaltRequest port e => Sys2Proof.Machine.execEngineHaltRequest port e s
  | .engineRunRequest port e => Sys2Proof.Machine.execEngineRunRequest port e s
  | .engineStepRequest port e => Sys2Proof.Machine.execEngineStepRequest port e s
  | .engineRestart port e => Sys2Proof.Machine.execEngineRestart port e s
  | .engineDoorbell e => Sys2Proof.Machine.execEngineDoorbell e s
  | .enginePowerAnswer e answer delayMs => Sys2Proof.Machine.execEnginePowerAnswer e answer delayMs s
  | .engineLogWrite e code arg => Sys2Proof.Machine.execEngineLogWrite e code arg s
  | .engineMemDataAccess port e write => Sys2Proof.Machine.execEngineMemDataAccess port e write s
  | .igsFreezeWrite port value => Sys2Proof.Machine.execIgsFreezeWrite port value s
  | .eventAccept captured => Sys2Proof.Machine.execEventAccept captured s
  | .evrWin0Read port => Sys2Proof.Machine.execEvrWin0Read port s
  | .evrWin3Read port => Sys2Proof.Machine.execEvrWin3Read port s
  | .evrFreezeWrite port freeze => Sys2Proof.Machine.execEvrFreezeWrite port freeze s
  | .captureEnd stream overrunPost => Sys2Proof.Machine.execCaptureEnd stream overrunPost s
  | .captureAbort port => Sys2Proof.Machine.execCaptureAbort port s
  | .captureWaitTimeout => Sys2Proof.Machine.execCaptureWaitTimeout s
  | .lineSignalLoss lane => Sys2Proof.Machine.execLineSignalLoss lane s
  | .dramControllerFatal pc => Sys2Proof.Machine.execDramControllerFatal pc s
  | .bistCommandTimeout => Sys2Proof.Machine.execBistCommandTimeout s
  | .laserTimeout => Sys2Proof.Machine.execLaserTimeout s
  | .powerAnswerTimeout e => Sys2Proof.Machine.execPowerAnswerTimeout e s
  | .vddAonFall => Sys2Proof.Machine.execVddAonFall s
  | .illegalInstruction e word => Sys2Proof.Machine.execIllegalInstruction e word s

end Sys2Proof.Machine
end

