-- ==== Sys2Proof/Safety.lean ====
section
/-!
DEFINITION. The terms that claims use: a command that answers, what a command may touch, and the canonical form of every
sparse part of the state. A run is safe where every command of the queue answers a next state.
-/

namespace Sys2Proof.Machine

/-- The command answers a next state of which `P` holds. -/
def Answers (c : Instr) (s : State) (P : State → Prop) : Prop := ∃ t, exec c s = .next t ∧ P t

/-- No command of the queue stops: the next `k` steps all answer. -/
def SafeRun : Nat → State → Prop
  | 0, _ => True
  | k + 1, s => ∃ t, step s = .next t ∧ SafeRun k t

/-- The parts of the state beside its registers. Engines, the recorder and MEM have two: `eng`, `evr` and `mem` whole, and what an event
that is raised or logged, or a port's access, leaves alone in them. -/
inductive Part where
  | staged | inForce | mgmt | boot | clk | pwr | hsk | bias | therm | safe | mem | memStore | eng | engStore | evr | evrStore | cap | dump
  | dp
  deriving DecidableEq, Repr

/-- What an event leaves alone in an engine: its memories, accumulator, stack, timers, program and write buffer. -/
def Engine.store (g : Engine) : List (Nat × Word) × List (Nat × Word) × BitVec 64 × List Nat × Nat × Nat × Bool ×
    List (Nat × Word × Nat) := (g.prog, g.data, g.acc, g.stack, g.timer0, g.timer1, g.hasProg, g.wbuf)

/-- What logging an event leaves alone in the recorder: all but the events that wait for acceptance. -/
def Evr.store (e : Evr) : Nat × Bool × Nat × List EvrEntry × List EvrEntry × List EvrEntry × List Word :=
  (e.time, e.recording, e.wr, e.kept, e.circ, e.hold, e.latched)

/-- What a port access leaves alone in MEM: all but the check bits of registers. -/
def MemState.store (m : MemState) : MemState := { m with regEcc := [] }

/-- A part is the same in two states. -/
def Part.Same (s t : State) : Part → Prop
  | .staged => t.staged = s.staged
  | .inForce => t.inForce = s.inForce
  | .mgmt => t.mgmt = s.mgmt
  | .boot => t.boot = s.boot
  | .clk => t.clk = s.clk
  | .pwr => t.pwr = s.pwr
  | .hsk => t.hsk = s.hsk
  | .bias => t.bias = s.bias
  | .therm => t.therm = s.therm
  | .safe => t.safe = s.safe
  | .mem => t.mem = s.mem
  | .memStore => t.mem.store = s.mem.store
  | .eng => t.eng = s.eng
  | .engStore => ∀ e : Fin 9, t.eng[e].store = s.eng[e].store
  | .evr => t.evr = s.evr
  | .evrStore => t.evr.store = s.evr.store
  | .cap => t.cap = s.cap
  | .dump => t.dump = s.dump
  | .dp => t.dp = s.dp

/-- Between two states at most the parts `ps` and the registers `may` change. The queue does not. -/
def Touches (ps : List Part) (may : Nat → Prop) (s t : State) : Prop :=
  (∀ p, p ∉ ps → p.Same s t) ∧ (∀ a, ¬ may a → t.reg a = s.reg a) ∧ t.pending = s.pending

/-- The registers of the nine engines (R390): an event that reaches an engine counts in them (R387). -/
def engReg (a : Nat) : Prop := 0xD1000 ≤ a ∧ a < 0xD1900

/-- The registers of one engine (R390). -/
def ownReg (e : Fin 9) (a : Nat) : Prop := 0xD1000 + 0x100 * e.val ≤ a ∧ a < 0xD1100 + 0x100 * e.val

/-- Engine `e` runs, and the instruction at its PC is fetched without a fault (R376, R382). -/
def State.issues (s : State) (e : Fin 9) : Bool :=
  s.canIssue e && decide (s.eng[e].pc < State.progWords e) && mapGet 0 s.eng[e].ecc (s.eng[e].pc / 2) == 0

/-- Engine `e` has become `g`, but for a counter's sample that may have been taken, with its EV bit 4 (R389). Beside it at
most its own registers have changed. -/
def Retired (e : Fin 9) (g : Engine) (s t : State) : Prop :=
  t.eng[e] = { g with ev := t.eng[e].ev, samplePend := t.eng[e].samplePend }
    ∧ (∀ i, i ≠ 4 → t.eng[e].ev.getLsbD i = g.ev.getLsbD i) ∧ (∀ k : Fin 9, k ≠ e → t.eng[k] = s.eng[k])
    ∧ Touches [.eng, .engStore] (ownReg e) s t

/-- An engine that goes on at `next` after an instruction of `n` cycles: no LD has just been made, and the accumulator is `n`
cycles nearer (R376). -/
def Engine.goesOn (g : Engine) (next n : Nat) : Engine :=
  { g with pc := next, ldDest := none, accBusy := g.accBusy - n }

/-- What noticing an event touches beside its own registers: TOP_INT, the recorder's drop count and flag, and the engines'. -/
def noticeReg (a : Nat) : Prop := a = R.TOP_INT ∨ a = R.EVR_DROP_CNT ∨ a = R.EVR_INT ∨ engReg a

/-- Nothing keeps an access of a port from the register at `a`, and nothing stands in its way: the port reaches it, a block
stands there with its clock and its power domain on, the buses keep their ratio (R307), its word reads without an error and
has no injection waiting (R358), and no commit holds a staged register (R258). -/
def State.ready (s : State) (port : Fin 5) (a : Nat) : Bool :=
  s.reach port a && blockMapped a && (regDesc a).isSome && !s.gated a && !s.crossesBroken a
    && (State.isStaged a || (s.domainOff a).isNone) && !(State.isStaged a && s.flag F.TOP_COMMIT_busy)
    && !(s.flag F.MEM_INJ_CTRL_armed && (s.reg R.MEM_INJ_ADDR).toNat == a) && mapGet 0 s.mem.regEcc a == 0
    && a % 4 == 0 && decide (a < 0x10000000)

/-- Every sparse part of the state is in its canonical form. -/
def State.canonical (s : State) : Bool :=
  regMapWf s.regs && regMapWf s.staged && regMapWf s.inForce

/-- The memories are in their canonical form: rising addresses, and nothing listed that an unlisted address reads as; DRAM,
then the SRAM arrays' check bits and valid bits, the words behind registers and the DRAM banks. -/
def MemState.wf (m : MemState) : Bool :=
  (mapWf (fun _ => 0) m.dram && mapWf (fun _ => false) m.dramValid && mapWf (fun _ => 0) m.dramEcc)
    && (mapWf (fun _ => false) m.sramValid && mapWf (fun _ => 0) m.sramEcc && mapWf (fun _ => 0) m.regEcc
      && mapWf (fun _ => false) m.banksSpared && mapWf (fun _ => false) m.banksLost)

end Sys2Proof.Machine
end

