-- ==== Sys2Proof/Certificates/Slice0/Obligations.lean ====
section
/-!
DEFINITION. The statements about the block, for the provers. Each docstring names the rules that it formalises, or on which
it rests. A statement about a command says under which conditions on the state and the operands the command has its own
effect, what the next state then holds, and what it leaves as it was.
-/

open Sys2Proof Sys2Proof.Machine Sys2Proof.Machine.State


/-- A 32-bit counter that stops at all ones has counted `n` (R11). -/
def Claims.counted (s t : State) (a n : Nat) : Prop := (t.reg a).toNat = min 0xFFFFFFFF ((s.reg a).toNat + n)

/-- A 64-bit counter in two halves that wraps has counted `n` (R11). -/
def Claims.counted64 (s t : State) (lo n : Nat) : Prop := t.count64 lo = (s.count64 lo + n) % 2 ^ 64

/-- The registers that an uncorrectable read writes (R357). -/
def Claims.ueReg (a : Nat) : Prop :=
  a = R.MEM_SRAM_UE_CNT ∨ a = R.MEM_DRAM_UE_CNT ∨ a = R.MEM_ERR_ADDR ∨ a = R.MEM_ERR_INFO ∨ a = R.MEM_INT ∨ noticeReg a

/-! ## Igsin instructions -/

/-- The cycle that an instruction stalls because it uses the register that the last LD wrote (R376). -/
def Claims.stallOf (g : Engine) (uses : List (Fin 16)) : Nat :=
  if uses.any (fun r => g.ldDest == some r) then 1 else 0

/-- R376, R382: an instruction of format R writes its register; everything else of the engine stands. R375, R376: an
instruction with an immediate, sign-extended from 18 bits; MOVHI keeps the lower half. -/
def Obligations.ArithmeticInstructions : Prop :=
  (∀ (s : State) (e : Fin 9) (d a b : Fin 16), s.issues e = true →
      ∀ p ∈ ([(.add e d a b, 1, fun x y => x + y), (.sub e d a b, 1, fun x y => x - y),
          (.and e d a b, 1, fun x y => x &&& y), (.or e d a b, 1, fun x y => x ||| y), (.xor e d a b, 1, fun x y => x ^^^ y),
          (.shl e d a b, 1, fun x y => BitVec.ofNat 32 (x.toNat * 2 ^ (y.toNat % 32))),
          (.shr e d a b, 1, fun x y => BitVec.ofNat 32 (x.toNat / 2 ^ (y.toNat % 32))),
          (.sar e d a b, 1, fun x y => BitVec.ofInt 32 (x.toInt / 2 ^ (y.toNat % 32))),
          (.mul e d a b, 2, fun x y => BitVec.ofNat 32 (x.toNat * y.toNat)),
          (.slt e d a b, 1, fun x y => if x.toInt < y.toInt then 1 else 0),
          (.sltu e d a b, 1, fun x y => if x.toNat < y.toNat then 1 else 0),
          (.min e d a b, 1, fun x y => if x.toInt ≤ y.toInt then x else y),
          (.max e d a b, 1, fun x y => if x.toInt ≤ y.toInt then y else x)] : List (Instr × Nat × (Word → Word → Word))),
        Answers p.1 s (Retired e ({ s.eng[e] with g := s.eng[e].g.set d (p.2.2 s.eng[e].g[a] s.eng[e].g[b]) }.goesOn
          (s.eng[e].pc + 1) (p.2.1 + Claims.stallOf s.eng[e] [a, b])) s))
  ∧
  (∀ (s : State) (e : Fin 9) (d a : Fin 16) (imm : BitVec 18) (hi : BitVec 16), s.issues e = true →
      (∀ p ∈ ([(.addi e d a imm, fun x y => x + BitVec.ofInt 32 y), (.andi e d a imm, fun x y => x &&& BitVec.ofInt 32 y),
          (.ori e d a imm, fun x y => x ||| BitVec.ofInt 32 y), (.xori e d a imm, fun x y => x ^^^ BitVec.ofInt 32 y),
          (.shli e d a imm, fun x y => BitVec.ofNat 32 (x.toNat * 2 ^ (y % 32).toNat)),
          (.shri e d a imm, fun x y => BitVec.ofNat 32 (x.toNat / 2 ^ (y % 32).toNat)),
          (.sari e d a imm, fun x y => BitVec.ofInt 32 (x.toInt / 2 ^ (y % 32).toNat))] : List (Instr × (Word → Int → Word))),
        Answers p.1 s (Retired e ({ s.eng[e] with g := s.eng[e].g.set d (p.2 s.eng[e].g[a] imm.toInt) }.goesOn
          (s.eng[e].pc + 1) (1 + Claims.stallOf s.eng[e] [a])) s))
      ∧ Answers (.movi e d imm) s (Retired e
          ({ s.eng[e] with g := s.eng[e].g.set d (BitVec.ofInt 32 imm.toInt) }.goesOn (s.eng[e].pc + 1) 1) s)
      ∧ Answers (.movhi e d hi) s (Retired e
          ({ s.eng[e] with g := s.eng[e].g.set d (BitVec.ofNat 32 (hi.toNat * 2 ^ 16 + s.eng[e].g[d].toNat % 2 ^ 16)) }.goesOn
            (s.eng[e].pc + 1) (1 + Claims.stallOf s.eng[e] [d])) s))

/-- R374, R376, R382: LD reads data memory, and stalls a use of its register in the next instruction; ST writes it. A
misaligned address is a trap of cause 5, one beyond the memory of cause 4, before any effect. Where the spec leaves a point
open, the model's choice stands: log entry 7. -/
def Obligations.DataMemory : Prop :=
  ∀ (s : State) (e : Fin 9) (d a : Fin 16) (imm : BitVec 18), s.issues e = true →
    let at_ := (s.eng[e].g[a] + BitVec.ofInt 32 imm.toInt).toNat
    (at_ % 4 = 0 → at_ < State.dataBytes e → mapGet 0 s.eng[e].ecc (2 ^ 20 + at_ / 8) = 0 →
      Answers (.ld e d a imm) s (Retired e { s.eng[e] with
          g := s.eng[e].g.set d (mapGet 0 s.eng[e].data (at_ / 4)), pc := s.eng[e].pc + 1, ldDest := some d,
          accBusy := s.eng[e].accBusy - (1 + Claims.stallOf s.eng[e] [a]) } s)
      ∧ Answers (.st e d a imm) s (Retired e ({ s.eng[e] with
          data := mapSet 0 s.eng[e].data (at_ / 4) s.eng[e].g[d] }.goesOn (s.eng[e].pc + 1)
            (1 + Claims.stallOf s.eng[e] [d, a])) s))
    ∧ (at_ % 4 ≠ 0 ∨ State.dataBytes e ≤ at_ → ∀ c ∈ [.ld e d a imm, .st e d a imm],
        Answers c s fun t => t = s.engineTrap e (if at_ % 4 ≠ 0 then 5 else 4))

/-- R376: a branch goes on at PC + 1 + off in 2 cycles where its test holds, and at PC + 1 in 1 where it does not. It writes
no register. R374, R376, R382: J, CALL and RET. The return stack holds 4 entries: a CALL on a full one is a trap of cause 6,
a RET on an empty one of cause 7, and a target beyond program memory of cause 1. Where the spec leaves a point open, the
model's choice stands: log entry 6. -/
def Obligations.ControlFlow : Prop :=
  (∀ (s : State) (e : Fin 9) (a b : Fin 16) (off : BitVec 18), s.issues e = true →
      -- a target below 0 is the model's choice (log entry 6)
      0 ≤ (s.eng[e].pc : Int) + 1 + off.toInt →
      let x := s.eng[e].g[a]
      let y := s.eng[e].g[b]
      ∀ p ∈ ([(.beq e a b off, x.toNat == y.toNat), (.bne e a b off, x.toNat != y.toNat),
          (.blt e a b off, decide (x.toInt < y.toInt)), (.bge e a b off, decide (y.toInt ≤ x.toInt)),
          (.bltu e a b off, decide (x.toNat < y.toNat)), (.bgeu e a b off, decide (y.toNat ≤ x.toNat))] : List (Instr × Bool)),
        Answers p.1 s (Retired e (s.eng[e].goesOn
          (if p.2 then ((s.eng[e].pc : Int) + 1 + off.toInt).toNat else s.eng[e].pc + 1)
          ((if p.2 then 2 else 1) + Claims.stallOf s.eng[e] [a, b])) s))
  ∧
  (∀ (s : State) (e : Fin 9) (target : BitVec 16), s.issues e = true →
      (target.toNat < State.progWords e →
        Answers (.j e target) s (Retired e (s.eng[e].goesOn target.toNat 2) s)
        ∧ (s.eng[e].stack.length < 4 → Answers (.call e target) s (Retired e
            ({ s.eng[e] with stack := (s.eng[e].pc + 1) :: s.eng[e].stack }.goesOn target.toNat 2) s)))
      ∧ (∀ back rest, s.eng[e].stack = back :: rest →
          Answers (.ret e) s (Retired e ({ s.eng[e] with stack := rest }.goesOn back 2) s))
      ∧ (s.eng[e].stack = [] → Answers (.ret e) s fun t => t = s.engineTrap e 7)
      ∧ (4 ≤ s.eng[e].stack.length → Answers (.call e target) s fun t => t = s.engineTrap e 6)
      ∧ (State.progWords e ≤ target.toNat → Answers (.j e target) s fun t => t = s.engineTrap e 1))

/-- R376: the accumulator adds and subtracts full products and saturates at 64 bits; RDACC shifts it right with rounding, half
away from zero, and saturates at 32; LDACC shifts left and saturates. -/
def Obligations.AccumulatorInstructions : Prop :=
  ∀ (s : State) (e : Fin 9) (d a b : Fin 16) (imm : BitVec 18), s.issues e = true →
    let g := s.eng[e]
    let sat (n : Nat) (v : Int) : BitVec n := BitVec.ofInt n (max (- 2 ^ (n - 1)) (min (2 ^ (n - 1) - 1) v))
    (∀ p ∈ ([(.macc e a b, 1), (.msub e a b, -1)] : List (Instr × Int)),
      Answers p.1 s (Retired e { g with
        acc := sat 64 (g.acc.toInt + p.2 * (g.g[a].toInt * g.g[b].toInt)), accBusy := 2, pc := g.pc + 1, ldDest := none } s))
    ∧ Answers (.clracc e) s (Retired e ({ g with acc := 0 }.goesOn (g.pc + 1) 1) s)
    ∧ Answers (.ldacc e a imm) s (Retired e ({ g with acc := sat 64 (g.g[a].toInt * 2 ^ (imm.toNat % 64)) }.goesOn (g.pc + 1)
        (1 + Claims.stallOf g [a])) s)
    ∧ Answers (.rdacc e d imm) s (Retired e ({ g with
        g := g.g.set d (sat 32 (roundDiv g.acc.toInt (2 ^ (imm.toNat % 64)))) }.goesOn (g.pc + 1) (1 + g.accBusy)) s)

/-- R376, R379, R380, R383: NOP; TSET loads a timer, or stops it; KICK restarts the watchdog; WFE returns the masked EV bits
and clears them, or waits; HALT stops the engine with cause 9, and a word that spells no instruction with cause 1. Where the
spec leaves a point open, the model's choice stands: log entry 5. -/
def Obligations.EventInstructions : Prop :=
  ∀ (s : State) (e : Fin 9) (d a : Fin 16) (imm : BitVec 18) (word : Word), s.issues e = true →
    let g := s.eng[e]
    let mask := imm.setWidth 16
    Answers (.nopInstruction e) s (Retired e (g.goesOn (g.pc + 1) 1) s)
    ∧ Answers (.tset e a imm) s (Retired e ((if imm.getLsbD 0 then { g with timer1 := g.g[a].toNat }
        else { g with timer0 := g.g[a].toNat }).goesOn (g.pc + 1) (1 + Claims.stallOf g [a])) s)
    ∧ Answers (.kick e) s (Retired e ({ g with wdog := (s.reg (R.IGS_En_WDOG e)).toNat % 2 ^ 8 }.goesOn (g.pc + 1) 1) s)
    ∧ (mask = 0 ∨ g.ev &&& mask ≠ 0 → Answers (.wfe e d imm) s (Retired e { g with
        g := g.g.set d ((g.ev &&& mask).setWidth 32), ev := g.ev &&& ~~~ mask, st := .run, wfe := none, pc := g.pc + 1,
        ldDest := none, accBusy := 0 } s))
    ∧ (mask ≠ 0 → g.ev &&& mask = 0 → Answers (.wfe e d imm) s (Retired e { g with st := .wait, wfe := some (d, mask) } s))
    ∧ Answers (.halt e) s (fun t => t = s.engineTrap e 9)
    ∧ (igsDecode e word 0 = none → Answers (.illegalInstruction e word) s fun t => t = s.engineTrap e 1)

/-- R382, R383: an engine that traps stops at the instruction, its cause stands and IGS_INT.trap[n] is set. IG-H and IG-N
keep every register, the accumulator, the stack and their memories. IG-S puts every lane in the safe state. IG-M and IG-P are
fatal errors 1 and 2. IG-Ak restarts at PC 0; its third trap within a second is fatal error 3. Where the spec leaves a point
open, the model's choice stands: log entry 61. -/
def Obligations.TrapConsequences : Prop :=
  ∀ (s : State) (e : Fin 9) (cause : Nat), s.dump.writing = false →
    let t := s.engineTrap e cause
    let recent := s.eng[e].trapTimes.filter fun x => decide (s.evr.time - x < 32768)
    let fatal (c detail : Nat) : Prop := t.mgmt.dev = .fault ∧ t.dump.writing = true ∧ t.dump.cause = c
      ∧ t.dump.detail = detail ∧ t.rd F.EVR_DUMP_STAT_status = 1
    (t.reg R.IGS_INT).getLsbD e = true ∧ t.eng[e].cause = cause
    ∧ (e = 3 ∨ e = 4 → t.eng[e].st = .stopped ∧ t.eng[e].pc = s.eng[e].pc ∧ t.eng[e].g = s.eng[e].g
        ∧ t.eng[e].store = s.eng[e].store
        ∧ Touches [.eng, .evr] (fun a => a = R.IGS_INT ∨ a = R.IGS_FREEZE ∨ noticeReg a) s t)
    ∧ (e = 1 → t.eng[e].st = .stopped ∧ t.safe.igsRun = false ∧ t.flag F.SAFE_FAULT_wdog = true
        ∧ ∀ n : Fin 8, t.safe.lane[n] = .safe)
    ∧ (e = 0 → t.eng[e].st = .stopped ∧ fatal 1 (cause + 2 ^ 16 * s.eng[e].pc))
    ∧ (e = 2 → fatal 2 (cause + 2 ^ 16 * s.eng[e].pc))
    ∧ (5 ≤ e.val → t.eng[e].restarts = min 15 (s.eng[e].restarts + 1)
        ∧ (recent.length < 2 → t.eng[e].st = .run ∧ t.eng[e].pc = 0 ∧ t.eng[e].acc = 0)
        ∧ (2 ≤ recent.length → fatal 3 e.val))

/-- R377, R381, R382: BRD reads device space when the engine's earlier writes have completed; BWR posts its write; the oldest
posted write completes first. Data that carry poison set TOP_ERR.poison and are a trap of cause 3, an access outside the
engine's windows is one of cause 4, a misaligned one of cause 5 (R265). Where the spec leaves a point open, the model's
choice stands: log entries 5, 7, 58, 59. -/
def Obligations.DeviceSpaceInstructions : Prop :=
  ∀ (s : State) (e : Fin 9) (d a : Fin 16) (imm : BitVec 18) (handshake ns : Nat),
    let g := s.eng[e]
    let at_ := (g.g[a] + BitVec.ofInt 32 imm.toInt).toNat
    (s.issues e = true →
      (at_ % 4 = 0 → s.engineMay e at_ false = true → g.wbuf = [] → handshake ≤ 256 →
        let r := s.busRead (Source.ofEngine e g.pc 40) at_ 0
        r.2.2 = false → Answers (.brd e d a imm handshake) s (Retired e ({ r.1.eng[e] with
          g := r.1.eng[e].g.set d r.2.1 }.goesOn (g.pc + 1)
            (s.brdCycles at_ handshake + Claims.stallOf r.1.eng[e] [a])) r.1))
      ∧ (at_ % 4 = 0 → s.engineMay e at_ false = true → g.wbuf = [] → handshake ≤ 256 →
        let r := s.busRead (Source.ofEngine e g.pc 40) at_ 0
        r.2.2 = true → Answers (.brd e d a imm handshake) s fun t =>
          t = (r.1.setTopErr F.TOP_ERR_poison).engineTrap e 3)
      ∧ (at_ % 4 = 0 → s.engineMay e at_ true = true → g.wbuf.length < 4 →
        Answers (.bwr e d a imm) s (Retired e ({ g with wbuf := g.wbuf ++ [(at_, g.g[d], g.pc)] }.goesOn (g.pc + 1)
          (1 + Claims.stallOf g [d, a])) s))
      ∧ (at_ % 4 ≠ 0 → ∀ c ∈ [.brd e d a imm handshake, .bwr e d a imm], Answers c s fun t => t = s.engineTrap e 5)
      ∧ (at_ % 4 = 0 → s.engineMay e at_ false = false →
        Answers (.brd e d a imm handshake) s fun t => t = s.engineTrap e 4)
      ∧ (at_ % 4 = 0 → s.engineMay e at_ true = false → Answers (.bwr e d a imm) s fun t => t = s.engineTrap e 4))
    ∧ (∀ (k : Fin 9) (j : Fin 4) (v : Word) (pc : Nat) (rest : List (Nat × Word × Nat)),
        let r := R.IGS_En_SCRk k j
        g.wbuf = (r, v, pc) :: rest → s.ready 4 r = true →
        Answers (.engineWriteDrain e ns) s fun t => t.reg r = v ∧ t.eng[e] = { g with wbuf := rest }
          ∧ (∀ x : Fin 9, x ≠ e → t.eng[x] = s.eng[x]) ∧ Touches [.eng, .engStore, .mem] (· = r) s t)

/-! ## Engine control, event record, capture and dump -/

/-- R378–R380, R384, R385, R388: a timer that expires sets its EV bit, which ends a WFE that waits for it; a watchdog that
expires is a trap of cause 8; a debugger halts, resumes and steps an engine, and reaches its memories, where security grants
it; a restart begins at PC 0; a doorbell sets EV bit 2. Where the spec leaves a point open, the model's choice stands: log
entries 22, 60. -/
def Obligations.EngineControl : Prop :=
  ∀ (s : State) (e : Fin 9) (timer : Fin 2) (port : Fin 5) (v : Word) (d : Fin 16) (m : BitVec 16),
    let g := s.eng[e]
    let left := if timer = 0 then g.timer0 else g.timer1
    let ctrl := s.ready port (R.IGS_En_CTRL e)
    let debug := s.debugPort port e
    (left ≠ 0 →
      (g.st ≠ .wait → Answers (.engineTimerExpire e timer) s fun t =>
        t.eng[e].ev.getLsbD timer = true ∧ (if timer = 0 then t.eng[e].timer0 else t.eng[e].timer1) = 0
        ∧ t.eng[e].st = g.st ∧ t.eng[e].pc = g.pc ∧ t.eng[e].g = g.g ∧ Touches [.eng, .engStore] (ownReg e) s t)
      ∧ (g.st = .wait → g.wfe = some (d, m) → m.getLsbD timer = true → Answers (.engineTimerExpire e timer) s fun t =>
        t.eng[e].st = .run ∧ t.eng[e].pc = g.pc + 1 ∧ (t.eng[e].g[d]).getLsbD timer = true
        ∧ t.eng[e].ev.getLsbD timer = false ∧ Touches [.eng, .engStore] (ownReg e) s t))
    ∧ (left = 0 → exec (.engineTimerExpire e timer) s = .next s)
    ∧ (s.engineAlive e = true →
      (e = 1 ∨ s.rd (F.IGS_En_WDOG_ms e) ≠ 0 → Answers (.engineWatchdogExpire e) s (· = s.engineTrap e 8))
      ∧ (e ≠ 1 → s.rd (F.IGS_En_WDOG_ms e) = 0 → exec (.engineWatchdogExpire e) s = .next s))
    ∧ (ctrl = true → debug = true →
      (s.engineAlive e = true → Answers (.engineHaltRequest port e) s fun t =>
        t.eng = s.eng.set e { g with st := .halted } ∧ Touches [.mem, .eng] (fun _ => False) s t)
      ∧ (g.st = .halted → g.wfe = none → Answers (.engineRunRequest port e) s fun t =>
        t.eng = s.eng.set e { g with st := .run } ∧ Touches [.mem, .eng] (fun _ => False) s t)
      ∧ (g.st = .halted → g.wfe = some (d, m) → g.ev &&& m = 0 → Answers (.engineRunRequest port e) s fun t =>
        t.eng = s.eng.set e { g with st := .wait } ∧ Touches [.mem, .eng] (fun _ => False) s t)
      ∧ (g.st = .halted → Answers (.engineStepRequest port e) s fun t => t.engineAlive e = false)
      ∧ (g.st = .halted → g.wfe = none → g.pc < State.progWords e → mapGet 0 g.ecc (g.pc / 2) = 0 →
        (∀ h, igsDecode e (mapGet 0 g.prog g.pc) h = some (.nopInstruction e)) → Answers (.engineStepRequest port e) s fun t =>
          t.eng[e].st = .halted ∧ t.eng[e].pc = g.pc + 1 ∧ t.eng[e].g = g.g ∧ Touches [.mem, .eng] (ownReg e) s t)
      ∧ (g.hasProg = true → Answers (.engineRestart port e) s fun t =>
        t.eng[e].st = .run ∧ t.eng[e].pc = 0 ∧ t.eng[e].g = Vector.replicate 16 0 ∧ t.eng[e].acc = 0 ∧ t.eng[e].ev = 0
        ∧ t.eng[e].prog = g.prog ∧ t.eng[e].data = g.data ∧ (∀ k : Fin 9, k ≠ e → t.eng[k] = s.eng[k])
        ∧ Touches [.mem, .eng, .engStore] (· = R.IGS_En_WDOG e) s t))
    ∧ (ctrl = true → debug = false →
      ∀ c ∈ [Instr.engineHaltRequest port e, .engineRunRequest port e, .engineStepRequest port e, .engineRestart port e],
        Answers c s fun t => Touches [.mem] (fun _ => False) s t)
    ∧ (s.reach 4 (R.IGS_En_DOORBELL e) = true → g.st ≠ .wait → Answers (.engineDoorbell e) s fun t =>
        t.eng[e].ev.getLsbD 2 = true ∧ t.eng[e].pc = g.pc ∧ t.eng[e].g = g.g ∧ Touches [.eng] (ownReg e) s t)
    ∧ (s.ready port (R.IGS_En_MEM_DATA e) = true → debug = true →
      let data := s.flag (F.IGS_En_MEM_ADDR_data e)
      let w := s.rd (F.IGS_En_MEM_ADDR_addr e) / 4
      let next (t : State) : Prop := t.rd (F.IGS_En_MEM_ADDR_addr e) = (s.rd (F.IGS_En_MEM_ADDR_addr e) + 4) % 2 ^ 18
        ∧ t.flag (F.IGS_En_MEM_ADDR_data e) = data
      (w < if data then State.dataBytes e / 4 else State.progWords e) →
      mapGet 0 g.ecc ((if data then 2 ^ 20 else 0) + w / 2) = 0 →
      Answers (.engineMemDataAccess port e none) s (fun t =>
        t.mgmt = { s.mgmt with readData := mapGet 0 (if data then g.data else g.prog) w } ∧ next t
        ∧ Touches [.mgmt] (· = R.IGS_En_MEM_ADDR e) s t)
      ∧ Answers (.engineMemDataAccess port e (some v)) s (fun t =>
        t.eng = s.eng.set e (if data then { g with data := mapSet 0 g.data w v }
          else { g with prog := mapSet 0 g.prog w v, hasProg := true })
        ∧ next t ∧ Touches [.mem, .eng, .engStore] (· = R.IGS_En_MEM_ADDR e) s t))
    ∧ (s.ready port R.IGS_FREEZE = true → Answers (.igsFreezeWrite port v) s fun t =>
        t.reg R.IGS_FREEZE = v &&& 3 ∧ Touches [.mem] (· = R.IGS_FREEZE) s t)

/-- R391–R397: an engine's event waits under its source, IG-H's and IG-N's in class 0xF, and a second one is dropped; an
accepted event is kept at index 0–255, then circulates; while the recorder is frozen it is held, or dropped when 32 are held;
clearing freeze appends what was held. -/
def Obligations.EventRecorder : Prop :=
  ∀ (s : State) (e : Fin 9) (code arg : BitVec 16) (port : Fin 5) (x : EvrEntry) (rest : List EvrEntry) (captured : Nat),
    let logged := if e = 3 ∨ e = 4 then code.toNat % 2 ^ 12 + 0xF000 else code.toNat
    let entry : EvrEntry := { time := s.evr.time, source := e, held := false, code := logged, argA := arg.toNat,
                              argB := s.eng[e].pc % 2 ^ 32 }
    let storing : Prop := s.evr.waiting = x :: rest ∧ s.watchHit x = false
      ∧ (s.cap.phase ≠ 1 ∨ x.code ≠ s.cap.trigCode)
    let open_ := !s.evrFrozen && s.evr.recording
    (s.ready 4 (R.IGS_En_LOG e) = true →
      (code ≠ 0 → s.evr.waiting.any (·.source == e.val) = false → Answers (.engineLogWrite e code arg) s fun t =>
        t.evr = { s.evr with waiting := State.insertWaiting entry s.evr.waiting } ∧ Touches [.mem, .evr] (fun _ => False) s t)
      ∧ (code ≠ 0 → s.evr.waiting.any (·.source == e.val) = true → Answers (.engineLogWrite e code arg) s fun t =>
        (t.reg R.EVR_DROP_CNT).toNat = min 0xFFFFFFFF ((s.reg R.EVR_DROP_CNT).toNat + 1) ∧ t.flag F.EVR_INT_drop = true
        ∧ Touches [.mem, .eng] (fun a => a = R.EVR_DROP_CNT ∨ a = R.EVR_INT ∨ engReg a) s t)
      ∧ (code = 0 → Answers (.engineLogWrite e code arg) s fun t => Touches [.mem] (fun _ => False) s t))
    ∧ (storing → open_ = true → s.evr.wr < 256 → Answers (.eventAccept captured) s fun t =>
        t.evr = { s.evr with waiting := rest, kept := s.evr.kept ++ [x], wr := s.evr.wr + 1 }
        ∧ (s.evr.wr = 255 → t.flag F.EVR_INT_kept_full = true)
        ∧ Touches [.evr, .evrStore, .eng] (fun a => a = R.EVR_INT ∨ engReg a) s t)
    ∧ (storing → open_ = true → 256 ≤ s.evr.wr → s.evr.circ.length ≤ 1024 → Answers (.eventAccept captured) s fun t =>
        t.evr.circ = (if s.evr.circ.length < 1024 then s.evr.circ else s.evr.circ.drop 1) ++ [x]
        ∧ t.evr.wr = s.evr.wr + 1 ∧ t.evr.kept = s.evr.kept ∧ t.evr.waiting = rest
        ∧ Touches [.evr, .evrStore] (fun _ => False) s t)
    ∧ (storing → open_ = false → s.evr.hold.length < 32 → Answers (.eventAccept captured) s fun t =>
        t.evr = { s.evr with waiting := rest, hold := s.evr.hold ++ [x] } ∧ Touches [.evr, .evrStore] (fun _ => False) s t)
    ∧ (storing → open_ = false → 32 ≤ s.evr.hold.length → Answers (.eventAccept captured) s fun t =>
        t.evr = { s.evr with waiting := rest } ∧ t.flag F.EVR_INT_hold_ovf = true
        ∧ (t.reg R.EVR_HOLD_OVF_CNT).toNat = min 0xFFFFFFFF ((s.reg R.EVR_HOLD_OVF_CNT).toNat + 1)
        ∧ Touches [.evr, .eng] (fun a => a = R.EVR_HOLD_OVF_CNT ∨ a = R.EVR_INT ∨ engReg a) s t)
    ∧ (s.evr.waiting = x :: rest → s.watchHit x = true → Answers (.eventAccept captured) s fun t =>
        t.flag F.EVR_INT_watch = true)
    ∧ (s.evr.waiting = x :: rest → s.cap.phase = 1 → x.code = s.cap.trigCode → Answers (.eventAccept captured) s fun t =>
        t.cap.phase = 2 ∧ t.cap.trigIndex = s.evr.wr ∧ t.cap.trigAon = s.evr.time ∧ t.rd F.CAP_STAT_state = 2
        ∧ t.flag F.CAP_STAT_pre_short = decide (captured * 100 < s.cap.preShare * s.cap.len))
    ∧ (s.ready port R.EVR_CTRL = true →
      Answers (.evrFreezeWrite port true) s (fun t => t.evrFrozen = true ∧ Touches [.mem] (· = R.EVR_CTRL) s t)
      ∧ (s.evr.recording = true → Answers (.evrFreezeWrite port false) s fun t =>
        t.evrFrozen = false ∧ t.evr.hold = [] ∧ t.evr.wr = s.evr.wr + s.evr.hold.length
        ∧ (s.evr.wr + s.evr.hold.length ≤ 256 →
            t.evr.kept = s.evr.kept ++ s.evr.hold.map fun y => { y with held := true })
        ∧ Touches [.mem, .evr, .evrStore, .eng] (fun a => a = R.EVR_CTRL ∨ a = R.EVR_INT ∨ engReg a) s t))

/-- R395: EVR_CURSOR takes an index; a read of EVR_WIN0 latches the whole entry at the cursor, and EVR_WIN1 to EVR_WIN3 return
words of that copy; a read of EVR_WIN3 advances the cursor by 1; an entry that the device no longer holds reads 0 and sets
gone, an index at or beyond wr reads 0 and sets future, and both bits reflect the last read of EVR_WIN0. -/
def Obligations.EventWindow : Prop :=
  ∀ (s : State) (port : Fin 5) (v : Word) (x : EvrEntry) (k : Fin 2),
    let i := s.rd F.EVR_CURSOR_index
    let window := s.ready port (R.EVR_WINk 0)
    let mid := R.EVR_WINk (1 + k)
    (s.ready port R.EVR_CURSOR = true → Answers (.registerWrite (.word port (BitVec.ofNat 32 R.EVR_CURSOR) v) 0) s fun t =>
        t.rd F.EVR_CURSOR_index = v.toNat ∧ Touches [.mem, .eng] (fun a => a = R.EVR_CURSOR ∨ engReg a) s t)
    ∧ (window = true → i < s.evr.wr % 2 ^ 32 → s.entryAt i = some x → Answers (.evrWin0Read port) s fun t =>
        t.evr = { s.evr with latched := x.words } ∧ t.mgmt = { s.mgmt with readData := BitVec.ofNat 32 x.time }
        ∧ t.flag F.EVR_WIN_STAT_future = false ∧ t.flag F.EVR_WIN_STAT_gone = false
        ∧ Touches [.mgmt, .evr, .evrStore] (· = R.EVR_WIN_STAT) s t)
    ∧ (window = true → i < s.evr.wr % 2 ^ 32 → s.entryAt i = none → Answers (.evrWin0Read port) s fun t =>
        t.mgmt = { s.mgmt with readData := 0 } ∧ t.evr = { s.evr with latched := [0, 0, 0, 0] }
        ∧ t.flag F.EVR_WIN_STAT_gone = true ∧ t.flag F.EVR_WIN_STAT_future = false
        ∧ Touches [.mgmt, .evr, .evrStore] (· = R.EVR_WIN_STAT) s t)
    ∧ (window = true → s.evr.wr % 2 ^ 32 ≤ i → Answers (.evrWin0Read port) s fun t =>
        t.mgmt = { s.mgmt with readData := 0 } ∧ t.evr = { s.evr with latched := [0, 0, 0, 0] }
        ∧ t.flag F.EVR_WIN_STAT_future = true ∧ t.flag F.EVR_WIN_STAT_gone = false
        ∧ Touches [.mgmt, .evr, .evrStore] (· = R.EVR_WIN_STAT) s t)
    ∧ (s.ready port mid = true → mapGet none s.mgmt.hiLatch ((Source.ofPort port 40 0).latchKey mid) = none →
      Answers (.rcRegisterRead (.word port (BitVec.ofNat 32 mid)) 0) s fun t =>
        t.mgmt = { s.mgmt with readData := s.evr.latched.getD (1 + k) 0 } ∧ Touches [.mgmt] (fun _ => False) s t)
    ∧ (s.ready port (R.EVR_WINk 3) = true → Answers (.evrWin3Read port) s fun t =>
        t.mgmt = { s.mgmt with readData := s.evr.latched.getD 3 0 } ∧ t.rd F.EVR_CURSOR_index = (i + 1) % 2 ^ 32
        ∧ Touches [.mgmt] (· = R.EVR_CURSOR) s t)

/-- R399–R404: a triggered capture that ends leaves its stream, packed and written round its ring, and its header in DRAM and
gives OK; an overflow, an abort and the end of a wait end it with FAIL or TIMEOUT; a stream of another source is none of it.
A DRAM controller's fatal error takes the device to FAULT and begins a dump in SRAM, whose end gives its status and its
pages. Where the spec leaves a point open, the model's choice stands: log entries 23, 98. -/
def Obligations.CaptureAndDump : Prop :=
  ∀ (s : State) (stream : CapStream) (post : Nat) (port : Fin 5) (pc : Fin 32) (cut : Bool),
    let ring := ringAfter s.cap.len (capBytes stream)
    let mine := capSource stream = s.cap.source
    let capReg (a : Nat) : Prop := a = R.CAP_STAT ∨ a = R.CAP_WRITTEN ∨ a = R.TOP_CMD_ARGk 0 ∨ a = R.TOP_CMD_STAT
      ∨ a = R.MEM_DRAM_CE_CNT ∨ Claims.ueReg a
    let ends (t : State) (status : Nat) : Prop :=
      t.cap = { s.cap with phase := 3 } ∧ t.rd F.CAP_STAT_state = 3
      ∧ (s.running 7 = true → t.rd F.TOP_CMD_STAT_status = status ∧ t.flag F.TOP_INT_cmd_done = true)
      ∧ Touches [.cap, .mem, .memStore, .mgmt, .eng, .evr] capReg s t
    (s.cap.phase = 2 → mine → s.cap.len ≤ 2 ^ 31 → ring.length ≤ s.cap.len →
      Answers (.captureEnd stream none) s fun t =>
        ends t 0 ∧ t.dramBytes 0x80000000 ring.length = ring ∧ t.dramBytes 0x7FFFF000 4 = leBytes 4 0x3208CA70
        ∧ (s.running 7 = true → t.arg 0 = 0x7FFFF000)
        ∧ ∀ a, a < 0x7FFFF000 ∨ 0x80000000 + ring.length ≤ a → t.dramByte a = s.dramByte a)
    ∧ (s.capRuns = true →
      (mine → Answers (.captureEnd stream (some post)) s fun t =>
        ends t 6 ∧ t.flag F.CAP_STAT_overrun = true ∧ (s.running 7 = true → t.arg 0 = 3))
      ∧ (s.ready port R.CAP_CTRL = true → Answers (.captureAbort port) s fun t =>
        ends t 6 ∧ (s.running 7 = true → t.arg 0 = 4)))
    ∧ (s.cap.phase = 1 → s.rd F.CAP_CFG_wait_ms ≠ 0 → Answers .captureWaitTimeout s fun t => ends t 5)
    ∧ (¬ mine → exec (.captureEnd stream none) s = .next s)
    ∧ (s.capRuns = false → exec (.captureEnd stream none) s = .next s ∧ exec .captureWaitTimeout s = .next s)
    ∧ (s.flag F.MEM_STAT_dram_ready = true → s.dump.writing = false → Answers (.dramControllerFatal pc) s fun t =>
        t.mgmt.dev = .fault ∧ t.faultN = true ∧ t.dump.writing = true ∧ t.dump.cause = 5 ∧ t.dump.detail = pc.val
        ∧ t.dump.sram = true ∧ t.rd F.EVR_DUMP_STAT_status = 1 ∧ t.flag F.EVR_DUMP_STAT_area = true
        ∧ t.eng[(0 : Fin 9)].st = .reset ∧ t.evrFrozen = false ∧ t.inForce = s.inForce ∧ t.staged = s.staged ∧ t.mem = s.mem)
    ∧ (s.flag F.MEM_STAT_dram_ready = true → s.dump.writing = true → s.dump.second = 0 →
      Answers (.dramControllerFatal pc) s fun t => t.dump = { s.dump with second := 5 } ∧ Touches [.dump] (fun _ => False) s t)
    ∧ (s.dump.writing = true → Answers (.dumpComplete cut) s fun t =>
        t.dump.writing = false ∧ t.flag F.EVR_DUMP_STAT_present = true ∧ t.flag F.EVR_DUMP_STAT_area = s.dump.sram
        ∧ t.rd F.EVR_DUMP_STAT_status = (if cut || s.dump.second != 0 then 3 else 2)
        ∧ t.rd F.EVR_DUMP_STAT_pages = (if s.dump.sram then 206 else 3484) ∧ t.flag F.EVR_INT_dump_done = true)
    ∧ (s.dump.writing = false → exec (.dumpComplete cut) s = .next s)

/-! ## Power, reset and boot -/

/-- What a hard reset leaves: every register and every copy at its reset word, every part at its reset value, but for the
fuses and the flash, the TXDIS pin, and the thermal latch and fault where they are kept (R8, R10, R353, R354); where the
device goes on to BOOT, that change of state is noticed (R266). The reset words that the spec does not state are the model's
(log entry 33). -/
def Claims.hardResetOf (s t : State) (latch boots : Bool) : Prop :=
  (∀ a, a ≠ R.THERM_STAT → a ≠ R.THERM_SHUT_INFO → a ≠ R.SAFE_FAULT → ¬ (boots = true ∧ noticeReg a) → t.reg a = resetWord a)
  ∧ (∀ a, t.stagedReg a = resetWord a ∧ t.inForceReg a = resetWord a)
  ∧ t.flag F.THERM_STAT_shut_latched = (latch && s.flag F.THERM_STAT_shut_latched)
  ∧ t.flag F.SAFE_FAULT_thermal = (latch && s.flag F.SAFE_FAULT_thermal)
  ∧ (latch = true → s.flag F.THERM_STAT_shut_latched = true → t.reg R.THERM_SHUT_INFO = s.reg R.THERM_SHUT_INFO)
  ∧ t.boot.fuses = s.boot.fuses ∧ t.boot.nvmRepair = s.boot.nvmRepair ∧ t.boot.phase = .reset
  ∧ t.safe = { State.reset.safe with txdis := s.safe.txdis } ∧ t.pwr = State.reset.pwr ∧ t.clk = State.reset.clk
  ∧ t.hsk = State.reset.hsk ∧ t.bias = State.reset.bias ∧ t.therm = State.reset.therm ∧ t.mem = State.reset.mem
  ∧ (boots = true ∨ t.eng = State.reset.eng ∧ t.evr = State.reset.evr) ∧ t.cap = State.reset.cap ∧ t.dump = State.reset.dump
  ∧ t.dp = State.reset.dp ∧ t.mgmt = { State.reset.mgmt with dev := t.mgmt.dev } ∧ t.pending = s.pending
  ∧ t.mgmt.dev = (if boots then .boot else .off) ∧ (boots = true → t.flag F.TOP_INT_state_chg = true)

/-- R8, R425: power-up of VDD_AON and assertion of RESET_N are hard resets, and a fall of VDD_AON loses the always-on state.
A thermal latch outlives all but a power-up after VDD_AON counts as removed (R347). Where the spec leaves a point open, the
model's choice stands: log entries 33, 104. -/
def Obligations.HardResets : Prop :=
  ∀ s : State,
    (s.boot.aonUp = false → Answers .vddAonPowerUp s fun t =>
      Claims.hardResetOf s t (!s.boot.removed) (!s.boot.resetLow) ∧ t.boot.aonUp = true
      ∧ t.boot.resetLow = s.boot.resetLow)
    ∧ (s.boot.aonUp = true → Answers .vddAonFall s fun t =>
      Claims.hardResetOf s t true false ∧ t.boot.aonUp = false ∧ t.boot.removed = false)
    ∧ (Answers .resetNAssert s fun t =>
      Claims.hardResetOf s t true false ∧ t.boot.aonUp = s.boot.aonUp ∧ t.boot.resetLow = true)

/-- R266, R275, R347, R425: release of RESET_N takes the device from OFF to BOOT, a change of state like any other; the
straps are held in SEC_STRAP, and the boot sequencer goes on to step 0x02, or to FAULT while a thermal shutdown is latched;
VDD_AON that stays away counts as removed. R277, R279, R284, R363: the fuses are loaded, and with a failed check the
lifecycle reads 3 and no key counts; the checkers pass, the recorder runs, and boot goes where BOOTSEL says; DRAM becomes
ready, or unusable; the flash is found. Where the spec leaves a point open, the model's choice stands: log entry 33. -/
def Obligations.ReleaseAndBootSteps : Prop :=
  (∀ (s : State) (bootsel : BitVec 2) (maddr : BitVec 3) (pclass : BitVec 2) (safedef : Bool),
      (s.boot.resetLow = true → s.boot.aonUp = true → Answers .resetNRelease s fun t =>
        t.mgmt.dev = .boot ∧ t.boot.resetLow = false ∧ t.mgmt.prev = .off ∧ t.flag F.TOP_INT_state_chg = true
        ∧ Touches [.boot, .mgmt, .eng, .evr] noticeReg s t)
      ∧ (s.boot.aonUp = false → Answers .vddAonRemoved s fun t =>
        t.boot.removed = true ∧ Touches [.boot] (fun _ => False) s t)
      ∧ (s.mgmt.dev = .boot → s.boot.phase = .reset → s.boot.aonUp = true → s.boot.resetLow = false →
        Answers (.strapSample bootsel maddr pclass safedef) s fun t =>
          t.rd F.SEC_STRAP_bootsel = bootsel.toNat ∧ t.rd F.SEC_STRAP_maddr = maddr.toNat
          ∧ t.rd F.SEC_STRAP_pclass = pclass.toNat ∧ t.flag F.SEC_STRAP_safedef = safedef
          ∧ (if s.flag F.THERM_STAT_shut_latched then t.mgmt.dev = .fault ∧ t.boot.phase = .reset
             else t.mgmt.dev = .boot ∧ t.boot.phase = .fuses ∧ t.rd F.SEC_BOOT_STAT_step = 2)
          ∧ Touches [.boot, .mgmt, .eng, .evr] (fun a => a = R.SEC_STRAP ∨ a = R.SEC_BOOT_STAT ∨ noticeReg a) s t))
  ∧
  (∀ (s : State) (ok erase at0 at8M : Bool),
      (s.mgmt.dev = .boot → s.boot.phase = .fuses → s.boot.fuses.sensorCal.length ≤ 12 → Answers (.fuseLoad ok) s fun t =>
        t.boot.phase = .checkers ∧ t.rd F.SEC_BOOT_STAT_step = 3
        ∧ t.rd F.SEC_LC_lc = (if ok then s.boot.fuses.lc % 4 else 3) ∧ t.rd F.SEC_LC_lc_fused = s.boot.fuses.lc % 4
        ∧ t.flag F.SEC_LC_vendor_set = (ok && s.boot.fuses.vendorSet)
        ∧ t.flag F.SEC_LC_owner_set = (ok && s.boot.fuses.ownerSet)
        ∧ t.rd F.SEC_LC_rollback_min = s.boot.fuses.rollback % 64
        ∧ t.rd F.CLK_OSC_TRIM_code = s.boot.fuses.oscTrim % 2 ^ F.CLK_OSC_TRIM_code.width
        ∧ t.boot.fuses = s.boot.fuses ∧ t.mgmt = s.mgmt
        ∧ Touches [.boot, .mem, .memStore] (fun a => (0x70000 ≤ a ∧ a < 0x80000) ∨ a = R.CLK_OSC_TRIM
            ∨ (0x50000 ≤ a ∧ a < 0x60000)) s t)
      ∧ (s.mgmt.dev = .boot → s.boot.phase = .checkers → Answers (.checkerSelfTest none) s fun t =>
        t.flag F.MEM_CHK_STAT_done = true ∧ t.evr.recording = true
        ∧ (s.rd F.SEC_STRAP_bootsel = 0 → t.boot.phase = .discovery ∧ t.rd F.SEC_BOOT_STAT_step = 4)
        ∧ (s.rd F.SEC_STRAP_bootsel = 1 → t.boot.phase = .await ∧ t.boot.source = .download)
        ∧ (2 ≤ s.rd F.SEC_STRAP_bootsel → t.boot.phase = .halted)
        ∧ Touches [.boot, .evr, .evrStore, .eng] (fun a => a = R.SEC_BOOT_STAT ∨ a = R.MEM_CHK_STAT ∨ noticeReg a) s t)
      ∧ (∀ k : Fin 80, s.mgmt.dev = .boot → s.boot.phase = .checkers → s.dump.writing = false →
        Answers (.checkerSelfTest (some k)) s fun t =>
          t.mgmt.dev = .fault ∧ t.flag F.MEM_CHK_STAT_failed = true ∧ t.rd F.MEM_CHK_STAT_checker = k
          ∧ t.dump.writing = true ∧ t.dump.cause = 4
          ∧ Touches [.dp, .dump, .eng, .engStore, .evr, .evrStore, .mgmt, .pwr] (fun a => a = R.MEM_CHK_STAT
              ∨ a = R.EVR_CTRL ∨ a = R.EVR_DUMP_STAT ∨ a = R.LEDGER_LINK_DOWN_CNT ∨ a = R.LEDGER_LINK_FAIL
              ∨ a = R.LEDGER_TX_DOWN_CNT ∨ noticeReg a) s t)
      ∧ (s.mgmt.dev = .boot → s.boot.phase = .await → s.flag F.SEC_BOOT_STAT_dram_ready = false →
        s.flag F.SEC_BOOT_STAT_dram_failed = false → Answers (.dramInitDone ok) s fun t =>
          t.flag F.SEC_BOOT_STAT_dram_ready = ok ∧ t.flag F.SEC_BOOT_STAT_dram_failed = !ok
          ∧ (ok = true → t.flag F.MEM_STAT_dram_ready = true ∧ t.flag F.SEC_INT_await = true)
          ∧ (ok = false → t.flag F.MEM_STAT_dram_unusable = true)
          ∧ Touches [.mem, .memStore, .eng, .evr]
              (fun a => a = R.MEM_STAT ∨ a = R.SEC_BOOT_STAT ∨ a = R.SEC_INT ∨ a = R.MEM_SPARE_USED ∨ noticeReg a) s t)
      ∧ (s.mgmt.dev = .boot → s.boot.phase = .discovery → at0 = true ∨ at8M = true →
        Answers (.nvmDiscovery erase at0 at8M) s fun t =>
          t.boot.phase = .header ∧ t.rd F.SEC_BOOT_STAT_step = 5 ∧ t.boot.nvmErase = erase ∧ t.boot.secondaryMagic = at8M
          ∧ Touches [.boot] (fun a => a = R.SEC_BOOT_STAT) s t))

/-- R280, R282, R285, R289: a header that checks opens the records; a frame that checks is taken, a SIGNATURE record closes
its region and a bad calibration record is skipped; a signature that verifies lets the records of its region act. Where the
spec leaves a point open, the model's choice stands: log entries 48, 49, 50, 106. -/
def Obligations.ImageReading : Prop :=
  ∀ (s : State) (bytes : List Byte) (magic : Bool) (reads : List (List Byte)), s.mgmt.dev = .boot →
    (s.boot.phase = .header → s.boot.source ≠ .download → hdrFails (slice bytes 0 64) (s.rd F.SEC_LC_rollback_min) = none →
      Answers (.headerCheck bytes magic false) s fun t =>
        t.boot.phase = .records ∧ t.rd F.SEC_BOOT_STAT_step = 6 ∧ t.boot.header = slice bytes 0 64 ∧ t.boot.offset = 64
        ∧ t.boot.nRecords = 0 ∧ t.boot.region = [] ∧ Touches [.boot] (fun a => a = R.SEC_BOOT_STAT) s t)
    ∧ (∀ f, s.boot.phase = .records → s.boot.source ≠ .download → (reads.take 3).find? frameOk = some f →
      endPlaced s.boot.header s.boot.offset s.boot.nRecords (frameRecord f) = true →
      contentStep configAllowed (frameRecord f) = none → (frameRecord f).kind = 5 →
      Answers (.recordRead reads false) s fun t =>
        t.boot.phase = .signature ∧ t.boot.region = s.boot.region ++ [frameRecord f] ∧ t.rd F.SEC_BOOT_STAT_step = 7
        ∧ t.boot.offset = s.boot.offset + frameLen (frameRecord f).raw ∧ t.boot.nRecords = s.boot.nRecords + 1
        ∧ Touches [.boot] (fun a => a = R.SEC_BOOT_STAT) s t)
    ∧ (∀ f rest, s.boot.phase = .records → s.boot.source ≠ .download → reads = f :: rest →
      (reads.take 3).find? frameOk = none → frameKind f = 3 → Answers (.recordRead reads false) s fun t =>
        t.flag F.SEC_BOOT_STAT_cal_skip = true ∧ t.boot.phase = .records ∧ t.boot.offset = s.boot.offset + frameLen f
        ∧ Touches [.boot] (fun a => a = R.SEC_BOOT_STAT) s t)
    ∧ (∀ sig rs, s.boot.phase = .signature → s.boot.region = rs ++ [sig] →
      s.signatureOk s.boot.header rs sig.body = true → Answers .signatureCheck s fun t =>
        t.boot.phase = .records ∧ t.boot.region = []
        ∧ t.boot.acted = s.boot.acted ++ (rs.filter fun x => decide (2 ≤ s.slotNeeded x))
        ∧ (s.engineAlive 1 = false → Touches [.boot, .staged, .eng, .engStore] (fun a => a = R.SEC_BOOT_STAT
            ∨ a = R.BIAS_TBL_ADDR ∨ (∃ n : Fin 8, a = R.OLn_TX_PD_ADDR n) ∨ engReg a) s t))

/-- R281, R289, R351: IG-S reports running and the image is done; where it does not report in time the primary copy has
failed at step 0x0A, nothing that it wrote is left, and the secondary copy is booted from step 0x05. Where the spec leaves a
point open, the model's choice stands: log entry 47. -/
def Obligations.IgsStart : Prop :=
  ∀ s : State, s.mgmt.dev = .boot → s.boot.phase = .igsStart →
    (s.engineAlive 1 = true → s.safe.igsRun = false → Answers .igsReportsRunning s fun t =>
      t.safe.igsRun = true ∧ t.safe.pwrHold = false ∧ t.boot = { s.boot with phase := .imageDone }
      ∧ t.rd F.SEC_BOOT_STAT_step = 0x0A
      ∧ Touches [.boot, .safe, .bias, .mgmt, .eng] (fun a => a = R.SAFE_LANE ∨ a = R.SAFE_FAULT ∨ a = R.SAFE_INT
          ∨ a = R.SEC_BOOT_STAT ∨ a = R.TOP_CMD_STAT ∨ a = R.TOP_INT ∨ engReg a) s t)
    ∧ (s.boot.source = .nvmPrimary → s.boot.secondaryMagic = true → Answers .igsStartTimeout s fun t =>
      t.boot.source = .nvmSecondary ∧ t.boot.phase = .header ∧ t.rd F.SEC_BOOT_STAT_step = 5
      ∧ t.rd F.SEC_BOOT_STAT_fail_primary = 0x0A ∧ t.rd F.SEC_BOOT_STAT_copy = 1
      ∧ (∀ e : Fin 9, t.eng[e].hasProg = false ∧ t.eng[e].prog = []) ∧ t.boot.held = [] ∧ t.boot.region = []
      ∧ (∀ a ∈ s.boot.wrote, t.stagedReg a = resetWord a) ∧ t.safe.igsRun = false
      ∧ Touches [.boot, .safe, .bias, .staged, .eng, .engStore, .evr] (fun a => a ∈ s.boot.wrote ∨ a = R.SAFE_FAULT
          ∨ a = R.SAFE_INT ∨ a = R.SEC_BOOT_STAT ∨ noticeReg a) s t)

/-! ## Epochs, commits, snapshots and register accesses -/

/-- R258, R391: TOP_COMMIT.go waits for the next boundary, or for the one after it where that comes within 40 ns; a tick of
the superframe timer is a boundary, with the next superframe count while superframes are sent; an always-on cycle moves the
timestamp, and applies commit 1 once the image is done. R261–R263: TOP_SNAP.go waits for a boundary; when the counters
captured there have been copied the snapshot replaces the last one, TOP_SNAP_STAT holds its epoch and snap_done is set;
PMON_DATA reads the copy at PMON_ADDR, which advances. Where the spec leaves a point open, the model's choice stands: log
entries 51, 70, 100. -/
def Obligations.EpochsAndSnapshots : Prop :=
  (∀ (s : State) (port : Fin 5) (ns osc : Nat),
      (s.ready port R.TOP_COMMIT = true → s.flag F.TOP_COMMIT_busy = false → Answers (.commitGo port ns) s fun t =>
        t.flag F.TOP_COMMIT_busy = true ∧ t.mgmt = { s.mgmt with commitSkip := decide (ns < 40) }
        ∧ Touches [.mgmt, .mem] (· = R.TOP_COMMIT) s t)
      ∧ (s.mgmt.timerRun = true → s.flag F.TOP_SNAP_busy = false → s.flag F.TOP_COMMIT_busy = false → s.mgmt.linkSet = none →
        s.mgmt.refPending = none → s.dp.link.step ≠ 6 → s.dp.framer.idleLeft = none → Answers .superframeTimerTick s fun t =>
          t.reg R.TOP_EPOCH = s.reg R.TOP_EPOCH + 1 ∧ t.dp.framer.base = s.dp.framer.base + 2080
          ∧ (∀ n : Fin 8, t.dp.tx[n].slots = []) ∧ t.dp.framer.msg = none ∧ t.inForce = s.inForce ∧ t.staged = s.staged
          ∧ (s.dp.framer.sending = true → s.dp.framer.idle = false →
              t.dp.framer.sfc = (s.dp.framer.sfc + 1) % 2 ^ 32 ∧ t.dp.framer.sending = true)
          ∧ Touches [.mgmt, .eng, .evr, .dp] (fun a => a = R.TOP_EPOCH ∨ a = R.TOP_CMD_STAT ∨ a = R.TOP_CMD_ARGk 1
              ∨ a = R.TIME_INT ∨ (∃ n : Fin 8, a = R.OLn_TX_SAT_CNT n ∨ a = R.OLn_TX_STUFF_OVF_CNT n ∨ a = R.OLn_TX_STAT n
                ∨ a = R.OLn_RX_SAT_CNT n ∨ a = R.OLn_IFEC_CORR n ∨ a = R.OLn_IFEC_UNCORR n) ∨ noticeReg a) s t)
      ∧ (s.boot.aonUp = true → s.mgmt.dev ≠ .off → Answers (.alwaysOnCycle osc) s fun t =>
          t.evr.time = (s.evr.time + 1) % 2 ^ 48)
      ∧ (s.boot.aonUp = true → s.commitOneDue = true → s.mgmt.timerRun = false → s.boot.held = [] → s.cmdBusy = false →
        s.pwr.phase = .none → s.pwr.pstate = 0 → s.mgmt.pwrWrites = [] → s.clk.closing = 0 →
        Answers (.alwaysOnCycle osc) s fun t =>
          t.boot.commitOne = true ∧ t.boot.phase = .done ∧ t.mgmt.timerRun = true ∧ t.flag F.SEC_BOOT_STAT_done = true
          ∧ t.rd F.TOP_COMMIT_commit_no = (s.rd F.TOP_COMMIT_commit_no + 1) % 2 ^ 16
          ∧ t.mgmt.dev ≠ .boot ∧ t.reg R.TOP_EPOCH = s.reg R.TOP_EPOCH + 1))
  ∧
  (∀ (s : State) (port : Fin 5) (clear : Bool),
      (s.ready port R.TOP_SNAP = true → s.flag F.TOP_SNAP_busy = false → Answers (.snapGo port clear) s fun t =>
        t.flag F.TOP_SNAP_busy = true ∧ t.mgmt = { s.mgmt with snapClear := clear, snapTaken := false }
        ∧ Touches [.mgmt, .mem] (· = R.TOP_SNAP) s t)
      ∧ (s.flag F.TOP_SNAP_busy = true → s.mgmt.snapTaken = true → s.mgmt.dev ≠ .sleep → Answers .snapComplete s fun t =>
        t.mgmt.snapBank = s.mgmt.snapNext ∧ t.reg R.TOP_SNAP_STAT = BitVec.ofNat 32 s.mgmt.snapNextEpoch
        ∧ t.flag F.TOP_SNAP_busy = false ∧ t.flag F.TOP_INT_snap_done = true ∧ t.mgmt.snapTaken = false
        ∧ Touches [.mgmt, .eng] (fun a => a = R.TOP_SNAP_STAT ∨ a = R.TOP_SNAP ∨ a = R.TOP_INT ∨ engReg a) s t)
      ∧ (s.ready port R.PMON_DATA = true → Answers (.pmonDataRead port) s fun t =>
        let at_ := (s.reg R.PMON_ADDR).toNat
        t.mgmt = { s.mgmt with
          readData := if (State.desc at_).ctr then mapGet (resetWord at_) s.mgmt.snapBank at_ else 0 }
        ∧ t.reg R.PMON_ADDR = s.reg R.PMON_ADDR + 4 ∧ t.flag F.PMON_STAT_not_counter = !(State.desc at_).ctr
        ∧ t.rd F.PMON_STAT_stale = s.rd F.TOP_SNAP_busy
        ∧ Touches [.mgmt] (fun a => a = R.PMON_ADDR ∨ a = R.PMON_STAT) s t))

/-- R8, R9, R74, R253, R256: a write of a staged register changes its staged copy and no other; an RW bit takes what is
written, a W1C bit is cleared by a 1 but where hardware sets it in the same cycle; an RC field reads and clears, but for what
hardware adds in the same cycle; a read of a _LO register latches its _HI for the port that reads. R254, R265: an access
outside the blocks sets TOP_ERR.unmapped and counts, and a read of it answers 0; a handshake that is not acknowledged in time
sets xd_timeout and answers 0, on MDIO with WIN_CTRL.error (R252). Where the spec leaves a point open, the model's choice
stands: log entries 53, 54, 55, 56, 57, 107, 108. -/
def Obligations.PortAccesses : Prop :=
  (∀ (s : State) (port : Fin 5) (v same : Word),
      (∀ p ∈ [(R.TOP_MODE, 0x7), (R.FRAMER_PORT_EN, 0xFFFF), (R.FEC_CTRL, 0x1F0FFF), (R.FEC_CORE_EN, 0xFFFF)],
        s.ready port p.1 = true → Answers (.registerWrite (.word port (BitVec.ofNat 32 p.1) v) same) s fun t =>
          t.stagedReg p.1 = (s.stagedReg p.1 &&& ~~~ BitVec.ofNat 32 p.2) ||| (v &&& BitVec.ofNat 32 p.2)
          ∧ (∀ a, a ≠ p.1 → t.stagedReg a = s.stagedReg a) ∧ Touches [.staged, .mem] (fun _ => False) s t)
      ∧ (s.ready port R.MEM_INJ_ADDR = true → Answers (.registerWrite (.word port (BitVec.ofNat 32 R.MEM_INJ_ADDR) v) same) s fun t =>
          t.reg R.MEM_INJ_ADDR = v ∧ Touches [.mem, .eng] (fun a => a = R.MEM_INJ_ADDR ∨ engReg a) s t)
      ∧ (s.ready port R.TOP_ERR = true → Answers (.registerWrite (.word port (BitVec.ofNat 32 R.TOP_ERR) v) same) s fun t =>
          t.reg R.TOP_ERR = (s.reg R.TOP_ERR &&& ~~~ (v &&& 0x3F)) ||| (same &&& 0x3F)
          ∧ Touches [.mem, .eng, .mgmt] (fun a => a = R.TOP_ERR ∨ a = R.TOP_INT ∨ engReg a) s t)
      ∧ (∀ f ∈ [F.FRAMER_QUEUE_HWM_hwm, F.FRAMER_WAIT_MAX_cycles], s.ready port f.addr = true →
        mapGet none s.mgmt.hiLatch ((Source.ofPort port 40 0).latchKey f.addr) = none →
        Answers (.rcRegisterRead (.word port (BitVec.ofNat 32 f.addr)) same.toNat) s fun t =>
          t.mgmt = { s.mgmt with readData := s.reg f.addr } ∧ t.rd f = same.toNat % 2 ^ f.width
          ∧ Touches [.mgmt] (· = f.addr) s t)
      ∧ (∀ a ∈ [R.FRAMER_CNT_DATA_LO, R.FRAMER_CNT_REPLAY_LO, R.FRAMER_CNT_FILLER_LO], s.ready port a = true →
        Answers (.loRegisterRead port (BitVec.ofNat 32 a)) s fun t =>
          t.mgmt.readData = s.reg a
          ∧ mapGet none t.mgmt.hiLatch ((Source.ofPort port 40 0).latchKey (a + 4)) = some (s.reg (a + 4))
          ∧ Touches [.mgmt] (fun _ => False) s t))
  ∧
  (∀ (s : State) (port : Fin 5) (addr : Word) (w : Option Word), s.mgmt.dev ≠ .sleep →
      (s.reach port (State.aligned addr.toNat) = true → blockMapped (State.aligned addr.toNat) = false →
        State.inWindow (State.aligned addr.toNat) = false → State.inView (State.aligned addr.toNat) = false →
        Answers (.unmappedAccess port addr w) s fun t =>
          t.flag F.TOP_ERR_unmapped = true ∧ t.flag F.TOP_INT_bus_err = true
          ∧ (t.reg R.TOP_BUS_ERR_CNT).toNat = min 0xFFFFFFFF ((s.reg R.TOP_BUS_ERR_CNT).toNat + 1)
          ∧ t.mgmt = (if w.isSome then s.mgmt else { s.mgmt with readData := 0 })
          ∧ Touches [.mgmt] (fun a => a = R.TOP_ERR ∨ a = R.TOP_BUS_ERR_CNT ∨ a = R.TOP_INT) s t)
      ∧ (s.reach port addr.toNat = true → Answers (.handshakeTimeout port addr) s fun t =>
          t.flag F.TOP_ERR_xd_timeout = true ∧ t.flag F.TOP_INT_bus_err = true
          ∧ t.mgmt = (if port = 1 then { s.mgmt with readData := 0, mdioErr := true, mdioHigh := 0 }
              else { s.mgmt with readData := 0 })
          ∧ Touches [.mgmt] (fun a => a = R.TOP_ERR ∨ a = R.TOP_INT) s t))

/-- R251, R252, R255: MDIO, at the port address MADDR and in MMD 30, reaches a register through two 16-bit halves, with an
address that may advance; the DRAM window reaches the byte that the page and the address name, and sets TOP_ERR.dram_win
while DRAM is not ready. Where the spec leaves a point open, the model's choice stands: log entries 67, 109. -/
def Obligations.MdioAndDramWindow : Prop :=
  ∀ (s : State) (port : Fin 5) (phy mmd : BitVec 5) (e : Fin 9) (k : Fin 4) (lo hi : BitVec 16) (inc : Bool) (a : Nat)
    (v : Word),
    let r := R.IGS_En_SCRk e k
    let aim : List MdioAccess := [.addrHi (BitVec.ofNat 16 (r / 2 ^ 16)), .addrLo (BitVec.ofNat 16 r), .winCtrl inc]
    (s.mdioMine phy mmd = true → s.ready 1 r = true → mapGet none s.mgmt.hiLatch ((Source.ofPort 1 40 0).latchKey r) = none →
      Answers (.mdioDataLoRead phy mmd aim) s (fun t =>
        t.mgmt.readData.toNat = (s.reg r).toNat % 2 ^ 16 ∧ t.mgmt.mdioHigh.toNat = (s.reg r).toNat / 2 ^ 16
        ∧ t.mgmt.mdioErr = false ∧ t.mgmt.mdioAddr.toNat = r ∧ Touches [.mgmt] (fun _ => False) s t)
      ∧ Answers (.mdioDataHiWrite phy mmd (aim ++ [.dataLo lo]) hi) s (fun t =>
        t.reg r = hi ++ lo ∧ t.mgmt.mdioAddr.toNat = (if inc then r + 4 else r) ∧ t.mgmt.mdioErr = false
        ∧ Touches [.mgmt, .mem, .eng] (fun a => a = r ∨ engReg a) s t))
    ∧ (s.mdioMine phy mmd = false →
      exec (.mdioDataLoRead phy mmd aim) s = .next s ∧ exec (.mdioDataHiWrite phy mmd aim hi) s = .next s)
    ∧ (a % 4 = 0 → State.inWindow a = true → s.reach port a = true → s.dramReady = true →
      s.dramLost (s.winByte a) = false → s.dramCode (s.winByte a) = 0 →
      ¬ (s.flag F.MEM_INJ_CTRL_armed = true ∧ (s.reg R.MEM_INJ_ADDR).toNat = a) →
      Answers (.dramWindowAccess port (BitVec.ofNat 32 a) (some v) false) s (fun t =>
        t.dramBytes (s.winByte a) 4 = leBytes 4 v.toNat
        ∧ (∀ b, (b < s.winByte a ∨ s.winByte a + 4 ≤ b) → t.dramByte b = s.dramByte b)
        ∧ Touches [.mem, .memStore] (fun _ => False) s t)
      ∧ Answers (.dramWindowAccess port (BitVec.ofNat 32 a) none false) s (fun t =>
        leBytes 4 t.mgmt.readData.toNat = s.dramBytes (s.winByte a) 4 ∧ Touches [.mgmt] (fun _ => False) s t))
    ∧ (a % 4 = 0 → State.inWindow a = true → s.reach port a = true → s.dramReady = false → s.mgmt.dev ≠ .sleep →
      Answers (.dramWindowAccess port (BitVec.ofNat 32 a) none false) s fun t =>
        t.flag F.TOP_ERR_dram_win = true ∧ t.mgmt = { s.mgmt with readData := 0 }
        ∧ Touches [.mgmt] (fun a => a = R.TOP_ERR ∨ a = R.TOP_INT) s t)

/-! ## Mailbox commands -/

/-- A write of `op` to TOP_CMD is accepted and taken up at once: the port reaches it, no command is BUSY, the state and the
arguments allow it, the argument registers read without an error, and no self-test stands in its way (R267, R268, R270). -/
def Claims.acceptable (s : State) (port : Fin 5) (op : Nat) : Bool :=
  s.reach port R.TOP_CMD && !s.cmdBusy && !s.mgmt.cmdTaken && s.cmdLegal op && !s.cmdBarred op && !s.cmdBadArgs op
    && (State.cmdReads op).all (fun a => mapGet 0 s.mem.regEcc a == 0) && s.takesUp && s.mem.run.isNone

/-- What TOP_CMD_STAT holds of a command that has ended (R267). -/
def Claims.ended (s t : State) (port : Fin 5) (op status : Nat) : Prop :=
  t.rd F.TOP_CMD_STAT_status = status ∧ t.rd F.TOP_CMD_STAT_opcode = op ∧ t.rd F.TOP_CMD_STAT_port = port.val
  ∧ t.rd F.TOP_CMD_STAT_serial = (s.rd F.TOP_CMD_STAT_serial + 1) % 2 ^ 16 ∧ t.flag F.TOP_CMD_STAT_collide = false
  ∧ t.flag F.TOP_INT_cmd_done = true ∧ t.mgmt.cmdTaken = false

/-- What it holds of one that is BUSY and taken up. -/
def Claims.taken (s t : State) (port : Fin 5) (op : Nat) : Prop :=
  t.rd F.TOP_CMD_STAT_status = 1 ∧ t.rd F.TOP_CMD_STAT_opcode = op ∧ t.rd F.TOP_CMD_STAT_port = port.val
  ∧ t.rd F.TOP_CMD_STAT_serial = s.rd F.TOP_CMD_STAT_serial ∧ t.mgmt.cmdTaken = true

/-- The mailbox's own registers, and those of the engines that a write of TOP_CMD wakes. -/
def Claims.mailReg (a : Nat) : Prop :=
  a = R.TOP_CMD ∨ a = R.TOP_CMD_STAT ∨ (R.TOP_CMD_ARGk 0 ≤ a ∧ a ≤ R.TOP_CMD_ARGk 3) ∨ a = R.TOP_INT ∨ engReg a

/-- R269, R291: NOP, RETRAIN, RESET_DP and the debug commands end with OK at once, and each has its effect; a response that
does not verify is DENIED and counted. Where the spec leaves a point open, the model's choice stands: log entries 27, 35, 36,
41. -/
def Obligations.CommandsThatEnd : Prop :=
  ∀ (s : State) (port : Fin 5),
    (Claims.acceptable s port 0 = true → Answers (.nop port) s fun t =>
      Claims.ended s t port 0 0 ∧ t.reg (R.TOP_CMD_ARGk 0) = resetWord R.TOP_ID
      ∧ Touches [.mgmt, .eng] Claims.mailReg s t)
    ∧ (Claims.acceptable s port 2 = true → Answers (.retrain port) s fun t =>
      Claims.ended s t port 2 0
      ∧ (∀ n : Fin 8, bitOf (s.arg 0) n = true → bitOf (s.arg 0) 8 = true →
          t.dp.rx[n].lock = .off ∧ t.dp.rx[n].fe = .search)
      ∧ (∀ n : Fin 8, bitOf (s.arg 0) n = true → bitOf (s.arg 0) 8 = false → s.dp.rx[n].lock = .locked →
          t.dp.rx[n].lock = .relock)
      ∧ (∀ n : Fin 8, bitOf (s.arg 0) n = false → t.dp.rx[n] = s.dp.rx[n])
      ∧ Touches [.mgmt, .eng, .evr, .dp] (fun a => Claims.mailReg a ∨ noticeReg a ∨ (∃ n : Fin 8, a = R.OLn_CDR_STAT n
          ∨ a = R.OLn_CDR_FREQ n ∨ a = R.OLn_CDR_FALLBACK_CNT n ∨ a = R.LEDGER_LINK_FULL_CNTn n
          ∨ a = R.LEDGER_LINK_FAST_CNTn n)) s t)
    ∧ (Claims.acceptable s port 5 = true → Answers (.resetDp port) s fun t =>
      Claims.ended s t port 5 0 ∧ t.dp.framer.ready = s.dp.framer.ready ∧ t.dp.ledger = s.dp.ledger
      ∧ (bitOf (s.arg 0) 0 = true → t.dp.framer.sending = false ∧ ∀ n : Fin 8, t.dp.tx[n].slots = [])
      ∧ (bitOf (s.arg 0) 1 = true → t.dp.pool.queue = [] ∧ ∀ c : Fin 16, t.dp.pool.cores[c].work = none)
      ∧ (∀ n : Fin 8, t.dp.rx[n].lock = s.dp.rx[n].lock ∧ t.dp.rx[n].equ = s.dp.rx[n].equ)
      ∧ Touches [.mgmt, .eng, .dp] (fun a => Claims.mailReg a ∨ a = R.FRAMER_QUEUE_HWM ∨ a = R.FRAMER_WAIT_MAX
          ∨ a = R.FEC_LAT_MAX ∨ a = R.LEDGER_RX_LOSS_CAUSE ∨ (∃ n : Fin 8, a = R.OLn_TX_PD_ADDR n ∨ a = R.OLn_RX_SLICE_SEL n
            ∨ a = R.OLn_FDE_SKIP_CAUSE n ∨ a = R.OLn_FDE_TAP_ADDR n ∨ a = R.OLn_DET_VAR_SEL n
            ∨ a = R.FEC_LANEn_HIST_SEL n)) s t)
    ∧ (Claims.acceptable s port 10 = true → Answers (.debugChal port) s fun t =>
      Claims.ended s t port 10 0 ∧ t.flag F.SEC_DBG_STAT_chal_valid = true
      ∧ t.boot.challenge = (List.range 4).map (fun k => t.reg (R.TOP_CMD_ARGk k))
      ∧ Touches [.mgmt, .eng, .boot] (fun a => Claims.mailReg a ∨ a = R.SEC_DBG_STAT) s t)
    ∧ (Claims.acceptable s port 11 = true → Answers (.debugResp port) s fun t =>
      t.flag F.SEC_DBG_STAT_chal_valid = false ∧ t.boot.challenge = []
      ∧ (if s.debugAccepts then Claims.ended s t port 11 0 ∧ t.flag F.SEC_DBG_STAT_unlocked = true
            ∧ t.rd F.SEC_DBG_STAT_consec = 0 ∧ t.flag F.SEC_INT_dbg_unlock = true
         else Claims.ended s t port 11 4 ∧ t.flag F.SEC_DBG_STAT_unlocked = s.flag F.SEC_DBG_STAT_unlocked
            ∧ (t.reg R.SEC_DBG_FAIL_CNT).toNat = min 0xFFFFFFFF ((s.reg R.SEC_DBG_FAIL_CNT).toNat + 1)
            ∧ (2 ≤ s.rd F.SEC_DBG_STAT_consec → t.flag F.SEC_DBG_STAT_lockout = true)
            ∧ t.flag F.SEC_INT_dbg_denied = true)
      ∧ Touches [.mgmt, .eng, .boot] (fun a => Claims.mailReg a ∨ a = R.SEC_DBG_STAT ∨ a = R.SEC_DBG_FAIL_CNT
          ∨ a = R.SEC_INT) s t)
    ∧ (Claims.acceptable s port 12 = true → Answers (.debugLock port) s fun t =>
      Claims.ended s t port 12 0 ∧ t.flag F.SEC_DBG_STAT_unlocked = false
      ∧ Touches [.mgmt, .eng] (fun a => Claims.mailReg a ∨ a = R.SEC_DBG_STAT) s t)

/-- R269, R287, R312, R351, R365, R399: LINK waits for the next boundary; POWER proposes its entry; SHUTDOWN puts every lane
in the safe state; RESET enters BOOT; CAPTURE arms; BIST starts its lowest unit; IMAGE_LOAD starts a download at step 0x05;
LASER off puts its lanes in the safe state. Where the spec leaves a point open, the model's choice stands: log entries 37,
38, 40. -/
def Obligations.CommandsThatStart : Prop :=
  ∀ (s : State) (port : Fin 5),
    (Claims.acceptable s port 1 = true → Answers (.link port) s fun t =>
      Claims.taken s t port 1 ∧ t.mgmt.linkSet = some (s.arg 0 % 4 != 0)
      ∧ Touches [.mgmt, .eng] Claims.mailReg s t)
    ∧ (Claims.acceptable s port 3 = true → s.pwr.phase = .none → s.arg 0 % 4 ≠ 0 → s.arg 0 % 4 ≠ s.pwr.pstate →
      s.pwr.pstate ≠ 2 → s.powerBarred (s.arg 0 % 4) = false → s.levelSources (s.arg 0 % 4) = 0 →
      Answers (.power port) s fun t =>
        Claims.taken s t port 3 ∧ t.pwr.phase = .asking ∧ t.pwr.target = s.arg 0 % 4 ∧ t.pwr.asking = 1
        ∧ t.pwr.byCommand = true ∧ t.pwr.forced = false ∧ t.pwr.pstate = s.pwr.pstate
        ∧ Touches [.mgmt, .eng, .pwr] Claims.mailReg s t)
    ∧ (Claims.acceptable s port 4 = true → bitOf (s.arg 0) 0 = false → s.pwr.pstate ≠ 2 →
      Answers (.shutdown port) s fun t =>
        Claims.ended s t port 4 0 ∧ t.safe.pwrHold = true ∧ (∀ n : Fin 8, t.safe.lane[n] = .safe)
        ∧ t.pwr.phase = .asking ∧ t.pwr.target = 3 ∧ t.pwr.forced = true
        ∧ (s.boot.nvmErase = true → t.boot.nvmRepair = [s.mem.repair, s.mem.repair])
        ∧ Touches [.mgmt, .eng, .evr, .boot, .safe, .bias, .pwr, .dp] (fun a => Claims.mailReg a ∨ noticeReg a
            ∨ a = R.SAFE_FAULT ∨ a = R.SAFE_INT ∨ a = R.LEDGER_LINK_DOWN_CNT ∨ a = R.LEDGER_LINK_FAIL
            ∨ a = R.LEDGER_TX_DOWN_CNT) s t)
    ∧ (Claims.acceptable s port 6 = true → Answers (.reset port) s fun t =>
      Claims.ended s t port 6 0 ∧ t.mgmt.dev = .boot ∧ t.boot.phase = .fuses ∧ t.staged = [] ∧ t.inForce = []
      ∧ t.boot.commitOne = false ∧ t.pwr.pstate = 0 ∧ t.flag F.SEC_DBG_STAT_unlocked = false ∧ t.safe.igsRun = false
      ∧ (∀ n : Fin 8, t.safe.lane[n] = .safe) ∧ t.reg R.SEC_STRAP = s.reg R.SEC_STRAP
      ∧ (∀ a, keptBySoft a = false → ¬ noticeReg a → t.reg a = resetWord a) ∧ t.boot.fuses = s.boot.fuses
      ∧ t.pending = s.pending)
    ∧ (Claims.acceptable s port 7 = true → s.dramReady = true → s.dp.rx[Fin.ofNat 8 (bitsOf (s.arg 0) 8 3)].powered = true →
      s.capOverlaps ((s.arg 1 % 4096) * 2 ^ 20) = false → s.gateOpen 3 = true → bitOf (s.arg 2) 16 = false →
      Answers (.capture port) s fun t =>
        Claims.taken s t port 7 ∧ t.cap.phase = 1 ∧ t.cap.source = s.arg 0 % 4 ∧ t.cap.lane = bitsOf (s.arg 0) 8 3
        ∧ t.cap.len = (s.arg 1 % 4096) * 2 ^ 20 ∧ t.cap.preShare = s.arg 3 % 128 ∧ t.cap.trigCode = s.arg 2 % 2 ^ 16
        ∧ t.rd F.CAP_STAT_state = 1
        ∧ Touches [.mgmt, .eng, .cap] (fun a => Claims.mailReg a ∨ a = R.CAP_STAT ∨ a = R.CAP_WRITTEN) s t)
    ∧ (∀ u rest, Claims.acceptable s port 8 = true → s.gateOpen 2 = true → bitList 28 (s.arg 0) = u :: rest → u < 24 →
      Answers (.bist port) s fun t =>
        Claims.taken s t port 8
        ∧ t.mem.run = some { trigger := 0, asked := s.arg 0, units := s.arg 0, unit := u, slice := 0,
                             tally := { worst := 0, repaired := 0, failing := 0 } }
        ∧ Touches [.mgmt, .eng, .mem, .memStore] Claims.mailReg s t)
    ∧ (Claims.acceptable s port 9 = true → s.boot.phase = .await → s.dramReady = true → 0x10000000 ≤ s.arg 0 →
      s.arg 0 < 0x20000000 → Answers (.imageLoad port) s fun t =>
        Claims.taken s t port 9 ∧ t.boot.phase = .header ∧ t.boot.source = .download ∧ t.boot.dlLen = s.arg 1
        ∧ t.boot.dlAddr = s.rd F.TOP_DRAM_WIN_page * 2 ^ 28 + (s.arg 0 - 0x10000000) ∧ t.rd F.SEC_BOOT_STAT_step = 5
        ∧ Touches [.mgmt, .eng, .boot] (fun a => Claims.mailReg a ∨ a = R.SEC_BOOT_STAT) s t)
    ∧ (Claims.acceptable s port 13 = true → s.safe.igsRun = true → bitOf (s.arg 0) 8 = false →
      Answers (.laser port) s fun t =>
        Claims.ended s t port 13 0
        ∧ (∀ n : Fin 8, bitOf (s.arg 0) n = true → t.safe.lane[n] = .safe ∧ bitOf (t.rd F.SAFE_LANE_req) n = false)
        ∧ Touches [.mgmt, .eng, .safe, .bias] (fun a => Claims.mailReg a ∨ a = R.SAFE_LANE ∨ a = R.SAFE_FAULT
            ∨ a = R.SAFE_INT) s t)

/-- R267, R268: a write of TOP_CMD while a command is BUSY only sets collide; a command that the state does not allow ends
with STATE and counts, an unknown one and one with an argument outside its range with ARG; one that nobody takes up ends with
TIMEOUT, as LINK, LASER and BIST do when their waits run out; an unused challenge expires (R269, R291, R365). R290, R293: a
fuse operation that the lifecycle and debug allow runs, and blows what it says; another ends at once with result 1; boundary
scan that drives pins puts every lane in the safe state. Where the spec leaves a point open, the model's choice stands: log
entries 29, 39. -/
def Obligations.FailuresFusesAndScan : Prop :=
  (∀ (s : State) (port : Fin 5) (op : Byte),
      (s.reach port R.TOP_CMD = true → s.cmdBusy = true → s.mem.run = none → Answers (.commandCollide port op) s fun t =>
        t.flag F.TOP_CMD_STAT_collide = true ∧ t.rd F.TOP_CMD_STAT_status = 1
        ∧ t.rd F.TOP_CMD_STAT_opcode = s.rd F.TOP_CMD_STAT_opcode ∧ t.reg R.TOP_CMD = s.reg R.TOP_CMD
        ∧ Touches [.eng] (fun a => a = R.TOP_CMD_STAT ∨ engReg a) s t)
      ∧ (s.reach port R.TOP_CMD = true → s.cmdBusy = false → s.mem.run = none → op.toNat ≤ 13 → s.cmdLegal op.toNat = false →
        Answers (.commandCollide port op) s fun t =>
          t.rd F.TOP_CMD_STAT_status = 2
          ∧ (t.reg R.TOP_CMD_STATE_CNT).toNat = min 0xFFFFFFFF ((s.reg R.TOP_CMD_STATE_CNT).toNat + 1)
          ∧ Touches [.mgmt, .eng] (fun a => Claims.mailReg a ∨ a = R.TOP_CMD_STATE_CNT) s t)
      ∧ (s.reach port R.TOP_CMD = true → s.cmdBusy = false → s.mem.run = none → 13 < op.toNat →
        Answers (.commandCollide port op) s fun t =>
          t.rd F.TOP_CMD_STAT_status = 3 ∧ Touches [.mgmt, .eng] Claims.mailReg s t)
      ∧ (s.cmdBusy = true → s.mgmt.cmdTaken = false → Answers .commandTakeupTimeout s fun t =>
          t.rd F.TOP_CMD_STAT_status = 5 ∧ t.flag F.TOP_INT_cmd_done = true ∧ Touches [.mgmt, .eng] Claims.mailReg s t)
      ∧ (s.linkWaits = true → Answers .linkWaitTimeout s fun t =>
          t.rd F.TOP_CMD_STAT_status = 5 ∧ t.reg (R.TOP_CMD_ARGk 1) = s.linkStat
          ∧ Touches [.mgmt, .eng] Claims.mailReg s t)
      ∧ (s.safe.laserReq.isSome = true → s.running 13 = true → Answers .laserTimeout s fun t =>
          t.rd F.TOP_CMD_STAT_status = 5 ∧ t.safe.laserReq = none ∧ Touches [.mgmt, .eng, .safe] Claims.mailReg s t)
      ∧ (∀ r, s.mem.run = some r → r.trigger = 0 → r.unit < 16 → s.running 8 = true → Answers .bistCommandTimeout s fun t =>
          t.rd F.TOP_CMD_STAT_status = 5 ∧ t.mem.run = none ∧ t.rd (F.BIST_RESk_result r.unit) = 4
          ∧ t.flag F.BIST_INT_aborted = true
          ∧ Touches [.mgmt, .eng, .evr, .mem, .memStore, .dp] (fun a => Claims.mailReg a ∨ noticeReg a
              ∨ (0x90000 ≤ a ∧ a < 0xA0000) ∨ a = R.FEC_CNT_MAPOUT ∨ a = R.FEC_CORE_STAT ∨ a = R.FEC_LAT_MAX
              ∨ a = R.FEC_STAT) s t)
      ∧ (Answers .debugChallengeExpire s fun t =>
          t.boot.challenge = [] ∧ t.flag F.SEC_DBG_STAT_chal_valid = false ∧ Touches [.boot] (· = R.SEC_DBG_STAT) s t))
  ∧
  (∀ (s : State) (port : Fin 5) (op : BitVec 3),
      (s.reach port R.SEC_FUSE_CTRL = true → s.flag F.SEC_FUSE_STAT_busy = false → s.fuseAllowed op.toNat = true →
        Answers (.fuseOpGo port op) s fun t =>
          t.flag F.SEC_FUSE_STAT_busy = true ∧ t.boot.fuseOp = op.toNat ∧ t.boot.fuses = s.boot.fuses
          ∧ Touches [.boot] (fun a => a = R.SEC_FUSE_CTRL ∨ a = R.SEC_FUSE_STAT) s t)
      ∧ (s.reach port R.SEC_FUSE_CTRL = true → s.flag F.SEC_FUSE_STAT_busy = false → s.fuseAllowed op.toNat = false →
        Answers (.fuseOpGo port op) s fun t =>
          t.rd F.SEC_FUSE_STAT_result = 1 ∧ t.flag F.SEC_FUSE_STAT_busy = false ∧ t.flag F.SEC_INT_fuse_done = true
          ∧ Touches [.eng] (fun a => a = R.SEC_FUSE_CTRL ∨ a = R.SEC_FUSE_STAT ∨ a = R.SEC_INT ∨ engReg a) s t)
      ∧ (s.flag F.SEC_FUSE_STAT_busy = true → Answers (.fuseOpDone false false) s fun t =>
          t.flag F.SEC_FUSE_STAT_busy = false ∧ t.rd F.SEC_FUSE_STAT_result = 0 ∧ t.flag F.SEC_INT_fuse_done = true
          ∧ (s.boot.fuseOp = 1 → t.boot.fuses = { s.boot.fuses with ownerSet := true, ownerHash := s.secBuf 48 })
          ∧ (s.boot.fuseOp = 2 → t.boot.fuses = { s.boot.fuses with lc := 1 })
          ∧ (s.boot.fuseOp = 3 → t.boot.fuses = { s.boot.fuses with lc := 2 })
          ∧ (s.boot.fuseOp = 4 → t.boot.fuses = { s.boot.fuses with rollback := s.boot.fuses.rollback + 1 })
          ∧ Touches [.boot, .eng] (fun a => a = R.SEC_LC ∨ a = R.SEC_FUSE_STAT ∨ a = R.SEC_INT ∨ engReg a) s t)
      ∧ (s.pwr.pstate < 2 → Answers (.bscanInstruction true) s fun t =>
          t.safe.bscan = true ∧ (∀ n : Fin 8, t.safe.lane[n] = .safe)
          ∧ Touches [.safe, .bias, .eng] (fun a => a = R.SAFE_FAULT ∨ a = R.SAFE_INT ∨ engReg a) s t))

/-! ## Power states -/

/-- R312, R313, R386: an idle time proposes its entry and asks the first participant; a participant that grants passes the
question on, one that refuses, or delays too long, ends an entry that nobody forces; an engine answers for itself, and one
that does not answer in time counts as granting. Where the spec leaves a point open, the model's choice stands: log entry 41. -/
def Obligations.EntriesAsk : Prop :=
  ∀ (s : State) (us : Nat) (dram : Bool) (e : Fin 9) (delay : BitVec 4),
    let refusedAs (t : State) (reason : Nat) : Prop :=
      t.pwr.phase = .none ∧ t.pwr.pstate = s.pwr.pstate
      ∧ t.reg R.PWR_LAST_REFUSE = BitVec.ofNat 32 (s.pwr.asking + 2 ^ 8 * reason + 2 ^ 16 * s.pwr.target)
      ∧ (t.reg R.PWR_REFUSE_CNT).toNat = min 0xFFFFFFFF ((s.reg R.PWR_REFUSE_CNT).toNat + 1)
      ∧ t.flag F.PWR_INT_refused = true
      ∧ Touches [.pwr, .eng, .evr, .safe, .bias] (fun a => a = R.PWR_LAST_REFUSE ∨ a = R.PWR_REFUSE_CNT ∨ a = R.PWR_INT
          ∨ a = R.SAFE_FAULT ∨ a = R.SAFE_INT ∨ noticeReg a) s t
    (s.rd F.PWR_IDLE_CTRL_quiet_us ≠ 0 → s.hostSignal = false → s.configuredUp = true → s.mgmt.dev ≠ .bringup →
      s.pwr.phase = .none → s.levelSources 1 = 0 → s.pwr.pstate ≠ 2 → Answers .quietIdleTimeout s fun t =>
        t.pwr.phase = .asking ∧ t.pwr.target = 1 ∧ t.pwr.asking = 1 ∧ t.pwr.byCommand = false
        ∧ t.pwr.heldState = s.mgmt.dev ∧ Touches [.pwr, .eng] engReg s t)
    ∧ (s.rd F.PWR_IDLE_CTRL_standby_ms ≠ 0 → s.mgmt.dev = .configured ∨ s.mgmt.dev = .partnerAbsent →
      s.pwr.phase = .none → s.levelSources 2 = 0 → s.pwr.pstate ≠ 2 → Answers .standbyIdleTimeout s fun t =>
        t.pwr.phase = .asking ∧ t.pwr.target = 2 ∧ t.pwr.asking = 1 ∧ Touches [.pwr, .eng] engReg s t)
    ∧ (s.pwr.phase = .asking → s.pwr.asking = 1 →
      (s.pwr.target ≠ 1 ∨ s.hostSignal = false → Answers (.participantAnswer us dram) s fun t =>
        t.pwr.asking = 2 ∧ t.pwr.phase = .asking ∧ t.pwr.target = s.pwr.target ∧ Touches [.pwr, .eng] engReg s t)
      ∧ (s.pwr.target = 1 → s.hostSignal = true → s.pwr.forced = false → s.pwr.byCommand = false →
        Answers (.participantAnswer us dram) s fun t => refusedAs t 1))
    ∧ (s.pwr.phase = .asking → s.pwr.delaying = true → s.pwr.asking ≠ 6 → s.pwr.forced = false → s.pwr.byCommand = false →
      Answers .participantDelayLimit s fun t => refusedAs t 3)
    ∧ (s.askedEngine = some e → s.flag (F.IGS_En_PWR_pending e) = true →
      (s.engineAlive e = true → Answers (.enginePowerAnswer e 1 delay) s fun t =>
        t.pwr.asking = s.pwr.asking + 1 ∧ t.flag (F.IGS_En_PWR_pending e) = false ∧ t.rd (F.IGS_En_PWR_answer e) = 1
        ∧ Touches [.pwr, .eng] engReg s t)
      ∧ Answers (.powerAnswerTimeout e) s (fun t =>
        t.pwr.asking = s.pwr.asking + 1 ∧ t.flag (F.IGS_En_PWR_pending e) = false ∧ Touches [.pwr, .eng] engReg s t))

/-- R314, R317, R318: the final window ends in the target; in STANDBY and SLEEP the engines stop and every lane stands in the
safe state; a wake source that acts begins the exit, in which the host transmitters leave electrical idle (R206, R207), and
one that stands while participants are asked aborts the entry. Where the spec leaves a point open, the model's choice stands:
log entries 26, 69. -/
def Obligations.EntriesAndWakes : Prop :=
  ∀ (s : State) (source : Fin 6),
    let hostsLeaveIdle (t : State) : Prop :=
      t.mgmt.dev = s.mgmt.dev ∧ t.dp = { s.dp with host := t.dp.host } ∧ ∀ n : Fin 16, t.dp.host[n].idle = false
    (s.pwr.phase = .final →
      (s.pwr.target = 1 → Answers .finalWindowEnd s fun t =>
        t.mgmt.dev = .quiet ∧ t.pwr.pstate = 1 ∧ t.pwr.phase = .none ∧ t.flag F.PWR_INT_entered = true
        ∧ t.inForce = s.inForce ∧ t.staged = s.staged)
      ∧ (s.pwr.target = 2 → Answers .finalWindowEnd s fun t =>
        t.mgmt.dev = .standby ∧ t.pwr.pstate = 2 ∧ t.pwr.phase = .none ∧ t.pwr.retained = true
        ∧ t.flag F.PWR_INT_entered = true ∧ t.mgmt.timerRun = false ∧ t.safe.pwrHold = true
        ∧ (∀ n : Fin 8, t.safe.lane[n] = .safe) ∧ (∀ e : Fin 9, t.eng[e].st = .reset ∨ t.eng[e].st = .stopped)
        ∧ t.inForce = s.inForce ∧ t.staged = s.staged)
      ∧ (s.pwr.target = 3 → Answers .finalWindowEnd s fun t =>
        t.mgmt.dev = .sleep ∧ t.pwr.pstate = 3 ∧ t.pwr.phase = .none ∧ t.flag F.PWR_INT_entered = true
        ∧ t.safe.pwrHold = true ∧ (∀ n : Fin 8, t.safe.lane[n] = .safe) ∧ (∀ e : Fin 9, t.eng[e].st = .reset)
        ∧ t.staged = [] ∧ t.inForce = []))
    ∧ (s.pwr.phase = .none → s.pwr.pstate ≠ 0 → s.wakeEnabled source = true → State.sourceActs s.pwr.pstate source = true →
      s.wakeAllowed = true → Answers (.wakeSource source) s fun t =>
        t.pwr.phase = .exiting ∧ t.pwr.pstate = s.pwr.pstate ∧ bitOf (t.rd F.PWR_WAKE_SRC_src) source = true
        ∧ hostsLeaveIdle t ∧ Touches [.pwr, .eng, .mgmt, .dp] (fun a => a = R.PWR_WAKE_SRC ∨ a = R.TOP_COMMIT ∨ engReg a) s t)
    ∧ (s.pwr.phase = .asking → s.pwr.pstate = 0 → s.wakeEnabled source = true →
      State.sourceActs s.pwr.target source = true → source ≠ 2 → s.pwr.forced = false → s.pwr.byCommand = false →
      Answers (.wakeSource source) s fun t =>
        t.pwr.phase = .none ∧ (t.reg R.PWR_ABORT_CNT).toNat = min 0xFFFFFFFF ((s.reg R.PWR_ABORT_CNT).toNat + 1)
        ∧ t.reg R.PWR_LAST_REFUSE = BitVec.ofNat 32 (2 ^ 8 * 4 + 2 ^ 16 * s.pwr.target) ∧ t.flag F.PWR_INT_aborted = true
        ∧ Touches [.pwr, .eng, .evr, .safe, .bias] (fun a => a = R.PWR_LAST_REFUSE ∨ a = R.PWR_ABORT_CNT ∨ a = R.PWR_INT
            ∨ a = R.SAFE_FAULT ∨ a = R.SAFE_INT ∨ noticeReg a) s t)
    ∧ (Answers .followSquelchEnd s fun t => t.pwr = { s.pwr with followSquelch := false }
        ∧ Touches [.pwr] (fun _ => False) s t)

/-- R320–R322, R361: an exit ends in the state that the power state came from, in CONFIGURED or in BOOT; the retention banks
are verified before STANDBY is left; a source that is not ready in time fails the wake, which is tried again, and given up
after the third time until software clears it. Where the spec leaves a point open, the model's choice stands: log entries 45,
70. -/
def Obligations.Exits : Prop :=
  ∀ (s : State) (port : Fin 5) (source : Fin 10),
    (s.pwr.phase = .exiting →
      (s.pwr.pstate = 1 → s.pwr.heldState = .configured → Answers .exitComplete s fun t =>
        t.mgmt.dev = .configured ∧ t.pwr.pstate = 0 ∧ t.pwr.phase = .none ∧ t.flag F.PWR_INT_exited = true
        ∧ Touches [.dp, .eng, .evr, .mgmt, .pwr] (fun a => a = R.PWR_INT ∨ a = R.PWR_RET_STAT ∨ a = R.PWR_WAKE_FAIL
            ∨ a = R.TOP_CMD_STAT ∨ (∃ n : Fin 8, a = R.OLn_CDR_STAT n) ∨ noticeReg a) s t)
      ∧ (s.pwr.pstate = 2 → s.pwr.retained = false → s.cfgOn F.LEDGER_LINK_CTRL_enable = false →
        Answers .exitComplete s fun t =>
          t.mgmt.dev = .configured ∧ t.pwr.pstate = 0 ∧ t.pwr.phase = .none ∧ t.mgmt.timerRun = s.boot.commitOne
          ∧ (∀ e : Fin 9, s.eng[e].st = .reset → s.eng[e].hasProg = true → t.eng[e].st = .run ∧ t.eng[e].pc = 0)
          ∧ t.flag F.MEM_STAT_dram_sr = false
          ∧ t.mem = { s.mem with sramValid := [], sramEcc := s.mem.sramEcc.filter fun c => decide (2 ^ 21 ≤ c.1) }
          ∧ Touches [.dp, .eng, .engStore, .evr, .hsk, .mem, .memStore, .mgmt, .pwr, .safe, .bias] (fun a => a = R.PWR_INT
              ∨ a = R.PWR_WAKE_FAIL ∨ a = R.MEM_STAT ∨ a = R.TIME_INT ∨ a = R.TOP_CMD_STAT ∨ a = R.TOP_COMMIT
              ∨ (0x60000 ≤ a ∧ a < 0x70000) ∨ noticeReg a) s t)
      ∧ (s.pwr.pstate = 3 → Answers .exitComplete s fun t =>
        t.mgmt.dev = .boot ∧ t.pwr.pstate = 0 ∧ t.pwr.phase = .none ∧ t.evr.wr = 0 ∧ t.evr.recording = false
        ∧ Touches [.dp, .eng, .evr, .evrStore, .mgmt, .pwr] (fun a => a = R.PWR_INT ∨ a = R.PWR_RET_STAT
            ∨ a = R.PWR_WAKE_FAIL ∨ a = R.EVR_STAT ∨ a = R.TIME_INT ∨ a = R.TOP_CMD_STAT ∨ noticeReg a) s t)
      ∧ (s.pwr.pstate = 2 → s.pwr.retained = true → Answers (.retentionVerify 0) s fun t =>
        t.rd F.PWR_RET_STAT_fail = 0 ∧ t.flag F.PWR_RET_STAT_checked = true ∧ t.pwr = { s.pwr with retained := false }
        ∧ Touches [.pwr] (· = R.PWR_RET_STAT) s t)
      ∧ (s.pwr.pstate = 2 → s.pwr.retained = true → Answers (.retentionVerify 0x20) s fun t =>
        t.rd F.PWR_RET_STAT_fail = 0x20 ∧ t.flag F.PWR_RET_STAT_checked = true ∧ t.flag F.PWR_INT_ret_fail = true
        ∧ (∀ n : Fin 16, t.dp.host[n].stored = false)
        ∧ Touches [.pwr, .dp, .eng, .evr] (fun a => a = R.PWR_RET_STAT ∨ a = R.PWR_INT ∨ noticeReg a) s t)
      ∧ (2 ≤ s.pwr.pstate → source ≠ 0 → s.rd F.PWR_WAKE_FAIL_tries ≤ 2 → Answers (.readinessTimeout source) s fun t =>
        t.pwr.phase = .none ∧ t.pwr.pstate = s.pwr.pstate ∧ t.rd F.PWR_WAKE_FAIL_source = source
        ∧ t.rd F.PWR_WAKE_FAIL_tries = s.rd F.PWR_WAKE_FAIL_tries + 1
        ∧ (s.rd F.PWR_WAKE_FAIL_tries = 2 → t.flag F.PWR_WAKE_FAIL_given_up = true) ∧ t.faultN = true
        ∧ t.flag F.PWR_INT_wake_fail = true
        ∧ (t.reg R.PWR_WAKE_FAIL_CNT).toNat = min 0xFFFFFFFF ((s.reg R.PWR_WAKE_FAIL_CNT).toNat + 1)
        ∧ Touches [.clk, .eng, .evr, .pwr] (fun a => a = R.CLK_STAT ∨ a = R.PWR_WAKE_FAIL ∨ a = R.PWR_WAKE_FAIL_CNT
            ∨ a = R.PWR_INT ∨ noticeReg a) s t))
    ∧ (s.pwr.phase = .none → 2 ≤ s.pwr.pstate → s.rd F.PWR_WAKE_FAIL_tries ≠ 0 → s.flag F.PWR_WAKE_FAIL_given_up = false →
      Answers .wakeRetry s fun t => t.pwr = { s.pwr with phase := .exiting, heldWake := 0 }
        ∧ t.mgmt.dev = s.mgmt.dev ∧ t.dp = { s.dp with host := t.dp.host }
        ∧ Touches [.pwr, .mgmt, .dp] (fun a => a = R.PWR_WAKE_SRC ∨ a = R.TOP_COMMIT) s t)
    ∧ (s.ready port R.PWR_WAKE_FAIL = true → Answers (.wakeFailClear port) s fun t =>
        t.mgmt = { s.mgmt with pwrWrites := s.mgmt.pwrWrites ++ [(R.PWR_WAKE_FAIL, 0x80)] }
        ∧ Touches [.mgmt, .mem] (fun _ => False) s t
        ∧ (s.mgmt.pwrWrites = [] → s.flag F.PWR_WAKE_FAIL_given_up = true →
            t.pwrSettle.flag F.PWR_WAKE_FAIL_given_up = false ∧ t.pwrSettle.rd F.PWR_WAKE_FAIL_tries = 0))

/-! ## Retry ledger and bring-up -/

/-- R164, R166, R170, R178, R180–R182, R186, R187: the oldest retained unit expires; a held unit is verified, or given up
where it reads with poison, and lost at once where it lies before the partner's oldest; at its due time a unit is released to
its port as the hold store gives it back, with the blocks of a poisoned word replaced, or lost and filled; line fault sends
Local Fault on every enabled port; a rebuilt bank counts; the window check fits the hold window into its store or goes on
without retry. Where the spec leaves a point open, the model's choice stands: log entry 12. -/
def Obligations.LedgerEvents : Prop :=
  ∀ (s : State) (bank w : Nat),
    let g := s.dp.ledger
    -- no word of the slot of a unit in the hold array has wrong bits; every line of it is valid
    let clean (q : Nat) : Prop := ∀ c ∈ s.mem.sramEcc, ¬ (sramSlot true q ≤ c.1 ∧ c.1 < sramSlot true q + 240)
    let valid (q : Nat) : Prop := ∀ k : Fin 30, mapGet false s.mem.sramValid (sramSlot true q / 8 + k) = true
    let led (t : State) (h : Ledger) : Prop := t.dp = { s.dp with ledger := h }
    (∀ r rest, g.retention = r :: rest → r.t1 ≠ none → Answers .unitExpire s fun t =>
      led t { g with retention := rest } ∧ Claims.counted s t R.LEDGER_TX_EXPIRE_CNT 1
      ∧ (r.armed = true → Claims.counted s t R.LEDGER_TX_LATE_CNT 1)
      ∧ Touches [.dp] (fun a => a = R.LEDGER_TX_EXPIRE_CNT ∨ (r.armed = true ∧ a = R.LEDGER_TX_LATE_CNT)) s t)
    ∧ (∀ u, g.place = 1 → s.oldestUnverified = some u →
      let changed (f : RxUnit → RxUnit) : Ledger := { g with units := g.units.map fun x => if x.seq = u.seq then f x else x }
      clean u.seq →
      Answers (.holdVerifyRead false) s (fun t =>
        led t (changed fun x => { x with verified := true }) ∧ Touches [.dp] (fun _ => False) s t)
      ∧ (valid u.seq → Answers (.holdVerifyRead true) s fun t =>
        t.dp.ledger = { g with units := t.dp.ledger.units } ∧ t.dp = { s.dp with ledger := t.dp.ledger }
        ∧ t.dp.ledger.units.map (fun x => { x with lost := false }) =
            (changed fun x => { x with held := none }).units.map (fun x => { x with lost := false })
        ∧ (g.retryOn = true → u.inRange = true → u.lost = false → 0 < seqAhead u.seq g.peerOldest → seqAhead u.seq g.peerOldest ≤ 2 ^ 17 →
            (t.rxUnit u.seq).any (·.lost) = true)
        ∧ Claims.counted s t R.LEDGER_RX_VERIFY_POISON 1
        ∧ Touches [.dp, .eng, .evr, .mem, .memStore] (fun a => a = R.LEDGER_RX_VERIFY_POISON ∨ Claims.ueReg a
            ∨ (g.retryOn = true ∧ (a = R.LEDGER_RX_LOSS_CNT ∨ a = R.LEDGER_RX_LOSS_CAUSE))) s t))
    ∧ (∀ u now, s.nextDue = some (u, now) → g.lineFault = false → (∀ p : Fin 16, s.dp.ports[p].first < 16) →
      let passed (t : State) (lost : Bool) : Prop :=
        t.dp.ledger = { g with rxNext := (u.seq + 1) % 2 ^ 18, units := g.units.filter (fun x => x.seq != u.seq),
                               lostSeqs := t.dp.ledger.lostSeqs, lfDown := g.lfDown && !g.rxRun }
        ∧ (u.seq ∈ t.dp.ledger.lostSeqs ↔ lost = true) ∧ t.dp = { s.dp with ledger := t.dp.ledger, ports := t.dp.ports }
      let ports (a : Nat) : Prop := 0x100000 ≤ a ∧ a < 0x200000
      (∀ r, u.held = some r →
        let x := s.storeRead true u.seq [] r.blocks
        (x.1 = s → x.2.2 = [] → Answers (.unitDueRelease []) s fun t =>
          passed t false ∧ t.dp.ports[Fin.ofNat 16 r.port].lastRelease = now
          ∧ (s.dp.ports[Fin.ofNat 16 r.port].width = 0 ∨ s.portLoop (Fin.ofNat 16 r.port) 3 = true
              ∨ s.dp.ports[Fin.ofNat 16 r.port].lfOut = true ∨ t.dp.ports[Fin.ofNat 16 r.port].errEgress = false)
          ∧ (∀ q : Fin 16, q ≠ Fin.ofNat 16 r.port → t.dp.ports[q] = s.dp.ports[q])
          ∧ Touches [.dp, .eng, .evr] (fun a => ports a ∨ noticeReg a) s t)
        ∧ (g.place = 1 → clean u.seq → valid u.seq → w < 237 → Answers (.unitDueRelease [w]) s fun t =>
          passed t false ∧ t.dp.ports[Fin.ofNat 16 r.port].lastRelease = now
          ∧ Claims.counted s t R.LEDGER_RX_LOSS_CNT 1 ∧ bitOf (t.reg R.LEDGER_RX_LOSS_CAUSE).toNat 2 = true
          ∧ (∀ q : Fin 16, q ≠ Fin.ofNat 16 r.port → t.dp.ports[q] = s.dp.ports[q])
          ∧ Touches [.dp, .eng, .evr, .mem, .memStore] (fun a => a = R.LEDGER_RX_LOSS_CNT ∨ a = R.LEDGER_RX_LOSS_CAUSE
              ∨ Claims.ueReg a ∨ ports a) s t))
      ∧ (u.held = none → Answers (.unitDueRelease []) s fun t =>
        passed t true
        ∧ (∀ q, u.port = some q → t.dp.ports[Fin.ofNat 16 q].lastRelease = now)
        ∧ (u.lost = false → Claims.counted s t R.LEDGER_RX_LOSS_CNT 1
            ∧ bitOf (t.reg R.LEDGER_RX_LOSS_CAUSE).toNat 0 = true)
        ∧ Touches [.dp, .eng, .evr] (fun a => (u.lost = false ∧ (a = R.LEDGER_RX_LOSS_CNT ∨ a = R.LEDGER_RX_LOSS_CAUSE))
            ∨ (u.port = none ∧ a = R.LEDGER_RX_ATTR_CNT) ∨ ports a ∨ noticeReg a) s t))
    ∧ (g.ran = true → g.lineFault = false → Answers .lineFaultOnset s fun t =>
      t.dp.ledger = { g with lineFault := true, lfAfter := none } ∧ Claims.counted s t R.LEDGER_RX_LF_CNT 1
      ∧ (∀ p : Fin 16, t.dp.ports[p] = { s.dp.ports[p] with lfOut := s.enabledPorts.contains p })
      ∧ t.dp = { s.dp with ledger := t.dp.ledger, ports := t.dp.ports } ∧ Touches [.dp] (· = R.LEDGER_RX_LF_CNT) s t)
    ∧ (bank ∈ g.rebuild → Answers (.bankRebuildDone bank) s fun t =>
      led t { g with rebuild := g.rebuild.filter (· != bank) } ∧ Claims.counted s t R.LEDGER_DRAM_REBUILD_CNT 1
      ∧ Touches [.dp, .eng, .evr, .mem, .memStore] (fun a => a = R.LEDGER_DRAM_REBUILD_CNT ∨ a = R.MEM_DRAM_CE_CNT
          ∨ Claims.ueReg a) s t)
    ∧ (bank ∉ g.rebuild → exec (.bankRebuildDone bank) s = .next s)
    ∧ (s.dp.link.step = 6 → s.dp.link.status = 0 → Answers .windowCheckDone s fun t =>
      t.dp.link = { s.dp.link with status := t.dp.link.status } ∧ t.dp = { s.dp with link := t.dp.link, ledger := t.dp.ledger }
      ∧ t.dp.ledger.roundSf = ((s.rd F.LEDGER_LINK_RTT_cycles) + 2079) / 2080 + 3
      ∧ (s.cfgOn F.LEDGER_LINK_CTRL_retry_req = false → t.dp.link.status = 3)
      ∧ (s.cfgOn F.LEDGER_LINK_CTRL_retry_req = true → t.dp.link.status = 2 ∨ t.dp.link.status = 4)
      ∧ (t.dp.link.status = 2 → 32 * s.laneCount * t.dp.ledger.hOwn ≤ t.dp.ledger.cap ∧ t.dp.ledger.hOwn ≤ 512
          ∧ t.dp.ledger.hTx = t.dp.ledger.hOwn)
      ∧ (t.dp.link.status = 4 → t.dp.ledger.cap = 0 ∧ t.dp.ledger.hTx = 0)
      ∧ Touches [.dp] (fun _ => False) s t)

/-- What a new bring-up attempt begins with (R138, R141, R158): step 1 with a nonce that is not zero and an INVITE to send, no
superframe sent, and both halves of the ledger stopped. -/
def Claims.newAttempt (t : State) : Prop :=
  t.dp.link.step = 1 ∧ t.dp.link.nonce ≠ 0 ∧ t.mgmt.dev = .bringup ∧ t.dp.framer.sending = false
    ∧ t.dp.ledger.txRun = false ∧ t.dp.ledger.rxRun = false
    ∧ let invite : PenItem := { kind := 1, payload := t.bringupPayload 1 0, seq := none, accept := false }
      t.dp.pen.waiting.filter (samePen 2 invite) = [(2, invite)]

/-- The registers that a failed attempt or a lost link writes. -/
def Claims.linkReg (a : Nat) : Prop :=
  (0x310000 ≤ a ∧ a < 0x310200) ∨ (∃ n : Fin 8, a = R.OLn_CDR_STAT n ∨ a = R.OLn_CDR_FREQ n ∨ a = R.OLn_CDR_FALLBACK_CNT n)
    ∨ a = R.TOP_CMD_STAT ∨ a = R.TOP_CMD_ARGk 0 ∨ a = R.TOP_CMD_ARGk 1 ∨ noticeReg a

/-- R137–R143, R157–R159, R228: the invite timer repeats the pennant of its step, in place of one of its kind that still waits; a
partner that never answers, or falls silent, is absent; a step
that times out starts again as often as it may and then fails the attempt, with the code of its step; a partner that is lost
fails the attempt, or takes the link down. -/
def Obligations.BringupTimers : Prop :=
  ∀ s : State,
    let l := s.dp.link
    let queued (t : State) (prio : Nat) (x : PenItem) : Prop :=
      t.dp.pen.waiting.filter (samePen prio x) = [(prio, x)]
      ∧ (∀ j, t.dp.pen.waiting.filter (fun y => y.1 == j && !samePen prio x y) =
          s.dp.pen.waiting.filter fun y => y.1 == j && !samePen prio x y)
      ∧ t.dp = { s.dp with pen := { s.dp.pen with waiting := t.dp.pen.waiting }, link := t.dp.link }
      ∧ Touches [.dp] (fun _ => False) s t
    let bringup (x : List Byte) (acc : Bool) : PenItem := { kind := 1, payload := x, seq := none, accept := acc }
    let failed (t : State) (code : Nat) : Prop :=
      Claims.counted s t R.LEDGER_LINK_ATTEMPT_CNT 1 ∧ t.rd F.LEDGER_LINK_FAIL_last_fail = code
      ∧ t.rd F.LEDGER_LINK_FAIL_fail_step = l.step
      ∧ t.rd F.LEDGER_LINK_FAIL_consec = min 0xFFFF (s.rd F.LEDGER_LINK_FAIL_consec + 1)
      ∧ (t.rd F.LEDGER_LINK_FAIL_consec < s.cfgMin1 F.LEDGER_LINK_TMO2_max_attempts → Claims.newAttempt t)
      ∧ (s.cfgMin1 F.LEDGER_LINK_TMO2_max_attempts ≤ t.rd F.LEDGER_LINK_FAIL_consec →
          t.dp.link.step = 9 ∧ t.dp.link.status = 0x26 ∧ t.mgmt.dev = .partnerAbsent
          ∧ Claims.counted s t R.LEDGER_LINK_ABSENT_CNT 1)
      ∧ Touches [.dp, .mgmt, .eng, .evr] Claims.linkReg s t
    (l.step = 9 → Answers .inviteTimer s fun t =>
      queued t 2 (bringup (s.bringupPayload 1 0) false) ∧ t.dp.link = { l with ignoring := false })
    ∧ (l.step = 1 → l.compatSeen = false ∨ l.mismatch = true → Answers .inviteTimer s fun t =>
      queued t 2 (bringup (s.bringupPayload 1 0) false) ∧ t.dp.link = l)
    ∧ (l.step = 1 → l.mismatch = false → l.compatSeen = true → l.cand ≠ 0 → Answers .inviteTimer s fun t =>
      queued t 1 (bringup (s.bringupPayload 2 l.cand) true) ∧ t.dp.link = l)
    ∧ (2 ≤ l.step → l.step ≤ 8 → Answers .inviteTimer s fun t =>
      queued t 2 (bringup (s.bringupPayload 3 l.peerNonce) false) ∧ t.dp.link = l)
    ∧ (l.step = 1 → Answers .partnerAbsentTimeout s fun t =>
      t.dp.link.step = 9 ∧ t.dp.link.status = 0 ∧ t.dp.link.nonce ≠ 0 ∧ t.mgmt.dev = .partnerAbsent
      ∧ Claims.counted s t R.LEDGER_LINK_ABSENT_CNT 1 ∧ t.dp = { s.dp with link := t.dp.link }
      ∧ Touches [.dp, .mgmt, .eng, .evr] (fun a => a = R.LEDGER_LINK_ABSENT_CNT ∨ noticeReg a) s t)
    ∧ (2 ≤ l.step → l.step ≤ 5 →
      (l.restarts < s.cfg F.LEDGER_LINK_TMO2_step_retries → Answers .bringupStepTimeout s fun t =>
        t.dp.link.step = l.step ∧ t.dp.link.restarts = l.restarts + 1
        ∧ (l.step = 2 → ∀ n ∈ s.activeLanes, s.acquired n = false → t.dp.rx[n].fe = .search)
        ∧ (l.step = 3 → ∀ n ∈ s.activeLanes, s.dp.rx[n].lock ≠ .locked → s.dp.rx[n].lock ≠ .off → t.dp.rx[n].lock = .hunt)
        ∧ (l.step = 4 → t.dp.link.stable = 0) ∧ (l.step = 5 → t.dp.link.samples = [])
        ∧ Touches [.dp, .eng, .evr] Claims.linkReg s t)
      ∧ (s.cfg F.LEDGER_LINK_TMO2_step_retries ≤ l.restarts → Answers .bringupStepTimeout s fun t =>
        failed t (0x1E + l.step)))
    ∧ (l.step = 6 → Answers .bringupStepTimeout s fun t => failed t 0x26)
    ∧ (2 ≤ l.step → l.step ≤ 6 → Answers .partnerLossTimeout s fun t => failed t 0x24)
    ∧ (s.inLinked = true → s.linkUp = true → s.cvMode = true → s.cfgOn F.LEDGER_LINK_CTRL_enable = true →
      Answers .partnerLossTimeout s fun t =>
        Claims.newAttempt t ∧ Claims.counted s t R.LEDGER_LINK_DOWN_CNT 1
        ∧ t.rd F.LEDGER_LINK_FAIL_last_fail = 0x24 ∧ t.dp.ledger.retention = [] ∧ t.dp.framer.ready = []
        ∧ Touches [.dp, .mgmt, .eng, .evr] Claims.linkReg s t)

/-- R144, R145, R155, R157: a hunting lane that finds the ensign verifies it, and is locked after three; a locked lane counts
misses, and at the fourth in LINKED is ordered to retrain fast; a lane that relocks, its front end tracking, is in service
again, and one that does not in time retrains fully, or takes the link down. Where the spec leaves a point open, the model's
choice stands: log entry 35. -/
def Obligations.LaneLocks : Prop :=
  ∀ (s : State) (n : Fin 8) (labels : List (Fin 4)) (arrival : Nat),
    let r := s.dp.rx[n]
    let hit := decide (ensignDiff labels 8 ≤ s.ensTol)
    let stays (t : State) : Prop :=
      t.dp = { s.dp with rx := s.dp.rx.set n t.dp.rx[n], link := t.dp.link } ∧ t.dp.rx[n].equ = r.equ ∧ t.dp.rx[n].adc = r.adc
    let ordered (t : State) : Prop :=
      t.dp.rx[n].lock = .relock ∧ bitOf t.dp.link.retrainReq n = true ∧ (r.fe = .track → t.dp.rx[n].fe = .hold)
      ∧ (s.dp.link.step = 7 → t.dp.link.step = 8) ∧ t.flag (F.OLn_CDR_STAT_holding n) = true
      ∧ t.flag (F.OLn_CDR_STAT_locked n) = false ∧ Claims.counted s t (R.LEDGER_LINK_FAST_CNTn n) 1
      ∧ stays t ∧ Touches [.dp] (fun a => a = R.OLn_CDR_STAT n ∨ a = R.LEDGER_LINK_FAST_CNTn n) s t
    (r.heldIdle = false →
      (r.lock = .hunt → (ensignBest labels).2 ≤ s.ensTol → Answers (.ensignCheck n labels arrival) s fun t =>
        t.dp.rx[n].lock = .verify ∧ t.dp.rx[n].matched = 1 ∧ t.dp.rx[n].ensignOk = true
        ∧ t.dp.rx[n].lastArrival = arrival + (ensignBest labels).1 - 8 ∧ stays t ∧ Touches [.dp] (fun _ => False) s t)
      ∧ (r.lock = .verify → hit = true → 2 ≤ r.matched → s.dp.link.step ≠ 3 → s.dp.link.step ≠ 2 → s.dp.link.step ≠ 4 →
        s.dp.link.step ≠ 5 → Answers (.ensignCheck n labels arrival) s fun t =>
          t.dp.rx[n].lock = .locked ∧ t.dp.rx[n].misses = 0 ∧ stays t ∧ Touches [.dp] (fun _ => False) s t)
      ∧ (r.lock = .verify → hit = true → (∀ m ∈ s.activeLanes, m ≠ n → s.dp.rx[m].lock = .locked) → n ∈ s.activeLanes →
        2 ≤ r.matched → s.dp.link.step = 3 → Answers (.ensignCheck n labels arrival) s fun t =>
          t.dp.rx[n].lock = .locked ∧ t.dp.link.step = 4 ∧ Touches [.dp] (fun _ => False) s t)
      ∧ (r.lock = .verify → hit = false → Answers (.ensignCheck n labels arrival) s fun t =>
        t.dp.rx[n].lock = .hunt ∧ t.dp.rx[n].matched = 0 ∧ stays t ∧ Touches [.dp] (fun _ => False) s t)
      ∧ (r.lock = .locked → (hit = true ∨ r.misses < 3) → Answers (.ensignCheck n labels arrival) s fun t =>
        t.dp.rx[n].lock = .locked ∧ t.dp.rx[n].misses = (if hit then 0 else r.misses + 1)
        ∧ t.dp.rx[n].ensignOk = hit ∧ stays t ∧ Touches [.dp] (fun _ => False) s t)
      ∧ (r.lock = .locked → hit = false → r.misses = 3 → s.inLinked = true → s.cfgOn F.LEDGER_LINK_CTRL_fast_en = true →
        Answers (.ensignCheck n labels arrival) s ordered)
      ∧ (r.lock = .relock → hit = true → r.fe = .track → s.laneOffset n arrival ≤ 228 * s.deskewNs →
        Answers (.ensignCheck n labels arrival) s fun t =>
          t.dp.rx[n].lock = .locked ∧ bitOf t.dp.link.retrainReq n = false
          ∧ (s.dp.link.step = 8 → (∀ m ∈ s.activeLanes, m ≠ n → s.dp.rx[m].lock ≠ .relock) → t.dp.link.step = 7)
          ∧ stays t ∧ Touches [.dp] (fun _ => False) s t))
    ∧ (r.lock = .relock → Answers (.relockTimeout n) s fun t =>
      t.dp.rx[n].lock = .off ∧ t.dp.rx[n].full = true ∧ t.dp.rx[n].fe = .search
      ∧ bitOf t.dp.link.retrainReq n = true ∧ t.flag (F.OLn_CDR_STAT_fallback n) = true
      ∧ Claims.counted s t (R.LEDGER_LINK_FULL_CNTn n) 1
      ∧ Touches [.dp, .mgmt, .eng, .evr] Claims.linkReg s t)
    ∧ (r.full = true → s.linkUp = true → s.cvMode = true → s.cfgOn F.LEDGER_LINK_CTRL_enable = true →
      Answers (.fullRetrainTimeout n) s fun t =>
        Claims.newAttempt t ∧ Claims.counted s t R.LEDGER_LINK_DOWN_CNT 1
        ∧ t.rd F.LEDGER_LINK_FAIL_last_fail =
            (if s.acquired n = false then 0x20 else if r.lock ≠ .locked then 0x21 else 0x22)
        ∧ Touches [.dp, .mgmt, .eng, .evr] Claims.linkReg s t)
    ∧ (s.dp.link.peerStatus = 5 → bitOf s.laneMask n = true → s.inLinked = true → r.fe = .track →
      Answers (.lineSignalLoss n) s fun t =>
        t.dp.rx[n].fe = .hold ∧ t.dp.rx[n].heldIdle = true ∧ bitOf t.dp.link.retrainReq n = true
        ∧ t.flag (F.OLn_CDR_STAT_holding n) = true ∧ stays t ∧ Touches [.dp] (· = R.OLn_CDR_STAT n) s t)
    ∧ (r.heldIdle = true → Answers (.lineSignalDetect n) s fun t => t.dp.rx[n].heldIdle = false ∧ ordered t)

/-! ## Host lanes -/

/-- A lane of the host has gone down (R197, R200): its receiver starts anew, and no port that has it keeps its
alignment-marker lock. -/
def Claims.laneDown (s t : State) (n : Fin 16) : Prop :=
  t.dp.host[n].st = .down ∧ t.dp.host[n].cdr = false ∧ t.dp.host[n].adapted = false ∧ t.dp.host[n].stored = false
    ∧ t.dp.host[n].coeffs = [] ∧ t.dp.host[n].kept = [] ∧ t.dp.host[n].emfValid = false
    ∧ (∀ p : Fin 16, t.dp.ports[p] = { s.dp.ports[p] with
        amLock := s.dp.ports[p].amLock && !(s.portsOfLane n).contains p
        deskew := s.dp.ports[p].deskew && !(s.dp.ports[p].amLock && (s.portsOfLane n).contains p) })
    ∧ (∀ m : Fin 16, m ≠ n → t.dp.host[m] = s.dp.host[m]) ∧ t.dp = { s.dp with host := t.dp.host, ports := t.dp.ports }

/-- The registers that a lane's way down writes. -/
def Claims.downReg (n : Fin 16) (a : Nat) : Prop :=
  (∃ k : Fin 16, a = R.HLn_AM_LOSS_CNT k) ∨ a = R.HLn_DOWN_CNT n ∨ noticeReg a

/-- R197, R198, R206: a lane that is down locks its CDR and adapts when signal comes, shows the eyes that it measures, is up
when it has adapted to a sufficient margin, and down again where it has not in time; while it is up each coefficient moves by
at most one code, and none with freeze; three figures below half the margin, a lost signal and a restart take it down; from
electrical idle it returns with its stored settings, or adapts anew. Where the spec leaves a point open, the model's choice
stands: log entry 64. -/
def Obligations.HostLaneStates : Prop :=
  ∀ (s : State) (port : Fin 5) (n : Fin 16) (quick : Byte) (lower middle upper : Nat) (signal : Bool),
    let h := s.dp.host[n]
    let is (t : State) (k : HostLane) : Prop := t.dp = { s.dp with host := s.dp.host.set n k }
    let fig := min 255 (255 * min lower (min middle upper) / 65536)
    let ups (a : Nat) : Prop := noticeReg a
    let seen (k : HostLane) : HostLane := { k with emf := fig, worst := worstEye lower middle upper, emfValid := true }
    (h.st = .down → s.hostUsed n = true → s.pwr.pstate = 0 → Answers (.hostSignalDetect n) s fun t =>
      is t { h with sig := true, st := .adapt, cdr := true } ∧ Touches [.dp, .eng] engReg s t)
    ∧ (h.st = .adapt → s.emfMin n ≤ fig → Answers (.hostAdaptDone n lower middle upper) s fun t =>
      is t { seen h with st := .up, cdr := true, adapted := true, low := 0, coeffs := t.dp.host[n].coeffs }
      ∧ Touches [.dp, .mgmt, .eng, .evr] ups s t)
    ∧ (h.st = .adapt → (fig < s.emfMin n → Answers (.hostAdaptDone n lower middle upper) s fun t =>
        is t (seen h) ∧ Touches [.dp] (fun _ => False) s t)
      ∧ Answers (.emfMeasure n lower middle upper) s fun t => is t (seen h) ∧ Touches [.dp] (fun _ => False) s t)
    ∧ (h.st = .adapt → Answers (.hostAdaptTimeout n) s fun t =>
      Claims.laneDown s t n ∧ Claims.counted s t (R.HLn_ADAPT_FAIL n) 1
      ∧ Touches [.dp, .mgmt, .eng, .evr] (fun a => a = R.HLn_ADAPT_FAIL n ∨ Claims.downReg n a) s t)
    ∧ (h.st = .up → (s.emfMin n ≤ 2 * fig ∨ h.low < 2) → Answers (.emfMeasure n lower middle upper) s fun t =>
      is t { seen h with low := if 2 * fig < s.emfMin n then h.low + 1 else 0, coeffs := t.dp.host[n].coeffs }
      ∧ t.dp.host[n].coeffs.length = h.coeffs.length
      ∧ (∀ c ∈ List.zip h.coeffs t.dp.host[n].coeffs, -1 ≤ c.2 - c.1 ∧ c.2 - c.1 ≤ 1)
      ∧ (s.cfgOn (F.HLn_RX_ADAPT_freeze n) = true → t.dp.host[n].coeffs = h.coeffs)
      ∧ (lower ≤ middle → lower ≤ upper → t.dp.host[n].worst = 0)
      ∧ (middle < lower → middle ≤ upper → t.dp.host[n].worst = 1)
      ∧ (upper < lower → upper < middle → t.dp.host[n].worst = 2) ∧ Touches [.dp] (fun _ => False) s t)
    ∧ (h.st = .up → 2 * fig < s.emfMin n → 2 ≤ h.low → Answers (.emfMeasure n lower middle upper) s fun t =>
      Claims.laneDown s t n ∧ Claims.counted s t (R.HLn_DOWN_CNT n) 1
      ∧ Touches [.dp, .mgmt, .eng, .evr] (Claims.downReg n) s t)
    ∧ (h.st = .up → Answers (.hostLaneDown n signal) s fun t =>
      Claims.laneDown s t n ∧ t.dp.host[n].sig = signal ∧ Claims.counted s t (R.HLn_DOWN_CNT n) 1
      ∧ Touches [.dp, .mgmt, .eng, .evr] (Claims.downReg n) s t)
    ∧ (s.ready port (R.HLn_RX_ADAPT n) = true → s.hostUsed n = true → s.dpOff = false →
      Answers (.hostRxRestart port n) s fun t =>
        Claims.laneDown s t n ∧ (∀ a, t.stagedReg a = s.stagedReg a)
        ∧ Touches [.staged, .dp, .mem, .mgmt, .eng, .evr] (Claims.downReg n) s t)
    ∧ (h.st = .idle → s.idleExitOrdered = true →
      (h.stored = true → s.cfgOn (F.HLn_RX_ADAPT_fast_en n) = true →
        (s.emfMin n ≤ quick.toNat → Answers (.hostIdleExit n (some quick)) s fun t =>
          is t { h with sig := true, st := .up, cdr := true, exiting := false, low := 0, coeffs := h.kept }
          ∧ Touches [.dp, .mgmt, .eng, .evr] ups s t)
        ∧ Answers (.hostIdleExit n none) s (fun t =>
          is t { h with sig := true, exiting := true } ∧ Touches [.dp] (fun _ => False) s t))
      ∧ (h.stored = false → Answers (.hostIdleExit n (some quick)) s fun t =>
        Claims.laneDown s t n ∧ Touches [.dp, .mgmt, .eng, .evr] (Claims.downReg n) s t))
    ∧ (h.st = .idle → h.exiting = true → Answers (.hostFastExitTimeout n) s fun t =>
      Claims.laneDown s t n ∧ Touches [.dp, .mgmt, .eng, .evr] (Claims.downReg n) s t)

/-- R202–R204, R186, R206, R208: a block leaves the elastic buffer into the PCS; an idle that follows an idle is deleted from
a buffer that is too full and one is inserted after an idle where it is too empty; an empty buffer slips, and fills up again
before it sends. While Local Fault is sent one block of it enters the buffer first. A port in electrical idle, under the
far-end loop, or in a standard mode sends nothing of its buffer. The fourth block completes a transcoded block, which is
scrambled, and the 20th such block a codeword. R209, R210: a checker is seeded, slips by a bit or by a symbol and then counts
from 0. Of symbols that continue its pattern it counts no error, and it locks with the 4,096th bit in a row that has none;
the 64th error within 4,096 bits is counted and takes its lock, and with auto_sync it then takes a new seed. Where the spec
leaves a point open, the model's choice stands: log entries 78, 79. -/
def Obligations.EgressAndPatterns : Prop :=
  (∀ (s : State) (p : Fin 16) (cyc : Nat) (x : BitVec 66) (rest : List (BitVec 66)),
      let q := s.dp.ports[p]
      let c := s.ebCentre q.width
      let is (t : State) (k : Port) : Prop := t.dp = { s.dp with ports := s.dp.ports.set p k }
      let sends : Bool := s.cvMode && decide (0 < q.width) && !(s.portLanes p).any (fun n => s.dp.host[n].idle)
        && !s.portLoop p 3 && !s.portMixed p
      let fill := State.fillBlock q.lastOut
      (sends = false → exec (.egressBlockOut p cyc) s = .next s)
      ∧ (sends = true → q.first < 16 → q.lfOut = false →
        (q.gather.length < 3 →
          (q.refill = false → q.eb = x :: rest → q.eb.length ≤ 4 * (c + 4 * q.width) → 4 * (c - 4 * q.width) ≤ q.eb.length →
            Answers (.egressBlockOut p cyc) s fun t =>
              is t { q with eb := rest, lastOut := some x, inserted := false, gather := q.gather ++ [x] }
              ∧ Touches [.dp] (fun _ => False) s t)
          ∧ (q.refill = false → q.eb = idle66 :: x :: rest → q.lastOut = some idle66 → x ≠ idle66 →
            4 * (c + 4 * q.width) < q.eb.length → Answers (.egressBlockOut p cyc) s fun t =>
              is t { q with eb := rest, lastOut := some x, inserted := false, gather := q.gather ++ [x] }
              ∧ Claims.counted s t (R.HLn_IDLE_DEL q.first) 1 ∧ Touches [.dp] (· = R.HLn_IDLE_DEL q.first) s t)
          ∧ (q.refill = false → q.eb = x :: rest → q.lastOut = some idle66 → q.inserted = false →
            q.eb.length < 4 * (c - 4 * q.width) → Answers (.egressBlockOut p cyc) s fun t =>
              is t { q with lastOut := some idle66, inserted := true, gather := q.gather ++ [idle66] }
              ∧ Claims.counted s t (R.HLn_IDLE_INS q.first) 1 ∧ Touches [.dp] (· = R.HLn_IDLE_INS q.first) s t)
          ∧ (q.refill = false → q.eb = [] → Answers (.egressBlockOut p cyc) s fun t =>
              is t { q with refill := true, lastOut := some fill, inserted := false, gather := q.gather ++ [fill] }
              ∧ Claims.counted s t (R.HLn_EB_SLIP_CNT q.first) 1
              ∧ Touches [.dp, .eng, .evr] (fun a => a = R.HLn_EB_SLIP_CNT q.first ∨ noticeReg a) s t)
          ∧ (q.refill = true → q.eb.length < 4 * c → Answers (.egressBlockOut p cyc) s fun t =>
              is t { q with lastOut := some fill, inserted := false, gather := q.gather ++ [fill] }
              ∧ Touches [.dp] (fun _ => False) s t))
        ∧ (q.gather.length = 3 → q.refill = true → q.eb.length < 4 * c → q.blocks ≠ [] →
          let coded := pcsScramble (blockBits (transcode (q.gather ++ [fill]))) q.txScr
          (q.blocks.length < 19 → Answers (.egressBlockOut p cyc) s fun t =>
            is t { q with lastOut := some fill, inserted := false, gather := [], txScr := coded.2,
                          blocks := q.blocks ++ bitBlocks coded.1 } ∧ Touches [.dp] (fun _ => False) s t)
          ∧ (q.blocks.length = 19 → s.portLoop p 1 = false → s.portLoop p 2 = false → Answers (.egressBlockOut p cyc) s fun t =>
            t.dp.ports = s.dp.ports.set p
              { q with lastOut := some fill, inserted := false, gather := [], txScr := coded.2, blocks := [], marks := 0,
                       word := rsEncode (bitSymbols ((q.blocks ++ bitBlocks coded.1).flatMap blockBits)) }
            ∧ t.dp = { s.dp with ports := t.dp.ports, host := t.dp.host } ∧ Touches [.dp] (fun _ => False) s t)))
      ∧ (sends = true → q.lfOut = true →
        let set (u : State) (k : Port) : State := { u with dp := { u.dp with ports := u.dp.ports.set p k } }
        let fed := set s { q with eb := q.eb ++ [localFault66], shown := q.shown + 1, lfOut := false }
        Answers (.egressBlockOut p cyc) fed fun u =>
          Answers (.egressBlockOut p cyc) s (· = set u { u.dp.ports[p] with lfOut := true })))
  ∧
  (∀ (s : State) (port : Fin 5) (n : Fin 16) (pat : Pattern) (symbols : List (Fin 4)) (y : Fin 4),
      let h := s.dp.host[n]
      let is (t : State) (k : HostLane) : Prop := t.dp = { s.dp with host := s.dp.host.set n k }
      let auto := s.cfgOn (F.HLn_PRBS_CTRL_auto_sync n)
      -- what the lane receives reaches its checker as it comes
      let plain : Bool := s.hostLoop n == 0 && !s.cfgOn (F.HLn_CTRL_rx_invert n) && !s.cfgOn (F.HLn_CTRL_rx_precode n)
      -- the checker compares, in step with the pattern
      let compares : Prop := h.chk = s.prbsChk n ∧ h.seeded = true ∧ h.need = 0 ∧ h.skip = 0 ∧ h.delay = 0 ∧ h.swapped = false
      let lineReg (a : Nat) : Prop := s.stdMode = true ∧ ∃ k : Fin 8, a = R.OLn_TX_SAT_CNT k
      (s.ready port (R.HLn_PRBS_CTRL n) = true → s.hostUsed n = true → s.dpOff = false →
        -- no WO bit stands in the staged copy
        s.stagedReg (R.HLn_PRBS_CTRL n) &&& 0x380 = 0 →
        (hostPattern (s.prbsChk n) = some pat → Answers (.prbsResync port n) s fun t =>
          is t { h with seeded := true, need := pat.seedBits, place := 0, prbsLocked := false, clean := 0, errors := [],
                        chk := s.prbsChk n }
          ∧ (∀ a, t.stagedReg a = s.stagedReg a) ∧ Touches [.staged, .dp, .mem] (fun _ => False) s t)
        ∧ Answers (.prbsSlipBit port n) s (fun t =>
          is t { h with swapped := !h.swapped, skip := h.skip + 1, prbsLocked := false, clean := 0, errors := [] }
          ∧ t.reg (R.HLn_PRBS_ERR n) = 0 ∧ (∀ a, t.stagedReg a = s.stagedReg a)
          ∧ Touches [.staged, .dp, .mem] (· = R.HLn_PRBS_ERR n) s t)
        ∧ Answers (.prbsSlipSym port n) s (fun t =>
          is t { h with delay := h.delay + 1, prbsLocked := false, clean := 0, errors := [] }
          ∧ t.reg (R.HLn_PRBS_ERR n) = 0 ∧ (∀ a, t.stagedReg a = s.stagedReg a)
          ∧ Touches [.staged, .dp, .mem] (· = R.HLn_PRBS_ERR n) s t))
      ∧ (hostPattern (s.prbsChk n) = some pat → plain = true → compares → symbols ≠ [] →
        symbols.map (·.val) = (pat.run symbols.length h.place).1 → Answers (.prbsCheckLock n symbols) s fun t =>
          t.dp.host[n].clean = h.clean + 2 * symbols.length
          ∧ t.dp.host[n].prbsLocked = (h.prbsLocked || decide (4096 ≤ h.clean + 2 * symbols.length))
          ∧ t.dp.host[n].place = (pat.run symbols.length h.place).2 ∧ (∀ m : Fin 16, m ≠ n → t.dp.host[m] = s.dp.host[m])
          ∧ (s.stdMode = false → is t t.dp.host[n]) ∧ Touches [.dp] lineReg s t)
      ∧ (hostPattern (s.prbsChk n) = some pat → plain = true → compares → h.prbsLocked = true → h.errors.length = 63 →
        h.bits + 1 - h.errors.getLastD 0 < 4096 → bitOf (symLabel y) 1 ≠ (pat.bit h.place).1 →
        Answers (.prbsLockLoss n [y]) s fun t =>
          t.dp.host[n].prbsLocked = false ∧ Claims.counted s t (R.HLn_PRBS_ERR n) 1
          ∧ (auto = true → t.dp.host[n].seeded = true ∧ 0 < t.dp.host[n].need)
          ∧ (∀ m : Fin 16, m ≠ n → t.dp.host[m] = s.dp.host[m]) ∧ (s.stdMode = false → is t t.dp.host[n])
          ∧ Touches [.dp] (fun a => a = R.HLn_PRBS_ERR n ∨ lineReg a) s t))

/-! ## Transmit path -/

/-- R51–R54, R200, R212: a codeword of a port that is up is decoded; its blocks without the alignment markers, descrambled,
are packed in order in a CV mode, each replaced by an error control block where the codeword does not decode, and it is
counted; in a standard mode it is only counted. A port that is not up takes no codeword, and packs Local Fault; lock and
deskew are lost and regained. R52, R59, R169: the 59th block completes a unit, with its port, the commit epoch and the cycle
of its completion. It enters the ready queue behind the units that completed before it or in the same cycle on a port that is
not higher, and with retry on it is retained at the same place. It is discarded while the transmit half is stopped; at a full
queue the last of the queue or it is discarded, and the next block that the port of that unit packs is an error control
block. Where the spec leaves a point open, the model's choice stands: log entry 10. -/
def Obligations.HostBlocksAndUnits : Prop :=
  (∀ (s : State) (p : Fin 16) (cyc skewNs : Nat) (burst : HostBurst),
      let h := s.portBlock p
      let q := s.dp.ports[p]
      let word := burst.codeword.map (·.toNat)
      let body (w : List Nat) : List Bool × Nat :=
        pcsDescramble ((symbolBits (w.take 514)).drop (257 * burst.markers)) q.rxScr
      -- the port when blocks have been packed
      let after (bs : List Block) (lf : Bool) (scr : Nat) : Port := { q with
        openBlocks := q.openBlocks ++ (if q.errNext && q.openBlocks.isEmpty then errorBlock :: bs.drop 1 else bs)
        openLf := q.openLf || lf, errNext := q.errNext && !q.openBlocks.isEmpty
        packed := q.packed + 4 * bs.length, rxScr := scr }
      let fits (bs : List Block) : Prop := bs ≠ [] ∧ q.openBlocks.length + bs.length < 59
      let is (t : State) (k : Port) : Prop := t.dp = { s.dp with ports := s.dp.ports.set p k, host := t.dp.host }
      -- in a standard mode the symbols of the lanes go on to the line
      let std (t : State) (scr : Nat) : Prop := t.dp.ports = s.dp.ports.set p { q with rxScr := scr }
        ∧ t.dp.framer = s.dp.framer ∧ t.dp.ledger = s.dp.ledger ∧ t.dp.rx = s.dp.rx
      let prbs (a : Nat) : Prop := ∃ k : Fin 16, a = R.HLn_PRBS_ERR k
      let sat (a : Nat) : Prop := s.stdMode = true ∧ ∃ k : Fin 8, a = R.OLn_TX_SAT_CNT k
      let fec (k : Nat) (a : Nat) : Prop := k ≠ 0 ∧ (a = R.HLn_FEC_CORR_LO h ∨ a = R.HLn_FEC_CORR_HI h ∨ a = R.HLn_FEC_SYM_LO h
        ∨ a = R.HLn_FEC_SYM_HI h)
      (h < 16 → s.portUp p = true → s.portMonitored p = true → s.portLoop p 1 = false → s.portLoop p 2 = false →
        (rsDecode word = none → Answers (.hostRsCodeword p cyc burst) s fun t =>
          (s.packs p = true → fits (List.replicate (20 - burst.markers) errorBlock) →
            is t (after (List.replicate (20 - burst.markers) errorBlock) false (body word).2)
            ∧ Touches [.dp] (fun a => a = R.HLn_FEC_UNCORR h ∨ prbs a) s t)
          ∧ (s.stdMode = true → std t (body word).2 ∧ Touches [.dp] (fun a => a = R.HLn_FEC_UNCORR h ∨ prbs a ∨ sat a) s t)
          ∧ Claims.counted s t (R.HLn_FEC_UNCORR h) 1)
        ∧ (∀ w k, rsDecode word = some (w, k) → Answers (.hostRsCodeword p cyc burst) s fun t =>
          (s.packs p = true → fits (bitBlocks (body w).1) →
            is t (after (bitBlocks (body w).1) false (body w).2) ∧ Touches [.dp] (fun a => fec k a ∨ prbs a) s t)
          ∧ (s.stdMode = true → std t (body w).2 ∧ Touches [.dp] (fun a => fec k a ∨ prbs a ∨ sat a) s t)
          ∧ (k ≠ 0 → Claims.counted64 s t (R.HLn_FEC_CORR_LO h) 1 ∧ Claims.counted64 s t (R.HLn_FEC_SYM_LO h) k)))
      ∧ ((s.portUp p && s.portMonitored p && !(s.portLoop p 1 || s.portLoop p 2)) = false →
        Answers (.hostRsCodeword p cyc burst) s fun t =>
          t.dp.ports = s.dp.ports ∧ t.dp.framer = s.dp.framer ∧ Touches [.dp] (fun a => prbs a ∨ sat a) s t)
      ∧ (s.lfFill p = true → q.openBlocks.length + 1 < 59 → Answers (.localFaultBlockInsert p cyc) s fun t =>
          t.dp = { s.dp with ports := s.dp.ports.set p (after [localFaultBlock] true q.rxScr) }
          ∧ Touches [.dp] (fun _ => False) s t)
      ∧ (q.amLock = true → Answers (.portAmLockLoss p) s fun t =>
          t.dp = { s.dp with ports := s.dp.ports.set p { q with amLock := false, deskew := false } }
          ∧ Claims.counted s t (R.HLn_AM_LOSS_CNT h) 1 ∧ Touches [.dp] (· = R.HLn_AM_LOSS_CNT h) s t)
      ∧ (0 < q.width → s.portLanesUp p = true → s.portMonitored p = true → Answers (.portAmLockReturn p skewNs) s fun t =>
          t.dp = { s.dp with ports := s.dp.ports.set p { q with amLock := true, deskew := decide (skewNs ≤ 180) } }
          ∧ Touches [.dp] (fun _ => False) s t))
  ∧
  (∀ (s : State) (p : Fin 16) (cyc : Nat),
      let q := s.dp.ports[p]
      let g := s.dp.ledger
      let ready := s.dp.framer.ready
      let u : TxUnit := { port := p, epoch := s.epoch4, blocks := q.openBlocks ++ [localFaultBlock],
                          done := s.dp.framer.base + cyc, start := q.packed + 4 - 236 }
      let i := queuePlace u ready
      let empty : Port := { q with openBlocks := [], openLf := false, packed := q.packed + 4 }
      s.lfFill p = true → q.openBlocks.length = 58 →
      (g.txRun = true → ready.length < 512 →
        -- the sequence number whose slot of the retention the unit takes
        let seq := (g.txNext + ready.length) % 2 ^ 18
        let queued := g.retention.filter (·.t1.isNone)
        let kept : Retained := { seq := seq, unit := u, t1 := none, lane := 0, count := 0, armed := false, lastStart := 0,
                                 unrec := false, frameT1 := none }
        (g.retryOn = true → g.cap = 0 ∨ ∀ r ∈ g.retention, r.seq % s.storeSlots ≠ seq % s.storeSlots) →
        Answers (.localFaultBlockInsert p cyc) s fun t =>
          t.dp.framer = { s.dp.framer with ready := ready.take i ++ u :: ready.drop i }
          ∧ t.dp.ledger = (if g.retryOn then { g with
              unrec := g.unrec.filter (· != seq)
              retention := g.retention.filter (·.t1.isSome) ++ renumber g.txNext (queued.take i ++ kept :: queued.drop i) } else g)
          ∧ t.dp = { s.dp with framer := t.dp.framer, ledger := t.dp.ledger, ports := s.dp.ports.set p empty }
          ∧ Claims.counted s t R.FRAMER_CNT_LOCKFILL 1
          ∧ t.rd F.FRAMER_QUEUE_HWM_hwm = max (s.rd F.FRAMER_QUEUE_HWM_hwm) (ready.length + 1)
          ∧ Touches (if g.retryOn then [.dp, .mem, .memStore] else [.dp])
              (fun a => a = R.FRAMER_CNT_LOCKFILL ∨ a = R.FRAMER_QUEUE_HWM) s t)
      ∧ (g.txRun = true → 512 ≤ ready.length →
        -- none of the queue would stand behind it
        ((∀ x ∈ ready, x.before u = true) → Answers (.localFaultBlockInsert p cyc) s fun t =>
          t.dp = { s.dp with ports := s.dp.ports.set p { empty with errNext := true } }
          ∧ Claims.counted s t R.FRAMER_CNT_QOVF 1 ∧ Claims.counted s t R.FRAMER_CNT_LOCKFILL 1
          ∧ Touches [.dp] (fun a => a = R.FRAMER_CNT_LOCKFILL ∨ a = R.FRAMER_CNT_QOVF) s t)
        -- the last of the queue stands behind it, and gives way
        ∧ (∀ x : TxUnit, ready.getLast? = some x → x.before u = false → x.port < 16 → g.retryOn = false →
            Answers (.localFaultBlockInsert p cyc) s fun t =>
          let j := queuePlace u ready.dropLast
          let ports := s.dp.ports.set p empty
          let last : Fin 16 := Fin.ofNat 16 x.port
          t.dp.framer = { s.dp.framer with ready := ready.dropLast.take j ++ u :: ready.dropLast.drop j }
          ∧ t.dp = { s.dp with framer := t.dp.framer, ports := ports.set last { ports[last] with errNext := true } }
          ∧ Claims.counted s t R.FRAMER_CNT_QOVF 1
          ∧ Touches [.dp] (fun a => a = R.FRAMER_CNT_LOCKFILL ∨ a = R.FRAMER_CNT_QOVF ∨ a = R.FRAMER_QUEUE_HWM) s t))
      ∧ (g.txRun = false → Answers (.localFaultBlockInsert p cyc) s fun t =>
          t.dp = { s.dp with ports := s.dp.ports.set p empty }
          ∧ Claims.counted s t R.LEDGER_TX_DOWN_CNT 1 ∧ Claims.counted s t R.FRAMER_CNT_LOCKFILL 1
          ∧ Touches [.dp] (fun a => a = R.FRAMER_CNT_LOCKFILL ∨ a = R.LEDGER_TX_DOWN_CNT) s t))

/-- R55–R58, R172: at a slot decision the lanes in service take the waiting units in increasing lane number, each with the
next sequence number; with none waiting the first of them sends the lowest armed unit that is eligible again; every lane out
of service carries filler. R37, R61, R149, R180: the control message that cycle 8 captures carries the version, the
superframe count, the mode and lanes in force, the link step, the lanes in service, the retention's bounds, and in LINKED
with retry the acknowledgement. Where the spec leaves a point open, the model's choice stands: log entries 11, 102. -/
def Obligations.SlotsAndControlMessages : Prop :=
  (∀ (s : State) (cw : Fin 32) (poison : List Nat), s.dp.framer.sending = true → s.dp.ledger.txNext < 2 ^ 18 →
      let r := s.reviewService.disarmLate (s.slotStart cw)
      let serving : List (Fin 8) := if s.cfgOn F.FRAMER_CTRL_filler_only then []
        else s.activeLanes.filter fun n => bitOf r.dp.framer.laneStatus n
      let ready := s.dp.framer.ready
      let next (k : Nat) : Nat := (s.dp.ledger.txNext + min k ready.length) % 2 ^ 18
      let sent (t : State) (n : Fin 8) (u : SlotUnit) : Prop := t.dp.tx[n] = { s.dp.tx[n] with slots := s.dp.tx[n].slots ++ [u] }
      Answers (.slotDecision cw poison) s fun t =>
        t.dp.framer.ready = ready.drop serving.length ∧ t.dp.ledger.txNext = next serving.length
        ∧ Claims.counted64 s t R.FRAMER_CNT_DATA_LO (min serving.length ready.length)
        ∧ (∀ n : Fin 8, n ∉ s.activeLanes → t.dp.tx[n] = s.dp.tx[n])
        ∧ (∀ n ∈ s.activeLanes, n ∉ serving →
            sent t n { s.fillerSlot with seq := next (serving.filter fun m => decide (m.val < n.val)).length })
        ∧ (∀ j (hj : j < serving.length), ∀ u, ready[j]? = some u → sent t serving[j]
            { kind := 1, seq := next j, port := u.port, epoch := u.epoch, blocks := u.blocks,
              badCrc := poison.contains (s.activeLanes.idxOf serving[j]), start := u.start })
        ∧ (∀ n ms, serving = n :: ms → ready = [] → poison = [] → sent t n (match r.pickReplay n with
            | some x =>
              -- what a read of the retained copy gives back; words that it does not give back leave the slot to filler
              let got := r.storeRead false x.seq [] x.unit.blocks
              if got.2.2 = [] then { kind := 2, seq := x.seq, port := x.unit.port, epoch := x.unit.epoch, blocks := got.2.1,
                                     badCrc := false, start := x.unit.start }
              else s.fillerSlot
            | none => s.fillerSlot))
        ∧ Touches [.dp, .eng, .evr, .mem, .memStore] (fun a => a = R.FRAMER_CNT_DATA_LO ∨ a = R.FRAMER_CNT_DATA_HI
            ∨ a = R.FRAMER_CNT_REPLAY_LO ∨ a = R.FRAMER_CNT_REPLAY_HI ∨ a = R.FRAMER_CNT_FILLER_LO ∨ a = R.FRAMER_CNT_FILLER_HI
            ∨ a = R.FRAMER_CNT_POISON ∨ a = R.FRAMER_WAIT_MAX ∨ a = R.LEDGER_TX_LATE_CNT ∨ a = R.LEDGER_TX_RET_POISON
            ∨ a = R.MEM_SRAM_CE_CNT ∨ a = R.MEM_DRAM_CE_CNT ∨ Claims.ueReg a) s t)
  ∧
  (∀ s : State, s.dp.framer.sending = true → Answers .controlMessageCapture s fun t =>
      (∃ m, t.dp.framer.msg = some m ∧ m.version = 1 ∧ m.sfc = s.dp.framer.sfc ∧ m.mode = s.lineMode ∧ m.laneMask = s.laneMask
        ∧ m.linkStep = s.dp.link.step ∧ m.txLanes = s.dp.framer.laneStatus ∧ m.txOldest = s.txOldest
        ∧ m.txNext = s.dp.ledger.txNext ∧ m.retrainReq = s.dp.link.retrainReq
        ∧ (s.dp.link.step = 7 → s.dp.ledger.retryOn = true → m.retryOn = true ∧ m.ackValid = true ∧ m.ackSeq = s.ackSeq)
        ∧ (s.dp.link.step = 5 → m.probeTag = State.nextTag s.dp.framer.probe ∧ m.probeTag ≠ 0))
      ∧ t.dp.link = { s.dp.link with reqSent := s.dp.link.retrainReq, readySent := t.dp.link.readySent }
      ∧ t.dp = { s.dp with framer := t.dp.framer, ledger := t.dp.ledger, link := t.dp.link }
      ∧ t.dp.framer.ready = s.dp.framer.ready ∧ t.dp.ledger.retention = s.dp.ledger.retention
      ∧ Touches [.dp] (· = R.LEDGER_RX_REQ_CNT) s t)

/-- R67, R68, R13, R97: a DAC run is requested through OLn_TX_CAL_CTRL, and remembered where one is busy; its result is taken
where it passes the limits and rejected where it does not; a lane that powers up starts its DAC run, its ADC run where its
pair's other lane has none, and pilot search in fallback. Where the spec leaves a point open, the model's choice stands: log
entries 75, 97. -/
def Obligations.DacRunsAndPowerUp : Prop :=
  ∀ (s : State) (port : Fin 5) (n : Fin 8) (r : DacResult) (record : Option (Nat × DacCorr)),
    (s.ready port (R.OLn_TX_CAL_CTRL n) = true → s.dp.tx[n].powered = true → Answers (.dacCalRunRequest port n) s fun t =>
      t.flag (F.OLn_TX_CAL_STAT_busy n) = true
      ∧ (s.flag (F.OLn_TX_CAL_STAT_busy n) = true → t.dp.tx[n].cal = { s.dp.tx[n].cal with again := true })
      ∧ (s.flag (F.OLn_TX_CAL_STAT_busy n) = false → t.dp = s.dp)
      ∧ (∀ a, t.stagedReg a = s.stagedReg a)
      ∧ Touches [.staged, .dp, .mem, .eng] (fun a => a = R.OLn_TX_CAL_STAT n ∨ engReg a) s t)
    ∧ (s.flag (F.OLn_TX_CAL_STAT_busy n) = true → s.dp.tx[n].cal.again = false →
      (s.dacPasses n r = true → Answers (.dacCalRunEnd n r) s fun t =>
        t.flag (F.OLn_TX_CAL_STAT_busy n) = false ∧ t.rd (F.OLn_TX_CAL_STAT_last n) = 1
        ∧ t.rd (F.OLn_TX_CAL_STAT_runs n) = (s.rd (F.OLn_TX_CAL_STAT_runs n) + 1) % 2 ^ 16
        ∧ t.rd (F.OLn_TX_CAL_STAT_temp_c n) = s.laneTempC n ∧ t.flag (F.OLn_TX_QUAL_valid n) = true
        ∧ t.dp = { s.dp with tx := s.dp.tx.set n { s.dp.tx[n] with cal := { s.dp.tx[n].cal with
            accepted := true, last := r.corr, spur := r.spur, temp := s.therm.laneTemp[n], waiting := some r.corr } } }
        ∧ Touches [.dp] (fun a => a = R.OLn_TX_CAL_STAT n ∨ a = R.OLn_TX_QUAL n) s t)
      ∧ (s.dacPasses n r = false → s.cfgOn (F.OLn_TX_CAL_CTRL_bg_en n) = false → Answers (.dacCalRunEnd n r) s fun t =>
        t.flag (F.OLn_TX_CAL_STAT_busy n) = false ∧ t.rd (F.OLn_TX_CAL_STAT_last n) = 2
        ∧ t.rd (F.OLn_TX_CAL_STAT_runs n) = (s.rd (F.OLn_TX_CAL_STAT_runs n) + 1) % 2 ^ 16
        ∧ Claims.counted s t (R.OLn_TX_CAL_REJ_CNT n) 1
        ∧ Touches [] (fun a => a = R.OLn_TX_CAL_STAT n ∨ a = R.OLn_TX_CAL_REJ_CNT n) s t))
    ∧ (bitOf s.laneMask n = true → s.unitFailed (16 + n) = false → s.dp.tx[n].powered = false → s.dpOff = false →
      Answers (.lanePowerUp n record) s fun t =>
        t.dp.tx[n].powered = true ∧ t.dp.rx[n].powered = true ∧ t.dp.rx[n].fe = .search ∧ t.dp.rx[n].lock = .off
        ∧ t.flag (F.OLn_CDR_STAT_fallback n) = true ∧ t.flag (F.OLn_CDR_STAT_locked n) = false
        ∧ t.reg (R.OLn_CDR_FREQ n) = 0 ∧ t.flag (F.OLn_TX_CAL_STAT_busy n) = true
        ∧ t.dp.rx[n].equ.inForce = s.dp.rx[n].equ.inForce
        ∧ (s.dp.rx[n].keptCal = true → t.dp.rx[n].adc.slices = Slice.home s.dp.rx[n].adc.slices
            ∧ t.dp.rx[n].adc.trims = s.dp.rx[n].adc.trims)
        ∧ t.rd (F.OLn_RX_CAL_STAT_spare n) = 64
        ∧ (∀ d c, record = some (d, c) → s.boot.acted.any (·.kind == 3) = true →
            t.dp.tx[n].cal.spur = d ∧ t.dp.tx[n].cal.last = c ∧ t.dp.tx[n].cal.loaded = c)
        ∧ (record = none → t.dp.tx[n].cal.spur = 4500 ∧ t.dp.tx[n].cal.loaded = t.dp.tx[n].cal.last)
        ∧ ((∀ m : Fin 8, m ≠ n → m.val / 2 = n.val / 2 → s.adcBusy m = false ∧ s.dp.rx[m].adc.request = false) →
            t.adcBusy n = true ∧ t.rd (F.OLn_RX_CAL_STAT_step n) = 0)
        ∧ (∀ m : Fin 8, m ≠ n → t.dp.tx[m] = s.dp.tx[m])
        ∧ (∀ m : Fin 8, m.val / 2 ≠ n.val / 2 → t.dp.rx[m] = s.dp.rx[m])
        ∧ Touches [.dp, .eng] (fun a => a = R.OLn_CDR_FREQ n ∨ a = R.OLn_CDR_STAT n ∨ a = R.OLn_RX_STAT n
            ∨ (∃ m : Fin 8, m.val / 2 = n.val / 2 ∧ a = R.OLn_RX_CAL_STAT m) ∨ a = R.OLn_TX_CAL_STAT n ∨ engReg a) s t)

/-! ## Receive path -/

/-- R79–R83: an ADC run starts where neither lane of the pair runs, and is remembered once where one does; results within the
limits are taken, others rejected and counted; a step whose shadow test passed swaps the spare in, one that failed twice
parks it; after the last step the run ends, and a run that is to be aborted ends at its step and starts anew one slot past
it. Where the spec leaves a point open, the model's choice stands: log entry 97. -/
def Obligations.AdcCalibration : Prop :=
  ∀ (s : State) (port : Fin 5) (n : Fin 8) (off gain : Int) (skew : Int) (rms spur sndr : Nat),
    let c := s.dp.rx[n].adc
    let became (t : State) (d : AdcCal) : Prop := t.dp = { s.dp with rx := s.dp.rx.set n { s.dp.rx[n] with adc := d } }
    let idle := ∀ m : Fin 8, m.val / 2 = n.val / 2 → s.adcBusy m = false ∧ (m ≠ n → s.dp.rx[m].adc.request = false)
    let started (t : State) : Prop :=
      t.adcBusy n = true ∧ t.rd (F.OLn_RX_CAL_STAT_step n) = 0
      ∧ became t { c with request := false, abort := false, tries := 0, shadowOk := false, partialRun := false,
                          skewOnly := false, startTemp := s.therm.laneTemp[n] }
    let calRegs (a : Nat) : Prop := a = R.OLn_RX_CAL_STAT n ∨ engReg a
    (s.ready port (R.OLn_RX_CAL_CTRL n) = true → s.dp.rx[n].powered = true →
      (idle → Answers (.adcCalRunRequest port n) s fun t =>
        started t ∧ (∀ a, t.stagedReg a = s.stagedReg a) ∧ Touches [.staged, .dp, .mem, .eng] calRegs s t)
      ∧ (s.adcBusy n = true → Answers (.adcCalRunRequest port n) s fun t =>
        became t { c with request := true } ∧ (∀ a, t.stagedReg a = s.stagedReg a)
        ∧ Touches [.staged, .dp, .mem, .eng] engReg s t))
    ∧ (s.cfg (F.OLn_RX_CAL_CTRL_period n) ≠ 0 → s.dp.rx[n].powered = true → idle →
      Answers (.adcCalPeriodExpire n) s fun t => started t ∧ Touches [.dp, .eng] calRegs s t)
    ∧ (s.adcBusy n = true →
      (∀ x, c.skewOnly = false → c.slices[s.spareSlice n]? = some x →
        ((off - x.offset).natAbs ≤ 4 * s.cfg (F.OLn_RX_CAL_CTRL_off_lim n) →
          (gain - x.gain).natAbs ≤ 10 * s.cfg (F.OLn_RX_CAL_CTRL_gain_lim n) →
          Answers (.adcCalOfflineDone n off gain none) s fun t =>
            became t { c with slices := c.slices.setIfInBounds (s.spareSlice n) { x with offset := off, gain := gain } }
            ∧ Touches [.dp] (fun _ => False) s t)
        ∧ (10 * s.cfg (F.OLn_RX_CAL_CTRL_gain_lim n) < (gain - x.gain).natAbs →
          Answers (.adcCalOfflineDone n off gain none) s fun t => became t { c with partialRun := true }
            ∧ Claims.counted s t (R.OLn_RX_CAL_REJ_CNT n) 1 ∧ Touches [.dp] (· = R.OLn_RX_CAL_REJ_CNT n) s t))
      ∧ (c.skewOnly = true → (skew - c.trims.getD (s.stepSlot n) 0).natAbs ≤ 2 * s.cfg (F.OLn_RX_CAL_CTRL_skew_lim n) →
        Answers (.adcCalOfflineDone n off gain (some skew)) s fun t =>
          became t { c with trims := c.trims.setIfInBounds (s.stepSlot n) skew } ∧ Touches [.dp] (fun _ => False) s t)
      ∧ (c.skewOnly = false → c.shadowOk = false → c.tries < 2 →
        (rms ≤ 128 → Answers (.adcCalShadowDone n rms) s fun t =>
          became t { c with shadowOk := true } ∧ Touches [.dp] (fun _ => False) s t)
        ∧ (128 < rms → Answers (.adcCalShadowDone n rms) s fun t => became t { c with tries := c.tries + 1 }
          ∧ Claims.counted s t (R.OLn_RX_CAL_REJ_CNT n) 1 ∧ Touches [.dp] (· = R.OLn_RX_CAL_REJ_CNT n) s t))
      ∧ (∀ old, c.abort = false → c.skewOnly = false → c.shadowOk = true → s.rd (F.OLn_RX_CAL_STAT_step n) < 64 →
        c.slices.toList.findIdx? (·.slot == s.stepSlot n) = some old → old ≠ s.spareSlice n → s.spareSlice n < 65 →
        Answers (.adcCalStepEnd n spur sndr) s fun t =>
          (∀ i : Fin 65, t.dp.rx[n].adc.slices[i] = { c.slices[i] with slot := (if i.val = old then 64
            else if i.val = s.spareSlice n then s.stepSlot n else c.slices[i].slot) })
          ∧ t.spareSlice n = old ∧ t.adcBusy n = true
          ∧ t.rd (F.OLn_RX_CAL_STAT_step n) = s.rd (F.OLn_RX_CAL_STAT_step n) + 1
          ∧ became t { c with slices := t.dp.rx[n].adc.slices, tries := 0, shadowOk := false }
          ∧ Touches [.dp] (fun a => a = R.OLn_RX_CAL_STAT n ∨ a = R.OLn_RX_STAT n) s t)
      ∧ (c.abort = false → c.skewOnly = false → c.shadowOk = false → 2 ≤ c.tries → s.rd (F.OLn_RX_CAL_STAT_step n) < 64 →
        Answers (.adcCalStepEnd n spur sndr) s fun t =>
          t.flag (F.OLn_RX_STAT_slice_parked n) = true ∧ t.dp.rx[n].adc.skewOnly = true
          ∧ t.dp.rx[n].adc.partialRun = true ∧ t.rd (F.OLn_RX_CAL_STAT_step n) = s.rd (F.OLn_RX_CAL_STAT_step n) + 1
          ∧ Touches [.dp, .eng, .evr] (fun a => a = R.OLn_RX_CAL_STAT n ∨ a = R.OLn_RX_STAT n ∨ noticeReg a) s t)
      ∧ (c.abort = false → c.skewOnly = true → s.rd (F.OLn_RX_CAL_STAT_step n) = 64 → c.request = false →
        s.cfgOn (F.OLn_RX_CAL_CTRL_bg_en n) = false →
        (∀ m : Fin 8, m.val / 2 = n.val / 2 → m ≠ n → s.dp.rx[m].adc.request = false) →
        Answers (.adcCalStepEnd n spur sndr) s fun t =>
          t.adcBusy n = false ∧ t.rd (F.OLn_RX_CAL_STAT_last n) = (if c.partialRun then 2 else 1)
          ∧ t.rd (F.OLn_RX_CAL_STAT_temp_c n) = ofSigned 8 (roundDiv c.startTemp 16)
          ∧ t.flag (F.OLn_RX_QUAL_valid n) = true
          ∧ became t { c with j0 := (c.j0 + 65) % 64, lastTemp := some c.startTemp }
          ∧ Touches [.dp] (fun a => a = R.OLn_RX_CAL_STAT n ∨ a = R.OLn_RX_QUAL n) s t)
      ∧ (c.abort = true → s.dp.rx[n].powered = true →
        (∀ m : Fin 8, m.val / 2 = n.val / 2 → m ≠ n → s.adcBusy m = false ∧ s.dp.rx[m].adc.request = false) →
        Answers (.adcCalStepEnd n spur sndr) s fun t =>
          t.adcBusy n = true ∧ t.rd (F.OLn_RX_CAL_STAT_last n) = 3 ∧ t.rd (F.OLn_RX_CAL_STAT_step n) = 0
          ∧ became t { c with request := false, abort := false, tries := 0, shadowOk := false, partialRun := false,
                              skewOnly := false, startTemp := s.therm.laneTemp[n],
                              j0 := (c.j0 + s.rd (F.OLn_RX_CAL_STAT_step n) + 1) % 64 }
          ∧ Touches [.dp] (· = R.OLn_RX_CAL_STAT n) s t))

/-- The registers that the samples of a lane write on their way: the saturated ones are counted (R78), and in a standard mode the
decisions pass the inner FEC, the host lane's checker and transmitter, and a near-end loop (R131, R208, R211). -/
def Claims.heardReg (s : State) (n : Fin 8) (a : Nat) : Prop :=
  a = R.OLn_RX_SAT_CNT n ∨ (s.stdMode = true ∧ (a = R.OLn_IFEC_CORR n ∨ a = R.OLn_IFEC_UNCORR n
    ∨ (∃ k : Fin 16, a = R.HLn_PRBS_ERR k) ∨ ∃ k : Fin 8, a = R.OLn_TX_SAT_CNT k))

/-- A lane has heard a burst, and became `r` otherwise (R78, R211): the raw codes that no burst has brought before and that stand at
an end of their range are counted. -/
def Claims.hearsAs (s t : State) (n : Fin 8) (b : RxBurst) (r : RxLane) : Prop :=
  t.dp.rx = s.dp.rx.set n { r with heard := max s.dp.rx[n].heard (768 * b.block + (b.codes.length - 256)), fec := t.dp.rx[n].fec }
  ∧ Claims.counted s t (R.OLn_RX_SAT_CNT n)
      ((b.codes.drop (256 + (s.dp.rx[n].heard - 768 * b.block))).filter saturatedCode).length
  ∧ t.dp = { s.dp with rx := t.dp.rx, host := t.dp.host, tx := t.dp.tx }
  ∧ (s.stdMode = false → t.dp.rx[n].fec = s.dp.rx[n].fec ∧ t.dp.host = s.dp.host ∧ t.dp.tx = s.dp.tx)

/-- The clock loop has run over the cycles of a burst (R85, R86): from the first that it has not run on, 128 symbols at a time and
each with the symbol before it, to the last whose decisions have their 64 symbols of warm-up, or to the one at which F has stood
at its limit for 4,096 cycles. -/
def Claims.loopRan (s : State) (n : Fin 8) (b : RxBurst) (l : CdrLoop) : Prop :=
  let syms := s.listen n b
  let base := 768 * b.block / s.perSymbol
  let first := max s.dp.rx[n].loop.next ((base + 255) / 128 * 128)
  let cyc (k : Nat) : List RxSym := (syms.drop (first - base + 128 * k)).take 128
  let prev (k : Nat) : Option RxSym := syms[first - base + 128 * k - 1]?
  let one (l : CdrLoop) (k : Nat) : CdrLoop := match s.flag (F.OLn_CDR_STAT_holding n), prev k with
    | false, some x => l.track (s.cfg (F.OLn_CDR_CTRL_kp_sh n)) (s.cfg (F.OLn_CDR_CTRL_ki_sh n)) (phaseError x (cyc k))
    | _, _ => l.hold
  ∃ k, (k ≠ 0 → first + 128 * k + 64 ≤ base + syms.length)
    ∧ l = { (List.range k).foldl one s.dp.rx[n].loop with next := first + 128 * k }
    ∧ (l.atLimit < 4096 → base + syms.length < first + 128 * (k + 1) + 64)

/-- R85, R86, R95, R97, R345: over the cycles of a burst the clock loop moves its frequency, which saturates at the limit,
and its phase by the detector's decisions, and reports its lock, phase and frequency; 4,096 cycles at the limit take it to
fallback at frequency 0, and in a CV mode the lane searches anew. So does a lane that does not acquire in time; a search that
ends without a peak is counted; the throttle's pause ends. Where the spec leaves a point open, the model's choice stands: log
entry 16. -/
def Obligations.ClockLoopAndSearch : Prop :=
  ∀ (s : State) (n : Fin 8) (b : RxBurst),
    let r := s.dp.rx[n]
    let open_ := s.flag (F.OLn_CDR_STAT_fallback n)
    let holds := s.flag (F.OLn_CDR_STAT_holding n)
    let fallen (l : CdrLoop) : CdrLoop := { l with phase := 0, freq := 0, errs := [], atLimit := 0 }
    let searching (r : RxLane) : RxLane :=
      { r with fe := .search, equ := { r.equ with good := 0, ramp := 0, next := none, paused := false }, loop := fallen r.loop }
    let inFallback (t : State) : Prop :=
      t.flag (F.OLn_CDR_STAT_fallback n) = true ∧ t.flag (F.OLn_CDR_STAT_locked n) = false ∧ t.reg (R.OLn_CDR_FREQ n) = 0
      ∧ (open_ = false → Claims.counted s t (R.OLn_CDR_FALLBACK_CNT n) 1)
    -- what the registers show of the loop
    let shows (t : State) (l : CdrLoop) : Prop :=
      t.rd (F.OLn_CDR_FREQ_ppm n) = fixedField 24 100000000 (l.freq / 128)
      ∧ t.flag (F.OLn_CDR_STAT_at_limit n) = (l.freq.abs == freqLimit)
      ∧ t.rd (F.OLn_CDR_STAT_phase n) = ((l.phase * 64).floor % 64).toNat
      ∧ t.flag (F.OLn_CDR_STAT_locked n) = (!holds && l.locked)
    let heard (a : Nat) : Prop := Claims.heardReg s n a
    let regs (a : Nat) : Prop := a = R.OLn_CDR_STAT n ∨ a = R.OLn_CDR_FREQ n ∨ heard a ∨ noticeReg a
    (r.powered = true → open_ = false →
      (∃ l, Claims.loopRan s n b l
        ∧ (Answers (.cdrLockChange n b) s fun t =>
          Claims.hearsAs s t n b { r with loop := l } ∧ shows t l
          ∧ (r.loop.freq.abs ≤ freqLimit → l.freq.abs ≤ freqLimit) ∧ (holds = true → l.freq = r.loop.freq)
          ∧ Touches [.dp, .mgmt, .eng, .evr] regs s t)
        ∧ (l.atLimit < 4096 → Answers (.cdrFallbackLimit n b) s fun t =>
          Claims.hearsAs s t n b { r with loop := l } ∧ shows t l ∧ Touches [.dp, .mgmt, .eng, .evr] regs s t)
        ∧ (4096 ≤ l.atLimit → Answers (.cdrFallbackLimit n b) s fun t =>
          inFallback t
          ∧ Claims.hearsAs s t n b (if s.cvMode then searching { r with loop := l } else { r with loop := fallen l })
          ∧ Touches [.dp, .mgmt, .eng, .evr] (fun a => a = R.OLn_CDR_FALLBACK_CNT n ∨ regs a) s t)))
    ∧ (r.fe = .acquire → Answers (.acquireTimeout n) s fun t =>
        inFallback t ∧ t.dp = { s.dp with rx := s.dp.rx.set n (searching r) }
        ∧ Claims.counted s t (R.OLn_FDE_ACQ_CNT n) 1
        ∧ Touches [.dp, .eng, .evr] (fun a => a = R.OLn_FDE_ACQ_CNT n ∨ a = R.OLn_CDR_STAT n ∨ a = R.OLn_CDR_FREQ n
            ∨ a = R.OLn_CDR_FALLBACK_CNT n ∨ noticeReg a) s t)
    ∧ (s.cvMode = true → r.powered = true → r.fe = .search → Answers (.pilotPlateauNoPeak n b) s fun t =>
        Claims.hearsAs s t n b r
        ∧ (pilotSearch (pilotLevels n) (s.burstSamples n b) = .noPeak → Claims.counted s t (R.OLn_FDE_ACQ_CNT n) 1)
        ∧ Touches [.dp] (fun a => heard a
            ∨ (pilotSearch (pilotLevels n) (s.burstSamples n b) = .noPeak ∧ a = R.OLn_FDE_ACQ_CNT n)) s t)
    ∧ (Answers (.throttlePauseEnd n) s fun t =>
        t.dp = { s.dp with rx := s.dp.rx.set n { r with equ := { r.equ with paused := false } } }
        ∧ Touches [.dp] (fun _ => False) s t)

/-- The registers of a lane's front end that an update of its taps writes (R102, R103, R133). -/
def Claims.updateReg (n : Fin 8) (a : Nat) : Prop :=
  a = R.OLn_CDR_FREQ n ∨ a = R.OLn_CDR_STAT n ∨ a = R.OLn_DET_STAT n ∨ a = R.OLn_FDE_DELAY n ∨ a = R.OLn_FDE_MSE n
    ∨ a = R.OLn_FDE_SKIP_CAUSE n ∨ a = R.OLn_FDE_SKIP_CNT n ∨ a = R.OLn_FDE_STAT n

/-- R88, R89, R93–R97, R100: the pilots found take a lane to ACQUIRE, preload the loop's frequency, and make the first update
with k_eff 0, which closes the loop; the fourth good update takes it to TRACK. An update is skipped where the ensign was
missed, too many samples saturated, the blocks disagree or the signal was gone, and a frozen lane makes none; a fast retrain
takes HOLD to TRACK with k_eff at most 1; a tap switch puts the new set, or the loaded one, in force. R94: a tap written to a
frozen lane is staged and the bin advances, and one written to a lane that is not frozen is ignored; a read returns the tap
in force, and the bin advances. Where the spec leaves a point open, the model's choice stands: log entries 16, 72, 73, 74. -/
def Obligations.PilotsAndTaps : Prop :=
  (∀ (s : State) (n : Fin 8) (b : RxBurst) (block : Nat) (signal : Bool),
      let r := s.dp.rx[n]
      let heard (a : Nat) : Prop := Claims.heardReg s n a
      let writes (a : Nat) : Prop := Claims.updateReg n a ∨ heard a
      let frozen := s.frozen n
      -- where the loop leaves fallback, it tracks or holds
      let closes (t : State) : Prop := s.cfgOn (F.OLn_CDR_CTRL_force_ref n) = false →
        t.flag (F.OLn_CDR_STAT_fallback n) = false ∧ t.flag (F.OLn_CDR_STAT_holding n) = s.cfgOn (F.OLn_CDR_CTRL_hold n)
      -- what an update leaves of the lane as it was
      let kept (t : State) : Prop :=
        let u := t.dp.rx[n]
        t.dp = { s.dp with rx := s.dp.rx.set n u, host := t.dp.host, tx := t.dp.tx }
        ∧ (s.stdMode = false → t.dp.host = s.dp.host ∧ t.dp.tx = s.dp.tx)
        ∧ u.equ.inForce = r.equ.inForce ∧ u.equ.staged = r.equ.staged
        ∧ u.equ.armed = r.equ.armed ∧ u.equ.paused = decide (1 ≤ s.therm.level) ∧ u.adc = r.adc ∧ u.ds = r.ds ∧ u.lock = r.lock
      -- the ensign and the saturation let a training through
      let clean (x : Option Training) : Prop := (r.lock = .locked → r.ensignOk = true)
        ∧ ∀ y, x = some y → y.sat ≤ s.cfg (F.OLn_FDE_LIMITS_sat_lim n)
      (∀ d, s.cvMode = true → r.powered = true → r.fe = .search →
        pilotSearch (pilotLevels n) (s.burstSamples n b) = .peak d → Answers (.pilotPeakFound n b) s fun t =>
        t.dp.rx[n].fe = .acquire ∧ t.dp.rx[n].origin = (768 * b.block + d + 266240 - 512) % 266240 ∧ kept t
        ∧ (∀ y, s.fieldTraining n b d = some y →
            t.dp.rx[n].loop.freq = satRat freqLimit (-(pilotAdvance y.bins.weak y.bins.ya y.bins.yb / 8))
            ∧ (clean (some y) → frozen = false →
              t.dp.rx[n].equ.next.isSome = true ∧ t.rd (F.OLn_FDE_STAT_k_eff n) = 0 ∧ t.dp.rx[n].equ.ramp = 1
              ∧ t.flag (F.OLn_FDE_MSE_valid n) = true ∧ closes t))
        ∧ Touches [.dp] writes s t)
      ∧ (r.powered = true → s.stdMode = true ∨ r.fe = .track ∨ r.fe = .acquire → bitOf s.laneMask n = true →
        (r.equ.paused = true → Answers (.pilotUpdate n b signal) s fun t =>
          Claims.hearsAs s t n b r ∧ Touches [.dp] heard s t)
        ∧ (r.equ.paused = false → s.training n b = none → Answers (.pilotUpdate n b signal) s fun t =>
          kept t ∧ t.dp.rx[n].fe = r.fe ∧ t.dp.rx[n].equ.next = r.equ.next
          ∧ Claims.counted s t (R.OLn_FDE_SKIP_CNT n) 1 ∧ bitOf (t.reg (R.OLn_FDE_SKIP_CAUSE n)).toNat 3 = true
          ∧ Touches [.dp] (fun a => a = R.OLn_FDE_SKIP_CNT n ∨ a = R.OLn_FDE_SKIP_CAUSE n ∨ heard a) s t)
        ∧ (∀ y, r.equ.paused = false → s.training n b = some y →
          let causes := (if s.cvMode = true ∧ r.lock = .locked ∧ r.ensignOk = false then 1 else 0)
            + (if s.cfg (F.OLn_FDE_LIMITS_sat_lim n) < y.sat then 2 else 0) + (if signal then 0 else 8)
          let far := disagreement (epsOf (s.cfg (F.OLn_FDE_CTRL_eps_sh n)) (newPow (s.kEff n) r.equ.pow y.bins)) y.bins
          let above : Prop := ∃ m, r.equ.dbar = some m ∧ (2 ^ s.cfg (F.OLn_FDE_LIMITS_ab_sh n) : Nat) * m < far
          (causes ≠ 0 → Answers (.pilotUpdate n b signal) s fun t =>
            kept t ∧ t.dp.rx[n].fe = r.fe ∧ t.dp.rx[n].equ.next = r.equ.next ∧ t.dp.rx[n].equ.dbar = r.equ.dbar
            ∧ Claims.counted s t (R.OLn_FDE_SKIP_CNT n) 1
            ∧ t.reg (R.OLn_FDE_SKIP_CAUSE n) = s.reg (R.OLn_FDE_SKIP_CAUSE n) ||| BitVec.ofNat 32 causes
            ∧ Touches [.dp] (fun a => a = R.OLn_FDE_SKIP_CNT n ∨ a = R.OLn_FDE_SKIP_CAUSE n ∨ heard a) s t)
          ∧ (causes = 0 → above → Answers (.pilotUpdate n b signal) s fun t =>
            kept t ∧ t.dp.rx[n].fe = r.fe ∧ t.dp.rx[n].equ.next = r.equ.next
            ∧ Claims.counted s t (R.OLn_FDE_SKIP_CNT n) 1
            ∧ t.reg (R.OLn_FDE_SKIP_CAUSE n) = s.reg (R.OLn_FDE_SKIP_CAUSE n) ||| 4
            ∧ Touches [.dp] (fun a => a = R.OLn_FDE_SKIP_CNT n ∨ a = R.OLn_FDE_SKIP_CAUSE n ∨ heard a) s t)
          ∧ (causes = 0 → ¬above → frozen = true → Answers (.pilotUpdate n b signal) s fun t =>
            kept t ∧ t.dp.rx[n].fe = r.fe ∧ t.dp.rx[n].equ.next = r.equ.next ∧ t.flag (F.OLn_FDE_MSE_valid n) = true
            ∧ (s.stdMode = false →
                t.rd (F.OLn_FDE_MSE_snr_q n) = snrQ (pilotMse (y.symbols r.equ.inForce.taps)) % 1024)
            ∧ Touches [.dp] (fun a => a = R.OLn_FDE_MSE n ∨ heard a) s t)
          ∧ (causes = 0 → ¬above → frozen = false → Answers (.pilotUpdate n b signal) s fun t =>
            t.dp.rx[n].equ.next.isSome = true ∧ t.dp.rx[n].equ.inForce = r.equ.inForce
            ∧ t.dp.rx[n].equ.acc = newAcc (s.kEff n) r.equ.acc y.bins ∧ t.dp.rx[n].equ.pow = newPow (s.kEff n) r.equ.pow y.bins
            ∧ t.rd (F.OLn_FDE_STAT_k_eff n) = min (min 8 (s.cfg (F.OLn_FDE_CTRL_lambda_k n))) r.equ.ramp
            ∧ (s.stdMode = false →
                t.rd (F.OLn_FDE_MSE_snr_q n) = snrQ (pilotMse (y.symbols r.equ.inForce.taps)) % 1024)
            ∧ (r.fe ≠ .acquire → kept t ∧ t.dp.rx[n].fe = r.fe ∧ t.dp.rx[n].equ.ramp = r.equ.ramp + 1 ∧ closes t
                ∧ Touches [.dp] writes s t)
            ∧ (r.fe = .acquire → s.cfgOn (F.OLn_CDR_CTRL_force_ref n) = false →
                t.dp.rx[n].fe = (if 3 ≤ r.equ.good ∧ 4 * s.cfg (F.OLn_FDE_CTRL_acq_snr n) ≤ t.rd (F.OLn_FDE_MSE_snr_q n)
                  then .track else .acquire)))))
      ∧ (∀ i, s.cvMode = true → r.fe = .hold → r.lock = .relock →
        retrainSearch (pilotLevels n) (s.burstSamples n b) (256 + s.samplesTo n b 128) = some i →
        let from_ := (r.origin + i + 266240 - 128) % 266240
        let there := s.onRx n fun r => { r with origin := from_ }
        Answers (.fastRetrainPilotFound n b) s fun t =>
          t.dp.rx[n].fe = .track ∧ t.dp.rx[n].origin = from_ ∧ kept t
          ∧ (∀ y, there.pilotTraining n b = some y → clean (some y) → r.equ.dbar = none → frozen = false →
              t.dp.rx[n].equ.next.isSome = true ∧ closes t
              ∧ t.rd (F.OLn_FDE_STAT_k_eff n) = min (min 8 (s.cfg (F.OLn_FDE_CTRL_lambda_k n))) 1)
          ∧ Touches [.dp] writes s t)
      ∧ (r.powered = true → s.switchBlock n block = true → Answers (.tapSwitch n block) s fun t =>
        let e := t.dp.rx[n].equ
        let seq := (s.rd (F.OLn_FDE_STAT_set_seq n) + 1) % 2 ^ (F.OLn_FDE_STAT_set_seq n).width
        e.det = s.inForceReg (R.OLn_DET_CTRL n) ∧ e.detTarget = s.inForceReg (R.OLn_DET_TARGET n)
        -- the blocks before the switch point keep the set that was in force
        ∧ e.switchAt = 768 * block ∧ e.before = r.equ.inForce ∧ e.beforeDet = r.equ.det ∧ e.beforeTarget = r.equ.detTarget
        ∧ (r.equ.armed = false → e.acc = r.equ.acc ∧ e.staged = r.equ.staged
            ∧ (∀ x, r.equ.next = some x → frozen = false → e.inForce = x ∧ e.next = none ∧ t.rd (F.OLn_FDE_STAT_set_seq n) = seq)
            ∧ (frozen = true → e.inForce = r.equ.inForce ∧ e.next = r.equ.next))
        ∧ (r.equ.armed = true → e.armed = false ∧ e.next = none ∧ e.staged = [] ∧ t.rd (F.OLn_FDE_STAT_set_seq n) = seq
            ∧ (∀ k w, k < 513 → r.equ.staged.find? (·.1 == k) = some (k, w) →
                e.inForce.taps[k]? = some (wordTap k w)
                ∧ ∀ p, r.equ.pow[k]? = some p → r.equ.pow.length = 513 → e.acc[k]? = some (cxScale p (wordTap k w))))
        ∧ e.pow = r.equ.pow ∧ bitOf t.mgmt.settleLanes n = false
        ∧ t.dp = { s.dp with rx := s.dp.rx.set n { r with equ := e } }
        ∧ Touches [.dp, .mgmt] (fun a => a = R.OLn_FDE_STAT n ∨ a = R.TOP_COMMIT) s t))
  ∧
  (∀ (s : State) (port : Fin 5) (n : Fin 8) (v : Word), s.ready port (R.OLn_FDE_TAP_DATA n) = true →
      let k := s.rd (F.OLn_FDE_TAP_ADDR_bin n)
      let stepped (t : State) : Prop := t.rd (F.OLn_FDE_TAP_ADDR_bin n) = if k = 512 then 0 else k + 1
      (k ≤ 512 → s.frozen n = true → Answers (.tapDataWrite port n v) s fun t =>
        (t.dp.rx[n].equ.staged.find? (·.1 == k)) = some (k, v) ∧ stepped t
        ∧ (∀ j, j ≠ k → t.dp.rx[n].equ.staged.find? (·.1 == j) = s.dp.rx[n].equ.staged.find? (·.1 == j))
        ∧ t.dp = { s.dp with rx := s.dp.rx.set n { s.dp.rx[n] with equ := { s.dp.rx[n].equ with
            staged := t.dp.rx[n].equ.staged } } }
        ∧ Touches [.dp, .mem] (· = R.OLn_FDE_TAP_ADDR n) s t)
      ∧ (s.frozen n = false → Answers (.tapDataWrite port n v) s fun t => Touches [.mem] (fun _ => False) s t)
      ∧ (k ≤ 512 → s.dp.rx[n].powered = true → Answers (.tapDataRead port n) s fun t =>
        t.mgmt = { s.mgmt with readData := tapWord s.dp.rx[n].equ.inForce.taps k } ∧ stepped t
        ∧ Touches [.mgmt] (· = R.OLn_FDE_TAP_ADDR n) s t))

/-- R39, R40, R148, R159, R161, R170: a superframe whose control copies all fail loses its message; one of them is accepted
and updates what is known of the partner; an acknowledgement frees the units before it; a linked device whose partner starts
over takes its link down and begins anew. Where the spec leaves a point open, the model's choice stands: log entries 65, 66. -/
def Obligations.MessagesAccepted : Prop :=
  ∀ (s : State) (copies : List (Fin 8 × List Bool)),
    (s.acceptedCopies copies = [] → Answers (.controlMessageAccept copies) s fun t =>
      t.dp = { s.dp with link := { s.dp.link with ctlLost := s.dp.link.ctlLost + 1 } } ∧ Touches [.dp] (fun _ => False) s t)
    ∧ (∀ n m rest, s.acceptedCopies copies = (n, m) :: rest →
      (m.discarded = true → Answers (.controlMessageAccept copies) s fun t =>
        t.dp.link.ctlLost = s.dp.link.ctlLost + 1 ∧ t.dp.link.ctlDiscard = s.dp.link.ctlDiscard + 1
        ∧ t.dp.link.peerStep = s.dp.link.peerStep ∧ t.dp.ledger = s.dp.ledger ∧ Touches [.dp] (fun _ => False) s t)
      ∧ (m.discarded = false → m.status ≠ 5 → s.dp.link.step ≠ 6 →
        (s.inLinked = true → m.linkStep < 2 ∨ 5 < m.linkStep) →
        (s.inLinked = true → m.linkStep = 7 → m.retryOn = s.dp.ledger.retryOn) →
        Answers (.controlMessageAccept copies) s fun t =>
          t.dp.link.peerStep = m.linkStep ∧ t.dp.link.peerStatus = m.status ∧ t.dp.link.peerSeenAt = some s.evr.time
          ∧ t.dp.link.peerTx = m.txLanes ∧ t.dp.framer.peerReq = m.retrainReq ∧ t.dp.rx[n].expSfc = some m.sfc
          ∧ (s.inLinked = true → m.linkStep = 7 → s.dp.ledger.rxRun = true → s.dp.ledger.txRun = true →
              s.dp.ledger.retryOn = true → m.ackValid = true →
              State.seqAhead s.txOldest m.ackSeq ≤ State.seqAhead s.txOldest s.dp.ledger.txNext →
              t.dp.ledger.lastAck = m.ackSeq ∧ ∀ x ∈ t.dp.ledger.retention,
                x.t1 = none ∨ State.seqAhead s.txOldest m.ackSeq ≤ State.seqAhead s.txOldest x.seq)
          ∧ Touches [.dp, .mgmt, .eng, .evr] (fun a => (0x310000 ≤ a ∧ a < 0x310200) ∨ (∃ k : Fin 8, a = R.OLn_DET_STUFF_MM k)
              ∨ noticeReg a) s t)
      ∧ (m.discarded = false → s.cvMode = true → s.inLinked = true → s.mgmt.dev = .linked →
        2 ≤ m.linkStep → m.linkStep ≤ 5 → s.cfgOn F.LEDGER_LINK_CTRL_enable = true →
        Answers (.controlMessageAccept copies) s fun t =>
          t.mgmt.dev = .bringup ∧ t.dp.link.step = 1 ∧ t.dp.link.nonce ≠ 0 ∧ t.dp.framer.sending = false
          ∧ t.dp.ledger.txRun = false ∧ t.dp.ledger.rxRun = false ∧ t.dp.ledger.retention = []
          ∧ t.rd F.LEDGER_LINK_FAIL_last_fail = 0x25 ∧ Claims.counted s t R.LEDGER_LINK_RESTART_CNT 1
          ∧ Claims.counted s t R.LEDGER_LINK_DOWN_CNT 1
          ∧ Touches [.dp, .mgmt, .eng, .evr] (fun a => (0x310000 ≤ a ∧ a < 0x310200) ∨ (∃ k : Fin 8, a = R.OLn_DET_STUFF_MM k)
              ∨ noticeReg a) s t))

/-! ## Decoder pool -/

/-- R78, R107–R110, R117, R118, R122: a codeword that arrives on a lane that delivers waits with the codes of its symbols,
and a deadline FEC_DEADLINE.ns after its arrival, in an entry that an old kept failure gives up where all are taken; an idle
core takes the waiting codeword with the earliest deadline, charging its lane for the load and the first iterations; one that
could no longer be decided in time is released with outcome 5. R115, R119, R121, R127: a pool tick takes a commit's values,
the throttle level and the active cores, moves what positive credit is left to the reserve, grants every lane in service its
share, slows or speeds the work in progress, and reports the figures; the first tick begins with nothing. Where the spec
leaves a point open, the model's choice stands: log entry 15. -/
def Obligations.UnitsArriveAndDecode : Prop :=
  (∀ (s : State) (n : Fin 8) (now : Nat) (burst displaced : RxBurst) (poison : List Nat),
      let r := s.dp.rx[n]
      let first := 8 + 16 * s.minIter
      let released (t : State) (e : CwEntry) : Prop :=
        (∃ d, t.dp.pool = { s.dp.pool with queue := (s.unqueue e).dp.pool.queue, decisions := s.dp.pool.decisions ++ [d] }
          ∧ d.entry = e ∧ d.core = none ∧ d.outcome = 5 ∧ d.iter = 0 ∧ d.poison = false
          ∧ t.reg R.FEC_LAT_MAX = (s.raiseMax F.FEC_LAT_MAX_cycles (d.made - e.arrival)).reg R.FEC_LAT_MAX)
        ∧ t.dp = { s.dp with pool := t.dp.pool } ∧ Touches [.dp] (· = R.FEC_LAT_MAX) s t
      (s.delivers n = true → Answers (.codewordArrive n now burst displaced) s fun t =>
        (∃ e, t.dp.pool =
            { s.dp.pool with queue := s.dp.pool.queue ++ [e], delivered := setBit s.dp.pool.delivered n true, kept := t.dp.pool.kept }
          ∧ e.lane = n.val ∧ e.arrival = now ∧ e.deadline = now + 3 * min 260 (max 40 s.dp.pool.deadlineNs) / 2
          ∧ e.cw = (if 32 ≤ r.ds.cw then 0 else r.ds.cw) ∧ e.codes.length = 16384
          ∧ (∀ c ∈ e.codes, -31 ≤ c ∧ c ≤ 31) ∧ t.dp.rx[n].ds.cw = e.cw + 1
          ∧ (r.ds.cw < 32 → e.sfc = r.ds.sfc)
          ∧ (∀ c, 32 ≤ r.ds.cw → r.expSfc = some c → e.sfc = c)
          -- a codeword within its superframe takes the next symbols of the payload region
          ∧ (let got := r.ds.takeAll (s.llrGain n) 16384 (s.symbolsFrom n burst r.ds.pos)
             r.ds.cw < 31 → got.2.length = 16384 →
               e.codes = got.2 ∧ t.dp.rx[n].ds = { got.1 with cw := r.ds.cw + 1 }))
        -- of the lane's 48 entries, the failures that are kept take what those in use leave
        ∧ (t.dp.pool.kept.filter (·.lane == n.val)).length ≤ 48 - inUse t.dp.pool n
        ∧ (∀ x ∈ t.dp.pool.kept, x ∈ s.dp.pool.kept)
        ∧ t.dp.pool.kept.filter (·.lane != n.val) = s.dp.pool.kept.filter (·.lane != n.val)
        ∧ t.dp = { s.dp with pool := t.dp.pool, rx := s.dp.rx.set n { r with ds := t.dp.rx[n].ds, heard := t.dp.rx[n].heard } }
        ∧ r.heard ≤ t.dp.rx[n].heard ∧ 768 * burst.block + (burst.codes.length - 256) ≤ t.dp.rx[n].heard
        ∧ Touches [.dp] (fun a => a = R.OLn_RX_SAT_CNT n ∨ (r.ds.cw = 31 ∧ a = R.OLn_DET_STUFF_MM n)) s t)
      ∧ (∀ k e, (List.finRange 16).find? (fun k : Fin 16 => s.coreActive k && s.dp.pool.cores[k].work.isNone) = some k →
        s.earliest = some e → e.lane < 8 →
        (s.ends now first ≤ e.deadline → Answers (.coreDispatch now poison) s fun t =>
          let codes := e.codes.mapIdx fun i c => if poison.contains (i / 10) then 0 else c
          t.dp.pool.cores[k].work = some {
            entry := e, codes := codes, post := codes, msgs := innerCode.noMsgs, iter := 0, paid := s.minIter,
            ends := s.ends now 24, poison := !poison.isEmpty, released := false }
          ∧ t.dp.pool = { s.dp.pool with
              queue := (s.unqueue e).dp.pool.queue,
              bal := s.dp.pool.bal.set (Fin.ofNat 8 e.lane) (s.bal (Fin.ofNat 8 e.lane) - first),
              cores := s.dp.pool.cores.set k { s.dp.pool.cores[k] with work := t.dp.pool.cores[k].work } }
          ∧ t.dp = { s.dp with pool := t.dp.pool }
          ∧ (poison ≠ [] → Claims.counted s t (R.FEC_LANEn_POISON e.lane) 1)
          ∧ Touches (if poison = [] then [.dp] else [.dp, .eng, .evr])
              (fun a => poison ≠ [] ∧ (a = R.FEC_LANEn_POISON e.lane ∨ Claims.ueReg a)) s t)
        ∧ (e.deadline < s.ends now first → Answers (.coreDispatch now poison) s fun t => released t e))
      ∧ (∀ e, s.earliest = some e → Answers .notDispatchedExpire s fun t => released t e))
  ∧
  (∀ s : State, s.cvMode = true → s.dpOff = false →
      let p := s.dp.pool
      let touched (t : State) : Prop := Touches [.dp, .mgmt, .eng, .evr] (fun a => a = R.FEC_STAT ∨ noticeReg a) s t
      (p.running = true → p.staged = false → Answers .poolTick s fun t =>
        let serving (n : Nat) : Bool := bitOf p.delivered n
        let lanes := ((List.range 8).filter serving).length
        let c := s.activeCores * 219 * (8 - s.therm.level)
        let share := if lanes * p.grant ≤ c then p.grant else c / lanes
        let left := if lanes * p.grant ≤ c then c - lanes * p.grant else 0
        t.dp.pool.tick = p.tick + 1752 ∧ t.dp.pool.t = s.therm.level ∧ t.dp.pool.nCores = s.activeCores
        ∧ t.dp.pool.delivered = 0
        ∧ (∀ n : Fin 8, t.bal n = if serving n then min (s.bal n) 0 + share else 0)
        ∧ (∀ n : Fin 8, t.dp.pool.drawn[n] = if serving n then 0 else p.drawn[n])
        ∧ t.dp.pool.reserve = min (p.reserve + (p.bal.toList.map fun b => (max b 0).toNat).sum + left) p.resCap
        -- a work's end moves with the pauses of the new level, and only where it lies past the tick
        ∧ (∀ k : Fin 16, t.dp.pool.cores[k] = { p.cores[k] with
            work := p.cores[k].work.map fun w => { w with ends := if w.ends ≤ p.tick + 1752 then w.ends
              else (w.throttled p.t s.therm.level (p.tick + 1752)).ends } })
        ∧ t.rd F.FEC_STAT_in_service = p.delivered % 2 ^ 8 ∧ t.rd F.FEC_STAT_cores = s.activeCores
        ∧ t.flag F.FEC_STAT_below_min = decide (s.activeCores < s.minCores)
        ∧ t.dp = { s.dp with pool := { p with
            tick := t.dp.pool.tick, t := t.dp.pool.t, nCores := t.dp.pool.nCores, delivered := 0,
            cores := t.dp.pool.cores, bal := t.dp.pool.bal, drawn := t.dp.pool.drawn, reserve := t.dp.pool.reserve } }
        ∧ touched t)
      ∧ (p.running = false → p.staged = false → Answers .poolTick s fun t =>
        t.dp.pool.running = true ∧ t.dp.pool.nCores = s.activeCores ∧ t.dp.pool.delivered = 0
        ∧ (∀ n : Fin 8, t.bal n = 0 ∧ t.dp.pool.drawn[n] = 0)
        ∧ t.dp.pool.reserve = min (s.activeCores * 219 * (8 - s.therm.level)) p.resCap
        ∧ t.dp.pool.queue = p.queue ∧ t.dp.pool.decisions = p.decisions ∧ t.dp = { s.dp with pool := t.dp.pool } ∧ touched t)
      ∧ (p.staged = true → Answers .poolTick s fun t =>
        let q := t.dp.pool
        q.staged = false ∧ q.deadlineNs = s.cfg F.FEC_DEADLINE_ns ∧ q.grant = s.cfg F.FEC_GRANT_grant
        ∧ q.resCap = s.cfg F.FEC_RES_CTRL_res_cap ∧ q.laneMax = s.cfg F.FEC_RES_CTRL_lane_max
        ∧ q.ctrl = s.inForceReg R.FEC_CTRL ∧ q.coreEn = s.cfg F.FEC_CORE_EN_en ∧ q.histBase = s.cfg F.FEC_HIST_BASE_base
        ∧ q.histEn = s.cfgOn F.FEC_HIST_CTRL_en ∧ q.burst = p.burst ∧ q.queue = p.queue
        ∧ (q.histBase ≠ p.histBase → t.reg R.FEC_HIST_WPTR = 0)
        ∧ t.mgmt.settlePool = false ∧ t.dp = { s.dp with pool := q }
        ∧ Touches [.dp, .mgmt, .eng, .evr]
            (fun a => a = R.FEC_STAT ∨ a = R.FEC_HIST_WPTR ∨ a = R.TOP_COMMIT ∨ noticeReg a) s t))

/-- R111–R113, R116–R118, R120: an iteration ends in a decision where the checks are satisfied, the limit is reached, or time
or credit is wanting, and in another iteration otherwise; those that the dispatch has charged cost no more. A codeword that a
core still holds at its deadline is released with outcome 4; a core that stalls, or reads its message memory in error twice,
is mapped out. Where the spec leaves a point open, the model's choice stands: log entry 8. -/
def Obligations.IterationsAndCores : Prop :=
  ∀ (s : State) (k : Fin 16) (w : Work) (now : Nat), s.dp.pool.cores[k].work = some w →
    let it := innerCode.iterate s.alpha w.post w.msgs
    let goes (t : State) (v : Work) : Prop :=
      t.dp.pool = { s.dp.pool with
          cores := s.dp.pool.cores.set k { s.dp.pool.cores[k] with work := some v },
          bal := t.dp.pool.bal, reserve := t.dp.pool.reserve, drawn := t.dp.pool.drawn }
      ∧ t.dp = { s.dp with pool := t.dp.pool }
    let decided (t : State) (outcome iter at_ : Nat) (bits : List Bool) : Prop :=
      t.dp.pool.decisions = s.dp.pool.decisions ++ [{
        entry := w.entry, core := some k.val, made := at_, outcome := outcome, iter := iter,
        corr := State.corrCount w.codes bits, bits := bits, poison := w.poison }]
      ∧ t.reg R.FEC_LAT_MAX = (s.raiseMax F.FEC_LAT_MAX_cycles (at_ - w.entry.arrival)).reg R.FEC_LAT_MAX
    let idles (t : State) : Prop :=
      t.dp.pool = { s.dp.pool with
          decisions := t.dp.pool.decisions,
          cores := s.dp.pool.cores.set k { s.dp.pool.cores[k] with work := none } } ∧ t.dp = { s.dp with pool := t.dp.pool }
      ∧ Touches [.dp] (· = R.FEC_LAT_MAX) s t
    let mapped (t : State) (ues : List Nat) : Prop :=
      t.dp.pool.cores[k].work = none ∧ t.dp.pool.cores[k].ues = ues ∧ t.coreActive k = false
      ∧ Claims.counted s t R.FEC_CNT_MAPOUT 1
      ∧ t.dp = { s.dp with pool := { s.dp.pool with cores := t.dp.pool.cores, decisions := t.dp.pool.decisions } }
      ∧ (∀ j : Fin 16, j ≠ k → t.dp.pool.cores[j] = s.dp.pool.cores[j])
    let coreRegs (a : Nat) : Prop := a = R.FEC_LAT_MAX ∨ a = R.FEC_CORE_STAT ∨ a = R.FEC_CNT_MAPOUT ∨ a = R.FEC_STAT ∨ noticeReg a
    -- the checks are satisfied, and min_iter iterations have run
    let converged : Prop := s.minIter ≤ w.iter + 1 ∧ innerCode.satisfied (hardBits it.1) = true
    let timely : Prop := w.iter + 1 < s.maxIter ∧ s.ends w.ends 16 ≤ w.entry.deadline
    let next : Work := { w with post := it.1, msgs := it.2, iter := w.iter + 1, ends := s.ends w.ends 16 }
    (w.released = false →
      (converged → Answers (.iterationEnd k) s fun t =>
        decided t (State.crcOutcome (hardBits it.1)) (w.iter + 1) w.ends (hardBits it.1) ∧ idles t)
      ∧ (¬converged → ¬timely → Answers (.iterationEnd k) s fun t =>
        decided t 2 (w.iter + 1) w.ends (hardBits it.1) ∧ idles t)
      ∧ (¬converged → timely → w.iter + 1 < w.paid → Answers (.iterationEnd k) s fun t =>
        goes t next ∧ t.dp.pool.bal = s.dp.pool.bal ∧ t.dp.pool.reserve = s.dp.pool.reserve
        ∧ Touches [.dp] (fun _ => False) s t)
      ∧ (¬converged → timely → w.paid ≤ w.iter + 1 → w.entry.lane < 8 →
        let n := Fin.ofNat 8 w.entry.lane
        let own := (max (s.bal n) 0).toNat
        -- the reserve gives what the balance lacks
        let lent : Prop := 16 - own ≤ s.dp.pool.reserve ∧ s.dp.pool.drawn[n] + (16 - own) ≤ s.dp.pool.laneMax
        (16 ≤ s.bal n → Answers (.iterationEnd k) s fun t =>
          goes t next ∧ t.dp.pool.bal = s.dp.pool.bal.set n (s.bal n - 16) ∧ t.dp.pool.reserve = s.dp.pool.reserve
          ∧ t.dp.pool.drawn = s.dp.pool.drawn ∧ Touches [.dp] (fun _ => False) s t)
        ∧ (s.bal n < 16 → lent → Answers (.iterationEnd k) s fun t =>
          goes t next ∧ t.dp.pool.bal = s.dp.pool.bal.set n (s.bal n - own)
          ∧ t.dp.pool.reserve = s.dp.pool.reserve - (16 - own)
          ∧ t.dp.pool.drawn = s.dp.pool.drawn.set n (s.dp.pool.drawn[n] + (16 - own))
          ∧ t.reg (R.FEC_LANEn_RES_DRAW n) = s.reg (R.FEC_LANEn_RES_DRAW n) + BitVec.ofNat 32 (16 - own)
          ∧ Touches [.dp] (· = R.FEC_LANEn_RES_DRAW n) s t)
        ∧ (s.bal n < 16 → ¬lent → Answers (.iterationEnd k) s fun t =>
          decided t 3 (w.iter + 1) w.ends (hardBits it.1) ∧ idles t))
      ∧ (Answers (.codewordDeadline k) s fun t =>
        decided t 4 w.iter w.entry.deadline (hardBits w.post)
        ∧ t.dp.pool.cores = s.dp.pool.cores.set k { s.dp.pool.cores[k] with work := some { w with released := true } }
        ∧ t.dp = { s.dp with pool := { s.dp.pool with decisions := t.dp.pool.decisions, cores := t.dp.pool.cores } }
        ∧ Touches [.dp] (· = R.FEC_LAT_MAX) s t)
      ∧ (bitOf s.failedCores k = false → Answers (.coreStall k) s fun t =>
        decided t 4 w.iter (w.ends + 32) (hardBits w.post) ∧ mapped t s.dp.pool.cores[k].ues
        ∧ Touches [.dp, .mgmt, .eng, .evr] coreRegs s t)
      ∧ (s.cvMode = true → bitOf s.failedCores k = false → s.dp.pool.cores[k].ues = [now] →
        Answers (.messageMemoryUe k now) s fun t =>
          decided t 4 w.iter now (hardBits w.post) ∧ mapped t [now, now] ∧ Claims.counted s t R.MEM_SRAM_UE_CNT 1
          ∧ Touches [.dp, .mgmt, .eng, .evr] (fun a => coreRegs a ∨ Claims.ueReg a) s t)
      ∧ (s.cvMode = true → s.dp.pool.cores[k].ues = [] → Answers (.messageMemoryUe k now) s fun t =>
        decided t 4 w.iter now (hardBits w.post) ∧ t.dp.pool.cores[k].work = none ∧ t.dp.pool.cores[k].ues = [now]
        ∧ Claims.counted s t R.MEM_SRAM_UE_CNT 1
        ∧ Touches [.dp, .eng, .evr] (fun a => a = R.FEC_LAT_MAX ∨ Claims.ueReg a) s t))
    ∧ (w.released = true → Answers (.iterationEnd k) s fun t =>
        t.dp = { s.dp with pool := { s.dp.pool with cores := s.dp.pool.cores.set k { s.dp.pool.cores[k] with work := none } } }
        ∧ Touches [.dp] (fun _ => False) s t)

/-- R120, R126, R129–R132: the oldest decision becomes a release record with the unit's bits, is counted on its lane and
enters the history ring, whose bursts of 64 entries are written to DRAM while that is ready and lost while it is not; a
core's fourth miscorrection maps it out. R147, R148, R176, R177, R183: a group is handed on once, at a time that never goes
back; lanes that carry units and have no record in time are counted; with retry on a new unit is held and due one hold window
later; with retry off its blocks go to its port. Where the spec leaves a point open, the model's choice stands: log entry 12. -/
def Obligations.RecordsAndHandOns : Prop :=
  (∀ (s : State) (poison histLost : Bool),
      (∀ d rest, s.dp.pool.decisions = d :: rest → d.entry.lane < 8 →
        -- the ages of the miscorrections of the core that decided, with this one
        let ages (k : Nat) : List Nat := (if d.outcome = 1 then [0] else [])
          ++ (s.dp.pool.cores[Fin.ofNat 16 k].miscorr.map (· + 1)).filter (decide <| · < 65536)
        let fails : Bool := match d.core with
          | some k => decide (4 ≤ (ages k).length) && !bitOf s.failedCores (k % 16)
          | none => false
        Answers (.releaseRecord poison histLost) s fun t =>
          let n := d.entry.lane
          let hdrOk := (readHeader (d.bits.take 15360)).2.2.2
          (∃ r, t.dp.ledger = { s.dp.ledger with records := s.dp.ledger.records ++ [r] }
            ∧ r.lane = n ∧ r.sfc = d.entry.sfc ∧ r.cw = d.entry.cw ∧ r.outcome = d.outcome ∧ r.poison = poison
            ∧ (r.seq, r.kind, r.port, r.hdrOk) = readHeader (d.bits.take 15360) ∧ r.bits = d.bits.take 15360
            ∧ r.blocks = readBlocks (d.bits.take 15360)
            ∧ r.arrival = d.entry.arrival ∧ r.deadline = d.entry.deadline - d.entry.arrival)
          ∧ (fails = false → t.dp.pool.decisions = rest) ∧ t.dp.pool.queue = s.dp.pool.queue
          ∧ Claims.counted64 s t (R.FEC_LANEn_CW_LO n) 1 ∧ Claims.counted64 s t (R.FEC_LANEn_ITER_LO n) d.iter
          ∧ (d.outcome = 0 → Claims.counted64 s t (R.FEC_LANEn_BITS_LO n) d.corr)
          ∧ (d.outcome = 1 → Claims.counted s t (R.FEC_LANEn_MISCORR n) 1)
          ∧ (d.outcome = 2 ∨ d.outcome = 5 → Claims.counted s t (R.FEC_LANEn_FAIL_DL n) 1)
          ∧ (d.outcome = 3 → Claims.counted s t (R.FEC_LANEn_FAIL_CR n) 1)
          ∧ (d.outcome = 4 → Claims.counted s t (R.FEC_LANEn_FAIL_CORE n) 1)
          ∧ (d.outcome = 6 → Claims.counted s t (R.FEC_LANEn_SRC_POISON n) 1)
          ∧ (∀ k, d.core = some k → t.dp.pool.cores[Fin.ofNat 16 k].miscorr = ages k)
          ∧ (fails = true → Claims.counted s t R.FEC_CNT_MAPOUT 1
              ∧ ∀ k, d.core = some k → t.coreActive (k % 16) = false)
          ∧ (fails = false → t.rd F.FEC_CORE_STAT_failed = s.rd F.FEC_CORE_STAT_failed)
          ∧ (s.dp.pool.histEn = true → histLost = false → s.dramReady = true →
              t.dp.pool.burst = s.dp.pool.burst ++ [n + 2 ^ 3 * d.entry.cw + 2 ^ 8 * (d.entry.sfc % 2 ^ 16) + 2 ^ 24 * d.iter
                + 2 ^ 29 * d.outcome + 2 ^ 32 * b2n d.poison + 2 ^ 33 * b2n hdrOk + 2 ^ 34 * d.corr
                + 2 ^ 47 * (s.timeNs / 2 ^ 15)])
          ∧ (s.dp.pool.histEn = true → histLost = true ∨ s.dramReady = false → t.dp.pool.burst = s.dp.pool.burst
              ∧ Claims.counted s t R.FEC_HIST_LOST 1)
          ∧ Touches (if fails then [.dp, .eng, .evr, .mgmt] else [.dp, .eng, .evr])
              (fun a => (0x300000 ≤ a ∧ a < 0x310000) ∨ a = keyHist n d.iter ∨ Claims.ueReg a ∨ (fails = true ∧ noticeReg a)) s t)
      ∧ (s.cvMode = true → 64 ≤ s.dp.pool.burst.length →
        let i := s.rd F.FEC_HIST_WPTR_index
        let at_ := s.dp.pool.histBase * 2 ^ 27 + 8 * i
        (s.dramReady = true → (∀ j, s.dramCode j = 0) → s.dp.pool.histBase < 32 → Answers .historyBurstWritten s fun t =>
          t.dp = { s.dp with pool := { s.dp.pool with burst := s.dp.pool.burst.drop 64 } }
          ∧ t.rd F.FEC_HIST_WPTR_index = (i + 64) % 2 ^ 24
          ∧ t.rd F.FEC_HIST_WPTR_wraps = (s.rd F.FEC_HIST_WPTR_wraps + (i + 64) / 2 ^ 24) % 2 ^ F.FEC_HIST_WPTR_wraps.width
          ∧ (at_ + 512 ≤ 2 ^ 32 → t.dramBytes at_ 512 = (s.dp.pool.burst.take 64).flatMap fun v => leBytes 8 v)
          ∧ (∀ b, b < 2 ^ 32 → b < at_ ∨ at_ + 512 ≤ b → at_ + 512 ≤ 2 ^ 32 → t.dramByte b = s.dramByte b)
          ∧ Touches [.dp, .mem, .memStore] (· = R.FEC_HIST_WPTR) s t)
        ∧ (s.dramReady = false → Answers .historyBurstWritten s fun t =>
          t.dp = { s.dp with pool := { s.dp.pool with burst := s.dp.pool.burst.drop 64 } }
          ∧ Claims.counted s t R.FEC_HIST_LOST 64 ∧ Touches [.dp] (· = R.FEC_HIST_LOST) s t)))
  ∧
  (∀ (s : State) (sfc : Word) (cw : Fin 32), s.dp.ledger.rxRun = true → sfcBefore sfc.toNat s.dp.ledger.startSfc = false →
      s.dp.ledger.ranges = [] → s.dp.ledger.lineFault = false → (∀ p : Fin 16, s.dp.ports[p].first < 16) →
      let mine (r : Release) : Bool := r.sfc == sfc.toNat && r.cw == cw.val
      let recs := s.dp.ledger.records.filter mine
      let mask := s.carrying sfc.toNat
      -- the records of the carrying lanes whose codewords have come in time
      let used := s.inTime (recs.filter fun r => bitOf mask r.lane)
      let at_ := s.handOnTime used cw
      Answers (.handOn sfc cw) s fun t =>
        t.dp.ledger.records = s.dp.ledger.records.filter (fun r => !mine r)
        ∧ t.dp.ledger.lastHandOn = at_ ∧ s.dp.ledger.lastHandOn ≤ at_
        ∧ t.dp.ledger.slots.length = s.dp.ledger.slots.length + s.laneCount
        ∧ (∀ n ∈ s.activeLanes, Claims.counted s t (R.LEDGER_LINK_MISS_CNTn n)
            (if bitOf mask n && !used.any (·.lane == n.val) then 1 else 0))
        ∧ (∀ r, recs = [r] → r.lane < 8 → bitOf s.laneMask r.lane = true → r.hdrOk = true → r.kind = 1 → r.outcome = 0 →
            r.poison = false →
            (s.dp.ledger.retryOn = true → State.seqAhead s.dp.ledger.rxNext r.seq < s.dp.ledger.cap →
              s.rxUnit r.seq = none → ∃ u, t.rxUnit r.seq = some u ∧ u.held = some r ∧ u.heldAt = at_
                ∧ u.due = some (at_ + s.holdTime) ∧ u.verified = false ∧ u.lost = false)
            ∧ (s.dp.ledger.retryOn = false → t.dp.ledger.rxNext = (r.seq + 1) % 2 ^ 18
                ∧ t.dp.ports[Fin.ofNat 16 r.port].lastRelease = at_))
        ∧ t.dp = { s.dp with ledger := t.dp.ledger, ports := t.dp.ports }
        ∧ Touches [.dp, .mem, .memStore, .eng, .evr] (fun a => (0x310000 ≤ a ∧ a < 0x310200) ∨ (0x100000 ≤ a ∧ a < 0x200000) ∨ noticeReg a) s t)

/-! ## Pennant channel -/

/-- The registers that a lane's fresh start writes (R86, R97, R138). -/
def Claims.freshReg (a : Nat) : Prop :=
  ∃ n : Fin 8, a = R.OLn_CDR_STAT n ∨ a = R.OLn_CDR_FREQ n ∨ a = R.OLn_CDR_FALLBACK_CNT n

/-- R214, R216, R224–R226: every block adds its sum over the selected lanes to the receiver's signal; a preamble in the last
32 soft values opens a candidate on the phase of the newest block, and a burgee word matches it; one that never does is
false; a header that checks opens its codewords and any other ends the candidate; a second candidate that is strong enough
captures the receiver. R142, R216, R223, R225, R227, R230, R232: decoded codewords join until the pennant is whole; one whose
CRC fails is counted, and so is a reflection; one that checks and is no reflection is counted and goes to its user: telemetry
is kept, mail is queued and answered, and an INVITE that fits is answered with an ACCEPT. The receiver then searches, or goes
on with the candidate that its other correlator holds. Where the spec leaves a point open, the model's choice stands: log
entries 81, 83, 85. -/
def Obligations.PennantsIn : Prop :=
  (∀ (s : State) (blocks : PenBlocks) (one : Vector (List Byte) 8) (secondary : Bool),
      -- the receiver when the blocks that the command brings have been received
      let u := s.penBlocks blocks
      let p := u.dp.pen
      let is (t : State) (q : Pen) : Prop := t.dp = { s.dp with pen := q, rx := u.dp.rx }
      let none_ (_ : Nat) : Prop := False
      let on := s.cfgOn F.PEN_CTRL_rx_en
      let waits (c : Candidate) : Prop := c.matched = false ∧ p.blockNo < c.since + 2400 ∧ 32 ≤ c.soft.length
      let hears : Bool := preambleHit s.penThr (lastSymbols p.signal)
      let found : Candidate := { matched := false, xs := [], since := p.blockNo, amp := alternating (lastSymbols p.signal),
                                 next := p.blockNo, soft := [], run := 0, late := 0 }
      -- hard decisions that differ from the burgee word, and those of a soft value of 0, which are open
      let wrong (word : List Int) : Nat := ((List.zip word burgeeBits).filter fun (x, b) => x != 0 && decide (0 < x) != b).length
      let zero (word : List Int) : Nat := (word.filter (· == 0)).length
      let tol := min 6 (s.cfg F.PEN_RX_CFG_burgee_tol)
      let last (c : Candidate) : List Int := c.soft.drop (c.soft.length - 32)
      let matched_ (c : Candidate) : Candidate := { c with matched := true, xs := signed (last c), soft := [] }
      -- the 32 header bits are the hard decisions that are not open
      let reads (c : Candidate) (bits : List Bool) : Prop := bits.length = 32
        ∧ ∀ k : Fin 32, c.soft[k.val]? ≠ some 0 → bits[k.val]? = c.soft[k.val]?.map fun x => decide (0 < x)
      let taken (q : Pen) (h : Nat) : Pen :=
        { q with rx := 3, head := h, nCw := penCodewords (penLenM1 h), info := [], failed := false,
                 whiten := lfsrState 9 4 32 0x1FF }
      let strong (c : Candidate) : Bool := match p.cand with
        | some cur => (p.rx == 2 || p.rx == 3) && c.matched && captures (s.cfg F.PEN_RX_CFG_cap_db) c.xs cur.xs
        | none => false
      -- a block: its sums over the lanes with power, and their signal less the mean of 4,096 blocks
      (s.dp.pen.cand = none → s.dp.pen.second = none → Answers (.burgeeTimeout [one]) s fun t =>
        let sum (n : Fin 8) : Int := intSum (s.laneSamples n (s.dp.pen.blockNo * s.blockSamples) one[n])
        let x := intSum (((List.finRange 8).filter fun (n : Fin 8) =>
          s.dp.rx[n].powered && bitOf (s.cfg F.PEN_CTRL_rx_mask) n).map sum)
        t.dp = { s.dp with rx := t.dp.rx, pen := { s.dp.pen with
            blockNo := s.dp.pen.blockNo + 1, sums := (x :: s.dp.pen.sums).take 4096,
            signal := ((4096 * x - intSum ((x :: s.dp.pen.sums).take 4096)) :: s.dp.pen.signal).take 800 } }
        ∧ (∀ n : Fin 8, t.dp.rx[n] = if s.dp.rx[n].powered
            then { s.dp.rx[n] with means := (sum n :: s.dp.rx[n].means).take 4096 } else s.dp.rx[n])
        ∧ Touches [.dp] none_ s t)
      ∧ ((on && hears) = false → Answers (.pennantPreambleDetect secondary blocks) s fun t => is t p ∧ Touches [.dp] none_ s t)
      ∧ (on = true → hears = true →
        (p.rx = 0 → Answers (.pennantPreambleDetect secondary blocks) s fun t =>
          is t { p with rx := 1, cand := some found } ∧ Touches [.dp] none_ s t)
        ∧ (p.rx ≠ 0 → Answers (.pennantPreambleDetect false blocks) s fun t => is t p ∧ Touches [.dp] none_ s t)
        ∧ (p.rx ≠ 0 → p.second = none → Answers (.pennantPreambleDetect true blocks) s fun t =>
          is t { p with second := some found } ∧ Touches [.dp] none_ s t)
        ∧ (∀ c, p.rx ≠ 0 → p.second = some c → Answers (.pennantPreambleDetect true blocks) s fun t =>
          is t { p with second := if c.matched && !strong c then some found else some c } ∧ Touches [.dp] none_ s t))
      ∧ (∀ c, on = true → p.rx = 1 → p.cand = some c → waits c →
        (wrong (last c) + zero (last c) ≤ tol → Answers (.burgeeMatch false blocks) s fun t =>
          is t { p with rx := 2, cand := some (matched_ c) } ∧ Touches [.dp] none_ s t)
        ∧ (tol < wrong (last c) → Answers (.burgeeMatch false blocks) s fun t => is t p ∧ Touches [.dp] none_ s t))
      ∧ (∀ c, on = true → p.second = some c → waits c → wrong (last c) + zero (last c) ≤ tol →
        (p.rx ≠ 1 → Answers (.burgeeMatch true blocks) s fun t =>
          is t { p with second := some (matched_ c) } ∧ Touches [.dp] none_ s t)
        -- the first candidate was false
        ∧ (p.rx = 1 → Answers (.burgeeMatch true blocks) s fun t =>
          is t { p with rx := 2, cand := some (matched_ c), second := none } ∧ Claims.counted s t R.PEN_RX_FALSE_CNT 1
          ∧ Touches [.dp] (· = R.PEN_RX_FALSE_CNT) s t))
      ∧ (∀ c, p.rx = 1 → p.cand = some c → c.since + 2400 ≤ p.blockNo → Answers (.burgeeTimeout blocks) s fun t =>
          Claims.counted s t R.PEN_RX_FALSE_CNT 1
          ∧ (p.second = none → is t { p with rx := 0, cand := none, info := [] })
          ∧ (∀ c, p.second = some c → is t { p with rx := (if c.matched then 2 else 1), cand := some c, second := none, info := [] })
          ∧ Touches [.dp] (· = R.PEN_RX_FALSE_CNT) s t)
      ∧ (∀ c, p.rx = 2 → p.cand = some c → 32 ≤ c.soft.length → ∃ bits, reads c bits ∧
        (penHeaderOk (plainHeader bits) = true → Answers (.pennantHeaderReceived blocks) s fun t =>
          is t (taken { p with cand := some { c with soft := c.soft.drop 32 } } (plainHeader bits)) ∧ Touches [.dp] none_ s t)
        ∧ (penHeaderOk (plainHeader bits) = false → p.second = none → Answers (.pennantHeaderReceived blocks) s fun t =>
          is t { p with rx := 0, cand := none, info := [] } ∧ Claims.counted s t R.PEN_RX_HDR_ERR 1
          ∧ Touches [.dp] (· = R.PEN_RX_HDR_ERR) s t))
      ∧ (∀ c, p.second = some c → strong c = true → 32 ≤ c.soft.length → ∃ bits, reads c bits ∧
        (penHeaderOk (plainHeader bits) = true → Answers (.pennantCapture blocks) s fun t =>
          is t (taken { p with cand := some { c with soft := c.soft.drop 32 }, second := none } (plainHeader bits))
          ∧ Claims.counted s t R.PEN_RX_CAPTURE_CNT 1 ∧ Touches [.dp] (· = R.PEN_RX_CAPTURE_CNT) s t)
        ∧ (penHeaderOk (plainHeader bits) = false → Answers (.pennantCapture blocks) s fun t =>
          is t { p with second := none } ∧ Touches [.dp] none_ s t)))
  ∧
  (∀ (s : State) (blocks : PenBlocks) (endUs : Nat) (c : Candidate),
      let u := s.penBlocks blocks
      let p := u.dp.pen
      p.rx = 3 → p.cand = some c → 1024 ≤ c.soft.length →
      let codes := List.zipWith (fun x o => let l := scaledLlr c.xs x; if o then -l else l) (c.soft.take 1024)
        (lfsr 9 4 1024 p.whiten)
      let dec := shortCode.decode 12 s.penIter codes shortCode.noMsgs
      let info := p.info ++ dec.1.take 512
      let n := penLenM1 p.head + 1
      let payload := State.bitsToBytes (info.take (8 * n))
      let crc := ofMsb ((info.drop (8 * n)).take 16)
      let inPen (t : State) : Prop := t.dp = { s.dp with pen := t.dp.pen, rx := u.dp.rx }
      let ended (t : State) : Prop := (p.second = none → t.dp.pen.rx = 0 ∧ t.dp.pen.cand = none)
        ∧ ∀ x, p.second = some x → t.dp.pen.cand = some x ∧ t.dp.pen.second = none ∧ t.dp.pen.rx = (if x.matched then 2 else 1)
      (info.length < 512 * p.nCw → Answers (.pennantCodewordDecoded blocks endUs) s fun t =>
        t.dp.pen = { p with info := info, failed := p.failed || !dec.2, whiten := lfsrState 9 4 1024 p.whiten,
                            cand := some { c with soft := c.soft.drop 1024 } }
        ∧ inPen t ∧ Touches [.dp] (fun _ => False) s t)
      ∧ (512 * p.nCw ≤ info.length →
        (p.failed = true ∨ dec.2 = false ∨ crc ≠ penCrc p.head payload → Answers (.pennantCodewordDecoded blocks endUs) s fun t =>
          ended t ∧ Claims.counted s t R.PEN_RX_CRC_ERR 1
          ∧ t.dp.pen.rxQueue = p.rxQueue ∧ t.dp.pen.telemetry = p.telemetry ∧ inPen t
          ∧ Touches [.dp] (· = R.PEN_RX_CRC_ERR) s t)
        ∧ (p.failed = false → dec.2 = true → crc = penCrc p.head payload → s.reflected p.head crc endUs = true →
          Answers (.pennantCodewordDecoded blocks endUs) s fun t =>
            ended t ∧ Claims.counted s t R.PEN_RX_SELF_CNT 1
            ∧ t.dp.pen.rxQueue = p.rxQueue ∧ t.dp.pen.telemetry = p.telemetry ∧ inPen t
            ∧ Touches [.dp] (fun a => a = R.PEN_RX_SELF_CNT ∨ a = R.PEN_RX_AMP) s t)
        ∧ (p.failed = false → dec.2 = true → crc = penCrc p.head payload → s.reflected p.head crc endUs = false →
          (4 ≤ penKind p.head → Answers (.pennantCodewordDecoded blocks endUs) s fun t =>
            ended t ∧ t.dp.pen.telemetry = payload ∧ t.dp.pen.telSeq = penSeq p.head ∧ t.dp.pen.telAt = s.evr.time
            ∧ inPen t ∧ Claims.counted s t R.PEN_RX_OK_CNT 1
            ∧ t.reg R.PEN_RX_AMP = BitVec.ofNat 32 (ampField s.blockSamples c.xs + 2 ^ 12 * esn0Field c.xs)
            ∧ Touches [.dp, .eng] (fun a => a = R.PEN_RX_OK_CNT ∨ a = R.PEN_RX_AMP ∨ engReg a) s t)
          ∧ (penKind p.head = 2 → p.lastMail = some (penSeq p.head) → Answers (.pennantCodewordDecoded blocks endUs) s fun t =>
            ended t ∧ t.dp.pen.rxQueue = p.rxQueue ∧ t.dp.pen.lastMail = p.lastMail
            ∧ (3, { kind := 3, payload := [0], seq := some (penSeq p.head), accept := false }) ∈ t.dp.pen.waiting
            ∧ inPen t ∧ Touches [.dp, .eng] (fun a => a = R.PEN_RX_OK_CNT ∨ a = R.PEN_RX_AMP ∨ engReg a) s t)
          ∧ (penKind p.head = 2 → p.lastMail ≠ some (penSeq p.head) →
            (p.rxQueue.length < 2 → Answers (.pennantCodewordDecoded blocks endUs) s fun t =>
              ended t ∧ t.dp.pen.rxQueue = p.rxQueue ++ [{ seq := penSeq p.head, bytes := payload }]
              ∧ t.dp.pen.lastMail = some (penSeq p.head)
              ∧ (3, { kind := 3, payload := [0], seq := some (penSeq p.head), accept := false }) ∈ t.dp.pen.waiting
              ∧ inPen t ∧ Claims.counted s t R.PEN_RX_OK_CNT 1
              ∧ Touches [.dp, .eng, .evr] (fun a => a = R.PEN_RX_OK_CNT ∨ a = R.PEN_RX_AMP ∨ noticeReg a) s t)
            ∧ (2 ≤ p.rxQueue.length → Answers (.pennantCodewordDecoded blocks endUs) s fun t =>
              ended t ∧ t.dp.pen.rxQueue = p.rxQueue ∧ t.dp.pen.lastMail = p.lastMail
              ∧ (3, { kind := 3, payload := [1], seq := some (penSeq p.head), accept := false }) ∈ t.dp.pen.waiting
              ∧ inPen t ∧ Claims.counted s t R.PEN_MB_RX_OVF 1
              ∧ Touches [.dp, .eng] (fun a => a = R.PEN_RX_OK_CNT ∨ a = R.PEN_RX_AMP ∨ a = R.PEN_MB_RX_OVF ∨ engReg a) s t))
          ∧ (penKind p.head = 1 → payload.length = 32 → s.cvMode = true → s.dp.link.step = 1 → byteAt payload 0 = 1 →
            be32 payload 6 ≠ s.dp.link.nonce → byteAt payload 1 / 16 = 1 → byteAt payload 1 % 16 = s.lineMode →
            byteAt payload 2 = s.laneMask → byteAt payload 3 = s.cfg (F.HL0_GROUP_code 0) → s.dp.link.cand ≠ be32 payload 6 →
            s.dp.link.gotFrom = 0 → Answers (.pennantCodewordDecoded blocks endUs) s fun t =>
              t.dp.link.compatSeen = true ∧ t.dp.link.mismatch = false ∧ t.dp.link.cand = be32 payload 6 ∧ t.dp.link.step = 1
              ∧ t.dp.link.peerSeenAt = some s.evr.time ∧ t.dp.link.peerStep = byteAt payload 14 / 16
              ∧ (∃ x, t.dp.pen.waiting.filter (fun y => y.1 == 1) = [(1, x)] ∧ x.accept = true
                  ∧ be32 x.payload 10 = be32 payload 6)
              ∧ t.dp = { s.dp with pen := t.dp.pen, rx := u.dp.rx, link := t.dp.link }))))

/-- R228, R229, R231: the first waiting pennant is sent with its type's sequence number once the last has been followed by 32
symbols, and when it has ended the sending of an ACCEPT may complete step 1; mail is taken up, sent again until the retries
are spent, aborted, and popped; the telemetry timer queues a pennant with the failures since the last. Where the spec leaves
a point open, the model's choice stands: log entry 85. -/
def Obligations.PennantsSentAndMail : Prop :=
  ∀ (s : State) (port : Fin 5) (now : Nat) (lenM1 : Byte),
    let p := s.dp.pen
    let noMail (t : State) : Prop := ∀ y ∈ t.dp.pen.waiting, y.1 ≠ 4
    let mails (t : State) (seq : Nat) (bytes : List Byte) : Prop :=
      t.dp.pen.waiting.filter (fun y => y.1 == 4) =
        [(4, { kind := 2, payload := bytes, seq := some seq, accept := false })]
    let penOnly (t : State) : Prop := t.dp = { s.dp with pen := t.dp.pen }
    -- 32 symbols without modulation have followed the pennant sent last
    let gap : Prop := p.sendBits = [] ∨ p.sendStart + (p.sendBits.length + 32) * (25 * s.blockSamples) ≤ now
    (∀ prio x rest, p.waiting = (prio, x) :: rest → s.cfgOn F.PEN_CTRL_tx_en = true → p.sending = none → gap →
      Answers (.pennantTxStart now) s fun t =>
        let k := (p.seqs.find? (·.1 == x.kind)).elim 0 (·.2)
        let h := penHeader x.kind (x.payload.length - 1) (x.seq.getD k)
        t.dp.pen = { p with waiting := rest, sending := some x, sendHead := h, sendCrc := penCrc h x.payload,
                            sendBits := penSymbols h x.payload, sendStart := now, seqs := t.dp.pen.seqs }
        ∧ (x.seq = none → (t.dp.pen.seqs.find? (·.1 == x.kind)) = some (x.kind, (k + 1) % 256))
        ∧ (x.seq.isSome = true → t.dp.pen.seqs = p.seqs) ∧ penOnly t ∧ Touches [.dp] (fun _ => False) s t)
    ∧ (∀ x, p.sending = some x →
      let ended (t : State) : Prop :=
        t.dp.pen = { p with sending := none, sent := ((p.sendHead, p.sendCrc, now) :: p.sent).take 4,
                            mbWait := p.mbWait || (x.kind == 2 && x.seq == some p.mbSeq && p.mbState == 1) }
        ∧ Claims.counted s t R.PEN_TX_CNT 1
      (x.accept = false → Answers (.pennantTxEnd now) s fun t =>
        ended t ∧ penOnly t ∧ Touches [.dp, .eng] (fun a => a = R.PEN_TX_CNT ∨ engReg a) s t)
      ∧ (x.accept = true → s.dp.link.step = 1 → s.dp.link.gotFrom = be32 x.payload 10 → s.dp.link.gotFrom ≠ 0 →
        Answers (.pennantTxEnd now) s fun t =>
          ended t ∧ t.dp.link.step = 2 ∧ t.dp.link.peerNonce = be32 x.payload 10
          ∧ t.dp.framer.start = true ∧ t.dp.framer.sfc = 0
          ∧ (s.dp.link.fresh = true → ∀ n ∈ s.activeLanes, t.dp.rx[n].fe = .search ∧ t.dp.rx[n].lock = .off
              ∧ t.flag (F.OLn_CDR_STAT_fallback n) = true)
          ∧ (s.dp.link.fresh = false → t.dp.rx = s.dp.rx)
          ∧ Touches [.dp, .eng, .evr] (fun a => a = R.PEN_TX_CNT ∨ a = R.LEDGER_LINK_PEER
              ∨ (s.dp.link.fresh = true ∧ (Claims.freshReg a ∨ noticeReg a)) ∨ engReg a) s t))
    ∧ (¬gap → Answers (.pennantTxStart now) s fun t => t = s)
    ∧ (s.ready port R.PEN_MB_TX_CTRL = true →
      (p.mbState ≠ 1 → Answers (.mailSend port lenM1) s fun t =>
        let bytes := ((List.range 64).flatMap fun k => leBytes 4 (s.reg (R.PEN_MB_TXk k)).toNat).take (lenM1.toNat + 1)
        let q := (p.seqs.find? (·.1 == 2)).elim 0 (·.2)
        t.dp.pen.mbState = 1 ∧ t.dp.pen.mbTries = 1 ∧ t.dp.pen.mbSeq = q ∧ t.dp.pen.mbMail = bytes ∧ t.dp.pen.mbWait = false
        ∧ mails t q bytes ∧ penOnly t ∧ Touches [.dp, .mem, .eng] (fun a => a = R.PEN_MB_TX_CTRL ∨ engReg a) s t)
      ∧ (p.mbState = 1 → (s.reg R.PEN_MB_TX_CTRL).getLsbD 8 = false → Answers (.mailAbort port) s fun t =>
        t.dp.pen = { p with mbState := 3, mbWait := false, waiting := p.waiting.filter (·.1 != 4) } ∧ noMail t ∧ penOnly t
        ∧ Touches [.dp, .mem, .eng, .evr] (fun a => a = R.PEN_MB_TX_CTRL ∨ noticeReg a) s t))
    ∧ (p.mbState = 1 → p.mbWait = true →
      (p.mbTries < 1 + s.cfg F.PEN_MB_CFG_mb_retries → Answers .mailAckTimeout s fun t =>
        t.dp.pen.mbTries = p.mbTries + 1 ∧ t.dp.pen.mbState = 1 ∧ t.dp.pen.mbWait = false ∧ mails t p.mbSeq p.mbMail
        ∧ penOnly t ∧ Touches [.dp] (fun _ => False) s t)
      ∧ (1 + s.cfg F.PEN_MB_CFG_mb_retries ≤ p.mbTries → Answers .mailAckTimeout s fun t =>
        t.dp.pen.mbState = 3 ∧ noMail t ∧ penOnly t ∧ Touches [.dp, .eng, .evr] noticeReg s t))
    ∧ (s.ready port R.PEN_MB_RX_POP = true → Answers (.mailPop port) s fun t =>
        t.dp = { s.dp with pen := { p with rxQueue := p.rxQueue.drop 1 } } ∧ Touches [.dp, .mem] (fun _ => False) s t)
    ∧ (s.cfg F.PEN_TEL_CFG_tel_ms ≠ 0 → Answers .telemetryTimer s fun t =>
        t.dp.pen.waiting.filter (fun y => y.1 == 5) =
          [(5, { kind := 4, payload := s.telemetryPayload, seq := none, accept := false })]
        ∧ (∀ n : Fin 8, t.dp.pen.fails[n] = 0) ∧ penOnly t ∧ Touches [.dp] (fun _ => False) s t)

/-! ## Time -/

/-- R234–R237: the counter advances by its adjusted increment in every time-clock cycle and wraps at 2^32 ns, each wrap being
counted and flagged; a read of TIME_NOW_NS returns its nanoseconds and latches the fraction and the wrap count; a requested
step is applied once, to a value or by a signed amount, and a second request does not replace one that waits. R246–R249: an
edge of the selected sense is captured and its offset drives the servo, a second one in its window is a glitch; once the
counter has passed EXP + 0.5 s the window closes and the expected edge moves on by a second, and two windows with no edge
hold the servo; a write of EXP opens a window with no edge; a written offset drives the servo likewise. An offset of
2^step_sh ns or more steps the counter instead. Where the spec leaves a point open, the model's choice stands: log entries
70, 82. -/
def Obligations.TimeCounterAndServo : Prop :=
  (∀ (s : State) (port : Fin 5) (cycles v : Nat) (absolute : Bool),
      let time := s.dp.time
      let sum := time.count + cycles * s.timeInc
      let k := sum / timeMod
      let now : TimeSt := { time with count := sum % timeMod, base := time.base + cycles * s.timeInc, ahead := time.ahead + cycles,
                                      wraps := if k = 0 then time.wraps else (time.wraps + k) % 2 ^ 16 }
      let flagged (t : State) : Prop := 0 < k → t.flag F.TIME_INT_wrap = true
      let wrapRegs (a : Nat) : Prop := 0 < k ∧ (a = R.TIME_INT ∨ engReg a)
      let timeOnly (t : State) : Prop := t.dp = { s.dp with time := t.dp.time }
      Answers (.timeWrap cycles) s (fun t =>
        t.dp.time = now ∧ flagged t ∧ timeOnly t ∧ Touches [.dp, .eng] wrapRegs s t)
      ∧ (s.ready port R.TIME_NOW_NS = true → s.dpOff = false → Answers (.timeNowRead port cycles) s fun t =>
        t.mgmt.readData.toNat = now.count / (5 * 2 ^ 48)
        ∧ t.dp.time = { now with latchFrac := now.count / 5 / 2 ^ 32 % 2 ^ 16 + 2 ^ 16 * now.wraps }
        ∧ flagged t ∧ timeOnly t ∧ Touches [.dp, .mgmt, .eng] wrapRegs s t)
      ∧ (s.ready port R.TIME_STEP_CTRL = true → Answers (.timeStepGo port absolute) s fun t =>
        (time.step = none → t.dp.time = { time with step := some ((s.reg R.TIME_STEP).toNat, absolute) })
        ∧ (time.step ≠ none → t.dp.time = time) ∧ timeOnly t
        ∧ Touches [.dp, .mem, .eng] (fun a => a = R.TIME_STEP_CTRL ∨ engReg a) s t)
      ∧ Answers (.timeStepApply cycles) s (fun t =>
        (time.step = none → t.dp.time = now)
        ∧ (time.step = some (v, absolute) → t.dp.time = { now with
          count := (if absolute then v * (5 * 2 ^ 48)
            else (((now.count : Int) + toSigned 32 v * (5 * 2 ^ 48)) % (timeMod : Int)).toNat), step := none })
        ∧ flagged t ∧ timeOnly t ∧ Touches [.dp, .eng] wrapRegs s t))
  ∧
  (∀ (s : State) (port : Fin 5) (rising : Bool) (cycles sub : Nat) (v : Word),
      let at_ := s.timeRun cycles
      let wraps := timeMod ≤ s.dp.time.count + cycles * s.timeInc
      let wrapRegs (a : Nat) : Prop := wraps ∧ (a = R.TIME_INT ∨ engReg a)
      let driven (t : State) (theta : Int) : Prop :=
        if 16 * 2 ^ s.stepSh ≤ theta.natAbs then
          (t.dp.time.integ = s.dp.time.integ ∧ t.dp.time.servo = s.dp.time.servo ∧ t.flag F.TIME_INT_servo_step = true
            ∧ (t.dp.time.count : Int) % timeMod = ((at_.dp.time.count : Int) - theta * (5 * 2 ^ 44)) % timeMod)
        else
          let integ := s.dp.time.integ + s.cfg F.TIME_SERVO_CTRL_ki * theta
          let adj := satI (-500000 * 4096) (500000 * 4096) (-(s.cfg F.TIME_SERVO_CTRL_kp * theta + integ))
          t.dp.time.integ = integ ∧ (8192 * t.dp.time.servo - adj * 2199).natAbs < 8192 ∧ t.dp.time.count = at_.dp.time.count
      let timeOnly (t : State) : Prop := t.dp = { s.dp with time := t.dp.time }
      let regs (a : Nat) : Prop := a = R.TIME_INT ∨ noticeReg a
      let past : Prop := 500000000 ≤ toSigned 32 (at_.timeNowNs + 2 ^ 32 - (s.reg R.TIME_PPS_EXP).toNat)
      (s.timeSrc = 1 → rising ≠ s.cfgOn F.TIME_CTRL_tsync_pol →
        (s.dp.time.edgeSeen = false →
          let capture := (at_.timeSixteenths + sub) % 2 ^ 36
          Answers (.tsyncEdge rising cycles sub) s fun t =>
            t.dp.time.edgeSeen = true ∧ t.dp.time.missRun = 0 ∧ t.reg R.TIME_PPS_CAP = BitVec.ofNat 32 (capture / 16)
            ∧ t.flag F.TIME_STAT_pps_lost = false ∧ t.flag F.TIME_STAT_servo_hold = false ∧ t.flag F.TIME_INT_pps = true
            ∧ driven t (toSigned 36 (capture + 2 ^ 36 - 16 * (s.reg R.TIME_PPS_EXP).toNat)) ∧ timeOnly t
            ∧ Touches [.dp, .eng, .evr] (fun a => a = R.TIME_PPS_CAP ∨ a = R.TIME_PPS_OFS ∨ a = R.TIME_STAT ∨ regs a) s t)
        ∧ (s.dp.time.edgeSeen = true → Answers (.tsyncEdge rising cycles sub) s fun t =>
          t.dp.time = at_.dp.time ∧ timeOnly t ∧ Claims.counted s t R.TIME_PPS_GLITCH 1
          ∧ Touches [.dp, .eng] (fun a => a = R.TIME_PPS_GLITCH ∨ wrapRegs a) s t))
      ∧ (s.timeSrc ≠ 1 ∨ rising = s.cfgOn F.TIME_CTRL_tsync_pol → Answers (.tsyncEdge rising cycles sub) s fun t =>
        t.dp.time = at_.dp.time ∧ timeOnly t ∧ Touches [.dp, .eng] wrapRegs s t)
      ∧ (s.timeSrc = 1 → past → Answers (.ppsWindowClose cycles) s fun t =>
        t.reg R.TIME_PPS_EXP = s.reg R.TIME_PPS_EXP + 1000000000 ∧ t.dp.time.edgeSeen = false
        ∧ t.dp.time.missRun = s.dp.time.missRun + (if s.dp.time.edgeSeen then 0 else 1)
        ∧ (s.dp.time.edgeSeen = false → Claims.counted s t R.TIME_PPS_MISS 1)
        ∧ (s.dp.time.edgeSeen = false → s.dp.time.missRun = 1 →
            t.flag F.TIME_STAT_pps_lost = true ∧ t.flag F.TIME_STAT_servo_hold = true ∧ t.flag F.TIME_INT_pps_lost = true)
        ∧ t.dp.time.servo = s.dp.time.servo ∧ t.dp.time.integ = s.dp.time.integ ∧ t.dp.time.count = at_.dp.time.count ∧ timeOnly t
        ∧ Touches [.dp, .eng] (fun a => a = R.TIME_PPS_EXP ∨ wrapRegs a ∨ (s.dp.time.edgeSeen = false ∧ (a = R.TIME_PPS_MISS
            ∨ a = R.TIME_STAT ∨ a = R.TIME_INT ∨ engReg a))) s t)
      ∧ (s.timeSrc ≠ 1 ∨ ¬past → Answers (.ppsWindowClose cycles) s fun t =>
        t.dp.time = at_.dp.time ∧ timeOnly t ∧ Touches [.dp, .eng] wrapRegs s t)
      ∧ (s.ready port R.TIME_PPS_EXP = true → Answers (.registerWrite (.word port (BitVec.ofNat 32 R.TIME_PPS_EXP) v) 0) s fun t =>
        t.reg R.TIME_PPS_EXP = v ∧ t.dp.time = { s.dp.time with edgeSeen := false } ∧ timeOnly t
        ∧ Touches [.dp, .mem, .eng] (fun a => a = R.TIME_PPS_EXP ∨ engReg a) s t)
      ∧ (s.ready port R.TIME_SERVO_OFS = true → s.timeSrc = 2 → Answers (.servoOfsWrite port v) s fun t =>
        (if 16 * 2 ^ s.stepSh ≤ v.toInt.natAbs then
          t.flag F.TIME_INT_servo_step = true
          ∧ (t.dp.time.count : Int) % timeMod = ((s.dp.time.count : Int) - v.toInt * (5 * 2 ^ 44)) % timeMod
        else
          let integ := s.dp.time.integ + s.cfg F.TIME_SERVO_CTRL_ki * v.toInt
          let adj := satI (-500000 * 4096) (500000 * 4096) (-(s.cfg F.TIME_SERVO_CTRL_kp * v.toInt + integ))
          t.dp.time.integ = integ ∧ (8192 * t.dp.time.servo - adj * 2199).natAbs < 8192 ∧ t.dp.time.count = s.dp.time.count)
        ∧ timeOnly t ∧ Touches [.dp, .mem, .eng, .evr] regs s t)
      ∧ (s.ready port R.TIME_SERVO_OFS = true → s.timeSrc ≠ 2 → Answers (.servoOfsWrite port v) s fun t =>
        t.dp = s.dp ∧ Touches [.mem] (fun _ => False) s t))

/-- R239–R245: a PTP event message of a supported encapsulation is stamped at its ingress, in the blocks of its port, and its
correctionField grows by its residence at its egress, with a new FCS; the stamps come from the residence base at the
measurement points; a message that is to be skipped is counted, and everything else passes as it is. Where the spec leaves a
point open, the model's choice stands: log entry 80. -/
def Obligations.TransparentClock : Prop :=
  ∀ (s : State) (toLine : Bool) (port : Fin 16) (place : Nat) (cycles : Int),
    let v := s.frameAt toLine port place
    let blocksOf := s.blockAt toLine port
    let known := s.dp.time.flight.any fun f => f.toLine == toLine && f.port == port.val && f.place == place
    let now := s.dp.time.base + cycles * s.timeInc
    let serves := s.cvMode = true ∧ s.cfgOn F.TIME_CTRL_tc_en = true ∧ known = false
    s.stampI true port place cycles = some (ofSigned 32 (now / (5 * 2 ^ 40) - s.pointOfs R.TIME_OFS_HOST_RX))
    ∧ (∀ u, s.dp.ports[port].froms.find? (fun u => decide (u.1 ≤ place) && decide (place < u.1 + 236)) = some u →
      s.stampI false port place cycles = some (ofSigned 32
        (((s.baseAt (u.2 / 128) + symTime (u.2 % 128 + (64 + payloadBit (place - u.1)) / 2) : Nat) : Int) / (5 * 2 ^ 40)
          - s.pointOfs R.TIME_OFS_LINE_RX)))
    ∧ (¬serves ∨ ptpEvent v.bytes = none ∨ s.stampI toLine port place cycles = none →
      exec (.ptpIngressStamp toLine port place cycles) s = .next s)
    ∧ (∀ e u p i, serves → ptpEvent v.bytes = some (e, u, p) → s.stampI toLine port place cycles = some i →
      (s.ptpSkipped v.bytes e u p v.marked = true → Answers (.ptpIngressStamp toLine port place cycles) s fun t =>
        Claims.counted s t R.TIME_PTP_SKIP 1 ∧ Touches [] (· = R.TIME_PTP_SKIP) s t)
      ∧ (s.ptpSkipped v.bytes e u p v.marked = false → Answers (.ptpIngressStamp toLine port place cycles) s fun t =>
        let stamped := patch v.bytes (p + 16) (beBytes 4 i)
        let out := if e = 1 then patch stamped (u + 6) [0, 0] else stamped
        let patched := s.patchBlocks toLine port (changedBlocks blocksOf place v out)
        let f : PtpFrame :=
          { toLine := toLine, port := port, place := place, len := v.len, bytes := out, stamp := some (p, e, i),
            bit := if toLine then (s.frameStart port place).1 else 0, t1 := if toLine then (s.frameStart port place).2 else none }
        t.dp = { patched.dp with time := { s.dp.time with flight := s.dp.time.flight ++ [f] } } ∧ t.mem = patched.mem
        ∧ (toLine = false → (t.frameAt false port place).bytes = out)
        ∧ Touches [.dp, .mem, .memStore] (fun _ => False) s t))
    ∧ (s.readyFrame toLine port cycles = none → exec (.ptpEgressCorrect toLine port cycles) s = .next s)
    ∧ (∀ f w e, s.readyFrame toLine port cycles = some (f, w, e) →
      let left := s.dp.time.flight.filter (· != f)
      let base := if toLine then f.t1.map fun c => ((s.baseAt c + symTime ((64 + f.bit) / 2) : Nat) : Int) else some now
      let sent (u t : State) (bytes : List Byte) : Prop :=
        let patched := u.patchBlocks toLine port (changedBlocks blocksOf f.place w bytes)
        t.dp = { patched.dp with time := { s.dp.time with flight := left, lastOut := bytes } } ∧ t.mem = patched.mem
      f.toLine = toLine ∧ f.port = port.val
      ∧ base.map (fun b => ofSigned 32
          (b / (5 * 2 ^ 40) + s.pointOfs (if toLine then R.TIME_OFS_LINE_TX else R.TIME_OFS_HOST_TX))) = some e
      ∧ (f.stamp = none → Answers (.ptpEgressCorrect toLine port cycles) s fun t =>
        t.dp = { s.dp with time := { s.dp.time with flight := left } } ∧ Touches [.dp] (fun _ => False) s t)
      ∧ (∀ p enc i, f.stamp = some (p, enc, i) →
        (w.marked = true → Answers (.ptpEgressCorrect toLine port cycles) s fun t =>
          sent s t (patch w.bytes (p + 16) [0, 0, 0, 0]) ∧ Claims.counted s t R.TIME_PTP_SKIP 1
          ∧ Touches [.dp, .mem, .memStore] (· = R.TIME_PTP_SKIP) s t)
        ∧ (w.marked = false → Answers (.ptpEgressCorrect toLine port cycles) s fun t =>
          let old := (w.bytes.drop (p + 8)).take 8
          let new := State.corrected64 (ofBe old) ((e + 2 ^ 32 - i) % 2 ^ 32)
          let plain := patch (patch w.bytes (p + 8) (beBytes 8 new.1)) (p + 16) [0, 0, 0, 0]
          let last := p - 8 + be16 plain (p - 8 + 4) - 2
          (enc ≠ 2 → sent s t (withFcs plain))
          ∧ (enc = 2 → ∃ neg, sent s.drew t (withFcs (patch plain last (beBytes 2
              (trailWord old (beBytes 8 new.1) (be16 plain last) (be16 plain (p - 8 + 4) % 2 == 1) neg)))))
          ∧ Claims.counted s t (if toLine then R.TIME_PTP_CORR_H2L else R.TIME_PTP_CORR_L2H) 1
          ∧ (new.2 = true → Claims.counted s t R.TIME_PTP_SAT 1)
          ∧ Touches [.dp, .mem, .memStore]
            (fun a => a = (if toLine then R.TIME_PTP_CORR_H2L else R.TIME_PTP_CORR_L2H) ∨ (new.2 = true ∧ a = R.TIME_PTP_SAT)) s t)))

/-! ## Clocks -/

/-- R297–R300, R303: a window counts towards the runs of good and bad ones; the second bad one, or the loss of REFCLK,
selects the oscillator under auto_fail; the switch is complete, counted and flagged, when the last synthesiser has relocked;
the return waits for a revert, and for force_osc; a synthesiser that was stopped brings its domain up from 1/16. R302–R306: a
measurement (its error is num / den ppm) that the trim takes moves the code one step towards zero error, within 256 steps of
factory; a ramp step halves its domain's divider; SYS that unlocks gives the fabric to the oscillator, any other synthesiser
is flagged; a gate closes when it is written, or after the access in progress, and is forced closed if that access does not
end. Where the spec leaves a point open, the model's choice stands: log entries 77, 92, 93. -/
def Obligations.ReferenceTrimAndGates : Prop :=
  (∀ (s : State) (port : Fin 5) (count : Nat) (modulated : Bool) (x : Synth),
      let spread := (F.HL0_REF_STAT_spread_seen 0).addr
      let shows (t : State) : Prop := t.flag (F.HL0_REF_STAT_spread_seen 0) = modulated
      let failsTo (t : State) : Prop :=
        t.flag F.CLK_STAT_ref_ok = false ∧ t.clk.selOsc = true ∧ t.clk.holdover = true ∧ t.clk.failing = true
        ∧ t.clk.relocking = State.allSynths.filter (fun y => s.isLocked y)
      let mayFail : Prop := s.flag F.CLK_STAT_ref_ok = true ∧ s.clk.selOsc = false ∧ s.flag F.CLK_REF_CTRL_auto_fail = true
        ∧ s.flag F.CLK_STAT_osc_fail = false ∧ State.allSynths.any (fun y => s.isLocked y) = true
      let steady : Prop := s.clk.stopped.contains x = false ∧ s.flag F.CLK_STAT_fabric_direct = false
      (s.pwr.pstate < 2 →
        (s.windowGood count = true → s.flag F.CLK_STAT_ref_ok = true → Answers (.monWindowEnd count modulated) s fun t =>
          t.clk = { s.clk with goodRun := s.clk.goodRun + 1, badRun := 0 } ∧ shows t
          ∧ t.reg R.CLK_MON_COUNT = BitVec.ofNat 32 (count % 2 ^ 16)
          ∧ Touches [.clk] (fun a => a = R.CLK_MON_COUNT ∨ a = spread) s t)
        ∧ (s.windowGood count = true → s.flag F.CLK_STAT_ref_ok = false → s.flag F.CLK_STAT_on_osc = false →
          s.clk.relocking = [] → Answers (.monWindowEnd count modulated) s fun t =>
            t.flag F.CLK_STAT_ref_ok = decide (s.goodWin ≤ s.clk.goodRun + 1) ∧ shows t
            ∧ Touches [.clk] (fun a => a = R.CLK_MON_COUNT ∨ a = R.CLK_STAT ∨ a = spread) s t)
        ∧ (s.windowGood count = true → s.flag F.CLK_STAT_ref_ok = false → s.flag F.CLK_STAT_on_osc = true → s.goodWin ≤ s.clk.goodRun + 1 →
          Answers (.monWindowEnd count modulated) s fun t =>
            t.flag F.CLK_STAT_ref_ok = true ∧ t.flag F.CLK_INT_ref_good = true
            ∧ (s.flag F.CLK_REF_CTRL_auto_return = false → t.clk.selOsc = s.clk.selOsc)
            ∧ (s.flag F.CLK_REF_CTRL_auto_return = true → s.flag F.CLK_REF_CTRL_force_osc = true → t.clk.wantReturn = true)
            ∧ (s.flag F.CLK_REF_CTRL_auto_return = true → s.flag F.CLK_REF_CTRL_force_osc = false →
                t.clk.selOsc = false ∧ t.clk.wantReturn = false)
            ∧ Touches [.clk, .eng] (fun a => a = R.CLK_MON_COUNT ∨ a = R.CLK_STAT ∨ a = R.CLK_INT ∨ a = spread ∨ engReg a) s t)
        ∧ (s.windowGood count = false → s.clk.badRun = 0 → Answers (.monWindowEnd count modulated) s fun t =>
          t.clk = { s.clk with goodRun := 0, badRun := 1 } ∧ shows t
          ∧ Touches [.clk] (fun a => a = R.CLK_MON_COUNT ∨ a = spread) s t)
        ∧ (s.windowGood count = false → s.clk.badRun ≠ 0 → mayFail → Answers (.monWindowEnd count modulated) s fun t =>
          failsTo t ∧ Touches [.clk] (fun a => a = R.CLK_MON_COUNT ∨ a = R.CLK_STAT ∨ a = spread) s t)
        ∧ (mayFail → Answers .refclkLoss s fun t => failsTo t ∧ Touches [.clk] (· = R.CLK_STAT) s t)
        ∧ (s.flag F.CLK_STAT_ref_ok = true → s.clk.selOsc = false →
          s.flag F.CLK_REF_CTRL_auto_fail = false ∨ s.flag F.CLK_STAT_osc_fail = true → Answers .refclkLoss s fun t =>
            t.flag F.CLK_STAT_ref_ok = false ∧ t.clk.selOsc = false ∧ t.clk.holdover = true ∧ Touches [.clk] (· = R.CLK_STAT) s t)
        ∧ (s.flag F.CLK_STAT_ref_ok = false ∨ s.clk.selOsc = true → Answers .refclkLoss s fun t =>
            t.flag F.CLK_STAT_ref_ok = false ∧ t.clk = { s.clk with goodRun := 0, wantReturn := false }
            ∧ Touches [.clk] (· = R.CLK_STAT) s t))
      ∧ (2 ≤ s.pwr.pstate → exec (.monWindowEnd count modulated) s = .next s ∧ exec .refclkLoss s = .next s)
      ∧ (steady → s.clk.relocking = [] → Answers (.synthRelock x) s fun t =>
          t.isLocked x = true ∧ Touches [.clk] (· = R.CLK_STAT) s t)
      ∧ (steady → s.clk.relocking = [x] → s.clk.selOsc = true → s.clk.failing = true →
        Answers (.synthRelock x) s fun t =>
          t.isLocked x = true ∧ t.flag F.CLK_STAT_on_osc = true ∧ t.clk.holdover = false ∧ t.clk.relocking = []
          ∧ t.clk.failing = false ∧ t.flag F.CLK_INT_ref_fail = true ∧ t.rd F.CLK_STAT_trim_act ≠ 1
          ∧ (t.reg R.CLK_REF_FAIL_CNT).toNat = min 0xFFFFFFFF ((s.reg R.CLK_REF_FAIL_CNT).toNat + 1)
          ∧ Touches [.clk, .eng, .evr] (fun a => a = R.CLK_STAT ∨ a = R.CLK_INT ∨ a = R.CLK_REF_FAIL_CNT ∨ noticeReg a) s t)
      ∧ (steady → s.clk.relocking = [x] → s.clk.selOsc = false → Answers (.synthRelock x) s fun t =>
          t.isLocked x = true ∧ t.flag F.CLK_STAT_on_osc = false ∧ t.clk.holdover = false
          ∧ Touches [.clk] (· = R.CLK_STAT) s t)
      ∧ (steady → s.clk.relocking = [x] → s.clk.selOsc = true → s.clk.failing = false → Answers (.synthRelock x) s fun t =>
          t.isLocked x = true ∧ t.flag F.CLK_STAT_on_osc = s.flag F.CLK_STAT_on_osc ∧ t.clk.holdover = false
          ∧ Touches [.clk] (· = R.CLK_STAT) s t)
      ∧ (s.clk.relocking = [] →
        (s.clk.stopped.contains .pool = true → Answers (.synthRelock .pool) s fun t =>
          t.isLocked .pool = true ∧ t.clk.rampPool = 16 ∧ t.flag F.CLK_STAT_ramp_busy = true
          ∧ Touches [.clk] (· = R.CLK_STAT) s t)
        ∧ (s.clk.stopped.contains .line = true → Answers (.synthRelock .line) s fun t =>
          t.isLocked .line = true ∧ t.clk.rampDatapath = 16 ∧ t.flag F.CLK_STAT_ramp_busy = true
          ∧ Touches [.clk] (· = R.CLK_STAT) s t)
        ∧ (s.flag F.CLK_STAT_fabric_direct = true → Answers (.synthRelock .sys) s fun t =>
          t.isLocked .sys = true ∧ t.clk.rampFabric = 16 ∧ t.flag F.CLK_STAT_ramp_busy = true
          ∧ t.flag F.CLK_STAT_fabric_direct = false ∧ Touches [.clk] (· = R.CLK_STAT) s t))
      ∧ (s.ready port R.CLK_REF_CTRL = true → s.flag F.CLK_STAT_ref_ok = true → s.flag F.CLK_STAT_on_osc = true →
        s.clk.selOsc = true → State.allSynths.any (fun y => s.isLocked y) = true → Answers (.revert port) s fun t =>
          (if s.flag F.CLK_REF_CTRL_force_osc then t.clk = { s.clk with wantReturn := true }
            else t.clk = { s.clk with selOsc := false, holdover := true, wantReturn := false, failing := false,
                                      relocking := State.allSynths.filter (fun y => s.isLocked y) })
          ∧ Touches [.clk, .mem, .eng] engReg s t)
      ∧ (s.ready port R.CLK_REF_CTRL = true → s.clk.wantReturn = false →
        s.flag F.CLK_STAT_ref_ok = false ∨ s.flag F.CLK_STAT_on_osc = false → Answers (.revert port) s fun t =>
          Touches [.mem, .eng] engReg s t))
  ∧
  (∀ (s : State) (port : Fin 5) (tsync : Bool) (count : Nat) (x : Synth) (v : Word) (busy : BitVec 4) (gate : Fin 4),
      let code := s.rd F.CLK_OSC_TRIM_code
      let factory := s.rd F.CLK_OSC_TRIM_factory
      let all := 81920000 - 40960 * s.spreadQ
      let num : Int := if tsync then (count : Int) - 50000000 else ((all : Int) - 100 * count) * 1000000
      let den : Nat := if tsync then 50 else all
      let half (n : Nat) : Nat := max 1 (n / 2)
      let rampBusy (t : State) : Prop :=
        t.flag F.CLK_STAT_ramp_busy = decide (¬ (t.clk.rampFabric = 1 ∧ t.clk.rampDatapath = 1 ∧ t.clk.rampPool = 1))
        ∧ Touches [.clk] (· = R.CLK_STAT) s t
      (s.trimTakes tsync count = true → Answers (.trimMeasure tsync count) s fun t =>
          ((10 * num).natAbs ≤ 32767 * den →
            2 * (toSigned 16 (t.rd F.CLK_OSC_ERR_err) * den - 10 * num).natAbs ≤ den) ∧ t.flag F.CLK_OSC_ERR_valid = true
          ∧ t.rd F.CLK_STAT_trim_act = (if tsync then 2 else 1)
          ∧ (factory ≤ code + 256 → code ≤ factory + 256 →
              t.rd F.CLK_OSC_TRIM_code = (if num.natAbs < 2 * den then code
                else if 0 < num then (if code = 0 ∨ code + 256 = factory then code else code - 1)
                else (if code = 1023 ∨ code = factory + 256 then code else code + 1)))
          ∧ t.rd F.CLK_OSC_TRIM_factory = factory
          ∧ (t.flag F.CLK_STAT_trim_limit = true ↔
              t.rd F.CLK_OSC_TRIM_code = factory + 256 ∨ t.rd F.CLK_OSC_TRIM_code + 256 = factory)
          ∧ Touches [.eng] (fun a => a = R.CLK_OSC_ERR ∨ a = R.CLK_OSC_TRIM ∨ a = R.CLK_STAT ∨ a = R.CLK_INT ∨ engReg a) s t)
      ∧ (s.trimTakes tsync count = false → exec (.trimMeasure tsync count) s = .next s)
      ∧ Answers (.rampStep 0) s (fun t => t.clk = { s.clk with rampFabric := half s.clk.rampFabric } ∧ rampBusy t)
      ∧ Answers (.rampStep 1) s (fun t => t.clk = { s.clk with rampDatapath := half s.clk.rampDatapath } ∧ rampBusy t)
      ∧ Answers (.rampStep 2) s (fun t => t.clk = { s.clk with rampPool := half s.clk.rampPool } ∧ rampBusy t)
      ∧ (s.refGoodNow = false → Answers (.pllUnlock .sys) s fun t =>
          t.isLocked .sys = false ∧ Touches [] (· = R.CLK_STAT) s t)
      ∧ (s.refGoodNow = true → Answers (.pllUnlock .sys) s fun t =>
          t.isLocked .sys = false ∧ t.flag F.CLK_STAT_fabric_direct = true ∧ t.clk = { s.clk with rampFabric := 1 }
          ∧ Touches [.clk] (· = R.CLK_STAT) s t)
      ∧ (x ≠ .sys → Answers (.pllUnlock x) s fun t =>
          t.isLocked x = false ∧ t.flag F.CLK_INT_pll_unlock = true
          ∧ Touches [.clk, .eng, .evr] (fun a => a = R.CLK_STAT ∨ a = R.CLK_INT ∨ noticeReg a) s t)
      ∧ (s.ready port R.CLK_GATE = true → s.mem.run = none → s.capRuns = false → Answers (.clkGateWrite port v busy) s fun t =>
          t.reg R.CLK_GATE = v &&& 0xF
          ∧ (∀ i : Fin 4, bitOf t.clk.closing i = (!bitOf v.toNat i &&
              (bitOf s.clk.closing i || (bitOf (s.reg R.CLK_GATE).toNat i && bitOf busy.toNat i))))
          ∧ (∀ i : Fin 4, t.gateOpen i = (bitOf v.toNat i || (decide (i.val < 2) && s.ldisReleased)))
          ∧ Touches [.clk, .mem] (· = R.CLK_GATE) s t)
      ∧ (bitOf s.clk.closing gate = true → Answers (.gateCloseForced gate) s fun t =>
          t.flag F.CLK_INT_gate_forced = true
          ∧ (t.reg R.CLK_GATE_FORCE_CNT).toNat = min 0xFFFFFFFF ((s.reg R.CLK_GATE_FORCE_CNT).toNat + 1)
          ∧ (∀ i : Fin 4, bitOf t.clk.closing i = (bitOf s.clk.closing i && i != gate))
          ∧ (gate = 3 → s.capRuns = true → t.cap.phase = 3)
          ∧ ((gate = 2 → s.mem.run = none) → (gate = 3 → s.capRuns = false) →
              Touches [.clk, .eng, .evr] (fun a => a = R.CLK_INT ∨ a = R.CLK_GATE_FORCE_CNT ∨ noticeReg a) s t)))

/-! ## Housekeeping ADC, bias DACs, temperature, laser safety -/

/-- R326–R330: a conversion of the entry that runs writes its channel's corrected result, with its flags; the last one of an
entry begins the next entry with the table and the corrections in force, as a commit has left them, the last entry counts a
pass; a delay's end begins the conversions, but skips an entry that is read with poison; the reference becomes ready unless
its buffer is off. Where the spec leaves a point open, the model's choice stands: log entry 87. -/
def Obligations.MonitorAdc : Prop :=
  ∀ (s : State) (n : Nat),
    let ch := getField s.hsk.seqA 0 5
    let w := getField s.hsk.seqB 0 11
    let value := hskResult (hskRaw n w) (toSigned 24 s.hsk.ofs.toNat) (getField s.hsk.gain 0 24)
    let word (unready above : Bool) : Word := BitVec.ofNat 32 (value + 2 ^ 24 + 2 ^ 25 * b2n unready + 2 ^ 26 * b2n above)
    let converting : Prop := s.hskMoves = true ∧ s.hsk.converting = true
    let begun (t : State) (k : Nat) : Prop :=
      let a := s.inForceReg (R.HSK_SEQk_A k)
      t.hsk = { running := true, input := hskInput (getField a 0 5) (getField a 5 4), entry := k, made := 0, converting := false, seqA := a, seqB := s.inForceReg (R.HSK_SEQk_B k),
                ofs := s.inForceReg (R.HSK_CORj_OFS (getField a 9 4)),
                gain := s.inForceReg (R.HSK_CORj_GAIN (getField a 9 4)), len := s.hskLen }
    let settles (t : State) : Prop := t.mgmt = { s.mgmt with settleAux := setBit s.mgmt.settleAux 0 false }
    let commitReg (a : Nat) : Prop := a = R.TOP_COMMIT ∧ bitOf s.mgmt.settleAux 0 = true
    let more : Prop := s.hsk.made + 1 < max 1 (getField s.hsk.seqA 13 8)
    (converting → more → n ≤ hskFull w → s.flag F.HSK_STAT_ref_ready = true → Answers (.conversionEnd n) s fun t =>
        t.reg (R.HSK_RESc ch) = word false false ∧ t.hsk = { s.hsk with made := s.hsk.made + 1 }
        ∧ Touches [.hsk] (· = R.HSK_RESc ch) s t)
    ∧ (converting → more → hskFull w < n → Answers (.conversionEnd n) s fun t =>
        t.reg (R.HSK_RESc ch) = word (!s.flag F.HSK_STAT_ref_ready) true ∧ t.flag F.HSK_INT_ovr = true
        ∧ (t.reg R.HSK_OVR_CNT).toNat = min 0xFFFFFFFF ((s.reg R.HSK_OVR_CNT).toNat + 1)
        ∧ (s.flag F.HSK_STAT_ref_ready = false → t.flag F.HSK_INT_ref_unready = true)
        ∧ t.hsk = { s.hsk with made := s.hsk.made + 1 }
        ∧ Touches [.hsk, .eng] (fun a => a = R.HSK_RESc ch ∨ a = R.HSK_OVR_CNT ∨ a = R.HSK_INT ∨ engReg a) s t)
    ∧ (converting → ¬ more → n ≤ hskFull w → s.flag F.HSK_STAT_ref_ready = true → s.cfgOn F.HSK_CTRL_en = true →
      (s.hsk.entry + 1 < s.hsk.len → s.hsk.entry + 1 < s.hskLen → Answers (.conversionEnd n) s fun t =>
        t.reg (R.HSK_RESc ch) = word false false ∧ begun t (s.hsk.entry + 1) ∧ settles t
        ∧ Touches [.hsk, .eng, .mgmt] (fun a => a = R.HSK_RESc ch ∨ commitReg a ∨ engReg a) s t)
      ∧ (s.hsk.len ≤ s.hsk.entry + 1 → Answers (.conversionEnd n) s fun t =>
        t.reg (R.HSK_RESc ch) = word false false ∧ begun t 0 ∧ settles t ∧ t.flag F.HSK_INT_pass_done = true
        ∧ (t.reg R.HSK_PASS_CNT).toNat = min 0xFFFFFFFF ((s.reg R.HSK_PASS_CNT).toNat + 1)
        ∧ Touches [.hsk, .eng, .mgmt] (fun a => a = R.HSK_RESc ch ∨ a = R.HSK_PASS_CNT ∨ a = R.HSK_INT ∨ commitReg a ∨ engReg a) s t))
    ∧ (converting → ¬ more → n ≤ hskFull w → s.flag F.HSK_STAT_ref_ready = true → s.cfgOn F.HSK_CTRL_en = false →
      Answers (.conversionEnd n) s fun t => t.hsk.running = false ∧ t.reg (R.HSK_RESc ch) = word false false ∧ settles t
        ∧ Touches [.hsk, .eng, .mgmt] (fun a => a = R.HSK_RESc ch ∨ a = R.HSK_PASS_CNT ∨ a = R.HSK_INT ∨ commitReg a ∨ engReg a) s t)
    ∧ (s.hskMoves = true → s.hsk.converting = false →
      Answers (.hskEntryDelayEnd false) s (fun t => t.hsk = { s.hsk with converting := true } ∧ Touches [.hsk] (fun _ => False) s t)
      ∧ (s.cfgOn F.HSK_CTRL_en = true → s.hsk.entry + 1 < s.hsk.len → s.hsk.entry + 1 < s.hskLen →
        Answers (.hskEntryDelayEnd true) s fun t =>
          begun t (s.hsk.entry + 1) ∧ settles t ∧ Touches [.hsk, .eng, .evr, .mgmt] (fun a => noticeReg a ∨ commitReg a) s t))
    ∧ (s.hskMoves = false → exec (.conversionEnd n) s = .next s ∧ exec (.hskEntryDelayEnd false) s = .next s)
    ∧ (s.cfg F.HSK_REF_CTRL_src ≠ 2 ∨ s.cfgOn F.HSK_REF_CTRL_buf_en = true → Answers .refReady s fun t =>
        t.flag F.HSK_STAT_ref_ready = true ∧ Touches [] (· = R.HSK_STAT) s t)
    ∧ (s.cfg F.HSK_REF_CTRL_src = 2 → s.cfgOn F.HSK_REF_CTRL_buf_en = false → exec .refReady s = .next s)

/-- R340–R346: a reading of every sensor gives its temperature, its suspect status, Tmax and the throttle level, all with the
suspects before it; below the limit nothing beside them changes, but for calibration runs that a temperature asks for; two
sensors at the limit, or one that is not suspect twice in a row, shut the device down. Where the spec leaves a point open,
the model's choice stands: log entries 20, 94. -/
def Obligations.ThermalReadings : Prop :=
  ∀ (s : State) (v : Vector Nat 12),
    let temp (k : Fin 12) : Int := sensorTemp (s.rd (F.THERM_TSk_cal k)) v[k]
    let usable (k : Fin 12) : Bool := !s.therm.sensors[k].suspect
    let enough : Prop := 6 ≤ ((List.finRange 12).filter usable).length
    let threshold (k : Nat) : Int := (8 * (s.cfg F.THERM_CTRL_thr_c + k * max 1 (s.cfg F.THERM_CTRL_step)) : Nat)
    s.pwr.pstate ≠ 3 → s.boot.resetLow = false →
    (Answers (.sensorReading v) s fun t =>
      (∀ k : Fin 12, t.therm.sensors[k].temp = temp k ∧ t.therm.sensors[k].valid = true
        ∧ (let x := s.therm.sensors[k]
           let near := ((neighbours k).filter usable).map temp
           let d := (2 * temp k - median2 near).natAbs
           t.therm.sensors[k].suspect = (if near.length < 2 then x.suspect
             else if x.suspect then !(decide (d ≤ 80) && decide (63 ≤ x.nearRun))
             else decide (160 < d) && decide (2 ≤ x.farRun))))
      ∧ ((∃ k, usable k = true) → ∃ k, usable k = true ∧ t.therm.tmax = temp k ∧ t.therm.tmaxSensor = k.val
          ∧ ∀ j, usable j = true → temp j ≤ temp k ∧ (temp j = temp k → k ≤ j))
      ∧ (∀ n : Fin 8, let k : Fin 12 := ⟨n.val / 2, by omega⟩
          (usable k = true → t.therm.laneTemp[n] = 2 * temp k)
          ∧ ((∀ j, usable j = false) → t.therm.laneTemp[n] = s.therm.laneTemp[n]))
      ∧ (¬ enough → t.therm.level = 4 ∧ t.therm.degraded = true)
      ∧ (enough → t.therm.degraded = false
          ∧ (s.cfgOn F.THERM_CTRL_thr_en = true →
              let r := ((List.range 4).filter fun k => decide (threshold k ≤ t.therm.tmax)).length
              t.therm.level = (if s.therm.level < r then r
                else if s.therm.level ≠ 0 ∧ t.therm.tmax < threshold (s.therm.level - 1) - 8 * s.cfg F.THERM_CTRL_hyst
                then s.therm.level - 1 else s.therm.level))
          ∧ (s.cfgOn F.THERM_CTRL_thr_en = false → t.therm.level = (if s.therm.fromHold then s.therm.level - 1 else 0)))
      ∧ (t.reg R.THERM_THR_CNT).toNat
          = min 0xFFFFFFFF ((s.reg R.THERM_THR_CNT).toNat + if s.therm.level < t.therm.level then 1 else 0)
      ∧ (t.therm.level ≠ s.therm.level → t.flag F.THERM_INT_level_chg = true))
    ∧ ((∀ k, temp k < 1000) → Answers (.sensorReading v) s fun t =>
        Touches [.therm, .eng, .evr, .dp] (fun a => a = R.THERM_INT ∨ a = R.THERM_THR_CNT ∨ a = R.THERM_SUSPECT_CNT
          ∨ (∃ n : Fin 8, a = R.OLn_TX_CAL_STAT n ∨ a = R.OLn_RX_CAL_STAT n) ∨ noticeReg a) s t)
    ∧ (s.flag F.THERM_STAT_shut_latched = false →
      (∃ j k, j ≠ k ∧ 1000 ≤ temp j ∧ 1000 ≤ temp k)
        ∨ (∃ k, usable k = true ∧ s.therm.sensors[k].hotLast = true ∧ 1000 ≤ temp k) →
      Answers (.sensorReading v) s fun t =>
        t.mgmt.dev = .fault ∧ t.faultN = true ∧ t.flag F.THERM_STAT_shut_latched = true ∧ (∀ l : Fin 8, t.safe.lane[l] = .safe)
        ∧ t.flag F.BIAS_STAT_hold0 = true ∧ (∀ c : Fin 16, t.bias.ch[c].codeOut = 0)
        ∧ t.flag F.MEM_STAT_dram_ready = false ∧ t.mem.dram = [] ∧ t.dp.link = Link.initial)

/-- R332, R335–R337, R348, R350: an update moves each enabled channel towards its target by at most the ramp limit, under
clamp_hi and within 0–4,095, and a released channel of a lane in the safe state to its safe code at once; a disabled channel
stands at 0; the 0 V hold and a freeze keep every code. A current limit that stands is counted, and with sc_en = 1 it puts
the channel's lane in the safe state. R348, R352: TXDIS puts every lane in the safe state and is recorded; when it falls, a
lane is in the safe state exactly where another cause covers it. Where the spec leaves a point open, the model's choice
stands: log entries 19, 88, 89, 90. -/
def Obligations.BiasAndTransmitters : Prop :=
  (∀ (s : State) (now : Nat) (n : Fin 16),
      (s.flag F.BIAS_STAT_hold0 = false → s.biasFrozen = false → Answers (.biasUpdate now) s fun t =>
        (∀ c : Fin 16,
          let target : Int := min (s.biasTarget c now) (s.rd (F.SAFE_BDn_LIM_clamp_hi c))
          let r : Int := max 1 (s.rd (F.SAFE_BDn_LIM_ramp c))
          let cur : Int := (s.biasRange c).bias.ch[c].codeOut
          t.bias.ch[c].gainUsed = s.cfg (F.BIAS_CHn_CTRL_gain c)
          ∧ (s.bias.ch[c].gainUsed = s.cfg (F.BIAS_CHn_CTRL_gain c) → cur = s.bias.ch[c].codeOut)
          ∧ (s.cfgOn (F.BIAS_CHn_CTRL_en c) = false → t.bias.ch[c].codeOut = 0 ∧ t.bias.ch[c].phase = 0)
          ∧ (s.cfgOn (F.BIAS_CHn_CTRL_en c) = true →
            t.bias.ch[c].phase = (if s.cfgOn (F.BIAS_CHn_CTRL_dith_en c) then
              (s.bias.ch[c].phase + s.cfg (F.BIAS_CHn_DFREQ_fw c)) % 2 ^ 24 else 0)
            ∧ (if s.bias.ch[c].released && s.channelSafe c then t.bias.ch[c].codeOut = (satI 0 4095 target).toNat
              else t.bias.ch[c].codeOut = (satI 0 4095 (satI (cur - r) (cur + r) target)).toNat)))
        ∧ (∀ l : Fin 8, t.safe.lane[l] = s.safe.lane[l] ∨ (s.safe.lane[l] = .ramping ∧ t.safe.lane[l] = .active))
        ∧ t.safe = { s.safe with lane := t.safe.lane }
        ∧ t.mgmt = { s.mgmt with settleAux := setBit s.mgmt.settleAux 1 false }
        ∧ Touches [.bias, .safe, .mgmt] (fun a => a = R.TOP_COMMIT ∧ bitOf s.mgmt.settleAux 1 = true) s t)
      ∧ (s.flag F.BIAS_STAT_hold0 = true → exec (.biasUpdate now) s = .next s)
      ∧ (s.flag F.BIAS_STAT_hold0 = false → s.biasFrozen = true → Answers (.biasUpdate now) s fun t =>
          (∀ c : Fin 16, t.bias.ch[c] = { s.bias.ch[c] with phase := 0 }) ∧ Touches [.bias] (fun _ => False) s t)
      ∧ (bitOf (s.rd F.BIAS_STAT_sc) n = false → Answers (.biasCurrentLimit n true) s fun t =>
          bitOf (t.rd F.BIAS_STAT_sc) n = true ∧ bitOf (t.rd F.BIAS_INT_sc) n = true
          ∧ (t.reg R.BIAS_SC_CNT).toNat = min 0xFFFFFFFF ((s.reg R.BIAS_SC_CNT).toNat + 1)
          ∧ (s.flag F.SAFE_CTRL_sc_en = true → ∀ l : Fin 8, s.rd (F.SAFE_BDn_VAL_lane n) = l.val →
              bitOf (t.rd F.SAFE_FAULT_sc) l = true ∧ t.safe.lane[l] = .safe)
          ∧ Touches [.bias, .safe, .eng, .evr] (fun a => a = R.BIAS_STAT ∨ a = R.BIAS_SC_CNT ∨ a = R.BIAS_INT ∨ a = R.SAFE_FAULT
              ∨ a = R.SAFE_INT ∨ noticeReg a) s t)
      ∧ (bitOf (s.rd F.BIAS_STAT_sc) n = true → Answers (.biasCurrentLimit n false) s fun t =>
          bitOf (t.rd F.BIAS_STAT_sc) n = false ∧ Touches [.eng] (fun a => a = R.BIAS_STAT ∨ engReg a) s t))
  ∧
  (∀ (s : State),
      (s.safe.txdis = false → Answers (.txdisChange true) s fun t =>
        t.safe.txdis = true ∧ t.flag F.SAFE_FAULT_txdis_seen = true ∧ (∀ l : Fin 8, t.safe.lane[l] = .safe)
        ∧ (∀ l : Fin 8, s.safe.lane[l] ≠ .safe → t.flag F.SAFE_INT_safe_entry = true)
        ∧ Touches [.safe, .bias, .eng] (fun a => a = R.SAFE_FAULT ∨ a = R.SAFE_INT ∨ engReg a) s t)
      ∧ (s.safe.txdis = true → Answers (.txdisChange false) s fun t =>
        t.safe.txdis = false ∧ (∀ l : Fin 8, t.safe.lane[l] = .safe ↔ t.safeCause l = true)
        ∧ t.flag F.SAFE_FAULT_txdis_seen = s.flag F.SAFE_FAULT_txdis_seen
        ∧ Touches [.safe, .bias, .eng] (fun a => a = R.SAFE_FAULT ∨ a = R.SAFE_INT ∨ engReg a) s t)
      ∧ exec (.txdisChange s.safe.txdis) s = .next s)

/-- R352: a write to a SAFE register from a source other than IG-S leaves it unchanged, counts in SAFE_WR_REJ_CNT and sets
wr_rej; any port may write SAFE_INT and SAFE_INT_EN; IG-S's own write is taken; and of the registers TXDIS writes only
SAFE_FAULT.txdis_seen. -/
def Obligations.SafeRegisterWrites : Prop :=
  ∀ (s : State) (port : Fin 5) (a pc ns : Nat) (v same : Word) (e : Fin 9) (rest : List (Nat × Word × Nat)) (high : Bool),
    let rejected (t : State) : Prop :=
      (a ≠ R.SAFE_WR_REJ_CNT → t.reg a = s.reg a)
      ∧ (t.reg R.SAFE_WR_REJ_CNT).toNat = min 0xFFFFFFFF ((s.reg R.SAFE_WR_REJ_CNT).toNat + 1)
      ∧ t.flag F.SAFE_INT_wr_rej = true
      ∧ Touches [.mem, .eng, .engStore] (fun b => b = R.SAFE_WR_REJ_CNT ∨ b = R.SAFE_INT ∨ engReg b) s t
    let spw : Prop := a / 0x10000 = 6 ∧ a ≠ R.SAFE_INT ∧ a ≠ R.SAFE_INT_EN
    (spw → s.ready port a = true → Answers (.registerWrite (.word port (BitVec.ofNat 32 a) v) same) s rejected)
    ∧ (spw → e ≠ 1 → s.eng[e].wbuf = (a, v, pc) :: rest → s.ready 4 a = true →
        Answers (.engineWriteDrain e ns) s rejected)
    ∧ (a = R.SAFE_CTRL ∨ a = R.SAFE_LANE ∨ (∃ n : Fin 16, a = R.SAFE_BDn_LIM n ∨ a = R.SAFE_BDn_VAL n) →
      s.eng[(1 : Fin 9)].wbuf = (a, v, pc) :: rest → s.ready 4 a = true → Answers (.engineWriteDrain 1 ns) s fun t =>
        t.reg a = merge (s.reg a) (State.desc a).spw v
        ∧ Touches [.mem, .eng, .engStore, .safe, .bias]
            (fun b => b = a ∨ b = R.SAFE_FAULT ∨ b = R.SAFE_INT ∨ engReg b) s t)
    ∧ (s.ready port R.SAFE_INT = true → Answers (.registerWrite (.word port (BitVec.ofNat 32 R.SAFE_INT) v) same) s fun t =>
        t.reg R.SAFE_INT = (s.reg R.SAFE_INT &&& ~~~ (v &&& 3)) ||| (same &&& 3) ∧ t.reg R.SAFE_WR_REJ_CNT = s.reg R.SAFE_WR_REJ_CNT)
    ∧ (s.ready port R.SAFE_INT_EN = true → Answers (.registerWrite (.word port (BitVec.ofNat 32 R.SAFE_INT_EN) v) same) s fun t =>
        t.rd F.SAFE_INT_EN_en = v.toNat % 4 ∧ t.reg R.SAFE_WR_REJ_CNT = s.reg R.SAFE_WR_REJ_CNT)
    ∧ (s.safe.txdis ≠ high → s.rd F.BIAS_STAT_sc = 0 → Answers (.txdisChange high) s fun t =>
        (∀ b, 0x60000 ≤ b → b < 0x70000 → b ≠ R.SAFE_FAULT → b ≠ R.SAFE_INT → t.reg b = s.reg b)
        ∧ t.reg R.SAFE_FAULT = if high then s.reg R.SAFE_FAULT ||| 0x40000 else s.reg R.SAFE_FAULT)

/-- R347: no step clears the shutdown latch, but power-up of VDD_AON after its removal; straps sampled while it is set take the
device to FAULT, with FAULT_N asserted; and the RESET command is refused there with STATE. The list of registers that the image
being booted has written, which a failed boot puts back, never names the latch's. -/
def Obligations.ShutdownLatch : Prop :=
  ∀ (s t : State) (port : Fin 5) (bootsel : BitVec 2) (maddr : BitVec 3) (pclass : BitVec 2) (safedef : Bool),
    s.flag F.THERM_STAT_shut_latched = true →
    (R.THERM_STAT ∉ s.boot.wrote → step s = .next t → (s.pending.head? = some .vddAonPowerUp → s.boot.removed = false) →
      t.flag F.THERM_STAT_shut_latched = true ∧ R.THERM_STAT ∉ t.boot.wrote)
    ∧ (s.boot.aonUp = false → s.boot.removed = true → Answers .vddAonPowerUp s fun u =>
        u.flag F.THERM_STAT_shut_latched = false)
    ∧ (s.mgmt.dev = .boot → s.boot.phase = .reset → s.boot.aonUp = true → s.boot.resetLow = false →
      Answers (.strapSample bootsel maddr pclass safedef) s fun u =>
        u.mgmt.dev = .fault ∧ u.faultN = true ∧ u.rd F.SEC_STRAP_bootsel = bootsel.toNat
        ∧ u.rd F.SEC_STRAP_maddr = maddr.toNat ∧ u.rd F.SEC_STRAP_pclass = pclass.toNat
        ∧ u.flag F.SEC_STRAP_safedef = safedef)
    ∧ (s.mgmt.dev = .fault → s.reach port R.TOP_CMD = true → s.cmdBusy = false → s.mem.run = none →
      Answers (.reset port) s fun u =>
        u.rd F.TOP_CMD_STAT_status = 2 ∧ u.rd F.TOP_CMD_STAT_opcode = 6 ∧ u.mgmt.dev = .fault ∧ u.boot = s.boot)

/-! ## Memory and self-test -/

/-- R164, R170, R357–R362: a patrol read corrects one wrong bit and counts it, counts, records and flags an uncorrectable
word, which then stands with the poison code, and passes over a word that carries it already and one that is not valid; a
parity error of a word of the valid-bit array makes all its units valid; a clear makes its blocks read as zero; an armed
injection waits for its address; a bank that fails takes the spare of its pseudo-channel, into which the ledger's slots are
rebuilt, or is lost, and what it retained with it where two members of a group are gone. Where the spec leaves a point open,
the model's choice stands: log entries 13, 14, 21. -/
def Obligations.MemoryErrors : Prop :=
  ∀ (s : State) (port : Fin 5) (dram : Bool) (loc : Nat) (syn : BitVec 8) (parity : Bool) (v : Word) (pc : Fin 32) (bank : Fin 16),
    let on := if dram then s.flag F.MEM_CTRL_dram_scrub else s.flag F.MEM_CTRL_sram_scrub
    let words := if dram then 2 ^ 29 else 2 ^ 22
    let code := s.patrolCode dram loc
    let stands (t : State) (code : Nat) : Prop :=
      t.patrolCode dram loc = code ∧ ∀ l, l % words ≠ loc % words → t.patrolCode dram l = s.patrolCode dram l
    let inBank (a : Nat) : Prop := bitsOf a 12 5 = pc.val ∧ bitsOf a 17 4 = bank.val
    let base := s.rd F.MEM_CLEAR_BASE_block
    let g := s.dp.ledger
    let stores (t : State) (rebuild : List Nat) : Prop :=
      (g.place ≠ 2 → t.dp = s.dp)
      ∧ (g.place = 2 → t.dp = { s.dp with ledger := t.dp.ledger } ∧ t.dp.ledger.rebuild = rebuild
        ∧ (g.cap = 0 → t.dp.ledger = { g with rebuild := rebuild })
        ∧ (g.cap ≠ 0 → t.dp.ledger.cap = 131072 - (t.lostSlots false).length
          ∧ (∀ x ∈ t.dp.ledger.retention, ∃ r ∈ g.retention, x.seq = r.seq ∧ x.unit = r.unit)
          ∧ ∀ r ∈ g.retention, r.t1.isSome = true → (t.lostSlots false).contains (r.seq % 131072) = true →
            r.seq ∈ t.dp.ledger.unrec ∧ ∀ x ∈ t.dp.ledger.retention, x.seq ≠ r.seq))
    let lossReg (a : Nat) : Prop := a = R.LEDGER_TX_EXPOSE_CNT ∧ g.place = 2
    (on = true → s.pwr.pstate ≤ 1 →
      (s.patrolValid dram loc = false ∨ 3 ≤ code ∨ (code = 0 ∧ syn = 0) → exec (.scrubRead dram loc syn false) s = .next s)
      ∧ (s.patrolValid dram loc = true →
        (code = 0 → syn = 0xFF → Answers (.scrubRead dram loc syn false) s fun t =>
          stands t 3 ∧ Touches [.mem, .memStore] (fun _ => False) s t)
        ∧ (code = 1 ∨ (code = 0 ∧ syn ≠ 0 ∧ syn ≠ 0xFF ∧ singleBit syn.toNat = true) →
          Answers (.scrubRead dram loc syn false) s fun t =>
            stands t 0 ∧ Claims.counted s t (if dram then R.MEM_DRAM_CE_CNT else R.MEM_SRAM_CE_CNT) 1
            ∧ Touches [.mem, .memStore] (· = if dram then R.MEM_DRAM_CE_CNT else R.MEM_SRAM_CE_CNT) s t)
        ∧ (code = 2 ∨ (code = 0 ∧ syn ≠ 0 ∧ syn ≠ 0xFF ∧ singleBit syn.toNat = false) →
          Answers (.scrubRead dram loc syn false) s fun t =>
            stands t 3 ∧ Claims.counted s t (if dram then R.MEM_DRAM_UE_CNT else R.MEM_SRAM_UE_CNT) 1
            ∧ t.flag F.MEM_INT_ue = true
            ∧ (t.reg R.MEM_ERR_ADDR).toNat = (if dram then 2 ^ 31 + loc / 8 % 2 ^ 26 else loc % 2 ^ 22)
            ∧ (t.reg R.MEM_ERR_INFO).toNat % 2 = 1 ∧ (t.reg R.MEM_ERR_INFO).toNat / 2 < 255 ∧ 1 < (t.reg R.MEM_ERR_INFO).toNat
            ∧ (code = 0 → t.reg R.MEM_ERR_INFO = BitVec.ofNat 32 (1 + 2 * syn.toNat))
            ∧ Touches [.mem, .memStore, .eng, .evr] Claims.ueReg s t))
      ∧ Answers (.scrubRead dram loc syn true) s (fun t =>
        (dram = true → ∀ b, b < 2 ^ 20 →
          t.dramBlockValid (4096 * b) = (s.dramBlockValid (4096 * b) || b / 32 == State.validWord dram loc))
        ∧ (dram = false → ∀ l, l < 2 ^ 21 → t.sramLineValid l = (s.sramLineValid l || l / 256 == State.validWord dram loc))
        ∧ (∀ a, a < 2 ^ 32 → s.dramBlockValid a = true → t.dramByte a = s.dramByte a)
        ∧ (∀ l, l < words → l ≠ loc % words → s.patrolValid dram l = true → t.patrolCode dram l = s.patrolCode dram l)
        ∧ Touches [.mem, .memStore, .eng, .evr] (fun a => a = R.MEM_SRAM_CE_CNT ∨ a = R.MEM_DRAM_CE_CNT ∨ Claims.ueReg a) s t))
    ∧ (on = false ∨ 1 < s.pwr.pstate → exec (.scrubRead dram loc syn parity) s = .next s)
    ∧ (s.ready port R.MEM_CLEAR_CTRL = true →
      (s.flag F.MEM_STAT_clear_busy = false → Answers (.memClearGo port) s fun t =>
        t.flag F.MEM_STAT_clear_busy = true
        ∧ (∀ a, a < 2 ^ 32 → t.dramByte a = if base ≤ a / 4096 ∧ a / 4096 < base + s.rd F.MEM_CLEAR_LEN_blocks
            then 0 else s.dramByte a)
        ∧ Touches [.mem, .memStore] (· = R.MEM_STAT) s t)
      ∧ (s.flag F.MEM_STAT_clear_busy = true → Answers (.memClearGo port) s fun t => Touches [.mem] (fun _ => False) s t))
    ∧ (s.flag F.MEM_STAT_clear_busy = true → Answers .memClearDone s fun t =>
        t.flag F.MEM_STAT_clear_busy = false ∧ t.flag F.MEM_INT_clear_done = true
        ∧ Touches [.eng] (fun a => a = R.MEM_STAT ∨ a = R.MEM_INT ∨ engReg a) s t)
    ∧ (s.ready port R.MEM_INJ_CTRL = true → Answers (.memInjArm port v) s fun t =>
        t.rd F.MEM_INJ_CTRL_kind = getField v 0 2 ∧ t.rd F.MEM_INJ_CTRL_bit = getField v 2 7
        ∧ t.flag F.MEM_INJ_CTRL_armed = (v.getLsbD 9 || s.flag F.MEM_INJ_CTRL_armed)
        ∧ Touches [.mem] (· = R.MEM_INJ_CTRL) s t)
    ∧ (mapGet false s.mem.banksLost (16 * pc.val + bank.val) = false →
      (bitOf (s.rd F.MEM_SPARE_USED_pc) pc = false → s.mem.repair.length < 509 → Answers (.dramBankFail pc bank) s fun t =>
        bitOf (t.rd F.MEM_SPARE_USED_pc) pc = true ∧ t.flag F.MEM_INT_bank_fail = true
        ∧ (t.reg R.MEM_BANK_FAIL_CNT).toNat = min 0xFFFFFFFF ((s.reg R.MEM_BANK_FAIL_CNT).toNat + 1)
        ∧ t.mem.repair = s.mem.repair ++ [{ kind := 3, unit := pc, index := bank, spare := 16, source := 1 }]
        ∧ (∀ a, (inBank a → t.dramByte a = 0) ∧ (¬ inBank a → t.dramByte a = s.dramByte a))
        ∧ stores t (g.rebuild.filter (· != 16 * pc.val + bank.val) ++ [16 * pc.val + bank.val])
        ∧ Touches [.mem, .memStore, .eng, .evr, .dp] (fun a => a = R.MEM_SPARE_USED ∨ a = R.MEM_BANK_FAIL_CNT ∨ a = R.MEM_INT
            ∨ a = R.BIST_REPAIR_STAT ∨ lossReg a ∨ noticeReg a) s t)
      ∧ (bitOf (s.rd F.MEM_SPARE_USED_pc) pc = true → Answers (.dramBankFail pc bank) s fun t =>
        bitOf (t.rd F.MEM_BANK_LOST_pc) pc = true ∧ t.flag F.MEM_STAT_dram_degraded = true
        ∧ t.flag F.MEM_INT_spare_exhausted = true ∧ t.dramLost (4096 * pc.val + 2 ^ 17 * bank.val) = true
        ∧ (∀ a, t.dramByte a = s.dramByte a) ∧ stores t g.rebuild
        ∧ Touches [.mem, .memStore, .eng, .evr, .dp] (fun a => a = R.MEM_BANK_LOST ∨ a = R.MEM_STAT ∨ a = R.MEM_INT
            ∨ lossReg a ∨ noticeReg a) s t))
    ∧ (mapGet false s.mem.banksLost (16 * pc.val + bank.val) = true → exec (.dramBankFail pc bank) s = .next s)

/-- R364–R370: a slice that ends passes on to the next one, and in a round moves the point at which it resumes; the last
slice of the last unit ends a BIST command with the unit's result; a slice that is stopped reads ABORTED; a failing row takes
a spare row, and the repair map gains an entry. Where the spec leaves a point open, the model's choice stands: log entries
28, 95. -/
def Obligations.SelfTestSlices : Prop :=
  ∀ (s : State) (r : BistRun) (rep : SliceReport) (m w b : Nat),
    let clean := if rep.applied ≠ rep.expected then 3 else if rep.signatureOk then 1 else 2
    let one : Prop := r.trigger = 0 ∧ r.unit < 28 ∧ r.units = 2 ^ r.unit ∧ r.asked = 2 ^ r.unit ∧ s.running 8 = true
    s.mem.run = some r →
    (rep.aborted = false → rep.failing = [] → 25 ≤ r.unit → r.unit < 28 → r.slice + 1 < sliceCount r.unit →
      Answers (.bistSliceEnd rep) s fun t =>
        t.mem.run = some { r with slice := r.slice + 1, tally := { r.tally with worst := max r.tally.worst clean } }
        ∧ (r.trigger ≠ 0 → t.rd F.BIST_NEXT_unit = r.unit ∧ t.rd F.BIST_NEXT_slice = (r.slice + 1) % 32)
        ∧ (r.unit = 27 → r.slice < 16 → ∀ a, bitsOf a 17 4 = r.slice → t.dramByte a = 0)
        ∧ (r.unit ≠ 27 → ∀ a, t.dramByte a = s.dramByte a)
        ∧ (r.unit = 25 → ∀ l, l < 2 ^ 21 → t.sramLineValid l = (s.sramLineValid l && l / 2 ^ 17 != r.slice))
        ∧ Touches [.mem, .memStore] (fun a => a = R.BIST_NEXT ∨ a = R.BIST_FAIL_BIT) s t)
    ∧ (rep.aborted = false → rep.failing = [] → one → r.unit < 16 → r.tally.worst = 0 → Answers (.bistSliceEnd rep) s fun t =>
        t.mem.run = none ∧ t.rd (F.BIST_RESk_result r.unit) = clean
        ∧ t.rd (F.BIST_RESk_runs r.unit) = (s.rd (F.BIST_RESk_runs r.unit) + 1) % 2 ^ 16
        ∧ bitOf (t.rd F.FEC_CORE_STAT_failed) r.unit = decide (clean ≠ 1) ∧ t.flag F.BIST_INT_done = true
        ∧ (clean ≠ 1 → t.flag F.BIST_INT_fail = true) ∧ t.rd F.TOP_CMD_STAT_status = 0 ∧ t.flag F.TOP_INT_cmd_done = true
        ∧ t.arg 0 = (if clean = 1 then 0 else 2 ^ r.unit)
        ∧ t.arg 1 = (if clean = 2 then 1 else if clean = 3 then 2 ^ 8 else 0)
        ∧ Touches [.mem, .memStore, .dp, .mgmt, .eng, .evr] (fun a => a = R.BIST_RESk r.unit ∨ a = R.BIST_REPAIR_STAT
            ∨ a = R.BIST_INT ∨ a = R.FEC_CORE_STAT ∨ a = R.FEC_CNT_MAPOUT ∨ a = R.FEC_STAT ∨ a = R.TOP_CMD_ARGk 0
            ∨ a = R.TOP_CMD_ARGk 1 ∨ a = R.TOP_CMD_STAT ∨ noticeReg a) s t)
    ∧ (rep.aborted = true → one → Answers (.bistSliceEnd rep) s fun t =>
        t.mem.run = none ∧ t.rd (F.BIST_RESk_result r.unit) = 4 ∧ t.flag F.BIST_INT_aborted = true
        ∧ t.arg 0 = 2 ^ r.unit ∧ t.arg 1 = 2 ^ 16 ∧ t.rd F.TOP_CMD_STAT_status = 0
        ∧ t.reg R.BIST_NEXT = s.reg R.BIST_NEXT ∧ t.reg R.BIST_DONE = s.reg R.BIST_DONE)
    ∧ (rep.aborted = false → rep.failing = [.sram m w b] → rep.applied = rep.expected → r.unit = 25 ∨ r.unit = 26 →
      r.slice < 15 → s.rowsTaken m < 4 → s.mem.repair.length < 509 → Answers (.bistSliceEnd rep) s fun t =>
        t.mem.repair = s.mem.repair ++ [{ kind := 1, unit := m, index := w / 8, spare := s.rowsTaken m, source := 0 }]
        ∧ t.rowsTaken m = s.rowsTaken m + 1 ∧ t.rd F.BIST_FAIL_BIT_unit = r.unit
        ∧ t.mem.run = some { r with
            slice := r.slice + 1,
            tally := { worst := max r.tally.worst 1, repaired := r.tally.repaired + 1, failing := r.tally.failing + 1 } }
        ∧ (r.tally.failing = 0 → t.reg R.BIST_FAIL_ADDR = BitVec.ofNat 32 (m * 2 ^ 13 + w)
            ∧ t.rd F.BIST_FAIL_BIT_bit = b % 2 ^ 7 ∧ t.rd F.BIST_FAIL_BIT_count = 1)
        ∧ Touches [.mem, .memStore] (fun a => a = R.BIST_NEXT ∨ a = R.BIST_FAIL_BIT ∨ a = R.BIST_FAIL_ADDR
            ∨ a = R.BIST_REPAIR_STAT) s t)
    ∧ (rep.aborted = false → rep.failing = [.sram m w b] → r.unit = 25 ∨ r.unit = 26 → r.slice < 15 → 4 ≤ s.rowsTaken m →
      Answers (.bistSliceEnd rep) s fun t =>
        t.mem.repair = s.mem.repair ∧ t.flag F.BIST_REPAIR_STAT_unrepaired = true
        ∧ ∃ q, t.mem.run = some q ∧ q.tally.worst ≥ 2)

/-! ## The block as a whole -/

/-- A step runs the command at the front of the queue on the rest. On an empty queue the block idles: the model's own choice
(log entry 32). -/
def Obligations.StepRunsTheFrontCommand : Prop :=
  ∀ (s : State) (c : Instr) (rest : List Instr),
    step { s with pending := c :: rest } = exec c { s with pending := rest } ∧ step { s with pending := [] } = .next { s with pending := [] }

/-- No command touches the queue: a step takes the command at its front from it and leaves the rest as it is. -/
def Obligations.QueueIsFirstInFirstOut : Prop := ∀ s t : State, step s = .next t → t.pending = s.pending.tail

/-- Every command has an effect in every state, so a run of any length never stops. -/
def Obligations.EveryRunGoesOn : Prop := ∀ (k : Nat) (s : State), SafeRun k s

/-- R8, R10, R335, R348, R349, R384: after hard reset every register reads the reset value of its row, the ID registers among
them (R1); no command waits; every lane is in the safe state and every bias output holds 0 V; no engine runs; memory lists
nothing. Where the spec gives a field no reset value, the value is the model's choice (log entry 33). -/
def Obligations.ResetState : Prop :=
  (∀ a, State.reset.reg a = resetWord a ∧ State.reset.stagedReg a = resetWord a ∧ State.reset.inForceReg a = resetWord a)
  ∧ State.reset.reg R.TOP_ID = 0x0C1B3208 ∧ State.reset.reg R.TOP_STEP = 0xB0 ∧ State.reset.pending = []
  ∧ (∀ n : Fin 8, State.reset.safe.lane[n] = .safe) ∧ State.reset.flag F.BIAS_STAT_hold0 = true
  ∧ (∀ c : Fin 16, State.reset.bias.ch[c].codeOut = 0) ∧ (∀ e : Fin 9, State.reset.eng[e].st = .reset)
  ∧ State.reset.mgmt.dev = .boot ∧ State.reset.pwr.pstate = 0 ∧ (∀ a, State.reset.dramByte a = 0)
  ∧ State.reset.canonical = true ∧ State.reset.mem.wf = true

/-- Every step keeps the sparse parts of the state in their canonical form, the register maps and DRAM, so that equal contents
are equal data. -/
def Obligations.CanonicalFormIsKept : Prop :=
  ∀ s t : State, s.canonical = true → s.mem.wf = true → step s = .next t → t.canonical = true ∧ t.mem.wf = true

/-- R348, R349, R351: whatever happens, a lane that a cause of *Safe-state causes* covers is in the safe state: every step keeps
it so, and it holds after reset. -/
def Obligations.CoveredLanesStaySafe : Prop :=
  let held (s : State) : Prop := ∀ n : Fin 8, s.safeCause n = true → s.safe.lane[n] = .safe
  held State.reset ∧ ∀ s t : State, held s → step s = .next t → held t

/-- R375, R376: a program word and the instruction that it spells name each other: what is encoded decodes to itself, for some
engine and some handshake time, which no word carries, and a word that decodes is the encoding of its instruction. -/
def Obligations.ProgramWordsRoundTrip : Prop :=
  (∀ (i : Instr) (w : Word), igsEncode i = some w → ∃ e h, igsDecode e w h = some i)
  ∧ ∀ (e : Fin 9) (w : Word) (h : Nat) (i : Instr), igsDecode e w h = some i → igsEncode i = some w

/-- R375, R376: words of each format, written out from *Instruction formats* and *Instruction set*; a reserved opcode and a field
marked 0 that is not spell none. -/
def Obligations.ProgramWordsOfEachFormat : Prop :=
  ∀ (e : Fin 9) (h : Nat),
    igsDecode e 0b00000000000000000000000000000000 h = some (.nopInstruction e)
    ∧ igsDecode e 0b00000100110101011100000000000000 h = some (.add e 3 5 7)
    ∧ igsDecode e 0b01000000010010111111111111111111 h = some (.addi e 1 2 (-1))
    ∧ igsDecode e 0b01100010100000001111111111111111 h = some (.movhi e 10 0xFFFF)
    ∧ igsDecode e 0b10001000010010000000000000001100 h = some (.brd e 1 2 12 h)
    ∧ igsDecode e 0b10100000010010111111111111111110 h = some (.beq e 1 2 (-2))
    ∧ igsDecode e 0b11000000000000000001001000110100 h = some (.j e 0x1234)
    ∧ igsDecode e 0b11010000000101011100000000000000 h = some (.macc e 5 7)
    ∧ igsDecode e 0b11111100000000000000000000000000 h = some (.halt e)
    ∧ igsDecode e 0b00111000000000000000000000000000 h = none ∧ igsDecode e 0b00000000000000000000000000000001 h = none
end

