-- ==== Sys2Proof/Laws/Fields.lean ====
section
/-!
SUPPORT. The laws of register fields: what a field reads after a field has been written.
-/

namespace Sys2Proof.Machine

theorem testBit_getField (w : Word) (lo n i : Nat) :
    (getField w lo n).testBit i = (decide (i < n) && w.getLsbD (lo + i)) := by
  simp [getField, bitsOf, Nat.testBit_mod_two_pow, Nat.testBit_div_two_pow, BitVec.getLsbD, Nat.add_comm]

theorem getLsbD_fieldMask (lo n k : Nat) :
    (fieldMask lo n).getLsbD k = (decide (k < 32) && decide (lo ≤ k) && decide (k < lo + n)) := by
  simp only [fieldMask, BitVec.getLsbD_ofNat, Nat.testBit_mul_two_pow, Nat.testBit_two_pow_sub_one]
  by_cases h1 : k < 32 <;> by_cases h2 : lo ≤ k <;> simp [h1, h2] <;> omega

theorem getLsbD_putField (w : Word) (lo n v k : Nat) :
    (putField w lo n v).getLsbD k
      = (decide (k < 32) && if lo ≤ k ∧ k < lo + n then v.testBit (k - lo) else w.getLsbD k) := by
  simp only [putField, BitVec.getLsbD_or, BitVec.getLsbD_and, BitVec.getLsbD_not, getLsbD_fieldMask, BitVec.getLsbD_ofNat,
    Nat.testBit_mul_two_pow, Nat.testBit_mod_two_pow]
  by_cases h0 : k < 32
  · by_cases h1 : lo ≤ k
    · by_cases h2 : k < lo + n
      · have : k - lo < n := by omega
        simp [h0, h1, h2, this]
      · have : ¬ k - lo < n := by omega
        simp [h0, h1, h2, this]
    · simp [h0, h1]
  · have : w.getLsbD k = false := BitVec.getLsbD_of_ge w k (by omega)
    simp [h0]

/-- A field reads what was written to it. -/
theorem getField_putField (w : Word) (lo n v : Nat) (h : lo + n ≤ 32) : getField (putField w lo n v) lo n = v % 2 ^ n := by
  apply Nat.eq_of_testBit_eq
  intro i
  rw [testBit_getField, getLsbD_putField, Nat.testBit_mod_two_pow]
  by_cases hi : i < n
  · have h1 : lo + i < 32 := by omega
    simp [hi, h1]
  · simp [hi]

/-- A field keeps its value when another one is written. -/
theorem getField_putField_disjoint (w : Word) (lo n v lo' n' : Nat) (h : lo' + n' ≤ lo ∨ lo + n ≤ lo') (hn : lo' + n' ≤ 32) :
    getField (putField w lo n v) lo' n' = getField w lo' n' := by
  apply Nat.eq_of_testBit_eq
  intro i
  rw [testBit_getField, testBit_getField, getLsbD_putField]
  by_cases hi : i < n'
  · have h1 : lo' + i < 32 := by omega
    have h2 : ¬ (lo ≤ lo' + i ∧ lo' + i < lo + n) := by omega
    simp [hi, h1, h2]
  · simp [hi]

/-- A field's value lies below 2 to its width. -/
theorem getField_lt (w : Word) (lo n : Nat) : getField w lo n < 2 ^ n := Nat.mod_lt _ (Nat.two_pow_pos n)

end Sys2Proof.Machine
end

