-- ==== Sys2Proof/Laws/Sparse.lean ====
section
/-!
SUPPORT. The laws of sparse memories: a read after a write, and that a write keeps the canonical form.
-/

namespace Sys2Proof.Machine

variable {α : Type}

theorem mapGet_filter_ne (d : α) (m : List (Nat × α)) (a b : Nat) (h : b ≠ a) :
    mapGet d (m.filter (·.1 != a)) b = mapGet d m b := by
  induction m with
  | nil => rfl
  | cons x t ih =>
    obtain ⟨k, v⟩ := x
    by_cases hk : k = a
    · subst hk
      simp [mapGet, h, ih]
    · simp [hk, mapGet, ih]

theorem mapGet_filter_same (d : α) (m : List (Nat × α)) (a : Nat) : mapGet d (m.filter (·.1 != a)) a = d := by
  induction m with
  | nil => rfl
  | cons x t ih =>
    obtain ⟨k, v⟩ := x
    by_cases hk : k = a
    · simp [hk, ih]
    · simp [hk, mapGet, Ne.symm hk, ih]

theorem mapGet_mapInsert_ne (d : α) (m : List (Nat × α)) (a b : Nat) (v : α) (h : b ≠ a) :
    mapGet d (mapInsert m a v) b = mapGet d m b := by
  induction m with
  | nil => simp [mapInsert, mapGet, h]
  | cons x t ih =>
    obtain ⟨k, w⟩ := x
    unfold mapInsert
    split <;> simp [mapGet, h, ih]

theorem mapGet_mapInsert_same (d : α) (m : List (Nat × α)) (a : Nat) (v : α) (h : ∀ x ∈ m, x.1 ≠ a) :
    mapGet d (mapInsert m a v) a = v := by
  induction m with
  | nil => simp [mapInsert, mapGet]
  | cons x t ih =>
    obtain ⟨k, w⟩ := x
    have hk : a ≠ k := fun e => h (k, w) (by simp) e.symm
    unfold mapInsert
    split
    · simp [mapGet]
    · simp [mapGet, hk, ih fun y hy => h y (by simp [hy])]

variable [DecidableEq α]

/-- A read after a write to the same address gives the value written. -/
@[simp] theorem mapGet_mapSet_same (d : α) (m : List (Nat × α)) (a : Nat) (v : α) : mapGet d (mapSet d m a v) a = v := by
  unfold mapSet
  split
  · next h => simp [h, mapGet_filter_same]
  · exact mapGet_mapInsert_same _ _ _ _ (by simp)

/-- A write leaves every other address alone. -/
theorem mapGet_mapSet_ne (d d' : α) (m : List (Nat × α)) (a b : Nat) (v : α) (h : b ≠ a) :
    mapGet d' (mapSet d m a v) b = mapGet d' m b := by
  unfold mapSet
  split
  · exact mapGet_filter_ne _ _ _ _ h
  · rw [mapGet_mapInsert_ne _ _ _ _ _ h, mapGet_filter_ne _ _ _ _ h]

theorem mapGet_mapSet (d : α) (m : List (Nat × α)) (a b : Nat) (v : α) :
    mapGet d (mapSet d m a v) b = if b = a then v else mapGet d m b := by
  split
  · next h => subst h; simp
  · next h => exact mapGet_mapSet_ne _ _ _ _ _ _ h

/-! ## The canonical form -/

theorem mapWfFrom_mono (f : Nat → α) (m : List (Nat × α)) (lo lo' : Nat) (h : lo' ≤ lo) (hw : mapWfFrom f lo m = true) :
    mapWfFrom f lo' m = true := by
  cases m with
  | nil => rfl
  | cons x t =>
    simp only [mapWfFrom, Bool.and_eq_true, decide_eq_true_eq] at hw ⊢
    exact ⟨⟨by omega, hw.1.2⟩, hw.2⟩

theorem mapWfFrom_filter (f : Nat → α) (p : Nat × α → Bool) (m : List (Nat × α)) (lo : Nat)
    (hw : mapWfFrom f lo m = true) : mapWfFrom f lo (m.filter p) = true := by
  induction m generalizing lo with
  | nil => rfl
  | cons x t ih =>
    simp only [mapWfFrom, Bool.and_eq_true, decide_eq_true_eq] at hw
    by_cases hp : p x = true
    · simp only [List.filter_cons_of_pos hp, mapWfFrom, Bool.and_eq_true, decide_eq_true_eq]
      exact ⟨hw.1, ih _ hw.2⟩
    · rw [List.filter_cons_of_neg hp]
      exact mapWfFrom_mono f _ _ _ (by omega) (ih _ hw.2)

theorem mapWfFrom_insert (f : Nat → α) (m : List (Nat × α)) (lo a : Nat) (v : α) (hv : v ≠ f a) (hlo : lo ≤ a)
    (hn : ∀ x ∈ m, x.1 ≠ a) (hw : mapWfFrom f lo m = true) : mapWfFrom f lo (mapInsert m a v) = true := by
  induction m generalizing lo with
  | nil => simp [mapInsert, mapWfFrom, hv, hlo]
  | cons x t ih =>
    obtain ⟨k, w⟩ := x
    have hk : k ≠ a := hn (k, w) (by simp)
    simp only [mapWfFrom, Bool.and_eq_true, decide_eq_true_eq] at hw
    unfold mapInsert
    split
    · simp only [mapWfFrom, Bool.and_eq_true, decide_eq_true_eq]
      exact ⟨⟨hlo, hv⟩, ⟨by omega, hw.1.2⟩, hw.2⟩
    · simp only [mapWfFrom, Bool.and_eq_true, decide_eq_true_eq]
      exact ⟨hw.1, ih (k + 1) (by omega) (fun y hy => hn y (by simp [hy])) hw.2⟩

/-- A write keeps the canonical form. -/
theorem mapWf_mapSet (f : Nat → α) (m : List (Nat × α)) (a : Nat) (v : α) (hw : mapWf f m = true) :
    mapWf f (mapSet (f a) m a v) = true := by
  unfold mapSet mapWf
  split
  · exact mapWfFrom_filter f _ m 0 hw
  · next h => exact mapWfFrom_insert f _ 0 a v h (by omega) (by simp) (mapWfFrom_filter f _ m 0 hw)

/-- A part of a sparse memory keeps the canonical form. -/
theorem mapWf_filter (f : Nat → α) (p : Nat × α → Bool) (m : List (Nat × α)) (hw : mapWf f m = true) :
    mapWf f (m.filter p) = true := mapWfFrom_filter f p m 0 hw

end Sys2Proof.Machine
end

