-- ==== Sys2Proof/Laws/State.lean ====
section
/-!
SUPPORT. What each update of the state leaves alone: one lemma for each update and field, true by definition.
-/

namespace Sys2Proof.Machine

namespace State

@[simp] theorem setReg_staged (s : State) (a : Nat) (v : Word) : (s.setReg a v).staged = s.staged := rfl
@[simp] theorem setReg_inForce (s : State) (a : Nat) (v : Word) : (s.setReg a v).inForce = s.inForce := rfl
@[simp] theorem setReg_mgmt (s : State) (a : Nat) (v : Word) : (s.setReg a v).mgmt = s.mgmt := rfl
@[simp] theorem setReg_boot (s : State) (a : Nat) (v : Word) : (s.setReg a v).boot = s.boot := rfl
@[simp] theorem setReg_clk (s : State) (a : Nat) (v : Word) : (s.setReg a v).clk = s.clk := rfl
@[simp] theorem setReg_pwr (s : State) (a : Nat) (v : Word) : (s.setReg a v).pwr = s.pwr := rfl
@[simp] theorem setReg_hsk (s : State) (a : Nat) (v : Word) : (s.setReg a v).hsk = s.hsk := rfl
@[simp] theorem setReg_bias (s : State) (a : Nat) (v : Word) : (s.setReg a v).bias = s.bias := rfl
@[simp] theorem setReg_therm (s : State) (a : Nat) (v : Word) : (s.setReg a v).therm = s.therm := rfl
@[simp] theorem setReg_safe (s : State) (a : Nat) (v : Word) : (s.setReg a v).safe = s.safe := rfl
@[simp] theorem setReg_mem (s : State) (a : Nat) (v : Word) : (s.setReg a v).mem = s.mem := rfl
@[simp] theorem setReg_eng (s : State) (a : Nat) (v : Word) : (s.setReg a v).eng = s.eng := rfl
@[simp] theorem setReg_evr (s : State) (a : Nat) (v : Word) : (s.setReg a v).evr = s.evr := rfl
@[simp] theorem setReg_cap (s : State) (a : Nat) (v : Word) : (s.setReg a v).cap = s.cap := rfl
@[simp] theorem setReg_dump (s : State) (a : Nat) (v : Word) : (s.setReg a v).dump = s.dump := rfl
@[simp] theorem setReg_dp (s : State) (a : Nat) (v : Word) : (s.setReg a v).dp = s.dp := rfl
@[simp] theorem setReg_draws (s : State) (a : Nat) (v : Word) : (s.setReg a v).draws = s.draws := rfl
@[simp] theorem setReg_pending (s : State) (a : Nat) (v : Word) : (s.setReg a v).pending = s.pending := rfl

@[simp] theorem setStaged_regs (s : State) (a : Nat) (v : Word) : (s.setStaged a v).regs = s.regs := rfl
@[simp] theorem setStaged_inForce (s : State) (a : Nat) (v : Word) : (s.setStaged a v).inForce = s.inForce := rfl
@[simp] theorem setStaged_mgmt (s : State) (a : Nat) (v : Word) : (s.setStaged a v).mgmt = s.mgmt := rfl
@[simp] theorem setStaged_boot (s : State) (a : Nat) (v : Word) : (s.setStaged a v).boot = s.boot := rfl
@[simp] theorem setStaged_clk (s : State) (a : Nat) (v : Word) : (s.setStaged a v).clk = s.clk := rfl
@[simp] theorem setStaged_pwr (s : State) (a : Nat) (v : Word) : (s.setStaged a v).pwr = s.pwr := rfl
@[simp] theorem setStaged_hsk (s : State) (a : Nat) (v : Word) : (s.setStaged a v).hsk = s.hsk := rfl
@[simp] theorem setStaged_bias (s : State) (a : Nat) (v : Word) : (s.setStaged a v).bias = s.bias := rfl
@[simp] theorem setStaged_therm (s : State) (a : Nat) (v : Word) : (s.setStaged a v).therm = s.therm := rfl
@[simp] theorem setStaged_safe (s : State) (a : Nat) (v : Word) : (s.setStaged a v).safe = s.safe := rfl
@[simp] theorem setStaged_mem (s : State) (a : Nat) (v : Word) : (s.setStaged a v).mem = s.mem := rfl
@[simp] theorem setStaged_eng (s : State) (a : Nat) (v : Word) : (s.setStaged a v).eng = s.eng := rfl
@[simp] theorem setStaged_evr (s : State) (a : Nat) (v : Word) : (s.setStaged a v).evr = s.evr := rfl
@[simp] theorem setStaged_cap (s : State) (a : Nat) (v : Word) : (s.setStaged a v).cap = s.cap := rfl
@[simp] theorem setStaged_dump (s : State) (a : Nat) (v : Word) : (s.setStaged a v).dump = s.dump := rfl
@[simp] theorem setStaged_dp (s : State) (a : Nat) (v : Word) : (s.setStaged a v).dp = s.dp := rfl
@[simp] theorem setStaged_draws (s : State) (a : Nat) (v : Word) : (s.setStaged a v).draws = s.draws := rfl
@[simp] theorem setStaged_pending (s : State) (a : Nat) (v : Word) : (s.setStaged a v).pending = s.pending := rfl

@[simp] theorem setInForce_regs (s : State) (a : Nat) (v : Word) : (s.setInForce a v).regs = s.regs := rfl
@[simp] theorem setInForce_staged (s : State) (a : Nat) (v : Word) : (s.setInForce a v).staged = s.staged := rfl
@[simp] theorem setInForce_mgmt (s : State) (a : Nat) (v : Word) : (s.setInForce a v).mgmt = s.mgmt := rfl
@[simp] theorem setInForce_boot (s : State) (a : Nat) (v : Word) : (s.setInForce a v).boot = s.boot := rfl
@[simp] theorem setInForce_clk (s : State) (a : Nat) (v : Word) : (s.setInForce a v).clk = s.clk := rfl
@[simp] theorem setInForce_pwr (s : State) (a : Nat) (v : Word) : (s.setInForce a v).pwr = s.pwr := rfl
@[simp] theorem setInForce_hsk (s : State) (a : Nat) (v : Word) : (s.setInForce a v).hsk = s.hsk := rfl
@[simp] theorem setInForce_bias (s : State) (a : Nat) (v : Word) : (s.setInForce a v).bias = s.bias := rfl
@[simp] theorem setInForce_therm (s : State) (a : Nat) (v : Word) : (s.setInForce a v).therm = s.therm := rfl
@[simp] theorem setInForce_safe (s : State) (a : Nat) (v : Word) : (s.setInForce a v).safe = s.safe := rfl
@[simp] theorem setInForce_mem (s : State) (a : Nat) (v : Word) : (s.setInForce a v).mem = s.mem := rfl
@[simp] theorem setInForce_eng (s : State) (a : Nat) (v : Word) : (s.setInForce a v).eng = s.eng := rfl
@[simp] theorem setInForce_evr (s : State) (a : Nat) (v : Word) : (s.setInForce a v).evr = s.evr := rfl
@[simp] theorem setInForce_cap (s : State) (a : Nat) (v : Word) : (s.setInForce a v).cap = s.cap := rfl
@[simp] theorem setInForce_dump (s : State) (a : Nat) (v : Word) : (s.setInForce a v).dump = s.dump := rfl
@[simp] theorem setInForce_dp (s : State) (a : Nat) (v : Word) : (s.setInForce a v).dp = s.dp := rfl
@[simp] theorem setInForce_draws (s : State) (a : Nat) (v : Word) : (s.setInForce a v).draws = s.draws := rfl
@[simp] theorem setInForce_pending (s : State) (a : Nat) (v : Word) : (s.setInForce a v).pending = s.pending := rfl

@[simp] theorem wr_staged (s : State) (f : RField) (v : Nat) : (s.wr f v).staged = s.staged := rfl
@[simp] theorem wr_inForce (s : State) (f : RField) (v : Nat) : (s.wr f v).inForce = s.inForce := rfl
@[simp] theorem wr_mgmt (s : State) (f : RField) (v : Nat) : (s.wr f v).mgmt = s.mgmt := rfl
@[simp] theorem wr_boot (s : State) (f : RField) (v : Nat) : (s.wr f v).boot = s.boot := rfl
@[simp] theorem wr_clk (s : State) (f : RField) (v : Nat) : (s.wr f v).clk = s.clk := rfl
@[simp] theorem wr_pwr (s : State) (f : RField) (v : Nat) : (s.wr f v).pwr = s.pwr := rfl
@[simp] theorem wr_hsk (s : State) (f : RField) (v : Nat) : (s.wr f v).hsk = s.hsk := rfl
@[simp] theorem wr_bias (s : State) (f : RField) (v : Nat) : (s.wr f v).bias = s.bias := rfl
@[simp] theorem wr_therm (s : State) (f : RField) (v : Nat) : (s.wr f v).therm = s.therm := rfl
@[simp] theorem wr_safe (s : State) (f : RField) (v : Nat) : (s.wr f v).safe = s.safe := rfl
@[simp] theorem wr_mem (s : State) (f : RField) (v : Nat) : (s.wr f v).mem = s.mem := rfl
@[simp] theorem wr_eng (s : State) (f : RField) (v : Nat) : (s.wr f v).eng = s.eng := rfl
@[simp] theorem wr_evr (s : State) (f : RField) (v : Nat) : (s.wr f v).evr = s.evr := rfl
@[simp] theorem wr_cap (s : State) (f : RField) (v : Nat) : (s.wr f v).cap = s.cap := rfl
@[simp] theorem wr_dump (s : State) (f : RField) (v : Nat) : (s.wr f v).dump = s.dump := rfl
@[simp] theorem wr_dp (s : State) (f : RField) (v : Nat) : (s.wr f v).dp = s.dp := rfl
@[simp] theorem wr_draws (s : State) (f : RField) (v : Nat) : (s.wr f v).draws = s.draws := rfl
@[simp] theorem wr_pending (s : State) (f : RField) (v : Nat) : (s.wr f v).pending = s.pending := rfl

@[simp] theorem drew_regs (s : State) : (s.drew).regs = s.regs := rfl
@[simp] theorem drew_staged (s : State) : (s.drew).staged = s.staged := rfl
@[simp] theorem drew_inForce (s : State) : (s.drew).inForce = s.inForce := rfl
@[simp] theorem drew_mgmt (s : State) : (s.drew).mgmt = s.mgmt := rfl
@[simp] theorem drew_boot (s : State) : (s.drew).boot = s.boot := rfl
@[simp] theorem drew_clk (s : State) : (s.drew).clk = s.clk := rfl
@[simp] theorem drew_pwr (s : State) : (s.drew).pwr = s.pwr := rfl
@[simp] theorem drew_hsk (s : State) : (s.drew).hsk = s.hsk := rfl
@[simp] theorem drew_bias (s : State) : (s.drew).bias = s.bias := rfl
@[simp] theorem drew_therm (s : State) : (s.drew).therm = s.therm := rfl
@[simp] theorem drew_safe (s : State) : (s.drew).safe = s.safe := rfl
@[simp] theorem drew_mem (s : State) : (s.drew).mem = s.mem := rfl
@[simp] theorem drew_eng (s : State) : (s.drew).eng = s.eng := rfl
@[simp] theorem drew_evr (s : State) : (s.drew).evr = s.evr := rfl
@[simp] theorem drew_cap (s : State) : (s.drew).cap = s.cap := rfl
@[simp] theorem drew_dump (s : State) : (s.drew).dump = s.dump := rfl
@[simp] theorem drew_dp (s : State) : (s.drew).dp = s.dp := rfl
@[simp] theorem drew_pending (s : State) : (s.drew).pending = s.pending := rfl

@[simp] theorem onEng_regs (s : State) (e : Fin 9) (f : Engine → Engine) : (s.onEng e f).regs = s.regs := rfl
@[simp] theorem onEng_staged (s : State) (e : Fin 9) (f : Engine → Engine) : (s.onEng e f).staged = s.staged := rfl
@[simp] theorem onEng_inForce (s : State) (e : Fin 9) (f : Engine → Engine) : (s.onEng e f).inForce = s.inForce := rfl
@[simp] theorem onEng_mgmt (s : State) (e : Fin 9) (f : Engine → Engine) : (s.onEng e f).mgmt = s.mgmt := rfl
@[simp] theorem onEng_boot (s : State) (e : Fin 9) (f : Engine → Engine) : (s.onEng e f).boot = s.boot := rfl
@[simp] theorem onEng_clk (s : State) (e : Fin 9) (f : Engine → Engine) : (s.onEng e f).clk = s.clk := rfl
@[simp] theorem onEng_pwr (s : State) (e : Fin 9) (f : Engine → Engine) : (s.onEng e f).pwr = s.pwr := rfl
@[simp] theorem onEng_hsk (s : State) (e : Fin 9) (f : Engine → Engine) : (s.onEng e f).hsk = s.hsk := rfl
@[simp] theorem onEng_bias (s : State) (e : Fin 9) (f : Engine → Engine) : (s.onEng e f).bias = s.bias := rfl
@[simp] theorem onEng_therm (s : State) (e : Fin 9) (f : Engine → Engine) : (s.onEng e f).therm = s.therm := rfl
@[simp] theorem onEng_safe (s : State) (e : Fin 9) (f : Engine → Engine) : (s.onEng e f).safe = s.safe := rfl
@[simp] theorem onEng_mem (s : State) (e : Fin 9) (f : Engine → Engine) : (s.onEng e f).mem = s.mem := rfl
@[simp] theorem onEng_evr (s : State) (e : Fin 9) (f : Engine → Engine) : (s.onEng e f).evr = s.evr := rfl
@[simp] theorem onEng_cap (s : State) (e : Fin 9) (f : Engine → Engine) : (s.onEng e f).cap = s.cap := rfl
@[simp] theorem onEng_dump (s : State) (e : Fin 9) (f : Engine → Engine) : (s.onEng e f).dump = s.dump := rfl
@[simp] theorem onEng_dp (s : State) (e : Fin 9) (f : Engine → Engine) : (s.onEng e f).dp = s.dp := rfl
@[simp] theorem onEng_draws (s : State) (e : Fin 9) (f : Engine → Engine) : (s.onEng e f).draws = s.draws := rfl
@[simp] theorem onEng_pending (s : State) (e : Fin 9) (f : Engine → Engine) : (s.onEng e f).pending = s.pending := rfl

@[simp] theorem onDp_regs (s : State) (f : Datapath → Datapath) : (s.onDp f).regs = s.regs := rfl
@[simp] theorem onDp_staged (s : State) (f : Datapath → Datapath) : (s.onDp f).staged = s.staged := rfl
@[simp] theorem onDp_inForce (s : State) (f : Datapath → Datapath) : (s.onDp f).inForce = s.inForce := rfl
@[simp] theorem onDp_mgmt (s : State) (f : Datapath → Datapath) : (s.onDp f).mgmt = s.mgmt := rfl
@[simp] theorem onDp_boot (s : State) (f : Datapath → Datapath) : (s.onDp f).boot = s.boot := rfl
@[simp] theorem onDp_clk (s : State) (f : Datapath → Datapath) : (s.onDp f).clk = s.clk := rfl
@[simp] theorem onDp_pwr (s : State) (f : Datapath → Datapath) : (s.onDp f).pwr = s.pwr := rfl
@[simp] theorem onDp_hsk (s : State) (f : Datapath → Datapath) : (s.onDp f).hsk = s.hsk := rfl
@[simp] theorem onDp_bias (s : State) (f : Datapath → Datapath) : (s.onDp f).bias = s.bias := rfl
@[simp] theorem onDp_therm (s : State) (f : Datapath → Datapath) : (s.onDp f).therm = s.therm := rfl
@[simp] theorem onDp_safe (s : State) (f : Datapath → Datapath) : (s.onDp f).safe = s.safe := rfl
@[simp] theorem onDp_mem (s : State) (f : Datapath → Datapath) : (s.onDp f).mem = s.mem := rfl
@[simp] theorem onDp_eng (s : State) (f : Datapath → Datapath) : (s.onDp f).eng = s.eng := rfl
@[simp] theorem onDp_evr (s : State) (f : Datapath → Datapath) : (s.onDp f).evr = s.evr := rfl
@[simp] theorem onDp_cap (s : State) (f : Datapath → Datapath) : (s.onDp f).cap = s.cap := rfl
@[simp] theorem onDp_dump (s : State) (f : Datapath → Datapath) : (s.onDp f).dump = s.dump := rfl
@[simp] theorem onDp_draws (s : State) (f : Datapath → Datapath) : (s.onDp f).draws = s.draws := rfl
@[simp] theorem onDp_pending (s : State) (f : Datapath → Datapath) : (s.onDp f).pending = s.pending := rfl

@[simp] theorem onMem_regs (s : State) (f : MemState → MemState) : (s.onMem f).regs = s.regs := rfl
@[simp] theorem onMem_staged (s : State) (f : MemState → MemState) : (s.onMem f).staged = s.staged := rfl
@[simp] theorem onMem_inForce (s : State) (f : MemState → MemState) : (s.onMem f).inForce = s.inForce := rfl
@[simp] theorem onMem_mgmt (s : State) (f : MemState → MemState) : (s.onMem f).mgmt = s.mgmt := rfl
@[simp] theorem onMem_boot (s : State) (f : MemState → MemState) : (s.onMem f).boot = s.boot := rfl
@[simp] theorem onMem_clk (s : State) (f : MemState → MemState) : (s.onMem f).clk = s.clk := rfl
@[simp] theorem onMem_pwr (s : State) (f : MemState → MemState) : (s.onMem f).pwr = s.pwr := rfl
@[simp] theorem onMem_hsk (s : State) (f : MemState → MemState) : (s.onMem f).hsk = s.hsk := rfl
@[simp] theorem onMem_bias (s : State) (f : MemState → MemState) : (s.onMem f).bias = s.bias := rfl
@[simp] theorem onMem_therm (s : State) (f : MemState → MemState) : (s.onMem f).therm = s.therm := rfl
@[simp] theorem onMem_safe (s : State) (f : MemState → MemState) : (s.onMem f).safe = s.safe := rfl
@[simp] theorem onMem_eng (s : State) (f : MemState → MemState) : (s.onMem f).eng = s.eng := rfl
@[simp] theorem onMem_evr (s : State) (f : MemState → MemState) : (s.onMem f).evr = s.evr := rfl
@[simp] theorem onMem_cap (s : State) (f : MemState → MemState) : (s.onMem f).cap = s.cap := rfl
@[simp] theorem onMem_dump (s : State) (f : MemState → MemState) : (s.onMem f).dump = s.dump := rfl
@[simp] theorem onMem_dp (s : State) (f : MemState → MemState) : (s.onMem f).dp = s.dp := rfl
@[simp] theorem onMem_draws (s : State) (f : MemState → MemState) : (s.onMem f).draws = s.draws := rfl
@[simp] theorem onMem_pending (s : State) (f : MemState → MemState) : (s.onMem f).pending = s.pending := rfl

@[simp] theorem onEvr_regs (s : State) (f : Evr → Evr) : (s.onEvr f).regs = s.regs := rfl
@[simp] theorem onEvr_staged (s : State) (f : Evr → Evr) : (s.onEvr f).staged = s.staged := rfl
@[simp] theorem onEvr_inForce (s : State) (f : Evr → Evr) : (s.onEvr f).inForce = s.inForce := rfl
@[simp] theorem onEvr_mgmt (s : State) (f : Evr → Evr) : (s.onEvr f).mgmt = s.mgmt := rfl
@[simp] theorem onEvr_boot (s : State) (f : Evr → Evr) : (s.onEvr f).boot = s.boot := rfl
@[simp] theorem onEvr_clk (s : State) (f : Evr → Evr) : (s.onEvr f).clk = s.clk := rfl
@[simp] theorem onEvr_pwr (s : State) (f : Evr → Evr) : (s.onEvr f).pwr = s.pwr := rfl
@[simp] theorem onEvr_hsk (s : State) (f : Evr → Evr) : (s.onEvr f).hsk = s.hsk := rfl
@[simp] theorem onEvr_bias (s : State) (f : Evr → Evr) : (s.onEvr f).bias = s.bias := rfl
@[simp] theorem onEvr_therm (s : State) (f : Evr → Evr) : (s.onEvr f).therm = s.therm := rfl
@[simp] theorem onEvr_safe (s : State) (f : Evr → Evr) : (s.onEvr f).safe = s.safe := rfl
@[simp] theorem onEvr_mem (s : State) (f : Evr → Evr) : (s.onEvr f).mem = s.mem := rfl
@[simp] theorem onEvr_eng (s : State) (f : Evr → Evr) : (s.onEvr f).eng = s.eng := rfl
@[simp] theorem onEvr_cap (s : State) (f : Evr → Evr) : (s.onEvr f).cap = s.cap := rfl
@[simp] theorem onEvr_dump (s : State) (f : Evr → Evr) : (s.onEvr f).dump = s.dump := rfl
@[simp] theorem onEvr_dp (s : State) (f : Evr → Evr) : (s.onEvr f).dp = s.dp := rfl
@[simp] theorem onEvr_draws (s : State) (f : Evr → Evr) : (s.onEvr f).draws = s.draws := rfl
@[simp] theorem onEvr_pending (s : State) (f : Evr → Evr) : (s.onEvr f).pending = s.pending := rfl

@[simp] theorem onPwr_regs (s : State) (f : Pwr → Pwr) : (s.onPwr f).regs = s.regs := rfl
@[simp] theorem onPwr_staged (s : State) (f : Pwr → Pwr) : (s.onPwr f).staged = s.staged := rfl
@[simp] theorem onPwr_inForce (s : State) (f : Pwr → Pwr) : (s.onPwr f).inForce = s.inForce := rfl
@[simp] theorem onPwr_mgmt (s : State) (f : Pwr → Pwr) : (s.onPwr f).mgmt = s.mgmt := rfl
@[simp] theorem onPwr_boot (s : State) (f : Pwr → Pwr) : (s.onPwr f).boot = s.boot := rfl
@[simp] theorem onPwr_clk (s : State) (f : Pwr → Pwr) : (s.onPwr f).clk = s.clk := rfl
@[simp] theorem onPwr_hsk (s : State) (f : Pwr → Pwr) : (s.onPwr f).hsk = s.hsk := rfl
@[simp] theorem onPwr_bias (s : State) (f : Pwr → Pwr) : (s.onPwr f).bias = s.bias := rfl
@[simp] theorem onPwr_therm (s : State) (f : Pwr → Pwr) : (s.onPwr f).therm = s.therm := rfl
@[simp] theorem onPwr_safe (s : State) (f : Pwr → Pwr) : (s.onPwr f).safe = s.safe := rfl
@[simp] theorem onPwr_mem (s : State) (f : Pwr → Pwr) : (s.onPwr f).mem = s.mem := rfl
@[simp] theorem onPwr_eng (s : State) (f : Pwr → Pwr) : (s.onPwr f).eng = s.eng := rfl
@[simp] theorem onPwr_evr (s : State) (f : Pwr → Pwr) : (s.onPwr f).evr = s.evr := rfl
@[simp] theorem onPwr_cap (s : State) (f : Pwr → Pwr) : (s.onPwr f).cap = s.cap := rfl
@[simp] theorem onPwr_dump (s : State) (f : Pwr → Pwr) : (s.onPwr f).dump = s.dump := rfl
@[simp] theorem onPwr_dp (s : State) (f : Pwr → Pwr) : (s.onPwr f).dp = s.dp := rfl
@[simp] theorem onPwr_draws (s : State) (f : Pwr → Pwr) : (s.onPwr f).draws = s.draws := rfl
@[simp] theorem onPwr_pending (s : State) (f : Pwr → Pwr) : (s.onPwr f).pending = s.pending := rfl

@[simp] theorem onClk_regs (s : State) (f : Clk → Clk) : (s.onClk f).regs = s.regs := rfl
@[simp] theorem onClk_staged (s : State) (f : Clk → Clk) : (s.onClk f).staged = s.staged := rfl
@[simp] theorem onClk_inForce (s : State) (f : Clk → Clk) : (s.onClk f).inForce = s.inForce := rfl
@[simp] theorem onClk_mgmt (s : State) (f : Clk → Clk) : (s.onClk f).mgmt = s.mgmt := rfl
@[simp] theorem onClk_boot (s : State) (f : Clk → Clk) : (s.onClk f).boot = s.boot := rfl
@[simp] theorem onClk_pwr (s : State) (f : Clk → Clk) : (s.onClk f).pwr = s.pwr := rfl
@[simp] theorem onClk_hsk (s : State) (f : Clk → Clk) : (s.onClk f).hsk = s.hsk := rfl
@[simp] theorem onClk_bias (s : State) (f : Clk → Clk) : (s.onClk f).bias = s.bias := rfl
@[simp] theorem onClk_therm (s : State) (f : Clk → Clk) : (s.onClk f).therm = s.therm := rfl
@[simp] theorem onClk_safe (s : State) (f : Clk → Clk) : (s.onClk f).safe = s.safe := rfl
@[simp] theorem onClk_mem (s : State) (f : Clk → Clk) : (s.onClk f).mem = s.mem := rfl
@[simp] theorem onClk_eng (s : State) (f : Clk → Clk) : (s.onClk f).eng = s.eng := rfl
@[simp] theorem onClk_evr (s : State) (f : Clk → Clk) : (s.onClk f).evr = s.evr := rfl
@[simp] theorem onClk_cap (s : State) (f : Clk → Clk) : (s.onClk f).cap = s.cap := rfl
@[simp] theorem onClk_dump (s : State) (f : Clk → Clk) : (s.onClk f).dump = s.dump := rfl
@[simp] theorem onClk_dp (s : State) (f : Clk → Clk) : (s.onClk f).dp = s.dp := rfl
@[simp] theorem onClk_draws (s : State) (f : Clk → Clk) : (s.onClk f).draws = s.draws := rfl
@[simp] theorem onClk_pending (s : State) (f : Clk → Clk) : (s.onClk f).pending = s.pending := rfl

@[simp] theorem onSafe_regs (s : State) (f : Safe → Safe) : (s.onSafe f).regs = s.regs := rfl
@[simp] theorem onSafe_staged (s : State) (f : Safe → Safe) : (s.onSafe f).staged = s.staged := rfl
@[simp] theorem onSafe_inForce (s : State) (f : Safe → Safe) : (s.onSafe f).inForce = s.inForce := rfl
@[simp] theorem onSafe_mgmt (s : State) (f : Safe → Safe) : (s.onSafe f).mgmt = s.mgmt := rfl
@[simp] theorem onSafe_boot (s : State) (f : Safe → Safe) : (s.onSafe f).boot = s.boot := rfl
@[simp] theorem onSafe_clk (s : State) (f : Safe → Safe) : (s.onSafe f).clk = s.clk := rfl
@[simp] theorem onSafe_pwr (s : State) (f : Safe → Safe) : (s.onSafe f).pwr = s.pwr := rfl
@[simp] theorem onSafe_hsk (s : State) (f : Safe → Safe) : (s.onSafe f).hsk = s.hsk := rfl
@[simp] theorem onSafe_bias (s : State) (f : Safe → Safe) : (s.onSafe f).bias = s.bias := rfl
@[simp] theorem onSafe_therm (s : State) (f : Safe → Safe) : (s.onSafe f).therm = s.therm := rfl
@[simp] theorem onSafe_mem (s : State) (f : Safe → Safe) : (s.onSafe f).mem = s.mem := rfl
@[simp] theorem onSafe_eng (s : State) (f : Safe → Safe) : (s.onSafe f).eng = s.eng := rfl
@[simp] theorem onSafe_evr (s : State) (f : Safe → Safe) : (s.onSafe f).evr = s.evr := rfl
@[simp] theorem onSafe_cap (s : State) (f : Safe → Safe) : (s.onSafe f).cap = s.cap := rfl
@[simp] theorem onSafe_dump (s : State) (f : Safe → Safe) : (s.onSafe f).dump = s.dump := rfl
@[simp] theorem onSafe_dp (s : State) (f : Safe → Safe) : (s.onSafe f).dp = s.dp := rfl
@[simp] theorem onSafe_draws (s : State) (f : Safe → Safe) : (s.onSafe f).draws = s.draws := rfl
@[simp] theorem onSafe_pending (s : State) (f : Safe → Safe) : (s.onSafe f).pending = s.pending := rfl

@[simp] theorem onHsk_regs (s : State) (f : Hsk → Hsk) : (s.onHsk f).regs = s.regs := rfl
@[simp] theorem onHsk_staged (s : State) (f : Hsk → Hsk) : (s.onHsk f).staged = s.staged := rfl
@[simp] theorem onHsk_inForce (s : State) (f : Hsk → Hsk) : (s.onHsk f).inForce = s.inForce := rfl
@[simp] theorem onHsk_mgmt (s : State) (f : Hsk → Hsk) : (s.onHsk f).mgmt = s.mgmt := rfl
@[simp] theorem onHsk_boot (s : State) (f : Hsk → Hsk) : (s.onHsk f).boot = s.boot := rfl
@[simp] theorem onHsk_clk (s : State) (f : Hsk → Hsk) : (s.onHsk f).clk = s.clk := rfl
@[simp] theorem onHsk_pwr (s : State) (f : Hsk → Hsk) : (s.onHsk f).pwr = s.pwr := rfl
@[simp] theorem onHsk_bias (s : State) (f : Hsk → Hsk) : (s.onHsk f).bias = s.bias := rfl
@[simp] theorem onHsk_therm (s : State) (f : Hsk → Hsk) : (s.onHsk f).therm = s.therm := rfl
@[simp] theorem onHsk_safe (s : State) (f : Hsk → Hsk) : (s.onHsk f).safe = s.safe := rfl
@[simp] theorem onHsk_mem (s : State) (f : Hsk → Hsk) : (s.onHsk f).mem = s.mem := rfl
@[simp] theorem onHsk_eng (s : State) (f : Hsk → Hsk) : (s.onHsk f).eng = s.eng := rfl
@[simp] theorem onHsk_evr (s : State) (f : Hsk → Hsk) : (s.onHsk f).evr = s.evr := rfl
@[simp] theorem onHsk_cap (s : State) (f : Hsk → Hsk) : (s.onHsk f).cap = s.cap := rfl
@[simp] theorem onHsk_dump (s : State) (f : Hsk → Hsk) : (s.onHsk f).dump = s.dump := rfl
@[simp] theorem onHsk_dp (s : State) (f : Hsk → Hsk) : (s.onHsk f).dp = s.dp := rfl
@[simp] theorem onHsk_draws (s : State) (f : Hsk → Hsk) : (s.onHsk f).draws = s.draws := rfl
@[simp] theorem onHsk_pending (s : State) (f : Hsk → Hsk) : (s.onHsk f).pending = s.pending := rfl

@[simp] theorem onBias_regs (s : State) (n : Fin 16) (f : BiasCh → BiasCh) : (s.onBias n f).regs = s.regs := rfl
@[simp] theorem onBias_staged (s : State) (n : Fin 16) (f : BiasCh → BiasCh) : (s.onBias n f).staged = s.staged := rfl
@[simp] theorem onBias_inForce (s : State) (n : Fin 16) (f : BiasCh → BiasCh) : (s.onBias n f).inForce = s.inForce := rfl
@[simp] theorem onBias_mgmt (s : State) (n : Fin 16) (f : BiasCh → BiasCh) : (s.onBias n f).mgmt = s.mgmt := rfl
@[simp] theorem onBias_boot (s : State) (n : Fin 16) (f : BiasCh → BiasCh) : (s.onBias n f).boot = s.boot := rfl
@[simp] theorem onBias_clk (s : State) (n : Fin 16) (f : BiasCh → BiasCh) : (s.onBias n f).clk = s.clk := rfl
@[simp] theorem onBias_pwr (s : State) (n : Fin 16) (f : BiasCh → BiasCh) : (s.onBias n f).pwr = s.pwr := rfl
@[simp] theorem onBias_hsk (s : State) (n : Fin 16) (f : BiasCh → BiasCh) : (s.onBias n f).hsk = s.hsk := rfl
@[simp] theorem onBias_therm (s : State) (n : Fin 16) (f : BiasCh → BiasCh) : (s.onBias n f).therm = s.therm := rfl
@[simp] theorem onBias_safe (s : State) (n : Fin 16) (f : BiasCh → BiasCh) : (s.onBias n f).safe = s.safe := rfl
@[simp] theorem onBias_mem (s : State) (n : Fin 16) (f : BiasCh → BiasCh) : (s.onBias n f).mem = s.mem := rfl
@[simp] theorem onBias_eng (s : State) (n : Fin 16) (f : BiasCh → BiasCh) : (s.onBias n f).eng = s.eng := rfl
@[simp] theorem onBias_evr (s : State) (n : Fin 16) (f : BiasCh → BiasCh) : (s.onBias n f).evr = s.evr := rfl
@[simp] theorem onBias_cap (s : State) (n : Fin 16) (f : BiasCh → BiasCh) : (s.onBias n f).cap = s.cap := rfl
@[simp] theorem onBias_dump (s : State) (n : Fin 16) (f : BiasCh → BiasCh) : (s.onBias n f).dump = s.dump := rfl
@[simp] theorem onBias_dp (s : State) (n : Fin 16) (f : BiasCh → BiasCh) : (s.onBias n f).dp = s.dp := rfl
@[simp] theorem onBias_draws (s : State) (n : Fin 16) (f : BiasCh → BiasCh) : (s.onBias n f).draws = s.draws := rfl
@[simp] theorem onBias_pending (s : State) (n : Fin 16) (f : BiasCh → BiasCh) : (s.onBias n f).pending = s.pending := rfl

@[simp] theorem onTherm_regs (s : State) (f : Therm → Therm) : (s.onTherm f).regs = s.regs := rfl
@[simp] theorem onTherm_staged (s : State) (f : Therm → Therm) : (s.onTherm f).staged = s.staged := rfl
@[simp] theorem onTherm_inForce (s : State) (f : Therm → Therm) : (s.onTherm f).inForce = s.inForce := rfl
@[simp] theorem onTherm_mgmt (s : State) (f : Therm → Therm) : (s.onTherm f).mgmt = s.mgmt := rfl
@[simp] theorem onTherm_boot (s : State) (f : Therm → Therm) : (s.onTherm f).boot = s.boot := rfl
@[simp] theorem onTherm_clk (s : State) (f : Therm → Therm) : (s.onTherm f).clk = s.clk := rfl
@[simp] theorem onTherm_pwr (s : State) (f : Therm → Therm) : (s.onTherm f).pwr = s.pwr := rfl
@[simp] theorem onTherm_hsk (s : State) (f : Therm → Therm) : (s.onTherm f).hsk = s.hsk := rfl
@[simp] theorem onTherm_bias (s : State) (f : Therm → Therm) : (s.onTherm f).bias = s.bias := rfl
@[simp] theorem onTherm_safe (s : State) (f : Therm → Therm) : (s.onTherm f).safe = s.safe := rfl
@[simp] theorem onTherm_mem (s : State) (f : Therm → Therm) : (s.onTherm f).mem = s.mem := rfl
@[simp] theorem onTherm_eng (s : State) (f : Therm → Therm) : (s.onTherm f).eng = s.eng := rfl
@[simp] theorem onTherm_evr (s : State) (f : Therm → Therm) : (s.onTherm f).evr = s.evr := rfl
@[simp] theorem onTherm_cap (s : State) (f : Therm → Therm) : (s.onTherm f).cap = s.cap := rfl
@[simp] theorem onTherm_dump (s : State) (f : Therm → Therm) : (s.onTherm f).dump = s.dump := rfl
@[simp] theorem onTherm_dp (s : State) (f : Therm → Therm) : (s.onTherm f).dp = s.dp := rfl
@[simp] theorem onTherm_draws (s : State) (f : Therm → Therm) : (s.onTherm f).draws = s.draws := rfl
@[simp] theorem onTherm_pending (s : State) (f : Therm → Therm) : (s.onTherm f).pending = s.pending := rfl

@[simp] theorem onCap_regs (s : State) (f : Cap → Cap) : (s.onCap f).regs = s.regs := rfl
@[simp] theorem onCap_staged (s : State) (f : Cap → Cap) : (s.onCap f).staged = s.staged := rfl
@[simp] theorem onCap_inForce (s : State) (f : Cap → Cap) : (s.onCap f).inForce = s.inForce := rfl
@[simp] theorem onCap_mgmt (s : State) (f : Cap → Cap) : (s.onCap f).mgmt = s.mgmt := rfl
@[simp] theorem onCap_boot (s : State) (f : Cap → Cap) : (s.onCap f).boot = s.boot := rfl
@[simp] theorem onCap_clk (s : State) (f : Cap → Cap) : (s.onCap f).clk = s.clk := rfl
@[simp] theorem onCap_pwr (s : State) (f : Cap → Cap) : (s.onCap f).pwr = s.pwr := rfl
@[simp] theorem onCap_hsk (s : State) (f : Cap → Cap) : (s.onCap f).hsk = s.hsk := rfl
@[simp] theorem onCap_bias (s : State) (f : Cap → Cap) : (s.onCap f).bias = s.bias := rfl
@[simp] theorem onCap_therm (s : State) (f : Cap → Cap) : (s.onCap f).therm = s.therm := rfl
@[simp] theorem onCap_safe (s : State) (f : Cap → Cap) : (s.onCap f).safe = s.safe := rfl
@[simp] theorem onCap_mem (s : State) (f : Cap → Cap) : (s.onCap f).mem = s.mem := rfl
@[simp] theorem onCap_eng (s : State) (f : Cap → Cap) : (s.onCap f).eng = s.eng := rfl
@[simp] theorem onCap_evr (s : State) (f : Cap → Cap) : (s.onCap f).evr = s.evr := rfl
@[simp] theorem onCap_dump (s : State) (f : Cap → Cap) : (s.onCap f).dump = s.dump := rfl
@[simp] theorem onCap_dp (s : State) (f : Cap → Cap) : (s.onCap f).dp = s.dp := rfl
@[simp] theorem onCap_draws (s : State) (f : Cap → Cap) : (s.onCap f).draws = s.draws := rfl
@[simp] theorem onCap_pending (s : State) (f : Cap → Cap) : (s.onCap f).pending = s.pending := rfl

@[simp] theorem onBoot_regs (s : State) (f : Boot → Boot) : (s.onBoot f).regs = s.regs := rfl
@[simp] theorem onBoot_staged (s : State) (f : Boot → Boot) : (s.onBoot f).staged = s.staged := rfl
@[simp] theorem onBoot_inForce (s : State) (f : Boot → Boot) : (s.onBoot f).inForce = s.inForce := rfl
@[simp] theorem onBoot_mgmt (s : State) (f : Boot → Boot) : (s.onBoot f).mgmt = s.mgmt := rfl
@[simp] theorem onBoot_clk (s : State) (f : Boot → Boot) : (s.onBoot f).clk = s.clk := rfl
@[simp] theorem onBoot_pwr (s : State) (f : Boot → Boot) : (s.onBoot f).pwr = s.pwr := rfl
@[simp] theorem onBoot_hsk (s : State) (f : Boot → Boot) : (s.onBoot f).hsk = s.hsk := rfl
@[simp] theorem onBoot_bias (s : State) (f : Boot → Boot) : (s.onBoot f).bias = s.bias := rfl
@[simp] theorem onBoot_therm (s : State) (f : Boot → Boot) : (s.onBoot f).therm = s.therm := rfl
@[simp] theorem onBoot_safe (s : State) (f : Boot → Boot) : (s.onBoot f).safe = s.safe := rfl
@[simp] theorem onBoot_mem (s : State) (f : Boot → Boot) : (s.onBoot f).mem = s.mem := rfl
@[simp] theorem onBoot_eng (s : State) (f : Boot → Boot) : (s.onBoot f).eng = s.eng := rfl
@[simp] theorem onBoot_evr (s : State) (f : Boot → Boot) : (s.onBoot f).evr = s.evr := rfl
@[simp] theorem onBoot_cap (s : State) (f : Boot → Boot) : (s.onBoot f).cap = s.cap := rfl
@[simp] theorem onBoot_dump (s : State) (f : Boot → Boot) : (s.onBoot f).dump = s.dump := rfl
@[simp] theorem onBoot_dp (s : State) (f : Boot → Boot) : (s.onBoot f).dp = s.dp := rfl
@[simp] theorem onBoot_draws (s : State) (f : Boot → Boot) : (s.onBoot f).draws = s.draws := rfl
@[simp] theorem onBoot_pending (s : State) (f : Boot → Boot) : (s.onBoot f).pending = s.pending := rfl

@[simp] theorem onMgmt_regs (s : State) (f : Mgmt → Mgmt) : (s.onMgmt f).regs = s.regs := rfl
@[simp] theorem onMgmt_staged (s : State) (f : Mgmt → Mgmt) : (s.onMgmt f).staged = s.staged := rfl
@[simp] theorem onMgmt_inForce (s : State) (f : Mgmt → Mgmt) : (s.onMgmt f).inForce = s.inForce := rfl
@[simp] theorem onMgmt_boot (s : State) (f : Mgmt → Mgmt) : (s.onMgmt f).boot = s.boot := rfl
@[simp] theorem onMgmt_clk (s : State) (f : Mgmt → Mgmt) : (s.onMgmt f).clk = s.clk := rfl
@[simp] theorem onMgmt_pwr (s : State) (f : Mgmt → Mgmt) : (s.onMgmt f).pwr = s.pwr := rfl
@[simp] theorem onMgmt_hsk (s : State) (f : Mgmt → Mgmt) : (s.onMgmt f).hsk = s.hsk := rfl
@[simp] theorem onMgmt_bias (s : State) (f : Mgmt → Mgmt) : (s.onMgmt f).bias = s.bias := rfl
@[simp] theorem onMgmt_therm (s : State) (f : Mgmt → Mgmt) : (s.onMgmt f).therm = s.therm := rfl
@[simp] theorem onMgmt_safe (s : State) (f : Mgmt → Mgmt) : (s.onMgmt f).safe = s.safe := rfl
@[simp] theorem onMgmt_mem (s : State) (f : Mgmt → Mgmt) : (s.onMgmt f).mem = s.mem := rfl
@[simp] theorem onMgmt_eng (s : State) (f : Mgmt → Mgmt) : (s.onMgmt f).eng = s.eng := rfl
@[simp] theorem onMgmt_evr (s : State) (f : Mgmt → Mgmt) : (s.onMgmt f).evr = s.evr := rfl
@[simp] theorem onMgmt_cap (s : State) (f : Mgmt → Mgmt) : (s.onMgmt f).cap = s.cap := rfl
@[simp] theorem onMgmt_dump (s : State) (f : Mgmt → Mgmt) : (s.onMgmt f).dump = s.dump := rfl
@[simp] theorem onMgmt_dp (s : State) (f : Mgmt → Mgmt) : (s.onMgmt f).dp = s.dp := rfl
@[simp] theorem onMgmt_draws (s : State) (f : Mgmt → Mgmt) : (s.onMgmt f).draws = s.draws := rfl
@[simp] theorem onMgmt_pending (s : State) (f : Mgmt → Mgmt) : (s.onMgmt f).pending = s.pending := rfl

@[simp] theorem onFramer_regs (s : State) (f : Framer → Framer) : (s.onFramer f).regs = s.regs := rfl
@[simp] theorem onFramer_staged (s : State) (f : Framer → Framer) : (s.onFramer f).staged = s.staged := rfl
@[simp] theorem onFramer_inForce (s : State) (f : Framer → Framer) : (s.onFramer f).inForce = s.inForce := rfl
@[simp] theorem onFramer_mgmt (s : State) (f : Framer → Framer) : (s.onFramer f).mgmt = s.mgmt := rfl
@[simp] theorem onFramer_boot (s : State) (f : Framer → Framer) : (s.onFramer f).boot = s.boot := rfl
@[simp] theorem onFramer_clk (s : State) (f : Framer → Framer) : (s.onFramer f).clk = s.clk := rfl
@[simp] theorem onFramer_pwr (s : State) (f : Framer → Framer) : (s.onFramer f).pwr = s.pwr := rfl
@[simp] theorem onFramer_hsk (s : State) (f : Framer → Framer) : (s.onFramer f).hsk = s.hsk := rfl
@[simp] theorem onFramer_bias (s : State) (f : Framer → Framer) : (s.onFramer f).bias = s.bias := rfl
@[simp] theorem onFramer_therm (s : State) (f : Framer → Framer) : (s.onFramer f).therm = s.therm := rfl
@[simp] theorem onFramer_safe (s : State) (f : Framer → Framer) : (s.onFramer f).safe = s.safe := rfl
@[simp] theorem onFramer_mem (s : State) (f : Framer → Framer) : (s.onFramer f).mem = s.mem := rfl
@[simp] theorem onFramer_eng (s : State) (f : Framer → Framer) : (s.onFramer f).eng = s.eng := rfl
@[simp] theorem onFramer_evr (s : State) (f : Framer → Framer) : (s.onFramer f).evr = s.evr := rfl
@[simp] theorem onFramer_cap (s : State) (f : Framer → Framer) : (s.onFramer f).cap = s.cap := rfl
@[simp] theorem onFramer_dump (s : State) (f : Framer → Framer) : (s.onFramer f).dump = s.dump := rfl
@[simp] theorem onFramer_draws (s : State) (f : Framer → Framer) : (s.onFramer f).draws = s.draws := rfl
@[simp] theorem onFramer_pending (s : State) (f : Framer → Framer) : (s.onFramer f).pending = s.pending := rfl
@[simp] theorem onFramer_dp_ports (s : State) (f : Framer → Framer) : (s.onFramer f).dp.ports = s.dp.ports := rfl
@[simp] theorem onFramer_dp_tx (s : State) (f : Framer → Framer) : (s.onFramer f).dp.tx = s.dp.tx := rfl
@[simp] theorem onFramer_dp_rx (s : State) (f : Framer → Framer) : (s.onFramer f).dp.rx = s.dp.rx := rfl
@[simp] theorem onFramer_dp_pool (s : State) (f : Framer → Framer) : (s.onFramer f).dp.pool = s.dp.pool := rfl
@[simp] theorem onFramer_dp_ledger (s : State) (f : Framer → Framer) : (s.onFramer f).dp.ledger = s.dp.ledger := rfl
@[simp] theorem onFramer_dp_link (s : State) (f : Framer → Framer) : (s.onFramer f).dp.link = s.dp.link := rfl
@[simp] theorem onFramer_dp_host (s : State) (f : Framer → Framer) : (s.onFramer f).dp.host = s.dp.host := rfl
@[simp] theorem onFramer_dp_pen (s : State) (f : Framer → Framer) : (s.onFramer f).dp.pen = s.dp.pen := rfl
@[simp] theorem onFramer_dp_time (s : State) (f : Framer → Framer) : (s.onFramer f).dp.time = s.dp.time := rfl

@[simp] theorem onPool_regs (s : State) (f : Pool → Pool) : (s.onPool f).regs = s.regs := rfl
@[simp] theorem onPool_staged (s : State) (f : Pool → Pool) : (s.onPool f).staged = s.staged := rfl
@[simp] theorem onPool_inForce (s : State) (f : Pool → Pool) : (s.onPool f).inForce = s.inForce := rfl
@[simp] theorem onPool_mgmt (s : State) (f : Pool → Pool) : (s.onPool f).mgmt = s.mgmt := rfl
@[simp] theorem onPool_boot (s : State) (f : Pool → Pool) : (s.onPool f).boot = s.boot := rfl
@[simp] theorem onPool_clk (s : State) (f : Pool → Pool) : (s.onPool f).clk = s.clk := rfl
@[simp] theorem onPool_pwr (s : State) (f : Pool → Pool) : (s.onPool f).pwr = s.pwr := rfl
@[simp] theorem onPool_hsk (s : State) (f : Pool → Pool) : (s.onPool f).hsk = s.hsk := rfl
@[simp] theorem onPool_bias (s : State) (f : Pool → Pool) : (s.onPool f).bias = s.bias := rfl
@[simp] theorem onPool_therm (s : State) (f : Pool → Pool) : (s.onPool f).therm = s.therm := rfl
@[simp] theorem onPool_safe (s : State) (f : Pool → Pool) : (s.onPool f).safe = s.safe := rfl
@[simp] theorem onPool_mem (s : State) (f : Pool → Pool) : (s.onPool f).mem = s.mem := rfl
@[simp] theorem onPool_eng (s : State) (f : Pool → Pool) : (s.onPool f).eng = s.eng := rfl
@[simp] theorem onPool_evr (s : State) (f : Pool → Pool) : (s.onPool f).evr = s.evr := rfl
@[simp] theorem onPool_cap (s : State) (f : Pool → Pool) : (s.onPool f).cap = s.cap := rfl
@[simp] theorem onPool_dump (s : State) (f : Pool → Pool) : (s.onPool f).dump = s.dump := rfl
@[simp] theorem onPool_draws (s : State) (f : Pool → Pool) : (s.onPool f).draws = s.draws := rfl
@[simp] theorem onPool_pending (s : State) (f : Pool → Pool) : (s.onPool f).pending = s.pending := rfl
@[simp] theorem onPool_dp_ports (s : State) (f : Pool → Pool) : (s.onPool f).dp.ports = s.dp.ports := rfl
@[simp] theorem onPool_dp_framer (s : State) (f : Pool → Pool) : (s.onPool f).dp.framer = s.dp.framer := rfl
@[simp] theorem onPool_dp_tx (s : State) (f : Pool → Pool) : (s.onPool f).dp.tx = s.dp.tx := rfl
@[simp] theorem onPool_dp_rx (s : State) (f : Pool → Pool) : (s.onPool f).dp.rx = s.dp.rx := rfl
@[simp] theorem onPool_dp_ledger (s : State) (f : Pool → Pool) : (s.onPool f).dp.ledger = s.dp.ledger := rfl
@[simp] theorem onPool_dp_link (s : State) (f : Pool → Pool) : (s.onPool f).dp.link = s.dp.link := rfl
@[simp] theorem onPool_dp_host (s : State) (f : Pool → Pool) : (s.onPool f).dp.host = s.dp.host := rfl
@[simp] theorem onPool_dp_pen (s : State) (f : Pool → Pool) : (s.onPool f).dp.pen = s.dp.pen := rfl
@[simp] theorem onPool_dp_time (s : State) (f : Pool → Pool) : (s.onPool f).dp.time = s.dp.time := rfl

@[simp] theorem onLedger_regs (s : State) (f : Ledger → Ledger) : (s.onLedger f).regs = s.regs := rfl
@[simp] theorem onLedger_staged (s : State) (f : Ledger → Ledger) : (s.onLedger f).staged = s.staged := rfl
@[simp] theorem onLedger_inForce (s : State) (f : Ledger → Ledger) : (s.onLedger f).inForce = s.inForce := rfl
@[simp] theorem onLedger_mgmt (s : State) (f : Ledger → Ledger) : (s.onLedger f).mgmt = s.mgmt := rfl
@[simp] theorem onLedger_boot (s : State) (f : Ledger → Ledger) : (s.onLedger f).boot = s.boot := rfl
@[simp] theorem onLedger_clk (s : State) (f : Ledger → Ledger) : (s.onLedger f).clk = s.clk := rfl
@[simp] theorem onLedger_pwr (s : State) (f : Ledger → Ledger) : (s.onLedger f).pwr = s.pwr := rfl
@[simp] theorem onLedger_hsk (s : State) (f : Ledger → Ledger) : (s.onLedger f).hsk = s.hsk := rfl
@[simp] theorem onLedger_bias (s : State) (f : Ledger → Ledger) : (s.onLedger f).bias = s.bias := rfl
@[simp] theorem onLedger_therm (s : State) (f : Ledger → Ledger) : (s.onLedger f).therm = s.therm := rfl
@[simp] theorem onLedger_safe (s : State) (f : Ledger → Ledger) : (s.onLedger f).safe = s.safe := rfl
@[simp] theorem onLedger_mem (s : State) (f : Ledger → Ledger) : (s.onLedger f).mem = s.mem := rfl
@[simp] theorem onLedger_eng (s : State) (f : Ledger → Ledger) : (s.onLedger f).eng = s.eng := rfl
@[simp] theorem onLedger_evr (s : State) (f : Ledger → Ledger) : (s.onLedger f).evr = s.evr := rfl
@[simp] theorem onLedger_cap (s : State) (f : Ledger → Ledger) : (s.onLedger f).cap = s.cap := rfl
@[simp] theorem onLedger_dump (s : State) (f : Ledger → Ledger) : (s.onLedger f).dump = s.dump := rfl
@[simp] theorem onLedger_draws (s : State) (f : Ledger → Ledger) : (s.onLedger f).draws = s.draws := rfl
@[simp] theorem onLedger_pending (s : State) (f : Ledger → Ledger) : (s.onLedger f).pending = s.pending := rfl
@[simp] theorem onLedger_dp_ports (s : State) (f : Ledger → Ledger) : (s.onLedger f).dp.ports = s.dp.ports := rfl
@[simp] theorem onLedger_dp_framer (s : State) (f : Ledger → Ledger) : (s.onLedger f).dp.framer = s.dp.framer := rfl
@[simp] theorem onLedger_dp_tx (s : State) (f : Ledger → Ledger) : (s.onLedger f).dp.tx = s.dp.tx := rfl
@[simp] theorem onLedger_dp_rx (s : State) (f : Ledger → Ledger) : (s.onLedger f).dp.rx = s.dp.rx := rfl
@[simp] theorem onLedger_dp_pool (s : State) (f : Ledger → Ledger) : (s.onLedger f).dp.pool = s.dp.pool := rfl
@[simp] theorem onLedger_dp_link (s : State) (f : Ledger → Ledger) : (s.onLedger f).dp.link = s.dp.link := rfl
@[simp] theorem onLedger_dp_host (s : State) (f : Ledger → Ledger) : (s.onLedger f).dp.host = s.dp.host := rfl
@[simp] theorem onLedger_dp_pen (s : State) (f : Ledger → Ledger) : (s.onLedger f).dp.pen = s.dp.pen := rfl
@[simp] theorem onLedger_dp_time (s : State) (f : Ledger → Ledger) : (s.onLedger f).dp.time = s.dp.time := rfl

@[simp] theorem onLink_regs (s : State) (f : Link → Link) : (s.onLink f).regs = s.regs := rfl
@[simp] theorem onLink_staged (s : State) (f : Link → Link) : (s.onLink f).staged = s.staged := rfl
@[simp] theorem onLink_inForce (s : State) (f : Link → Link) : (s.onLink f).inForce = s.inForce := rfl
@[simp] theorem onLink_mgmt (s : State) (f : Link → Link) : (s.onLink f).mgmt = s.mgmt := rfl
@[simp] theorem onLink_boot (s : State) (f : Link → Link) : (s.onLink f).boot = s.boot := rfl
@[simp] theorem onLink_clk (s : State) (f : Link → Link) : (s.onLink f).clk = s.clk := rfl
@[simp] theorem onLink_pwr (s : State) (f : Link → Link) : (s.onLink f).pwr = s.pwr := rfl
@[simp] theorem onLink_hsk (s : State) (f : Link → Link) : (s.onLink f).hsk = s.hsk := rfl
@[simp] theorem onLink_bias (s : State) (f : Link → Link) : (s.onLink f).bias = s.bias := rfl
@[simp] theorem onLink_therm (s : State) (f : Link → Link) : (s.onLink f).therm = s.therm := rfl
@[simp] theorem onLink_safe (s : State) (f : Link → Link) : (s.onLink f).safe = s.safe := rfl
@[simp] theorem onLink_mem (s : State) (f : Link → Link) : (s.onLink f).mem = s.mem := rfl
@[simp] theorem onLink_eng (s : State) (f : Link → Link) : (s.onLink f).eng = s.eng := rfl
@[simp] theorem onLink_evr (s : State) (f : Link → Link) : (s.onLink f).evr = s.evr := rfl
@[simp] theorem onLink_cap (s : State) (f : Link → Link) : (s.onLink f).cap = s.cap := rfl
@[simp] theorem onLink_dump (s : State) (f : Link → Link) : (s.onLink f).dump = s.dump := rfl
@[simp] theorem onLink_draws (s : State) (f : Link → Link) : (s.onLink f).draws = s.draws := rfl
@[simp] theorem onLink_pending (s : State) (f : Link → Link) : (s.onLink f).pending = s.pending := rfl
@[simp] theorem onLink_dp_ports (s : State) (f : Link → Link) : (s.onLink f).dp.ports = s.dp.ports := rfl
@[simp] theorem onLink_dp_framer (s : State) (f : Link → Link) : (s.onLink f).dp.framer = s.dp.framer := rfl
@[simp] theorem onLink_dp_tx (s : State) (f : Link → Link) : (s.onLink f).dp.tx = s.dp.tx := rfl
@[simp] theorem onLink_dp_rx (s : State) (f : Link → Link) : (s.onLink f).dp.rx = s.dp.rx := rfl
@[simp] theorem onLink_dp_pool (s : State) (f : Link → Link) : (s.onLink f).dp.pool = s.dp.pool := rfl
@[simp] theorem onLink_dp_ledger (s : State) (f : Link → Link) : (s.onLink f).dp.ledger = s.dp.ledger := rfl
@[simp] theorem onLink_dp_host (s : State) (f : Link → Link) : (s.onLink f).dp.host = s.dp.host := rfl
@[simp] theorem onLink_dp_pen (s : State) (f : Link → Link) : (s.onLink f).dp.pen = s.dp.pen := rfl
@[simp] theorem onLink_dp_time (s : State) (f : Link → Link) : (s.onLink f).dp.time = s.dp.time := rfl

@[simp] theorem onPen_regs (s : State) (f : Pen → Pen) : (s.onPen f).regs = s.regs := rfl
@[simp] theorem onPen_staged (s : State) (f : Pen → Pen) : (s.onPen f).staged = s.staged := rfl
@[simp] theorem onPen_inForce (s : State) (f : Pen → Pen) : (s.onPen f).inForce = s.inForce := rfl
@[simp] theorem onPen_mgmt (s : State) (f : Pen → Pen) : (s.onPen f).mgmt = s.mgmt := rfl
@[simp] theorem onPen_boot (s : State) (f : Pen → Pen) : (s.onPen f).boot = s.boot := rfl
@[simp] theorem onPen_clk (s : State) (f : Pen → Pen) : (s.onPen f).clk = s.clk := rfl
@[simp] theorem onPen_pwr (s : State) (f : Pen → Pen) : (s.onPen f).pwr = s.pwr := rfl
@[simp] theorem onPen_hsk (s : State) (f : Pen → Pen) : (s.onPen f).hsk = s.hsk := rfl
@[simp] theorem onPen_bias (s : State) (f : Pen → Pen) : (s.onPen f).bias = s.bias := rfl
@[simp] theorem onPen_therm (s : State) (f : Pen → Pen) : (s.onPen f).therm = s.therm := rfl
@[simp] theorem onPen_safe (s : State) (f : Pen → Pen) : (s.onPen f).safe = s.safe := rfl
@[simp] theorem onPen_mem (s : State) (f : Pen → Pen) : (s.onPen f).mem = s.mem := rfl
@[simp] theorem onPen_eng (s : State) (f : Pen → Pen) : (s.onPen f).eng = s.eng := rfl
@[simp] theorem onPen_evr (s : State) (f : Pen → Pen) : (s.onPen f).evr = s.evr := rfl
@[simp] theorem onPen_cap (s : State) (f : Pen → Pen) : (s.onPen f).cap = s.cap := rfl
@[simp] theorem onPen_dump (s : State) (f : Pen → Pen) : (s.onPen f).dump = s.dump := rfl
@[simp] theorem onPen_draws (s : State) (f : Pen → Pen) : (s.onPen f).draws = s.draws := rfl
@[simp] theorem onPen_pending (s : State) (f : Pen → Pen) : (s.onPen f).pending = s.pending := rfl
@[simp] theorem onPen_dp_ports (s : State) (f : Pen → Pen) : (s.onPen f).dp.ports = s.dp.ports := rfl
@[simp] theorem onPen_dp_framer (s : State) (f : Pen → Pen) : (s.onPen f).dp.framer = s.dp.framer := rfl
@[simp] theorem onPen_dp_tx (s : State) (f : Pen → Pen) : (s.onPen f).dp.tx = s.dp.tx := rfl
@[simp] theorem onPen_dp_rx (s : State) (f : Pen → Pen) : (s.onPen f).dp.rx = s.dp.rx := rfl
@[simp] theorem onPen_dp_pool (s : State) (f : Pen → Pen) : (s.onPen f).dp.pool = s.dp.pool := rfl
@[simp] theorem onPen_dp_ledger (s : State) (f : Pen → Pen) : (s.onPen f).dp.ledger = s.dp.ledger := rfl
@[simp] theorem onPen_dp_link (s : State) (f : Pen → Pen) : (s.onPen f).dp.link = s.dp.link := rfl
@[simp] theorem onPen_dp_host (s : State) (f : Pen → Pen) : (s.onPen f).dp.host = s.dp.host := rfl
@[simp] theorem onPen_dp_time (s : State) (f : Pen → Pen) : (s.onPen f).dp.time = s.dp.time := rfl

@[simp] theorem onTime_regs (s : State) (f : TimeSt → TimeSt) : (s.onTime f).regs = s.regs := rfl
@[simp] theorem onTime_staged (s : State) (f : TimeSt → TimeSt) : (s.onTime f).staged = s.staged := rfl
@[simp] theorem onTime_inForce (s : State) (f : TimeSt → TimeSt) : (s.onTime f).inForce = s.inForce := rfl
@[simp] theorem onTime_mgmt (s : State) (f : TimeSt → TimeSt) : (s.onTime f).mgmt = s.mgmt := rfl
@[simp] theorem onTime_boot (s : State) (f : TimeSt → TimeSt) : (s.onTime f).boot = s.boot := rfl
@[simp] theorem onTime_clk (s : State) (f : TimeSt → TimeSt) : (s.onTime f).clk = s.clk := rfl
@[simp] theorem onTime_pwr (s : State) (f : TimeSt → TimeSt) : (s.onTime f).pwr = s.pwr := rfl
@[simp] theorem onTime_hsk (s : State) (f : TimeSt → TimeSt) : (s.onTime f).hsk = s.hsk := rfl
@[simp] theorem onTime_bias (s : State) (f : TimeSt → TimeSt) : (s.onTime f).bias = s.bias := rfl
@[simp] theorem onTime_therm (s : State) (f : TimeSt → TimeSt) : (s.onTime f).therm = s.therm := rfl
@[simp] theorem onTime_safe (s : State) (f : TimeSt → TimeSt) : (s.onTime f).safe = s.safe := rfl
@[simp] theorem onTime_mem (s : State) (f : TimeSt → TimeSt) : (s.onTime f).mem = s.mem := rfl
@[simp] theorem onTime_eng (s : State) (f : TimeSt → TimeSt) : (s.onTime f).eng = s.eng := rfl
@[simp] theorem onTime_evr (s : State) (f : TimeSt → TimeSt) : (s.onTime f).evr = s.evr := rfl
@[simp] theorem onTime_cap (s : State) (f : TimeSt → TimeSt) : (s.onTime f).cap = s.cap := rfl
@[simp] theorem onTime_dump (s : State) (f : TimeSt → TimeSt) : (s.onTime f).dump = s.dump := rfl
@[simp] theorem onTime_draws (s : State) (f : TimeSt → TimeSt) : (s.onTime f).draws = s.draws := rfl
@[simp] theorem onTime_pending (s : State) (f : TimeSt → TimeSt) : (s.onTime f).pending = s.pending := rfl
@[simp] theorem onTime_dp_ports (s : State) (f : TimeSt → TimeSt) : (s.onTime f).dp.ports = s.dp.ports := rfl
@[simp] theorem onTime_dp_framer (s : State) (f : TimeSt → TimeSt) : (s.onTime f).dp.framer = s.dp.framer := rfl
@[simp] theorem onTime_dp_tx (s : State) (f : TimeSt → TimeSt) : (s.onTime f).dp.tx = s.dp.tx := rfl
@[simp] theorem onTime_dp_rx (s : State) (f : TimeSt → TimeSt) : (s.onTime f).dp.rx = s.dp.rx := rfl
@[simp] theorem onTime_dp_pool (s : State) (f : TimeSt → TimeSt) : (s.onTime f).dp.pool = s.dp.pool := rfl
@[simp] theorem onTime_dp_ledger (s : State) (f : TimeSt → TimeSt) : (s.onTime f).dp.ledger = s.dp.ledger := rfl
@[simp] theorem onTime_dp_link (s : State) (f : TimeSt → TimeSt) : (s.onTime f).dp.link = s.dp.link := rfl
@[simp] theorem onTime_dp_host (s : State) (f : TimeSt → TimeSt) : (s.onTime f).dp.host = s.dp.host := rfl
@[simp] theorem onTime_dp_pen (s : State) (f : TimeSt → TimeSt) : (s.onTime f).dp.pen = s.dp.pen := rfl

@[simp] theorem onTx_regs (s : State) (n : Fin 8) (f : TxLane → TxLane) : (s.onTx n f).regs = s.regs := rfl
@[simp] theorem onTx_staged (s : State) (n : Fin 8) (f : TxLane → TxLane) : (s.onTx n f).staged = s.staged := rfl
@[simp] theorem onTx_inForce (s : State) (n : Fin 8) (f : TxLane → TxLane) : (s.onTx n f).inForce = s.inForce := rfl
@[simp] theorem onTx_mgmt (s : State) (n : Fin 8) (f : TxLane → TxLane) : (s.onTx n f).mgmt = s.mgmt := rfl
@[simp] theorem onTx_boot (s : State) (n : Fin 8) (f : TxLane → TxLane) : (s.onTx n f).boot = s.boot := rfl
@[simp] theorem onTx_clk (s : State) (n : Fin 8) (f : TxLane → TxLane) : (s.onTx n f).clk = s.clk := rfl
@[simp] theorem onTx_pwr (s : State) (n : Fin 8) (f : TxLane → TxLane) : (s.onTx n f).pwr = s.pwr := rfl
@[simp] theorem onTx_hsk (s : State) (n : Fin 8) (f : TxLane → TxLane) : (s.onTx n f).hsk = s.hsk := rfl
@[simp] theorem onTx_bias (s : State) (n : Fin 8) (f : TxLane → TxLane) : (s.onTx n f).bias = s.bias := rfl
@[simp] theorem onTx_therm (s : State) (n : Fin 8) (f : TxLane → TxLane) : (s.onTx n f).therm = s.therm := rfl
@[simp] theorem onTx_safe (s : State) (n : Fin 8) (f : TxLane → TxLane) : (s.onTx n f).safe = s.safe := rfl
@[simp] theorem onTx_mem (s : State) (n : Fin 8) (f : TxLane → TxLane) : (s.onTx n f).mem = s.mem := rfl
@[simp] theorem onTx_eng (s : State) (n : Fin 8) (f : TxLane → TxLane) : (s.onTx n f).eng = s.eng := rfl
@[simp] theorem onTx_evr (s : State) (n : Fin 8) (f : TxLane → TxLane) : (s.onTx n f).evr = s.evr := rfl
@[simp] theorem onTx_cap (s : State) (n : Fin 8) (f : TxLane → TxLane) : (s.onTx n f).cap = s.cap := rfl
@[simp] theorem onTx_dump (s : State) (n : Fin 8) (f : TxLane → TxLane) : (s.onTx n f).dump = s.dump := rfl
@[simp] theorem onTx_draws (s : State) (n : Fin 8) (f : TxLane → TxLane) : (s.onTx n f).draws = s.draws := rfl
@[simp] theorem onTx_pending (s : State) (n : Fin 8) (f : TxLane → TxLane) : (s.onTx n f).pending = s.pending := rfl
@[simp] theorem onTx_dp_ports (s : State) (n : Fin 8) (f : TxLane → TxLane) : (s.onTx n f).dp.ports = s.dp.ports := rfl
@[simp] theorem onTx_dp_framer (s : State) (n : Fin 8) (f : TxLane → TxLane) : (s.onTx n f).dp.framer = s.dp.framer := rfl
@[simp] theorem onTx_dp_rx (s : State) (n : Fin 8) (f : TxLane → TxLane) : (s.onTx n f).dp.rx = s.dp.rx := rfl
@[simp] theorem onTx_dp_pool (s : State) (n : Fin 8) (f : TxLane → TxLane) : (s.onTx n f).dp.pool = s.dp.pool := rfl
@[simp] theorem onTx_dp_ledger (s : State) (n : Fin 8) (f : TxLane → TxLane) : (s.onTx n f).dp.ledger = s.dp.ledger := rfl
@[simp] theorem onTx_dp_link (s : State) (n : Fin 8) (f : TxLane → TxLane) : (s.onTx n f).dp.link = s.dp.link := rfl
@[simp] theorem onTx_dp_host (s : State) (n : Fin 8) (f : TxLane → TxLane) : (s.onTx n f).dp.host = s.dp.host := rfl
@[simp] theorem onTx_dp_pen (s : State) (n : Fin 8) (f : TxLane → TxLane) : (s.onTx n f).dp.pen = s.dp.pen := rfl
@[simp] theorem onTx_dp_time (s : State) (n : Fin 8) (f : TxLane → TxLane) : (s.onTx n f).dp.time = s.dp.time := rfl

@[simp] theorem onRx_regs (s : State) (n : Fin 8) (f : RxLane → RxLane) : (s.onRx n f).regs = s.regs := rfl
@[simp] theorem onRx_staged (s : State) (n : Fin 8) (f : RxLane → RxLane) : (s.onRx n f).staged = s.staged := rfl
@[simp] theorem onRx_inForce (s : State) (n : Fin 8) (f : RxLane → RxLane) : (s.onRx n f).inForce = s.inForce := rfl
@[simp] theorem onRx_mgmt (s : State) (n : Fin 8) (f : RxLane → RxLane) : (s.onRx n f).mgmt = s.mgmt := rfl
@[simp] theorem onRx_boot (s : State) (n : Fin 8) (f : RxLane → RxLane) : (s.onRx n f).boot = s.boot := rfl
@[simp] theorem onRx_clk (s : State) (n : Fin 8) (f : RxLane → RxLane) : (s.onRx n f).clk = s.clk := rfl
@[simp] theorem onRx_pwr (s : State) (n : Fin 8) (f : RxLane → RxLane) : (s.onRx n f).pwr = s.pwr := rfl
@[simp] theorem onRx_hsk (s : State) (n : Fin 8) (f : RxLane → RxLane) : (s.onRx n f).hsk = s.hsk := rfl
@[simp] theorem onRx_bias (s : State) (n : Fin 8) (f : RxLane → RxLane) : (s.onRx n f).bias = s.bias := rfl
@[simp] theorem onRx_therm (s : State) (n : Fin 8) (f : RxLane → RxLane) : (s.onRx n f).therm = s.therm := rfl
@[simp] theorem onRx_safe (s : State) (n : Fin 8) (f : RxLane → RxLane) : (s.onRx n f).safe = s.safe := rfl
@[simp] theorem onRx_mem (s : State) (n : Fin 8) (f : RxLane → RxLane) : (s.onRx n f).mem = s.mem := rfl
@[simp] theorem onRx_eng (s : State) (n : Fin 8) (f : RxLane → RxLane) : (s.onRx n f).eng = s.eng := rfl
@[simp] theorem onRx_evr (s : State) (n : Fin 8) (f : RxLane → RxLane) : (s.onRx n f).evr = s.evr := rfl
@[simp] theorem onRx_cap (s : State) (n : Fin 8) (f : RxLane → RxLane) : (s.onRx n f).cap = s.cap := rfl
@[simp] theorem onRx_dump (s : State) (n : Fin 8) (f : RxLane → RxLane) : (s.onRx n f).dump = s.dump := rfl
@[simp] theorem onRx_draws (s : State) (n : Fin 8) (f : RxLane → RxLane) : (s.onRx n f).draws = s.draws := rfl
@[simp] theorem onRx_pending (s : State) (n : Fin 8) (f : RxLane → RxLane) : (s.onRx n f).pending = s.pending := rfl
@[simp] theorem onRx_dp_ports (s : State) (n : Fin 8) (f : RxLane → RxLane) : (s.onRx n f).dp.ports = s.dp.ports := rfl
@[simp] theorem onRx_dp_framer (s : State) (n : Fin 8) (f : RxLane → RxLane) : (s.onRx n f).dp.framer = s.dp.framer := rfl
@[simp] theorem onRx_dp_tx (s : State) (n : Fin 8) (f : RxLane → RxLane) : (s.onRx n f).dp.tx = s.dp.tx := rfl
@[simp] theorem onRx_dp_pool (s : State) (n : Fin 8) (f : RxLane → RxLane) : (s.onRx n f).dp.pool = s.dp.pool := rfl
@[simp] theorem onRx_dp_ledger (s : State) (n : Fin 8) (f : RxLane → RxLane) : (s.onRx n f).dp.ledger = s.dp.ledger := rfl
@[simp] theorem onRx_dp_link (s : State) (n : Fin 8) (f : RxLane → RxLane) : (s.onRx n f).dp.link = s.dp.link := rfl
@[simp] theorem onRx_dp_host (s : State) (n : Fin 8) (f : RxLane → RxLane) : (s.onRx n f).dp.host = s.dp.host := rfl
@[simp] theorem onRx_dp_pen (s : State) (n : Fin 8) (f : RxLane → RxLane) : (s.onRx n f).dp.pen = s.dp.pen := rfl
@[simp] theorem onRx_dp_time (s : State) (n : Fin 8) (f : RxLane → RxLane) : (s.onRx n f).dp.time = s.dp.time := rfl

@[simp] theorem onEqu_regs (s : State) (n : Fin 8) (f : Equ → Equ) : (s.onEqu n f).regs = s.regs := rfl
@[simp] theorem onEqu_staged (s : State) (n : Fin 8) (f : Equ → Equ) : (s.onEqu n f).staged = s.staged := rfl
@[simp] theorem onEqu_inForce (s : State) (n : Fin 8) (f : Equ → Equ) : (s.onEqu n f).inForce = s.inForce := rfl
@[simp] theorem onEqu_mgmt (s : State) (n : Fin 8) (f : Equ → Equ) : (s.onEqu n f).mgmt = s.mgmt := rfl
@[simp] theorem onEqu_boot (s : State) (n : Fin 8) (f : Equ → Equ) : (s.onEqu n f).boot = s.boot := rfl
@[simp] theorem onEqu_clk (s : State) (n : Fin 8) (f : Equ → Equ) : (s.onEqu n f).clk = s.clk := rfl
@[simp] theorem onEqu_pwr (s : State) (n : Fin 8) (f : Equ → Equ) : (s.onEqu n f).pwr = s.pwr := rfl
@[simp] theorem onEqu_hsk (s : State) (n : Fin 8) (f : Equ → Equ) : (s.onEqu n f).hsk = s.hsk := rfl
@[simp] theorem onEqu_bias (s : State) (n : Fin 8) (f : Equ → Equ) : (s.onEqu n f).bias = s.bias := rfl
@[simp] theorem onEqu_therm (s : State) (n : Fin 8) (f : Equ → Equ) : (s.onEqu n f).therm = s.therm := rfl
@[simp] theorem onEqu_safe (s : State) (n : Fin 8) (f : Equ → Equ) : (s.onEqu n f).safe = s.safe := rfl
@[simp] theorem onEqu_mem (s : State) (n : Fin 8) (f : Equ → Equ) : (s.onEqu n f).mem = s.mem := rfl
@[simp] theorem onEqu_eng (s : State) (n : Fin 8) (f : Equ → Equ) : (s.onEqu n f).eng = s.eng := rfl
@[simp] theorem onEqu_evr (s : State) (n : Fin 8) (f : Equ → Equ) : (s.onEqu n f).evr = s.evr := rfl
@[simp] theorem onEqu_cap (s : State) (n : Fin 8) (f : Equ → Equ) : (s.onEqu n f).cap = s.cap := rfl
@[simp] theorem onEqu_dump (s : State) (n : Fin 8) (f : Equ → Equ) : (s.onEqu n f).dump = s.dump := rfl
@[simp] theorem onEqu_draws (s : State) (n : Fin 8) (f : Equ → Equ) : (s.onEqu n f).draws = s.draws := rfl
@[simp] theorem onEqu_pending (s : State) (n : Fin 8) (f : Equ → Equ) : (s.onEqu n f).pending = s.pending := rfl
@[simp] theorem onEqu_dp_ports (s : State) (n : Fin 8) (f : Equ → Equ) : (s.onEqu n f).dp.ports = s.dp.ports := rfl
@[simp] theorem onEqu_dp_framer (s : State) (n : Fin 8) (f : Equ → Equ) : (s.onEqu n f).dp.framer = s.dp.framer := rfl
@[simp] theorem onEqu_dp_tx (s : State) (n : Fin 8) (f : Equ → Equ) : (s.onEqu n f).dp.tx = s.dp.tx := rfl
@[simp] theorem onEqu_dp_pool (s : State) (n : Fin 8) (f : Equ → Equ) : (s.onEqu n f).dp.pool = s.dp.pool := rfl
@[simp] theorem onEqu_dp_ledger (s : State) (n : Fin 8) (f : Equ → Equ) : (s.onEqu n f).dp.ledger = s.dp.ledger := rfl
@[simp] theorem onEqu_dp_link (s : State) (n : Fin 8) (f : Equ → Equ) : (s.onEqu n f).dp.link = s.dp.link := rfl
@[simp] theorem onEqu_dp_host (s : State) (n : Fin 8) (f : Equ → Equ) : (s.onEqu n f).dp.host = s.dp.host := rfl
@[simp] theorem onEqu_dp_pen (s : State) (n : Fin 8) (f : Equ → Equ) : (s.onEqu n f).dp.pen = s.dp.pen := rfl
@[simp] theorem onEqu_dp_time (s : State) (n : Fin 8) (f : Equ → Equ) : (s.onEqu n f).dp.time = s.dp.time := rfl

@[simp] theorem onAdc_regs (s : State) (n : Fin 8) (f : AdcCal → AdcCal) : (s.onAdc n f).regs = s.regs := rfl
@[simp] theorem onAdc_staged (s : State) (n : Fin 8) (f : AdcCal → AdcCal) : (s.onAdc n f).staged = s.staged := rfl
@[simp] theorem onAdc_inForce (s : State) (n : Fin 8) (f : AdcCal → AdcCal) : (s.onAdc n f).inForce = s.inForce := rfl
@[simp] theorem onAdc_mgmt (s : State) (n : Fin 8) (f : AdcCal → AdcCal) : (s.onAdc n f).mgmt = s.mgmt := rfl
@[simp] theorem onAdc_boot (s : State) (n : Fin 8) (f : AdcCal → AdcCal) : (s.onAdc n f).boot = s.boot := rfl
@[simp] theorem onAdc_clk (s : State) (n : Fin 8) (f : AdcCal → AdcCal) : (s.onAdc n f).clk = s.clk := rfl
@[simp] theorem onAdc_pwr (s : State) (n : Fin 8) (f : AdcCal → AdcCal) : (s.onAdc n f).pwr = s.pwr := rfl
@[simp] theorem onAdc_hsk (s : State) (n : Fin 8) (f : AdcCal → AdcCal) : (s.onAdc n f).hsk = s.hsk := rfl
@[simp] theorem onAdc_bias (s : State) (n : Fin 8) (f : AdcCal → AdcCal) : (s.onAdc n f).bias = s.bias := rfl
@[simp] theorem onAdc_therm (s : State) (n : Fin 8) (f : AdcCal → AdcCal) : (s.onAdc n f).therm = s.therm := rfl
@[simp] theorem onAdc_safe (s : State) (n : Fin 8) (f : AdcCal → AdcCal) : (s.onAdc n f).safe = s.safe := rfl
@[simp] theorem onAdc_mem (s : State) (n : Fin 8) (f : AdcCal → AdcCal) : (s.onAdc n f).mem = s.mem := rfl
@[simp] theorem onAdc_eng (s : State) (n : Fin 8) (f : AdcCal → AdcCal) : (s.onAdc n f).eng = s.eng := rfl
@[simp] theorem onAdc_evr (s : State) (n : Fin 8) (f : AdcCal → AdcCal) : (s.onAdc n f).evr = s.evr := rfl
@[simp] theorem onAdc_cap (s : State) (n : Fin 8) (f : AdcCal → AdcCal) : (s.onAdc n f).cap = s.cap := rfl
@[simp] theorem onAdc_dump (s : State) (n : Fin 8) (f : AdcCal → AdcCal) : (s.onAdc n f).dump = s.dump := rfl
@[simp] theorem onAdc_draws (s : State) (n : Fin 8) (f : AdcCal → AdcCal) : (s.onAdc n f).draws = s.draws := rfl
@[simp] theorem onAdc_pending (s : State) (n : Fin 8) (f : AdcCal → AdcCal) : (s.onAdc n f).pending = s.pending := rfl
@[simp] theorem onAdc_dp_ports (s : State) (n : Fin 8) (f : AdcCal → AdcCal) : (s.onAdc n f).dp.ports = s.dp.ports := rfl
@[simp] theorem onAdc_dp_framer (s : State) (n : Fin 8) (f : AdcCal → AdcCal) : (s.onAdc n f).dp.framer = s.dp.framer := rfl
@[simp] theorem onAdc_dp_tx (s : State) (n : Fin 8) (f : AdcCal → AdcCal) : (s.onAdc n f).dp.tx = s.dp.tx := rfl
@[simp] theorem onAdc_dp_pool (s : State) (n : Fin 8) (f : AdcCal → AdcCal) : (s.onAdc n f).dp.pool = s.dp.pool := rfl
@[simp] theorem onAdc_dp_ledger (s : State) (n : Fin 8) (f : AdcCal → AdcCal) : (s.onAdc n f).dp.ledger = s.dp.ledger := rfl
@[simp] theorem onAdc_dp_link (s : State) (n : Fin 8) (f : AdcCal → AdcCal) : (s.onAdc n f).dp.link = s.dp.link := rfl
@[simp] theorem onAdc_dp_host (s : State) (n : Fin 8) (f : AdcCal → AdcCal) : (s.onAdc n f).dp.host = s.dp.host := rfl
@[simp] theorem onAdc_dp_pen (s : State) (n : Fin 8) (f : AdcCal → AdcCal) : (s.onAdc n f).dp.pen = s.dp.pen := rfl
@[simp] theorem onAdc_dp_time (s : State) (n : Fin 8) (f : AdcCal → AdcCal) : (s.onAdc n f).dp.time = s.dp.time := rfl

@[simp] theorem onDac_regs (s : State) (n : Fin 8) (f : DacCal → DacCal) : (s.onDac n f).regs = s.regs := rfl
@[simp] theorem onDac_staged (s : State) (n : Fin 8) (f : DacCal → DacCal) : (s.onDac n f).staged = s.staged := rfl
@[simp] theorem onDac_inForce (s : State) (n : Fin 8) (f : DacCal → DacCal) : (s.onDac n f).inForce = s.inForce := rfl
@[simp] theorem onDac_mgmt (s : State) (n : Fin 8) (f : DacCal → DacCal) : (s.onDac n f).mgmt = s.mgmt := rfl
@[simp] theorem onDac_boot (s : State) (n : Fin 8) (f : DacCal → DacCal) : (s.onDac n f).boot = s.boot := rfl
@[simp] theorem onDac_clk (s : State) (n : Fin 8) (f : DacCal → DacCal) : (s.onDac n f).clk = s.clk := rfl
@[simp] theorem onDac_pwr (s : State) (n : Fin 8) (f : DacCal → DacCal) : (s.onDac n f).pwr = s.pwr := rfl
@[simp] theorem onDac_hsk (s : State) (n : Fin 8) (f : DacCal → DacCal) : (s.onDac n f).hsk = s.hsk := rfl
@[simp] theorem onDac_bias (s : State) (n : Fin 8) (f : DacCal → DacCal) : (s.onDac n f).bias = s.bias := rfl
@[simp] theorem onDac_therm (s : State) (n : Fin 8) (f : DacCal → DacCal) : (s.onDac n f).therm = s.therm := rfl
@[simp] theorem onDac_safe (s : State) (n : Fin 8) (f : DacCal → DacCal) : (s.onDac n f).safe = s.safe := rfl
@[simp] theorem onDac_mem (s : State) (n : Fin 8) (f : DacCal → DacCal) : (s.onDac n f).mem = s.mem := rfl
@[simp] theorem onDac_eng (s : State) (n : Fin 8) (f : DacCal → DacCal) : (s.onDac n f).eng = s.eng := rfl
@[simp] theorem onDac_evr (s : State) (n : Fin 8) (f : DacCal → DacCal) : (s.onDac n f).evr = s.evr := rfl
@[simp] theorem onDac_cap (s : State) (n : Fin 8) (f : DacCal → DacCal) : (s.onDac n f).cap = s.cap := rfl
@[simp] theorem onDac_dump (s : State) (n : Fin 8) (f : DacCal → DacCal) : (s.onDac n f).dump = s.dump := rfl
@[simp] theorem onDac_draws (s : State) (n : Fin 8) (f : DacCal → DacCal) : (s.onDac n f).draws = s.draws := rfl
@[simp] theorem onDac_pending (s : State) (n : Fin 8) (f : DacCal → DacCal) : (s.onDac n f).pending = s.pending := rfl
@[simp] theorem onDac_dp_ports (s : State) (n : Fin 8) (f : DacCal → DacCal) : (s.onDac n f).dp.ports = s.dp.ports := rfl
@[simp] theorem onDac_dp_framer (s : State) (n : Fin 8) (f : DacCal → DacCal) : (s.onDac n f).dp.framer = s.dp.framer := rfl
@[simp] theorem onDac_dp_rx (s : State) (n : Fin 8) (f : DacCal → DacCal) : (s.onDac n f).dp.rx = s.dp.rx := rfl
@[simp] theorem onDac_dp_pool (s : State) (n : Fin 8) (f : DacCal → DacCal) : (s.onDac n f).dp.pool = s.dp.pool := rfl
@[simp] theorem onDac_dp_ledger (s : State) (n : Fin 8) (f : DacCal → DacCal) : (s.onDac n f).dp.ledger = s.dp.ledger := rfl
@[simp] theorem onDac_dp_link (s : State) (n : Fin 8) (f : DacCal → DacCal) : (s.onDac n f).dp.link = s.dp.link := rfl
@[simp] theorem onDac_dp_host (s : State) (n : Fin 8) (f : DacCal → DacCal) : (s.onDac n f).dp.host = s.dp.host := rfl
@[simp] theorem onDac_dp_pen (s : State) (n : Fin 8) (f : DacCal → DacCal) : (s.onDac n f).dp.pen = s.dp.pen := rfl
@[simp] theorem onDac_dp_time (s : State) (n : Fin 8) (f : DacCal → DacCal) : (s.onDac n f).dp.time = s.dp.time := rfl

@[simp] theorem onCore_regs (s : State) (k : Fin 16) (f : PoolCore → PoolCore) : (s.onCore k f).regs = s.regs := rfl
@[simp] theorem onCore_staged (s : State) (k : Fin 16) (f : PoolCore → PoolCore) : (s.onCore k f).staged = s.staged := rfl
@[simp] theorem onCore_inForce (s : State) (k : Fin 16) (f : PoolCore → PoolCore) : (s.onCore k f).inForce = s.inForce := rfl
@[simp] theorem onCore_mgmt (s : State) (k : Fin 16) (f : PoolCore → PoolCore) : (s.onCore k f).mgmt = s.mgmt := rfl
@[simp] theorem onCore_boot (s : State) (k : Fin 16) (f : PoolCore → PoolCore) : (s.onCore k f).boot = s.boot := rfl
@[simp] theorem onCore_clk (s : State) (k : Fin 16) (f : PoolCore → PoolCore) : (s.onCore k f).clk = s.clk := rfl
@[simp] theorem onCore_pwr (s : State) (k : Fin 16) (f : PoolCore → PoolCore) : (s.onCore k f).pwr = s.pwr := rfl
@[simp] theorem onCore_hsk (s : State) (k : Fin 16) (f : PoolCore → PoolCore) : (s.onCore k f).hsk = s.hsk := rfl
@[simp] theorem onCore_bias (s : State) (k : Fin 16) (f : PoolCore → PoolCore) : (s.onCore k f).bias = s.bias := rfl
@[simp] theorem onCore_therm (s : State) (k : Fin 16) (f : PoolCore → PoolCore) : (s.onCore k f).therm = s.therm := rfl
@[simp] theorem onCore_safe (s : State) (k : Fin 16) (f : PoolCore → PoolCore) : (s.onCore k f).safe = s.safe := rfl
@[simp] theorem onCore_mem (s : State) (k : Fin 16) (f : PoolCore → PoolCore) : (s.onCore k f).mem = s.mem := rfl
@[simp] theorem onCore_eng (s : State) (k : Fin 16) (f : PoolCore → PoolCore) : (s.onCore k f).eng = s.eng := rfl
@[simp] theorem onCore_evr (s : State) (k : Fin 16) (f : PoolCore → PoolCore) : (s.onCore k f).evr = s.evr := rfl
@[simp] theorem onCore_cap (s : State) (k : Fin 16) (f : PoolCore → PoolCore) : (s.onCore k f).cap = s.cap := rfl
@[simp] theorem onCore_dump (s : State) (k : Fin 16) (f : PoolCore → PoolCore) : (s.onCore k f).dump = s.dump := rfl
@[simp] theorem onCore_draws (s : State) (k : Fin 16) (f : PoolCore → PoolCore) : (s.onCore k f).draws = s.draws := rfl
@[simp] theorem onCore_pending (s : State) (k : Fin 16) (f : PoolCore → PoolCore) : (s.onCore k f).pending = s.pending := rfl
@[simp] theorem onCore_dp_ports (s : State) (k : Fin 16) (f : PoolCore → PoolCore) : (s.onCore k f).dp.ports = s.dp.ports := rfl
@[simp] theorem onCore_dp_framer (s : State) (k : Fin 16) (f : PoolCore → PoolCore) : (s.onCore k f).dp.framer = s.dp.framer := rfl
@[simp] theorem onCore_dp_tx (s : State) (k : Fin 16) (f : PoolCore → PoolCore) : (s.onCore k f).dp.tx = s.dp.tx := rfl
@[simp] theorem onCore_dp_rx (s : State) (k : Fin 16) (f : PoolCore → PoolCore) : (s.onCore k f).dp.rx = s.dp.rx := rfl
@[simp] theorem onCore_dp_ledger (s : State) (k : Fin 16) (f : PoolCore → PoolCore) : (s.onCore k f).dp.ledger = s.dp.ledger := rfl
@[simp] theorem onCore_dp_link (s : State) (k : Fin 16) (f : PoolCore → PoolCore) : (s.onCore k f).dp.link = s.dp.link := rfl
@[simp] theorem onCore_dp_host (s : State) (k : Fin 16) (f : PoolCore → PoolCore) : (s.onCore k f).dp.host = s.dp.host := rfl
@[simp] theorem onCore_dp_pen (s : State) (k : Fin 16) (f : PoolCore → PoolCore) : (s.onCore k f).dp.pen = s.dp.pen := rfl
@[simp] theorem onCore_dp_time (s : State) (k : Fin 16) (f : PoolCore → PoolCore) : (s.onCore k f).dp.time = s.dp.time := rfl

@[simp] theorem onPort_regs (s : State) (p : Fin 16) (f : Port → Port) : (s.onPort p f).regs = s.regs := rfl
@[simp] theorem onPort_staged (s : State) (p : Fin 16) (f : Port → Port) : (s.onPort p f).staged = s.staged := rfl
@[simp] theorem onPort_inForce (s : State) (p : Fin 16) (f : Port → Port) : (s.onPort p f).inForce = s.inForce := rfl
@[simp] theorem onPort_mgmt (s : State) (p : Fin 16) (f : Port → Port) : (s.onPort p f).mgmt = s.mgmt := rfl
@[simp] theorem onPort_boot (s : State) (p : Fin 16) (f : Port → Port) : (s.onPort p f).boot = s.boot := rfl
@[simp] theorem onPort_clk (s : State) (p : Fin 16) (f : Port → Port) : (s.onPort p f).clk = s.clk := rfl
@[simp] theorem onPort_pwr (s : State) (p : Fin 16) (f : Port → Port) : (s.onPort p f).pwr = s.pwr := rfl
@[simp] theorem onPort_hsk (s : State) (p : Fin 16) (f : Port → Port) : (s.onPort p f).hsk = s.hsk := rfl
@[simp] theorem onPort_bias (s : State) (p : Fin 16) (f : Port → Port) : (s.onPort p f).bias = s.bias := rfl
@[simp] theorem onPort_therm (s : State) (p : Fin 16) (f : Port → Port) : (s.onPort p f).therm = s.therm := rfl
@[simp] theorem onPort_safe (s : State) (p : Fin 16) (f : Port → Port) : (s.onPort p f).safe = s.safe := rfl
@[simp] theorem onPort_mem (s : State) (p : Fin 16) (f : Port → Port) : (s.onPort p f).mem = s.mem := rfl
@[simp] theorem onPort_eng (s : State) (p : Fin 16) (f : Port → Port) : (s.onPort p f).eng = s.eng := rfl
@[simp] theorem onPort_evr (s : State) (p : Fin 16) (f : Port → Port) : (s.onPort p f).evr = s.evr := rfl
@[simp] theorem onPort_cap (s : State) (p : Fin 16) (f : Port → Port) : (s.onPort p f).cap = s.cap := rfl
@[simp] theorem onPort_dump (s : State) (p : Fin 16) (f : Port → Port) : (s.onPort p f).dump = s.dump := rfl
@[simp] theorem onPort_draws (s : State) (p : Fin 16) (f : Port → Port) : (s.onPort p f).draws = s.draws := rfl
@[simp] theorem onPort_pending (s : State) (p : Fin 16) (f : Port → Port) : (s.onPort p f).pending = s.pending := rfl
@[simp] theorem onPort_dp_framer (s : State) (p : Fin 16) (f : Port → Port) : (s.onPort p f).dp.framer = s.dp.framer := rfl
@[simp] theorem onPort_dp_tx (s : State) (p : Fin 16) (f : Port → Port) : (s.onPort p f).dp.tx = s.dp.tx := rfl
@[simp] theorem onPort_dp_rx (s : State) (p : Fin 16) (f : Port → Port) : (s.onPort p f).dp.rx = s.dp.rx := rfl
@[simp] theorem onPort_dp_pool (s : State) (p : Fin 16) (f : Port → Port) : (s.onPort p f).dp.pool = s.dp.pool := rfl
@[simp] theorem onPort_dp_ledger (s : State) (p : Fin 16) (f : Port → Port) : (s.onPort p f).dp.ledger = s.dp.ledger := rfl
@[simp] theorem onPort_dp_link (s : State) (p : Fin 16) (f : Port → Port) : (s.onPort p f).dp.link = s.dp.link := rfl
@[simp] theorem onPort_dp_host (s : State) (p : Fin 16) (f : Port → Port) : (s.onPort p f).dp.host = s.dp.host := rfl
@[simp] theorem onPort_dp_pen (s : State) (p : Fin 16) (f : Port → Port) : (s.onPort p f).dp.pen = s.dp.pen := rfl
@[simp] theorem onPort_dp_time (s : State) (p : Fin 16) (f : Port → Port) : (s.onPort p f).dp.time = s.dp.time := rfl

@[simp] theorem onHost_regs (s : State) (n : Fin 16) (f : HostLane → HostLane) : (s.onHost n f).regs = s.regs := rfl
@[simp] theorem onHost_staged (s : State) (n : Fin 16) (f : HostLane → HostLane) : (s.onHost n f).staged = s.staged := rfl
@[simp] theorem onHost_inForce (s : State) (n : Fin 16) (f : HostLane → HostLane) : (s.onHost n f).inForce = s.inForce := rfl
@[simp] theorem onHost_mgmt (s : State) (n : Fin 16) (f : HostLane → HostLane) : (s.onHost n f).mgmt = s.mgmt := rfl
@[simp] theorem onHost_boot (s : State) (n : Fin 16) (f : HostLane → HostLane) : (s.onHost n f).boot = s.boot := rfl
@[simp] theorem onHost_clk (s : State) (n : Fin 16) (f : HostLane → HostLane) : (s.onHost n f).clk = s.clk := rfl
@[simp] theorem onHost_pwr (s : State) (n : Fin 16) (f : HostLane → HostLane) : (s.onHost n f).pwr = s.pwr := rfl
@[simp] theorem onHost_hsk (s : State) (n : Fin 16) (f : HostLane → HostLane) : (s.onHost n f).hsk = s.hsk := rfl
@[simp] theorem onHost_bias (s : State) (n : Fin 16) (f : HostLane → HostLane) : (s.onHost n f).bias = s.bias := rfl
@[simp] theorem onHost_therm (s : State) (n : Fin 16) (f : HostLane → HostLane) : (s.onHost n f).therm = s.therm := rfl
@[simp] theorem onHost_safe (s : State) (n : Fin 16) (f : HostLane → HostLane) : (s.onHost n f).safe = s.safe := rfl
@[simp] theorem onHost_mem (s : State) (n : Fin 16) (f : HostLane → HostLane) : (s.onHost n f).mem = s.mem := rfl
@[simp] theorem onHost_eng (s : State) (n : Fin 16) (f : HostLane → HostLane) : (s.onHost n f).eng = s.eng := rfl
@[simp] theorem onHost_evr (s : State) (n : Fin 16) (f : HostLane → HostLane) : (s.onHost n f).evr = s.evr := rfl
@[simp] theorem onHost_cap (s : State) (n : Fin 16) (f : HostLane → HostLane) : (s.onHost n f).cap = s.cap := rfl
@[simp] theorem onHost_dump (s : State) (n : Fin 16) (f : HostLane → HostLane) : (s.onHost n f).dump = s.dump := rfl
@[simp] theorem onHost_draws (s : State) (n : Fin 16) (f : HostLane → HostLane) : (s.onHost n f).draws = s.draws := rfl
@[simp] theorem onHost_pending (s : State) (n : Fin 16) (f : HostLane → HostLane) : (s.onHost n f).pending = s.pending := rfl
@[simp] theorem onHost_dp_ports (s : State) (n : Fin 16) (f : HostLane → HostLane) : (s.onHost n f).dp.ports = s.dp.ports := rfl
@[simp] theorem onHost_dp_framer (s : State) (n : Fin 16) (f : HostLane → HostLane) : (s.onHost n f).dp.framer = s.dp.framer := rfl
@[simp] theorem onHost_dp_tx (s : State) (n : Fin 16) (f : HostLane → HostLane) : (s.onHost n f).dp.tx = s.dp.tx := rfl
@[simp] theorem onHost_dp_rx (s : State) (n : Fin 16) (f : HostLane → HostLane) : (s.onHost n f).dp.rx = s.dp.rx := rfl
@[simp] theorem onHost_dp_pool (s : State) (n : Fin 16) (f : HostLane → HostLane) : (s.onHost n f).dp.pool = s.dp.pool := rfl
@[simp] theorem onHost_dp_ledger (s : State) (n : Fin 16) (f : HostLane → HostLane) : (s.onHost n f).dp.ledger = s.dp.ledger := rfl
@[simp] theorem onHost_dp_link (s : State) (n : Fin 16) (f : HostLane → HostLane) : (s.onHost n f).dp.link = s.dp.link := rfl
@[simp] theorem onHost_dp_pen (s : State) (n : Fin 16) (f : HostLane → HostLane) : (s.onHost n f).dp.pen = s.dp.pen := rfl
@[simp] theorem onHost_dp_time (s : State) (n : Fin 16) (f : HostLane → HostLane) : (s.onHost n f).dp.time = s.dp.time := rfl

@[simp] theorem onFramer_dp_framer (s : State) (f : Framer → Framer) : (s.onFramer f).dp.framer = f s.dp.framer := rfl
@[simp] theorem onPool_dp_pool (s : State) (f : Pool → Pool) : (s.onPool f).dp.pool = f s.dp.pool := rfl
@[simp] theorem onLedger_dp_ledger (s : State) (f : Ledger → Ledger) : (s.onLedger f).dp.ledger = f s.dp.ledger := rfl
@[simp] theorem onLink_dp_link (s : State) (f : Link → Link) : (s.onLink f).dp.link = f s.dp.link := rfl
@[simp] theorem onPen_dp_pen (s : State) (f : Pen → Pen) : (s.onPen f).dp.pen = f s.dp.pen := rfl
@[simp] theorem onTime_dp_time (s : State) (f : TimeSt → TimeSt) : (s.onTime f).dp.time = f s.dp.time := rfl

end State

end Sys2Proof.Machine
end

