-- ==== Sys2Proof/Laws/Registers.lean ====
section
/-!
SUPPORT. The laws of registers and their copies: what a register or a field reads after a write, and what a counter reads
after it has counted.
-/

namespace Sys2Proof.Machine

namespace State

/-! ## Registers -/

@[simp] theorem reg_setReg_same (s : State) (a : Nat) (v : Word) : (s.setReg a v).reg a = v := mapGet_mapSet_same _ _ _ _

theorem reg_setReg_ne (s : State) (a b : Nat) (v : Word) (h : b ≠ a) : (s.setReg a v).reg b = s.reg b :=
  mapGet_mapSet_ne _ _ _ _ _ _ h

theorem reg_setReg (s : State) (a b : Nat) (v : Word) : (s.setReg a v).reg b = if b = a then v else s.reg b := by
  split
  · next h => subst h; simp
  · next h => exact reg_setReg_ne _ _ _ _ h

@[simp] theorem stagedReg_setReg (s : State) (a b : Nat) (v : Word) : (s.setReg a v).stagedReg b = s.stagedReg b := rfl
@[simp] theorem inForceReg_setReg (s : State) (a b : Nat) (v : Word) : (s.setReg a v).inForceReg b = s.inForceReg b := rfl

@[simp] theorem stagedReg_setStaged_same (s : State) (a : Nat) (v : Word) : (s.setStaged a v).stagedReg a = v :=
  mapGet_mapSet_same _ _ _ _

theorem stagedReg_setStaged_ne (s : State) (a b : Nat) (v : Word) (h : b ≠ a) :
    (s.setStaged a v).stagedReg b = s.stagedReg b := mapGet_mapSet_ne _ _ _ _ _ _ h

@[simp] theorem reg_setStaged (s : State) (a b : Nat) (v : Word) : (s.setStaged a v).reg b = s.reg b := rfl
@[simp] theorem inForceReg_setStaged (s : State) (a b : Nat) (v : Word) : (s.setStaged a v).inForceReg b = s.inForceReg b :=
  rfl

@[simp] theorem inForceReg_setInForce_same (s : State) (a : Nat) (v : Word) : (s.setInForce a v).inForceReg a = v :=
  mapGet_mapSet_same _ _ _ _

theorem inForceReg_setInForce_ne (s : State) (a b : Nat) (v : Word) (h : b ≠ a) :
    (s.setInForce a v).inForceReg b = s.inForceReg b := mapGet_mapSet_ne _ _ _ _ _ _ h

@[simp] theorem reg_setInForce (s : State) (a b : Nat) (v : Word) : (s.setInForce a v).reg b = s.reg b := rfl
@[simp] theorem stagedReg_setInForce (s : State) (a b : Nat) (v : Word) : (s.setInForce a v).stagedReg b = s.stagedReg b :=
  rfl

/-! ## Fields -/

/-- A field reads what was written to it. -/
theorem rd_wr_same (s : State) (f : RField) (v : Nat) (h : f.lo + f.width ≤ 32) : (s.wr f v).rd f = v % 2 ^ f.width := by
  simp only [rd, wr, reg_setReg_same]
  exact getField_putField _ _ _ _ h

/-- A field of another register keeps its value. -/
theorem rd_wr_addr (s : State) (f g : RField) (v : Nat) (h : g.addr ≠ f.addr) : (s.wr f v).rd g = s.rd g := by
  simp only [rd, wr, reg_setReg_ne _ _ _ _ h]

/-- Another field of the same register keeps its value. -/
theorem rd_wr_disjoint (s : State) (f g : RField) (v : Nat) (h : g.lo + g.width ≤ f.lo ∨ f.lo + f.width ≤ g.lo)
    (hg : g.lo + g.width ≤ 32) : (s.wr f v).rd g = s.rd g := by
  by_cases ha : g.addr = f.addr
  · simp only [rd, wr, ha, reg_setReg_same]
    exact getField_putField_disjoint _ _ _ _ _ _ h hg
  · exact rd_wr_addr s f g v ha

theorem reg_wr_ne (s : State) (f : RField) (v a : Nat) (h : a ≠ f.addr) : (s.wr f v).reg a = s.reg a :=
  reg_setReg_ne _ _ _ _ h

@[simp] theorem cfg_setReg (s : State) (a : Nat) (v : Word) (c : CField) : (s.setReg a v).cfg c = s.cfg c := rfl
@[simp] theorem cfg_wr (s : State) (f : RField) (v : Nat) (c : CField) : (s.wr f v).cfg c = s.cfg c := rfl

/-! ## Counters (R11) -/

theorem reg_bumpBy_ne (s : State) (a b n : Nat) (h : b ≠ a) : (s.bumpBy a n).reg b = s.reg b := reg_setReg_ne _ _ _ _ h

/-- A counter that stops at all ones. -/
theorem reg_bumpBy_same (s : State) (a n : Nat) :
    ((s.bumpBy a n).reg a).toNat = Nat.min 0xFFFFFFFF ((s.reg a).toNat + n) := by
  simp only [bumpBy, reg_setReg_same, BitVec.toNat_ofNat]
  exact Nat.mod_eq_of_lt (Nat.lt_of_le_of_lt (Nat.min_le_left _ _) (by decide))

/-- A counter that wraps. -/
theorem reg_bumpWrap_same (s : State) (a n : Nat) : (s.bumpWrap a n).reg a = s.reg a + BitVec.ofNat 32 n :=
  reg_setReg_same _ _ _

/-- The two halves of a split counter hold its value. -/
theorem count64_setCount64 (s : State) (lo v : Nat) (h : v < 2 ^ 64) : (s.setCount64 lo v).count64 lo = v := by
  have hne : lo ≠ lo + 4 := by omega
  simp only [count64, setCount64, reg_setReg_ne _ _ _ _ hne, reg_setReg_same, BitVec.toNat_ofNat]
  omega

end State

end Sys2Proof.Machine
end

