-- ==== Sys2Proof/Laws/Touches.lean ====
section
/-!
SUPPORT. Frames: how `Touches` composes, and once for each shared operation that notices an event (engine event bits,
interrupts, the recorder, device states, the end of a command) what it may touch.
-/

namespace Sys2Proof.Machine

theorem Part.same_refl (p : Part) (s : State) : p.Same s s := by cases p <;> first | rfl | exact fun _ => rfl

theorem Part.same_trans {p : Part} {s t u : State} (h : p.Same s t) (k : p.Same t u) : p.Same s u := by
  cases p <;> first | exact k.trans h | exact fun e => (k e).trans (h e)

theorem Touches.refl (ps : List Part) (may : Nat → Prop) (s : State) : Touches ps may s s :=
  ⟨fun p _ => p.same_refl s, fun _ _ => rfl, rfl⟩

theorem Touches.trans {ps : List Part} {may : Nat → Prop} {s t u : State} (h : Touches ps may s t) (k : Touches ps may t u) :
    Touches ps may s u :=
  ⟨fun p hp => Part.same_trans (h.1 p hp) (k.1 p hp), fun a ha => (k.2.1 a ha).trans (h.2.1 a ha), k.2.2.trans h.2.2⟩

theorem Touches.mono {ps qs : List Part} {may can : Nat → Prop} {s t : State} (h : Touches ps may s t)
    (hp : ∀ p ∈ ps, p ∈ qs) (hm : ∀ a, may a → can a) : Touches qs can s t :=
  ⟨fun p q => h.1 p fun i => q (hp p i), fun a q => h.2.1 a fun i => q (hm a i), h.2.2⟩

theorem Touches.foldl {β : Type} {ps : List Part} {may : Nat → Prop} (g : State → β → State)
    (h : ∀ s x, Touches ps may s (g s x)) (l : List β) (s : State) : Touches ps may s (l.foldl g s) := by
  induction l generalizing s with
  | nil => exact Touches.refl _ _ _
  | cons x t ih => exact (h s x).trans (ih _)

namespace State

/-- A register write touches that register alone. -/
theorem setReg_touches (s : State) (a : Nat) (v : Word) : Touches [] (· = a) s (s.setReg a v) :=
  ⟨fun p _ => by cases p <;> first | rfl | exact fun _ => rfl, fun b hb => reg_setReg_ne s a b v hb, rfl⟩

theorem wr_touches (s : State) (f : RField) (v : Nat) : Touches [] (· = f.addr) s (s.wr f v) := setReg_touches _ _ _

theorem bumpBy_touches (s : State) (a n : Nat) : Touches [] (· = a) s (s.bumpBy a n) := setReg_touches _ _ _

theorem drew_touches (s : State) : Touches [] (fun _ => False) s s.drew :=
  ⟨fun p _ => by cases p <;> first | rfl | exact fun _ => rfl, fun _ _ => rfl, rfl⟩

/-- An engine changes in what an event may change. -/
theorem onEng_touches (s : State) (e : Fin 9) (f : Engine → Engine) (h : (f s.eng[e]).store = s.eng[e].store) :
    Touches [.eng] engReg s (s.onEng e f) := by
  refine ⟨fun p hp => ?_, fun _ _ => rfl, rfl⟩
  cases p <;> first | rfl | skip
  · simp at hp
  · intro k
    by_cases hk : e = k
    · subst hk
      simpa [onEng] using h
    · have : (e : Nat) ≠ k := fun q => hk (Fin.ext q)
      simp [onEng, this]

/-- An engine's own registers. -/
theorem setReg_engReg (s : State) (a : Nat) (v : Word) (h : engReg a) : Touches [.eng] engReg s (s.setReg a v) :=
  (setReg_touches s a v).mono (by simp) (by rintro b rfl; exact h)

theorem drew_engReg (s : State) : Touches [.eng] engReg s s.drew := (drew_touches s).mono (by simp) (by simp)

theorem loadSample_touches (s : State) (e : Fin 9) (k pc : Nat) : Touches [.eng] engReg s (s.loadSample e k pc) := by
  refine (setReg_engReg s _ _ ?_).trans (onEng_touches _ e _ rfl)
  simp only [engReg, R.IGS_En_SAMPLE]
  omega

theorem countOne_touches (s : State) (e : Fin 9) (sel n pc : Nat) (w : Bool) (k : Nat) (hk : k < 6) :
    Touches [.eng] engReg s (s.countOne e sel n pc w k) := by
  have hr : engReg (R.IGS_En_EVCNTk e k) := by
    simp only [engReg, R.IGS_En_EVCNTk]
    omega
  simp only [countOne]
  split
  · exact Touches.refl _ _ _
  · have h := setReg_engReg s _ (BitVec.ofNat 32 ((s.reg (R.IGS_En_EVCNTk e k)).toNat + n)) hr
    split
    · exact h
    · split
      · refine (h.trans ?_).trans (loadSample_touches _ _ _ _)
        split
        · exact Touches.refl _ _ _
        · exact drew_engReg _
      · exact (h.trans (drew_engReg _)).trans (onEng_touches _ e _ rfl)

theorem foldl_range_touches {ps : List Part} {may : Nat → Prop} (g : State → Nat → State) (n : Nat)
    (h : ∀ s k, k < n → Touches ps may s (g s k)) (s : State) : Touches ps may s ((List.range n).foldl g s) := by
  induction n with
  | zero => exact Touches.refl _ _ _
  | succ n ih =>
    rw [List.range_succ, List.foldl_append]
    exact (ih fun s k hk => h s k (by omega)).trans (h _ n (by omega))

theorem evCount_touches (s : State) (e : Fin 9) (sel n pc : Nat) (w : Bool) :
    Touches [.eng] engReg s (s.evCount e sel n pc w) := by
  simp only [evCount]
  split
  · exact Touches.refl _ _ _
  · exact foldl_range_touches _ 6 (fun s k hk => countOne_touches s e sel n pc w k hk) s

theorem setCount64_engReg (s : State) (e : Fin 9) (v : Nat) :
    Touches [.eng] engReg s (s.setCount64 (R.IGS_En_CYC_LO e) v) := by
  refine (setReg_engReg s _ _ ?_).trans (setReg_engReg _ _ _ ?_) <;> simp only [engReg, R.IGS_En_CYC_LO] <;> omega

theorem cycCount_touches (s : State) (e : Fin 9) (n : Nat) : Touches [.eng] engReg s (s.cycCount e n) := by
  simp only [cycCount]
  split
  · exact Touches.refl _ _ _
  · exact setCount64_engReg _ _ _

theorem retire_touches (s : State) (e : Fin 9) (pc : Nat) : Touches [.eng] engReg s (s.retire e pc) := by
  simp only [retire]
  refine Touches.trans ?_ (evCount_touches _ _ _ _ _ _)
  split
  · exact Touches.refl _ _ _
  · split
    · exact loadSample_touches _ _ _ _
    · exact onEng_touches _ e _ rfl

theorem wfeReturn_touches (s : State) (e d) (m : BitVec 16) (n : Nat) : Touches [.eng] engReg s (s.wfeReturn e d m n) := by
  simp only [wfeReturn]
  exact ((((onEng_touches s e _ rfl).trans (cycCount_touches _ _ _)).trans (evCount_touches _ _ _ _ _ _)).trans
    (evCount_touches _ _ _ _ _ _)).trans (retire_touches _ _ _)

theorem wakeWfe_touches (s : State) (e : Fin 9) : Touches [.eng] engReg s (s.wakeWfe e) := by
  simp only [wakeWfe]
  split
  · split
    · exact Touches.refl _ _ _
    · exact (drew_engReg _).trans (wfeReturn_touches _ _ _ _ _)
  · exact Touches.refl _ _ _

theorem setEv_touches (s : State) (e : Fin 9) (i : Nat) : Touches [.eng] engReg s (s.setEv e i) := by
  have h : Touches [.eng] engReg s (s.onEng e fun g => { g with ev := g.ev ||| BitVec.twoPow 16 i }) :=
    onEng_touches s e _ rfl
  simp only [setEv]
  split
  · exact h.trans (evCount_touches _ e 11 1 _ _)
  · exact h

/-- Raising an engine's event bit touches engines and their counters alone. -/
theorem raiseEv_touches (s : State) (e : Fin 9) (i : Nat) : Touches [.eng] engReg s (s.raiseEv e i) :=
  (setEv_touches s e i).trans (wakeWfe_touches _ _)

theorem raiseEvAll_touches (s : State) (i : Nat) : Touches [.eng] engReg s (s.raiseEvAll i) :=
  Touches.foldl _ (fun s e => raiseEv_touches s e i) _ _

theorem noticeSummary_touches (n : Nat) (s : State) : Touches [.eng] engReg s (noticeSummary n s) := by
  simp only [noticeSummary]
  split
  · exact Touches.refl _ _ _
  · exact raiseEv_touches _ _ _

theorem setInt_touches (s : State) (f : RField) : Touches [.eng] (fun a => a = f.addr ∨ engReg a) s (s.setInt f) :=
  ((wr_touches s f _).mono (by simp) (fun _ h => .inl h)).trans
    ((noticeSummary_touches _ _).mono (fun _ h => h) (fun _ h => .inr h))

theorem setIntBit_touches (s : State) (f : RField) (i : Nat) :
    Touches [.eng] (fun a => a = f.addr ∨ engReg a) s (s.setIntBit f i) :=
  ((wr_touches s f _).mono (by simp) (fun _ h => .inl h)).trans
    ((noticeSummary_touches _ _).mono (fun _ h => h) (fun _ h => .inr h))

theorem setTopInt_touches (s : State) (f : RField) : Touches [.eng] (fun a => a = f.addr ∨ engReg a) s (s.setTopInt f) := by
  simp only [setTopInt]
  split
  · exact Touches.refl _ _ _
  · refine ((wr_touches s f 1).mono (by simp) (fun _ h => .inl h)).trans ?_
    split
    · exact (raiseEvAll_touches _ _).mono (fun _ h => h) (fun _ h => .inr h)
    · exact Touches.refl _ _ _

/-- Logging an event touches the event that waits, and where it is dropped the recorder's count and flag. -/
theorem logEvent_touches (s : State) (src code a b : Nat) : Touches [.eng, .evr] noticeReg s (s.logEvent src code a b) := by
  simp only [logEvent]
  split
  · exact Touches.refl _ _ _
  · split
    · exact ((bumpBy_touches s R.EVR_DROP_CNT 1).mono (by simp) (by rintro _ rfl; exact .inr (.inl rfl))).trans
        ((setInt_touches _ F.EVR_INT_drop).mono (by simp)
          (by rintro _ (rfl | h)
              · exact .inr (.inr (.inl rfl))
              · exact .inr (.inr (.inr h))))
    · exact ⟨fun p hp => by cases p <;> first | rfl | exact fun _ => rfl | simp at hp, fun _ _ => rfl, rfl⟩

/-- A part of the state is replaced. -/
theorem mgmt_touches (s : State) (m : Mgmt) : Touches [.mgmt] (fun _ => False) s { s with mgmt := m } :=
  ⟨fun p hp => by cases p <;> first | rfl | exact fun _ => rfl | simp at hp, fun _ _ => rfl, rfl⟩

/-- A change of device state touches the states, TOP_INT and the recorder. -/
theorem setDev_touches (s : State) (d : DevState) : Touches [.mgmt, .eng, .evr] noticeReg s (s.setDev d) := by
  simp only [setDev]
  split
  · exact Touches.refl _ _ _
  · refine ((mgmt_touches s { s.mgmt with dev := d, prev := s.mgmt.dev }).mono (by simp) (by simp)).trans ?_
    · refine (((setTopInt_touches _ F.TOP_INT_state_chg).mono (by simp) ?_).trans
        ((logEvent_touches _ _ _ _ _).mono (by simp) (fun _ h => h))).trans
        ((raiseEv_touches _ _ _).mono (by simp) (fun _ h => .inr (.inr (.inr h))))
      rintro _ (rfl | h)
      · exact .inl rfl
      · exact .inr (.inr (.inr h))

theorem setDev_dev (s : State) (d : DevState) : (s.setDev d).mgmt.dev = d := by
  simp only [setDev]
  split
  · assumption
  · next h =>
    have := setDev_touches s d
    rw [((raiseEv_touches _ _ _).1 .mgmt (by simp)), ((logEvent_touches _ _ _ _ _).1 .mgmt (by simp)),
      ((setTopInt_touches _ _).1 .mgmt (by simp))]

/-- The end of a command touches its status, TOP_INT, and whether it is taken up. -/
theorem endCmd_touches (s : State) (st : Nat) :
    Touches [.mgmt, .eng] (fun a => a = R.TOP_CMD_STAT ∨ a = R.TOP_INT ∨ engReg a) s (s.endCmd st) := by
  simp only [endCmd]
  have h := ((wr_touches s F.TOP_CMD_STAT_status st).mono (qs := [.mgmt, .eng])
    (can := fun a => a = R.TOP_CMD_STAT ∨ a = R.TOP_INT ∨ engReg a) (by simp) (fun _ h => .inl h)).trans
    ((wr_touches _ F.TOP_CMD_STAT_serial (s.rd F.TOP_CMD_STAT_serial + 1)).mono (by simp) (fun _ h => .inl h))
  exact (h.trans ((mgmt_touches _ _).mono (by simp) (by simp))).trans
    ((setTopInt_touches _ F.TOP_INT_cmd_done).mono (by simp) (fun _ h => .inr h))

end State

end Sys2Proof.Machine
end

