-- ==== Sys2Proof/Laws/Access.lean ====
section
/-!
SUPPORT. Accesses of a port to a register with nothing in the way: the write is what the register's own write does.
-/

namespace Sys2Proof.Machine

namespace State

/-- The state in which a register's write acts: the word's check bits are correct. -/
def checked (s : State) (a : Nat) : State := s.onMem fun m => { m with regEcc := mapSet 0 m.regEcc a 0 }

theorem aligned_of_mod (a : Nat) (h : a % 4 = 0) : aligned a = a := by
  simp only [aligned]
  omega

/-- A write of a port that nothing stands in the way of, outside PWR. -/
theorem busWrite_ready (s : State) (port : Fin 5) (x : Source) (a : Nat) (v : Word) (hx : x.port = port)
    (h : s.ready port a = true) (hp : a / 0x10000 ≠ 2) : s.busWrite x a v = (s.checked a).regWrite x a v none := by
  simp only [ready, Bool.and_eq_true, Bool.not_eq_true', Bool.or_eq_true, decide_eq_true_eq, beq_iff_eq] at h
  obtain ⟨⟨⟨⟨⟨⟨⟨⟨⟨⟨hr, hm⟩, hd⟩, hg⟩, hc⟩, ho⟩, hb⟩, hi⟩, -⟩, ha⟩, hl⟩ := h
  have hw : inWindow a = false := by simp [inWindow]; omega
  have hv : inView a = false := by simp [inView]; omega
  have h1 : ¬(!isStaged a ∧ (s.domainOff a).isSome) := by
    rcases ho with h | h
    · simp [h]
    · simp [Option.isNone_iff_eq_none.mp h]
  have h2 : ¬(isStaged a ∧ s.flag F.TOP_COMMIT_busy) := by
    rintro ⟨u, w⟩
    simp [u, w] at hb
  have h3 : ¬(s.flag F.MEM_INJ_CTRL_armed ∧ (s.reg R.MEM_INJ_ADDR).toNat = a) := by
    rintro ⟨u, w⟩
    simp [u, w] at hi
  have h4 : ¬((regDesc a).isNone ∨ s.gated a) := by
    rw [hg, Option.isNone_eq_false_iff.mpr hd]
    simp
  simp only [busWrite, aligned_of_mod a ha, hx, hr, hw, hv, devWrite, hm, h1, h2, h3, h4, hc, hp, takeInjection, checked,
    Bool.not_true, Bool.false_eq_true, false_and, if_false, Option.getD_none]

/-- The engine's step bit aside, a port's write is its bus write. -/
theorem put_of_none (s : State) (port : Fin 5) (a : Nat) (v : Word) (h : ctrlEngine (aligned a) = none) :
    s.put port a v = s.busWrite (Source.ofPort port 40 0) a v := by
  simp only [put, portWrite, h]

/-- A port's write of a register that is not an engine's IGS_En_CTRL. -/
theorem put_ready (s : State) (port : Fin 5) (a : Nat) (v : Word) (h : s.ready port a = true) (hp : a / 0x10000 ≠ 2)
    (hc : a / 0x10000 ≠ 13) : s.put port a v = (s.checked a).regWrite (Source.ofPort port 40 0) a v none := by
  have ha : a % 4 = 0 := by
    simp only [ready, Bool.and_eq_true, beq_iff_eq] at h
    exact h.1.2
  rw [put_of_none, busWrite_ready s port _ a v rfl h hp]
  rw [aligned_of_mod a ha]
  simp only [ctrlEngine, List.find?_eq_none, beq_iff_eq]
  rintro e - rfl
  simp only [R.IGS_En_CTRL] at hc
  omega

/-- A register whose word carries its check bits reads without poison. -/
theorem regReadEcc_clean (s : State) (a : Nat) (h : mapGet 0 s.mem.regEcc a = 0) : s.regReadEcc a = (s, false) := by
  simp only [regReadEcc, h, if_true]

/-- A block's register that answers. -/
theorem devRead_answers (s : State) (x : Source) (a same : Nat) (r : State × Word × Bool) (hm : blockMapped a = true)
    (hd : ¬((regDesc a).isNone ∨ s.gated a)) (hc : s.crossesBroken a = false) (ho : s.readOff a = none)
    (he : mapGet 0 s.mem.regEcc a = 0) (hr : s.regRead x false a same = r) : s.devRead x false a same = r := by
  obtain ⟨t, w, p⟩ := r
  unfold devRead
  rw [hm, if_neg (by simp), if_neg hd, hc, if_neg (by simp), if_neg (by simp)]
  dsimp only
  rw [ho]
  dsimp only
  rw [regReadEcc_clean _ _ he]
  dsimp only
  rw [hr]
  dsimp only
  rw [Bool.false_or]

/-- A read of a port that nothing stands in the way of. -/
theorem busRead_ready (s : State) (port : Fin 5) (x : Source) (a same : Nat) (hx : x.port = port)
    (h : s.ready port a = true) (hs : s.readOff a = none) : s.busRead x a same = s.regRead x false a same := by
  simp only [ready, Bool.and_eq_true, Bool.not_eq_true', beq_iff_eq, decide_eq_true_eq] at h
  obtain ⟨⟨⟨⟨⟨⟨⟨⟨⟨⟨hr, hm⟩, hd⟩, hg⟩, hc⟩, -⟩, -⟩, -⟩, he⟩, ha⟩, hl⟩ := h
  have hw : inWindow a = false := by simp [inWindow]; omega
  have hv : inView a = false := by simp [inView]; omega
  have h4 : ¬((regDesc a).isNone ∨ s.gated a) := by
    rw [hg, Option.isNone_eq_false_iff.mpr hd]
    simp
  unfold busRead
  dsimp only
  rw [aligned_of_mod a ha, hx, hr, if_neg (by simp), hw, if_neg (by simp), hv, if_neg (by simp)]
  exact devRead_answers s x a same _ hm h4 hc hs he rfl

/-- Correct check bits touch nothing else. -/
theorem checked_touches (s : State) (a : Nat) : Touches [.mem] (fun _ => False) s (s.checked a) :=
  ⟨fun p hp => by cases p <;> first | rfl | exact fun _ => rfl | simp at hp, fun _ _ => rfl, rfl⟩

end State

end Sys2Proof.Machine
end

