-- ==== Sys2Proof/Laws/Igsin.lean ====
section
/-!
SUPPORT. What counting, sampling and completing an instruction do: they touch the engine's own registers, and in the engine
no more than its EV bit 4 and its waiting sample (R387, R389).
-/

namespace Sys2Proof.Machine

theorem Retired.refl (e : Fin 9) (s : State) : Retired e s.eng[e] s s :=
  ⟨rfl, fun _ _ => rfl, fun _ _ => rfl, Touches.refl _ _ _⟩

theorem Retired.trans {e : Fin 9} {g : Engine} {s t u : State} (h : Retired e g s t) (k : Retired e t.eng[e] t u) :
    Retired e g s u := by
  obtain ⟨h1, h2, h3, h4⟩ := h
  obtain ⟨k1, k2, k3, k4⟩ := k
  refine ⟨?_, fun i hi => (k2 i hi).trans (h2 i hi), fun j hj => (k3 j hj).trans (h3 j hj), h4.trans k4⟩
  rw [k1, h1]

namespace State

theorem onEng_retired (s : State) (e : Fin 9) (f : Engine → Engine) : Retired e (f s.eng[e]) s (s.onEng e f) := by
  refine ⟨?_, ?_, ?_, ?_⟩
  · simp [onEng]
  · simp [onEng]
  · intro k hk
    have : (e : Nat) ≠ k := fun q => hk (Fin.ext q.symm)
    simp [onEng, this]
  · exact ⟨fun p hp => by cases p <;> first | rfl | exact fun _ => rfl | simp at hp, fun _ _ => rfl, rfl⟩

theorem setReg_retired (s : State) (e : Fin 9) (a : Nat) (v : Word) (h : ownReg e a) : Retired e s.eng[e] s (s.setReg a v) :=
  ⟨rfl, fun _ _ => rfl, fun _ _ => rfl, (setReg_touches s a v).mono (by simp) (by rintro b rfl; exact h)⟩

theorem drew_retired (s : State) (e : Fin 9) : Retired e s.eng[e] s s.drew :=
  ⟨rfl, fun _ _ => rfl, fun _ _ => rfl, (drew_touches s).mono (by simp) (by simp)⟩

/-- An update of what a sample may change alone. -/
theorem sample_retired (s : State) (e : Fin 9) (f : Engine → Engine)
    (h : f s.eng[e] = { s.eng[e] with ev := (f s.eng[e]).ev, samplePend := (f s.eng[e]).samplePend })
    (hv : ∀ i, i ≠ 4 → (f s.eng[e]).ev.getLsbD i = s.eng[e].ev.getLsbD i) : Retired e s.eng[e] s (s.onEng e f) := by
  obtain ⟨-, h2, h3, h4⟩ := onEng_retired s e f
  refine ⟨?_, fun i hi => ?_, h3, h4⟩
  · have : (s.onEng e f).eng[e] = f s.eng[e] := by simp [onEng]
    rw [this]
    exact h
  · rw [h2 i hi, hv i hi]

theorem loadSample_retired (s : State) (e : Fin 9) (k pc : Nat) : Retired e s.eng[e] s (s.loadSample e k pc) := by
  refine (setReg_retired s e _ _ ?_).trans (sample_retired _ e _ rfl fun i hi => ?_)
  · simp only [ownReg, R.IGS_En_SAMPLE]
    omega
  · have h4 : (16#16 : BitVec 16).getLsbD i = false := by
      rcases Nat.lt_or_ge i 16 with h | h
      · have := hi
        interval_cases i <;> first | rfl | omega
      · simp [BitVec.getLsbD_of_ge _ _ h]
    simp only [BitVec.getLsbD_or]
    exact (congrArg (s.eng[e].ev.getLsbD i || ·) h4).trans (Bool.or_false _)

theorem countOne_retired (s : State) (e : Fin 9) (sel n pc : Nat) (w : Bool) (k : Nat) (hk : k < 6) :
    Retired e s.eng[e] s (s.countOne e sel n pc w k) := by
  have hr : ownReg e (R.IGS_En_EVCNTk e k) := by
    simp only [ownReg, R.IGS_En_EVCNTk]
    omega
  simp only [countOne]
  split
  · exact Retired.refl _ _
  · have h := setReg_retired s e _ (BitVec.ofNat 32 ((s.reg (R.IGS_En_EVCNTk e k)).toNat + n)) hr
    split
    · exact h
    · split
      · refine h.trans ?_
        split
        · exact loadSample_retired _ _ _ _
        · exact (drew_retired _ e).trans (loadSample_retired _ _ _ _)
      · exact (h.trans (drew_retired _ e)).trans (sample_retired _ e _ rfl fun _ _ => rfl)

theorem evCount_retired (s : State) (e : Fin 9) (sel n pc : Nat) (w : Bool) :
    Retired e s.eng[e] s (s.evCount e sel n pc w) := by
  simp only [evCount]
  split
  · exact Retired.refl _ _
  · have : ∀ m, m ≤ 6 → Retired e s.eng[e] s ((List.range m).foldl (fun s k => s.countOne e sel n pc w k) s) := by
      intro m
      induction m with
      | zero => exact fun _ => Retired.refl _ _
      | succ m ih =>
        intro hm
        rw [List.range_succ, List.foldl_append]
        exact (ih (by omega)).trans (countOne_retired _ e sel n pc w m (by omega))
    exact this 6 (Nat.le_refl _)

theorem cycCount_retired (s : State) (e : Fin 9) (n : Nat) : Retired e s.eng[e] s (s.cycCount e n) := by
  simp only [cycCount]
  split
  · exact Retired.refl _ _
  · refine (setReg_retired s e _ _ ?_).trans (setReg_retired _ e _ _ ?_) <;> simp only [ownReg, R.IGS_En_CYC_LO] <;> omega

theorem retire_retired (s : State) (e : Fin 9) (pc : Nat) : Retired e s.eng[e] s (s.retire e pc) := by
  simp only [retire]
  split
  · exact evCount_retired _ _ _ _ _ _
  · split
    · exact (loadSample_retired _ _ _ _).trans (evCount_retired _ _ _ _ _ _)
    · exact (sample_retired _ e _ rfl fun _ _ => rfl).trans (evCount_retired _ _ _ _ _ _)

/-- What an instruction that completes does: its effect on its engine, the PC, and the counters. -/
theorem complete_retired (s : State) (e : Fin 9) (cycles stall next : Nat) (f : Engine → Engine) :
    Retired e { f { s.eng[e] with accBusy := s.eng[e].accBusy - (cycles + stall), ldDest := none } with pc := next } s
      (s.complete e cycles stall next f) := by
  simp only [complete]
  exact ((((onEng_retired s e _).trans (cycCount_retired _ _ _)).trans (evCount_retired _ _ _ _ _ _)).trans
    (evCount_retired _ _ _ _ _ _)).trans (retire_retired _ _ _)

/-- An instruction that is fetched without a fault. -/
theorem issue_of_issues (s : State) (e : Fin 9) (k : State → State) (h : s.issues e = true) : s.issue e k = k s := by
  simp only [issues, Bool.and_eq_true, decide_eq_true_eq, beq_iff_eq] at h
  obtain ⟨⟨-, hp⟩, he⟩ := h
  simp only [issue, Nat.not_le.mpr hp, if_false, engineWordRead, he, if_true, Bool.false_eq_true]

theorem whenRuns_of_issues (s : State) (e : Fin 9) (k : State → State) (h : s.issues e = true) : s.whenRuns e k = k s := by
  simp only [issues, Bool.and_eq_true] at h
  simp only [whenRuns, h.1.1, if_true]

end State

end Sys2Proof.Machine
end

