-- ==== Sys2Proof/Laws/LineFormat.lean ====
section
/-! SUPPORT. What the codes do on words of zeros: an iteration keeps the number of posteriors, and the word of zeros satisfies
every check (R48, R111, R112). -/

namespace Sys2Proof.Laws

open Sys2Proof Sys2Proof.Machine

/-- A check of a layered iteration keeps the number of posteriors. -/
theorem layerCheck_size (q : QcCode) (alpha : Nat) (st : Array Int × Array Int) (ir : Nat × Nat) :
    (layerCheck q alpha st ir).1.size = st.1.size := by
  unfold layerCheck
  generalize List.range _ = l
  simp only
  generalize hst : st = st0
  have key : ∀ (l : List Nat) (f : Nat → Nat) (g h : Nat → Int) (k : Nat → Nat) (z : Array Int × Array Int),
      (l.foldl (fun st i => (st.1.setIfInBounds (f i) (g i), st.2.setIfInBounds (k i) (h i))) z).1.size = z.1.size := by
    intro l f g h k
    induction l with
    | nil => intro z; rfl
    | cons a l ih => intro z; rw [List.foldl_cons, ih]; simp
  exact key _ _ _ _ _ _

/-- An iteration keeps the number of posteriors. -/
theorem iterate_length (q : QcCode) (alpha : Nat) (post msgs : List Int) :
    (q.iterate alpha post msgs).1.length = post.length := by
  have key : ∀ (l : List (Nat × Nat)) (z : Array Int × Array Int),
      (l.foldl (layerCheck q alpha) z).1.size = z.1.size := by
    intro l
    induction l with
    | nil => intro z; rfl
    | cons a l ih => intro z; rw [List.foldl_cons, ih, layerCheck_size]
  simp [QcCode.iterate, key]

/-- No posteriors stay no posteriors. -/
theorem iterate_nil (q : QcCode) (alpha : Nat) (msgs : List Int) : (q.iterate alpha [] msgs).1 = [] :=
  List.eq_nil_of_length_eq_zero (iterate_length q alpha [] msgs)

/-- A word of zeros satisfies every check. -/
theorem satisfied_zeros (q : QcCode) (w : List Bool) (h : ∀ b ∈ w, b = false) : q.satisfied w = true := by
  have hz : ∀ i, w.toArray.getD i false = false := by
    intro i
    simp only [Array.getD_eq_getD_getElem?, List.getElem?_toArray]
    cases hi : w[i]? with
    | none => rfl
    | some b => exact h b (List.mem_of_getElem? hi)
  have hf : ∀ l : List Nat, l.foldl (fun x b => x != w.toArray.getD b false) false = false := by
    intro l
    induction l with
    | nil => rfl
    | cons a l ih => rw [List.foldl_cons, hz]; exact ih
  unfold QcCode.satisfied
  simp only [hf, List.all_eq_true]
  simp

end Sys2Proof.Laws
end

