-- ==== Sys2Proof/Laws/Memory.lean ====
section
/-!
SUPPORT. The laws of the memories: every operation on them keeps their canonical form, and a byte that is written reads back.
-/

namespace Sys2Proof.Machine

namespace State

theorem reset_mem_wf : State.reset.mem.wf = true := by decide

/-- An uncorrectable read writes registers and logs an event: the stores stand. -/
@[simp] theorem uncorrectable_mem (s : State) (d c : Bool) (l y : Nat) : (s.uncorrectable d c l y).mem = s.mem := by
  have h := (logEvent_touches (((((s.bump (if d then R.MEM_DRAM_UE_CNT else R.MEM_SRAM_UE_CNT)).setReg R.MEM_ERR_ADDR
    (BitVec.ofNat 32 (if d then 2 ^ 31 + l / 8 % 2 ^ 26 else l % 2 ^ 22))).setReg R.MEM_ERR_INFO
    (BitVec.ofNat 32 (b2n c + 2 * (y % 256)))).setInt F.MEM_INT_ue)) srcMem 0x3001 y
    (if d then 2 ^ 31 + l / 8 % 2 ^ 26 else l % 2 ^ 22)).1 .mem (by simp)
  have k := (setInt_touches (((s.bump (if d then R.MEM_DRAM_UE_CNT else R.MEM_SRAM_UE_CNT)).setReg R.MEM_ERR_ADDR
    (BitVec.ofNat 32 (if d then 2 ^ 31 + l / 8 % 2 ^ 26 else l % 2 ^ 22))).setReg R.MEM_ERR_INFO
    (BitVec.ofNat 32 (b2n c + 2 * (y % 256)))) F.MEM_INT_ue).1 .mem (by simp)
  exact Eq.trans h k

/-- A read of a stored word leaves the stores alone; what stands in the word is its answer. -/
@[simp] theorem eccRead_mem (s : State) (d : Bool) (l : Option Nat) (c : Nat) : (s.eccRead d l c).1.mem = s.mem := by
  unfold eccRead
  split
  · rfl
  · rfl
  · dsimp only
    split
    · exact uncorrectable_mem _ _ _ _ _
    · exact uncorrectable_mem _ _ _ _ _
  · rfl

theorem eccPart_mem (s : State) (d : Bool) (l : Option Nat) (c : Nat) : (s.eccPart d l c).1.mem = s.mem :=
  eccRead_mem s d l c

theorem setDramCode_wf (s : State) (a c : Nat) (h : s.mem.wf = true) : (s.setDramCode a c).mem.wf = true := by
  simp only [MemState.wf, Bool.and_eq_true] at h ⊢
  exact ⟨⟨h.1.1, mapWf_mapSet _ _ _ _ h.1.2⟩, h.2⟩

theorem dramReadWord_wf (s : State) (a : Nat) (h : s.mem.wf = true) : (s.dramReadWord a).1.mem.wf = true := by
  unfold dramReadWord
  split
  · exact h
  · split
    · exact h
    · exact setDramCode_wf _ _ _ (by rw [eccRead_mem]; exact h)

/-- A read of DRAM keeps its canonical form. -/
theorem dramRead_wf (s : State) (a n : Nat) (h : s.mem.wf = true) : (s.dramRead a n).1.mem.wf = true := by
  unfold dramRead
  have go : ∀ (l : List Nat) (x : State × Bool), x.1.mem.wf = true → (l.foldl (fun (x : State × Bool) i =>
      let (t, q) := x.1.dramReadWord ((a / 8 + i) * 8 % 2 ^ 32); (t, x.2 || q)) x).1.mem.wf = true := by
    intro l
    induction l with
    | nil => exact fun _ h => h
    | cons i l ih => exact fun x h => ih _ (dramReadWord_wf _ _ h)
  exact go _ (s, false) h

theorem dramWriteWord_wf (s : State) (w a n : Nat) (h : s.mem.wf = true) : (s.dramWriteWord w a n).mem.wf = true := by
  unfold dramWriteWord
  split
  · exact h
  · split
    · exact setDramCode_wf _ _ _ h
    · exact setDramCode_wf _ _ _ ((congrArg MemState.wf (eccPart_mem s true (some w) (s.dramCode (8 * w)))).trans h)

theorem foldl_wf {β : Type} (g : MemState → β → MemState) (hg : ∀ m b, m.wf = true → (g m b).wf = true) (l : List β)
    (m : MemState) (h : m.wf = true) : (l.foldl g m).wf = true := by
  induction l generalizing m with
  | nil => exact h
  | cons b l ih => exact ih _ (hg _ _ h)

/-- A write of DRAM keeps its canonical form. -/
theorem dramWrite_wf (s : State) (a : Nat) (bs : List Byte) (h : s.mem.wf = true) : (s.dramWrite a bs).mem.wf = true := by
  have words : ∀ (l : List Nat) (s : State), s.mem.wf = true →
      (l.foldl (fun s i => s.dramWriteWord ((a / 8 + i) % 2 ^ 29) a bs.length) s).mem.wf = true := by
    intro l
    induction l with
    | nil => exact fun _ h => h
    | cons i l ih => exact fun s h => ih _ (dramWriteWord_wf s _ _ _ h)
  refine foldl_wf _ (fun m i k => ?_) _ _ (foldl_wf _ (fun m x k => ?_) _ _ (words _ s h))
  · simp only [MemState.wf, Bool.and_eq_true] at k ⊢
    exact ⟨⟨⟨k.1.1.1, mapWf_mapSet _ _ _ _ k.1.1.2⟩, k.1.2⟩, k.2⟩
  · simp only [MemState.wf, Bool.and_eq_true] at k ⊢
    exact ⟨⟨⟨mapWf_mapSet _ _ _ _ k.1.1.1, k.1.1.2⟩, k.1.2⟩, k.2⟩

/-- Clearing blocks of DRAM keeps its canonical form. -/
theorem dramClear_wf (s : State) (lo hi : Nat) (h : s.mem.wf = true) : (s.dramClear lo hi).mem.wf = true := by
  simp only [MemState.wf, Bool.and_eq_true] at h
  simp only [dramClear, onMem, MemState.wf, Bool.and_eq_true]
  exact ⟨⟨⟨mapWf_filter _ _ _ h.1.1.1, mapWf_filter _ _ _ h.1.1.2⟩, mapWf_filter _ _ _ h.1.2⟩, h.2⟩

/-- So does clearing one bank. -/
theorem dramClearBank_wf (s : State) (pc bank : Nat) (h : s.mem.wf = true) : (s.dramClearBank pc bank).mem.wf = true := by
  simp only [MemState.wf, Bool.and_eq_true] at h
  simp only [dramClearBank, onMem, MemState.wf, Bool.and_eq_true]
  exact ⟨⟨⟨mapWf_filter _ _ _ h.1.1.1, mapWf_filter _ _ _ h.1.1.2⟩, mapWf_filter _ _ _ h.1.2⟩, h.2⟩

/-- A byte of DRAM that is written reads back, and no other byte changes (R360). -/
theorem dramByte_set (s : State) (a b : Nat) (v : Byte) :
    (s.onMem fun m => { m with dram := mapSet 0 m.dram a v }).dramByte b = if b = a then v else s.dramByte b :=
  mapGet_mapSet _ _ _ _ _

/-! ## The stores of the ledger (R163, R164) -/

/-- What stands in a location of the SRAM arrays changes. -/
theorem setSramEcc_wf (s : State) (l c : Nat) (h : s.mem.wf = true) :
    (s.onMem fun m => { m with sramEcc := mapSet 0 m.sramEcc l c }).mem.wf = true := by
  simp only [onMem, MemState.wf, Bool.and_eq_true] at h ⊢
  exact ⟨h.1, ⟨⟨⟨h.2.1.1.1.1, mapWf_mapSet _ _ _ _ h.2.1.1.1.2⟩, h.2.1.1.2⟩, h.2.1.2⟩, h.2.2⟩

/-- A line of the SRAM arrays becomes valid. -/
theorem setSramValid_wf (m : MemState) (l : Nat) (h : m.wf = true) :
    ({ m with sramValid := mapSet false m.sramValid l true } : MemState).wf = true := by
  simp only [MemState.wf, Bool.and_eq_true] at h ⊢
  exact ⟨h.1, ⟨⟨⟨mapWf_mapSet _ _ _ _ h.2.1.1.1.1, h.2.1.1.1.2⟩, h.2.1.1.2⟩, h.2.1.2⟩, h.2.2⟩

/-- A fold over states that keeps the form at every step keeps it. -/
theorem foldl_state_wf {β : Type} (g : State → β → State) (hg : ∀ s b, s.mem.wf = true → (g s b).mem.wf = true) (l : List β)
    (s : State) (h : s.mem.wf = true) : (l.foldl g s).mem.wf = true := by
  induction l generalizing s with
  | nil => exact h
  | cons b l ih => exact ih _ (hg _ _ h)

/-- Writing a unit to a store keeps the form. -/
theorem storeWrite_wf (s : State) (hold : Bool) (q : Nat) (bs : List Block) (h : s.mem.wf = true) :
    (s.storeWrite hold q bs).mem.wf = true := by
  unfold storeWrite
  split
  · exact dramWrite_wf _ _ _ (dramWrite_wf _ _ _ h)
  · have lines : ∀ (l : List Nat) (v : List (Nat × Bool)), mapWf (fun _ => false) v = true →
        mapWf (fun _ => false) (l.foldl (fun v i => mapSet false v (sramSlot hold q / 8 + i) true) v) = true := by
      intro l
      induction l with
      | nil => exact fun _ h => h
      | cons i l ih => exact fun v h => ih _ (mapWf_mapSet _ _ _ _ h)
    simp only [onMem, MemState.wf, Bool.and_eq_true] at h ⊢
    exact ⟨h.1, ⟨⟨⟨lines _ _ h.2.1.1.1.1, mapWf_filter _ _ _ h.2.1.1.1.2⟩, h.2.1.1.2⟩, h.2.1.2⟩, h.2.2⟩

theorem spoil_wf (s : State) (hold : Bool) (q : Nat) (bad : List Nat) (h : s.mem.wf = true) : (s.spoil hold q bad).mem.wf = true := by
  refine foldl_state_wf _ (fun s w h => ?_) _ _ h
  split
  · dsimp only
    split
    · exact setDramCode_wf _ _ _ h
    · exact h
  · exact setSramEcc_wf _ _ _ h

theorem sramReadWord_wf (s : State) (l : Nat) (h : s.mem.wf = true) : (s.sramReadWord l).1.mem.wf = true := by
  unfold sramReadWord
  split
  · exact h
  · exact setSramEcc_wf _ _ _ (by rw [eccRead_mem]; exact h)

/-- Reading a unit from a store keeps the form. -/
theorem storeRead_wf (s : State) (hold : Bool) (q : Nat) (bad : List Nat) (bs : List Block) (h : s.mem.wf = true) :
    (s.storeRead hold q bad bs).1.mem.wf = true := by
  have k := spoil_wf s hold q (bad.filter (decide <| · < 237)) h
  have dram : ∀ (l : List Nat) (x : State × List (Option Nat)), x.1.mem.wf = true → (l.foldl
      (fun (acc : State × List (Option Nat)) w => let (s, v) := acc.1.storeWord hold q w; (s, acc.2 ++ [v])) x).1.mem.wf = true := by
    intro l
    induction l with
    | nil => exact fun _ h => h
    | cons i l ih => exact fun x h => ih _ (dramReadWord_wf _ _ h)
  have sram : ∀ (l : List Nat) (x : State × List Nat), x.1.mem.wf = true → (l.foldl
      (fun (acc : State × List Nat) w =>
        let (s, p) := acc.1.sramReadWord (sramSlot hold q + w)
        (s, if p then acc.2 ++ [w] else acc.2)) x).1.mem.wf = true := by
    intro l
    induction l with
    | nil => exact fun _ h => h
    | cons i l ih => exact fun x h => ih _ (sramReadWord_wf _ _ h)
  unfold storeRead
  generalize List.range 237 = l
  dsimp only
  split
  · exact dram l (_, []) k
  · exact sram l (_, []) k

/-- Rebuilding a member of a parity group keeps the form. -/
theorem rebuildMember_wf (s : State) (base g i : Nat) (h : s.mem.wf = true) : (s.rebuildMember base g i).mem.wf = true := by
  refine foldl_state_wf _ (fun s x h => ?_) _ _ (dramWrite_wf _ _ _ h)
  obtain ⟨v, w⟩ := x
  dsimp only
  split
  · exact setDramCode_wf _ _ _ h
  · exact h

/-! ## The patrol and the valid-bit arrays (R359, R360) -/

theorem setPatrolCode_wf (s : State) (dram : Bool) (l c : Nat) (h : s.mem.wf = true) : (s.setPatrolCode dram l c).mem.wf = true := by
  cases dram
  · exact setSramEcc_wf s _ _ h
  · simp only [setPatrolCode, onMem, MemState.wf, Bool.and_eq_true, if_true] at h ⊢
    exact ⟨⟨h.1.1, mapWf_mapSet _ _ _ _ h.1.2⟩, h.2⟩

/-- A patrol read keeps the form. -/
theorem patrol_wf (s : State) (dram : Bool) (l y : Nat) (h : s.mem.wf = true) : (s.patrol dram l y).mem.wf = true := by
  unfold patrol
  split
  · split
    · exact h
    · split
      · exact setPatrolCode_wf _ _ _ _ h
      · split
        · exact h
        · exact setPatrolCode_wf _ _ _ _ (by rw [uncorrectable_mem]; exact h)
  · exact setPatrolCode_wf _ _ _ _ h
  · exact setPatrolCode_wf _ _ _ _ (by rw [uncorrectable_mem]; exact h)
  · exact h

end State

end Sys2Proof.Machine
end

