-- ==== Sys2Proof/WellFormed.lean ====
section
/-!
DEFINITION. Which commands are well formed: the ranges and lengths that the spec gives what the world contributes to a
command. Operands whose type already keeps their range need no check.
-/

namespace Sys2Proof

/-- A value fits `n` bits in two's complement. -/
def signedFits (n : Nat) (v : Int) : Bool := decide (-(2 ^ (n - 1) : Int) ≤ v) && decide (v < (2 ^ (n - 1) : Int))

/-- Codes of whole blocks, after the 256 of the overlap (R87). -/
def RxBurst.wellFormed (b : RxBurst) : Bool := decide (256 ≤ b.codes.length) && decide (b.codes.length % 768 = 256)

/-- Four sub-DACs and 256 codes (R66, R67). -/
def DacCorr.wellFormed (c : DacCorr) : Bool :=
  c.gains.length == 4 && c.skews.length == 4 && c.offsets.length == 4 && c.errors.length == 256

/-- Whole sub-sample blocks of one of the lengths of *Pennant symbol length*, or none for a lane without power (R214). -/
def penBlocksOk (bs : PenBlocks) : Bool := bs.all fun b => b.toList.all fun l => [0, 1824, 1700, 1815].contains l.length

/-- The checks of each command: the 64 bytes of a header (R280), at most two repeats of a frame (R282), the 2,080 cycles of a
superframe (R24), the 544 symbols of an RS codeword and the blocks that it holds (R200), eight slots to a group (R47), the widths of RX_SLICE_DATA (R80), the field lengths of the line and of a pennant (R24, R144, R218, R223), the
memories' sizes (R355, R356), and the handshake limit (R265). -/
def Instr.wellFormed : Instr → Bool
  | .headerCheck bytes _ _ => bytes.length == 64
  | .recordRead reads _ => decide (1 ≤ reads.length) && decide (reads.length ≤ 3)
  | .alwaysOnCycle oscCount => decide (oscCount < 65536)
  | .commitGo _ ns => decide (ns ≤ 30518)
  | .rcRegisterRead _ same => decide (same < 2 ^ 32)
  | .hostRsCodeword _ cyc b => decide (cyc < 2080) && b.codeword.length == 544 && decide (b.markers ≤ 20)
  | .egressBlockOut _ cyc => decide (cyc < 2080)
  | .hostAdaptDone _ lower middle upper => decide (lower < 65536) && decide (middle < 65536) && decide (upper < 65536)
  | .localFaultBlockInsert _ cyc => decide (cyc < 2080)
  | .slotDecision _ poison => poison.all fun i => decide (i < 8)
  | .dacCalRunEnd _ r => r.corr.wellFormed
  | .lanePowerUp _ record => match record with | some (_, c) => c.wellFormed | none => true
  | .adcCalOfflineDone _ off gain _ => signedFits 8 off && signedFits 12 gain
  | .cdrFallbackLimit _ b => b.wellFormed
  | .cdrLockChange _ b => b.wellFormed
  | .pilotPeakFound _ b => b.wellFormed
  | .pilotPlateauNoPeak _ b => b.wellFormed
  | .pilotUpdate _ b _ => b.wellFormed
  | .fastRetrainPilotFound _ b => b.wellFormed
  | .controlMessageAccept copies => copies.all fun c => c.2.length == 2048
  | .codewordArrive _ _ burst displaced => burst.wellFormed && displaced.wellFormed
  | .ensignCheck _ labels _ => labels.length == 144
  | .emfMeasure _ lower middle upper => decide (lower < 65536) && decide (middle < 65536) && decide (upper < 65536)
  | .pennantPreambleDetect _ b | .burgeeMatch _ b | .burgeeTimeout b | .pennantHeaderReceived b | .pennantCapture b
    | .pennantCodewordDecoded b _ => penBlocksOk b
  | .monWindowEnd count _ => decide (count < 65536)
  | .scrubRead dram loc _ _ => decide (loc < if dram then 2 ^ 29 else 2 ^ 22)
  | .bistSliceEnd r => decide (r.applied < 65536) && decide (r.expected < 65536)
  | .brd _ _ _ _ handshake => decide (handshake ≤ 257)
  | .captureEnd stream post => post.all fun n => decide (n ≤ stream.size)
  | .vddAonPowerUp | .vddAonRemoved | .resetNAssert | .resetNRelease | .strapSample _ _ _ _ | .fuseLoad _
    | .checkerSelfTest _ | .dramInitDone _ | .nvmDiscovery _ _ _ | .signatureCheck | .igsReportsRunning
    | .igsStartTimeout | .superframeTimerTick | .snapGo _ _ | .snapComplete | .pmonDataRead _ | .registerWrite _ _
    | .loRegisterRead _ _ | .unmappedAccess _ _ _ | .handshakeTimeout _ _ | .mdioDataLoRead _ _ _ | .mdioDataHiWrite _ _ _ _
    | .dramWindowAccess _ _ _ _ | .nop _ | .link _ | .retrain _ | .power _ | .shutdown _ | .resetDp _ | .reset _
    | .capture _ | .bist _ | .imageLoad _ | .debugChal _ | .debugResp _ | .debugLock _ | .laser _
    | .commandCollide _ _ | .commandTakeupTimeout | .linkWaitTimeout | .debugChallengeExpire | .fuseOpGo _ _
    | .fuseOpDone _ _ | .bscanInstruction _ | .portAmLockLoss _ | .portAmLockReturn _ _ | .controlMessageCapture
    | .dacCalRunRequest _ _ | .adcCalRunRequest _ _ | .adcCalPeriodExpire _
    | .adcCalShadowDone _ _ | .adcCalStepEnd _ _ _ | .throttlePauseEnd _ | .acquireTimeout _ | .tapSwitch _ _ | .tapDataWrite _ _ _
    | .tapDataRead _ _ | .poolTick | .coreDispatch _ _ | .iterationEnd _ | .codewordDeadline _ | .notDispatchedExpire
    | .coreStall _ | .messageMemoryUe _ _ | .releaseRecord _ _ | .historyBurstWritten | .handOn _ _
    | .holdVerifyRead _ | .unitExpire | .unitDueRelease _ | .lineFaultOnset | .bankRebuildDone _ | .inviteTimer
    | .partnerAbsentTimeout | .bringupStepTimeout | .partnerLossTimeout | .relockTimeout _ | .fullRetrainTimeout _
    | .windowCheckDone | .lineSignalDetect _ | .hostSignalDetect _ | .hostAdaptTimeout _
    | .hostLaneDown _ _ | .hostRxRestart _ _ | .hostIdleExit _ _ | .hostFastExitTimeout _
    | .prbsResync _ _ | .prbsSlipBit _ _ | .prbsSlipSym _ _ | .prbsCheckLock _ _ | .prbsLockLoss _ _
    | .pennantTxStart _ | .pennantTxEnd _ | .mailSend _ _
    | .mailAbort _ | .mailAckTimeout | .mailPop _ | .telemetryTimer | .timeWrap _ | .ptpIngressStamp _ _ _ _ | .timeNowRead _ _ | .timeStepGo _ _
    | .timeStepApply _ | .ptpEgressCorrect _ _ _ | .tsyncEdge _ _ _ | .ppsWindowClose _ | .servoOfsWrite _ _
    | .refclkLoss | .synthRelock _ | .revert _ | .trimMeasure _ _ | .rampStep _ | .pllUnlock _ | .clkGateWrite _ _ _
    | .gateCloseForced _ | .quietIdleTimeout | .standbyIdleTimeout | .participantAnswer _ _ | .participantDelayLimit
    | .finalWindowEnd | .wakeSource _ | .exitComplete | .retentionVerify _ | .readinessTimeout _ | .wakeRetry
    | .wakeFailClear _ | .followSquelchEnd | .conversionEnd _ | .hskEntryDelayEnd _ | .refReady | .biasUpdate _
    | .biasCurrentLimit _ _ | .sensorReading _ | .txdisChange _ | .memClearGo _ | .memClearDone | .memInjArm _ _
    | .dramBankFail _ _ | .nopInstruction _ | .add _ _ _ _ | .sub _ _ _ _ | .and _ _ _ _ | .or _ _ _ _ | .xor _ _ _ _
    | .shl _ _ _ _ | .shr _ _ _ _ | .sar _ _ _ _ | .mul _ _ _ _ | .slt _ _ _ _ | .sltu _ _ _ _ | .min _ _ _ _
    | .max _ _ _ _ | .addi _ _ _ _ | .andi _ _ _ _ | .ori _ _ _ _ | .xori _ _ _ _ | .shli _ _ _ _ | .shri _ _ _ _
    | .sari _ _ _ _ | .movi _ _ _ | .movhi _ _ _ | .ld _ _ _ _ | .st _ _ _ _ | .bwr _ _ _ _ | .engineWriteDrain _ _
    | .beq _ _ _ _ | .bne _ _ _ _ | .blt _ _ _ _ | .bge _ _ _ _ | .bltu _ _ _ _ | .bgeu _ _ _ _ | .j _ _ | .call _ _
    | .ret _ | .macc _ _ _ | .msub _ _ _ | .rdacc _ _ _ | .clracc _ | .ldacc _ _ _ | .wfe _ _ _ | .tset _ _ _
    | .kick _ | .halt _ | .dumpComplete _ | .engineTimerExpire _ _ | .engineWatchdogExpire _ | .engineHaltRequest _ _
    | .engineRunRequest _ _ | .engineStepRequest _ _ | .engineRestart _ _ | .engineDoorbell _
    | .enginePowerAnswer _ _ _ | .engineLogWrite _ _ _ | .engineMemDataAccess _ _ _ | .igsFreezeWrite _ _
    | .eventAccept _ | .evrWin0Read _ | .evrWin3Read _ | .evrFreezeWrite _ _ | .captureAbort _ | .captureWaitTimeout
    | .lineSignalLoss _ | .dramControllerFatal _ | .bistCommandTimeout | .laserTimeout | .powerAnswerTimeout _
    | .vddAonFall | .illegalInstruction _ _ => true

end Sys2Proof
end

