-- ==== Sys2Proof/Tests/Slice0.lean ====
section
/-!
SUPPORT. The tests of the package: for each statement with premises a concrete state and operands that meet them, an
ill-formed command for each check of well-formedness, and values that the spec works out.
-/

open Sys2Proof Sys2Proof.Machine Sys2Proof.Machine.State

namespace Sys2Proof.Machine.State

/-- The mailbox's arguments. -/
def withArgs (s : State) (a b c d : Word) : State :=
  (((s.setReg (R.TOP_CMD_ARGk 0) a).setReg (R.TOP_CMD_ARGk 1) b).setReg (R.TOP_CMD_ARGk 2) c).setReg (R.TOP_CMD_ARGk 3) d

def inDev (s : State) (d : DevState) : State := { s with mgmt := { s.mgmt with dev := d } }

/-- A command is BUSY and taken up. -/
def inCommand (s : State) (op : Nat) : State :=
  let s := (s.wr F.TOP_CMD_STAT_status 1).wr F.TOP_CMD_STAT_opcode op
  { s with mgmt := { s.mgmt with cmdTaken := true } }

/-- A field in force. -/
def withCfg (s : State) (f : CField) (v : Nat) : State :=
  s.setInForce f.addr (putField (s.inForceReg f.addr) f.lo f.width v)

def atStep (s : State) (step status : Nat) : State :=
  { s with dp := { s.dp with link := { s.dp.link with step := step, status := status } } }

def withPort (s : State) (p : Fin 16) (q : Port) : State :=
  { s with dp := { s.dp with ports := s.dp.ports.set p q } }

def withHost (s : State) (n : Fin 16) (h : HostLane) : State :=
  { s with dp := { s.dp with host := s.dp.host.set n h } }

end Sys2Proof.Machine.State

namespace Sys2Proof.Tests

set_option Elab.async false

open Sys2Proof Sys2Proof.Machine Sys2Proof.Machine.State

/-! ## States -/

/-- The device after boot: configured, with every clock locked, DRAM ready, IG-S running and every line lane powered. -/
def live : State :=
  let s : State := { State.reset with
    mgmt := { State.reset.mgmt with dev := .configured, timerRun := true }
    boot := { State.reset.boot with phase := .done, commitOne := true }
    clk := { State.reset.clk with stopped := [], hostLock := 15 }
    dp := { State.reset.dp with
      tx := Vector.replicate 8 { TxLane.initial with powered := true }
      rx := Vector.replicate 8 { RxLane.initial with powered := true } }
    safe := { State.reset.safe with igsRun := true } }
  let s := s.wr F.CLK_STAT_lock 0xFF
  let s := s.wr F.CLK_STAT_ref_ok 1
  let s := s.setBoth F.TOP_MODE_line_mode 1
  s.wr F.MEM_STAT_dram_ready 1

/-- One engine as `g`. -/
def withEngine (e : Fin 9) (g : Engine) : State := { live with eng := live.eng.set e g }

/-- An engine that runs, at PC 4, with 1 to 16 in its registers. -/
def runner : Engine :=
  { Engine.initial with st := .run, pc := 4, hasProg := true, g := Vector.ofFn fun i => BitVec.ofNat 32 (i.val + 1) }

/-- In boot, at a phase of it. -/
def bootAt (p : BootPhase) : State :=
  { live with mgmt := { live.mgmt with dev := .boot, timerRun := false }, boot := { live.boot with phase := p, commitOne := false } }

/-- An image header of 1,024 bytes and 9 records. -/
def header : List Byte :=
  let h := leBytes 4 0x3208A5C3 ++ leBytes 2 1 ++ leBytes 2 64 ++ leBytes 4 0x0C1B3208 ++ leBytes 4 0xB0 ++ leBytes 4 1024
    ++ leBytes 4 9 ++ leBytes 4 0 ++ leBytes 4 7 ++ List.replicate 28 0
  h ++ leBytes 4 (crc32 h)

/-- An image record. -/
def frame (kind : Nat) (body : List Byte) : List Byte :=
  let h := leBytes 2 kind ++ [0, 0] ++ leBytes 4 body.length ++ body
  h ++ leBytes 4 (crc32 h)

/-- A port of one lane, its own. -/
def port1 (p : Fin 16) : Port := { Port.initial with first := p.val, width := 1, amLock := true }

/-- A host lane that is up. -/
def hostUp : HostLane := { HostLane.initial with st := .up, sig := true, cdr := true, adapted := true }

/-- A device whose host lane 3 is used, with a port of its own. -/
def host3 (h : HostLane) : State := ((live.withCfg (F.HLn_CTRL_enable 3) 1).withPort 3 (port1 3)).withHost 3 h

namespace P

def brd (a : Nat) : State := withEngine 3 { runner with g := runner.g.set 3 (BitVec.ofNat 32 a) }
def bp (a c : Nat) : State := let s := brd a; { s with mem := { s.mem with regEcc := [(a, c)] } }

theorem witness_ArithmeticInstructions :
    (∃ (s : State) (e : Fin 9), s.issues e = true) :=
  ⟨(withEngine 3 runner), 3, by decide +kernel⟩

theorem witness_DataMemory :
    (∃ (s : State) (e : Fin 9) (a : Fin 16) (imm : BitVec 18), s.issues e = true ∧
      let at_ := (s.eng[e].g[a] + BitVec.ofInt 32 imm.toInt).toNat;
      at_ % 4 = 0 ∧ at_ < State.dataBytes e ∧ mapGet 0 s.eng[e].ecc (2 ^ 20 + at_ / 8) = 0)
    ∧ (∃ (s : State) (e : Fin 9) (a : Fin 16) (imm : BitVec 18), s.issues e = true ∧
      let at_ := (s.eng[e].g[a] + BitVec.ofInt 32 imm.toInt).toNat;
      (at_ % 4 ≠ 0 ∨ State.dataBytes e ≤ at_)) :=
  ⟨⟨(withEngine 8 runner), 8, 3, 4, by dsimp only; decide +kernel⟩,
  ⟨(withEngine 8 runner), 8, 3, 5, by dsimp only; decide +kernel⟩⟩

theorem witness_ControlFlow :
    (∃ (s : State) (e : Fin 9) (off : BitVec 18), s.issues e = true ∧ 0 ≤ (s.eng[e].pc : Int) + 1 + off.toInt)
    ∧ (∃ (s : State) (e : Fin 9) (target : BitVec 16), s.issues e = true ∧ target.toNat < State.progWords e)
    ∧ (∃ (s : State) (e : Fin 9) (target : BitVec 16), s.issues e = true ∧ target.toNat < State.progWords e ∧
      s.eng[e].stack.length < 4)
    ∧ (∃ (s : State) (e : Fin 9), s.issues e = true ∧ ∃ back ∈ s.eng[e].stack.take 1, ∃ rest ∈ [s.eng[e].stack.drop
      1], s.eng[e].stack = back :: rest)
    ∧ (∃ (s : State) (e : Fin 9), s.issues e = true ∧ s.eng[e].stack = [])
    ∧ (∃ (s : State) (e : Fin 9), s.issues e = true ∧ 4 ≤ s.eng[e].stack.length)
    ∧ (∃ (s : State) (e : Fin 9) (target : BitVec 16), s.issues e = true ∧ State.progWords e ≤ target.toNat) :=
  ⟨⟨(withEngine 1 runner), 1, (-5), by decide +kernel⟩,
  ⟨(withEngine 2 { runner with stack := [7, 8, 9] }), 2, 0, by decide +kernel⟩,
  ⟨(withEngine 2 { runner with stack := [7, 8, 9] }), 2, 0, by decide +kernel⟩,
  ⟨(withEngine 2 { runner with stack := [7, 8, 9] }), 2, by decide +kernel⟩,
  ⟨(withEngine 2 { runner with stack := [] }), 2, by decide +kernel⟩,
  ⟨(withEngine 2 { runner with stack := [1, 7, 8, 9] }), 2, by decide +kernel⟩,
  ⟨(withEngine 2 { runner with stack := [] }), 2, 0xFFFF, by decide +kernel⟩⟩

theorem witness_AccumulatorInstructions :
    (∃ (s : State) (e : Fin 9), s.issues e = true) :=
  ⟨(withEngine 2 { runner with acc := 0x7FFFFFFFFFFFFFFF }), 2, by decide +kernel⟩

theorem witness_EventInstructions :
    (∃ (s : State) (e : Fin 9), s.issues e = true)
    ∧ (∃ (s : State) (e : Fin 9) (imm : BitVec 18), s.issues e = true ∧
      let g := s.eng[e];
      let mask := imm.setWidth 16;
      (mask = 0 ∨ g.ev &&& mask ≠ 0))
    ∧ (∃ (s : State) (e : Fin 9) (imm : BitVec 18), s.issues e = true ∧
      let g := s.eng[e];
      let mask := imm.setWidth 16;
      mask ≠ 0 ∧ g.ev &&& mask = 0)
    ∧ (∃ (s : State) (e : Fin 9) (word : Word), s.issues e = true ∧ igsDecode e word 0 = none) :=
  ⟨⟨(withEngine 2 { runner with ev := 1 }), 2, by decide +kernel⟩,
  ⟨(withEngine 2 { runner with ev := 1 }), 2, 1, by dsimp only; decide +kernel⟩,
  ⟨(withEngine 2 { runner with ev := 2 }), 2, 1, by dsimp only; decide +kernel⟩,
  ⟨(withEngine 2 { runner with ev := 2 }), 2, 1, by decide +kernel⟩⟩

theorem witness_TrapConsequences :
    (∃ (s : State) (e : Fin 9) (cause : Nat), s.dump.writing = false ∧ (e = 3 ∨ e = 4))
    ∧ (∃ (s : State) (e : Fin 9) (cause : Nat), s.dump.writing = false ∧ e = 1)
    ∧ (∃ (s : State) (e : Fin 9) (cause : Nat), s.dump.writing = false ∧ e = 0)
    ∧ (∃ (s : State) (e : Fin 9) (cause : Nat), s.dump.writing = false ∧ e = 2)
    ∧ (∃ (s : State) (e : Fin 9) (cause : Nat), s.dump.writing = false ∧ 5 ≤ e.val ∧ (s.eng[e].trapTimes.filter fun x
      => decide (s.evr.time - x < 32768)).length < 2)
    ∧ (∃ (s : State) (e : Fin 9) (cause : Nat), s.dump.writing = false ∧ 5 ≤ e.val ∧ 2 ≤ (s.eng[e].trapTimes.filter
      fun x => decide (s.evr.time - x < 32768)).length) :=
  ⟨⟨live, 4, 3, by decide +kernel, by decide⟩,
  ⟨live, 1, 3, by decide +kernel, by decide⟩,
  ⟨live, 0, 3, by decide +kernel, by decide⟩,
  ⟨live, 2, 3, by decide +kernel, by decide⟩,
  ⟨live, 8, 3, by decide +kernel, by decide, by decide +kernel⟩,
  ⟨withEngine 5 { runner with trapTimes := [0, 0] }, 5, 3, by decide +kernel, by decide, by decide +kernel⟩⟩

theorem witness_DeviceSpaceInstructions :
    (∃ (s : State) (e : Fin 9) (a : Fin 16) (imm : BitVec 18) (handshake : Nat),
      let g := s.eng[e];
      let at_ := (g.g[a] + BitVec.ofInt 32 imm.toInt).toNat;
      s.issues e = true ∧ at_ % 4 = 0 ∧ s.engineMay e at_ false = true ∧ g.wbuf = [] ∧ handshake ≤ 256 ∧
      let r := s.busRead (Source.ofEngine e g.pc 40) at_ 0;
      r.2.2 = false)
    ∧ (∃ (s : State) (e : Fin 9) (a : Fin 16) (imm : BitVec 18) (handshake : Nat),
      let g := s.eng[e];
      let at_ := (g.g[a] + BitVec.ofInt 32 imm.toInt).toNat;
      s.issues e = true ∧ at_ % 4 = 0 ∧ s.engineMay e at_ false = true ∧ g.wbuf = [] ∧ handshake ≤ 256 ∧
      let r := s.busRead (Source.ofEngine e g.pc 40) at_ 0;
      r.2.2 = true)
    ∧ (∃ (s : State) (e : Fin 9) (a : Fin 16) (imm : BitVec 18),
      let g := s.eng[e];
      let at_ := (g.g[a] + BitVec.ofInt 32 imm.toInt).toNat;
      s.issues e = true ∧ at_ % 4 = 0 ∧ s.engineMay e at_ true = true ∧ g.wbuf.length < 4)
    ∧ (∃ (s : State) (e : Fin 9) (a : Fin 16) (imm : BitVec 18),
      let g := s.eng[e];
      let at_ := (g.g[a] + BitVec.ofInt 32 imm.toInt).toNat;
      s.issues e = true ∧ at_ % 4 ≠ 0)
    ∧ (∃ (s : State) (e : Fin 9) (a : Fin 16) (imm : BitVec 18),
      let g := s.eng[e];
      let at_ := (g.g[a] + BitVec.ofInt 32 imm.toInt).toNat;
      s.issues e = true ∧ at_ % 4 = 0 ∧ s.engineMay e at_ false = false)
    ∧ (∃ (s : State) (e : Fin 9) (a : Fin 16) (imm : BitVec 18),
      let g := s.eng[e];
      let at_ := (g.g[a] + BitVec.ofInt 32 imm.toInt).toNat;
      s.issues e = true ∧ at_ % 4 = 0 ∧ s.engineMay e at_ true = false)
    ∧ (∃ (s : State) (e : Fin 9),
      let g := s.eng[e];
      ∃ (k : Fin 9) (j : Fin 4), ∃ vw ∈ g.wbuf.take 1,
      let v := vw.2.1;
      let pc := vw.2.2;
      ∃ rest ∈ [g.wbuf.drop 1],
      let r := R.IGS_En_SCRk k j;
      g.wbuf = (r, v, pc) :: rest ∧ s.ready 4 r = true) :=
  ⟨⟨(brd (R.IGS_En_SCRk 3 1)), 3, 3, 0, 3, by dsimp only; decide +kernel⟩,
  ⟨(bp (R.IGS_En_SCRk 3 1) 2), 3, 3, 0, 3, by dsimp only; decide +kernel⟩,
  ⟨(brd (R.IGS_En_SCRk 3 1)), 3, 3, 0, by dsimp only; decide +kernel⟩,
  ⟨(brd (R.IGS_En_SCRk 3 1 + 1)), 3, 3, 0, by dsimp only; decide +kernel⟩,
  ⟨(brd 0x90000000), 3, 3, 0, by dsimp only; decide +kernel⟩,
  ⟨(brd 0x90000000), 3, 3, 0, by dsimp only; decide +kernel⟩,
  ⟨(withEngine 3 { runner with wbuf := [(R.IGS_En_SCRk 3 1, 77, 4), (0, 0, 0)] }), 3, by dsimp only; decide +kernel⟩⟩

end P

namespace Q

def dbg (s : State) : State := s.wr F.SEC_DBG_STAT_unlocked 1
def ev0 : EvrEntry := { time := 5, source := 3, held := false, code := 0x1234, argA := 1, argB := 4 }
def rec_ (f : Evr → Evr) : State := { live with evr := f { live.evr with recording := true, waiting := [ev0] } }
def capd (n : Nat) : State := { live with cap := {live.cap with phase := n, len := 64} }
def cmd7 (s : State) : State := let s := (s.wr F.TOP_CMD_STAT_status 1).wr F.TOP_CMD_STAT_opcode 7; {s with mgmt := {s.mgmt with cmdTaken := true}}

theorem witness_EngineControl :
    (∃ (s : State) (e : Fin 9) (timer : Fin 2),
      let g := s.eng[e];
      let left := if timer = 0 then g.timer0 else g.timer1;
      left ≠ 0 ∧ g.st ≠ .wait)
    ∧ (∃ (s : State) (e : Fin 9) (timer : Fin 2) (d : Fin 16) (m : BitVec 16),
      let g := s.eng[e];
      let left := if timer = 0 then g.timer0 else g.timer1;
      left ≠ 0 ∧ g.st = .wait ∧ g.wfe = some (d, m) ∧ m.getLsbD timer = true)
    ∧ (∃ (s : State) (e : Fin 9) (timer : Fin 2),
      let g := s.eng[e];
      let left := if timer = 0 then g.timer0 else g.timer1;
      left = 0)
    ∧ (∃ (s : State) (e : Fin 9), s.engineAlive e = true ∧ (e = 1 ∨ s.rd (F.IGS_En_WDOG_ms e) ≠ 0))
    ∧ (∃ (s : State) (e : Fin 9), s.engineAlive e = true ∧ e ≠ 1 ∧ s.rd (F.IGS_En_WDOG_ms e) = 0)
    ∧ (∃ (s : State) (e : Fin 9) (port : Fin 5),
      let ctrl := s.ready port (R.IGS_En_CTRL e);
      let debug := s.debugPort port e;
      ctrl = true ∧ debug = true ∧ s.engineAlive e = true)
    ∧ (∃ (s : State) (e : Fin 9) (port : Fin 5),
      let g := s.eng[e];
      let ctrl := s.ready port (R.IGS_En_CTRL e);
      let debug := s.debugPort port e;
      ctrl = true ∧ debug = true ∧ g.st = .halted ∧ g.wfe = none)
    ∧ (∃ (s : State) (e : Fin 9) (port : Fin 5) (d : Fin 16) (m : BitVec 16),
      let g := s.eng[e];
      let ctrl := s.ready port (R.IGS_En_CTRL e);
      let debug := s.debugPort port e;
      ctrl = true ∧ debug = true ∧ g.st = .halted ∧ g.wfe = some (d, m) ∧ g.ev &&& m = 0)
    ∧ (∃ (s : State) (e : Fin 9) (port : Fin 5),
      let g := s.eng[e];
      let ctrl := s.ready port (R.IGS_En_CTRL e);
      let debug := s.debugPort port e;
      ctrl = true ∧ debug = true ∧ g.st = .halted)
    ∧ (∃ (s : State) (e : Fin 9) (port : Fin 5), s.ready port (R.IGS_En_CTRL e) = true ∧ s.debugPort port e = true ∧
      s.eng[e].st = .halted ∧ s.eng[e].wfe = none ∧ s.eng[e].pc < State.progWords e ∧ mapGet 0 s.eng[e].ecc
      (s.eng[e].pc / 2) = 0 ∧ (∀ h, igsDecode e (mapGet 0 s.eng[e].prog s.eng[e].pc) h = some (.nopInstruction e)))
    ∧ (∃ (s : State) (e : Fin 9) (port : Fin 5),
      let g := s.eng[e];
      let ctrl := s.ready port (R.IGS_En_CTRL e);
      let debug := s.debugPort port e;
      ctrl = true ∧ debug = true ∧ g.hasProg = true)
    ∧ (∃ (s : State) (e : Fin 9) (port : Fin 5),
      let ctrl := s.ready port (R.IGS_En_CTRL e);
      let debug := s.debugPort port e;
      ctrl = true ∧ debug = false)
    ∧ (∃ (s : State) (e : Fin 9),
      let g := s.eng[e];
      s.reach 4 (R.IGS_En_DOORBELL e) = true ∧ g.st ≠ .wait)
    ∧ (∃ (s : State) (e : Fin 9) (port : Fin 5),
      let g := s.eng[e];
      let debug := s.debugPort port e;
      s.ready port (R.IGS_En_MEM_DATA e) = true ∧ debug = true ∧
      let data := s.flag (F.IGS_En_MEM_ADDR_data e);
      let w := s.rd (F.IGS_En_MEM_ADDR_addr e) / 4;
      (w < if data then State.dataBytes e / 4 else State.progWords e) ∧ mapGet 0 g.ecc ((if data then 2 ^ 20 else 0) +
      w / 2) = 0)
    ∧ (∃ (s : State) (port : Fin 5), s.ready port R.IGS_FREEZE = true) :=
  ⟨⟨(withEngine 3 { runner with timer0 := 5 }), 3, 0, by dsimp only; decide +kernel⟩,
  ⟨(withEngine 3 { runner with timer1 := 5, st := .wait, wfe := some (2, 2) }), 3, 1, 2, 2,
      by dsimp only; decide +kernel⟩,
  ⟨(withEngine 3 runner), 3, 1, by dsimp only; decide +kernel⟩,
  ⟨(withEngine 1 runner), 1, by decide +kernel⟩,
  ⟨(withEngine 3 runner), 3, by decide +kernel⟩,
  ⟨(dbg (withEngine 3 {runner with prog := [(4, 0)]})), 3, 0, by dsimp only; decide +kernel⟩,
  ⟨(dbg (withEngine 3 {runner with prog := [(4, 0)], st := .halted})), 3, 0, by dsimp only; decide +kernel⟩,
  ⟨(dbg (withEngine 3 {runner with prog := [(4, 0)], st := .halted, wfe := some (2, 2)})), 3, 0, 2, 2,
      by dsimp only; decide +kernel⟩,
  ⟨(dbg (withEngine 3 {runner with prog := [(4, 0)], st := .halted})), 3, 0, by dsimp only; decide +kernel⟩,
  ⟨dbg (withEngine 3 { runner with prog := [(4, 0)], st := .halted }), 3, 0, by decide +kernel, by decide +kernel,
      by decide +kernel, by decide +kernel, by decide +kernel, by decide +kernel, fun h => rfl⟩,
  ⟨(dbg (withEngine 3 {runner with prog := [(4, 0)]})), 3, 0, by dsimp only; decide +kernel⟩,
  ⟨(withEngine 3 runner), 3, 0, by dsimp only; decide +kernel⟩,
  ⟨(withEngine 3 runner), 3, by dsimp only; decide +kernel⟩,
  ⟨(dbg (withEngine 3 {runner with prog := [(4, 0)]})), 3, 0, by dsimp only; decide +kernel⟩,
  ⟨(withEngine 3 runner), 0, by decide +kernel⟩⟩

theorem witness_EventRecorder :
    (∃ (s : State) (e : Fin 9) (code : BitVec 16), s.ready 4 (R.IGS_En_LOG e) = true ∧ code ≠ 0 ∧ s.evr.waiting.any
      (·.source == e.val) = false)
    ∧ (∃ (s : State) (e : Fin 9) (code : BitVec 16), s.ready 4 (R.IGS_En_LOG e) = true ∧ code ≠ 0 ∧ s.evr.waiting.any
      (·.source == e.val) = true)
    ∧ (∃ (s : State) (e : Fin 9) (code : BitVec 16), s.ready 4 (R.IGS_En_LOG e) = true ∧ code = 0)
    ∧ (∃ (s : State) (code : BitVec 16) (x : EvrEntry) (rest : List EvrEntry),
      let storing : Prop := s.evr.waiting = x :: rest ∧ s.watchHit x = false ∧ (s.cap.phase ≠ 1 ∨ x.code ≠
          s.cap.trigCode);
      let open_ := !s.evrFrozen && s.evr.recording;
      storing ∧ open_ = true ∧ s.evr.wr < 256)
    ∧ (∃ (s : State) (code : BitVec 16) (x : EvrEntry) (rest : List EvrEntry),
      let storing : Prop := s.evr.waiting = x :: rest ∧ s.watchHit x = false ∧ (s.cap.phase ≠ 1 ∨ x.code ≠
          s.cap.trigCode);
      let open_ := !s.evrFrozen && s.evr.recording;
      storing ∧ open_ = true ∧ 256 ≤ s.evr.wr ∧ s.evr.circ.length ≤ 1024)
    ∧ (∃ (s : State) (code : BitVec 16) (x : EvrEntry) (rest : List EvrEntry),
      let storing : Prop := s.evr.waiting = x :: rest ∧ s.watchHit x = false ∧ (s.cap.phase ≠ 1 ∨ x.code ≠
          s.cap.trigCode);
      let open_ := !s.evrFrozen && s.evr.recording;
      storing ∧ open_ = false ∧ s.evr.hold.length < 32)
    ∧ (∃ (s : State) (code : BitVec 16) (x : EvrEntry) (rest : List EvrEntry),
      let storing : Prop := s.evr.waiting = x :: rest ∧ s.watchHit x = false ∧ (s.cap.phase ≠ 1 ∨ x.code ≠
          s.cap.trigCode);
      let open_ := !s.evrFrozen && s.evr.recording;
      storing ∧ open_ = false ∧ 32 ≤ s.evr.hold.length)
    ∧ (∃ (s : State) (x : EvrEntry) (rest : List EvrEntry), s.evr.waiting = x :: rest ∧ s.watchHit x = true)
    ∧ (∃ (s : State) (code : BitVec 16) (x : EvrEntry) (rest : List EvrEntry), s.evr.waiting = x :: rest ∧ s.cap.phase
      = 1 ∧ x.code = s.cap.trigCode)
    ∧ (∃ (s : State) (port : Fin 5), s.ready port R.EVR_CTRL = true)
    ∧ (∃ (s : State) (port : Fin 5), s.ready port R.EVR_CTRL = true ∧ s.evr.recording = true) :=
  ⟨⟨live, 3, 0x1234, by decide +kernel⟩,
  ⟨(rec_ id), 3, 0x1234, by decide +kernel⟩,
  ⟨live, 3, 0, by decide +kernel⟩,
  ⟨(rec_ id), 0x1234, ev0, [], by dsimp only; decide +kernel⟩,
  ⟨(rec_ fun e => {e with wr := 256}), 0x1234, ev0, [], by dsimp only; decide +kernel⟩,
  ⟨(rec_ fun e => {e with recording := false}), 0x1234, ev0, [], by dsimp only; decide +kernel⟩,
  ⟨(rec_ fun e => {e with recording := false, hold := List.replicate 32 ev0}), 0x1234, ev0, [],
      by dsimp only; decide +kernel⟩,
  ⟨(((rec_ id).wr F.EVR_WATCH_code 0x1234).wr F.EVR_WATCH_mask 0xF000), ev0, [], by decide +kernel⟩,
  ⟨{ rec_ id with cap := {live.cap with phase := 1, trigCode := 0x1234, len := 100, preShare := 50}}, 0x1234, ev0, [],
      by decide +kernel⟩,
  ⟨live, 0, by decide +kernel⟩,
  ⟨(rec_ id), 0, by decide +kernel⟩⟩

theorem witness_EventWindow :
    (∃ (s : State) (port : Fin 5), s.ready port R.EVR_CURSOR = true)
    ∧ (∃ (s : State) (port : Fin 5) (x : EvrEntry),
      let i := s.rd F.EVR_CURSOR_index;
      let window := s.ready port (R.EVR_WINk 0);
      window = true ∧ i < s.evr.wr % 2 ^ 32 ∧ s.entryAt i = some x)
    ∧ (∃ (s : State) (port : Fin 5),
      let i := s.rd F.EVR_CURSOR_index;
      let window := s.ready port (R.EVR_WINk 0);
      window = true ∧ i < s.evr.wr % 2 ^ 32 ∧ s.entryAt i = none)
    ∧ (∃ (s : State) (port : Fin 5),
      let i := s.rd F.EVR_CURSOR_index;
      let window := s.ready port (R.EVR_WINk 0);
      window = true ∧ s.evr.wr % 2 ^ 32 ≤ i)
    ∧ (∃ (s : State) (port : Fin 5) (k : Fin 2),
      let mid := R.EVR_WINk (1 + k);
      s.ready port mid = true ∧ mapGet none s.mgmt.hiLatch ((Source.ofPort port 40 0).latchKey mid) = none)
    ∧ (∃ (s : State) (port : Fin 5), s.ready port (R.EVR_WINk 3) = true) :=
  ⟨⟨live, 0, by decide +kernel⟩,
  ⟨{live with evr := {live.evr with wr := 1, kept := [ev0], latched := [1,2,3,4]}}, 0, ev0,
      by dsimp only; decide +kernel⟩,
  ⟨{live with evr := {live.evr with wr := 1, kept := [], latched := [1,2,3,4]}}, 0, by dsimp only; decide +kernel⟩,
  ⟨live, 0, by dsimp only; decide +kernel⟩,
  ⟨live, 0, 0, by dsimp only; decide +kernel⟩,
  ⟨live, 0, by decide +kernel⟩⟩

theorem witness_CaptureAndDump :
    (∃ (s : State) (stream : CapStream),
      let ring := ringAfter s.cap.len (capBytes stream);
      let mine := capSource stream = s.cap.source;
      s.cap.phase = 2 ∧ mine ∧ s.cap.len ≤ 2 ^ 31 ∧ ring.length ≤ s.cap.len)
    ∧ (∃ (s : State) (stream : CapStream),
      let mine := capSource stream = s.cap.source;
      s.capRuns = true ∧ mine)
    ∧ (∃ (s : State) (port : Fin 5), s.capRuns = true ∧ s.ready port R.CAP_CTRL = true)
    ∧ (∃ (s : State), s.cap.phase = 1 ∧ s.rd F.CAP_CFG_wait_ms ≠ 0)
    ∧ (∃ (s : State) (stream : CapStream),
      let mine := capSource stream = s.cap.source;
      ¬ mine)
    ∧ (∃ (s : State), s.capRuns = false)
    ∧ (∃ (s : State), s.flag F.MEM_STAT_dram_ready = true ∧ s.dump.writing = false)
    ∧ (∃ (s : State), s.flag F.MEM_STAT_dram_ready = true ∧ s.dump.writing = true ∧ s.dump.second = 0)
    ∧ (∃ (s : State), s.dump.writing = true)
    ∧ (∃ (s : State), s.dump.writing = false) :=
  ⟨⟨(capd 2), (.adc (List.replicate 64 3)), by dsimp only; decide +kernel⟩,
  ⟨(capd 2), (.adc (List.replicate 64 3)), by dsimp only; decide +kernel⟩,
  ⟨(capd 2), 0, by decide +kernel⟩,
  ⟨((cmd7 (capd 1)).wr F.CAP_CFG_wait_ms 8), by decide +kernel⟩,
  ⟨(cmd7 (capd 2)), (.equalised (List.replicate 64 3)), by dsimp only; decide +kernel⟩,
  ⟨live, by decide +kernel⟩,
  ⟨live, by decide +kernel⟩,
  ⟨{live with dump := {live.dump with writing := true}}, by decide +kernel⟩,
  ⟨{live with dump := {live.dump with writing := true}}, by decide +kernel⟩,
  ⟨live, by decide +kernel⟩⟩

end Q

namespace A

def recs (p : BootPhase) : State := { bootAt p with boot := { (bootAt p).boot with header := header, offset := 64, nRecords := 0}}

/-- A device that verifies a signature of the vendor under key `q`, over an empty region. -/
def signing (q r sg : List Byte) : State :=
  let s := (bootAt .signature).wr F.SEC_LC_vendor_set 1
  { s with boot := { s.boot with
      fuses := { s.boot.fuses with vendorHash := Config.sha384 q }
      region := [{ kind := 5, body := [0, 0, 0, 0] ++ (q ++ (r ++ sg)), raw := [] }] } }

theorem signed_witness (q r sg : List Byte) (hq : q.length = 96) (hr : r.length = 48) (hs : sg.length = 48)
    (h : Config.ecdsaValid q (Config.sha384 []) r sg = true) :
    ∃ (s : State) (sig : ImgRecord) (rs : List ImgRecord), s.mgmt.dev = .boot ∧ s.boot.phase = .signature
      ∧ s.boot.region = rs ++ [sig] ∧ s.signatureOk s.boot.header rs sig.body = true := by
  refine ⟨signing q r sg, _, [], rfl, rfl, rfl, ?_⟩
  have h1 : slice ([0, 0, 0, 0] ++ (q ++ (r ++ sg)) : List Byte) 4 96 = q := by simp [slice, hq]
  have h2 : slice ([0, 0, 0, 0] ++ (q ++ (r ++ sg)) : List Byte) 100 48 = r := by
    simp [slice, hq, hr]
  have h3 : slice ([0, 0, 0, 0] ++ (q ++ (r ++ sg)) : List Byte) 148 48 = sg := by
    have : q.drop 144 = [] := List.drop_eq_nil_of_le (by omega)
    simp [slice, List.drop_append, hq, hr, hs, this]
  have h4 : (signing q r sg).keySlot false = some (Config.sha384 q) := by
    have : (signing q r sg).flag F.SEC_LC_vendor_set = true :=
      (by decide +kernel : ((bootAt .signature).wr F.SEC_LC_vendor_set 1).flag F.SEC_LC_vendor_set = true)
    simp [keySlot, this]; rfl
  have h5 : leField ([0, 0, 0, 0] ++ (q ++ (r ++ sg)) : List Byte) 0 1 = 0 := rfl
  show signatureOk _ _ _ ([0, 0, 0, 0] ++ (q ++ (r ++ sg))) = true
  simp only [signatureOk, signed_, h1, h2, h3, h5, List.filter_nil, List.flatMap_nil, List.append_nil]
  rw [show (signing q r sg).boot.header = [] from rfl, show ((0 == 1) = false) from rfl, h4, h]
  simp

theorem witness_HardResets :
    (∃ (s : State), s.boot.aonUp = false)
    ∧ (∃ (s : State), s.boot.aonUp = true) :=
  ⟨⟨{ live with boot := {live.boot with aonUp := false}}, by decide +kernel⟩,
  ⟨live, by decide +kernel⟩⟩

theorem witness_ReleaseAndBootSteps :
    (∃ (s : State), s.boot.resetLow = true ∧ s.boot.aonUp = true)
    ∧ (∃ (s : State), s.boot.aonUp = false)
    ∧ (∃ (s : State), s.mgmt.dev = .boot ∧ s.boot.phase = .reset ∧ s.boot.aonUp = true ∧ s.boot.resetLow = false)
    ∧ (∃ (s : State), s.mgmt.dev = .boot ∧ s.boot.phase = .fuses ∧ s.boot.fuses.sensorCal.length ≤ 12)
    ∧ (∃ (s : State), s.mgmt.dev = .boot ∧ s.boot.phase = .checkers)
    ∧ (∃ (s : State), s.mgmt.dev = .boot ∧ s.boot.phase = .checkers ∧ s.dump.writing = false)
    ∧ (∃ (s : State), s.mgmt.dev = .boot ∧ s.boot.phase = .await ∧ s.flag F.SEC_BOOT_STAT_dram_ready = false ∧ s.flag
      F.SEC_BOOT_STAT_dram_failed = false)
    ∧ (∃ (s : State) (at0 at8M : Bool), s.mgmt.dev = .boot ∧ s.boot.phase = .discovery ∧ (at0 = true ∨ at8M = true)) :=
  ⟨⟨{ live with boot := {live.boot with resetLow := true}}, by decide +kernel⟩,
  ⟨{ live with boot := {live.boot with aonUp := false}}, by decide +kernel⟩,
  ⟨(bootAt .reset), by decide +kernel⟩,
  ⟨(bootAt .fuses), by decide +kernel⟩,
  ⟨((bootAt .checkers).wr F.SEC_STRAP_bootsel 0), by decide +kernel⟩,
  ⟨((bootAt .checkers).wr F.SEC_STRAP_bootsel 0), by decide +kernel⟩,
  ⟨((bootAt .await)), by decide +kernel⟩,
  ⟨((bootAt .discovery)), true, true, by decide +kernel⟩⟩

set_option maxRecDepth 1000000 in
theorem witness_ImageReading :
    (∃ (s : State) (bytes : List Byte), s.mgmt.dev = .boot ∧ s.boot.phase = .header ∧ s.boot.source ≠ .download ∧
      hdrFails (slice bytes 0 64) (s.rd F.SEC_LC_rollback_min) = none)
    ∧ (∃ (s : State) (reads : List (List Byte)), s.mgmt.dev = .boot ∧ ∃ f ∈ reads, s.boot.phase = .records ∧
      s.boot.source ≠ .download ∧ (reads.take 3).find? frameOk = some f ∧ endPlaced s.boot.header s.boot.offset
      s.boot.nRecords (frameRecord f) = true ∧ contentStep configAllowed (frameRecord f) = none ∧ (frameRecord f).kind
      = 5)
    ∧ (∃ (s : State) (reads : List (List Byte)), s.mgmt.dev = .boot ∧ ∃ f ∈ reads.take 1, ∃ rest ∈ [reads.drop 1],
      s.boot.phase = .records ∧ s.boot.source ≠ .download ∧ reads = f :: rest ∧ (reads.take 3).find? frameOk = none ∧
      frameKind f = 3)
    ∧ (∀ q r sg : List Byte, q.length = 96 → r.length = 48 → sg.length = 48 → Config.ecdsaValid q (Config.sha384 []) r
      sg = true → ∃ (s : State) (sig : ImgRecord) (rs : List ImgRecord), s.mgmt.dev = .boot ∧ s.boot.phase =
      .signature ∧ s.boot.region = rs ++ [sig] ∧ s.signatureOk s.boot.header rs sig.body = true) :=
  ⟨⟨(bootAt .header), header, by decide +kernel⟩,
  ⟨(recs .records), [frame 5 (List.replicate 196 0)], by decide +kernel⟩,
  ⟨(recs .records), [(frame 3 (List.replicate 32 0)).dropLast, (frame 3 (List.replicate 32 1)).dropLast ++ [255]],
      by decide +kernel⟩,
  signed_witness⟩

theorem witness_IgsStart :
    (∃ (s : State), s.mgmt.dev = .boot ∧ s.boot.phase = .igsStart ∧ s.engineAlive 1 = true ∧ s.safe.igsRun = false)
    ∧ (∃ (s : State), s.mgmt.dev = .boot ∧ s.boot.phase = .igsStart ∧ s.boot.source = .nvmPrimary ∧
      s.boot.secondaryMagic = true) :=
  ⟨⟨{ withEngine 1 runner with safe := {live.safe with igsRun := false}, mgmt := (bootAt .igsStart).mgmt, boot := (bootAt .igsStart).boot },
      by decide +kernel⟩,
  ⟨{ withEngine 1 {runner with prog := [(0,1)]} with safe := {live.safe with igsRun := false}, mgmt := (bootAt .igsStart).mgmt, boot := {(bootAt .igsStart).boot with secondaryMagic := true, wrote := [R.TOP_MODE, R.CLK_GATE], region := [⟨1,[],[]⟩]} },
      by decide +kernel⟩⟩

end A

namespace B

def onM (f : Mgmt → Mgmt) : State := { live with mgmt := f live.mgmt }
def due : State := let s := bootAt .imageDone; let s : State := { s with boot := { s.boot with source := .nvmPrimary } }; (s.wr F.SEC_BOOT_STAT_dram_ready 1)

theorem witness_EpochsAndSnapshots :
    (∃ (s : State) (port : Fin 5), s.ready port R.TOP_COMMIT = true ∧ s.flag F.TOP_COMMIT_busy = false)
    ∧ (∃ (s : State), s.mgmt.timerRun = true ∧ s.flag F.TOP_SNAP_busy = false ∧ s.flag F.TOP_COMMIT_busy = false ∧
      s.mgmt.linkSet = none ∧ s.mgmt.refPending = none ∧ s.dp.link.step ≠ 6 ∧ s.dp.framer.idleLeft = none)
    ∧ (∃ (s : State), s.boot.aonUp = true ∧ s.mgmt.dev ≠ .off)
    ∧ (∃ (s : State), s.boot.aonUp = true ∧ s.commitOneDue = true ∧ s.mgmt.timerRun = false ∧ s.boot.held = [] ∧
      s.cmdBusy = false ∧ s.pwr.phase = .none ∧ s.pwr.pstate = 0 ∧ s.mgmt.pwrWrites = [] ∧ s.clk.closing = 0)
    ∧ (∃ (s : State) (port : Fin 5), s.ready port R.TOP_SNAP = true ∧ s.flag F.TOP_SNAP_busy = false)
    ∧ (∃ (s : State), s.flag F.TOP_SNAP_busy = true ∧ s.mgmt.snapTaken = true ∧ s.mgmt.dev ≠ .sleep)
    ∧ (∃ (s : State) (port : Fin 5), s.ready port R.PMON_DATA = true) :=
  ⟨⟨due, 0, by decide +kernel⟩,
  ⟨live, by decide +kernel⟩,
  ⟨due, by decide +kernel⟩,
  ⟨due, by decide +kernel⟩,
  ⟨live, 0, by decide +kernel⟩,
  ⟨({onM fun m => { m with snapTaken := true, snapNext := [(R.FRAMER_CNT_QOVF, 5)], snapNextEpoch := 9} with pending := []}.wr F.TOP_SNAP_busy 1),
      by decide +kernel⟩,
  ⟨live, 0, by decide +kernel⟩⟩

theorem witness_PortAccesses :
    (∃ (s : State) (port : Fin 5), ∃ p ∈ [(R.TOP_MODE, 0x7), (R.FRAMER_PORT_EN, 0xFFFF), (R.FEC_CTRL, 0x1F0FFF),
      (R.FEC_CORE_EN, 0xFFFF)], s.ready port p.1 = true)
    ∧ (∃ (s : State) (port : Fin 5), s.ready port R.MEM_INJ_ADDR = true)
    ∧ (∃ (s : State) (port : Fin 5), s.ready port R.TOP_ERR = true)
    ∧ (∃ (s : State) (port : Fin 5), ∃ f ∈ [F.FRAMER_QUEUE_HWM_hwm, F.FRAMER_WAIT_MAX_cycles], s.ready port f.addr =
      true ∧ mapGet none s.mgmt.hiLatch ((Source.ofPort port 40 0).latchKey f.addr) = none)
    ∧ (∃ (s : State) (port : Fin 5), ∃ a ∈ [R.FRAMER_CNT_DATA_LO, R.FRAMER_CNT_REPLAY_LO, R.FRAMER_CNT_FILLER_LO],
      s.ready port a = true)
    ∧ (∃ (s : State) (port : Fin 5) (addr : Word), s.mgmt.dev ≠ .sleep ∧ s.reach port (State.aligned addr.toNat) =
      true ∧ blockMapped (State.aligned addr.toNat) = false ∧ State.inWindow (State.aligned addr.toNat) = false ∧
      State.inView (State.aligned addr.toNat) = false)
    ∧ (∃ (s : State) (port : Fin 5) (addr : Word), s.mgmt.dev ≠ .sleep ∧ s.reach port addr.toNat = true) :=
  ⟨⟨((live.setReg R.TOP_ERR 0x3F).setReg R.FRAMER_CNT_DATA_HI 77), 2, by decide +kernel⟩,
  ⟨((live.setReg R.TOP_ERR 0x3F).setReg R.FRAMER_CNT_DATA_HI 77), 2, by decide +kernel⟩,
  ⟨((live.setReg R.TOP_ERR 0x3F).setReg R.FRAMER_CNT_DATA_HI 77), 2, by decide +kernel⟩,
  ⟨((live.setReg R.TOP_ERR 0x3F).setReg R.FRAMER_CNT_DATA_HI 77), 2, by decide +kernel⟩,
  ⟨((live.setReg R.TOP_ERR 0x3F).setReg R.FRAMER_CNT_DATA_HI 77), 2, by decide +kernel⟩,
  ⟨live, 2, 0x00F00000, by decide +kernel⟩,
  ⟨live, 2, 4, by decide +kernel⟩⟩

theorem witness_MdioAndDramWindow :
    (∃ (s : State) (phy mmd : BitVec 5) (e : Fin 9) (k : Fin 4),
      let r := R.IGS_En_SCRk e k;
      s.mdioMine phy mmd = true ∧ s.ready 1 r = true ∧ mapGet none s.mgmt.hiLatch ((Source.ofPort 1 40 0).latchKey r)
      = none)
    ∧ (∃ (s : State) (phy mmd : BitVec 5), s.mdioMine phy mmd = false)
    ∧ (∃ (s : State) (port : Fin 5) (a : Nat), a % 4 = 0 ∧ State.inWindow a = true ∧ s.reach port a = true ∧
      s.dramReady = true ∧ s.dramLost (s.winByte a) = false ∧ s.dramCode (s.winByte a) = 0 ∧ ¬ (s.flag
      F.MEM_INJ_CTRL_armed = true ∧ (s.reg R.MEM_INJ_ADDR).toNat = a))
    ∧ (∃ (s : State) (port : Fin 5) (a : Nat), a % 4 = 0 ∧ State.inWindow a = true ∧ s.reach port a = true ∧
      s.dramReady = false ∧ s.mgmt.dev ≠ .sleep) :=
  ⟨⟨(live.setReg (R.IGS_En_SCRk 3 1) 0x12345678), 0, 30, 3, 1, by dsimp only; decide +kernel⟩,
  ⟨((live.wr F.TOP_DRAM_WIN_page 15)), 1, 30, by decide +kernel⟩,
  ⟨((live.wr F.TOP_DRAM_WIN_page 15)), 1, 0x1FFFFFFC, by decide +kernel⟩,
  ⟨((live.wr F.TOP_DRAM_WIN_page 15).wr F.MEM_STAT_dram_ready 0), 1, 0x10000020, by decide +kernel⟩⟩

end B

namespace C


theorem witness_CommandsThatEnd :
    (∃ (s : State) (port : Fin 5), Claims.acceptable s port 0 = true)
    ∧ (∃ (s : State) (port : Fin 5), Claims.acceptable s port 2 = true)
    ∧ (∃ (s : State) (port : Fin 5), Claims.acceptable s port 5 = true)
    ∧ (∃ (s : State) (port : Fin 5), Claims.acceptable s port 10 = true)
    ∧ (∃ (s : State) (port : Fin 5), Claims.acceptable s port 11 = true)
    ∧ (∃ (s : State) (port : Fin 5), Claims.acceptable s port 12 = true) :=
  ⟨⟨live, 0, by unfold Claims.acceptable; decide +kernel⟩,
  ⟨({live with dp := {live.dp with rx := live.dp.rx.map fun (r : RxLane) => {r with lock := .locked, fe := .track}}}.inDev .linked |>.withArgs 0x1 0 0 0),
      0, by unfold Claims.acceptable; decide +kernel⟩,
  ⟨({live with dp := {live.dp with rx := live.dp.rx.map fun (r : RxLane) => {r with lock := .locked, fe := .track}}}.inDev .linked |>.withArgs 0x1 0 0 0),
      0, by unfold Claims.acceptable; decide +kernel⟩,
  ⟨live, 0, by unfold Claims.acceptable; decide +kernel⟩,
  ⟨((live.withArgs 192 0 0 0).wr F.SEC_DBG_STAT_chal_valid 1), 0, by unfold Claims.acceptable; decide +kernel⟩,
  ⟨live, 0, by unfold Claims.acceptable; decide +kernel⟩⟩

theorem witness_CommandsThatStart :
    (∃ (s : State) (port : Fin 5), Claims.acceptable s port 1 = true)
    ∧ (∃ (s : State) (port : Fin 5), Claims.acceptable s port 3 = true ∧ s.pwr.phase = .none ∧ s.arg 0 % 4 ≠ 0 ∧ s.arg
      0 % 4 ≠ s.pwr.pstate ∧ s.pwr.pstate ≠ 2 ∧ s.powerBarred (s.arg 0 % 4) = false ∧ s.levelSources (s.arg 0 % 4) =
      0)
    ∧ (∃ (s : State) (port : Fin 5), Claims.acceptable s port 4 = true ∧ bitOf (s.arg 0) 0 = false ∧ s.pwr.pstate ≠ 2)
    ∧ (∃ (s : State) (port : Fin 5), Claims.acceptable s port 6 = true)
    ∧ (∃ (s : State) (port : Fin 5), Claims.acceptable s port 7 = true ∧ s.dramReady = true ∧ s.dp.rx[Fin.ofNat 8
      (bitsOf (s.arg 0) 8 3)].powered = true ∧ s.capOverlaps ((s.arg 1 % 4096) * 2 ^ 20) = false ∧ s.gateOpen 3 = true
      ∧ bitOf (s.arg 2) 16 = false)
    ∧ (∃ (s : State) (port : Fin 5), ∃ u ∈ (bitList 28 (s.arg 0)).take 1, ∃ rest ∈ [(bitList 28 (s.arg 0)).drop 1],
      Claims.acceptable s port 8 = true ∧ s.gateOpen 2 = true ∧ bitList 28 (s.arg 0) = u :: rest ∧ u < 24)
    ∧ (∃ (s : State) (port : Fin 5), Claims.acceptable s port 9 = true ∧ s.boot.phase = .await ∧ s.dramReady = true ∧
      0x10000000 ≤ s.arg 0 ∧ s.arg 0 < 0x20000000)
    ∧ (∃ (s : State) (port : Fin 5), Claims.acceptable s port 13 = true ∧ s.safe.igsRun = true ∧ bitOf (s.arg 0) 8 =
      false) :=
  ⟨⟨(live.withArgs 2 0 0 0), 0, by unfold Claims.acceptable; decide +kernel⟩,
  ⟨(live.withArgs 2 0 0 0), 0, by unfold Claims.acceptable; decide +kernel⟩,
  ⟨(live.withArgs 2 0 0 0), 0, by unfold Claims.acceptable; decide +kernel⟩,
  ⟨(live.withArgs 0x5AFE 0 0 0), 0, by unfold Claims.acceptable; decide +kernel⟩,
  ⟨(live.withArgs 0x0 16 0x1234 50), 0, by unfold Claims.acceptable; decide +kernel⟩,
  ⟨(live.withArgs 2 0 0 0), 0, by unfold Claims.acceptable; decide +kernel⟩,
  ⟨((bootAt .await).withArgs 0x10000000 4096 0 0), 0, by unfold Claims.acceptable; decide +kernel⟩,
  ⟨(live.withArgs 2 0 0 0), 0, by unfold Claims.acceptable; decide +kernel⟩⟩

theorem witness_FailuresFusesAndScan :
    (∃ (s : State) (port : Fin 5), s.reach port R.TOP_CMD = true ∧ s.cmdBusy = true ∧ s.mem.run = none)
    ∧ (∃ (s : State) (port : Fin 5) (op : Byte), s.reach port R.TOP_CMD = true ∧ s.cmdBusy = false ∧ s.mem.run = none
      ∧ op.toNat ≤ 13 ∧ s.cmdLegal op.toNat = false)
    ∧ (∃ (s : State) (port : Fin 5) (op : Byte), s.reach port R.TOP_CMD = true ∧ s.cmdBusy = false ∧ s.mem.run = none
      ∧ 13 < op.toNat)
    ∧ (∃ (s : State), s.cmdBusy = true ∧ s.mgmt.cmdTaken = false)
    ∧ (∃ (s : State), s.linkWaits = true)
    ∧ (∃ (s : State), s.safe.laserReq.isSome = true ∧ s.running 13 = true)
    ∧ (∃ (s : State), ∃ r ∈ s.mem.run.toList, s.mem.run = some r ∧ r.trigger = 0 ∧ r.unit < 16 ∧ s.running 8 = true)
    ∧ (∃ (s : State) (port : Fin 5) (op : BitVec 3), s.reach port R.SEC_FUSE_CTRL = true ∧ s.flag F.SEC_FUSE_STAT_busy
      = false ∧ s.fuseAllowed op.toNat = true)
    ∧ (∃ (s : State) (port : Fin 5) (op : BitVec 3), s.reach port R.SEC_FUSE_CTRL = true ∧ s.flag F.SEC_FUSE_STAT_busy
      = false ∧ s.fuseAllowed op.toNat = false)
    ∧ (∃ (s : State), s.flag F.SEC_FUSE_STAT_busy = true)
    ∧ (∃ (s : State), s.pwr.pstate < 2) :=
  ⟨⟨(live.inCommand 0), 0, by decide +kernel⟩,
  ⟨live, 0, 2, by decide +kernel⟩,
  ⟨live, 0, 14, by decide +kernel⟩,
  ⟨((live.inCommand 0).onMgmt fun m => {m with cmdTaken := false}), by decide +kernel⟩,
  ⟨((({live with dp := {live.dp with link := {live.dp.link with step := 3}}} : State).inCommand 1).withArgs 6 0 0 0),
      by decide +kernel⟩,
  ⟨({live with safe := {live.safe with laserReq := some (1, true)}}.inCommand 13), by decide +kernel⟩,
  ⟨({live with mem := {live.mem with run := some {trigger := 0, asked := 1, units := 1, unit := 0, slice := 0, tally := {worst := 0, repaired := 0, failing := 0}}}}.inCommand 8),
      by decide +kernel⟩,
  ⟨((live.wr F.SEC_DBG_STAT_unlocked 1)), 0, (1 : BitVec 3), by decide +kernel⟩,
  ⟨live, 0, (0 : BitVec 3), by decide +kernel⟩,
  ⟨({live with boot := {live.boot with fuseOp := (0 : BitVec 3).toNat}}.wr F.SEC_FUSE_STAT_busy 1),
      by decide +kernel⟩,
  ⟨live, by decide +kernel⟩⟩

end C

namespace M

def pw (f : Pwr → Pwr) (s : State := live) : State := { s with pwr := f s.pwr }
def host1 : State := { live with dp := { live.dp with host := live.dp.host.set 0 { HostLane.initial with sig := true, st := .up, cdr := true } } }
def askE (e : Fin 9) (n : Nat) (s : State) := (pw (fun p => { p with phase := .asking, asking := n, target := 1 }) s).wr (F.IGS_En_PWR_pending e) 1

theorem witness_EntriesAsk :
    (∃ (s : State), s.rd F.PWR_IDLE_CTRL_quiet_us ≠ 0 ∧ s.hostSignal = false ∧ s.configuredUp = true ∧ s.mgmt.dev ≠
      .bringup ∧ s.pwr.phase = .none ∧ s.levelSources 1 = 0 ∧ s.pwr.pstate ≠ 2)
    ∧ (∃ (s : State), s.rd F.PWR_IDLE_CTRL_standby_ms ≠ 0 ∧ (s.mgmt.dev = .configured ∨ s.mgmt.dev = .partnerAbsent) ∧
      s.pwr.phase = .none ∧ s.levelSources 2 = 0 ∧ s.pwr.pstate ≠ 2)
    ∧ (∃ (s : State), s.pwr.phase = .asking ∧ s.pwr.asking = 1 ∧ (s.pwr.target ≠ 1 ∨ s.hostSignal = false))
    ∧ (∃ (s : State), s.pwr.phase = .asking ∧ s.pwr.asking = 1 ∧ s.pwr.target = 1 ∧ s.hostSignal = true ∧ s.pwr.forced
      = false ∧ s.pwr.byCommand = false)
    ∧ (∃ (s : State), s.pwr.phase = .asking ∧ s.pwr.delaying = true ∧ s.pwr.asking ≠ 6 ∧ s.pwr.forced = false ∧
      s.pwr.byCommand = false)
    ∧ (∃ (s : State) (e : Fin 9), s.askedEngine = some e ∧ s.flag (F.IGS_En_PWR_pending e) = true ∧ s.engineAlive e =
      true)
    ∧ (∃ (s : State) (e : Fin 9), s.askedEngine = some e ∧ s.flag (F.IGS_En_PWR_pending e) = true) :=
  ⟨⟨(live.wr F.PWR_IDLE_CTRL_quiet_us 8), by decide +kernel⟩,
  ⟨(live.wr F.PWR_IDLE_CTRL_standby_ms 8), by decide +kernel⟩,
  ⟨(askE (0 : Fin 9) 1 (withEngine (0 : Fin 9) runner)), by decide +kernel⟩,
  ⟨(pw (fun p => { p with phase := .asking, asking := 1, target := 1 }) (host1.withCfg (F.HLn_CTRL_enable 0) 1)),
      by decide +kernel⟩,
  ⟨(pw fun p => { p with phase := .asking, asking := 0, target := 1, delaying := true }), by decide +kernel⟩,
  ⟨(askE (3 : Fin 9) 7 (withEngine (3 : Fin 9) runner)), (3 : Fin 9), by decide +kernel⟩,
  ⟨(askE (3 : Fin 9) 7 (withEngine (3 : Fin 9) runner)), (3 : Fin 9), by decide +kernel⟩⟩

theorem witness_EntriesAndWakes :
    (∃ (s : State), s.pwr.phase = .final ∧ s.pwr.target = 1)
    ∧ (∃ (s : State), s.pwr.phase = .final ∧ s.pwr.target = 2)
    ∧ (∃ (s : State), s.pwr.phase = .final ∧ s.pwr.target = 3)
    ∧ (∃ (s : State) (source : Fin 6), s.pwr.phase = .none ∧ s.pwr.pstate ≠ 0 ∧ s.wakeEnabled source = true ∧
      State.sourceActs s.pwr.pstate source = true ∧ s.wakeAllowed = true)
    ∧ (∃ (s : State) (source : Fin 6), s.pwr.phase = .asking ∧ s.pwr.pstate = 0 ∧ s.wakeEnabled source = true ∧
      State.sourceActs s.pwr.target source = true ∧ source ≠ 2 ∧ s.pwr.forced = false ∧ s.pwr.byCommand = false) :=
  ⟨⟨(pw fun p => { p with phase := .final, target := 1 }), by decide +kernel⟩,
  ⟨(pw fun p => { p with phase := .final, target := 2 }), by decide +kernel⟩,
  ⟨(pw fun p => { p with phase := .final, target := 3 }), by decide +kernel⟩,
  ⟨((pw (fun p => { p with pstate := 1 }) (if 1 = 3 then live.inDev .sleep else if 1 = 2 then live.inDev .standby else live.inDev .quiet)).setReg R.PWR_WAKE_EN 0x3F),
      (0 : Fin 6), by decide +kernel⟩,
  ⟨((pw (fun p => { p with phase := .asking, asking := 2, target := 1 }) ).setReg R.PWR_WAKE_EN 0x3F), (0 : Fin 6),
      by decide +kernel⟩⟩

theorem witness_Exits :
    (∃ (s : State), s.pwr.phase = .exiting ∧ s.pwr.pstate = 1 ∧ s.pwr.heldState = .configured)
    ∧ (∃ (s : State), s.pwr.phase = .exiting ∧ s.pwr.pstate = 2 ∧ s.pwr.retained = false ∧ s.cfgOn
      F.LEDGER_LINK_CTRL_enable = false)
    ∧ (∃ (s : State), s.pwr.phase = .exiting ∧ s.pwr.pstate = 3)
    ∧ (∃ (s : State), s.pwr.phase = .exiting ∧ s.pwr.pstate = 2 ∧ s.pwr.retained = true)
    ∧ (∃ (s : State) (source : Fin 10), s.pwr.phase = .exiting ∧ 2 ≤ s.pwr.pstate ∧ source ≠ 0 ∧ s.rd
      F.PWR_WAKE_FAIL_tries ≤ 2)
    ∧ (∃ (s : State), s.pwr.phase = .none ∧ 2 ≤ s.pwr.pstate ∧ s.rd F.PWR_WAKE_FAIL_tries ≠ 0 ∧ s.flag
      F.PWR_WAKE_FAIL_given_up = false)
    ∧ (∃ (s : State) (port : Fin 5), s.ready port R.PWR_WAKE_FAIL = true) :=
  ⟨⟨(pw fun p => { p with phase := .exiting, pstate := 1, heldState := .configured }), by decide +kernel⟩,
  ⟨(pw fun p => { p with phase := .exiting, pstate := 2, heldState := .configured }), by decide +kernel⟩,
  ⟨(pw fun p => { p with phase := .exiting, pstate := 3, heldState := .configured }), by decide +kernel⟩,
  ⟨((pw fun p => { p with phase := .exiting, pstate := 2, heldState := .configured, retained := true }).wr F.PWR_WAKE_FAIL_tries 0),
      by decide +kernel⟩,
  ⟨(pw fun p => { p with phase := .exiting, pstate := 2, heldState := .configured }), 3, by decide +kernel⟩,
  ⟨((pw fun p => { p with pstate := 2, heldState := .configured, retained := true }).wr F.PWR_WAKE_FAIL_tries 1),
      by decide +kernel⟩,
  ⟨(pw fun p => { p with phase := .exiting, pstate := 1, heldState := .configured }), 0, by decide +kernel⟩⟩

end M

namespace G

def led (f : Ledger → Ledger) (s : State := live) : State := { s with dp := { s.dp with ledger := f s.dp.ledger } }
def lnk (f : Link → Link) (s : State := live) : State := { s with dp := { s.dp with link := f s.dp.link } }
def rx (n : Fin 8) (f : RxLane → RxLane) (s : State := live) : State := { s with dp := { s.dp with rx := s.dp.rx.set n (f s.dp.rx[n]) } }
def ret0 : Retained := { seq := 9, unit := { port := 0, epoch := 0, blocks := [], done := 0, start := 0 }, t1 := some 5, lane := 0, count := 1, armed := true, lastStart := 0, unrec := false, frameT1 := none }
def rel0 : Release := { lane := 0, sfc := 1, cw := 2, outcome := 0, hdrOk := true, poison := false, kind := 1, seq := 9, port := 1, bits := List.replicate 15360 false, arrival := 0, deadline := 0 }
def rxu0 : RxUnit := { seq := 9, nominal := none, due := some 77, held := some rel0, heldAt := 5, verified := false, lost := false, listed := false, port := none, inRange := true }
def linked (s : State) : State := ((s.atStep 7 0).inDev .linked).withCfg F.LEDGER_LINK_CTRL_enable 1
def ens : List (Fin 4) := List.replicate 8 0 ++ (ensign.map fun l => Fin.ofNat 4 (labelOf l)) ++ List.replicate 8 0
def no_ : List (Fin 4) := List.replicate 144 1
def lk (k : EnsState) (f : RxLane → RxLane := id) (n : Fin 8 := 2) (s : State := linked live) : State := rx n (fun r => f { r with lock := k, fe := .track }) s
def vld (s : State) : State := { s with mem := { s.mem with sramValid := (List.range 30).map fun i => (sramSlot true 9 / 8 + i, true) } }

set_option maxRecDepth 1000000 in
theorem witness_LedgerEvents :
    (∃ (s : State),
      let g := s.dp.ledger;
      ∃ r ∈ g.retention.take 1, ∃ rest ∈ [g.retention.drop 1], g.retention = r :: rest ∧ r.t1 ≠ none)
    ∧ (∃ (s : State),
      let g := s.dp.ledger;
      let clean (q : Nat) : Prop := ∀ c ∈ s.mem.sramEcc, ¬ (sramSlot true q ≤ c.1 ∧ c.1 < sramSlot true q + 240);
      ∃ u ∈ s.oldestUnverified.toList, g.place = 1 ∧ s.oldestUnverified = some u ∧ clean u.seq)
    ∧ (∃ (s : State),
      let g := s.dp.ledger;
      let clean (q : Nat) : Prop := ∀ c ∈ s.mem.sramEcc, ¬ (sramSlot true q ≤ c.1 ∧ c.1 < sramSlot true q + 240);
      let valid (q : Nat) : Prop := ∀ k : Fin 30, mapGet false s.mem.sramValid (sramSlot true q / 8 + k) = true;
      ∃ u ∈ s.oldestUnverified.toList, g.place = 1 ∧ s.oldestUnverified = some u ∧ clean u.seq ∧ valid u.seq)
    ∧ (∃ (s : State),
      let g := s.dp.ledger;
      ∃ un ∈ s.nextDue.toList,
      let u := un.1;
      let now := un.2;
      s.nextDue = some (u, now) ∧ g.lineFault = false ∧ (∀ p : Fin 16, s.dp.ports[p].first < 16) ∧ ∃ r ∈
      u.held.toList, u.held = some r ∧
      let x := s.storeRead true u.seq [] r.blocks;
      x.1 = s ∧ x.2.2 = [])
    ∧ (∃ (s : State) (w : Nat),
      let g := s.dp.ledger;
      let clean (q : Nat) : Prop := ∀ c ∈ s.mem.sramEcc, ¬ (sramSlot true q ≤ c.1 ∧ c.1 < sramSlot true q + 240);
      let valid (q : Nat) : Prop := ∀ k : Fin 30, mapGet false s.mem.sramValid (sramSlot true q / 8 + k) = true;
      ∃ un ∈ s.nextDue.toList,
      let u := un.1;
      let now := un.2;
      s.nextDue = some (u, now) ∧ g.lineFault = false ∧ (∀ p : Fin 16, s.dp.ports[p].first < 16) ∧ ∃ r ∈
      u.held.toList, u.held = some r ∧ g.place = 1 ∧ clean u.seq ∧ valid u.seq ∧ w < 237)
    ∧ (∃ (s : State),
      let g := s.dp.ledger;
      ∃ un ∈ s.nextDue.toList,
      let u := un.1;
      let now := un.2;
      s.nextDue = some (u, now) ∧ g.lineFault = false ∧ (∀ p : Fin 16, s.dp.ports[p].first < 16) ∧ u.held = none)
    ∧ (∃ (s : State),
      let g := s.dp.ledger;
      g.ran = true ∧ g.lineFault = false)
    ∧ (∃ (s : State) (bank : Nat),
      let g := s.dp.ledger;
      bank ∈ g.rebuild)
    ∧ (∃ (s : State) (bank : Nat),
      let g := s.dp.ledger;
      bank ∉ g.rebuild)
    ∧ (∃ (s : State), s.dp.link.step = 6 ∧ s.dp.link.status = 0) :=
  ⟨⟨(led fun l => { l with retention := [ret0] }), by dsimp only; decide +kernel⟩,
  ⟨(led fun l => { l with place := 1, rxNext := 9, units := [rxu0] }), by dsimp only; decide +kernel⟩,
  ⟨(vld (led fun l => { l with place := 1, rxNext := 9, rxRun := true, lfDown := true, units := [rxu0] })),
      by dsimp only; decide +kernel⟩,
  ⟨(led fun l => { l with place := 1, rxNext := 9, units := [rxu0] }), by dsimp only; decide +kernel⟩,
  ⟨(vld (led fun l => { l with place := 1, rxNext := 9, rxRun := true, lfDown := true, units := [rxu0] })), 7,
      by dsimp only; decide +kernel⟩,
  ⟨(led fun l => { l with place := 1, rxNext := 9, units := [{rxu0 with held := none}] }),
      by dsimp only; decide +kernel⟩,
  ⟨(led fun l => { l with ran := true, rebuild := [0] }), by dsimp only; decide +kernel⟩,
  ⟨(led fun l => { l with ran := true, rebuild := [0] }), 0, by dsimp only; decide +kernel⟩,
  ⟨((lnk fun l => { l with step := 6 })), 0, by dsimp only; decide +kernel⟩,
  ⟨((lnk fun l => { l with step := 6 })), by decide +kernel⟩⟩

theorem witness_BringupTimers :
    (∃ (s : State),
      let l := s.dp.link;
      l.step = 9)
    ∧ (∃ (s : State),
      let l := s.dp.link;
      l.step = 1 ∧ (l.compatSeen = false ∨ l.mismatch = true))
    ∧ (∃ (s : State),
      let l := s.dp.link;
      l.step = 1 ∧ l.mismatch = false ∧ l.compatSeen = true ∧ l.cand ≠ 0)
    ∧ (∃ (s : State),
      let l := s.dp.link;
      2 ≤ l.step ∧ l.step ≤ 8)
    ∧ (∃ (s : State),
      let l := s.dp.link;
      l.step = 1)
    ∧ (∃ (s : State),
      let l := s.dp.link;
      2 ≤ l.step ∧ l.step ≤ 5 ∧ l.restarts < s.cfg F.LEDGER_LINK_TMO2_step_retries)
    ∧ (∃ (s : State),
      let l := s.dp.link;
      2 ≤ l.step ∧ l.step ≤ 5 ∧ s.cfg F.LEDGER_LINK_TMO2_step_retries ≤ l.restarts)
    ∧ (∃ (s : State),
      let l := s.dp.link;
      l.step = 6)
    ∧ (∃ (s : State),
      let l := s.dp.link;
      2 ≤ l.step ∧ l.step ≤ 6)
    ∧ (∃ (s : State), s.inLinked = true ∧ s.linkUp = true ∧ s.cvMode = true ∧ s.cfgOn F.LEDGER_LINK_CTRL_enable =
      true) :=
  ⟨⟨(lnk fun l => { l with step := 9, nonce := 5, peerNonce := 6 }), by dsimp only; decide +kernel⟩,
  ⟨(lnk fun l => { l with step := 1, nonce := 5, peerNonce := 6 }), by dsimp only; decide +kernel⟩,
  ⟨(lnk fun l => { l with step := 1, nonce := 5, peerNonce := 6, restarts := 99, compatSeen := true, cand := 8 }),
      by dsimp only; decide +kernel⟩,
  ⟨((linked (lnk fun l => { l with peerNonce := 6}))), by dsimp only; decide +kernel⟩,
  ⟨(lnk fun l => { l with step := 1, nonce := 5, peerNonce := 6 }), by dsimp only; decide +kernel⟩,
  ⟨(lnk fun l => { l with step := 2, nonce := 5, peerNonce := 6 }), by dsimp only; decide +kernel⟩,
  ⟨(lnk fun l => { l with step := 2, nonce := 5, peerNonce := 6, restarts := 99, compatSeen := true, cand := 8 }),
      by dsimp only; decide +kernel⟩,
  ⟨(lnk fun l => { l with step := 6, nonce := 5, peerNonce := 6 }), by dsimp only; decide +kernel⟩,
  ⟨(lnk fun l => { l with step := 2, nonce := 5, peerNonce := 6 }), by dsimp only; decide +kernel⟩,
  ⟨((linked (lnk fun l => { l with peerNonce := 6}))), by decide +kernel⟩⟩

theorem witness_LaneLocks :
    (∃ (s : State) (n : Fin 8) (labels : List (Fin 4)),
      let r := s.dp.rx[n];
      r.heldIdle = false ∧ r.lock = .hunt ∧ (ensignBest labels).2 ≤ s.ensTol)
    ∧ (∃ (s : State) (n : Fin 8) (labels : List (Fin 4)),
      let r := s.dp.rx[n];
      let hit := decide (ensignDiff labels 8 ≤ s.ensTol);
      r.heldIdle = false ∧ r.lock = .verify ∧ hit = true ∧ 2 ≤ r.matched ∧ s.dp.link.step ≠ 3 ∧ s.dp.link.step ≠ 2 ∧
      s.dp.link.step ≠ 4 ∧ s.dp.link.step ≠ 5)
    ∧ (∃ (s : State) (n : Fin 8) (labels : List (Fin 4)),
      let r := s.dp.rx[n];
      let hit := decide (ensignDiff labels 8 ≤ s.ensTol);
      r.heldIdle = false ∧ r.lock = .verify ∧ hit = true ∧ (∀ m ∈ s.activeLanes, m ≠ n → s.dp.rx[m].lock = .locked) ∧
      n ∈ s.activeLanes ∧ 2 ≤ r.matched ∧ s.dp.link.step = 3)
    ∧ (∃ (s : State) (n : Fin 8) (labels : List (Fin 4)),
      let r := s.dp.rx[n];
      let hit := decide (ensignDiff labels 8 ≤ s.ensTol);
      r.heldIdle = false ∧ r.lock = .verify ∧ hit = false)
    ∧ (∃ (s : State) (n : Fin 8) (labels : List (Fin 4)),
      let r := s.dp.rx[n];
      let hit := decide (ensignDiff labels 8 ≤ s.ensTol);
      r.heldIdle = false ∧ r.lock = .locked ∧ (hit = true ∨ r.misses < 3))
    ∧ (∃ (s : State) (n : Fin 8) (labels : List (Fin 4)),
      let r := s.dp.rx[n];
      let hit := decide (ensignDiff labels 8 ≤ s.ensTol);
      r.heldIdle = false ∧ r.lock = .locked ∧ hit = false ∧ r.misses = 3 ∧ s.inLinked = true ∧ s.cfgOn
      F.LEDGER_LINK_CTRL_fast_en = true)
    ∧ (∃ (s : State) (n : Fin 8) (labels : List (Fin 4)) (arrival : Nat),
      let r := s.dp.rx[n];
      let hit := decide (ensignDiff labels 8 ≤ s.ensTol);
      r.heldIdle = false ∧ r.lock = .relock ∧ hit = true ∧ r.fe = .track ∧ s.laneOffset n arrival ≤ 228 * s.deskewNs)
    ∧ (∃ (s : State) (n : Fin 8),
      let r := s.dp.rx[n];
      r.lock = .relock)
    ∧ (∃ (s : State) (n : Fin 8),
      let r := s.dp.rx[n];
      r.full = true ∧ s.linkUp = true ∧ s.cvMode = true ∧ s.cfgOn F.LEDGER_LINK_CTRL_enable = true)
    ∧ (∃ (s : State) (n : Fin 8),
      let r := s.dp.rx[n];
      s.dp.link.peerStatus = 5 ∧ bitOf s.laneMask n = true ∧ s.inLinked = true ∧ r.fe = .track)
    ∧ (∃ (s : State) (n : Fin 8),
      let r := s.dp.rx[n];
      r.heldIdle = true) :=
  ⟨⟨(lk .hunt), 2, ens, by dsimp only; decide +kernel⟩,
  ⟨(lk .verify (fun r => { r with matched := 2 })), 2, ens, by dsimp only; decide +kernel⟩,
  ⟨(lk .verify (fun r => { r with matched := 2 }) 2 { live with dp := { live.dp with rx := Vector.replicate 8 {RxLane.initial with powered := true, lock := .locked}, link := {live.dp.link with step := 3}}}),
      2, ens, by dsimp only; decide +kernel⟩,
  ⟨(lk .verify (fun r => { r with matched := 2 })), 2, no_, by dsimp only; decide +kernel⟩,
  ⟨(lk .locked (fun r => { r with misses := 0 })), 2, ens, by dsimp only; decide +kernel⟩,
  ⟨(lk .locked (fun r => { r with misses := 3 })), 2, no_, by dsimp only; decide +kernel⟩,
  ⟨(lk .relock (fun r => { r with misses := 0 }) 2 ((linked live).atStep 7 0)), 2, ens, 10000,
      by dsimp only; decide +kernel⟩,
  ⟨(lk .relock (fun r => { r with misses := 0 }) 2 ((linked live).atStep 7 0)), 2, by dsimp only; decide +kernel⟩,
  ⟨(lk .locked (fun r => { r with full := true, fe := .track }) ), 2, by dsimp only; decide +kernel⟩,
  ⟨(lk .locked (fun r => { r with full := true, fe := .track }) 2 (lnk (fun l => {l with peerStatus := 5}) (linked live))),
      2, by dsimp only; decide +kernel⟩,
  ⟨(lk .locked (fun r => { r with full := true, heldIdle := true, fe := .hold }) ), 2, by dsimp only; decide +kernel⟩⟩

end G

namespace I

def hs (k : HostState) (f : HostLane → HostLane := id) := host3 (f {hostUp with st := k})
def eb (n : Nat) (f : Port → Port := id) (s : State := host3 hostUp) : State := s.withPort 3 (f { port1 3 with eb := List.replicate n 7 })
def ebg (k m : Nat) (f : Port → Port := id) (s : State := host3 hostUp) : State := s.withPort 3 (f { port1 3 with refill := true, gather := List.replicate k 7, blocks := List.replicate m 9 })
def chk3 (f : HostLane → HostLane) (c : Nat := 1) (s : State := host3 hostUp) : State := (s.withHost 3 (f { hostUp with chk := c, seeded := true, place := 5 })).withCfg (F.HLn_PRBS_CTRL_chk 3) c

theorem witness_HostLaneStates :
    (∃ (s : State) (n : Fin 16),
      let h := s.dp.host[n];
      h.st = .down ∧ s.hostUsed n = true ∧ s.pwr.pstate = 0)
    ∧ (∃ (s : State) (n : Fin 16) (lower middle upper : Nat),
      let h := s.dp.host[n];
      let fig := min 255 (255 * min lower (min middle upper) / 65536);
      h.st = .adapt ∧ s.emfMin n ≤ fig)
    ∧ (∃ (s : State) (n : Fin 16) (lower middle upper : Nat),
      let h := s.dp.host[n];
      let fig := min 255 (255 * min lower (min middle upper) / 65536);
      h.st = .adapt ∧ fig < s.emfMin n)
    ∧ (∃ (s : State) (n : Fin 16),
      let h := s.dp.host[n];
      h.st = .adapt)
    ∧ (∃ (s : State) (n : Fin 16) (lower middle upper : Nat),
      let h := s.dp.host[n];
      let fig := min 255 (255 * min lower (min middle upper) / 65536);
      h.st = .up ∧ (s.emfMin n ≤ 2 * fig ∨ h.low < 2))
    ∧ (∃ (s : State) (n : Fin 16) (lower middle upper : Nat),
      let h := s.dp.host[n];
      let fig := min 255 (255 * min lower (min middle upper) / 65536);
      h.st = .up ∧ 2 * fig < s.emfMin n ∧ 2 ≤ h.low)
    ∧ (∃ (s : State) (n : Fin 16),
      let h := s.dp.host[n];
      h.st = .up)
    ∧ (∃ (s : State) (port : Fin 5) (n : Fin 16), s.ready port (R.HLn_RX_ADAPT n) = true ∧ s.hostUsed n = true ∧
      s.dpOff = false)
    ∧ (∃ (s : State) (n : Fin 16) (quick : Byte),
      let h := s.dp.host[n];
      h.st = .idle ∧ s.idleExitOrdered = true ∧ h.stored = true ∧ s.cfgOn (F.HLn_RX_ADAPT_fast_en n) = true ∧ s.emfMin
      n ≤ quick.toNat)
    ∧ (∃ (s : State) (n : Fin 16),
      let h := s.dp.host[n];
      h.st = .idle ∧ s.idleExitOrdered = true ∧ h.stored = true ∧ s.cfgOn (F.HLn_RX_ADAPT_fast_en n) = true)
    ∧ (∃ (s : State) (n : Fin 16),
      let h := s.dp.host[n];
      h.st = .idle ∧ s.idleExitOrdered = true ∧ h.stored = false)
    ∧ (∃ (s : State) (n : Fin 16),
      let h := s.dp.host[n];
      h.st = .idle ∧ h.exiting = true) :=
  ⟨⟨(host3 HostLane.initial), 3, by dsimp only; decide +kernel⟩,
  ⟨(hs .adapt), 3, 20000, 30000, 40000, by dsimp only; decide +kernel⟩,
  ⟨(hs .adapt), 3, 3000, 60000, 62000, by dsimp only; decide +kernel⟩,
  ⟨(hs .adapt), 3, by dsimp only; decide +kernel⟩,
  ⟨(hs .up), 3, 1, 30000, 40000, by dsimp only; decide +kernel⟩,
  ⟨(hs .up fun h => {h with low := 2}), 3, 30000, 1, 40000, by dsimp only; decide +kernel⟩,
  ⟨(hs .up), 3, by dsimp only; decide +kernel⟩,
  ⟨(hs .up), 0, 3, by decide +kernel⟩,
  ⟨(((hs .idle fun h => {h with stored := true}).withCfg (F.HLn_RX_ADAPT_emf_min 3) 64).withCfg (F.HLn_RX_ADAPT_fast_en 3) 1),
      3, (255 : Byte), by dsimp only; decide +kernel⟩,
  ⟨(((hs .idle fun h => {h with stored := true}).withCfg (F.HLn_RX_ADAPT_emf_min 3) 64).withCfg (F.HLn_RX_ADAPT_fast_en 3) 1),
      3, by dsimp only; decide +kernel⟩,
  ⟨(((hs .idle fun h => {h with stored := false, exiting := true}).withCfg (F.HLn_RX_ADAPT_emf_min 3) 64).withCfg (F.HLn_RX_ADAPT_fast_en 3) 1),
      3, by dsimp only; decide +kernel⟩,
  ⟨(((hs .idle fun h => {h with stored := false, exiting := true}).withCfg (F.HLn_RX_ADAPT_emf_min 3) 64).withCfg (F.HLn_RX_ADAPT_fast_en 3) 1),
      3, by dsimp only; decide +kernel⟩⟩

theorem witness_EgressAndPatterns :
    (∃ (s : State) (p : Fin 16),
      let q := s.dp.ports[p];
      let sends : Bool := s.cvMode && decide (0 < q.width) && !(s.portLanes p).any (fun n => s.dp.host[n].idle) &&
          !s.portLoop p 3 && !s.portMixed p;
      sends = false)
    ∧ (∃ (s : State) (p : Fin 16) (x : BitVec 66) (rest : List (BitVec 66)),
      let q := s.dp.ports[p];
      let c := s.ebCentre q.width;
      let sends : Bool := s.cvMode && decide (0 < q.width) && !(s.portLanes p).any (fun n => s.dp.host[n].idle) &&
          !s.portLoop p 3 && !s.portMixed p;
      sends = true ∧ q.first < 16 ∧ q.lfOut = false ∧ q.gather.length < 3 ∧ q.refill = false ∧ q.eb = x :: rest ∧
      q.eb.length ≤ 4 * (c + 4 * q.width) ∧ 4 * (c - 4 * q.width) ≤ q.eb.length)
    ∧ (∃ (s : State) (p : Fin 16) (x : BitVec 66) (rest : List (BitVec 66)),
      let q := s.dp.ports[p];
      let c := s.ebCentre q.width;
      let sends : Bool := s.cvMode && decide (0 < q.width) && !(s.portLanes p).any (fun n => s.dp.host[n].idle) &&
          !s.portLoop p 3 && !s.portMixed p;
      sends = true ∧ q.first < 16 ∧ q.lfOut = false ∧ q.gather.length < 3 ∧ q.refill = false ∧ q.eb = idle66 :: x ::
      rest ∧ q.lastOut = some idle66 ∧ x ≠ idle66 ∧ 4 * (c + 4 * q.width) < q.eb.length)
    ∧ (∃ (s : State) (p : Fin 16) (x : BitVec 66) (rest : List (BitVec 66)),
      let q := s.dp.ports[p];
      let c := s.ebCentre q.width;
      let sends : Bool := s.cvMode && decide (0 < q.width) && !(s.portLanes p).any (fun n => s.dp.host[n].idle) &&
          !s.portLoop p 3 && !s.portMixed p;
      sends = true ∧ q.first < 16 ∧ q.lfOut = false ∧ q.gather.length < 3 ∧ q.refill = false ∧ q.eb = x :: rest ∧
      q.lastOut = some idle66 ∧ q.inserted = false ∧ q.eb.length < 4 * (c - 4 * q.width))
    ∧ (∃ (s : State) (p : Fin 16),
      let q := s.dp.ports[p];
      let sends : Bool := s.cvMode && decide (0 < q.width) && !(s.portLanes p).any (fun n => s.dp.host[n].idle) &&
          !s.portLoop p 3 && !s.portMixed p;
      sends = true ∧ q.first < 16 ∧ q.lfOut = false ∧ q.gather.length < 3 ∧ q.refill = false ∧ q.eb = [])
    ∧ (∃ (s : State) (p : Fin 16),
      let q := s.dp.ports[p];
      let c := s.ebCentre q.width;
      let sends : Bool := s.cvMode && decide (0 < q.width) && !(s.portLanes p).any (fun n => s.dp.host[n].idle) &&
          !s.portLoop p 3 && !s.portMixed p;
      sends = true ∧ q.first < 16 ∧ q.lfOut = false ∧ q.gather.length < 3 ∧ q.refill = true ∧ q.eb.length < 4 * c)
    ∧ (∃ (s : State) (p : Fin 16),
      let q := s.dp.ports[p];
      let c := s.ebCentre q.width;
      let sends : Bool := s.cvMode && decide (0 < q.width) && !(s.portLanes p).any (fun n => s.dp.host[n].idle) &&
          !s.portLoop p 3 && !s.portMixed p;
      sends = true ∧ q.first < 16 ∧ q.lfOut = false ∧ q.gather.length = 3 ∧ q.refill = true ∧ q.eb.length < 4 * c ∧
      q.blocks ≠ [] ∧ q.blocks.length < 19)
    ∧ (∃ (s : State) (p : Fin 16),
      let q := s.dp.ports[p];
      let c := s.ebCentre q.width;
      let sends : Bool := s.cvMode && decide (0 < q.width) && !(s.portLanes p).any (fun n => s.dp.host[n].idle) &&
          !s.portLoop p 3 && !s.portMixed p;
      sends = true ∧ q.first < 16 ∧ q.lfOut = false ∧ q.gather.length = 3 ∧ q.refill = true ∧ q.eb.length < 4 * c ∧
      q.blocks ≠ [] ∧ q.blocks.length = 19 ∧ s.portLoop p 1 = false ∧ s.portLoop p 2 = false)
    ∧ (∃ (s : State) (p : Fin 16),
      let q := s.dp.ports[p];
      let sends : Bool := s.cvMode && decide (0 < q.width) && !(s.portLanes p).any (fun n => s.dp.host[n].idle) &&
          !s.portLoop p 3 && !s.portMixed p;
      sends = true ∧ q.lfOut = true)
    ∧ (∃ (s : State) (port : Fin 5) (n : Fin 16) (pat : Pattern), s.ready port (R.HLn_PRBS_CTRL n) = true ∧ s.hostUsed
      n = true ∧ s.dpOff = false ∧ s.stagedReg (R.HLn_PRBS_CTRL n) &&& 0x380 = 0 ∧ hostPattern (s.prbsChk n) = some
      pat)
    ∧ (∃ (s : State) (port : Fin 5) (n : Fin 16), s.ready port (R.HLn_PRBS_CTRL n) = true ∧ s.hostUsed n = true ∧
      s.dpOff = false ∧ s.stagedReg (R.HLn_PRBS_CTRL n) &&& 0x380 = 0)
    ∧ (∃ (s : State) (n : Fin 16) (pat : Pattern) (symbols : List (Fin 4)),
      let h := s.dp.host[n];
      let plain : Bool := s.hostLoop n == 0 && !s.cfgOn (F.HLn_CTRL_rx_invert n) && !s.cfgOn (F.HLn_CTRL_rx_precode
          n);
      let compares : Prop := h.chk = s.prbsChk n ∧ h.seeded = true ∧ h.need = 0 ∧ h.skip = 0 ∧ h.delay = 0 ∧ h.swapped
          = false;
      hostPattern (s.prbsChk n) = some pat ∧ plain = true ∧ compares ∧ symbols ≠ [] ∧ symbols.map (·.val) = (pat.run
      symbols.length h.place).1)
    ∧ (∃ (s : State) (n : Fin 16) (pat : Pattern) (y : Fin 4),
      let h := s.dp.host[n];
      let plain : Bool := s.hostLoop n == 0 && !s.cfgOn (F.HLn_CTRL_rx_invert n) && !s.cfgOn (F.HLn_CTRL_rx_precode
          n);
      let compares : Prop := h.chk = s.prbsChk n ∧ h.seeded = true ∧ h.need = 0 ∧ h.skip = 0 ∧ h.delay = 0 ∧ h.swapped
          = false;
      hostPattern (s.prbsChk n) = some pat ∧ plain = true ∧ compares ∧ h.prbsLocked = true ∧ h.errors.length = 63 ∧
      h.bits + 1 - h.errors.getLastD 0 < 4096 ∧ bitOf (symLabel y) 1 ≠ (pat.bit h.place).1) :=
  ⟨⟨((eb 3).withCfg (F.HLn_CTRL_loop 3) 3), 3, by dsimp only; decide +kernel⟩,
  ⟨(eb 48), 3, 7, (List.replicate (48-1) 7), by dsimp only; decide +kernel⟩,
  ⟨(eb 80 fun q => {q with lastOut := some idle66, eb := idle66 :: q.eb}), 3, 7, (List.replicate (80-1) 7),
      by dsimp only; decide +kernel⟩,
  ⟨(eb 1 fun q => {q with lastOut := some idle66}), 3, 7, (List.replicate (1-1) 7), by dsimp only; decide +kernel⟩,
  ⟨(eb 0), 3, by dsimp only; decide +kernel⟩,
  ⟨(ebg 2 1), 3, by dsimp only; decide +kernel⟩,
  ⟨(ebg 3 1), 3, by dsimp only; decide +kernel⟩,
  ⟨(ebg 3 19), 3, by dsimp only; decide +kernel⟩,
  ⟨(eb 0 fun q => { q with lfOut := true }), 3, by dsimp only; decide +kernel⟩,
  ⟨(chk3 id 1), 0, 3, ((hostPattern 1).getD prbs7), by decide +kernel⟩,
  ⟨(hs .up), 0, 3, by decide +kernel⟩,
  ⟨(chk3 id 1), 3, ((hostPattern 1).getD prbs7),
      ((((hostPattern 1).getD prbs7).run 20 5).1.map fun x => Fin.ofNat 4 x), by dsimp only; decide +kernel⟩,
  ⟨((chk3 (fun h => { h with clean := 4090, prbsLocked := true, errors := List.replicate 63 9, bits := 100 })).withCfg (F.TOP_MODE_line_mode) 3),
      3, prbs7, (2 : Fin 4), by dsimp only; decide +kernel⟩⟩

end I

namespace D

def packing (f : Port → Port := id) : State := (((host3 hostUp).withCfg F.FRAMER_CTRL_enable 1).withCfg F.FRAMER_PORT_EN_port_en 0xFFFF).withPort 3 (f (port1 3))
def frm (f : Framer → Framer) (s : State := live) : State := { s with dp := { s.dp with framer := f s.dp.framer } }
def led (f : Ledger → Ledger) (s : State := live) : State := { s with dp := { s.dp with ledger := f s.dp.ledger } }
def tu (p : Nat) : TxUnit := {port := p, epoch := 2, blocks := List.replicate 59 p, done := 0, start := 236 }
def sending (k : Nat) (f : Framer → Framer := id) : State := frm (fun g => f { g with sending := true, laneStatus := 0x3D, ready := (List.range k).map tu })
def act (s : State) : State := { ((((s.inDev .linked).atStep 7 0).withCfg (F.OLn_TX_CTRL_squelch 0) 0).withCfg (F.OLn_TX_CTRL_squelch 3) 0) with safe := { s.safe with lane := Vector.replicate 8 .active } }
def dres : DacResult := { corr := { gains := [1,2], skews := [1,2], offsets := [], errors := [] }, spur := 2000, sndr := 5 }
def cal1 : State := { live with dp := { live.dp with tx := live.dp.tx.set 2 { live.dp.tx[2] with cal := { live.dp.tx[2].cal with accepted := true, spur := 6000 }}}}
def dark (k : Bool) : State := { live with dp := { live.dp with tx := live.dp.tx.set 2 { live.dp.tx[2] with powered := false }, rx := live.dp.rx.set 2 { live.dp.rx[2] with powered := false, keptCal := k } } }
def burst (good : Bool) (m : Nat) (err : Nat) : HostBurst :=
  let w := rsEncode ((List.range 514).map fun k => (7 * k + 3) % 1024)
  { symbols := [[1, 2, 3]], codeword := (w.mapIdx fun k x => if k < err then x ^^^ 1 else x).map (BitVec.ofNat 10), markers := if good then m else m }
def q58 (f : Ledger → Ledger) (ready : List TxUnit) : State := led f (frm (fun g => { g with ready := ready }) (packing fun q => { q with errNext := true, openBlocks := List.replicate 58 5, amLock := false, packed := 232 }))

/-- The word of zeros is a codeword: every syndrome of it is 0. -/
theorem rsDecode_zeros : rsDecode (List.replicate 544 0) = some (List.replicate 544 0, 0) := by
  have ev (x : Nat) : ∀ k, rsEval (List.replicate k 0) x = 0 := by
    intro k
    induction k with
    | zero => rfl
    | succ k ih => rw [List.replicate_succ, rsEval, List.foldl_cons, show rsMul 0 x ^^^ 0 = 0 by simp [rsMul]]; exact ih
  have sy : rsSyndromes (List.replicate 544 0) = List.replicate 30 0 := by
    simp only [rsSyndromes, ev]
    rfl
  simp only [rsDecode, sy, List.length_replicate]
  rfl

/-- A port that takes a codeword, and a burst with `w` as its codeword. -/
def taking : State := packing fun q => { q with deskew := true }
def word (w : List (BitVec 10)) : HostBurst := { symbols := [[1, 2, 3]], codeword := w, markers := 0 }


theorem witness_HostBlocksAndUnits :
    (∃ (s : State) (p : Fin 16) (burst : HostBurst),
      let h := s.portBlock p;
      let word := burst.codeword.map (·.toNat);
      h < 16 ∧ s.portUp p = true ∧ s.portMonitored p = true ∧ s.portLoop p 1 = false ∧ s.portLoop p 2 = false ∧
      rsDecode word = none)
    ∧ (∃ (s : State) (p : Fin 16) (burst : HostBurst) (w : List Nat) (k : Nat),
      let h := s.portBlock p;
      let word := burst.codeword.map (·.toNat);
      h < 16 ∧ s.portUp p = true ∧ s.portMonitored p = true ∧ s.portLoop p 1 = false ∧ s.portLoop p 2 = false ∧
      rsDecode word = some (w, k))
    ∧ (∃ (s : State) (p : Fin 16), (s.portUp p && s.portMonitored p && !(s.portLoop p 1 || s.portLoop p 2)) = false)
    ∧ (∃ (s : State) (p : Fin 16),
      let q := s.dp.ports[p];
      s.lfFill p = true ∧ q.openBlocks.length + 1 < 59)
    ∧ (∃ (s : State) (p : Fin 16),
      let q := s.dp.ports[p];
      q.amLock = true)
    ∧ (∃ (s : State) (p : Fin 16),
      let q := s.dp.ports[p];
      0 < q.width ∧ s.portLanesUp p = true ∧ s.portMonitored p = true)
    ∧ (∃ (s : State) (p : Fin 16),
      let q := s.dp.ports[p];
      let g := s.dp.ledger;
      let ready := s.dp.framer.ready;
      s.lfFill p = true ∧ q.openBlocks.length = 58 ∧ g.txRun = true ∧ ready.length < 512 ∧
      let seq := (g.txNext + ready.length) % 2 ^ 18;
      ((g.retryOn = true → g.cap = 0 ∨ ∀ r ∈ g.retention, r.seq % s.storeSlots ≠ seq % s.storeSlots)))
    ∧ (∃ (s : State) (p : Fin 16) (cyc : Nat),
      let q := s.dp.ports[p];
      let g := s.dp.ledger;
      let ready := s.dp.framer.ready;
      let u : TxUnit := { port := p, epoch := s.epoch4, blocks := q.openBlocks ++ [localFaultBlock], done :=
          s.dp.framer.base + cyc, start := q.packed + 4 - 236 };
      s.lfFill p = true ∧ q.openBlocks.length = 58 ∧ g.txRun = true ∧ 512 ≤ ready.length ∧ (∀ x ∈ ready, x.before u =
      true))
    ∧ (∃ (s : State) (p : Fin 16) (cyc : Nat),
      let q := s.dp.ports[p];
      let g := s.dp.ledger;
      let ready := s.dp.framer.ready;
      let u : TxUnit := { port := p, epoch := s.epoch4, blocks := q.openBlocks ++ [localFaultBlock], done :=
          s.dp.framer.base + cyc, start := q.packed + 4 - 236 };
      s.lfFill p = true ∧ q.openBlocks.length = 58 ∧ g.txRun = true ∧ 512 ≤ ready.length ∧ ∃ x ∈
      ready.getLast?.toList, ready.getLast? = some x ∧ x.before u = false ∧ x.port < 16 ∧ g.retryOn = false)
    ∧ (∃ (s : State) (p : Fin 16),
      let q := s.dp.ports[p];
      let g := s.dp.ledger;
      s.lfFill p = true ∧ q.openBlocks.length = 58 ∧ g.txRun = false) :=
  ⟨⟨taking, 3, word [], by dsimp only; decide +kernel⟩,
  ⟨taking, 3, word (List.replicate 544 0), _, _, by decide +kernel, by decide +kernel, by decide +kernel,
      by decide +kernel, by decide +kernel,
      by rw [show (word (List.replicate 544 0)).codeword.map (·.toNat) = List.replicate 544 0 by decide +kernel]; exact rsDecode_zeros⟩,
  ⟨(packing fun q => { q with errNext := true, openBlocks := [5], amLock := false }), 3, by decide +kernel⟩,
  ⟨(packing fun q => { q with errNext := true, openBlocks := [5], amLock := false }), 3,
      by dsimp only; decide +kernel⟩,
  ⟨(packing fun q => { q with deskew := true }), 3, by dsimp only; decide +kernel⟩,
  ⟨(packing fun q => { q with deskew := true }), 3, by dsimp only; decide +kernel⟩,
  ⟨(q58 (fun l => { l with txRun := true, retryOn := true, cap := 100 }) (List.replicate 0 { port := 5, epoch := 0, blocks := [], done := 3, start := 0 })),
      3, by dsimp only; decide +kernel⟩,
  ⟨(q58 (fun l => { l with txRun := true }) (List.replicate 512 { port := 5, epoch := 0, blocks := [], done := 1, start := 0 })),
      3, 9, by dsimp only; decide +kernel⟩,
  ⟨(q58 (fun l => { l with txRun := true }) (List.replicate 512 { port := 5, epoch := 0, blocks := [], done := 9, start := 0 })),
      3, 9, by dsimp only; decide +kernel⟩,
  ⟨(led (fun l => {l with txRun := false}) (frm (fun f => { f with ready := List.replicate 511 {port := 0, epoch := 0, blocks := [], done := 0, start := 0}}) (packing fun q => { q with errNext := true, openBlocks := List.replicate 58 5, amLock := false }))),
      3, by dsimp only; decide +kernel⟩⟩

theorem witness_SlotsAndControlMessages :
    (∃ (s : State), s.dp.framer.sending = true ∧ s.dp.ledger.txNext < 2 ^ 18)
    ∧ (∃ (s : State), s.dp.framer.sending = true) :=
  ⟨⟨(act (sending 0)), by decide +kernel⟩,
  ⟨((sending 2).atStep 1 0), by decide +kernel⟩⟩

theorem witness_DacRunsAndPowerUp :
    (∃ (s : State) (port : Fin 5) (n : Fin 8), s.ready port (R.OLn_TX_CAL_CTRL n) = true ∧ s.dp.tx[n].powered = true)
    ∧ (∃ (s : State) (n : Fin 8) (r : DacResult), s.flag (F.OLn_TX_CAL_STAT_busy n) = true ∧ s.dp.tx[n].cal.again =
      false ∧ s.dacPasses n r = true)
    ∧ (∃ (s : State) (n : Fin 8) (r : DacResult), s.flag (F.OLn_TX_CAL_STAT_busy n) = true ∧ s.dp.tx[n].cal.again =
      false ∧ s.dacPasses n r = false ∧ s.cfgOn (F.OLn_TX_CAL_CTRL_bg_en n) = false)
    ∧ (∃ (s : State) (n : Fin 8), bitOf s.laneMask n = true ∧ s.unitFailed (16 + n) = false ∧ s.dp.tx[n].powered =
      false ∧ s.dpOff = false) :=
  ⟨⟨live, 0, 2, by decide +kernel⟩,
  ⟨(live.wr (F.OLn_TX_CAL_STAT_busy 2) 1), 2, dres, by decide +kernel⟩,
  ⟨((cal1.withCfg (F.OLn_TX_CAL_CTRL_bg_en 2) 0).wr (F.OLn_TX_CAL_STAT_busy 2) 1), 2, dres, by decide +kernel⟩,
  ⟨(dark true), 2, by decide +kernel⟩⟩

end D

namespace E

def onRxL (n : Fin 8) (f : RxLane → RxLane) (s : State := live) : State := { s with dp := { s.dp with rx := s.dp.rx.set n (f s.dp.rx[n]) } }
def adc (f : AdcCal → AdcCal) (s : State := live) : State := onRxL 3 (fun r => { r with adc := f r.adc }) s
def busy (s : State) (n : Fin 8 := 3) : State := (s.wr (F.OLn_RX_CAL_STAT_busy n) 1).wr (F.OLn_RX_CAL_STAT_spare n) 64
def lims (s : State) : State := ((s.withCfg (F.OLn_RX_CAL_CTRL_off_lim 3) 15).withCfg (F.OLn_RX_CAL_CTRL_gain_lim 3) 20).withCfg (F.OLn_RX_CAL_CTRL_skew_lim 3) 60
def fe (k : FeState) (f : RxLane → RxLane := id) (s : State := live) : State := (onRxL 3 (fun r => f { r with fe := k }) s).setReg (R.OLn_CDR_STAT 3) 0x1
def lv (n : Fin 8) (a : Int) : List (BitVec 8) := (pilotLevels n).map fun v => BitVec.ofInt 8 (a * v)
def pil (blk pre : Nat) (a : Int := 12) (post : Nat := 500) : RxBurst := { block := blk, codes := List.replicate pre 0 ++ ((lv 3 a).drop 768) ++ lv 3 a ++ lv 3 a ++ (lv 3 a).take 128 ++ List.replicate post 0 }
def looped (c : Nat) (f : CdrLoop → CdrLoop) (k : FeState := .track) (s : State := live) : State := (fe k (fun r => { r with loop := f r.loop }) s).wr (F.OLn_CDR_STAT_fallback 3) 0 |>.wr (F.OLn_CDR_STAT_holding 3) c
def org (blk pre : Nat) : Nat := (768 * blk + (pre + 256) + 266240 - 512) % 266240
def trk (f : RxLane → RxLane) (fz : Nat) (k : FeState := .track) : State := ((fe k fun r => f { r with origin := org 7 300, lock := .locked, ensignOk := true, equ := {r.equ with ramp := 2}}).withCfg (F.OLn_FDE_CTRL_freeze 3) fz).withCfg (F.OLn_FDE_LIMITS_sat_lim 3) 20
def mkSet : TapSet := { taps := [(1, 0)], h1 := 1, h2 := 0, clamped := true, vars := [2] }
def lk (s : State := live) (rx : Bool := true) : State := { s with mgmt := {s.mgmt with dev := .linked}, dp := { s.dp with rx := s.dp.rx.map (fun r => { r with lock := .locked, fe := .track}), ledger := {s.dp.ledger with rxRun := rx, txRun := true}, link := {s.dp.link with step := 7}}}
def lk2 : State := (lk).withCfg F.LEDGER_LINK_CTRL_enable 1

/-- A control message of step 2. -/
def message : CtlMsg :=
  { version := 1, sfc := 5, mode := 1, laneMask := 0xFF, linkStep := 2, retryOn := false, holdH := 0, altSeed := 0,
    stuff := [0, 0, 0, 0, 0, 0, 0, 0], ackValid := true, ackSeq := 0, nack := [], txOldest := 0, txNext := 0, probeTag := 0,
    echoTag := 0, echoTurn := 0, status := 0, retrainReq := 0, txLanes := 0xFF }

/-- The fields of two control messages on lane 0: `message`, and `message` of another version. -/
def field1 : Nat :=
  16158502933664657613634867593470094623572200451799495650679853737640492879133426105684088814201145104847972371089291052191100333975296816046830910767979276857919240741316282989361833026454642232546114888391729562438559559398266342533987430869876160981429062704202925343286229679191094743689304966947902351927427086613066303095527545634977383901514313227137994522797259641736339700075994241531215196076532350295756123064376065612720663437749460472881595685601645109751780305639880516503519681724945647826729514124723508136061484344667172008196710763030345848295015409166008838421753255533674179892134302254866526638827
def field2 : Nat :=
  10099064295293843744750828214344478630988931201227842394655413969979620040595696563209613549540598830406337753416435173535952916634579768341501882195520223772800951234947346222158670948256582462521854081194716893386661018402775138253642788181411879018195004106946118147744809199527144904575388892112165404642068149102503488891649112862496527121228780220514309136907671080611772288943157932628041709914499140909641697367164467358170972596692901865805902383120403753896694239756601727180052725151146024676164787390850377273240359856850985633282860062004300947555122252090582655232925201167411902633059809204279644899547

/-- The same fields, descrambled. -/
def plain1 : Nat :=
  2019812881866993450378558393040565080534843396203986491846790824469438011506823393254781853515758651226832054414275459136096781005721010320288201589375510748264235046427004729766655168195234640791026874402588606105022312045894073415153954971092070303810332004424010240379420342854772087587559813273912011895077701330951320766488462859380625137337366848352430900255568570177883927967334513808181483629389784456015359927668203461125771313300685513263932160020711368654565015567162914721582285170307067504958559242268873978857459572013452688615631553266703868594229510486025939312851073159577775811239451386117772363696
def plain2 : Nat :=
  4039625761323931406673238186082437078062599813061204243854937413689728957686066574079606941735940742707376926971894085354479253452626692888731211113528528443303664881883316985501042527594587897465780476801592829122321825711057808175268835867246830958221684870176279305559893836076088700625531838219157660990197347167805592167781273783540910730765877850560326028885431423886073065011613283442572645683400854251386835160072069545975668260319538382289163260847791820606260370861589177829404604028240275221813468153559917599797834401285514549128749553569150783730626394562754238570413028390879663052257819243274430619008

theorem read_staged (n f p : Nat) (m : CtlMsg)
    (ha : ofLabels (scramble (toLabels (msbBits 2048 f)) (headerSeed n)).1 = msbBits 2048 p)
    (hb : ((msbBits 2048 p).take 2044).drop 1792 = bchParity (((msbBits 2048 p).take 2044).take 1792))
    (hc : CtlMsg.parse (((msbBits 2048 p).take 2044).take 1792) = some m) : readCopy n (msbBits 2048 f) = some m := by
  have hd : bchDecode ((msbBits 2048 p).take 2044) = some ((msbBits 2048 p).take 2044) := by
    unfold bchDecode
    rw [if_pos hb]
  unfold readCopy
  simp only [ha, hd, hc]

set_option maxRecDepth 1000000 in
theorem field1_plain : ofLabels (scramble (toLabels (msbBits 2048 field1)) (headerSeed 0)).1 = msbBits 2048 plain1 := by
  decide +kernel
set_option maxRecDepth 1000000 in
theorem field1_parity :
    ((msbBits 2048 plain1).take 2044).drop 1792 = bchParity (((msbBits 2048 plain1).take 2044).take 1792) := by decide +kernel
set_option maxRecDepth 1000000 in
theorem field1_message : CtlMsg.parse (((msbBits 2048 plain1).take 2044).take 1792) = some message := by
  decide +kernel
theorem read_field1 : readCopy 0 (msbBits 2048 field1) = some message :=
  read_staged _ _ _ _ field1_plain field1_parity field1_message

set_option maxRecDepth 1000000 in
theorem field2_plain : ofLabels (scramble (toLabels (msbBits 2048 field2)) (headerSeed 0)).1 = msbBits 2048 plain2 := by
  decide +kernel
set_option maxRecDepth 1000000 in
theorem field2_parity :
    ((msbBits 2048 plain2).take 2044).drop 1792 = bchParity (((msbBits 2048 plain2).take 2044).take 1792) := by decide +kernel
set_option maxRecDepth 1000000 in
theorem field2_message : CtlMsg.parse (((msbBits 2048 plain2).take 2044).take 1792) = some { message with version := 2 } := by
  decide +kernel
theorem read_field2 : readCopy 0 (msbBits 2048 field2) = some { message with version := 2 } :=
  read_staged _ _ _ _ field2_plain field2_parity field2_message

theorem accepted (s : State) (f : List Bool) (m : CtlMsg) (h : readCopy 0 f = some m) (hm : bitOf s.laneMask 0 = true)
    (hl : s.dp.rx[0].lock = .locked) (hp : s.dp.rx[0].powered = true) (he : s.dp.rx[0].expSfc = none) :
    s.acceptedCopies [(0, f)] = [(0, m)] := by
  have hf : List.finRange 8 = [0, 1, 2, 3, 4, 5, 6, 7] := by decide
  have h' : readCopy (((0 : Fin 8) : Nat)) f = some m := h
  have hm' : bitOf s.laneMask (((0 : Fin 8) : Nat)) = true := hm
  have none_ : ∀ n : Fin 8, n ≠ 0 → ([(0, f)] : List (Fin 8 × List Bool)).find? (·.1 == n) = none := by
    intro n hn
    simp [Ne.symm hn]
  have some_ : ([(0, f)] : List (Fin 8 × List Bool)).find? (·.1 == 0) = some (0, f) := rfl
  rw [acceptedCopies, hf]
  simp only [List.filterMap_cons, List.filterMap_nil, some_, none_ 1 (by decide), none_ 2 (by decide), none_ 3 (by decide),
    none_ 4 (by decide), none_ 5 (by decide), none_ 6 (by decide), none_ 7 (by decide), h', hm']
  simp [hl, hp, he]

/-- 16 codes against the end of the pilot sequence, three times the sequence, and zeros: the plateau begins a few codes before the
second block. -/
def search1 : RxBurst :=
  { block := 7, codes := List.replicate 300 0 ++ ((lv 3 1).drop 1008).map (fun v => BitVec.ofInt 8 (-40 * v.toInt)) ++ lv 3 1 ++ lv 3 1
      ++ lv 3 1 ++ List.replicate 30 0 }

/-- A training in a CV mode: the burst holds both pilot blocks. -/
theorem training_some (s : State) (n : Fin 8) (b : RxBurst) (hc : s.stdMode = false)
    (h : 256 + s.samplesTo n b 256 + 2048 ≤ b.codes.length) :
    ∃ y, s.training n b = some y ∧ y.sat = (((b.codes.take (256 + s.samplesTo n b 256 + 2176)).drop
      (256 + s.samplesTo n b 256 - 128)).filter saturatedCode).length := by
  rw [training, hc, pilotTraining, fieldTraining, if_neg (by simp), if_neg (by omega)]
  refine ⟨_, rfl, ?_⟩
  dsimp only

/-- Both pilot blocks at the lane's origin, of codes 0. -/
def quiet : RxBurst := { block := 7, codes := List.replicate 3000 0 }

theorem quiet_some (s : State) (hc : s.stdMode = false) (hi : s.samplesTo 3 quiet 256 = 300) :
    ∃ y, s.training 3 quiet = some y ∧ y.sat = 0 := by
  obtain ⟨y, h, hy⟩ := training_some s 3 quiet hc
    (by rw [hi]; show 2604 ≤ (List.replicate 3000 (0 : BitVec 8)).length; rw [List.length_replicate]; omega)
  exact ⟨y, h, by rw [hy, hi]; decide +kernel⟩

/-- A burst without the blocks trains nothing. -/
theorem training_none : (trk id 0).training 3 ⟨7, []⟩ = none := by
  rw [training, show (trk id 0).stdMode = false by decide +kernel, if_neg (by simp), pilotTraining, fieldTraining,
    if_pos (by show 0 < 256 + _ + 2048; omega)]

/-- The lane with a running mean of the block disagreement. -/
def held (x : Option Rat) : State := trk (fun r => { r with equ := { r.equ with dbar := x } }) 0

/-- The same lane without one. -/
def calm : State := trk id 0

theorem held_rx (x : Option Rat) : (held x).dp.rx[(3 : Fin 8)] =
    { calm.dp.rx[(3 : Fin 8)] with equ := { calm.dp.rx[(3 : Fin 8)].equ with dbar := x } } := rfl
theorem held_cfg (x : Option Rat) (f : CField) : (held x).cfg f = calm.cfg f := rfl
theorem held_mode (x : Option Rat) : (held x).lineMode = calm.lineMode := by unfold lineMode; rw [held_cfg]
theorem held_block (x : Option Rat) : (held x).blockSamples = calm.blockSamples := by
  have h1 : calm.lineMode = 1 := by decide +kernel
  simp only [blockSamples, held_mode, h1]
theorem held_in (x : Option Rat) (b : RxBurst) : (held x).equInput 3 b = calm.equInput 3 b := by
  simp only [equInput, burstSamples, laneSamples, penEstimate, cfgOn, held_cfg, cvMode, held_mode, held_block, held_rx]
  rfl
theorem held_to (x : Option Rat) (b : RxBurst) (p : Nat) : (held x).samplesTo 3 b p = calm.samplesTo 3 b p := by
  unfold samplesTo; rw [held_rx]
theorem held_training (x : Option Rat) (b : RxBurst) : (held x).training 3 b = calm.training 3 b := by
  have hs : calm.lineMode = 1 := by decide +kernel
  simp [training, stdMode, held_mode, hs, pilotTraining, fieldTraining, held_to, held_in]
theorem held_eff (x : Option Rat) : (held x).kEff 3 = calm.kEff 3 := by simp only [kEff, held_cfg, held_rx]

/-- A lane that waits for the pilots of a fast retrain, which stand where its correlation begins. -/
def again (fz : Nat) : State := trk (fun r => { r with origin := r.origin + 128, lock := .relock }) fz .hold

/-- A clock loop that has stood at its limit for `k` cycles. -/
def limited (k : Nat) : State := looped 0 fun l => { l with freq := freqLimit, atLimit := k }

theorem held_above :
    ∃ (s : State) (n : Fin 8) (b : RxBurst) (signal : Bool) (y : Training), s.dp.rx[n].powered = true ∧ (s.stdMode =
    true ∨ s.dp.rx[n].fe = .track ∨ s.dp.rx[n].fe = .acquire) ∧ bitOf s.laneMask n = true ∧ s.dp.rx[n].equ.paused =
    false ∧ s.training n b = some y ∧ let causes := (if s.cvMode = true ∧ s.dp.rx[n].lock = .locked ∧
    s.dp.rx[n].ensignOk = false then 1 else 0) + (if s.cfg (F.OLn_FDE_LIMITS_sat_lim n) < y.sat then 2 else 0) + (if
    signal then 0 else 8); let far := disagreement (epsOf (s.cfg (F.OLn_FDE_CTRL_eps_sh n)) (newPow (s.kEff n)
    s.dp.rx[n].equ.pow y.bins)) y.bins; let above : Prop := ∃ m, s.dp.rx[n].equ.dbar = some m ∧ (2 ^ s.cfg
    (F.OLn_FDE_LIMITS_ab_sh n) : Nat) * m < far; causes = 0 ∧ above := by
  have hp : calm.dp.rx[(3 : Fin 8)].powered = true := by decide +kernel
  have he : calm.dp.rx[(3 : Fin 8)].ensignOk = true := by decide +kernel
  have hm : calm.lineMode = 1 := by decide +kernel
  obtain ⟨y, hy, h0⟩ := quiet_some calm (by simp [stdMode, hm]) (by decide +kernel)
  generalize hf : disagreement (epsOf (calm.cfg (F.OLn_FDE_CTRL_eps_sh 3))
      (newPow (calm.kEff 3) calm.dp.rx[(3 : Fin 8)].equ.pow y.bins)) y.bins = far
  have hk : calm.cfg (F.OLn_FDE_LIMITS_ab_sh 3) = 2 := by decide +kernel
  refine ⟨held (some ((far - 1) / 4)), 3, quiet, true, y, ?_, ?_, ?_, ?_, ?_, ?_, ?_⟩
  · rw [held_rx]; exact hp
  · rw [held_rx]; exact .inr (.inl rfl)
  · simp only [laneMask, held_mode, hm]; decide +kernel
  · rw [held_rx]; rfl
  · rw [held_training]; exact hy
  · rw [h0, held_rx]
    simpa using fun _ _ => he
  · refine ⟨_, by rw [held_rx], ?_⟩
    have e1 : (3 : Nat) = ((3 : Fin 8) : Nat) := rfl
    have e2 : ∀ x, (held x).dp.rx[(3 : Fin 8)].equ.pow = calm.dp.rx[(3 : Fin 8)].equ.pow := fun x => by rw [held_rx]
    rw [held_cfg, held_cfg, held_eff, e2]
    have hf' : disagreement (epsOf (calm.cfg (F.OLn_FDE_CTRL_eps_sh ((3 : Fin 8) : Nat)))
      (newPow (calm.kEff 3) calm.dp.rx[(3 : Fin 8)].equ.pow y.bins)) y.bins = far := hf
    have hk' : calm.cfg (F.OLn_FDE_LIMITS_ab_sh ((3 : Fin 8) : Nat)) = 2 := hk
    rw [hf', hk']
    push_cast
    linarith

theorem witness_AdcCalibration :
    (∃ (s : State) (port : Fin 5) (n : Fin 8),
      let idle := ∀ m : Fin 8, m.val / 2 = n.val / 2 → s.adcBusy m = false ∧ (m ≠ n → s.dp.rx[m].adc.request = false);
      s.ready port (R.OLn_RX_CAL_CTRL n) = true ∧ s.dp.rx[n].powered = true ∧ idle)
    ∧ (∃ (s : State) (port : Fin 5) (n : Fin 8), s.ready port (R.OLn_RX_CAL_CTRL n) = true ∧ s.dp.rx[n].powered = true
      ∧ s.adcBusy n = true)
    ∧ (∃ (s : State) (n : Fin 8),
      let idle := ∀ m : Fin 8, m.val / 2 = n.val / 2 → s.adcBusy m = false ∧ (m ≠ n → s.dp.rx[m].adc.request = false);
      s.cfg (F.OLn_RX_CAL_CTRL_period n) ≠ 0 ∧ s.dp.rx[n].powered = true ∧ idle)
    ∧ (∃ (s : State) (n : Fin 8) (off gain : Int),
      let c := s.dp.rx[n].adc;
      s.adcBusy n = true ∧ ∃ x ∈ c.slices.toList, c.skewOnly = false ∧ c.slices[s.spareSlice n]? = some x ∧ (off -
      x.offset).natAbs ≤ 4 * s.cfg (F.OLn_RX_CAL_CTRL_off_lim n) ∧ (gain - x.gain).natAbs ≤ 10 * s.cfg
      (F.OLn_RX_CAL_CTRL_gain_lim n))
    ∧ (∃ (s : State) (n : Fin 8) (gain : Int),
      let c := s.dp.rx[n].adc;
      s.adcBusy n = true ∧ ∃ x ∈ c.slices.toList, c.skewOnly = false ∧ c.slices[s.spareSlice n]? = some x ∧ 10 * s.cfg
      (F.OLn_RX_CAL_CTRL_gain_lim n) < (gain - x.gain).natAbs)
    ∧ (∃ (s : State) (n : Fin 8) (skew : Int),
      let c := s.dp.rx[n].adc;
      s.adcBusy n = true ∧ c.skewOnly = true ∧ (skew - c.trims.getD (s.stepSlot n) 0).natAbs ≤ 2 * s.cfg
      (F.OLn_RX_CAL_CTRL_skew_lim n))
    ∧ (∃ (s : State) (n : Fin 8) (rms : Nat),
      let c := s.dp.rx[n].adc;
      s.adcBusy n = true ∧ c.skewOnly = false ∧ c.shadowOk = false ∧ c.tries < 2 ∧ rms ≤ 128)
    ∧ (∃ (s : State) (n : Fin 8) (rms : Nat),
      let c := s.dp.rx[n].adc;
      s.adcBusy n = true ∧ c.skewOnly = false ∧ c.shadowOk = false ∧ c.tries < 2 ∧ 128 < rms)
    ∧ (∃ (s : State) (n : Fin 8),
      let c := s.dp.rx[n].adc;
      s.adcBusy n = true ∧ ∃ old ∈ (c.slices.toList.findIdx? (·.slot == s.stepSlot n)).toList, c.abort = false ∧
      c.skewOnly = false ∧ c.shadowOk = true ∧ s.rd (F.OLn_RX_CAL_STAT_step n) < 64 ∧ c.slices.toList.findIdx? (·.slot
      == s.stepSlot n) = some old ∧ old ≠ s.spareSlice n ∧ s.spareSlice n < 65)
    ∧ (∃ (s : State) (n : Fin 8),
      let c := s.dp.rx[n].adc;
      s.adcBusy n = true ∧ c.abort = false ∧ c.skewOnly = false ∧ c.shadowOk = false ∧ 2 ≤ c.tries ∧ s.rd
      (F.OLn_RX_CAL_STAT_step n) < 64)
    ∧ (∃ (s : State) (n : Fin 8),
      let c := s.dp.rx[n].adc;
      s.adcBusy n = true ∧ c.abort = false ∧ c.skewOnly = true ∧ s.rd (F.OLn_RX_CAL_STAT_step n) = 64 ∧ c.request =
      false ∧ s.cfgOn (F.OLn_RX_CAL_CTRL_bg_en n) = false ∧ (∀ m : Fin 8, m.val / 2 = n.val / 2 → m ≠ n →
      s.dp.rx[m].adc.request = false))
    ∧ (∃ (s : State) (n : Fin 8),
      let c := s.dp.rx[n].adc;
      s.adcBusy n = true ∧ c.abort = true ∧ s.dp.rx[n].powered = true ∧ (∀ m : Fin 8, m.val / 2 = n.val / 2 → m ≠ n →
      s.adcBusy m = false ∧ s.dp.rx[m].adc.request = false)) :=
  ⟨⟨(live.withCfg (F.OLn_RX_CAL_CTRL_period 3) 5), 0, 3, by dsimp only; decide +kernel⟩,
  ⟨(busy live), 0, 3, by decide +kernel⟩,
  ⟨(live.withCfg (F.OLn_RX_CAL_CTRL_period 3) 5), 3, by dsimp only; decide +kernel⟩,
  ⟨(busy live), 3, 1, 2, by dsimp only; decide +kernel⟩,
  ⟨(lims (busy live)), 3, 201, by dsimp only; decide +kernel⟩,
  ⟨(lims (busy (adc fun c => { c with skewOnly := true}))), 3, 0, by dsimp only; decide +kernel⟩,
  ⟨(busy live), 3, 128, by dsimp only; decide +kernel⟩,
  ⟨(lims (busy live)), 3, 129, by dsimp only; decide +kernel⟩,
  ⟨((lims (busy (adc fun c => { c with tries := 0, j0 := 0, shadowOk := true}))).wr (F.OLn_RX_CAL_STAT_step 3) 0), 3,
      by dsimp only; decide +kernel⟩,
  ⟨((lims (busy (adc fun c => { c with tries := 2, j0 := 0}))).wr (F.OLn_RX_CAL_STAT_step 3) 0), 3,
      by dsimp only; decide +kernel⟩,
  ⟨(((lims (busy (adc fun c => { c with skewOnly := true, partialRun := true}))).wr (F.OLn_RX_CAL_STAT_step 3) 64).withCfg (F.OLn_RX_CAL_CTRL_bg_en 3) 0),
      3, by dsimp only; decide +kernel⟩,
  ⟨((busy (adc fun c => { c with abort := true, j0 := 60 })).wr (F.OLn_RX_CAL_STAT_step 3) 0), 3,
      by dsimp only; decide +kernel⟩⟩

theorem witness_ClockLoopAndSearch :
    (∃ (s : State) (n : Fin 8),
      let r := s.dp.rx[n];
      r.fe = .acquire)
    ∧ (∃ (s : State) (n : Fin 8),
      let r := s.dp.rx[n];
      s.cvMode = true ∧ r.powered = true ∧ r.fe = .search)
    ∧ (∃ (s : State) (n : Fin 8) (b : RxBurst) (l : CdrLoop), s.dp.rx[n].powered = true ∧ s.flag
      (F.OLn_CDR_STAT_fallback n) = false ∧ Claims.loopRan s n b l ∧ l.atLimit < 4096)
    ∧ (∃ (s : State) (n : Fin 8) (b : RxBurst) (l : CdrLoop), s.dp.rx[n].powered = true ∧ s.flag
      (F.OLn_CDR_STAT_fallback n) = false ∧ Claims.loopRan s n b l ∧ 4096 ≤ l.atLimit) :=
  ⟨⟨(fe .acquire id), 3, by dsimp only; decide +kernel⟩,
  ⟨(fe FeState.search id), 3, by dsimp only; decide +kernel⟩,
  ⟨limited 5, 3, ⟨0, []⟩, { (limited 5).dp.rx[(3 : Fin 8)].loop with next := 128 }, by decide +kernel,
      by decide +kernel, ⟨0, by simp, rfl, fun _ => by decide +kernel⟩, by decide +kernel⟩,
  ⟨limited 4096, 3, ⟨0, []⟩, { (limited 4096).dp.rx[(3 : Fin 8)].loop with next := 128 }, by decide +kernel,
      by decide +kernel, ⟨0, by simp, rfl, fun _ => by decide +kernel⟩, by decide +kernel⟩⟩

theorem witness_PilotsAndTaps :
    (∃ (s : State) (n : Fin 8) (b : RxBurst) (d : Nat), s.cvMode = true ∧ s.dp.rx[n].powered = true ∧ s.dp.rx[n].fe =
      .search ∧ pilotSearch (pilotLevels n) (s.burstSamples n b) = .peak d)
    ∧ (∃ (s : State) (n : Fin 8),
      let r := s.dp.rx[n];
      r.powered = true ∧ (s.stdMode = true ∨ r.fe = .track ∨ r.fe = .acquire) ∧ bitOf s.laneMask n = true ∧
      r.equ.paused = true)
    ∧ (∃ (s : State) (n : Fin 8) (b : RxBurst), s.dp.rx[n].powered = true ∧ (s.stdMode = true ∨ s.dp.rx[n].fe = .track
      ∨ s.dp.rx[n].fe = .acquire) ∧ bitOf s.laneMask n = true ∧ s.dp.rx[n].equ.paused = false ∧ s.training n b = none)
    ∧ (∃ (s : State) (n : Fin 8) (b : RxBurst) (signal : Bool) (y : Training), s.dp.rx[n].powered = true ∧ (s.stdMode
      = true ∨ s.dp.rx[n].fe = .track ∨ s.dp.rx[n].fe = .acquire) ∧ bitOf s.laneMask n = true ∧ s.dp.rx[n].equ.paused
      = false ∧ s.training n b = some y ∧
      let causes := (if s.cvMode = true ∧ s.dp.rx[n].lock = .locked ∧ s.dp.rx[n].ensignOk = false then 1 else 0) + (if
          s.cfg (F.OLn_FDE_LIMITS_sat_lim n) < y.sat then 2 else 0) + (if signal then 0 else 8);
      causes ≠ 0)
    ∧ (∃ (s : State) (n : Fin 8) (b : RxBurst) (signal : Bool) (y : Training), s.dp.rx[n].powered = true ∧ (s.stdMode
      = true ∨ s.dp.rx[n].fe = .track ∨ s.dp.rx[n].fe = .acquire) ∧ bitOf s.laneMask n = true ∧ s.dp.rx[n].equ.paused
      = false ∧ s.training n b = some y ∧
      let causes := (if s.cvMode = true ∧ s.dp.rx[n].lock = .locked ∧ s.dp.rx[n].ensignOk = false then 1 else 0) + (if
          s.cfg (F.OLn_FDE_LIMITS_sat_lim n) < y.sat then 2 else 0) + (if signal then 0 else 8);
      let far := disagreement (epsOf (s.cfg (F.OLn_FDE_CTRL_eps_sh n)) (newPow (s.kEff n) s.dp.rx[n].equ.pow y.bins))
          y.bins;
      let above : Prop := ∃ m, s.dp.rx[n].equ.dbar = some m ∧ (2 ^ s.cfg (F.OLn_FDE_LIMITS_ab_sh n) : Nat) * m < far;
      causes = 0 ∧ above)
    ∧ (∃ (s : State) (n : Fin 8) (b : RxBurst) (signal : Bool) (y : Training), s.dp.rx[n].powered = true ∧ (s.stdMode
      = true ∨ s.dp.rx[n].fe = .track ∨ s.dp.rx[n].fe = .acquire) ∧ bitOf s.laneMask n = true ∧ s.dp.rx[n].equ.paused
      = false ∧ s.training n b = some y ∧
      let causes := (if s.cvMode = true ∧ s.dp.rx[n].lock = .locked ∧ s.dp.rx[n].ensignOk = false then 1 else 0) + (if
          s.cfg (F.OLn_FDE_LIMITS_sat_lim n) < y.sat then 2 else 0) + (if signal then 0 else 8);
      let far := disagreement (epsOf (s.cfg (F.OLn_FDE_CTRL_eps_sh n)) (newPow (s.kEff n) s.dp.rx[n].equ.pow y.bins))
          y.bins;
      let above : Prop := ∃ m, s.dp.rx[n].equ.dbar = some m ∧ (2 ^ s.cfg (F.OLn_FDE_LIMITS_ab_sh n) : Nat) * m < far;
      causes = 0 ∧ ¬above ∧ s.frozen n = true)
    ∧ (∃ (s : State) (n : Fin 8) (b : RxBurst) (signal : Bool) (y : Training), s.dp.rx[n].powered = true ∧ (s.stdMode
      = true ∨ s.dp.rx[n].fe = .track ∨ s.dp.rx[n].fe = .acquire) ∧ bitOf s.laneMask n = true ∧ s.dp.rx[n].equ.paused
      = false ∧ s.training n b = some y ∧
      let causes := (if s.cvMode = true ∧ s.dp.rx[n].lock = .locked ∧ s.dp.rx[n].ensignOk = false then 1 else 0) + (if
          s.cfg (F.OLn_FDE_LIMITS_sat_lim n) < y.sat then 2 else 0) + (if signal then 0 else 8);
      let far := disagreement (epsOf (s.cfg (F.OLn_FDE_CTRL_eps_sh n)) (newPow (s.kEff n) s.dp.rx[n].equ.pow y.bins))
          y.bins;
      let above : Prop := ∃ m, s.dp.rx[n].equ.dbar = some m ∧ (2 ^ s.cfg (F.OLn_FDE_LIMITS_ab_sh n) : Nat) * m < far;
      causes = 0 ∧ ¬above ∧ s.frozen n = false)
    ∧ (∃ (s : State) (n : Fin 8) (b : RxBurst) (i : Nat), s.cvMode = true ∧ s.dp.rx[n].fe = .hold ∧ s.dp.rx[n].lock =
      .relock ∧ retrainSearch (pilotLevels n) (s.burstSamples n b) (256 + s.samplesTo n b 128) = some i)
    ∧ (∃ (s : State) (n : Fin 8) (block : Nat),
      let r := s.dp.rx[n];
      r.powered = true ∧ s.switchBlock n block = true)
    ∧ (∃ (s : State) (port : Fin 5) (n : Fin 8), s.ready port (R.OLn_FDE_TAP_DATA n) = true ∧
      let k := s.rd (F.OLn_FDE_TAP_ADDR_bin n);
      k ≤ 512 ∧ s.frozen n = true)
    ∧ (∃ (s : State) (port : Fin 5) (n : Fin 8), s.ready port (R.OLn_FDE_TAP_DATA n) = true ∧ s.frozen n = false)
    ∧ (∃ (s : State) (port : Fin 5) (n : Fin 8), s.ready port (R.OLn_FDE_TAP_DATA n) = true ∧
      let k := s.rd (F.OLn_FDE_TAP_ADDR_bin n);
      k ≤ 512 ∧ s.dp.rx[n].powered = true) :=
  ⟨⟨fe .search, 3, search1, 316, by decide +kernel, by decide +kernel, by decide +kernel, by decide +kernel⟩,
  ⟨(trk (fun r => { r with equ := { r.equ with paused := true } }) 0), 3, by dsimp only; decide +kernel⟩,
  ⟨trk id 0, 3, ⟨7, []⟩, by decide +kernel, by decide +kernel, by decide +kernel, by decide +kernel, training_none⟩,
  by obtain ⟨y, hy, h0⟩ := quiet_some (trk id 0) (by decide +kernel) (by decide +kernel); exact ⟨trk id 0, 3, quiet,
      false, y, by decide +kernel, by decide +kernel, by decide +kernel, by decide +kernel, hy, by simp⟩,
  held_above,
  by obtain ⟨y, hy, h0⟩ := quiet_some (trk id 1) (by decide +kernel) (by decide +kernel); exact ⟨trk id 1, 3, quiet,
      true, y, by decide +kernel, by decide +kernel, by decide +kernel, by decide +kernel, hy,
      by rw [h0]; decide +kernel,
      fun ⟨m, hm, _⟩ => absurd hm (by rw [show (trk id 1).dp.rx[(3 : Fin 8)].equ.dbar = none from rfl]; simp),
      by decide +kernel⟩,
  by obtain ⟨y, hy, h0⟩ := quiet_some (trk id 0) (by decide +kernel) (by decide +kernel); exact ⟨trk id 0, 3, quiet,
      true, y, by decide +kernel, by decide +kernel, by decide +kernel, by decide +kernel, hy,
      by rw [h0]; decide +kernel,
      fun ⟨m, hm, _⟩ => absurd hm (by rw [show (trk id 0).dp.rx[(3 : Fin 8)].equ.dbar = none from rfl]; simp),
      by decide +kernel⟩,
  ⟨again 0, 3, pil 7 300, 0, by decide +kernel, by decide +kernel, by decide +kernel, by decide +kernel⟩,
  ⟨((trk id 0 .search).withCfg F.TOP_MODE_line_mode 3), 3, 9, by dsimp only; decide +kernel⟩,
  ⟨(((fe .track fun r => { r with equ := {r.equ with staged := [(1,2),(512,7)], inForce := mkSet}}).withCfg (F.OLn_FDE_CTRL_freeze 3) 1).wr (F.OLn_FDE_TAP_ADDR_bin 3) 0),
      0, 3, by dsimp only; decide +kernel⟩,
  ⟨(((fe .track fun r => { r with equ := {r.equ with staged := [(1,2),(512,7)], inForce := mkSet}}).withCfg (F.OLn_FDE_CTRL_freeze 3) 0).wr (F.OLn_FDE_TAP_ADDR_bin 3) 0),
      0, 3, by decide +kernel⟩,
  ⟨(((fe .track fun r => { r with equ := {r.equ with staged := [(1,2),(512,7)], inForce := mkSet}}).withCfg (F.OLn_FDE_CTRL_freeze 3) 0).wr (F.OLn_FDE_TAP_ADDR_bin 3) 0),
      0, 3, by dsimp only; decide +kernel⟩⟩

theorem witness_MessagesAccepted :
    (∃ (s : State) (copies : List (Fin 8 × List Bool)), s.acceptedCopies copies = [])
    ∧ (∃ (s : State) (copies : List (Fin 8 × List Bool)) (n : Fin 8) (m : CtlMsg) (rest : List (Fin 8 × CtlMsg)),
      s.acceptedCopies copies = (n, m) :: rest ∧ m.discarded = true)
    ∧ (∃ (s : State) (copies : List (Fin 8 × List Bool)) (n : Fin 8) (m : CtlMsg) (rest : List (Fin 8 × CtlMsg)),
      s.acceptedCopies copies = (n, m) :: rest ∧ m.discarded = false ∧ m.status ≠ 5 ∧ s.dp.link.step ≠ 6 ∧ (s.inLinked
      = true → m.linkStep < 2 ∨ 5 < m.linkStep) ∧ (s.inLinked = true → m.linkStep = 7 → m.retryOn =
      s.dp.ledger.retryOn))
    ∧ (∃ (s : State) (copies : List (Fin 8 × List Bool)) (n : Fin 8) (m : CtlMsg) (rest : List (Fin 8 × CtlMsg)),
      s.acceptedCopies copies = (n, m) :: rest ∧ m.discarded = false ∧ s.cvMode = true ∧ s.inLinked = true ∧
      s.mgmt.dev = .linked ∧ 2 ≤ m.linkStep ∧ m.linkStep ≤ 5 ∧ s.cfgOn F.LEDGER_LINK_CTRL_enable = true) :=
  ⟨⟨lk2, [], by decide +kernel⟩,
  ⟨lk2, [(0, msbBits 2048 field2)], 0, _, [],
      accepted _ _ _ read_field2 (by decide +kernel) (by decide +kernel) (by decide +kernel) (by decide +kernel),
      by decide +kernel⟩,
  ⟨(lk2.atStep 5 0), [(0, msbBits 2048 field1)], 0, _, [],
      accepted _ _ _ read_field1 (by decide +kernel) (by decide +kernel) (by decide +kernel) (by decide +kernel),
      by decide +kernel, by decide +kernel, by decide +kernel, by decide +kernel, by decide +kernel⟩,
  ⟨lk2, [(0, msbBits 2048 field1)], 0, _, [],
      accepted _ _ _ read_field1 (by decide +kernel) (by decide +kernel) (by decide +kernel) (by decide +kernel),
      by decide +kernel, by decide +kernel, by decide +kernel, by decide +kernel, by decide +kernel,
      by decide +kernel, by decide +kernel⟩⟩

end E

namespace F

def pool (f : Pool → Pool) (s : State := live) : State := { s with dp := { s.dp with pool := f s.dp.pool } }
def ent (lane a d : Nat) (codes : List Int) : CwEntry := { lane := lane, sfc := 9, cw := 4, codes := codes, arrival := a, deadline := d }
def run (f : Pool → Pool := id) (s : State := live) : State := pool (fun p => f { p with running := true, reserve := 5, bal := Vector.ofFn fun i => (i.val : Int) * 9 - 20 }) s
def rx3 (f : RxLane → RxLane) (s : State) : State := { s with dp := { s.dp with rx := s.dp.rx.set 3 (f s.dp.rx[3]) } }
def deliver (cw : Nat) (e : Option Nat) : State := rx3 (fun r => { r with lock := .locked, fe := .track, expSfc := e, ds := { r.ds with cw := cw, sfc := 77 } }) (run)
def cd : List Int := (List.range 40).map fun i => (i : Int) - 20
def waiting (d : Nat) : State := run fun p => { p with queue := [ent 4 100 (d+1) cd, ent 3 100 d cd, ent 2 120 (d+7) cd] }
def onC (w : Work) (f : Pool → Pool := id) : State := run fun p => f { p with cores := p.cores.set 2 { p.cores[2] with work := some w } }
def wz (it d : Nat) : Work := { entry := ent 3 100 d [], post := [], msgs := [], codes := cd, iter := it, paid := 2, ends := 500, poison := false, released := false }
def dec (o : Nat) (c : Option Nat) : Decision := { entry := ent 3 100 300 cd, core := c, made := 290, outcome := o, iter := 7, corr := 5, bits := List.replicate 16384 true, poison := false }
def recs (o : Nat) (c : Option Nat) (en : Bool) (s : State := live) (f : Pool → Pool := id) : State := run (s := s) fun p => f { p with histEn := en, decisions := [dec o c, dec 0 none] }
def burst (n : Nat) (b : Nat) (s : State := live) : State := run (s := s) fun p => { p with histBase := b, burst := (List.range n).map fun i => 2^60 + i * 77 }
def rxl (retry : Bool) (rs : List Release) (f : Ledger → Ledger := id) : State := { live with dp := { live.dp with link := { live.dp.link with peerTx := 0xFF }, ledger := f { live.dp.ledger with rxRun := true, retryOn := retry, cap := 500, hRx := 20, hOwn := 20, records := rs } } }

theorem witness_UnitsArriveAndDecode :
    (∃ (s : State) (n : Fin 8), s.delivers n = true)
    ∧ (∃ (s : State) (now : Nat),
      let first := 8 + 16 * s.minIter;
      ∃ k ∈ ((List.finRange 16).find? (fun k : Fin 16 => s.coreActive k && s.dp.pool.cores[k].work.isNone)).toList, ∃
      e ∈ s.earliest.toList, (List.finRange 16).find? (fun k : Fin 16 => s.coreActive k &&
      s.dp.pool.cores[k].work.isNone) = some k ∧ s.earliest = some e ∧ e.lane < 8 ∧ s.ends now first ≤ e.deadline)
    ∧ (∃ (s : State) (now : Nat),
      let first := 8 + 16 * s.minIter;
      ∃ k ∈ ((List.finRange 16).find? (fun k : Fin 16 => s.coreActive k && s.dp.pool.cores[k].work.isNone)).toList, ∃
      e ∈ s.earliest.toList, (List.finRange 16).find? (fun k : Fin 16 => s.coreActive k &&
      s.dp.pool.cores[k].work.isNone) = some k ∧ s.earliest = some e ∧ e.lane < 8 ∧ e.deadline < s.ends now first)
    ∧ (∃ (s : State), ∃ e ∈ s.earliest.toList, s.earliest = some e)
    ∧ (∃ (s : State), s.cvMode = true ∧ s.dpOff = false ∧
      let p := s.dp.pool;
      p.running = true ∧ p.staged = false)
    ∧ (∃ (s : State), s.cvMode = true ∧ s.dpOff = false ∧
      let p := s.dp.pool;
      p.running = false ∧ p.staged = false)
    ∧ (∃ (s : State), s.cvMode = true ∧ s.dpOff = false ∧
      let p := s.dp.pool;
      p.staged = true) :=
  ⟨⟨(deliver 0 none), 3, by decide +kernel⟩,
  ⟨(waiting 140), 100, by dsimp only; decide +kernel⟩,
  ⟨(waiting 104), 100, by dsimp only; decide +kernel⟩,
  ⟨(waiting 104), by decide +kernel⟩,
  ⟨(run), by dsimp only; decide +kernel⟩,
  ⟨(pool (fun p => { p with running := false, staged := 0 == 5, bal := Vector.replicate 8 4, delivered := 9, reserve := 77 })),
      by dsimp only; decide +kernel⟩,
  ⟨(pool (fun p => { p with running := false, staged := 5 == 5, bal := Vector.replicate 8 4, delivered := 9, reserve := 77 })),
      by dsimp only; decide +kernel⟩⟩

theorem witness_IterationsAndCores :
    (∃ (s : State) (k : Fin 16) (w : Work), s.dp.pool.cores[k].work = some w ∧ w.released = false ∧ s.minIter ≤ w.iter
      + 1 ∧ innerCode.satisfied (hardBits (innerCode.iterate s.alpha w.post w.msgs).1) = true)
    ∧ (∃ (s : State) (k : Fin 16) (w : Work), s.dp.pool.cores[k].work = some w ∧
      let it := innerCode.iterate s.alpha w.post w.msgs;
      let converged : Prop := s.minIter ≤ w.iter + 1 ∧ innerCode.satisfied (hardBits it.1) = true;
      let timely : Prop := w.iter + 1 < s.maxIter ∧ s.ends w.ends 16 ≤ w.entry.deadline;
      w.released = false ∧ ¬converged ∧ ¬timely)
    ∧ (∃ (s : State) (k : Fin 16) (w : Work), s.dp.pool.cores[k].work = some w ∧
      let it := innerCode.iterate s.alpha w.post w.msgs;
      let converged : Prop := s.minIter ≤ w.iter + 1 ∧ innerCode.satisfied (hardBits it.1) = true;
      let timely : Prop := w.iter + 1 < s.maxIter ∧ s.ends w.ends 16 ≤ w.entry.deadline;
      w.released = false ∧ ¬converged ∧ timely ∧ w.iter + 1 < w.paid)
    ∧ (∃ (s : State) (k : Fin 16) (w : Work), s.dp.pool.cores[k].work = some w ∧
      let it := innerCode.iterate s.alpha w.post w.msgs;
      let converged : Prop := s.minIter ≤ w.iter + 1 ∧ innerCode.satisfied (hardBits it.1) = true;
      let timely : Prop := w.iter + 1 < s.maxIter ∧ s.ends w.ends 16 ≤ w.entry.deadline;
      w.released = false ∧ ¬converged ∧ timely ∧ w.paid ≤ w.iter + 1 ∧ w.entry.lane < 8 ∧
      let n := Fin.ofNat 8 w.entry.lane;
      16 ≤ s.bal n)
    ∧ (∃ (s : State) (k : Fin 16) (w : Work), s.dp.pool.cores[k].work = some w ∧
      let it := innerCode.iterate s.alpha w.post w.msgs;
      let converged : Prop := s.minIter ≤ w.iter + 1 ∧ innerCode.satisfied (hardBits it.1) = true;
      let timely : Prop := w.iter + 1 < s.maxIter ∧ s.ends w.ends 16 ≤ w.entry.deadline;
      w.released = false ∧ ¬converged ∧ timely ∧ w.paid ≤ w.iter + 1 ∧ w.entry.lane < 8 ∧
      let n := Fin.ofNat 8 w.entry.lane;
      let own := (max (s.bal n) 0).toNat;
      let lent : Prop := 16 - own ≤ s.dp.pool.reserve ∧ s.dp.pool.drawn[n] + (16 - own) ≤ s.dp.pool.laneMax;
      s.bal n < 16 ∧ lent)
    ∧ (∃ (s : State) (k : Fin 16) (w : Work), s.dp.pool.cores[k].work = some w ∧
      let it := innerCode.iterate s.alpha w.post w.msgs;
      let converged : Prop := s.minIter ≤ w.iter + 1 ∧ innerCode.satisfied (hardBits it.1) = true;
      let timely : Prop := w.iter + 1 < s.maxIter ∧ s.ends w.ends 16 ≤ w.entry.deadline;
      w.released = false ∧ ¬converged ∧ timely ∧ w.paid ≤ w.iter + 1 ∧ w.entry.lane < 8 ∧
      let n := Fin.ofNat 8 w.entry.lane;
      let own := (max (s.bal n) 0).toNat;
      let lent : Prop := 16 - own ≤ s.dp.pool.reserve ∧ s.dp.pool.drawn[n] + (16 - own) ≤ s.dp.pool.laneMax;
      s.bal n < 16 ∧ ¬lent)
    ∧ (∃ (s : State) (k : Fin 16) (w : Work), s.dp.pool.cores[k].work = some w ∧ w.released = false)
    ∧ (∃ (s : State) (k : Fin 16) (w : Work), s.dp.pool.cores[k].work = some w ∧ w.released = false ∧ bitOf
      s.failedCores k = false)
    ∧ (∃ (s : State) (k : Fin 16) (w : Work) (now : Nat), s.dp.pool.cores[k].work = some w ∧ w.released = false ∧
      s.cvMode = true ∧ bitOf s.failedCores k = false ∧ s.dp.pool.cores[k].ues = [now])
    ∧ (∃ (s : State) (k : Fin 16) (w : Work), s.dp.pool.cores[k].work = some w ∧ w.released = false ∧ s.cvMode = true
      ∧ s.dp.pool.cores[k].ues = [])
    ∧ (∃ (s : State) (k : Fin 16) (w : Work), s.dp.pool.cores[k].work = some w ∧ w.released = true) :=
  ⟨⟨onC (wz 1 600), 2, wz 1 600, by decide +kernel, rfl, by decide +kernel,
      by rw [show (wz 1 600).post = [] from rfl, Laws.iterate_nil]; exact Laws.satisfied_zeros _ _ (by intro b h; cases h)⟩,
  ⟨(onC (wz 0 515)), 2, (wz 0 515), by dsimp only; decide +kernel⟩,
  ⟨(onC (wz 0 600)), 2, (wz 0 600), by dsimp only; decide +kernel⟩,
  ⟨(onC ({ wz 0 600 with paid := 1 }) (fun p => { p with bal := p.bal.set 3 16 })), 2, ({ wz 0 600 with paid := 1 }),
      by dsimp only; decide +kernel⟩,
  ⟨(onC ({ wz 0 600 with paid := 1 }) (fun p => { p with bal := p.bal.set 3 (-3), reserve := 16 })), 2,
      ({ wz 0 600 with paid := 1 }), by dsimp only; decide +kernel⟩,
  ⟨(onC ({ wz 0 600 with paid := 1 }) (fun p => { p with bal := p.bal.set 3 0, reserve := 15 })), 2,
      ({ wz 0 600 with paid := 1 }), by dsimp only; decide +kernel⟩,
  ⟨(onC (wz 1 600)), 2, (wz 1 600), by decide +kernel⟩,
  ⟨(onC (wz 1 600)), 2, (wz 1 600), by decide +kernel⟩,
  ⟨(onC (wz 3 516) (fun p => { p with bal := p.bal.set 3 5, reserve := 15, cores := p.cores.set 2 { p.cores[2] with ues := [700] } })),
      2, (wz 3 516), 700, by decide +kernel⟩,
  ⟨(onC (wz 1 600)), 2, (wz 1 600), by decide +kernel⟩,
  ⟨(onC { (wz 3 516) with released := true }), 2, { (wz 3 516) with released := true }, by decide +kernel⟩⟩

set_option maxRecDepth 1000000 in
theorem witness_RecordsAndHandOns :
    (∃ (s : State), ∃ d ∈ s.dp.pool.decisions.take 1, ∃ rest ∈ [s.dp.pool.decisions.drop 1], s.dp.pool.decisions = d
      :: rest ∧ d.entry.lane < 8)
    ∧ (∃ (s : State), s.cvMode = true ∧ 64 ≤ s.dp.pool.burst.length ∧ s.dramReady = true ∧ (∀ j, s.dramCode j = 0) ∧
      s.dp.pool.histBase < 32)
    ∧ (∃ (s : State), s.cvMode = true ∧ 64 ≤ s.dp.pool.burst.length ∧ s.dramReady = false)
    ∧ (∃ (s : State) (sfc : Word), s.dp.ledger.rxRun = true ∧ sfcBefore sfc.toNat s.dp.ledger.startSfc = false ∧
      s.dp.ledger.ranges = [] ∧ s.dp.ledger.lineFault = false ∧ (∀ p : Fin 16, s.dp.ports[p].first < 16)) :=
  ⟨⟨(recs 0 none true), by decide +kernel⟩,
  ⟨(burst 64 1).wr F.FEC_HIST_WPTR_index 0, by decide +kernel, by decide +kernel, by decide +kernel, fun j => rfl,
      by decide +kernel⟩,
  ⟨((burst 64 1 (live.wr F.MEM_STAT_dram_ready 0)).wr F.FEC_HIST_WPTR_index 0), by decide +kernel⟩,
  ⟨(rxl true []), 9, by decide +kernel⟩⟩

end F

namespace J

def pen (f : Pen → Pen) (s : State := live) : State := { s with dp := { s.dp with pen := f s.dp.pen } }
def on : State := ((live.withCfg F.PEN_CTRL_rx_en 1).withCfg F.PEN_CTRL_tx_en 1).withCfg F.PEN_RX_CFG_burgee_tol 2
def bur : List Int := burgeeBits.map fun b => if b then 50 else -60
def bad3 (n : Nat) : List Int := bur.mapIdx fun i x => if i < n then -x else x
def cnd (m : Bool) (xs soft : List Int) (since : Nat := 5000) : Candidate := { matched := m, xs := xs, since := since, amp := 3, next := 5000, soft := soft, run := 3, late := 1 }
def sig : List Int := (List.range 800).map fun i => if (i / 25) % 2 = 0 then -9 else 7
def pcS (r : Nat) (c2 c : Option Candidate) (s : List Int) (st : State := on) : State :=
  pen (fun p => { p with rx := r, second := c2, cand := c, signal := s, blockNo := 5700 }) st
def headOf (kind : Nat) (pl : List Byte) (seq : Nat) : Nat := penHeader kind (pl.length - 1) seq
def rxing (h : Nat) (f : Pen → Pen := id) (s : State := on) : State := pen (fun p => f { p with rx := 3, cand := some (cnd true (signed bur) []), head := h, nCw := penCodewords (penLenM1 h), info := [], failed := false, whiten := 0x155 }) s
def cdS (l : List Int) : Candidate := { (cnd true (signed bur) []) with soft := l }
def withC (c : Candidate) (s : State) : State := pen (fun p => { p with cand := some c }) s
def p32 (a : List Byte) : List Byte := a ++ List.replicate (32 - a.length) 0
def br (m : Nat) (nonce peer : Nat) (c : Nat := 0) : List Byte := p32 ([BitVec.ofNat 8 m, 0x11, 0xFF, BitVec.ofNat 8 c] ++ [0, 0] ++ beBytes 4 nonce ++ beBytes 4 peer)
def st1 (f : Link → Link := id) : State := { (on.inDev .bringup) with dp := { on.dp with link := f { on.dp.link with step := 1, nonce := 99 } } }
def it (k : Nat) (sq : Option Nat) (a : Bool) (pl : List Byte := p32 [1]) : PenItem := { kind := k, payload := pl, seq := sq, accept := a }
def mbx (t : Nat) (w : Bool) (st : Nat) : State := pen (fun p => { p with mbState := st, mbWait := w, mbTries := t, mbSeq := 44, mbMail := [1,2,3], waiting := [(4, it 2 none false)], rxQueue := [{seq:=1, bytes := []}], fails := Vector.replicate 8 3, seqs := [(2, 255)] }) ((on.withCfg F.PEN_MB_CFG_mb_retries 2).withCfg F.PEN_TEL_CFG_tel_ms 5)

/-- Soft values 0 of a codeword's samples, whitened or not. -/
theorem zip_zeros (f : Int → Bool → Int) (h : ∀ o, f 0 o = 0) :
    ∀ (n : Nat) (l : List Bool), l.length = n → List.zipWith f (List.replicate n 0) l = List.replicate n 0
  | 0, l, hl => by rw [List.eq_nil_of_length_eq_zero hl]; rfl
  | n + 1, [], hl => by simp at hl
  | n + 1, o :: l, hl => by
    rw [List.replicate_succ, List.zipWith_cons_cons, h, zip_zeros f h n l (by simpa using hl)]

/-- A candidate whose samples since the header are 0. -/
def blank : Candidate := cdS (List.replicate 1024 0)

/-- A codeword of samples 0 decodes to zeros. -/
theorem decode_blank (k w : Nat) (hw : w = 0x155) :
    shortCode.decode 12 k (List.zipWith (fun x o => if o = true then -scaledLlr blank.xs x else scaledLlr blank.xs x)
      (List.take 1024 blank.soft) (lfsr 9 4 1024 w)) shortCode.noMsgs = (List.replicate 1024 false, true) := by
  subst hw
  have hz : scaledLlr blank.xs 0 = 0 := by decide +kernel
  have hc : List.zipWith (fun x o => if o = true then -scaledLlr blank.xs x else scaledLlr blank.xs x)
      (List.take 1024 blank.soft) (lfsr 9 4 1024 0x155) = List.replicate 1024 0 := by
    rw [show List.take 1024 blank.soft = List.replicate 1024 0 from List.take_of_length_le (by decide +kernel)]
    exact zip_zeros _ (by intro o; simp [hz]) 1024 _ (by decide +kernel)
  have h : hardBits (List.replicate 1024 0) = List.replicate 1024 false := by decide +kernel
  have hs : shortCode.satisfied (List.replicate 1024 false) = true :=
    Laws.satisfied_zeros _ _ fun b hb => List.eq_of_mem_replicate hb
  rw [hc]
  cases k with
  | zero => rw [QcCode.decode, h, hs]
  | succ k => rw [QcCode.decode, h, hs]; rfl

/-- A receiver that holds a pennant's bits, with a last codeword of samples 0 to come. -/
def holding (kind : Nat) (pl : List Byte) (f : Pen → Pen := id) (s : State := on) : State :=
  withC blank (rxing (headOf kind pl 7) (fun p => f { p with info := byteBits pl ++ msbBits 16 (penCrc (headOf kind pl 7) pl) }) s)


theorem witness_PennantsIn :
    (∃ (s : State), s.dp.pen.cand = none ∧ s.dp.pen.second = none)
    ∧ (∃ (s : State) (blocks : PenBlocks),
      let u := s.penBlocks blocks;
      let p := u.dp.pen;
      let on := s.cfgOn F.PEN_CTRL_rx_en;
      let hears : Bool := preambleHit s.penThr (lastSymbols p.signal);
      (on && hears) = false)
    ∧ (∃ (s : State) (blocks : PenBlocks),
      let u := s.penBlocks blocks;
      let p := u.dp.pen;
      let on := s.cfgOn F.PEN_CTRL_rx_en;
      let hears : Bool := preambleHit s.penThr (lastSymbols p.signal);
      on = true ∧ hears = true ∧ p.rx = 0)
    ∧ (∃ (s : State) (blocks : PenBlocks),
      let u := s.penBlocks blocks;
      let p := u.dp.pen;
      let on := s.cfgOn F.PEN_CTRL_rx_en;
      let hears : Bool := preambleHit s.penThr (lastSymbols p.signal);
      on = true ∧ hears = true ∧ p.rx ≠ 0)
    ∧ (∃ (s : State) (blocks : PenBlocks),
      let u := s.penBlocks blocks;
      let p := u.dp.pen;
      let on := s.cfgOn F.PEN_CTRL_rx_en;
      let hears : Bool := preambleHit s.penThr (lastSymbols p.signal);
      on = true ∧ hears = true ∧ p.rx ≠ 0 ∧ p.second = none)
    ∧ (∃ (s : State) (blocks : PenBlocks),
      let u := s.penBlocks blocks;
      let p := u.dp.pen;
      let on := s.cfgOn F.PEN_CTRL_rx_en;
      let hears : Bool := preambleHit s.penThr (lastSymbols p.signal);
      on = true ∧ hears = true ∧ ∃ c ∈ p.second.toList, p.rx ≠ 0 ∧ p.second = some c)
    ∧ (∃ (s : State) (blocks : PenBlocks),
      let u := s.penBlocks blocks;
      let p := u.dp.pen;
      let on := s.cfgOn F.PEN_CTRL_rx_en;
      let waits (c : Candidate) : Prop := c.matched = false ∧ p.blockNo < c.since + 2400 ∧ 32 ≤ c.soft.length;
      let wrong (word : List Int) : Nat := ((List.zip word burgeeBits).filter fun (x, b) => x != 0 && decide (0 < x)
          != b).length;
      let zero (word : List Int) : Nat := (word.filter (· == 0)).length;
      let tol := min 6 (s.cfg F.PEN_RX_CFG_burgee_tol);
      let last (c : Candidate) : List Int := c.soft.drop (c.soft.length - 32);
      ∃ c ∈ p.cand.toList, on = true ∧ p.rx = 1 ∧ p.cand = some c ∧ waits c ∧ wrong (last c) + zero (last c) ≤ tol)
    ∧ (∃ (s : State) (blocks : PenBlocks),
      let u := s.penBlocks blocks;
      let p := u.dp.pen;
      let on := s.cfgOn F.PEN_CTRL_rx_en;
      let waits (c : Candidate) : Prop := c.matched = false ∧ p.blockNo < c.since + 2400 ∧ 32 ≤ c.soft.length;
      let wrong (word : List Int) : Nat := ((List.zip word burgeeBits).filter fun (x, b) => x != 0 && decide (0 < x)
          != b).length;
      let tol := min 6 (s.cfg F.PEN_RX_CFG_burgee_tol);
      let last (c : Candidate) : List Int := c.soft.drop (c.soft.length - 32);
      ∃ c ∈ p.cand.toList, on = true ∧ p.rx = 1 ∧ p.cand = some c ∧ waits c ∧ tol < wrong (last c))
    ∧ (∃ (s : State) (blocks : PenBlocks),
      let u := s.penBlocks blocks;
      let p := u.dp.pen;
      let on := s.cfgOn F.PEN_CTRL_rx_en;
      let waits (c : Candidate) : Prop := c.matched = false ∧ p.blockNo < c.since + 2400 ∧ 32 ≤ c.soft.length;
      let wrong (word : List Int) : Nat := ((List.zip word burgeeBits).filter fun (x, b) => x != 0 && decide (0 < x)
          != b).length;
      let zero (word : List Int) : Nat := (word.filter (· == 0)).length;
      let tol := min 6 (s.cfg F.PEN_RX_CFG_burgee_tol);
      let last (c : Candidate) : List Int := c.soft.drop (c.soft.length - 32);
      ∃ c ∈ p.second.toList, on = true ∧ p.second = some c ∧ waits c ∧ wrong (last c) + zero (last c) ≤ tol ∧ p.rx ≠
      1)
    ∧ (∃ (s : State) (blocks : PenBlocks),
      let u := s.penBlocks blocks;
      let p := u.dp.pen;
      let on := s.cfgOn F.PEN_CTRL_rx_en;
      let waits (c : Candidate) : Prop := c.matched = false ∧ p.blockNo < c.since + 2400 ∧ 32 ≤ c.soft.length;
      let wrong (word : List Int) : Nat := ((List.zip word burgeeBits).filter fun (x, b) => x != 0 && decide (0 < x)
          != b).length;
      let zero (word : List Int) : Nat := (word.filter (· == 0)).length;
      let tol := min 6 (s.cfg F.PEN_RX_CFG_burgee_tol);
      let last (c : Candidate) : List Int := c.soft.drop (c.soft.length - 32);
      ∃ c ∈ p.second.toList, on = true ∧ p.second = some c ∧ waits c ∧ wrong (last c) + zero (last c) ≤ tol ∧ p.rx =
      1)
    ∧ (∃ (s : State) (blocks : PenBlocks),
      let u := s.penBlocks blocks;
      let p := u.dp.pen;
      ∃ c ∈ p.cand.toList, p.rx = 1 ∧ p.cand = some c ∧ c.since + 2400 ≤ p.blockNo)
    ∧ (∃ (s : State) (blocks : PenBlocks) (c : Candidate),
      let u := s.penBlocks blocks;
      let p := u.dp.pen;
      p.rx = 3 ∧ p.cand = some c ∧ 1024 ≤ c.soft.length ∧
      let codes := List.zipWith (fun x o =>
      let l := scaledLlr c.xs x;
      if o then -l else l) (c.soft.take 1024) (lfsr 9 4 1024 p.whiten);
      let dec := shortCode.decode 12 s.penIter codes shortCode.noMsgs;
      let info := p.info ++ dec.1.take 512;
      info.length < 512 * p.nCw)
    ∧ (∃ (s : State) (blocks : PenBlocks) (c : Candidate),
      let u := s.penBlocks blocks;
      let p := u.dp.pen;
      p.rx = 3 ∧ p.cand = some c ∧ 1024 ≤ c.soft.length ∧
      let codes := List.zipWith (fun x o =>
      let l := scaledLlr c.xs x;
      if o then -l else l) (c.soft.take 1024) (lfsr 9 4 1024 p.whiten);
      let dec := shortCode.decode 12 s.penIter codes shortCode.noMsgs;
      let info := p.info ++ dec.1.take 512;
      let n := penLenM1 p.head + 1;
      let payload := State.bitsToBytes (info.take (8 * n));
      let crc := ofMsb ((info.drop (8 * n)).take 16);
      512 * p.nCw ≤ info.length ∧ (p.failed = true ∨ dec.2 = false ∨ crc ≠ penCrc p.head payload))
    ∧ (∃ (s : State) (blocks : PenBlocks) (endUs : Nat) (c : Candidate),
      let u := s.penBlocks blocks;
      let p := u.dp.pen;
      p.rx = 3 ∧ p.cand = some c ∧ 1024 ≤ c.soft.length ∧
      let codes := List.zipWith (fun x o =>
      let l := scaledLlr c.xs x;
      if o then -l else l) (c.soft.take 1024) (lfsr 9 4 1024 p.whiten);
      let dec := shortCode.decode 12 s.penIter codes shortCode.noMsgs;
      let info := p.info ++ dec.1.take 512;
      let n := penLenM1 p.head + 1;
      let payload := State.bitsToBytes (info.take (8 * n));
      let crc := ofMsb ((info.drop (8 * n)).take 16);
      512 * p.nCw ≤ info.length ∧ p.failed = false ∧ dec.2 = true ∧ crc = penCrc p.head payload ∧ s.reflected p.head
      crc endUs = true)
    ∧ (∃ (s : State) (blocks : PenBlocks) (endUs : Nat) (c : Candidate),
      let u := s.penBlocks blocks;
      let p := u.dp.pen;
      p.rx = 3 ∧ p.cand = some c ∧ 1024 ≤ c.soft.length ∧
      let codes := List.zipWith (fun x o =>
      let l := scaledLlr c.xs x;
      if o then -l else l) (c.soft.take 1024) (lfsr 9 4 1024 p.whiten);
      let dec := shortCode.decode 12 s.penIter codes shortCode.noMsgs;
      let info := p.info ++ dec.1.take 512;
      let n := penLenM1 p.head + 1;
      let payload := State.bitsToBytes (info.take (8 * n));
      let crc := ofMsb ((info.drop (8 * n)).take 16);
      512 * p.nCw ≤ info.length ∧ p.failed = false ∧ dec.2 = true ∧ crc = penCrc p.head payload ∧ s.reflected p.head
      crc endUs = false ∧ 4 ≤ penKind p.head)
    ∧ (∃ (s : State) (blocks : PenBlocks) (endUs : Nat) (c : Candidate),
      let u := s.penBlocks blocks;
      let p := u.dp.pen;
      p.rx = 3 ∧ p.cand = some c ∧ 1024 ≤ c.soft.length ∧
      let codes := List.zipWith (fun x o =>
      let l := scaledLlr c.xs x;
      if o then -l else l) (c.soft.take 1024) (lfsr 9 4 1024 p.whiten);
      let dec := shortCode.decode 12 s.penIter codes shortCode.noMsgs;
      let info := p.info ++ dec.1.take 512;
      let n := penLenM1 p.head + 1;
      let payload := State.bitsToBytes (info.take (8 * n));
      let crc := ofMsb ((info.drop (8 * n)).take 16);
      512 * p.nCw ≤ info.length ∧ p.failed = false ∧ dec.2 = true ∧ crc = penCrc p.head payload ∧ s.reflected p.head
      crc endUs = false ∧ penKind p.head = 2 ∧ p.lastMail = some (penSeq p.head))
    ∧ (∃ (s : State) (blocks : PenBlocks) (endUs : Nat) (c : Candidate),
      let u := s.penBlocks blocks;
      let p := u.dp.pen;
      p.rx = 3 ∧ p.cand = some c ∧ 1024 ≤ c.soft.length ∧
      let codes := List.zipWith (fun x o =>
      let l := scaledLlr c.xs x;
      if o then -l else l) (c.soft.take 1024) (lfsr 9 4 1024 p.whiten);
      let dec := shortCode.decode 12 s.penIter codes shortCode.noMsgs;
      let info := p.info ++ dec.1.take 512;
      let n := penLenM1 p.head + 1;
      let payload := State.bitsToBytes (info.take (8 * n));
      let crc := ofMsb ((info.drop (8 * n)).take 16);
      512 * p.nCw ≤ info.length ∧ p.failed = false ∧ dec.2 = true ∧ crc = penCrc p.head payload ∧ s.reflected p.head
      crc endUs = false ∧ penKind p.head = 2 ∧ p.lastMail ≠ some (penSeq p.head) ∧ p.rxQueue.length < 2)
    ∧ (∃ (s : State) (blocks : PenBlocks) (endUs : Nat) (c : Candidate),
      let u := s.penBlocks blocks;
      let p := u.dp.pen;
      p.rx = 3 ∧ p.cand = some c ∧ 1024 ≤ c.soft.length ∧
      let codes := List.zipWith (fun x o =>
      let l := scaledLlr c.xs x;
      if o then -l else l) (c.soft.take 1024) (lfsr 9 4 1024 p.whiten);
      let dec := shortCode.decode 12 s.penIter codes shortCode.noMsgs;
      let info := p.info ++ dec.1.take 512;
      let n := penLenM1 p.head + 1;
      let payload := State.bitsToBytes (info.take (8 * n));
      let crc := ofMsb ((info.drop (8 * n)).take 16);
      512 * p.nCw ≤ info.length ∧ p.failed = false ∧ dec.2 = true ∧ crc = penCrc p.head payload ∧ s.reflected p.head
      crc endUs = false ∧ penKind p.head = 2 ∧ p.lastMail ≠ some (penSeq p.head) ∧ 2 ≤ p.rxQueue.length)
    ∧ (∃ (s : State) (blocks : PenBlocks) (endUs : Nat) (c : Candidate),
      let u := s.penBlocks blocks;
      let p := u.dp.pen;
      p.rx = 3 ∧ p.cand = some c ∧ 1024 ≤ c.soft.length ∧
      let codes := List.zipWith (fun x o =>
      let l := scaledLlr c.xs x;
      if o then -l else l) (c.soft.take 1024) (lfsr 9 4 1024 p.whiten);
      let dec := shortCode.decode 12 s.penIter codes shortCode.noMsgs;
      let info := p.info ++ dec.1.take 512;
      let n := penLenM1 p.head + 1;
      let payload := State.bitsToBytes (info.take (8 * n));
      let crc := ofMsb ((info.drop (8 * n)).take 16);
      512 * p.nCw ≤ info.length ∧ p.failed = false ∧ dec.2 = true ∧ crc = penCrc p.head payload ∧ s.reflected p.head
      crc endUs = false ∧ penKind p.head = 1 ∧ payload.length = 32 ∧ s.cvMode = true ∧ s.dp.link.step = 1 ∧ byteAt
      payload 0 = 1 ∧ be32 payload 6 ≠ s.dp.link.nonce ∧ byteAt payload 1 / 16 = 1 ∧ byteAt payload 1 % 16 =
      s.lineMode ∧ byteAt payload 2 = s.laneMask ∧ byteAt payload 3 = s.cfg (F.HL0_GROUP_code 0) ∧ s.dp.link.cand ≠
      be32 payload 6 ∧ s.dp.link.gotFrom = 0) :=
  ⟨⟨(pcS 0 none none sig on), by decide +kernel⟩,
  ⟨(pcS 0 none none (List.replicate 800 5) on), [], by dsimp only; decide +kernel⟩,
  ⟨(pcS 0 none none sig on), [], by dsimp only; decide +kernel⟩,
  ⟨(pcS 1 none (some (cnd true (signed bur) [])) sig on), [], by dsimp only; decide +kernel⟩,
  ⟨(pcS 1 none (some (cnd true (signed bur) [])) sig on), [], by dsimp only; decide +kernel⟩,
  ⟨(pcS 1 (some (cnd false [] [])) (some (cnd true (signed bur) [])) sig on), [], by dsimp only; decide +kernel⟩,
  ⟨(pcS 1 none (some (cnd false [] (List.replicate 20 5 ++ bur) 5000)) [1] on), [], by dsimp only; decide +kernel⟩,
  ⟨(pcS 1 none (some (cnd false [] (List.replicate 20 5 ++ (bad3 3)) 5000)) [1] on), [],
      by dsimp only; decide +kernel⟩,
  ⟨(pcS 2 (some (cnd false [] (List.replicate 20 5 ++ bur))) (some (cnd false [] [])) [1] on), [],
      by dsimp only; decide +kernel⟩,
  ⟨(pcS 1 (some (cnd false [] (List.replicate 20 5 ++ bur))) (some (cnd false [] [])) [1] on), [],
      by dsimp only; decide +kernel⟩,
  ⟨(pcS 1 none (some (cnd false [] [1] 3000)) [1] on), [], by dsimp only; decide +kernel⟩,
  ⟨withC blank (rxing (penHeader 2 200 3)), [], blank,
      by dsimp only; rw [decode_blank]; (case hw => rfl); decide +kernel⟩,
  ⟨holding 4 (p32 [1, 2, 3]) (fun p => { p with failed := true }), [], blank,
      by dsimp only; rw [decode_blank]; (case hw => rfl); decide +kernel⟩,
  ⟨holding 4 (p32 [1, 2, 3]) (fun p => { p with sent := [(headOf 4 (p32 [1, 2, 3]) 7, penCrc (headOf 4 (p32 [1, 2, 3]) 7) (p32 [1, 2, 3]), 4999000)] }) (on.withCfg F.PEN_RX_CFG_refl_ms 3),
      [], 5000000, blank, by dsimp only; rw [decode_blank]; (case hw => rfl); decide +kernel⟩,
  ⟨holding 4 (p32 [1, 2, 3]), [], 5000000, blank, by dsimp only; rw [decode_blank]; (case hw => rfl); decide +kernel⟩,
  ⟨holding 2 (p32 [1, 2, 3]) (fun p => { p with lastMail := some 7, second := some (cnd true [] []) }), [], 5000000,
      blank, by dsimp only; rw [decode_blank]; (case hw => rfl); decide +kernel⟩,
  ⟨holding 2 (p32 [1, 2, 3]), [], 5000000, blank, by dsimp only; rw [decode_blank]; (case hw => rfl); decide +kernel⟩,
  ⟨holding 2 (p32 [1, 2, 3]) (fun p => { p with rxQueue := [{ seq := 1, bytes := [1] }, { seq := 2, bytes := [1] }] }),
      [], 5000000, blank, by dsimp only; rw [decode_blank]; (case hw => rfl); decide +kernel⟩,
  ⟨holding 1 (br 1 5 0) id st1, [], 5000000, blank,
      by dsimp only; rw [decode_blank]; (case hw => rfl); decide +kernel⟩⟩

theorem witness_PennantsSentAndMail :
    (∃ (s : State) (now : Nat),
      let p := s.dp.pen;
      let gap : Prop := p.sendBits = [] ∨ p.sendStart + (p.sendBits.length + 32) * (25 * s.blockSamples) ≤ now;
      ∃ px ∈ p.waiting.take 1,
      let prio := px.1;
      let x := px.2;
      ∃ rest ∈ [p.waiting.drop 1], p.waiting = (prio, x) :: rest ∧ s.cfgOn F.PEN_CTRL_tx_en = true ∧ p.sending = none
      ∧ gap)
    ∧ (∃ (s : State),
      let p := s.dp.pen;
      ∃ x ∈ p.sending.toList, p.sending = some x ∧ x.accept = false)
    ∧ (∃ (s : State),
      let p := s.dp.pen;
      ∃ x ∈ p.sending.toList, p.sending = some x ∧ x.accept = true ∧ s.dp.link.step = 1 ∧ s.dp.link.gotFrom = be32
      x.payload 10 ∧ s.dp.link.gotFrom ≠ 0)
    ∧ (∃ (s : State) (now : Nat),
      let p := s.dp.pen;
      let gap : Prop := p.sendBits = [] ∨ p.sendStart + (p.sendBits.length + 32) * (25 * s.blockSamples) ≤ now;
      ¬gap)
    ∧ (∃ (s : State) (port : Fin 5),
      let p := s.dp.pen;
      s.ready port R.PEN_MB_TX_CTRL = true ∧ p.mbState ≠ 1)
    ∧ (∃ (s : State) (port : Fin 5),
      let p := s.dp.pen;
      s.ready port R.PEN_MB_TX_CTRL = true ∧ p.mbState = 1 ∧ (s.reg R.PEN_MB_TX_CTRL).getLsbD 8 = false)
    ∧ (∃ (s : State),
      let p := s.dp.pen;
      p.mbState = 1 ∧ p.mbWait = true ∧ p.mbTries < 1 + s.cfg F.PEN_MB_CFG_mb_retries)
    ∧ (∃ (s : State),
      let p := s.dp.pen;
      p.mbState = 1 ∧ p.mbWait = true ∧ 1 + s.cfg F.PEN_MB_CFG_mb_retries ≤ p.mbTries)
    ∧ (∃ (s : State) (port : Fin 5), s.ready port R.PEN_MB_RX_POP = true)
    ∧ (∃ (s : State), s.cfg F.PEN_TEL_CFG_tel_ms ≠ 0) :=
  ⟨⟨(mbx 0 true 0), 77, by dsimp only; decide +kernel⟩,
  ⟨(pen (fun p => { p with mbState := 0, sending := some (it 4 none false), sent := [(1,2,3),(1,2,3),(1,2,3),(1,2,3)] }) on),
      by dsimp only; decide +kernel⟩,
  ⟨(pen (fun p => { p with sending := some (it 1 none true (br 2 5 5)) }) (st1 fun l => { l with gotFrom := 5, cand := 5 })),
      by dsimp only; decide +kernel⟩,
  ⟨(pen (fun p => { p with sendBits := [true, false], waiting := [(5, it 4 none false)] }) on), 0,
      by dsimp only; decide +kernel⟩,
  ⟨(mbx 0 true 0), 0, by dsimp only; decide +kernel⟩,
  ⟨(mbx 0 true 1), 0, by dsimp only; decide +kernel⟩,
  ⟨(mbx 0 true 1), by dsimp only; decide +kernel⟩,
  ⟨(mbx 3 true 1), by dsimp only; decide +kernel⟩,
  ⟨(mbx 0 true 0), 0, by decide +kernel⟩,
  ⟨(mbx 0 true 0), by decide +kernel⟩⟩

end J

namespace K

def tm (f : TimeSt → TimeSt) (s : State := live) : State := { s with dp := { s.dp with time := f s.dp.time } }
def src (k pol : Nat) (f : TimeSt → TimeSt := id) : State := ((((tm f).withCfg F.TIME_CTRL_src k).withCfg F.TIME_CTRL_tsync_pol pol).withCfg F.TIME_SERVO_CTRL_kp 3).withCfg F.TIME_SERVO_CTRL_ki 5
def ptp (ty : Nat) : List Byte := [BitVec.ofNat 8 ty, 2] ++ List.replicate 32 0
def v4 (f : List Byte := ptp 0) : List Byte := List.replicate 12 1 ++ [0x08, 0] ++ [0x45,0,0,0,0,0,0,0,9,17,0,0] ++ List.replicate 8 4 ++ [1,63,1,63,0,42,9,9] ++ f ++ List.replicate 20 3
def v6 (f : List Byte := ptp 0) (len : Nat := 44) : List Byte := List.replicate 12 1 ++ [0x86, 0xDD] ++ [0x60,0,0,0,0,0,17,4] ++ List.replicate 32 4 ++ [1,63,1,63,0,BitVec.ofNat 8 len,9,9] ++ f.set 3 34 ++ List.replicate 20 3
def blk66 (sync : List Bool) (bs : List Nat) : BitVec 66 := BitVec.ofNat 66 (ofMsb (sync ++ bytesLsb bs))
def tcode (k : Nat) : Nat := [0x87, 0x99, 0xAA, 0xB4, 0xCC, 0xD2, 0xE1, 0xFF].getD k 0
def isD : List Bool := (sync66 idle66).reverse
def isC : List Bool := sync66 idle66
def startB : BitVec 66 := blk66 isC [0x78, 0x55, 0x55, 0x55, 0x55, 0x55, 0x55, 0xD5]
def frameBlocks (b : List Byte) (bad : Option Nat := none) : List (BitVec 66) :=
  let n := b.length / 8
  let ds := (List.range n).map fun i => if bad = some i then error66 else blk66 isD ((b.drop (8*i)).take 8 |>.map (·.toNat))
  let r := (b.drop (8*n)).map (·.toNat)
  startB :: ds ++ [blk66 isC ([tcode r.length] ++ r ++ List.replicate (7 - r.length) 0), idle66, idle66, idle66, idle66]
def pack4 : List (BitVec 66) → List Block
  | a :: b :: c :: d :: t => transcode [a, b, c, d] :: pack4 t
  | _ => []
def tcb (k v : Nat) (f : TimeSt → TimeSt := id) (s : State := live) : State :=
  (((((tm f s).withCfg F.TIME_CTRL_tc_en k).withCfg F.TIME_CTRL_v6_trail v).setInForce R.TIME_OFS_HOST_RX 100 |>.setInForce R.TIME_OFS_LINE_TX 0xFFFFFF00).setInForce R.TIME_OFS_LINE_RX 77).setInForce R.TIME_OFS_HOST_TX 0x80000000
/-- The frame in the elastic buffer (from number 10) and in the open unit, a ready unit, a retained one of port 3. -/
def held (b : List Byte) (bad : Option Nat := none) (cut : Nat := 1000) (froms : List (Nat × Nat) := [(9, 128 * 5 + 3)]) (s : State := live) : State :=
  let bl := (frameBlocks b bad).take cut
  let bks := pack4 bl
  let s := s.withPort 3 { port1 3 with eb := bl, shown := 10 + bl.length, packed := 10 + 4 * bks.length, openBlocks := bks, froms := froms }
  s
def fl (b : List Byte) (tl : Bool) (st : Option (Nat × Nat × Nat)) (t1 : Option Nat := some 55) : PtpFrame := { toLine := tl, port := 3, place := 11, len := (b.length+7)/8, bytes := b, stamp := st, bit := 65, t1 := t1 }
def kept (b : List Byte) (place : Nat) : State :=
  let bks := pack4 (frameBlocks b)
  let u : TxUnit := { port := 3, epoch := 0, blocks := bks, start := 10, done := 0 }
  let s := (held b).withPort 3 { port1 3 with packed := 10 + 4 * bks.length }
  { s with dp := { s.dp with ledger := { s.dp.ledger with place := place, retention := [{ seq := 5, unit := u, lane := 0, count := 0, armed := false, lastStart := 0, unrec := false, frameT1 := none, t1 := some 44 }] } } }

theorem witness_TimeCounterAndServo :
    (∃ (s : State) (port : Fin 5), s.ready port R.TIME_NOW_NS = true ∧ s.dpOff = false)
    ∧ (∃ (s : State) (port : Fin 5), s.ready port R.TIME_STEP_CTRL = true)
    ∧ (∃ (s : State) (rising : Bool), s.timeSrc = 1 ∧ rising ≠ s.cfgOn F.TIME_CTRL_tsync_pol ∧ s.dp.time.edgeSeen =
      false)
    ∧ (∃ (s : State) (rising : Bool), s.timeSrc = 1 ∧ rising ≠ s.cfgOn F.TIME_CTRL_tsync_pol ∧ s.dp.time.edgeSeen =
      true)
    ∧ (∃ (s : State) (rising : Bool), (s.timeSrc ≠ 1 ∨ rising = s.cfgOn F.TIME_CTRL_tsync_pol))
    ∧ (∃ (s : State) (cycles : Nat),
      let at_ := s.timeRun cycles;
      let past : Prop := 500000000 ≤ toSigned 32 (at_.timeNowNs + 2 ^ 32 - (s.reg R.TIME_PPS_EXP).toNat);
      s.timeSrc = 1 ∧ past)
    ∧ (∃ (s : State) (cycles : Nat),
      let at_ := s.timeRun cycles;
      let past : Prop := 500000000 ≤ toSigned 32 (at_.timeNowNs + 2 ^ 32 - (s.reg R.TIME_PPS_EXP).toNat);
      (s.timeSrc ≠ 1 ∨ ¬past))
    ∧ (∃ (s : State) (port : Fin 5), s.ready port R.TIME_PPS_EXP = true)
    ∧ (∃ (s : State) (port : Fin 5), s.ready port R.TIME_SERVO_OFS = true ∧ s.timeSrc = 2)
    ∧ (∃ (s : State) (port : Fin 5), s.ready port R.TIME_SERVO_OFS = true ∧ s.timeSrc ≠ 2) :=
  ⟨⟨(tm fun t => { t with count := 0, step := some (5, true), wraps := 65535 }), 0, by decide +kernel⟩,
  ⟨(tm fun t => { t with count := 0, step := some (5, true), wraps := 65535 }), 0, by decide +kernel⟩,
  ⟨((src (1-0) 0 fun t => { t with count := 0, edgeSeen := false, missRun := 0 }).setReg R.TIME_PPS_EXP 1001), true,
      by decide +kernel⟩,
  ⟨((src (1-0) 0 fun t => { t with count := 0, edgeSeen := true, missRun := 0 }).setReg R.TIME_PPS_EXP 1001), true,
      by decide +kernel⟩,
  ⟨((src 2 0 fun t => { t with count := 5*2^48*1000, integ := -77 }).withCfg F.TIME_SERVO_CTRL_step_sh 0), true,
      by decide +kernel⟩,
  ⟨((src (1-0) 0 fun t => { t with count := (5*2^48*500001000), edgeSeen := true, missRun := 0 }).setReg R.TIME_PPS_EXP 1001),
      3, by dsimp only; decide +kernel⟩,
  ⟨((src 2 0 fun t => { t with count := 5*2^48*1000, integ := -77 }).withCfg F.TIME_SERVO_CTRL_step_sh 0), 3,
      by dsimp only; decide +kernel⟩,
  ⟨((src 2 0 fun t => { t with count := 5*2^48*1000, integ := -77 }).withCfg F.TIME_SERVO_CTRL_step_sh 0), 0,
      by decide +kernel⟩,
  ⟨((src 2 0 fun t => { t with count := 5*2^48*1000, integ := -77 }).withCfg F.TIME_SERVO_CTRL_step_sh 0), 0,
      by decide +kernel⟩,
  ⟨((src (1-0) 0 fun t => { t with count := 0, edgeSeen := true, missRun := 0 }).setReg R.TIME_PPS_EXP 1001), 0,
      by decide +kernel⟩⟩

theorem witness_TransparentClock :
    (∃ (s : State) (toLine : Bool) (port : Fin 16) (place : Nat) (cycles : Int),
      let v := s.frameAt toLine port place;
      let known := s.dp.time.flight.any fun f => f.toLine == toLine && f.port == port.val && f.place == place;
      let serves := s.cvMode = true ∧ s.cfgOn F.TIME_CTRL_tc_en = true ∧ known = false;
      (¬serves ∨ ptpEvent v.bytes = none ∨ s.stampI toLine port place cycles = none))
    ∧ (∃ (s : State) (toLine : Bool) (port : Fin 16) (place : Nat) (cycles : Int),
      let v := s.frameAt toLine port place;
      let known := s.dp.time.flight.any fun f => f.toLine == toLine && f.port == port.val && f.place == place;
      let serves := s.cvMode = true ∧ s.cfgOn F.TIME_CTRL_tc_en = true ∧ known = false;
      ∃ eup ∈ (ptpEvent v.bytes).toList, ∃ i ∈ (s.stampI toLine port place cycles).toList,
      let e := eup.1;
      let u := eup.2.1;
      let p := eup.2.2;
      serves ∧ ptpEvent v.bytes = some (e, u, p) ∧ s.stampI toLine port place cycles = some i ∧ s.ptpSkipped v.bytes e
      u p v.marked = true)
    ∧ (∃ (s : State) (toLine : Bool) (port : Fin 16) (place : Nat) (cycles : Int),
      let v := s.frameAt toLine port place;
      let known := s.dp.time.flight.any fun f => f.toLine == toLine && f.port == port.val && f.place == place;
      let serves := s.cvMode = true ∧ s.cfgOn F.TIME_CTRL_tc_en = true ∧ known = false;
      ∃ eup ∈ (ptpEvent v.bytes).toList, ∃ i ∈ (s.stampI toLine port place cycles).toList,
      let e := eup.1;
      let u := eup.2.1;
      let p := eup.2.2;
      serves ∧ ptpEvent v.bytes = some (e, u, p) ∧ s.stampI toLine port place cycles = some i ∧ s.ptpSkipped v.bytes e
      u p v.marked = false)
    ∧ (∃ (s : State) (toLine : Bool) (port : Fin 16) (cycles : Int), s.readyFrame toLine port cycles = none)
    ∧ (∃ (s : State) (toLine : Bool) (port : Fin 16) (cycles : Int), ∃ fwe ∈ (s.readyFrame toLine port cycles).toList,
      let f := fwe.1;
      let w := fwe.2.1;
      let e := fwe.2.2;
      s.readyFrame toLine port cycles = some (f, w, e) ∧ f.stamp = none)
    ∧ (∃ (s : State) (toLine : Bool) (port : Fin 16) (cycles : Int), ∃ fwe ∈ (s.readyFrame toLine port cycles).toList,
      let f := fwe.1;
      let w := fwe.2.1;
      let e := fwe.2.2;
      s.readyFrame toLine port cycles = some (f, w, e) ∧ ∃ pei ∈ f.stamp.toList,
      let p := pei.1;
      let enc := pei.2.1;
      let i := pei.2.2;
      f.stamp = some (p, enc, i) ∧ w.marked = true)
    ∧ (∃ (s : State) (toLine : Bool) (port : Fin 16) (cycles : Int), ∃ fwe ∈ (s.readyFrame toLine port cycles).toList,
      let f := fwe.1;
      let w := fwe.2.1;
      let e := fwe.2.2;
      s.readyFrame toLine port cycles = some (f, w, e) ∧ ∃ pei ∈ f.stamp.toList,
      let p := pei.1;
      let enc := pei.2.1;
      let i := pei.2.2;
      f.stamp = some (p, enc, i) ∧ w.marked = false) :=
  ⟨⟨(tcb 0 0 (s := held v4 none)), true, 3, 11, (-5), by dsimp only; decide +kernel⟩,
  ⟨(tcb 1 0 (s := held v6 none)), true, 3, 11, (-5), by dsimp only; decide +kernel⟩,
  ⟨(tcb 1 1 (s := kept v6 1)), true, 3, 11, 7, by dsimp only; decide +kernel⟩,
  ⟨(tcb 1 1 (s := kept v6 1)), true, 3, 7, by decide +kernel⟩,
  ⟨(tcb 1 1 (fun t => { t with flight := [{ fl v4 true ((ptpEvent v4).map fun (x : Nat × Nat × Nat) => (x.2.2, 1, 4000000000)) with port := 2 }, fl v4 true ((ptpEvent v4).map fun (x : Nat × Nat × Nat) => (x.2.2, 1, 4000000000)) none, fl [] true none], marks := [(60, 5*2^50, 100), (3, 5*2^47, 7)], base := 5*2^51 }) (s := held v4 none)),
      true, 3, 12345678, by dsimp only; decide +kernel⟩,
  ⟨(tcb 1 1 (fun t => { t with flight := [{ fl (v6 ((ptp 0).set 12 7) 45) false ((ptpEvent (v6 ((ptp 0).set 12 7) 45)).map fun (x : Nat × Nat × Nat) => (x.2.2, 2, 4000000000)) with port := 2 }, fl (v6 ((ptp 0).set 12 7) 45) false ((ptpEvent (v6 ((ptp 0).set 12 7) 45)).map fun (x : Nat × Nat × Nat) => (x.2.2, 2, 4000000000)) none, fl [] false none], marks := [(60, 5*2^50, 100), (3, 5*2^47, 7)], base := 5*2^51 }) (s := held (v6 ((ptp 0).set 12 7) 45) (some 5))),
      false, 3, 12345678, by dsimp only; decide +kernel⟩,
  ⟨(tcb 1 1 (fun t => { t with flight := [{ fl (v6 ((ptp 0).set 12 7) 45) false ((ptpEvent (v6 ((ptp 0).set 12 7) 45)).map fun (x : Nat × Nat × Nat) => (x.2.2, 2, 4000000000)) with port := 2 }, fl (v6 ((ptp 0).set 12 7) 45) false ((ptpEvent (v6 ((ptp 0).set 12 7) 45)).map fun (x : Nat × Nat × Nat) => (x.2.2, 2, 4000000000)) (some 55), fl [] false none], marks := [(60, 5*2^50, 100), (3, 5*2^47, 7)], base := 5*2^51 }) (s := held (v6 ((ptp 0).set 12 7) 45) none)),
      false, 3, (-5 : Int), by dsimp only; decide +kernel⟩⟩

end K

namespace L

def clkOf (f : Clk → Clk) (s : State := live) : State := { s with clk := f s.clk }
def st (ok osc direct : Nat) (s : State := live) : State := ((s.wr F.CLK_STAT_ref_ok ok).wr F.CLK_STAT_on_osc osc).wr F.CLK_STAT_fabric_direct direct

theorem witness_ReferenceTrimAndGates :
    (∃ (s : State) (count : Nat), s.pwr.pstate < 2 ∧ s.windowGood count = true ∧ s.flag F.CLK_STAT_ref_ok = true)
    ∧ (∃ (s : State) (count : Nat), s.pwr.pstate < 2 ∧ s.windowGood count = true ∧ s.flag F.CLK_STAT_ref_ok = false ∧
      s.flag F.CLK_STAT_on_osc = false ∧ s.clk.relocking = [])
    ∧ (∃ (s : State) (count : Nat), s.pwr.pstate < 2 ∧ s.windowGood count = true ∧ s.flag F.CLK_STAT_ref_ok = false ∧
      s.flag F.CLK_STAT_on_osc = true ∧ s.goodWin ≤ s.clk.goodRun + 1)
    ∧ (∃ (s : State) (count : Nat), s.pwr.pstate < 2 ∧ s.windowGood count = false ∧ s.clk.badRun = 0)
    ∧ (∃ (s : State) (count : Nat),
      let mayFail : Prop := s.flag F.CLK_STAT_ref_ok = true ∧ s.clk.selOsc = false ∧ s.flag F.CLK_REF_CTRL_auto_fail =
          true ∧ s.flag F.CLK_STAT_osc_fail = false ∧ State.allSynths.any (fun y => s.isLocked y) = true;
      s.pwr.pstate < 2 ∧ s.windowGood count = false ∧ s.clk.badRun ≠ 0 ∧ mayFail)
    ∧ (∃ (s : State),
      let mayFail : Prop := s.flag F.CLK_STAT_ref_ok = true ∧ s.clk.selOsc = false ∧ s.flag F.CLK_REF_CTRL_auto_fail =
          true ∧ s.flag F.CLK_STAT_osc_fail = false ∧ State.allSynths.any (fun y => s.isLocked y) = true;
      s.pwr.pstate < 2 ∧ mayFail)
    ∧ (∃ (s : State), s.pwr.pstate < 2 ∧ s.flag F.CLK_STAT_ref_ok = true ∧ s.clk.selOsc = false ∧ (s.flag
      F.CLK_REF_CTRL_auto_fail = false ∨ s.flag F.CLK_STAT_osc_fail = true))
    ∧ (∃ (s : State), s.pwr.pstate < 2 ∧ (s.flag F.CLK_STAT_ref_ok = false ∨ s.clk.selOsc = true))
    ∧ (∃ (s : State), 2 ≤ s.pwr.pstate)
    ∧ (∃ (s : State) (x : Synth),
      let steady : Prop := s.clk.stopped.contains x = false ∧ s.flag F.CLK_STAT_fabric_direct = false;
      steady ∧ s.clk.relocking = [])
    ∧ (∃ (s : State) (x : Synth),
      let steady : Prop := s.clk.stopped.contains x = false ∧ s.flag F.CLK_STAT_fabric_direct = false;
      steady ∧ s.clk.relocking = [x] ∧ s.clk.selOsc = true ∧ s.clk.failing = true)
    ∧ (∃ (s : State) (x : Synth),
      let steady : Prop := s.clk.stopped.contains x = false ∧ s.flag F.CLK_STAT_fabric_direct = false;
      steady ∧ s.clk.relocking = [x] ∧ s.clk.selOsc = false)
    ∧ (∃ (s : State) (x : Synth),
      let steady : Prop := s.clk.stopped.contains x = false ∧ s.flag F.CLK_STAT_fabric_direct = false;
      steady ∧ s.clk.relocking = [x] ∧ s.clk.selOsc = true ∧ s.clk.failing = false)
    ∧ (∃ (s : State), s.clk.relocking = [] ∧ s.clk.stopped.contains .pool = true)
    ∧ (∃ (s : State), s.clk.relocking = [] ∧ s.clk.stopped.contains .line = true)
    ∧ (∃ (s : State), s.clk.relocking = [] ∧ s.flag F.CLK_STAT_fabric_direct = true)
    ∧ (∃ (s : State) (port : Fin 5), s.ready port R.CLK_REF_CTRL = true ∧ s.flag F.CLK_STAT_ref_ok = true ∧ s.flag
      F.CLK_STAT_on_osc = true ∧ s.clk.selOsc = true ∧ State.allSynths.any (fun y => s.isLocked y) = true)
    ∧ (∃ (s : State) (port : Fin 5), s.ready port R.CLK_REF_CTRL = true ∧ s.clk.wantReturn = false ∧ (s.flag
      F.CLK_STAT_ref_ok = false ∨ s.flag F.CLK_STAT_on_osc = false))
    ∧ (∃ (s : State) (tsync : Bool) (count : Nat), s.trimTakes tsync count = true)
    ∧ (∃ (s : State) (tsync : Bool) (count : Nat), s.trimTakes tsync count = false)
    ∧ (∃ (s : State), s.refGoodNow = false)
    ∧ (∃ (s : State), s.refGoodNow = true)
    ∧ (∃ (x : Synth), x ≠ .sys)
    ∧ (∃ (s : State) (port : Fin 5), s.ready port R.CLK_GATE = true ∧ s.mem.run = none ∧ s.capRuns = false)
    ∧ (∃ (s : State) (gate : Fin 4), bitOf s.clk.closing gate = true) :=
  ⟨⟨((clkOf (fun c => { c with selOsc := true, failing := true, badRun := 0, goodRun := 1 }) (st 1 0 0)).wr F.CLK_REF_CTRL_auto_fail 0),
      12800, by decide +kernel⟩,
  ⟨((clkOf (fun c => { c with selOsc := true, failing := true, badRun := 0, goodRun := 1 }) (st 0 0 0)).wr F.CLK_REF_CTRL_auto_fail 0),
      12800, by decide +kernel⟩,
  ⟨((((clkOf (fun c => { c with selOsc := true, goodRun := 2 }) (st 0 1 0)).wr F.CLK_REF_CTRL_auto_return 0).wr F.CLK_REF_CTRL_force_osc 0).wr F.CLK_MON_CTRL_good_win 3),
      12800, by decide +kernel⟩,
  ⟨((live.wr F.CLK_STAT_osc_fail 0).wr F.CLK_STAT_ref_ok 1), 5, by decide +kernel⟩,
  ⟨((clkOf (fun c => { c with selOsc := false, failing := true, badRun := 1, goodRun := 1 }) (st 1 0 0)).wr F.CLK_REF_CTRL_auto_fail 1),
      0, by dsimp only; decide +kernel⟩,
  ⟨((live.wr F.CLK_STAT_osc_fail 0).wr F.CLK_STAT_ref_ok 1), by dsimp only; decide +kernel⟩,
  ⟨((live.wr F.CLK_STAT_osc_fail 1).wr F.CLK_STAT_ref_ok 1), by decide +kernel⟩,
  ⟨(clkOf (fun c => { c with selOsc := true, failing := true, relocking := [], stopped := [] }) (st 1 0 0)),
      by decide +kernel⟩,
  ⟨{ live with pwr := { live.pwr with pstate := 2 } }, by decide +kernel⟩,
  ⟨(clkOf (fun c => { c with selOsc := true, failing := true, relocking := [], stopped := [] }) (st 1 0 0)),
      (.sys : Synth), by dsimp only; decide +kernel⟩,
  ⟨(clkOf (fun c => { c with selOsc := true, failing := true, relocking := [(.sys : Synth)], stopped := [] }) (st 1 0 0)),
      (.sys : Synth), by dsimp only; decide +kernel⟩,
  ⟨(clkOf (fun c => { c with selOsc := false, failing := true, relocking := [(.sys : Synth)], stopped := [] }) (st 1 0 0)),
      (.sys : Synth), by dsimp only; decide +kernel⟩,
  ⟨(clkOf (fun c => { c with selOsc := true, failing := false, relocking := [(.sys : Synth)], stopped := [] }) (st 1 0 0)),
      (.sys : Synth), by dsimp only; decide +kernel⟩,
  ⟨(clkOf (fun c => { c with selOsc := true, failing := true, relocking := [], stopped := [.pool, .line] }) (st 1 0 0)),
      by decide +kernel⟩,
  ⟨(clkOf (fun c => { c with selOsc := true, failing := true, relocking := [], stopped := [.pool, .line] }) (st 1 0 0)),
      by decide +kernel⟩,
  ⟨{ live with pwr := { live.pwr with pstate := 2 } }, by decide +kernel⟩,
  ⟨(clkOf (fun c => { c with selOsc := true, failing := true, relocking := [], stopped := [] }) (st 1 1 0)), 0,
      by decide +kernel⟩,
  ⟨{ live with pwr := { live.pwr with pstate := 2 } }, 0, by decide +kernel⟩,
  ⟨((((live.wr F.CLK_OSC_TRIM_code 0).wr F.CLK_OSC_TRIM_factory 0).wr F.CLK_OSC_CTRL_trim_src 1)), false, 0,
      by decide +kernel⟩,
  ⟨(clkOf fun c => { c with rampFabric := 1, rampPool := 16 }), true, 5, by decide +kernel⟩,
  ⟨((clkOf (fun c => { c with selOsc := true }) (st 0 0 0)).wr F.CLK_STAT_osc_fail 1), by decide +kernel⟩,
  ⟨(clkOf fun c => { c with rampFabric := 1, rampPool := 16 }), by decide +kernel⟩,
  ⟨(.line : Synth), by decide +kernel⟩,
  ⟨(clkOf fun c => { c with rampFabric := 1, rampPool := 16 }), 0, by decide +kernel⟩,
  ⟨((clkOf fun c => { c with closing := 5 }).setReg R.CLK_GATE 0), 0, by decide +kernel⟩⟩

end L

namespace N

def hsk (f : Hsk → Hsk) (s : State := live) : State := { (s.wr F.HSK_STAT_ref_ready 1).setReg R.CLK_GATE 15 with hsk := f { s.hsk with running := true, converting := true, seqA := 0x2003, seqB := 5, len := 3, gain := 0x400000, ofs := 0xFFFFF0 } }
def en (k : Nat) (s : State) : State := (s.withCfg F.HSK_CTRL_en k).withCfg F.HSK_CTRL_len 3
def ch (f : BiasCh → BiasCh) (s : State := live) : State := (List.range 16).foldl (fun s n => let i : Fin 16 := Fin.ofNat 16 n; (((((s.onBias i f).withCfg (F.BIAS_CHn_CTRL_en i) 1).withCfg (F.BIAS_CHn_CODE_code i) (n * 250)).wr (F.SAFE_BDn_LIM_clamp_hi i) 3000).wr (F.SAFE_BDn_LIM_ramp i) n).wr (F.SAFE_BDn_VAL_lane i) (n % 10)) (s.setReg R.CLK_GATE 15)
def mv (t : Int) : Nat := (700000 - (t - 200) * 1500 / 8).toNat
def th (f : Fin 12 → Sensor → Sensor) (g : Therm → Therm := id) (s : State := live) : State := { s with therm := g { s.therm with sensors := Vector.ofFn fun k => f k s.therm.sensors[k] } }
def tcfg (s : State) : State := (((s.withCfg F.THERM_CTRL_thr_en 1).withCfg F.THERM_CTRL_thr_c 90).withCfg F.THERM_CTRL_step 5).withCfg F.THERM_CTRL_hyst 3
def vec (f : Nat → Int) : Vector Nat 12 := Vector.ofFn fun k => mv (f k.val)
def wb (e : Fin 9) (a : Nat) (v : Word) (s : State := live) : State := { s with eng := s.eng.set e { runner with wbuf := [(a, v, 8), (4, 5, 6)] } }
def shut (f : State → State := id) : State := f (live.wr F.THERM_STAT_shut_latched 1)
def sx (k : Nat) (s : State) : State := { s with mgmt := { s.mgmt with settleAux := k } }

theorem witness_MonitorAdc :
    (∃ (s : State) (n : Nat),
      let w := getField s.hsk.seqB 0 11;
      let converting : Prop := s.hskMoves = true ∧ s.hsk.converting = true;
      let more : Prop := s.hsk.made + 1 < max 1 (getField s.hsk.seqA 13 8);
      converting ∧ more ∧ n ≤ hskFull w ∧ s.flag F.HSK_STAT_ref_ready = true)
    ∧ (∃ (s : State) (n : Nat),
      let w := getField s.hsk.seqB 0 11;
      let converting : Prop := s.hskMoves = true ∧ s.hsk.converting = true;
      let more : Prop := s.hsk.made + 1 < max 1 (getField s.hsk.seqA 13 8);
      converting ∧ more ∧ hskFull w < n)
    ∧ (∃ (s : State) (n : Nat),
      let w := getField s.hsk.seqB 0 11;
      let converting : Prop := s.hskMoves = true ∧ s.hsk.converting = true;
      let more : Prop := s.hsk.made + 1 < max 1 (getField s.hsk.seqA 13 8);
      converting ∧ ¬ more ∧ n ≤ hskFull w ∧ s.flag F.HSK_STAT_ref_ready = true ∧ s.cfgOn F.HSK_CTRL_en = true ∧
      s.hsk.entry + 1 < s.hsk.len ∧ s.hsk.entry + 1 < s.hskLen)
    ∧ (∃ (s : State) (n : Nat),
      let w := getField s.hsk.seqB 0 11;
      let converting : Prop := s.hskMoves = true ∧ s.hsk.converting = true;
      let more : Prop := s.hsk.made + 1 < max 1 (getField s.hsk.seqA 13 8);
      converting ∧ ¬ more ∧ n ≤ hskFull w ∧ s.flag F.HSK_STAT_ref_ready = true ∧ s.cfgOn F.HSK_CTRL_en = true ∧
      s.hsk.len ≤ s.hsk.entry + 1)
    ∧ (∃ (s : State) (n : Nat),
      let w := getField s.hsk.seqB 0 11;
      let converting : Prop := s.hskMoves = true ∧ s.hsk.converting = true;
      let more : Prop := s.hsk.made + 1 < max 1 (getField s.hsk.seqA 13 8);
      converting ∧ ¬ more ∧ n ≤ hskFull w ∧ s.flag F.HSK_STAT_ref_ready = true ∧ s.cfgOn F.HSK_CTRL_en = false)
    ∧ (∃ (s : State),
      let converting : Prop := s.hskMoves = true ∧ s.hsk.converting = true;
      s.hskMoves = true ∧ s.hsk.converting = false)
    ∧ (∃ (s : State),
      let converting : Prop := s.hskMoves = true ∧ s.hsk.converting = true;
      s.hskMoves = true ∧ s.hsk.converting = false ∧ s.cfgOn F.HSK_CTRL_en = true ∧ s.hsk.entry + 1 < s.hsk.len ∧
      s.hsk.entry + 1 < s.hskLen)
    ∧ (∃ (s : State), s.hskMoves = false)
    ∧ (∃ (s : State), (s.cfg F.HSK_REF_CTRL_src ≠ 2 ∨ s.cfgOn F.HSK_REF_CTRL_buf_en = true))
    ∧ (∃ (s : State), s.cfg F.HSK_REF_CTRL_src = 2 ∧ s.cfgOn F.HSK_REF_CTRL_buf_en = false) :=
  ⟨⟨((en 1 (hsk fun h => { h with seqA := 0xA003, made := 1 })).wr F.HSK_STAT_ref_ready 1), 0,
      by dsimp only; decide +kernel⟩,
  ⟨((en 1 (hsk fun h => { h with seqA := 0xA003, made := 1 })).wr F.HSK_STAT_ref_ready 0), 20001,
      by dsimp only; decide +kernel⟩,
  ⟨(en 1 (hsk fun h => { h with seqB := 9 })), 0, by dsimp only; decide +kernel⟩,
  ⟨(sx 0 ((en 1 (hsk fun h => { h with entry := 2, converting := true })).wr F.HSK_STAT_ref_ready 1)), 100,
      by dsimp only; decide +kernel⟩,
  ⟨(sx 0 ((en 0 (hsk fun h => { h with entry := 0, converting := true })).wr F.HSK_STAT_ref_ready 1)), 100,
      by dsimp only; decide +kernel⟩,
  ⟨(sx 0 ((en 0 (hsk fun h => { h with entry := 0, converting := false })).wr F.HSK_STAT_ref_ready 1)),
      by dsimp only; decide +kernel⟩,
  ⟨(sx 0 ((en 1 (hsk fun h => { h with entry := 0, converting := false })).wr F.HSK_STAT_ref_ready 1)),
      by dsimp only; decide +kernel⟩,
  ⟨(en 1 (hsk fun h => { h with running := false })), by decide +kernel⟩,
  ⟨(en 1 (hsk fun h => { h with seqB := 9 })), by decide +kernel⟩,
  ⟨((live.withCfg F.HSK_REF_CTRL_src 2).withCfg F.HSK_REF_CTRL_buf_en 0), by decide +kernel⟩⟩

theorem witness_BiasAndTransmitters :
    (∃ (s : State), s.flag F.BIAS_STAT_hold0 = false ∧ s.biasFrozen = false)
    ∧ (∃ (s : State), s.flag F.BIAS_STAT_hold0 = true)
    ∧ (∃ (s : State), s.flag F.BIAS_STAT_hold0 = false ∧ s.biasFrozen = true)
    ∧ (∃ (s : State) (n : Fin 16), bitOf (s.rd F.BIAS_STAT_sc) n = false)
    ∧ (∃ (s : State) (n : Fin 16), bitOf (s.rd F.BIAS_STAT_sc) n = true)
    ∧ (∃ (s : State), s.safe.txdis = false)
    ∧ (∃ (s : State), s.safe.txdis = true) :=
  ⟨⟨((((ch id).wr F.BIAS_STAT_hold0 0).setReg R.CLK_GATE 15).wr F.SAFE_CTRL_sc_en 0 |>.wrBit F.BIAS_STAT_sc 7 (0 == 1)),
      by decide +kernel⟩,
  ⟨(sx 0 (ch fun b => { b with codeOut := 55 })), by decide +kernel⟩,
  ⟨((((ch id).wr F.BIAS_STAT_hold0 0).setReg R.CLK_GATE 0).wr F.SAFE_CTRL_sc_en 0 |>.wrBit F.BIAS_STAT_sc 7 (0 == 1)),
      by decide +kernel⟩,
  ⟨(sx 0 (ch fun b => { b with codeOut := 55 })), 7, by decide +kernel⟩,
  ⟨((((ch id).wr F.BIAS_STAT_hold0 1).setReg R.CLK_GATE 0).wr F.SAFE_CTRL_sc_en 0 |>.wrBit F.BIAS_STAT_sc 7 (1 == 1)),
      7, by decide +kernel⟩,
  ⟨{ (live.setReg R.SAFE_LANE 0x0F) with safe := { live.safe with txdis := false, igsRun := true, lane := Vector.replicate 8 .active } },
      by decide +kernel⟩,
  ⟨{ (live.setReg R.SAFE_LANE 0x0F) with safe := { live.safe with txdis := true, igsRun := true, lane := Vector.replicate 8 .active } },
      by decide +kernel⟩⟩

theorem witness_ThermalReadings :
    (∃ (s : State), s.pwr.pstate ≠ 3 ∧ s.boot.resetLow = false)
    ∧ (∃ (s : State) (v : Vector Nat 12),
      let temp (k : Fin 12) : Int := sensorTemp (s.rd (F.THERM_TSk_cal k)) v[k];
      s.pwr.pstate ≠ 3 ∧ s.boot.resetLow = false ∧ (∀ k, temp k < 1000))
    ∧ (∃ (s : State) (v : Vector Nat 12),
      let temp (k : Fin 12) : Int := sensorTemp (s.rd (F.THERM_TSk_cal k)) v[k];
      let usable (k : Fin 12) : Bool := !s.therm.sensors[k].suspect;
      s.pwr.pstate ≠ 3 ∧ s.boot.resetLow = false ∧ s.flag F.THERM_STAT_shut_latched = false ∧ ((∃ j k, j ≠ k ∧ 1000 ≤
      temp j ∧ 1000 ≤ temp k) ∨ (∃ k, usable k = true ∧ s.therm.sensors[k].hotLast = true ∧ 1000 ≤ temp k))) :=
  ⟨⟨(tcfg (th (fun k x => { x with suspect := k.val == 0, hotLast := 0 == 1 }))), by decide +kernel⟩,
  ⟨(tcfg (th (fun k x => { x with suspect := k.val == 0, hotLast := 0 == 1 }))),
      (vec fun k => if k < 0 then 998 else 500), by dsimp only; decide +kernel⟩,
  ⟨(tcfg (th (fun k x => { x with suspect := k.val == 0, hotLast := 0 == 1 }))),
      (vec fun k => if k < 2 then 1000 else 500), by dsimp only; decide +kernel⟩⟩

theorem witness_SafeRegisterWrites :
    (∃ (s : State) (port : Fin 5) (a : Nat),
      let spw : Prop := a / 0x10000 = 6 ∧ a ≠ R.SAFE_INT ∧ a ≠ R.SAFE_INT_EN;
      spw ∧ s.ready port a = true)
    ∧ (∃ (s : State) (a pc : Nat) (v : Word) (e : Fin 9) (rest : List (Nat × Word × Nat)),
      let spw : Prop := a / 0x10000 = 6 ∧ a ≠ R.SAFE_INT ∧ a ≠ R.SAFE_INT_EN;
      spw ∧ e ≠ 1 ∧ s.eng[e].wbuf = (a, v, pc) :: rest ∧ s.ready 4 a = true)
    ∧ (∃ (s : State) (a pc : Nat) (v : Word) (rest : List (Nat × Word × Nat)), (a = R.SAFE_CTRL ∨ a = R.SAFE_LANE ∨ (∃
      n : Fin 16, a = R.SAFE_BDn_LIM n ∨ a = R.SAFE_BDn_VAL n)) ∧ s.eng[(1 : Fin 9)].wbuf = (a, v, pc) :: rest ∧
      s.ready 4 a = true)
    ∧ (∃ (s : State) (port : Fin 5), s.ready port R.SAFE_INT = true)
    ∧ (∃ (s : State) (port : Fin 5), s.ready port R.SAFE_INT_EN = true)
    ∧ (∃ (s : State) (high : Bool), s.safe.txdis ≠ high ∧ s.rd F.BIAS_STAT_sc = 0) :=
  ⟨⟨(wb (0 : Fin 9) 0x60000 0xFFFFFFFF ((live.setReg R.SAFE_INT 3).setReg R.SAFE_WR_REJ_CNT 0xFFFFFFFE)), (0 : Fin 5),
      0x60000, by dsimp only; decide +kernel⟩,
  ⟨(wb (0 : Fin 9) 0x60000 0xFFFFFFFF ((live.setReg R.SAFE_INT 3).setReg R.SAFE_WR_REJ_CNT 0xFFFFFFFE)), 0x60000, 8,
      0xFFFFFFFF, (0 : Fin 9), [(4, 5, 6)], by dsimp only; decide +kernel⟩,
  ⟨(wb (1 : Fin 9) 0x60000 0xFFFFFFFF ((live.setReg R.SAFE_INT 3).setReg R.SAFE_WR_REJ_CNT 0xFFFFFFFE)), 0x60000, 8,
      0xFFFFFFFF, [(4, 5, 6)], by decide +kernel⟩,
  ⟨({ live with safe := { live.safe with txdis := true }}), 0, by decide +kernel⟩,
  ⟨({ live with safe := { live.safe with txdis := true }}), 0, by decide +kernel⟩,
  ⟨({ live with safe := { live.safe with txdis := true }}), false, by decide +kernel⟩⟩

theorem witness_ShutdownLatch :
    (∃ (s : State), s.flag F.THERM_STAT_shut_latched = true ∧ s.boot.aonUp = false ∧ s.boot.removed = true)
    ∧ (∃ (s : State), s.flag F.THERM_STAT_shut_latched = true ∧ s.mgmt.dev = .boot ∧ s.boot.phase = .reset ∧
      s.boot.aonUp = true ∧ s.boot.resetLow = false)
    ∧ (∃ (s : State) (port : Fin 5), s.flag F.THERM_STAT_shut_latched = true ∧ s.mgmt.dev = .fault ∧ s.reach port
      R.TOP_CMD = true ∧ s.cmdBusy = false ∧ s.mem.run = none)
    ∧ (∃ s t : State, s.flag F.THERM_STAT_shut_latched = true ∧ R.THERM_STAT ∉ s.boot.wrote ∧ step s = .next t ∧
      (s.pending.head? = some .vddAonPowerUp → s.boot.removed = false)) :=
  ⟨⟨(shut fun s => { s with mgmt := { s.mgmt with dev := .fault }, boot := { s.boot with aonUp := false, removed := true } }),
      by decide +kernel⟩,
  ⟨(shut fun s => { s with mgmt := { s.mgmt with dev := .boot }, boot := { s.boot with phase := .reset, aonUp := true } }),
      by decide +kernel⟩,
  ⟨(shut fun s => { s with mgmt := { s.mgmt with dev := .fault } }), 0, by decide +kernel⟩,
  ⟨shut fun s => { s with pending := [.txdisChange true] }, _, by decide +kernel, by decide +kernel, rfl,
      by decide +kernel⟩⟩

end N

namespace O

def mm (f : MemState → MemState) (s : State := live) : State := { s with mem := f s.mem }
def scr (k : Nat) (s : State := live) : State := (s.wr F.MEM_CTRL_dram_scrub k).wr F.MEM_CTRL_sram_scrub k
def rep (f : SliceReport → SliceReport := id) : SliceReport := f { aborted := false, applied := 5, expected := 5, signatureOk := true, failing := [] }
def rn (u sl tr : Nat) (f : BistRun → BistRun := id) : BistRun := f { trigger := tr, asked := 2^u, units := 2^u, unit := u, slice := sl, tally := { worst := 0, repaired := 0, failing := 0 } }
def inRun (r : BistRun) (s : State := live) : State := mm (fun m => { m with run := some r, dram := [(0, 5), (5 * 2^17, 3)], dramValid := [(0, true), (160, true)], sramEcc := [(5, 3), (5 * 2^17 + 7, 3)] }) ((s.inCommand 8))
def rows (k : Nat) : State := mm (fun m => { m with rowsUsed := if k = 0 then [] else [(3, k)] }) (live.wr F.MEM_STAT_dram_ready 1)
def lg (place cap : Nat) (ret : List Nat) (s : State := live) : State :=
  { s with dp := { s.dp with ledger := { s.dp.ledger with place := place, cap := cap, retention := ret.map fun q => { seq := q, unit := { port := 3, epoch := 0, blocks := [], start := 10, done := 0 }, lane := 0, count := 0, armed := false, lastStart := 0, unrec := false, frameT1 := none, t1 := if q % 3 = 0 then none else some 44 } } } }

theorem witness_MemoryErrors :
    (∃ (s : State) (dram : Bool) (loc : Nat) (syn : BitVec 8),
      let on := if dram then s.flag F.MEM_CTRL_dram_scrub else s.flag F.MEM_CTRL_sram_scrub;
      let code := s.patrolCode dram loc;
      on = true ∧ s.pwr.pstate ≤ 1 ∧ (s.patrolValid dram loc = false ∨ 3 ≤ code ∨ (code = 0 ∧ syn = 0)))
    ∧ (∃ (s : State) (dram : Bool) (loc : Nat) (syn : BitVec 8),
      let on := if dram then s.flag F.MEM_CTRL_dram_scrub else s.flag F.MEM_CTRL_sram_scrub;
      let code := s.patrolCode dram loc;
      on = true ∧ s.pwr.pstate ≤ 1 ∧ s.patrolValid dram loc = true ∧ code = 0 ∧ syn = 0xFF)
    ∧ (∃ (s : State) (dram : Bool) (loc : Nat) (syn : BitVec 8),
      let on := if dram then s.flag F.MEM_CTRL_dram_scrub else s.flag F.MEM_CTRL_sram_scrub;
      let code := s.patrolCode dram loc;
      on = true ∧ s.pwr.pstate ≤ 1 ∧ s.patrolValid dram loc = true ∧ (code = 1 ∨ (code = 0 ∧ syn ≠ 0 ∧ syn ≠ 0xFF ∧
      singleBit syn.toNat = true)))
    ∧ (∃ (s : State) (dram : Bool) (loc : Nat) (syn : BitVec 8),
      let on := if dram then s.flag F.MEM_CTRL_dram_scrub else s.flag F.MEM_CTRL_sram_scrub;
      let code := s.patrolCode dram loc;
      on = true ∧ s.pwr.pstate ≤ 1 ∧ s.patrolValid dram loc = true ∧ (code = 2 ∨ (code = 0 ∧ syn ≠ 0 ∧ syn ≠ 0xFF ∧
      singleBit syn.toNat = false)))
    ∧ (∃ (s : State) (dram : Bool),
      let on := if dram then s.flag F.MEM_CTRL_dram_scrub else s.flag F.MEM_CTRL_sram_scrub;
      on = true ∧ s.pwr.pstate ≤ 1)
    ∧ (∃ (s : State) (dram : Bool),
      let on := if dram then s.flag F.MEM_CTRL_dram_scrub else s.flag F.MEM_CTRL_sram_scrub;
      (on = false ∨ 1 < s.pwr.pstate))
    ∧ (∃ (s : State) (port : Fin 5), s.ready port R.MEM_CLEAR_CTRL = true ∧ s.flag F.MEM_STAT_clear_busy = false)
    ∧ (∃ (s : State) (port : Fin 5), s.ready port R.MEM_CLEAR_CTRL = true ∧ s.flag F.MEM_STAT_clear_busy = true)
    ∧ (∃ (s : State), s.flag F.MEM_STAT_clear_busy = true)
    ∧ (∃ (s : State) (port : Fin 5), s.ready port R.MEM_INJ_CTRL = true)
    ∧ (∃ (s : State) (pc : Fin 32) (bank : Fin 16), mapGet false s.mem.banksLost (16 * pc.val + bank.val) = false ∧
      bitOf (s.rd F.MEM_SPARE_USED_pc) pc = false ∧ s.mem.repair.length < 509)
    ∧ (∃ (s : State) (pc : Fin 32) (bank : Fin 16), mapGet false s.mem.banksLost (16 * pc.val + bank.val) = false ∧
      bitOf (s.rd F.MEM_SPARE_USED_pc) pc = true)
    ∧ (∃ (s : State) (pc : Fin 32) (bank : Fin 16), mapGet false s.mem.banksLost (16 * pc.val + bank.val) = true) :=
  ⟨⟨(mm fun m => { m with banksLost := [(55, true)] }), false, 5, 0, by dsimp only; decide +kernel⟩,
  ⟨(scr 1 (mm fun m => { m with dramValid := (List.range 32).map fun z => (z, true), sramValid := (List.range 40).map fun z => (z, true), dramEcc := if 0 = 0 then [(2^20, 2)] else [(5, 0)], sramEcc := if 0 = 0 then [(4, 3)] else [(5, 0)] })),
      true, 5, (0xFF : BitVec 8), by dsimp only; decide +kernel⟩,
  ⟨(scr 1 (mm fun m => { m with dramValid := (List.range 32).map fun z => (z, true), sramValid := (List.range 40).map fun z => (z, true), dramEcc := if 0 = 0 then [(2^20, 2)] else [(5, 0)], sramEcc := if 0 = 0 then [(4, 3)] else [(5, 0)] })),
      true, 5, (1 : BitVec 8), by dsimp only; decide +kernel⟩,
  ⟨(scr 1 (mm fun m => { m with dramValid := (List.range 32).map fun z => (z, true), sramValid := (List.range 40).map fun z => (z, true), dramEcc := if 0 = 0 then [(2^20, 2)] else [(5, 0)], sramEcc := if 0 = 0 then [(4, 3)] else [(5, 0)] })),
      true, 5, (3 : BitVec 8), by dsimp only; decide +kernel⟩,
  ⟨(mm fun m => { m with banksLost := [(55, true)] }), false, by dsimp only; decide +kernel⟩,
  ⟨(scr 0 (mm fun m => { m with dramValid := (List.range 32).map fun z => (z, true), sramValid := (List.range 40).map fun z => (z, true), dramEcc := if 0 = 0 then [(2^20, 2)] else [(5, 0)], sramEcc := if 0 = 0 then [(4, 3)] else [(5, 0)] })),
      true, by dsimp only; decide +kernel⟩,
  ⟨(mm fun m => { m with banksLost := [(55, true)] }), 0, by decide +kernel⟩,
  ⟨(((((mm fun m => { m with dram := [(0, 5), (4095, 3), (4096, 1), (8192, 7), (12288 + 7*2^17, 7)], dramValid := [(0, true), (1, true), (2, true), (3 + 7*32, true)] }).wr F.MEM_STAT_clear_busy 1).wr F.MEM_CLEAR_BASE_block 1).wr F.MEM_CLEAR_LEN_blocks 3).wrBit F.MEM_SPARE_USED_pc 3 (0 == 1)),
      0, by decide +kernel⟩,
  ⟨(((((mm fun m => { m with dram := [(0, 5), (4095, 3), (4096, 1), (8192, 7), (12288 + 7*2^17, 7)], dramValid := [(0, true), (1, true), (2, true), (3 + 7*32, true)] }).wr F.MEM_STAT_clear_busy 1).wr F.MEM_CLEAR_BASE_block 1).wr F.MEM_CLEAR_LEN_blocks 3).wrBit F.MEM_SPARE_USED_pc 3 (0 == 1)),
      by decide +kernel⟩,
  ⟨(mm fun m => { m with banksLost := [(55, true)] }), 0, by decide +kernel⟩,
  ⟨({ live with dp := { live.dp with ledger := { live.dp.ledger with place := 0, rebuild := [5, 55] } } }), 3, 7,
      by decide +kernel⟩,
  ⟨((lg 0 0 (List.range 70) (mm fun m => { m with banksLost := [] })).wrBit F.MEM_SPARE_USED_pc 3 (1 == 1)), 3, 0,
      by decide +kernel⟩,
  ⟨(mm fun m => { m with banksLost := [(55, true)] }), 3, 7, by decide +kernel⟩⟩

theorem witness_SelfTestSlices :
    (∃ (s : State) (r : BistRun) (rep : SliceReport), s.mem.run = some r ∧ rep.aborted = false ∧ rep.failing = [] ∧ 25
      ≤ r.unit ∧ r.unit < 28 ∧ r.slice + 1 < sliceCount r.unit)
    ∧ (∃ (s : State) (r : BistRun) (rep : SliceReport),
      let one : Prop := r.trigger = 0 ∧ r.unit < 28 ∧ r.units = 2 ^ r.unit ∧ r.asked = 2 ^ r.unit ∧ s.running 8 =
          true;
      s.mem.run = some r ∧ rep.aborted = false ∧ rep.failing = [] ∧ one ∧ r.unit < 16 ∧ r.tally.worst = 0)
    ∧ (∃ (s : State) (r : BistRun) (rep : SliceReport),
      let one : Prop := r.trigger = 0 ∧ r.unit < 28 ∧ r.units = 2 ^ r.unit ∧ r.asked = 2 ^ r.unit ∧ s.running 8 =
          true;
      s.mem.run = some r ∧ rep.aborted = true ∧ one)
    ∧ (∃ (s : State) (r : BistRun) (rep : SliceReport) (m w b : Nat), s.mem.run = some r ∧ rep.aborted = false ∧
      rep.failing = [.sram m w b] ∧ rep.applied = rep.expected ∧ (r.unit = 25 ∨ r.unit = 26) ∧ r.slice < 15 ∧
      s.rowsTaken m < 4 ∧ s.mem.repair.length < 509)
    ∧ (∃ (s : State) (r : BistRun) (rep : SliceReport) (m w b : Nat), s.mem.run = some r ∧ rep.aborted = false ∧
      rep.failing = [.sram m w b] ∧ (r.unit = 25 ∨ r.unit = 26) ∧ r.slice < 15 ∧ 4 ≤ s.rowsTaken m) :=
  ⟨⟨(inRun (rn 25 0 0) ), (rn 25 0 0), (rep fun q => { q with signatureOk := true }), by decide +kernel⟩,
  ⟨(inRun (rn 15 0 0) ), (rn 15 0 0), (rep fun q => { q with signatureOk := false, applied := 5, aborted := false }),
      by dsimp only; decide +kernel⟩,
  ⟨(inRun (rn 0 0 0) ), (rn 0 0 0), (rep fun q => { q with signatureOk := false, applied := 6, aborted := true }),
      by dsimp only; decide +kernel⟩,
  ⟨(inRun (rn 26 14 0) (rows 3)), (rn 26 14 0),
      (rep fun q => { q with signatureOk := false, failing := [.sram 3 3 3] }), 3, 3, 3, by decide +kernel⟩,
  ⟨(inRun (rn 26 1 0) (rows 4)), (rn 26 1 0), (rep fun q => { q with signatureOk := true, failing := [.sram 3 3 3] }),
      3, 3, 3, by decide +kernel⟩⟩

end O

/-- A device after boot that has a command waiting. -/
def waiting : State := { live with pending := [.txdisChange true] }

theorem witness_QueueIsFirstInFirstOut : ∃ s t : State, s.pending ≠ [] ∧ step s = .next t :=
  ⟨waiting, _, by decide +kernel, rfl⟩

theorem witness_CanonicalFormIsKept :
    ∃ s t : State, s.pending ≠ [] ∧ s.canonical = true ∧ s.mem.wf = true ∧ step s = .next t :=
  ⟨waiting, _, by decide +kernel, by decide +kernel, by decide +kernel, rfl⟩

theorem witness_CoveredLanesStaySafe :
    ∃ s t : State, (∃ n : Fin 8, s.safeCause n = true)
      ∧ (∀ n : Fin 8, s.safeCause n = true → s.safe.lane[n] = .safe) ∧ step s = .next t :=
  ⟨{ waiting with safe := { waiting.safe with bscan := true } }, _, by decide +kernel, by decide +kernel, rfl⟩

theorem witness_ProgramWordsRoundTrip :
    (∃ (i : Instr) (w : Word), igsEncode i = some w)
    ∧ (∃ (e : Fin 9) (w : Word) (h : Nat) (i : Instr), igsDecode e w h = some i) :=
  ⟨⟨.add 2 3 5 7, _, rfl⟩, ⟨2, 0x04D5C000, 0, _, rfl⟩⟩

end Sys2Proof.Tests

namespace Sys2Proof.Tests

set_option Elab.async false

/-! ## Well-formedness: an ill-formed command for each check, and a well-formed one beside it -/

/-- A burst of `n` codes, a result of a DAC run with `e` static errors, and one sub-sample block of `n` codes on each lane. -/
def burstOf (n : Nat) : RxBurst := { block := 0, codes := List.replicate n 0 }
def dacOf (e : Nat) : DacResult :=
  { corr := { gains := [0, 0, 0, 0], skews := [0, 0, 0, 0], offsets := [0, 0, 0, 0], errors := List.replicate e 0 }, spur := 0, sndr := 0 }
def subOf (n : Nat) : PenBlocks := [Vector.replicate 8 (List.replicate n 0)]

theorem test_refuses_header_length : (Instr.headerCheck [] false false).wellFormed = false := by decide
theorem test_refuses_no_read : (Instr.recordRead [] false).wellFormed = false := by decide
theorem test_refuses_four_reads : (Instr.recordRead [[], [], [], []] false).wellFormed = false := by decide
theorem test_accepts_three_reads : (Instr.recordRead [[], [], []] false).wellFormed = true := by decide
theorem test_refuses_osc_count : (Instr.alwaysOnCycle 65536).wellFormed = false := by decide
theorem test_refuses_commit_time : (Instr.commitGo 0 30519).wellFormed = false := by decide
theorem test_accepts_commit_time : (Instr.commitGo 0 30518).wellFormed = true := by decide
theorem test_refuses_rc_mask : (Instr.rcRegisterRead (.word 0 0) (2 ^ 32)).wellFormed = false := by decide
theorem test_refuses_rs_cycle :
    (Instr.hostRsCodeword 0 2080 ⟨[], List.replicate 544 0, 0⟩).wellFormed = false := by decide +kernel
theorem test_refuses_rs_symbols :
    (Instr.hostRsCodeword 0 0 ⟨[], List.replicate 543 0, 0⟩).wellFormed = false := by decide +kernel
theorem test_refuses_rs_markers :
    (Instr.hostRsCodeword 0 0 ⟨[], List.replicate 544 0, 21⟩).wellFormed = false := by decide +kernel
theorem test_accepts_rs_codeword :
    (Instr.hostRsCodeword 15 2079 ⟨[[1]], List.replicate 544 0, 20⟩).wellFormed = true := by decide +kernel
theorem test_refuses_egress_cycle : (Instr.egressBlockOut 0 2080).wellFormed = false := by decide
theorem test_refuses_fault_cycle : (Instr.localFaultBlockInsert 0 2080).wellFormed = false := by decide
theorem test_refuses_poison_slot : (Instr.slotDecision 0 [8]).wellFormed = false := by decide
theorem test_refuses_dac_errors : (Instr.dacCalRunEnd 0 (dacOf 255)).wellFormed = false := by decide +kernel
theorem test_accepts_dac_errors : (Instr.dacCalRunEnd 0 (dacOf 256)).wellFormed = true := by decide +kernel
theorem test_refuses_lane_record : (Instr.lanePowerUp 0 (some (0, (dacOf 0).corr))).wellFormed = false := by decide
theorem test_accepts_no_lane_record : (Instr.lanePowerUp 0 none).wellFormed = true := by decide
theorem test_refuses_adc_offset : (Instr.adcCalOfflineDone 0 128 0 none).wellFormed = false := by decide
theorem test_refuses_adc_gain : (Instr.adcCalOfflineDone 0 0 2048 none).wellFormed = false := by decide
theorem test_accepts_adc_codes : (Instr.adcCalOfflineDone 0 (-128) (-2048) none).wellFormed = true := by decide
theorem test_refuses_part_of_a_block : (Instr.pilotUpdate 0 (burstOf 1023) true).wellFormed = false := by decide +kernel
theorem test_refuses_no_overlap : (Instr.pilotPeakFound 0 (burstOf 0)).wellFormed = false := by decide
theorem test_refuses_plateau_burst : (Instr.pilotPlateauNoPeak 0 (burstOf 1)).wellFormed = false := by decide
theorem test_refuses_loop_burst : (Instr.cdrLockChange 0 (burstOf 1)).wellFormed = false := by decide
theorem test_refuses_limit_burst : (Instr.cdrFallbackLimit 0 (burstOf 1)).wellFormed = false := by decide
theorem test_refuses_retrain_burst : (Instr.fastRetrainPilotFound 0 (burstOf 1)).wellFormed = false := by decide
theorem test_accepts_a_block : (Instr.pilotUpdate 0 (burstOf 1024) true).wellFormed = true := by decide +kernel
theorem test_refuses_control_field : (Instr.controlMessageAccept [(0, [true])]).wellFormed = false := by decide
theorem test_refuses_codeword_burst : (Instr.codewordArrive 0 0 (burstOf 257) (burstOf 256)).wellFormed = false := by decide +kernel
theorem test_refuses_displaced_burst : (Instr.codewordArrive 0 0 (burstOf 256) (burstOf 257)).wellFormed = false := by decide +kernel
theorem test_refuses_ensign_labels : (Instr.ensignCheck 0 [0] 0).wellFormed = false := by decide
theorem test_refuses_adapt_counts : (Instr.hostAdaptDone 0 65536 0 0).wellFormed = false := by decide
theorem test_refuses_emf_counts : (Instr.emfMeasure 0 0 65536 0).wellFormed = false := by decide
theorem test_refuses_preamble_blocks : (Instr.pennantPreambleDetect false (subOf 1)).wellFormed = false := by decide
theorem test_refuses_burgee_blocks : (Instr.burgeeMatch true (subOf 1)).wellFormed = false := by decide
theorem test_refuses_timeout_blocks : (Instr.burgeeTimeout (subOf 1)).wellFormed = false := by decide
theorem test_refuses_header_blocks : (Instr.pennantHeaderReceived (subOf 1)).wellFormed = false := by decide
theorem test_refuses_capture_blocks : (Instr.pennantCapture (subOf 1)).wellFormed = false := by decide
theorem test_refuses_codeword_blocks : (Instr.pennantCodewordDecoded (subOf 1823) 0).wellFormed = false := by decide +kernel
theorem test_accepts_sub_sample_block : (Instr.pennantCodewordDecoded (subOf 1824) 0).wellFormed = true := by decide +kernel
theorem test_refuses_window_count : (Instr.monWindowEnd 65536 false).wellFormed = false := by decide
theorem test_refuses_scrub_dram : (Instr.scrubRead true (2 ^ 29) 0 false).wellFormed = false := by decide
theorem test_refuses_scrub_sram : (Instr.scrubRead false (2 ^ 22) 0 false).wellFormed = false := by decide
theorem test_refuses_bist_applied : (Instr.bistSliceEnd ⟨false, 65536, 0, true, []⟩).wellFormed = false := by decide
theorem test_refuses_bist_expected : (Instr.bistSliceEnd ⟨false, 0, 65536, true, []⟩).wellFormed = false := by decide
theorem test_refuses_handshake : (Instr.brd 0 0 0 0 258).wellFormed = false := by decide
theorem test_refuses_capture_end : (Instr.captureEnd (.adc [0, 0]) (some 3)).wellFormed = false := by decide

/-! ## The spec's worked values -/

/-- R27: the first sixteen bits of the ensign are 0000 0010 0000 1100. -/
theorem test_ensign_bits : lfsr 7 5 16 0x7F =
    [false, false, false, false, false, false, true, false, false, false, false, false, true, true, false, false] := by decide

/-- R27: output bit 127 equals bit 0, the generator being of period 127. -/
theorem test_ensign_period : lfsrState 7 5 127 0x7F = 0x7F := by decide +kernel

/-- R30, lane 3. -/
theorem test_header_seed : headerSeed 3 = 0x2EAAAAAA := by decide

/-- R31: lane 3, superframe 0x12345. -/
theorem test_payload_seed : payloadSeed 3 false 0x12345 = 0x4C012345 := by decide

/-- R49: check rows of the inner code's first column. -/
theorem test_inner_check : (innerCode.check 1 255).head? = some 0 ∧ (innerCode.check 3 253).head? = some 0 := by decide +kernel

/-- R297: with a tolerance of 50 ppm, 12.8 counts either side. -/
theorem test_monitor_window : live.windowGood 12812 = true ∧ live.windowGood 12813 = false := by decide +kernel

/-! ## Program words, written out from the formats of R375 and the table of R376 -/

/-- Opcode 000001, d 0001, a 0010, b 0011. -/
theorem test_word_add : igsDecode 0 0x0448C000 0 = some (.add 0 1 2 3) := by decide
/-- Opcode 100000, d 0011, a 0101, imm 0x10. -/
theorem test_word_ld : igsDecode 0 0x80D40010 0 = some (.ld 0 3 5 0x10) := by decide
/-- Opcode 100001, d 1111, a 0001, imm all ones. -/
theorem test_word_st : igsDecode 8 0x87C7FFFF 0 = some (.st 8 15 1 0x3FFFF) := by decide
/-- Opcode 100011, d 0000, a 1001, imm 4. -/
theorem test_word_bwr : igsDecode 1 0x8C240004 0 = some (.bwr 1 0 9 4) := by decide
/-- Opcode 101001, a 0001, b 0010, off −1. -/
theorem test_word_bne : igsDecode 0 0xA44BFFFF 0 = some (.bne 0 1 2 0x3FFFF) := by decide
/-- Opcode 110001, target 0x0123. -/
theorem test_word_call : igsDecode 0 0xC4000123 0 = some (.call 0 0x123) := by decide
/-- Opcode 110101, a 0001, b 0010. -/
theorem test_word_msub : igsDecode 0 0xD4048000 0 = some (.msub 0 1 2) := by decide
/-- Opcode 110110, d 0100, imm 8. -/
theorem test_word_rdacc : igsDecode 0 0xD9000008 0 = some (.rdacc 0 4 8) := by decide
/-- Opcode 111100, d 0010, imm 3. -/
theorem test_word_wfe : igsDecode 0 0xF0800003 0 = some (.wfe 0 2 3) := by decide
/-- Opcode 111101, a 0111, imm 1. -/
theorem test_word_tset : igsDecode 0 0xF41C0001 0 = some (.tset 0 7 1) := by decide
/-- Opcode 111110; the reserved opcode 001110; and an ADD with a bit below b set. -/
theorem test_word_kick_and_refused :
    igsDecode 0 0xF8000000 0 = some (.kick 0) ∧ igsDecode 0 0x38000000 0 = none ∧ igsDecode 0 0x0448C001 0 = none := by decide

end Sys2Proof.Tests
end

section
/-!
What every operation of the model keeps: the registers and the memories in canonical form, and the queue as it stands. One lemma for
each operation, composed as the operation itself is.
-/

namespace Sys2Proof.Machine

-- nine hundred short lemmas at once would each ask for a thread
set_option Elab.async false

/-! ## The memories, part by part -/

/-- `MemState.wf`, with its parts named. -/
structure MemState.Canonical (m : MemState) : Prop where
  dram : mapWf (fun _ => 0) m.dram = true
  dramValid : mapWf (fun _ => false) m.dramValid = true
  dramEcc : mapWf (fun _ => 0) m.dramEcc = true
  sramValid : mapWf (fun _ => false) m.sramValid = true
  sramEcc : mapWf (fun _ => 0) m.sramEcc = true
  regEcc : mapWf (fun _ => 0) m.regEcc = true
  banksSpared : mapWf (fun _ => false) m.banksSpared = true
  banksLost : mapWf (fun _ => false) m.banksLost = true

theorem MemState.wf_iff (m : MemState) : m.wf = true ↔ m.Canonical := by
  simp only [MemState.wf, Bool.and_eq_true]
  constructor
  · rintro ⟨⟨⟨h1, h2⟩, h3⟩, ⟨⟨⟨h4, h5⟩, h6⟩, h7⟩, h8⟩
    exact ⟨h1, h2, h3, h4, h5, h6, h7, h8⟩
  · rintro ⟨h1, h2, h3, h4, h5, h6, h7, h8⟩
    exact ⟨⟨⟨h1, h2⟩, h3⟩, ⟨⟨⟨h4, h5⟩, h6⟩, h7⟩, h8⟩

/-- Writes in turn keep the canonical form. -/
theorem mapWf_foldl_mapSet {α β : Type} [DecidableEq α] (d : Nat → α) (k : β → Nat) (v : β → α) (l : List β) {m : List (Nat × α)}
    (h : mapWf d m = true) : mapWf d (l.foldl (fun m x => mapSet (d (k x)) m (k x) (v x)) m) = true :=
  List.foldlRecOn (motive := fun m => mapWf d m = true) l _ h fun _ h _ _ => mapWf_mapSet _ _ _ _ h

/-! ## Canonical parts side by side -/

/-- Every address of a canonical list lies at or above its lower bound. -/
theorem mapWfFrom_le {α : Type} [DecidableEq α] {d : Nat → α} {lo : Nat} {m : List (Nat × α)} (h : mapWfFrom d lo m = true) :
    ∀ x ∈ m, lo ≤ x.1 := by
  induction m generalizing lo with
  | nil => simp
  | cons x t ih =>
    simp only [mapWfFrom, Bool.and_eq_true, decide_eq_true_eq] at h
    obtain ⟨⟨hlo, -⟩, ht⟩ := h
    rintro y (_ | ⟨_, hy⟩)
    · exact hlo
    · exact hlo.trans (Nat.le_of_succ_le (ih ht y hy))

/-- Two canonical lists make one where the second lies above the first. -/
theorem mapWfFrom_append {α : Type} [DecidableEq α] {d : Nat → α} {lo mid : Nat} {m n : List (Nat × α)}
    (hm : mapWfFrom d lo m = true) (hn : mapWfFrom d mid n = true) (below : ∀ x ∈ m, x.1 < mid) (hlo : lo ≤ mid) :
    mapWfFrom d lo (m ++ n) = true := by
  induction m generalizing lo with
  | nil => exact mapWfFrom_mono d n mid lo hlo hn
  | cons x t ih =>
    simp only [List.cons_append, mapWfFrom, Bool.and_eq_true, decide_eq_true_eq] at hm ⊢
    exact ⟨hm.1, ih hm.2 (fun y hy => below y (by simp [hy])) (below x (by simp))⟩

/-- A list that has nothing below `mid` is canonical from there on. -/
theorem mapWfFrom_of_le {α : Type} [DecidableEq α] {d : Nat → α} {lo mid : Nat} {m : List (Nat × α)} (h : mapWfFrom d lo m = true)
    (above : ∀ x ∈ m, mid ≤ x.1) : mapWfFrom d mid m = true := by
  cases m with
  | nil => rfl
  | cons x t =>
    simp only [mapWfFrom, Bool.and_eq_true, decide_eq_true_eq] at h ⊢
    exact ⟨⟨above x (by simp), h.1.2⟩, h.2⟩

/-- The bytes that a blit lists: those that are not zero, from `lo` on. -/
theorem mapWfFrom_bytes (bs : List Byte) (lo i : Nat) :
    mapWfFrom (fun _ => 0) (lo + i) ((bs.zipIdx i).filterMap fun (b, i) => if b = 0 then none else some (lo + i, b)) = true
      ∧ ∀ x ∈ (bs.zipIdx i).filterMap (fun (b, i) => if b = 0 then none else some (lo + i, b)), x.1 < lo + (i + bs.length) := by
  induction bs generalizing i with
  | nil => simp [mapWfFrom]
  | cons b bs ih =>
    obtain ⟨hw, hb⟩ := ih (i + 1)
    have hb' : ∀ x ∈ (bs.zipIdx (i + 1)).filterMap (fun (b, i) => if b = 0 then none else some (lo + i, b)),
        x.1 < lo + (i + (bs.length + 1)) := fun x hx => by have := hb x hx; omega
    by_cases h : b = 0
    · simp only [List.zipIdx_cons, List.filterMap_cons, h, if_true, List.length_cons]
      exact ⟨mapWfFrom_mono _ _ _ _ (by omega) hw, hb'⟩
    · simp only [List.zipIdx_cons, List.filterMap_cons, h, if_false, List.length_cons]
      refine ⟨?_, ?_⟩
      · simp only [mapWfFrom, Bool.and_eq_true, decide_eq_true_eq]
        exact ⟨⟨le_rfl, h⟩, hw⟩
      · rintro x (_ | ⟨_, hx⟩)
        · simp
        · exact hb' x hx

/-- Bytes written over a stretch of a sparse memory keep its canonical form. -/
theorem mapWf_blit (lo : Nat) (bs : List Byte) {m : List Host.Cell} (h : mapWf (fun _ => 0) m = true) :
    mapWf (fun _ => 0) (blit lo bs m) = true := by
  obtain ⟨hw, hb⟩ := mapWfFrom_bytes bs lo 0
  have below := mapWfFrom_filter _ (fun c => decide (c.1 < lo)) m 0 h
  have above := mapWfFrom_of_le (mid := lo + bs.length) (mapWfFrom_filter _ (fun c => decide (lo + bs.length ≤ c.1)) m 0 h)
    (by simp)
  refine mapWfFrom_append (mid := lo + bs.length) (mapWfFrom_append (mid := lo) below hw (by simp) (by omega)) above ?_ (by omega)
  intro x hx
  rcases List.mem_append.mp hx with hx | hx
  · have := of_decide_eq_true (List.mem_filter.mp hx).2
    omega
  · have := hb x hx
    omega

/-! ## What is kept -/

/-- The parts of the state of which `Kept` speaks. -/
def State.core (s : State) : RegMap × RegMap × RegMap × MemState × List Instr := (s.regs, s.staged, s.inForce, s.mem, s.pending)

/-- The sparse parts of the state are canonical, and `q` is the queue. -/
structure Kept (q : List Instr) (s : State) : Prop where
  regs : regMapWf s.regs = true
  staged : regMapWf s.staged = true
  inForce : regMapWf s.inForce = true
  mem : s.mem.wf = true
  pending : s.pending = q

/-- What a command answers is kept. -/
def KeptOut (q : List Instr) (o : Out) : Prop := ∀ t, o = .next t → Kept q t

/-- What a partial operation answers is kept. -/
def KeptOpt (q : List Instr) (o : Option State) : Prop := ∀ t, o = some t → Kept q t

variable {q : List Instr} {s : State}

/-- A change beside these parts. -/
theorem Kept.same {t : State} (h : Kept q s) (e : t.core = s.core := by rfl) : Kept q t := by
  simp only [State.core, Prod.mk.injEq] at e
  obtain ⟨hr, hs, hf, hm, hp⟩ := e
  exact ⟨hr ▸ h.regs, hs ▸ h.staged, hf ▸ h.inForce, hm ▸ h.mem, hp ▸ h.pending⟩

theorem Kept.ite {c : Prop} [Decidable c] {t : State} (h : Kept q s) (k : Kept q t) : Kept q (if c then s else t) := by
  split
  · exact h
  · exact k

/-- A step that is taken or left out. -/
theorem Kept.when {c : Prop} [Decidable c] {t : State} (h : Kept q s) (k : Kept q s → Kept q t) : Kept q (if c then t else s) :=
  .ite (k h) h

theorem Kept.unless {c : Prop} [Decidable c] {t : State} (h : Kept q s) (k : Kept q s → Kept q t) : Kept q (if c then s else t) :=
  .ite h (k h)

/-- Two ways on from one state. -/
theorem Kept.fork {c : Prop} [Decidable c] {t u : State} (h : Kept q s) (k : Kept q s → Kept q t) (l : Kept q s → Kept q u) :
    Kept q (if c then t else u) := .ite (k h) (l h)

theorem Kept.dite {c : Prop} [Decidable c] {f : c → State} {g : ¬ c → State} (h : ∀ p, Kept q (f p)) (k : ∀ p, Kept q (g p)) :
    Kept q (if p : c then f p else g p) := by
  split
  · exact h _
  · exact k _

theorem Kept.iteFst {α : Type} {c : Prop} [Decidable c] {x y : State × α} (h : Kept q x.1) (k : Kept q y.1) :
    Kept q (if c then x else y).1 := by
  split
  · exact h
  · exact k

theorem Kept.foldl {α : Type} {g : State → α → State} {l : List α} (h : Kept q s) (k : ∀ {s x}, Kept q s → Kept q (g s x)) :
    Kept q (l.foldl g s) := List.foldlRecOn l g h fun _ h _ _ => k h

theorem Kept.foldlFst {α β : Type} {g : State × β → α → State × β} {l : List α} {y : State × β} (h : Kept q y.1)
    (k : ∀ {y x}, Kept q y.1 → Kept q (g y x).1) : Kept q (l.foldl g y).1 :=
  List.foldlRecOn (motive := fun y => Kept q y.1) l g h fun _ h _ _ => k h

theorem KeptOut.next (h : Kept q s) : KeptOut q (.next s) := by
  rintro _ ⟨⟩
  exact h

theorem KeptOut.ite {c : Prop} [Decidable c] {o p : Out} (h : KeptOut q o) (k : KeptOut q p) : KeptOut q (if c then o else p) := by
  split
  · exact h
  · exact k

theorem KeptOpt.some (h : Kept q s) : KeptOpt q (some s) := by
  rintro _ ⟨⟩
  exact h

theorem KeptOpt.none : KeptOpt q none := by
  intro t e
  cases e

theorem KeptOpt.ite {c : Prop} [Decidable c] {o p : Option State} (h : KeptOpt q o) (k : KeptOpt q p) :
    KeptOpt q (if c then o else p) := by
  split
  · exact h
  · exact k

theorem KeptOpt.orElse {o p : Option State} (h : KeptOpt q o) (k : KeptOpt q p) : KeptOpt q (o <|> p) := by
  cases o with
  | none => simpa using k
  | some t => simpa using h

theorem KeptOpt.getD {o : Option State} (h : KeptOpt q o) (k : Kept q s) : Kept q (o.getD s) := by
  cases o with
  | none => exact k
  | some t => exact h t rfl

/-! ## Operations of Machine/Ops.lean -/

theorem Kept.setReg {a v} (h : Kept q s) : Kept q (s.setReg a v) := { h with regs := mapWf_mapSet resetWord _ _ _ h.regs }

theorem Kept.setStaged {a v} (h : Kept q s) : Kept q (s.setStaged a v) := { h with staged := mapWf_mapSet resetWord _ _ _ h.staged }

theorem Kept.setInForce {a v} (h : Kept q s) : Kept q (s.setInForce a v) :=
  { h with inForce := mapWf_mapSet resetWord _ _ _ h.inForce }

theorem Kept.wr {f v} (h : Kept q s) : Kept q (s.wr f v) := h.setReg

theorem Kept.wrBit {f i b} (h : Kept q s) : Kept q (s.wrBit f i b) := h.wr

theorem Kept.restage {f} (h : Kept q s) : Kept q (s.restage f) := h.setStaged

theorem Kept.bumpBy {a n} (h : Kept q s) : Kept q (s.bumpBy a n) := h.setReg

theorem Kept.bump {a} (h : Kept q s) : Kept q (s.bump a) := h.bumpBy

theorem Kept.bumpWrap {a n} (h : Kept q s) : Kept q (s.bumpWrap a n) := h.setReg

theorem Kept.setCount64 {lo v} (h : Kept q s) : Kept q (s.setCount64 lo v) := h.setReg.setReg

theorem Kept.bump64 {lo n} (h : Kept q s) : Kept q (s.bump64 lo n) := h.setCount64

theorem Kept.raiseMax {f v} (h : Kept q s) : Kept q (s.raiseMax f v) := .ite h.wr h

theorem Kept.drew (h : Kept q s) : Kept q (s.drew) := h.same

/-- A number of draws. -/
theorem Kept.drawn {n} (h : Kept q s) : Kept q { s with draws := n } := h.same

/-- Any state of the management block. -/
theorem Kept.managed {m} (h : Kept q s) : Kept q { s with mgmt := m } := h.same

theorem Kept.onEng {e f} (h : Kept q s) : Kept q (s.onEng e f) := h.same

theorem Kept.loadSample {e k pc} (h : Kept q s) : Kept q (s.loadSample e k pc) := by
  unfold State.loadSample
  exact h.setReg.onEng

theorem Kept.countOne {e sel n pc waiting k} (h : Kept q s) : Kept q (s.countOne e sel n pc waiting k) :=
  .ite h (h.setReg.unless fun h => h.fork (fun h => Kept.loadSample (.ite h h.drew)) (·.drew.onEng))

theorem Kept.evCount {e sel n pc waiting} (h : Kept q s) : Kept q (s.evCount e sel n pc waiting) := .ite h (h.foldl (·.countOne))

theorem Kept.cycCount {e n} (h : Kept q s) : Kept q (s.cycCount e n) := .ite h h.setCount64

theorem Kept.retire {e pc} (h : Kept q s) : Kept q (s.retire e pc) :=
  Kept.evCount (by split; exacts [h, .ite h.loadSample h.onEng])

theorem Kept.wfeReturn {e d mask waited} (h : Kept q s) : Kept q (s.wfeReturn e d mask waited) :=
  h.onEng.cycCount.evCount.evCount.retire

theorem Kept.wakeWfe {e} (h : Kept q s) : Kept q (s.wakeWfe e) := by
  unfold State.wakeWfe
  split
  · exact .ite h h.drew.wfeReturn
  · exact h

theorem Kept.setEv {e i} (h : Kept q s) : Kept q (s.setEv e i) := .ite h.onEng.evCount h.onEng

theorem Kept.raiseEv {e i} (h : Kept q s) : Kept q (s.raiseEv e i) := h.setEv.wakeWfe

theorem Kept.raiseEvAll {i} (h : Kept q s) : Kept q (s.raiseEvAll i) := h.foldl (·.raiseEv)

theorem Kept.noticeSummary {before} (h : Kept q s) : Kept q (State.noticeSummary before s) := .ite h h.raiseEv

theorem Kept.setInt {f} (h : Kept q s) : Kept q (s.setInt f) := h.wr.noticeSummary

theorem Kept.setIntBit {f i} (h : Kept q s) : Kept q (s.setIntBit f i) := h.wrBit.noticeSummary

theorem Kept.setTopInt {f} (h : Kept q s) : Kept q (s.setTopInt f) := .ite h (.ite h.wr.raiseEvAll h.wr)

theorem Kept.setTopErr {f} (h : Kept q s) : Kept q (s.setTopErr f) := h.wr.setTopInt

theorem Kept.logEvent {source code argA argB} (h : Kept q s) : Kept q (s.logEvent source code argA argB) :=
  .ite h (.ite h.bump.setInt h.same)

theorem Kept.setDev {d} (h : Kept q s) : Kept q (s.setDev d) := .ite h h.same.setTopInt.logEvent.raiseEv

theorem Kept.setArg {k v} (h : Kept q s) : Kept q (s.setArg k v) := h.setReg

theorem Kept.endCmd {status} (h : Kept q s) : Kept q (s.endCmd status) := h.wr.wr.same.setTopInt

theorem Kept.endIf {op status} (h : Kept q s) : Kept q (s.endIf op status) := .ite h.endCmd h

theorem Kept.endIfArg {op status arg0} (h : Kept q s) : Kept q (s.endIfArg op status arg0) := .ite h.setArg.endCmd h

/-! ## Operations of Machine/DpOps.lean -/

theorem Kept.onDp {f} (h : Kept q s) : Kept q (s.onDp f) := h.same

theorem Kept.onFramer {f} (h : Kept q s) : Kept q (s.onFramer f) := h.same

theorem Kept.onPool {f} (h : Kept q s) : Kept q (s.onPool f) := h.same

theorem Kept.onLedger {f} (h : Kept q s) : Kept q (s.onLedger f) := h.same

theorem Kept.onLink {f} (h : Kept q s) : Kept q (s.onLink f) := h.same

theorem Kept.onPen {f} (h : Kept q s) : Kept q (s.onPen f) := h.same

theorem Kept.onTime {f} (h : Kept q s) : Kept q (s.onTime f) := h.same

theorem Kept.onTx {n f} (h : Kept q s) : Kept q (s.onTx n f) := h.same

theorem Kept.onRx {n f} (h : Kept q s) : Kept q (s.onRx n f) := h.same

theorem Kept.onPort {p f} (h : Kept q s) : Kept q (s.onPort p f) := h.same

theorem Kept.onHost {n f} (h : Kept q s) : Kept q (s.onHost n f) := h.same

theorem Kept.cutSuperframe (h : Kept q s) : Kept q s.cutSuperframe := h.same

theorem Kept.reviewSettled (h : Kept q s) : Kept q s.reviewSettled := .ite h.wr h

theorem Kept.laneSettled {n} (h : Kept q s) : Kept q (s.laneSettled n) := .ite h.same.reviewSettled h

theorem Kept.auxSettled {i} (h : Kept q s) : Kept q (s.auxSettled i) := .ite h.same.reviewSettled h

theorem Kept.auxWaits {i} (h : Kept q s) : Kept q (s.auxWaits i) := h.same

theorem Kept.poolSettled (h : Kept q s) : Kept q s.poolSettled := .ite h.same.reviewSettled h

theorem Kept.queuePen {prio x} (h : Kept q s) : Kept q (s.queuePen prio x) := h.same

theorem Kept.queueInvite (h : Kept q s) : Kept q s.queueInvite := h.queuePen

theorem Kept.queueAccept {peer} (h : Kept q s) : Kept q (s.queueAccept peer) := h.queuePen

theorem Kept.queueStatus (h : Kept q s) : Kept q s.queueStatus := h.queuePen

/-! ## Operations of Machine/Clk.lean -/

theorem Kept.onClk {f} (h : Kept q s) : Kept q (s.onClk f) := h.same

theorem Kept.reviewHostLock (h : Kept q s) : Kept q s.reviewHostLock := h.wrBit

theorem Kept.setLock {x on} (h : Kept q s) : Kept q (s.setLock x on) := by
  unfold State.setLock
  split
  · exact h.onClk.reviewHostLock
  · exact h.wrBit

theorem Kept.switchDone (h : Kept q s) : Kept q s.switchDone :=
  h.onClk.fork (fun h => Kept.raiseEv (h.onClk.wr.setInt.bump.logEvent.when (·.wr))) fun h => .ite h.wr h

theorem Kept.switchRef {osc} (h : Kept q s) : Kept q (s.switchRef osc) := .ite h.onClk.switchDone h.onClk

theorem Kept.refFail (h : Kept q s) : Kept q s.refFail := h.wr.onClk.unless fun h => .ite h (.ite h.switchRef h.onClk)

theorem Kept.refReturn (h : Kept q s) : Kept q s.refReturn := .ite h.onClk h.switchRef

theorem Kept.refGood (h : Kept q s) : Kept q s.refGood :=
  h.wr.fork (fun h => .ite h.setInt.refReturn h.setInt) fun h => .ite h.onClk h

theorem Kept.refRevert (h : Kept q s) : Kept q s.refRevert := .ite h.refReturn h

theorem Kept.reviewForce (h : Kept q s) : Kept q s.reviewForce := .ite h.switchRef h

theorem Kept.monWindow {count} (h : Kept q s) : Kept q (s.monWindow count) :=
  h.setReg.fork (fun h => .ite h.onClk.refGood h.onClk) fun h => .ite h.onClk.refFail h.onClk

theorem Kept.oscCheck {count} (h : Kept q s) : Kept q (s.oscCheck count) := .ite (.ite h.onClk.wr.logEvent h.onClk) h.onClk

theorem Kept.trimStep {err} (h : Kept q s) : Kept q (s.trimStep err) := .ite h.wr.wr.setInt h.wr.wr

theorem Kept.reviewRamp (h : Kept q s) : Kept q s.reviewRamp := h.wr

theorem Kept.startRamp {x} (h : Kept q s) : Kept q (s.startRamp x) := by
  unfold State.startRamp
  split
  · exact .ite h.onClk.wr.onClk.reviewRamp h.onClk
  · exact .ite h.onClk.onClk.reviewRamp h.onClk
  · exact .ite h.onClk.onClk.reviewRamp h.onClk
  · exact h.onClk

theorem Kept.stopSynths {xs} (h : Kept q s) : Kept q (s.stopSynths xs) := by
  unfold State.stopSynths
  exact Kept.onClk (h.foldl (·.setLock))

theorem Kept.execMonWindowEnd {count modulated} (h : Kept q s) : KeptOut q (execMonWindowEnd count modulated s) :=
  .ite (.next h) (.next h.wr.monWindow)

theorem Kept.execRefclkLoss (h : Kept q s) : KeptOut q (execRefclkLoss s) := .ite (.next h) (.next h.refFail)

theorem Kept.execSynthRelock {synth} (h : Kept q s) : KeptOut q (execSynthRelock synth s) :=
  .ite (.next h.setLock.startRamp) (.next (h.setLock.startRamp.onClk.when (·.switchDone)))

theorem Kept.execTrimMeasure {tsync count} (h : Kept q s) : KeptOut q (execTrimMeasure tsync count s) :=
  .ite (.next h) (.next h.wr.wr.wr.trimStep)

theorem Kept.execRampStep {domain} (h : Kept q s) : KeptOut q (execRampStep domain s) := .next h.onClk.reviewRamp

theorem Kept.execPllUnlock {synth} (h : Kept q s) : KeptOut q (execPllUnlock synth s) := by
  unfold Machine.execPllUnlock
  split
  · exact .ite (.next h.setLock) (.next h.setLock.wr.onClk.reviewRamp)
  · exact .next h.setLock.setInt.logEvent

/-! ## Operations of Machine/Safe.lean -/

theorem Kept.onSafe {f} (h : Kept q s) : Kept q (s.onSafe f) := h.same

theorem Kept.onBias {n f} (h : Kept q s) : Kept q (s.onBias n f) := h.same

theorem Kept.jumpSafe {c} (h : Kept q s) : Kept q (s.jumpSafe c) := .ite h.onBias h

theorem Kept.enterSafe {n} (h : Kept q s) : Kept q (s.enterSafe n) := Kept.setInt (h.onSafe.foldl (·.jumpSafe))

theorem Kept.leaveSafe {n} (h : Kept q s) : Kept q (s.leaveSafe n) := h.onSafe.foldl (·.onBias)

theorem Kept.reviewSafeLane {n} (h : Kept q s) : Kept q (s.reviewSafeLane n) := .ite (.ite h h.enterSafe) (.ite h.leaveSafe h)

theorem Kept.latchSc (h : Kept q s) : Kept q s.latchSc := .ite h (h.foldl (·.wrBit))

theorem Kept.reviewSafe (h : Kept q s) : Kept q s.reviewSafe := h.latchSc.foldl (·.reviewSafeLane)

theorem Kept.safeWrite {a mask v} (h : Kept q s) : Kept q (s.safeWrite a mask v) := h.setReg.reviewSafe

theorem Kept.safeReject (h : Kept q s) : Kept q s.safeReject := h.bump.setInt

theorem Kept.safeDefaults (h : Kept q s) : Kept q s.safeDefaults := h.setReg.setReg.setReg.foldl (·.setReg.setReg)

theorem Kept.txdisLevel {high} (h : Kept q s) : Kept q (s.txdisLevel high) :=
  .ite h (Kept.reviewSafe (.ite h.onSafe.raiseEv.wr h.onSafe.raiseEv))

theorem Kept.execTxdisChange {high} (h : Kept q s) : KeptOut q (execTxdisChange high s) := .next h.txdisLevel

/-! ## Operations of Machine/Bias.lean -/

theorem Kept.biasRange {n} (h : Kept q s) : Kept q (s.biasRange n) := h.same

theorem Kept.biasStep {n now} (h : Kept q s) : Kept q (s.biasStep n now) := .ite h.biasRange.onBias h.biasRange.onBias

theorem Kept.endRamp {before now} (h : Kept q s) : Kept q (s.endRamp before now) := h.foldl fun h => .ite h.onSafe h

theorem Kept.biasUpdate {now} (h : Kept q s) : Kept q (s.biasUpdate now) :=
  .ite h (.ite (h.foldl (·.onBias)) ((Kept.endRamp (h.foldl (·.biasStep))).auxSettled))

theorem Kept.biasHold (h : Kept q s) : Kept q s.biasHold := h.wr.foldl (·.onBias)

theorem Kept.biasLimit {c atLimit} (h : Kept q s) : Kept q (s.biasLimit c atLimit) :=
  .ite h (h.wrBit.raiseEv.raiseEv.when (·.bump.setIntBit.logEvent.reviewSafe))

theorem Kept.execBiasUpdate {now} (h : Kept q s) : KeptOut q (execBiasUpdate now s) := .next h.biasUpdate

theorem Kept.execBiasCurrentLimit {ch atLimit} (h : Kept q s) : KeptOut q (execBiasCurrentLimit ch atLimit s) := .next h.biasLimit

/-! ## Operations of Machine/MemErr.lean -/

theorem Kept.uncorrectable {dram scrub loc syndrome} (h : Kept q s) : Kept q (s.uncorrectable dram scrub loc syndrome) :=
  h.bump.setReg.setReg.setInt.logEvent

theorem Kept.corrected {dram} (h : Kept q s) : Kept q (s.corrected dram) := h.bump

theorem Kept.poisonRead {dram loc} (h : Kept q s) : Kept q (s.poisonRead dram loc) := .ite h.drew h.drew.uncorrectable

theorem Kept.poisonReadShared (h : Kept q s) : Kept q s.poisonReadShared := h.drew.poisonRead

theorem Kept.eccRead {dram loc code} (h : Kept q s) : Kept q (s.eccRead dram loc code).1 := by
  unfold State.eccRead
  split
  · exact h
  · exact h.corrected
  · split
    · exact h.drew.uncorrectable
    · exact h.drew.drew.uncorrectable
  · exact h

theorem Kept.eccPart {dram loc code} (h : Kept q s) : Kept q (s.eccPart dram loc code).1 := h.eccRead

/-! ## Operations of Machine/Dram.lean -/

theorem Kept.onMem {f} (h : Kept q s) (k : (f s.mem).wf = true) : Kept q (s.onMem f) := { h with mem := k }

/-- A change of the memories beside their sparse parts. -/
theorem Kept.onMemRest {f : MemState → MemState} (h : Kept q s) (k : (f s.mem).wf = s.mem.wf := by rfl) : Kept q (s.onMem f) :=
  h.onMem (k.trans h.mem)

/-- A change of the memories, part by part. -/
theorem Kept.onMemParts {f : MemState → MemState} (h : Kept q s) (k : s.mem.Canonical → (f s.mem).Canonical) : Kept q (s.onMem f) :=
  h.onMem ((MemState.wf_iff _).mpr (k ((MemState.wf_iff _).mp h.mem)))

theorem Kept.setDramCode {a code} (h : Kept q s) : Kept q (s.setDramCode a code) := h.onMem (State.setDramCode_wf _ _ _ h.mem)

theorem Kept.dramReadWord {a} (h : Kept q s) : Kept q (s.dramReadWord a).1 := .iteFst h (.iteFst h h.eccRead.setDramCode)

theorem Kept.dramRead {a n} (h : Kept q s) : Kept q (s.dramRead a n).1 := h.foldlFst (·.dramReadWord)

theorem Kept.dramWriteWord {w a n} (h : Kept q s) : Kept q (s.dramWriteWord w a n) := by
  unfold State.dramWriteWord
  dsimp only
  exact .ite h (.ite h.setDramCode h.eccPart.setDramCode)

theorem Kept.dramWrite {a bs} (h : Kept q s) : Kept q (s.dramWrite a bs) := by
  have hmem := State.dramWrite_wf s a bs h.mem
  unfold State.dramWrite at hmem ⊢
  exact Kept.onMem (h.foldl fun h => h.dramWriteWord) hmem

theorem Kept.dramClear {lo hi} (h : Kept q s) : Kept q (s.dramClear lo hi) := h.onMem (State.dramClear_wf _ _ _ h.mem)

theorem Kept.dramClearBank {pc bank} (h : Kept q s) : Kept q (s.dramClearBank pc bank) := by
  have hmem := State.dramClearBank_wf s pc bank h.mem
  unfold State.dramClearBank at hmem ⊢
  exact h.onMem hmem

/-! ## Operations of Machine/Events.lean -/

theorem Kept.onEvr {f} (h : Kept q s) : Kept q (s.onEvr f) := h.same

theorem Kept.writeEntry {x} (h : Kept q s) : Kept q (s.writeEntry x) := .ite h.onEvr.setInt h.onEvr

theorem Kept.capTrigger {code index captured} (h : Kept q s) : Kept q (s.capTrigger code index captured) := h.same.wr.wr.logEvent

theorem Kept.acceptEntry {x captured} (h : Kept q s) : Kept q (s.acceptEntry x captured) :=
  Kept.fork (Kept.when (.ite h.setInt h) (·.capTrigger)) (fun h => h.fork (·.onEvr) (·.bump.setInt)) (·.writeEntry)

theorem Kept.appendHeld (h : Kept q s) : Kept q s.appendHeld := h.onEvr.foldl (·.writeEntry)

theorem Kept.evrRestart {why recording} (h : Kept q s) : Kept q (s.evrRestart why recording) := h.onEvr.wr

theorem Kept.evrWin0 (h : Kept q s) : Kept q s.evrWin0 := h.wr.wr.same

theorem Kept.execEventAccept {captured} (h : Kept q s) : KeptOut q (execEventAccept captured s) := by
  unfold Machine.execEventAccept
  split
  · exact .next h
  · exact .next h.onEvr.acceptEntry

theorem Kept.evrFreeze {freeze} (h : Kept q s) : Kept q (s.evrFreeze freeze) := .ite h.wr h.wr.appendHeld

/-! ## Operations of Machine/Link.lean -/

theorem Kept.newNonce (h : Kept q s) : Kept q s.newNonce := h.drew.same

theorem Kept.squelchAll (h : Kept q s) : Kept q s.squelchAll := h.cutSuperframe.same

theorem Kept.clearAttempt (h : Kept q s) : Kept q s.clearAttempt := h.same

theorem Kept.enterIdle (h : Kept q s) : Kept q s.enterIdle := h.clearAttempt.onLink.setDev

theorem Kept.enterStep1 {keepNonce} (h : Kept q s) : Kept q (s.enterStep1 keepNonce) :=
  (Kept.clearAttempt (.ite h h.newNonce)).onLink.setDev.queueInvite

theorem Kept.enterAbsent {status} (h : Kept q s) : Kept q (s.enterAbsent status) := h.newNonce.clearAttempt.onLink.bump.setDev

theorem Kept.holdLoop {n} (h : Kept q s) : Kept q (s.holdLoop n) := h.onRx.wr.wr

theorem Kept.enterFallback {n} (h : Kept q s) : Kept q (s.enterFallback n) :=
  .ite h.onRx.setReg.setReg h.onRx.setReg.setReg.bump.logEvent

theorem Kept.enterSearch {n} (h : Kept q s) : Kept q (s.enterSearch n) := h.onRx.enterFallback

theorem Kept.freshLane {n} (h : Kept q s) : Kept q (s.freshLane n) := h.onRx.enterSearch

theorem Kept.freshLanes (h : Kept q s) : Kept q s.freshLanes := h.foldl (·.freshLane)

theorem Kept.enterStep2 {peer} (h : Kept q s) : Kept q (s.enterStep2 peer) := by
  unfold State.enterStep2
  exact Kept.onFramer (.ite h.onLink.setReg.freshLanes.onLink h.onLink.setReg)

theorem Kept.tryStep2 (h : Kept q s) : Kept q s.tryStep2 := .ite h.enterStep2 h

theorem Kept.nextStep {k} (h : Kept q s) : Kept q (s.nextStep k) := .ite h.onLink.onDp h.onLink

theorem Kept.storeRtt (h : Kept q s) : Kept q s.storeRtt := h.setReg

theorem Kept.advance2 (h : Kept q s) : Kept q s.advance2 := .ite h.nextStep h

theorem Kept.advance3 (h : Kept q s) : Kept q s.advance3 := .ite h.nextStep h

theorem Kept.advance4 (h : Kept q s) : Kept q s.advance4 := .ite h.nextStep h

theorem Kept.advance5 (h : Kept q s) : Kept q s.advance5 := .ite h.storeRtt.nextStep h

theorem Kept.advanceSteps (h : Kept q s) : Kept q s.advanceSteps := h.advance2.advance3.advance4.advance5

theorem Kept.ledgerStop (h : Kept q s) : Kept q s.ledgerStop := h.same

theorem Kept.attemptFail {code} (h : Kept q s) : Kept q (s.attemptFail code) :=
  Kept.fork (h.bump.wr.wr.wr.logEvent.squelchAll.onLink.ledgerStop.when (·.setArg.setArg.endCmd)) (·.enterAbsent) (·.enterStep1)

theorem Kept.dropTransmit (h : Kept q s) : Kept q s.dropTransmit := by
  unfold State.dropTransmit
  exact h.bumpBy.onFramer.onLedger

theorem Kept.linkStop {code} (h : Kept q s) : Kept q (s.linkStop code) :=
  .ite h.bump.wr.wr.logEvent.dropTransmit.ledgerStop.squelchAll.onLink (.ite h.ledgerStop.squelchAll h)

theorem Kept.linkDown {code} (h : Kept q s) : Kept q (s.linkDown code) :=
  .ite (h.linkStop.fork (fun h => .ite h.enterStep1 h.enterIdle) fun h => .ite h.setDev h.enterIdle) h

theorem Kept.reviewState (h : Kept q s) : Kept q s.reviewState := by
  unfold State.reviewState
  refine .ite ?_ ?_
  · split
    · exact .ite h.setDev h
    · exact .ite h.setDev h
    · exact .ite h h.setDev
    · exact h
  · extract_lets +onlyGivenNames bad
    split
    · exact .ite h.setDev h
    · exact .ite h h.setDev
    · exact h

theorem Kept.linkWaitEnd (h : Kept q s) : Kept q s.linkWaitEnd := .ite h.setArg.endCmd h

theorem Kept.enterLinked (h : Kept q s) : Kept q s.enterLinked :=
  h.onLink.onLedger.setReg.wr.onFramer.setDev.reviewState.linkWaitEnd

theorem Kept.tryLinked (h : Kept q s) : Kept q s.tryLinked := .ite h.enterLinked h

theorem Kept.orderFast {n} (h : Kept q s) : Kept q (s.orderFast n) := by
  unfold State.orderFast
  exact h.onRx.holdLoop.bump.onLink

theorem Kept.reviewStep (h : Kept q s) : Kept q s.reviewStep := h.same

theorem Kept.orderFull {n} (h : Kept q s) : Kept q (s.orderFull n) := h.onRx.enterSearch.bump.onLink.reviewStep.reviewState

/-! ## Operations of Machine/Stores.lean -/

theorem Kept.dramStore {hold q' blocks} (h : Kept q s) : Kept q (s.dramStore hold q' blocks) := h.same.dramWrite.dramWrite

theorem Kept.storeWrite {hold i bs} (h : Kept q s) : Kept q (s.storeWrite hold i bs) := by
  have hmem := State.storeWrite_wf s hold i bs h.mem
  unfold State.storeWrite at hmem ⊢
  by_cases hp : s.dp.ledger.place = 2
  · rw [if_pos hp]
    exact h.dramStore
  · rw [if_neg hp] at hmem ⊢
    exact h.onMem hmem

theorem Kept.sramReadWord {loc} (h : Kept q s) : Kept q (s.sramReadWord loc).1 := by
  unfold State.sramReadWord
  refine .iteFst h ?_
  dsimp only
  exact h.eccRead.onMem (State.setSramEcc_wf _ _ _ h.eccRead.mem)

theorem Kept.spoil {hold i bad} (h : Kept q s) : Kept q (s.spoil hold i bad) :=
  h.foldl fun h => .ite (.ite h.setDramCode h) (h.onMem (State.setSramEcc_wf _ _ _ h.mem))

theorem Kept.storeWord {hold q' w} (h : Kept q s) : Kept q (s.storeWord hold q' w).1 := h.dramReadWord

theorem Kept.storeRead {hold i bad kept} (h : Kept q s) : Kept q (s.storeRead hold i bad kept).1 := by
  unfold State.storeRead
  generalize List.range 237 = words
  exact .iteFst (Kept.foldlFst (y := (_, [])) h.spoil fun h => h.storeWord)
    (Kept.foldlFst (y := (_, [])) h.spoil fun h => h.sramReadWord)

theorem Kept.expose {seq} (h : Kept q s) : Kept q (s.expose seq) := h.onLedger.bump.logEvent

theorem Kept.reviewLost (h : Kept q s) : Kept q s.reviewLost := .ite h (Kept.onLedger (h.foldl (·.expose)))

theorem Kept.rebuildStart {bank} (h : Kept q s) : Kept q (s.rebuildStart bank) := .ite h.onLedger.reviewLost h

theorem Kept.rebuildMember {base g i} (h : Kept q s) : Kept q (s.rebuildMember base g i) :=
  h.dramWrite.foldl fun h => .ite h.setDramCode h

theorem Kept.rebuildDone {bank} (h : Kept q s) : Kept q (s.rebuildDone bank) :=
  (Kept.onLedger (h.foldl fun h => h.foldl (·.rebuildMember))).bump

/-! ## Operations of Machine/Framer.lean -/

theorem Kept.retain {u i} (h : Kept q s) : Kept q (s.retain u i) := by
  unfold State.retain
  exact Kept.foldl (Kept.same (h.foldl fun h => h.expose)) fun h => h.storeWrite

theorem Kept.enqueue {u} (h : Kept q s) : Kept q (s.enqueue u) := (Kept.onFramer (.ite h.retain h)).raiseMax

theorem Kept.overflowAt {p} (h : Kept q s) : Kept q (s.overflowAt p) := h.bump.same

theorem Kept.queueFull {u} (h : Kept q s) : Kept q (s.queueFull u) := by
  unfold State.queueFull
  split
  · exact .ite h.overflowAt ((Kept.enqueue (.ite h.onFramer.onLedger h.onFramer)).overflowAt)
  · exact h.overflowAt

theorem Kept.completeUnit {p cyc} (h : Kept q s) : Kept q (s.completeUnit p cyc) :=
  Kept.fork (.ite h.bump h) (·.onPort.bump) fun h => h.fork (·.onPort.queueFull) (·.onPort.enqueue)

theorem Kept.packBlock {p b lf cyc} (h : Kept q s) : Kept q (s.packBlock p b lf cyc) :=
  .ite h (.ite h.onPort.completeUnit h.onPort)

theorem Kept.portUnlock {p} (h : Kept q s) : Kept q (s.portUnlock p) := .ite h.onPort.bump h

theorem Kept.disarmLate {start} (h : Kept q s) : Kept q (s.disarmLate start) := h.bumpBy.same

theorem Kept.putSlot {n u} (h : Kept q s) : Kept q (s.putSlot n u) := h.same

theorem Kept.putFiller {n} (h : Kept q s) : Kept q (s.putFiller n) := h.bump64.putSlot

theorem Kept.frameSent {u start} (h : Kept q s) : Kept q (s.frameSent u start) := h.same

theorem Kept.sendData {n u start poison} (h : Kept q s) : Kept q (s.sendData n u start poison) :=
  (Kept.raiseMax (h.onFramer.frameSent.onLedger.when (·.bump.poisonReadShared))).bump64.putSlot

theorem Kept.sendReplay {n r start poison} (h : Kept q s) : Kept q (s.sendReplay n r start poison) := by
  unfold State.sendReplay
  dsimp only
  exact .ite h.drew.storeRead.onLedger.bump.logEvent.putFiller h.drew.storeRead.onLedger.bump64.putSlot

theorem Kept.fillSlot {n start poison} (h : Kept q s) : Kept q (s.fillSlot n start poison) :=
  .ite h.putFiller (by split; exacts [h.sendData, by split; exacts [h.sendReplay, h.putFiller]])

theorem Kept.reviewService (h : Kept q s) : Kept q s.reviewService := by
  unfold State.reviewService
  exact h.onFramer.onFramer

theorem Kept.patternService (h : Kept q s) : Kept q s.patternService := h.same

theorem Kept.countListed {nack} (h : Kept q s) : Kept q (s.countListed nack) := h.bumpBy.same

theorem Kept.execPortAmLockLoss {port} (h : Kept q s) : KeptOut q (execPortAmLockLoss port s) := .next h.portUnlock

theorem Kept.execPortAmLockReturn {port skewNs} (h : Kept q s) : KeptOut q (execPortAmLockReturn port skewNs s) :=
  .ite (.next h.onPort) (.next h)

theorem Kept.execLocalFaultBlockInsert {port cyc} (h : Kept q s) : KeptOut q (execLocalFaultBlockInsert port cyc s) :=
  .ite (.next h.packBlock) (.next h)

theorem Kept.execSlotDecision {cw poison} (h : Kept q s) : KeptOut q (execSlotDecision cw poison s) :=
  .ite (.next h) (.next (h.reviewService.disarmLate.foldl (·.fillSlot)))

theorem Kept.execControlMessageCapture (h : Kept q s) : KeptOut q (execControlMessageCapture s) :=
  .ite (.next h) (.next ((Kept.onFramer (.ite h.countListed.onFramer h.countListed)).onLink))

/-! ## Operations of Machine/Egress.lean -/

theorem Kept.ebSlip {p why} (h : Kept q s) : Kept q (s.ebSlip p why) := h.bump.logEvent

theorem Kept.ebPush {p b} (h : Kept q s) : Kept q (s.ebPush p b) := .ite h.onPort.raiseMax.onPort.ebSlip h.onPort.raiseMax

theorem Kept.deliver {p blocks now arrived} (h : Kept q s) : Kept q (s.deliver p blocks now arrived) :=
  .ite h.onPort (.ite h.onPort.bump (.ite h.onPort (h.onPort.onPort.foldl (·.ebPush))))

theorem Kept.lossPort {port now} (h : Kept q s) : Kept q (s.lossPort port now).1 := by
  unfold State.lossPort
  split
  · exact h
  · exact h.bump

theorem Kept.countLoss {cause} (h : Kept q s) : Kept q (s.countLoss cause) := h.bump.setReg

theorem Kept.logLoss {p cause seq} (h : Kept q s) : Kept q (s.logLoss p cause seq) := h.logEvent

theorem Kept.reviewLineFault (h : Kept q s) : Kept q s.reviewLineFault := h.same

theorem Kept.setLineFault {on} (h : Kept q s) : Kept q (s.setLineFault on) :=
  Kept.reviewLineFault (.ite h.onLedger.bump h.onLedger)

/-! ## Operations of Machine/Ledger.lean -/

theorem Kept.updUnit {q' f} (h : Kept q s) : Kept q (s.updUnit q' f) := h.same

theorem Kept.setNominal {q' x} (h : Kept q s) : Kept q (s.setNominal q' x) := h.updUnit

theorem Kept.declareLost {q' cause} (h : Kept q s) : Kept q (s.declareLost q' cause) := by
  unfold State.declareLost
  split
  · exact .ite h h.updUnit.countLoss
  · exact h

theorem Kept.loseFreed (h : Kept q s) : Kept q s.loseFreed := h.foldl (·.declareLost)

theorem Kept.takeCopy {r now} (h : Kept q s) : Kept q (s.takeCopy r now) := by
  unfold State.takeCopy
  extract_lets +onlyGivenNames l good
  refine .ite (.ite h.bump h.bump) ?_
  extract_lets +onlyGivenNames u lost held late k
  have hk : Kept q k := .ite h.bump h
  exact .ite h.bump (.ite h (.ite h.bump (.ite h.bump hk.updUnit.storeWrite)))

theorem Kept.handleRecord {r x} (h : Kept q s) : Kept q (s.handleRecord r x) :=
  .ite h (Kept.takeCopy (Kept.when (.ite h.setNominal h) (·.updUnit)))

theorem Kept.firstRelease (h : Kept q s) : Kept q s.firstRelease := .ite (.ite h.onLedger.setLineFault h.onLedger) h

theorem Kept.handleOff {r x} (h : Kept q s) : Kept q (s.handleOff r x) :=
  .ite h (h.firstRelease.updUnit.onLedger.fork (·.deliver) (·.countLoss.deliver.logLoss))

theorem Kept.settleNumber {now x} (h : Kept q s) : Kept q (s.settleNumber now x) := by
  unfold State.settleNumber
  dsimp only
  exact .ite (by split; exacts [(Kept.setNominal (.ite h.bump h)), .ite h.bump h]) (Kept.logLoss (by split; exacts
      [h.countLoss.lossPort.onPort, h.countLoss.lossPort]))

theorem Kept.resolveOne (h : Kept q s) : Kept q s.resolveOne := by
  unfold State.resolveOne
  split
  · exact h
  · exact .ite h (Kept.loseFreed (Kept.unless (h.onLedger.foldl (·.settleNumber)) (·.onLedger)))

theorem Kept.resolveRanges (h : Kept q s) : Kept q s.resolveRanges := h.foldl (·.resolveOne)

theorem Kept.closeRange {sfc next} (h : Kept q s) : Kept q (s.closeRange sfc next) := by
  unfold State.closeRange
  split
  · exact h.onLedger
  · exact .ite h (Kept.resolveRanges (.ite (h.onLedger.foldl (·.updUnit)) h.onLedger))

theorem Kept.noteFaultEnd {sfc cw t'} (h : Kept q s) : Kept q (s.noteFaultEnd sfc cw t') := by
  unfold State.noteFaultEnd
  split
  · exact .ite h.onLedger h
  · exact h

theorem Kept.reviewFaultEnd {now} (h : Kept q s) : Kept q (s.reviewFaultEnd now) := by
  unfold State.reviewFaultEnd
  split
  · exact .ite h.setLineFault h
  · exact h

theorem Kept.handGroup {sfc cw recs} (h : Kept q s) : Kept q (s.handGroup sfc cw recs) := by
  unfold State.handGroup
  extract_lets +onlyGivenNames mask used recs at_ missed slots handed faulty
  have hmissed : Kept q missed := h.foldl fun h => h.bump
  have hfaulty : Kept q faulty := hmissed.onLedger.noteFaultEnd.reviewFaultEnd
  refine Kept.resolveRanges (hfaulty.foldl fun h => ?_)
  split
  · exact .ite h.handleRecord h.handleOff
  · exact h

theorem Kept.execHandOn {sfc cw} (h : Kept q s) : KeptOut q (execHandOn sfc cw s) := .next (.ite h.onLedger h.onLedger.handGroup)

theorem Kept.passUnit {u lost} (h : Kept q s) : Kept q (s.passUnit u lost) := h.same

theorem Kept.releaseUnit {u now bad} (h : Kept q s) : Kept q (s.releaseUnit u now bad) := by
  unfold State.releaseUnit
  dsimp only
  split
  · exact (Kept.passUnit (.ite h.storeRead.deliver h.storeRead.countLoss.deliver.logLoss))
  · exact (Kept.logLoss (by split; exacts [h.declareLost.lossPort.deliver, h.declareLost.lossPort])).passUnit

theorem Kept.sizeWindow (h : Kept q s) : Kept q s.sizeWindow.1 := by
  unfold State.sizeWindow
  extract_lets +onlyGivenNames round sized
  have hsized : Kept q sized := h.onLedger
  split
  · exact hsized.same
  · exact hsized.same

theorem Kept.execHoldVerifyRead {poison} (h : Kept q s) : KeptOut q (execHoldVerifyRead poison s) := by
  unfold Machine.execHoldVerifyRead
  dsimp only
  exact .ite (.next h) (by split; exacts [.next h, .ite (.next h.drew.storeRead.updUnit) (.next
      (h.drew.storeRead.updUnit.bump.when (·.loseFreed)))])

theorem Kept.execUnitExpire (h : Kept q s) : KeptOut q (execUnitExpire s) := by
  unfold Machine.execUnitExpire
  split
  · exact .next h
  · exact .ite (.next h) (.next ((Kept.onLedger (.ite h.bump h)).bump))

theorem Kept.execUnitDueRelease {poison} (h : Kept q s) : KeptOut q (execUnitDueRelease poison s) := by
  unfold Machine.execUnitDueRelease
  split
  · exact .next h.reviewFaultEnd.firstRelease.releaseUnit
  · exact .next h

theorem Kept.execLineFaultOnset (h : Kept q s) : KeptOut q (execLineFaultOnset s) :=
  .ite (.next h) (.ite (.next h.setLineFault) (.next h))

theorem Kept.execBankRebuildDone {bank} (h : Kept q s) : KeptOut q (execBankRebuildDone bank s) := .next (.ite h.rebuildDone h)

theorem Kept.execWindowCheckDone (h : Kept q s) : KeptOut q (execWindowCheckDone s) := .ite (.next h.sizeWindow.onLink) (.next h)

/-! ## Operations of Machine/LineOut.lean -/

theorem Kept.emit {n start raws} (h : Kept q s) : Kept q (s.emit n start raws) := h.bumpBy.same

theorem Kept.sendLevels {n start levels next} (h : Kept q s) : Kept q (s.sendLevels n start levels next) := by
  unfold State.sendLevels
  exact h.emit.onTx

theorem Kept.endSuperframe {n next} (h : Kept q s) : Kept q (s.endSuperframe n next) := by
  -- the kernel unfolds the function by itself here: applied, it would run the payload's line
  generalize hE : State.endSuperframe = E
  delta State.endSuperframe at hE
  subst hE
  beta_reduce
  extract_lets +onlyGivenNames f
  generalize s.payloadLine n f.sfc = sent
  obtain ⟨line, st⟩ := sent
  exact (Kept.wr (h.sendLevels.when (·.bump))).onTx

theorem Kept.endCut {n sfc m} (h : Kept q s) : Kept q (s.endCut n sfc m) := by
  unfold State.endCut
  exact h.drew.onFramer.sendLevels.onFramer.onTx

theorem Kept.forgetSuperframe {n} (h : Kept q s) : Kept q (s.forgetSuperframe n) := h.same

theorem Kept.laneEnds {n next} (h : Kept q s) : Kept q (s.laneEnds n next) := by
  unfold State.laneEnds
  extract_lets +onlyGivenNames start
  refine .ite h (.ite h.sendLevels.onTx.forgetSuperframe (.ite h.onTx (.ite h.onTx.endSuperframe ?_)))
  refine Kept.forgetSuperframe ?_
  split
  · exact h.onTx.endCut
  · exact h.onTx.emit.onTx

theorem Kept.retimeToLine {n symbols} (h : Kept q s) : Kept q (s.retimeToLine n symbols) := .ite h h.onTx.sendLevels

theorem Kept.receiveEnds {n} (h : Kept q s) : Kept q (s.receiveEnds n) :=
  .ite h (.ite h.drew.bumpBy.drew.bumpBy.drew.bumpBy h.drew.bumpBy)

/-! ## Operations of Machine/HostPath.lean -/

theorem Kept.prbsSeed {n} (h : Kept q s) : Kept q (s.prbsSeed n) := h.same

theorem Kept.prbsSlip {n f} (h : Kept q s) : Kept q (s.prbsSlip n f) := h.onHost.setReg

theorem Kept.prbsSlipBit {n} (h : Kept q s) : Kept q (s.prbsSlipBit n) := h.prbsSlip

theorem Kept.prbsSlipSym {n} (h : Kept q s) : Kept q (s.prbsSlipSym n) := h.prbsSlip

theorem Kept.checkSymbols {n symbols} (h : Kept q s) : Kept q (s.checkSymbols n symbols) := by
  unfold State.checkSymbols
  dsimp only
  split
  · exact h
  · exact h.bumpBy.onHost

theorem Kept.hostShape {n symbols} (h : Kept q s) : Kept q (s.hostShape n symbols) := h.same

theorem Kept.hostSend {n symbols} (h : Kept q s) : Kept q (s.hostSend n symbols) := by
  unfold State.hostSend
  extract_lets +onlyGivenNames host code
  split
  next t sent e =>
  have ht : Kept q t := by
    split at e
    · cases e
      exact h.onHost
    · cases e
      exact h.onHost.hostShape
  exact .ite (.dite (fun _ => ht.checkSymbols.retimeToLine) fun _ => ht.checkSymbols) ht

theorem Kept.hostExitAll (h : Kept q s) : Kept q s.hostExitAll := Kept.auxSettled (h.foldl fun h => .ite h.onHost.hostShape h)

theorem Kept.laneReceives {n symbols} (h : Kept q s) : Kept q (s.laneReceives n symbols) :=
  .ite h (Kept.dite (fun _ => Kept.when (.ite h.onHost.checkSymbols.hostSend h.onHost.checkSymbols) (·.retimeToLine)) (fun _ =>
    .ite h.onHost.checkSymbols.hostSend h.onHost.checkSymbols))

theorem Kept.retimeToHost {n symbols} (h : Kept q s) : Kept q (s.retimeToHost n symbols) :=
  .ite h (.ite h.onRx.bumpBy.bumpBy h.onRx.bumpBy.bumpBy.hostSend)

theorem Kept.portIngress {p cyc word markers} (h : Kept q s) : Kept q (s.portIngress p cyc word markers) := by
  unfold State.portIngress
  split
  · exact .ite (h.bump.onPort.foldl (·.packBlock)) h.bump.onPort
  · exact Kept.fork (.ite h h.bump64.bump64) (fun h => h.onPort.foldl (·.packBlock)) (·.onPort)

theorem Kept.sendCodeword {p cyc} (h : Kept q s) : Kept q (s.sendCodeword p cyc) :=
  Kept.when (h.onPort.foldl (·.hostSend)) (·.portIngress)

theorem Kept.regenerate {p cyc b} (h : Kept q s) : Kept q (s.regenerate p cyc b) :=
  .ite h.onPort (.ite h.onPort.sendCodeword h.onPort)

theorem Kept.execHostRsCodeword {port cyc burst} (h : Kept q s) : KeptOut q (execHostRsCodeword port cyc burst s) :=
  .ite (.next (Kept.portIngress (h.foldl (·.laneReceives)))) (.next (h.foldl (·.laneReceives)))

theorem Kept.execPrbsCheckLock {lane symbols} (h : Kept q s) : KeptOut q (execPrbsCheckLock lane symbols s) :=
  .next h.laneReceives

theorem Kept.execPrbsLockLoss {lane symbols} (h : Kept q s) : KeptOut q (execPrbsLockLoss lane symbols s) := .next h.laneReceives

/-! ## Operations of Machine/PwrOps.lean -/

theorem Kept.onPwr {f} (h : Kept q s) : Kept q (s.onPwr f) := h.same

theorem Kept.setRefuse {id reason target forced} (h : Kept q s) : Kept q (s.setRefuse id reason target forced) := h.setReg

theorem Kept.clearAsk (h : Kept q s) : Kept q s.clearAsk := h.wr.wr

theorem Kept.endEntry (h : Kept q s) : Kept q s.endEntry := h.clearAsk.same

theorem Kept.dropEntry (h : Kept q s) : Kept q s.dropEntry := .ite h.endEntry.onSafe.reviewSafe h.endEntry

theorem Kept.failPower (h : Kept q s) : Kept q s.failPower := h.endIfArg

theorem Kept.abortEntry (h : Kept q s) : Kept q s.abortEntry := h.setRefuse.bump.setInt.logEvent.dropEntry.when (·.failPower)

theorem Kept.openFinal (h : Kept q s) : Kept q s.openFinal := h.same

theorem Kept.ask {k} (h : Kept q s) : Kept q (s.ask k) := .ite h.onPwr.setReg.raiseEv h.onPwr

theorem Kept.proposeEntry {target byCommand byFollow forced} (h : Kept q s) : Kept q (s.proposeEntry target byCommand byFollow
    forced) :=
  .ite h (h.onPwr.raiseEv.fork (·.abortEntry) fun h => .ite h.openFinal h.ask)

theorem Kept.startExit {sources} (h : Kept q s) : Kept q (s.startExit sources) := h.wr.onPwr.hostExitAll

theorem Kept.wake {sources} (h : Kept q s) : Kept q (s.wake sources) := .ite h.startExit.raiseEv h

/-! ## Operations of Machine/Bringup.lean -/

theorem Kept.ackProcess {seq} (h : Kept q s) : Kept q (s.ackProcess seq) := .ite h h.onLedger

theorem Kept.nackOne {now q'} (h : Kept q s) : Kept q (s.nackOne now q') := by
  -- unfolded by itself: applied, the kernel would work out which slots lie inside the window
  generalize hE : State.nackOne = E
  delta State.nackOne at hE
  subst hE
  beta_reduce
  extract_lets ledger old inside
  generalize (inside && !ledger.unrec.contains q') = asked
  generalize ledger.retention.find? (·.seq == q') = slot
  cases asked
  · exact h.bump
  · cases slot with
    | none => exact h.bump
    | some r => exact .ite h.bump (.ite h.bump (.ite h.bump (Kept.bump h.onLedger)))

theorem Kept.nackProcess {now entries} (h : Kept q s) : Kept q (s.nackProcess now entries) := h.foldl fun h => h.foldl (·.nackOne)

theorem Kept.rttSample {rtt} (h : Kept q s) : Kept q (s.rttSample rtt) :=
  .ite h.onLink (.ite (.ite h.setReg.onLedger.logEvent h.setReg) h)

theorem Kept.probeEcho {m t'} (h : Kept q s) : Kept q (s.probeEcho m t') := by
  unfold State.probeEcho
  dsimp only
  split
  · exact Kept.unless (.ite h.onFramer h) (·.onFramer.rttSample)
  · exact .ite h.onFramer h

theorem Kept.alignTest {sfc offs} (h : Kept q s) : Kept q (s.alignTest sfc offs) := by
  unfold State.alignTest
  exact Kept.onLink ((Kept.foldl (.ite h h.onDp)) (·.onRx))

theorem Kept.rejoin {sfc offs} (h : Kept q s) : Kept q (s.rejoin sfc offs) :=
  (Kept.onLink (h.foldl fun h => .ite (.ite h.onRx.onLink h.onRx) h)).reviewState

theorem Kept.align {sfc lanes} (h : Kept q s) : Kept q (s.align sfc lanes) :=
  Kept.fork (h.foldl (·.wr)) (·.alignTest) fun h => h.when (·.rejoin)

theorem Kept.rxStart {m retry} (h : Kept q s) : Kept q (s.rxStart m retry) := h.same

theorem Kept.ledgerMessage {m now} (h : Kept q s) : Kept q (s.ledgerMessage m now) :=
  Kept.when (Kept.fork (.ite h.rxStart h.onLedger.closeRange) (·.onLedger.loseFreed) (·.onLedger)) fun h => (Kept.nackProcess
    (h.fork (·.ackProcess) (·.onLedger)))

theorem Kept.partnerRestart (h : Kept q s) : Kept q s.partnerRestart := .ite h.bump.linkDown h.bump.attemptFail

theorem Kept.messageEnds {m f} (e : s.messageEnds m = some f) {t} (k : Kept q t) : Kept q (f t) := by
  unfold State.messageEnds at e
  split at e
  · cases e
    exact k.partnerRestart
  · split at e
    · cases e
      exact k.linkDown
    · split at e
      · cases e
        exact k.attemptFail
      · cases e

theorem Kept.stuffMismatch {m} (h : Kept q s) : Kept q (s.stuffMismatch m) := h.foldl fun h => by split; exacts [.ite h.bump h, h]

theorem Kept.noteMessage {m} (h : Kept q s) : Kept q (s.noteMessage m) := by
  unfold State.noteMessage
  exact h.onLink.onFramer

theorem Kept.followQuiet {m lanes} (h : Kept q s) : Kept q (s.followQuiet m lanes) := .ite h.proposeEntry h

/-- The superframe count that a lane's message brings. -/
theorem Kept.expectAll {l : List (Fin 8 × CtlMsg)} (h : Kept q s) :
    Kept q (l.foldl (fun s x => if x.2.discarded then s else s.onRx x.1 fun r => { r with expSfc := some x.2.sfc }) s) :=
  h.foldl fun h => .ite h h.onRx

theorem Kept.execControlMessageAccept {copies} (h : Kept q s) : KeptOut q (execControlMessageAccept copies s) := by
  unfold Machine.execControlMessageAccept
  split
  · exact .next h.onLink
  · extract_lets +onlyGivenNames lanes noted
    have hnoted : Kept q noted := h.onLink
    refine .ite (.next hnoted.onLink) ?_
    extract_lets +onlyGivenNames expected now paired start counted
    have hcounted : Kept q counted := hnoted.expectAll.noteMessage.stuffMismatch
    split
    · next e => exact .next (Kept.messageEnds e hcounted)
    · extract_lets +onlyGivenNames aligned probed ledgered
      have haligned : Kept q aligned := hcounted.align
      have hprobed : Kept q probed := .ite haligned haligned.probeEcho
      have hledgered : Kept q ledgered := .ite hprobed.ledgerMessage hprobed
      exact .next hledgered.advanceSteps.followQuiet

theorem Kept.ensignLost {n} (h : Kept q s) : Kept q (s.ensignLost n) := .ite (.ite h.orderFast h.orderFull) h.onRx.onLink

theorem Kept.execEnsignCheck {lane labels arrival} (h : Kept q s) : KeptOut q (execEnsignCheck lane labels arrival s) := by
  unfold Machine.execEnsignCheck
  extract_lets +onlyGivenNames r
  refine .ite (.next h) ?_
  extract_lets +onlyGivenNames hit checked
  have hc : Kept q checked := h.onRx
  generalize ensignBest labels = best
  split
  · exact .next hc
  · exact .ite (.next hc.onRx) (.next hc)
  · exact .ite (.next hc.onRx.advanceSteps) (.next hc.onRx)
  · exact .ite (.next hc.onRx) (.ite (.next hc.ensignLost) (.next hc.onRx))
  · exact .ite (.next hc.onRx.onLink.reviewStep) (.next hc)

theorem Kept.execRelockTimeout {lane} (h : Kept q s) : KeptOut q (execRelockTimeout lane s) := .ite (.next h.orderFull) (.next h)

theorem Kept.execFullRetrainTimeout {lane} (h : Kept q s) : KeptOut q (execFullRetrainTimeout lane s) :=
  .ite (.next h.linkDown) (.next h)

theorem Kept.execInviteTimer (h : Kept q s) : KeptOut q (execInviteTimer s) :=
  .ite (.next h.onLink.queueInvite) (.ite (.ite (.next h.queueInvite) (.ite (.next h.queueAccept) (.ite (.next h) (.next
    h.queueInvite)))) (.ite (.next h.queueStatus) (.next h)))

theorem Kept.execPartnerAbsentTimeout (h : Kept q s) : KeptOut q (execPartnerAbsentTimeout s) :=
  .ite (.next h.enterAbsent) (.next h)

theorem Kept.restartStep (h : Kept q s) : Kept q s.restartStep := by
  unfold State.restartStep
  dsimp only
  split
  · exact h.onLink.foldl (·.enterSearch)
  · exact h.onLink.foldl (·.onRx)
  · exact h.onLink.onLink.onDp
  · exact h.onLink.onLink

theorem Kept.execBringupStepTimeout (h : Kept q s) : KeptOut q (execBringupStepTimeout s) :=
  .ite (.next h.attemptFail) (.ite (.ite (.next h.restartStep) (.next h.attemptFail)) (.next h))

theorem Kept.execPartnerLossTimeout (h : Kept q s) : KeptOut q (execPartnerLossTimeout s) :=
  .ite (.next h.attemptFail) (.ite (.next h.linkDown) (.next h))

theorem Kept.execLineSignalLoss {lane} (h : Kept q s) : KeptOut q (execLineSignalLoss lane s) :=
  .ite (.next h.onRx.holdLoop.onLink) (.next h)

theorem Kept.execLineSignalDetect {lane} (h : Kept q s) : KeptOut q (execLineSignalDetect lane s) :=
  .ite (.next h.onRx.orderFast) (.next h)

/-! ## Operations of Machine/CalRun.lean -/

theorem Kept.onDac {n f} (h : Kept q s) : Kept q (s.onDac n f) := h.same

theorem Kept.dacRequest {n} (h : Kept q s) : Kept q (s.dacRequest n) := .ite h.raiseEv (.ite h.raiseEv.onDac h.raiseEv.wr)

theorem Kept.dacTempCheck {n} (h : Kept q s) : Kept q (s.dacTempCheck n) := .ite h.dacRequest h

theorem Kept.onAdc {n f} (h : Kept q s) : Kept q (s.onAdc n f) := h.same

theorem Kept.adcStart {n} (h : Kept q s) : Kept q (s.adcStart n) := h.onAdc.wr.wr

theorem Kept.adcReview {n} (h : Kept q s) : Kept q (s.adcReview n) := .ite h (.ite h.adcStart (.ite h.adcStart h))

theorem Kept.adcRequest {n} (h : Kept q s) : Kept q (s.adcRequest n) := .ite h.raiseEv.onAdc.adcReview h.raiseEv

theorem Kept.adcTempCheck {n} (h : Kept q s) : Kept q (s.adcTempCheck n) := by
  unfold State.adcTempCheck
  split
  · exact h
  · exact .ite h.adcRequest h

theorem Kept.adcCut {n} (h : Kept q s) : Kept q (s.adcCut n) := h.onAdc.wr.wr

theorem Kept.dacAfter {n} (h : Kept q s) : Kept q (s.dacAfter n) := .ite h.onDac.dacRequest h.dacTempCheck

theorem Kept.abortCalLane {n} (h : Kept q s) : Kept q (s.abortCalLane n) := .ite (Kept.adcCut (.ite h.wr.wr h)) (.ite h.wr.wr h)

theorem Kept.calAfterAbort {n} (h : Kept q s) : Kept q (s.calAfterAbort n) := h.dacAfter.adcTempCheck.adcReview

/-! ## Operations of Machine/Fatal.lean -/

theorem Kept.dropPower (h : Kept q s) : Kept q s.dropPower := h.same

theorem Kept.resetEngine {e} (h : Kept q s) : Kept q (s.resetEngine e) := h.same

theorem Kept.fatal {cause detail} (h : Kept q s) : Kept q (s.fatal cause detail) :=
  .ite (.ite h.same h.same.wr) ((Kept.evrFreeze (h.linkStop.onLink.dropPower.setDev.unless (·.resetEngine))).logEvent.same.wr.wr)

theorem Kept.safePair {p} (h : Kept q s) : Kept q (s.safePair p) := .ite h h.safeWrite

theorem Kept.safeRecord {r} (h : Kept q s) : Kept q (s.safeRecord r) := h.foldl (·.safePair)

theorem Kept.igsBegins (h : Kept q s) : Kept q s.igsBegins := h.safeDefaults.foldl (·.safePair)

theorem Kept.startEngine {e} (h : Kept q s) : Kept q (s.startEngine e) := .ite h.onEng.setReg.igsBegins h.onEng.setReg

theorem Kept.igsStopped (h : Kept q s) : Kept q s.igsStopped := h.same.wr.reviewSafe

theorem Kept.trapConsequence {e cause pc} (h : Kept q s) : Kept q (s.trapConsequence e cause pc) :=
  .ite h.fatal (.ite h.fatal (.ite h.igsStopped (.ite (Kept.fork (h.onEng.foldl (·.abortCalLane)) (·.fatal) fun h =>
    h.startEngine.onEng.foldl (·.calAfterAbort)) h)))

theorem Kept.engineTrap {e cause} (h : Kept q s) : Kept q (s.engineTrap e cause) :=
  Kept.trapConsequence (Kept.fork (.ite h.onEng.wr h.onEng) (·.setIntBit.logEvent.same) (·.setIntBit.logEvent))

/-! ## Operations of Machine/Igsin.lean -/

theorem Kept.complete {e cycles stall next f} (h : Kept q s) : Kept q (s.complete e cycles stall next f) :=
  h.onEng.cycCount.evCount.evCount.retire

theorem Kept.engineWordRead {e k} (h : Kept q s) : Kept q (s.engineWordRead e k).1 := by
  unfold State.engineWordRead
  refine .iteFst h ?_
  dsimp only
  exact h.eccRead.onEng

theorem Kept.engineWordPart {e k} (h : Kept q s) : Kept q (s.engineWordPart e k) := by
  unfold State.engineWordPart
  dsimp only
  exact .ite h h.eccPart.onEng

theorem Kept.issue {e k} (h : Kept q s) (hk : ∀ {t}, Kept q t → Kept q (k t)) : Kept q (s.issue e k) :=
  .ite h.engineTrap (.ite h.engineWordRead.engineTrap (hk h.engineWordRead))

theorem Kept.aluOp {e uses d cycles v} (h : Kept q s) : Kept q (s.aluOp e uses d cycles v) := h.issue (·.complete)

theorem Kept.aluR {e d a b cycles op} (h : Kept q s) : Kept q (s.aluR e d a b cycles op) := h.aluOp

theorem Kept.aluI {e d a imm op} (h : Kept q s) : Kept q (s.aluI e d a imm op) := h.aluOp

theorem Kept.branch {e a b off test} (h : Kept q s) : Kept q (s.branch e a b off test) :=
  h.issue fun h => .ite h.evCount.complete h.complete

theorem Kept.jumpTo {e target f} (h : Kept q s) : Kept q (s.jumpTo e target f) := .ite h.engineTrap h.evCount.complete

theorem Kept.macOp {e a b sign} (h : Kept q s) : Kept q (s.macOp e a b sign) := h.issue (·.evCount.complete)

theorem Kept.doLd {e d a imm} (h : Kept q s) : Kept q (s.doLd e d a imm) := by
  unfold State.doLd
  dsimp only
  exact h.issue fun h => by split; exacts [h.engineTrap, .ite h.engineWordRead.engineTrap h.engineWordRead.complete]

theorem Kept.doSt {e src a imm} (h : Kept q s) : Kept q (s.doSt e src a imm) := by
  unfold State.doSt
  dsimp only
  exact h.issue fun h => by split; exacts [h.engineTrap, h.engineWordPart.complete]

theorem Kept.doCall {e target} (h : Kept q s) : Kept q (s.doCall e target) := h.issue fun h => .ite h.engineTrap h.jumpTo

theorem Kept.doRet {e} (h : Kept q s) : Kept q (s.doRet e) := h.issue fun h => by split; exacts [h.engineTrap, h.evCount.complete]

theorem Kept.doRdacc {e d imm} (h : Kept q s) : Kept q (s.doRdacc e d imm) := h.issue (·.complete)

theorem Kept.doLdacc {e a imm} (h : Kept q s) : Kept q (s.doLdacc e a imm) := h.issue (·.complete)

theorem Kept.doWfe {e d imm} (h : Kept q s) : Kept q (s.doWfe e d imm) := h.issue fun h => .ite h.wfeReturn h.onEng

theorem Kept.doTset {e a imm} (h : Kept q s) : Kept q (s.doTset e a imm) := h.issue (·.complete)

theorem Kept.whenRuns {e k} (h : Kept q s) (hk : ∀ {t}, Kept q t → Kept q (k t)) : Kept q (s.whenRuns e k) := .ite (hk h) h

theorem Kept.doNopInstruction {e} (h : Kept q s) : Kept q (doNopInstruction s e) := h.issue (·.complete)

theorem Kept.doClracc {e} (h : Kept q s) : Kept q (doClracc s e) := h.issue (·.complete)

theorem Kept.doKick {e} (h : Kept q s) : Kept q (doKick s e) := h.issue (·.complete)

theorem Kept.doHalt {e} (h : Kept q s) : Kept q (doHalt s e) := h.issue (·.engineTrap)

theorem Kept.doMovi {e d imm} (h : Kept q s) : Kept q (doMovi s e d imm) := h.aluOp

theorem Kept.doMovhi {e d imm} (h : Kept q s) : Kept q (doMovhi s e d imm) := h.aluOp

theorem Kept.execNopInstruction {e} (h : Kept q s) : KeptOut q (execNopInstruction e s) := .next (h.whenRuns (·.doNopInstruction))

theorem Kept.execAdd {e d a b} (h : Kept q s) : KeptOut q (execAdd e d a b s) := .next (h.whenRuns (·.aluR))

theorem Kept.execSub {e d a b} (h : Kept q s) : KeptOut q (execSub e d a b s) := .next (h.whenRuns (·.aluR))

theorem Kept.execAnd {e d a b} (h : Kept q s) : KeptOut q (execAnd e d a b s) := .next (h.whenRuns (·.aluR))

theorem Kept.execOr {e d a b} (h : Kept q s) : KeptOut q (execOr e d a b s) := .next (h.whenRuns (·.aluR))

theorem Kept.execXor {e d a b} (h : Kept q s) : KeptOut q (execXor e d a b s) := .next (h.whenRuns (·.aluR))

theorem Kept.execShl {e d a b} (h : Kept q s) : KeptOut q (execShl e d a b s) := .next (h.whenRuns (·.aluR))

theorem Kept.execShr {e d a b} (h : Kept q s) : KeptOut q (execShr e d a b s) := .next (h.whenRuns (·.aluR))

theorem Kept.execSar {e d a b} (h : Kept q s) : KeptOut q (execSar e d a b s) := .next (h.whenRuns (·.aluR))

theorem Kept.execMul {e d a b} (h : Kept q s) : KeptOut q (execMul e d a b s) := .next (h.whenRuns (·.aluR))

theorem Kept.execSlt {e d a b} (h : Kept q s) : KeptOut q (execSlt e d a b s) := .next (h.whenRuns (·.aluR))

theorem Kept.execSltu {e d a b} (h : Kept q s) : KeptOut q (execSltu e d a b s) := .next (h.whenRuns (·.aluR))

theorem Kept.execMin {e d a b} (h : Kept q s) : KeptOut q (execMin e d a b s) := .next (h.whenRuns (·.aluR))

theorem Kept.execMax {e d a b} (h : Kept q s) : KeptOut q (execMax e d a b s) := .next (h.whenRuns (·.aluR))

theorem Kept.execAddi {e d a imm} (h : Kept q s) : KeptOut q (execAddi e d a imm s) := .next (h.whenRuns (·.aluI))

theorem Kept.execAndi {e d a imm} (h : Kept q s) : KeptOut q (execAndi e d a imm s) := .next (h.whenRuns (·.aluI))

theorem Kept.execOri {e d a imm} (h : Kept q s) : KeptOut q (execOri e d a imm s) := .next (h.whenRuns (·.aluI))

theorem Kept.execXori {e d a imm} (h : Kept q s) : KeptOut q (execXori e d a imm s) := .next (h.whenRuns (·.aluI))

theorem Kept.execShli {e d a imm} (h : Kept q s) : KeptOut q (execShli e d a imm s) := .next (h.whenRuns (·.aluI))

theorem Kept.execShri {e d a imm} (h : Kept q s) : KeptOut q (execShri e d a imm s) := .next (h.whenRuns (·.aluI))

theorem Kept.execSari {e d a imm} (h : Kept q s) : KeptOut q (execSari e d a imm s) := .next (h.whenRuns (·.aluI))

theorem Kept.execMovi {e d imm} (h : Kept q s) : KeptOut q (execMovi e d imm s) := .next (h.whenRuns (·.doMovi))

theorem Kept.execMovhi {e d imm} (h : Kept q s) : KeptOut q (execMovhi e d imm s) := .next (h.whenRuns (·.doMovhi))

theorem Kept.execLd {e d a imm} (h : Kept q s) : KeptOut q (execLd e d a imm s) := .next (h.whenRuns (·.doLd))

theorem Kept.execSt {e src a imm} (h : Kept q s) : KeptOut q (execSt e src a imm s) := .next (h.whenRuns (·.doSt))

theorem Kept.execBeq {e a b off} (h : Kept q s) : KeptOut q (execBeq e a b off s) := .next (h.whenRuns (·.branch))

theorem Kept.execBne {e a b off} (h : Kept q s) : KeptOut q (execBne e a b off s) := .next (h.whenRuns (·.branch))

theorem Kept.execBlt {e a b off} (h : Kept q s) : KeptOut q (execBlt e a b off s) := .next (h.whenRuns (·.branch))

theorem Kept.execBge {e a b off} (h : Kept q s) : KeptOut q (execBge e a b off s) := .next (h.whenRuns (·.branch))

theorem Kept.execBltu {e a b off} (h : Kept q s) : KeptOut q (execBltu e a b off s) := .next (h.whenRuns (·.branch))

theorem Kept.execBgeu {e a b off} (h : Kept q s) : KeptOut q (execBgeu e a b off s) := .next (h.whenRuns (·.branch))

theorem Kept.execJ {e target} (h : Kept q s) : KeptOut q (execJ e target s) := .next (h.whenRuns fun h => h.issue (·.jumpTo))

theorem Kept.execCall {e target} (h : Kept q s) : KeptOut q (execCall e target s) := .next (h.whenRuns (·.doCall))

theorem Kept.execRet {e} (h : Kept q s) : KeptOut q (execRet e s) := .next (h.whenRuns (·.doRet))

theorem Kept.execMacc {e a b} (h : Kept q s) : KeptOut q (execMacc e a b s) := .next (h.whenRuns (·.macOp))

theorem Kept.execMsub {e a b} (h : Kept q s) : KeptOut q (execMsub e a b s) := .next (h.whenRuns (·.macOp))

theorem Kept.execRdacc {e d imm} (h : Kept q s) : KeptOut q (execRdacc e d imm s) := .next (h.whenRuns (·.doRdacc))

theorem Kept.execClracc {e} (h : Kept q s) : KeptOut q (execClracc e s) := .next (h.whenRuns (·.doClracc))

theorem Kept.execLdacc {e a imm} (h : Kept q s) : KeptOut q (execLdacc e a imm s) := .next (h.whenRuns (·.doLdacc))

theorem Kept.execWfe {e d imm} (h : Kept q s) : KeptOut q (execWfe e d imm s) := .next (h.whenRuns (·.doWfe))

theorem Kept.execTset {e a imm} (h : Kept q s) : KeptOut q (execTset e a imm s) := .next (h.whenRuns (·.doTset))

theorem Kept.execKick {e} (h : Kept q s) : KeptOut q (execKick e s) := .next (h.whenRuns (·.doKick))

theorem Kept.execHalt {e} (h : Kept q s) : KeptOut q (execHalt e s) := .next (h.whenRuns (·.doHalt))

theorem Kept.execIllegalInstruction {e word} (h : Kept q s) : KeptOut q (execIllegalInstruction e word s) :=
  .next (.ite (h.whenRuns fun h => h.issue (·.engineTrap)) h)

/-! ## Operations of Machine/Engines.lean -/

theorem Kept.engineHalt {e} (h : Kept q s) : Kept q (s.engineHalt e) := .ite h.onEng h

theorem Kept.engineRun {e} (h : Kept q s) : Kept q (s.engineRun e) :=
  .ite (by split; exacts [h.onEng, .ite h.onEng h.drew.wfeReturn]) h

theorem Kept.engineRestart {e} (h : Kept q s) : Kept q (s.engineRestart e) := .ite h.startEngine h

theorem Kept.memAdvance {e} (h : Kept q s) : Kept q (s.memAdvance e) := h.wr

theorem Kept.memDataRead {e} (h : Kept q s) : Kept q (s.memDataRead e).1 := Kept.memAdvance (.iteFst h.engineWordRead h)

theorem Kept.memDataWrite {e v bad} (h : Kept q s) : Kept q (s.memDataWrite e v bad) := by
  unfold State.memDataWrite
  dsimp only
  exact Kept.memAdvance (.ite h (by split; exacts [h.engineWordPart.onEng.onEng, h.engineWordPart.onEng]))

theorem Kept.engineLog {e code arg pc} (h : Kept q s) : Kept q (s.engineLog e code arg pc) := h.logEvent

theorem Kept.freezeWrite {v} (h : Kept q s) : Kept q (s.freezeWrite v) := h.setReg

theorem Kept.execEngineTimerExpire {e timer} (h : Kept q s) : KeptOut q (execEngineTimerExpire e timer s) :=
  .ite (.next h) (.next h.onEng.raiseEv)

theorem Kept.execEngineWatchdogExpire {e} (h : Kept q s) : KeptOut q (execEngineWatchdogExpire e s) := .next (.ite h.engineTrap h)

/-! ## Operations of Machine/Receive.lean -/

theorem Kept.onEqu {n f} (h : Kept q s) : Kept q (s.onEqu n f) := h.same

theorem Kept.countSat {n b} (h : Kept q s) : Kept q (s.countSat n b) := h.bumpBy.same

/-! ## Operations of Machine/FrontEnd.lean -/

theorem Kept.setSnr {n q'} (h : Kept q s) : Kept q (s.setSnr n q') := h.wr.wr

theorem Kept.closeLoop {n} (h : Kept q s) : Kept q (s.closeLoop n) := .ite h (.ite h.wr.holdLoop h.wr.wr)

theorem Kept.enterTrack {n} (h : Kept q s) : Kept q (s.enterTrack n) := .ite h.onRx.enterSearch h.onRx.advanceSteps

theorem Kept.skipUpdate {n causes} (h : Kept q s) : Kept q (s.skipUpdate n causes) := h.bump.setReg

theorem Kept.updateTarget {n k taps tr} (h : Kept q s) : Kept q (s.updateTarget n k taps tr) := h.onEqu.wr.wr

theorem Kept.measureSnr {n tr} (h : Kept q s) : Kept q (s.measureSnr n tr) := .ite h.drew.setSnr h.setSnr

theorem Kept.countGood {n} (h : Kept q s) : Kept q (s.countGood n) := .ite (.ite h.onEqu.enterTrack h.onEqu) h

theorem Kept.acceptUpdate {n tr} (h : Kept q s) : Kept q (s.acceptUpdate n tr) :=
  (Kept.closeLoop (.ite h.onEqu.wr.wr.wr h.onEqu.wr.wr)).measureSnr.updateTarget.countGood

theorem Kept.processPilots {n tr signal} (h : Kept q s) : Kept q (s.processPilots n tr signal) := by
  unfold State.processPilots
  dsimp only
  split
  · exact h.onEqu.fork (·.skipUpdate) fun h => .ite h.measureSnr h.acceptUpdate
  · exact h.skipUpdate

theorem Kept.pausePilots {n} (h : Kept q s) : Kept q (s.pausePilots n) := h.same

theorem Kept.tapSwitch {n block} (h : Kept q s) : Kept q (s.tapSwitch n block) := by
  unfold State.tapSwitch
  extract_lets +onlyGivenNames -underBinder equ t
  have ht : Kept q t := h.onEqu
  clear_value t
  generalize List.range 513 = bins
  refine Kept.laneSettled (Kept.onEqu (.ite (ht.drawn.onEqu.wr) ?_))
  split
  · exact ht.onEqu.wr
  · exact ht

theorem Kept.tapRead {n} (h : Kept q s) : Kept q (s.tapRead n).1 := .iteFst h h.wr

theorem Kept.tapWrite {n v} (h : Kept q s) : Kept q (s.tapWrite n v) := .ite h h.onEqu.wr

theorem Kept.showLoop {n} (h : Kept q s) : Kept q (s.showLoop n) := h.wr.wr.wr.wr

theorem Kept.hear {n b} (h : Kept q s) : Kept q (s.hear n b) := h.countSat.retimeToHost

theorem Kept.runLoop {n b} (h : Kept q s) : Kept q (s.runLoop n b) := .ite h h.onRx.showLoop

theorem Kept.limitFallback {n} (h : Kept q s) : Kept q (s.limitFallback n) := .ite h (.ite h.enterSearch h.enterFallback)

theorem Kept.execPilotPeakFound {lane burst} (h : Kept q s) : KeptOut q (execPilotPeakFound lane burst s) :=
  .ite (.next h) (by split; exacts [.next h.hear.onRx.onRx.showLoop.processPilots.pausePilots, .next h.hear])

theorem Kept.execPilotPlateauNoPeak {lane burst} (h : Kept q s) : KeptOut q (execPilotPlateauNoPeak lane burst s) :=
  .ite (.next h) (.ite (.next h.hear.bump) (.next h.hear))

theorem Kept.execPilotUpdate {lane burst signal} (h : Kept q s) : KeptOut q (execPilotUpdate lane burst signal s) :=
  .ite (.next h) (.ite (.next h.hear) (.next h.hear.processPilots.pausePilots))

theorem Kept.execThrottlePauseEnd {lane} (h : Kept q s) : KeptOut q (execThrottlePauseEnd lane s) := .next h.onEqu

theorem Kept.execAcquireTimeout {lane} (h : Kept q s) : KeptOut q (execAcquireTimeout lane s) :=
  .ite (.next h.bump.enterSearch) (.next h)

theorem Kept.execTapSwitch {lane block} (h : Kept q s) : KeptOut q (execTapSwitch lane block s) :=
  .ite (.next h.tapSwitch) (.next h)

theorem Kept.execFastRetrainPilotFound {lane burst} (h : Kept q s) : KeptOut q (execFastRetrainPilotFound lane burst s) :=
  .ite (.next h) (by split; exacts [.next h.hear, .next h.hear.onRx.processPilots.pausePilots])

theorem Kept.execCdrFallbackLimit {lane burst} (h : Kept q s) : KeptOut q (execCdrFallbackLimit lane burst s) :=
  .ite (.next h) (.next h.hear.runLoop.limitFallback.reviewState)

theorem Kept.execCdrLockChange {lane burst} (h : Kept q s) : KeptOut q (execCdrLockChange lane burst s) :=
  .ite (.next h) (.next h.hear.runLoop.reviewState)

/-! ## Operations of Machine/Calib.lean -/

theorem Kept.dacEnd {n r} (h : Kept q s) : Kept q (s.dacEnd n r) :=
  Kept.dacAfter (.ite h.wr.wr.onDac.wr.wr.wr.wr.wr h.wr.wr.wr.bump)

theorem Kept.adcReject {n} (h : Kept q s) : Kept q (s.adcReject n) := h.bump.same

theorem Kept.setSlice {n i f} (h : Kept q s) : Kept q (s.setSlice n i f) := h.same

theorem Kept.adcOffline {n offset gain} (h : Kept q s) : Kept q (s.adcOffline n offset gain) := by
  unfold State.adcOffline
  split
  · exact h
  · exact .ite h.adcReject h.setSlice

theorem Kept.adcSkew {n trim} (h : Kept q s) : Kept q (s.adcSkew n trim) := .ite h.adcReject h.onAdc

theorem Kept.adcSwap {n} (h : Kept q s) : Kept q (s.adcSwap n) := by
  unfold State.adcSwap
  dsimp only
  split
  · exact h
  · exact h.setSlice.setSlice.wr.wr

theorem Kept.adcPark {n} (h : Kept q s) : Kept q (s.adcPark n) := h.setSlice.onAdc.wr.logEvent

theorem Kept.adcRunEnd {n spur sndr} (h : Kept q s) : Kept q (s.adcRunEnd n spur sndr) :=
  h.wr.wr.wr.wr.wr.wr.onAdc.adcTempCheck.adcReview

theorem Kept.adcStepEnd {n spur sndr} (h : Kept q s) : Kept q (s.adcStepEnd n spur sndr) :=
  .ite h.adcCut.onAdc.adcReview (.ite h (Kept.fork (.ite h (.ite h.adcSwap h.adcPark)) (·.adcRunEnd) (·.wr.onAdc)))

theorem Kept.lanePowerUp {n record} (h : Kept q s) : Kept q (s.lanePowerUp n record) := by
  unfold State.lanePowerUp
  extract_lets +onlyGivenNames -underBinder own corr sent recorded kept received trimmed reset
  have hsent : Kept q sent := h.onTx
  have hrecorded : Kept q recorded := .ite hsent hsent.same
  have hreceived : Kept q received := hrecorded.onRx
  have htrimmed : Kept q trimmed := .ite hreceived hreceived.same
  exact htrimmed.setReg.setReg.setReg.wr.onEqu.dacRequest.adcRequest

theorem Kept.execDacCalRunEnd {lane result} (h : Kept q s) : KeptOut q (execDacCalRunEnd lane result s) :=
  .ite (.next h.dacEnd) (.next h)

theorem Kept.execLanePowerUp {lane record} (h : Kept q s) : KeptOut q (execLanePowerUp lane record s) :=
  .ite (.next h) (.next h.lanePowerUp)

theorem Kept.execAdcCalPeriodExpire {lane} (h : Kept q s) : KeptOut q (execAdcCalPeriodExpire lane s) :=
  .ite (.next h) (.next h.adcRequest)

theorem Kept.execAdcCalOfflineDone {lane offset gain skew} (h : Kept q s) : KeptOut q (execAdcCalOfflineDone lane offset gain skew
    s) :=
  .ite (.next h) (.next (by split; exacts [(Kept.adcSkew (.ite h h.adcOffline)), .ite h h.adcOffline]))

theorem Kept.execAdcCalShadowDone {lane rms} (h : Kept q s) : KeptOut q (execAdcCalShadowDone lane rms s) :=
  .ite (.next h) (.ite (.next h.onAdc) (.next h.bump.onAdc))

theorem Kept.execAdcCalStepEnd {lane spur sndr} (h : Kept q s) : KeptOut q (execAdcCalStepEnd lane spur sndr s) :=
  .ite (.next h.adcStepEnd) (.next h)

/-! ## Operations of Machine/HostLanes.lean -/

theorem Kept.applyGrouping (h : Kept q s) : Kept q s.applyGrouping := h.same

theorem Kept.dropPorts {n} (h : Kept q s) : Kept q (s.dropPorts n) := h.foldl (·.portUnlock)

theorem Kept.hostToDown {n} (h : Kept q s) : Kept q (s.hostToDown n) := h.onHost.raiseEv.dropPorts.reviewState

theorem Kept.hostLoseLane {n} (h : Kept q s) : Kept q (s.hostLoseLane n) := h.bump.logEvent.hostToDown

theorem Kept.hostToIdle {n} (h : Kept q s) : Kept q (s.hostToIdle n) := h.onHost.raiseEv.dropPorts

theorem Kept.hostIdleAll (h : Kept q s) : Kept q s.hostIdleAll := h.foldl fun h => .ite h.onHost.hostToIdle h.onHost

theorem Kept.sendBlock {p b inserted} (h : Kept q s) : Kept q (s.sendBlock p b inserted) := h.same

theorem Kept.egressOne {p} (h : Kept q s) : Kept q (s.egressOne p) := by
  unfold State.egressOne
  extract_lets +onlyGivenNames lane w shown c port
  have hs : Kept q shown := .ite h.onPort h
  refine .ite hs.sendBlock ?_
  dsimp only
  split
  · exact hs.onPort.onPort.bumpBy.onPort.ebSlip.sendBlock
  · split
    · exact .ite hs.onPort.onPort.bumpBy.bump.sendBlock
        (.ite hs.onPort.onPort.bumpBy.bump.sendBlock hs.onPort.onPort.bumpBy.onPort.sendBlock)
    · exact hs.onPort.onPort.bumpBy.onPort.sendBlock

theorem Kept.showEye {n lower middle upper} (h : Kept q s) : Kept q (s.showEye n lower middle upper) := h.same

theorem Kept.adaptOn {n} (h : Kept q s) : Kept q (s.adaptOn n) := .ite h h.drew.onHost

theorem Kept.execHostSignalDetect {lane} (h : Kept q s) : KeptOut q (execHostSignalDetect lane s) :=
  .ite (.next h.onHost.onHost.raiseEv) (.next h.onHost)

theorem Kept.execHostAdaptDone {lane lower middle upper} (h : Kept q s) : KeptOut q (execHostAdaptDone lane lower middle upper s)
    :=
  .ite (.ite (.next h.showEye.drew.onHost.raiseEv.reviewState) (.next h.showEye)) (.next h)

theorem Kept.execHostAdaptTimeout {lane} (h : Kept q s) : KeptOut q (execHostAdaptTimeout lane s) :=
  .ite (.next h.bump.hostToDown) (.next h)

theorem Kept.execEmfMeasure {lane lower middle upper} (h : Kept q s) : KeptOut q (execEmfMeasure lane lower middle upper s) :=
  .ite (.next h.showEye) (.ite (.next h) (.next (h.showEye.adaptOn.onHost.when (·.hostLoseLane))))

theorem Kept.execHostLaneDown {lane signal} (h : Kept q s) : KeptOut q (execHostLaneDown lane signal s) :=
  .next (.ite h.onHost.hostLoseLane h.onHost)

theorem Kept.execHostIdleExit {lane quickEmf} (h : Kept q s) : KeptOut q (execHostIdleExit lane quickEmf s) := by
  unfold Machine.execHostIdleExit
  extract_lets +onlyGivenNames host
  refine .ite (.next h) (.ite ?_ (.next h.onHost.hostToDown))
  split
  · exact .ite (.next h.onHost.onHost.raiseEv.reviewState) (.next h.onHost.onHost)
  · exact .next h.onHost.onHost

theorem Kept.execHostFastExitTimeout {lane} (h : Kept q s) : KeptOut q (execHostFastExitTimeout lane s) :=
  .ite (.next h.hostToDown) (.next h)

theorem Kept.execEgressBlockOut {port cyc} (h : Kept q s) : KeptOut q (execEgressBlockOut port cyc s) := by
  unfold Machine.execEgressBlockOut
  dsimp only
  exact .ite (by split; exacts [.next h.egressOne.regenerate, .next h.egressOne]) (.next h)

/-! ## Operations of Machine/Domains.lean -/

theorem Kept.laneOff {n taps cal} (h : Kept q s) : Kept q (s.laneOff n taps cal) := by
  unfold State.laneOff
  exact h.abortCalLane.laneSettled.onTx.onRx

theorem Kept.datapathOff {taps cal} (h : Kept q s) : Kept q (s.datapathOff taps cal) := by
  unfold State.datapathOff
  exact (Kept.poolSettled (h.foldl (·.laneOff))).onDp

theorem Kept.dramOff (h : Kept q s) : Kept q s.dramOff :=
  h.wr.wr.onMemParts (f := fun m => { m with dram := [], dramValid := [], dramEcc := [] }) fun m => { m with
    dram := rfl
    dramValid := rfl
    dramEcc := rfl }

/-! ## Operations of Machine/Mem.lean -/

theorem Kept.setPatrolCode {dram loc code} (h : Kept q s) : Kept q (s.setPatrolCode dram loc code) :=
  h.onMem (State.setPatrolCode_wf _ _ _ _ h.mem)

theorem Kept.patrol {dram loc syn} (h : Kept q s) : Kept q (s.patrol dram loc syn) := by
  unfold State.patrol
  split
  · exact .ite h (.ite h.setPatrolCode (.ite h.corrected h.uncorrectable.setPatrolCode))
  · exact h.corrected.setPatrolCode
  · exact h.drew.uncorrectable.setPatrolCode
  · exact h

theorem Kept.staleBlock {b} (h : Kept q s) : Kept q (s.staleBlock b) := by
  unfold State.staleBlock
  refine h.unless fun h => ?_
  generalize List.range 4096 = bytes, List.range 512 = words
  exact h.dramWrite.drawn.foldl fun h => h.setDramCode.drew

theorem Kept.staleLine {l} (h : Kept q s) : Kept q (s.staleLine l) :=
  .ite h (Kept.foldl (h.onMem (State.setSramValid_wf _ _ h.mem)) fun h => h.setPatrolCode.drew)

theorem Kept.validParity {dram w} (h : Kept q s) : Kept q (s.validParity dram w) :=
  Kept.logEvent (h.foldl fun h => .ite h.staleBlock h.staleLine)

theorem Kept.memClear (h : Kept q s) : Kept q s.memClear := .ite h h.dramClear.wr

theorem Kept.injWrite {v} (h : Kept q s) : Kept q (s.injWrite v) := .ite h.wr.wr.wr h.wr.wr

theorem Kept.takeInjection {addr} (h : Kept q s) : Kept q (s.takeInjection addr).1 := .iteFst h.wr h

theorem Kept.reviewRepair (h : Kept q s) : Kept q s.reviewRepair := h.wr

theorem Kept.addRepair {e} (h : Kept q s) : Kept q (s.addRepair e) := .ite h.onMemRest.reviewRepair h.wr

theorem Kept.writeRepairMap (h : Kept q s) : Kept q s.writeRepairMap := h.wr

/-- A bank takes its pseudo-channel's spare, or is lost. -/
theorem Kept.bankSpared {b} (h : Kept q s) : Kept q (s.onMem fun m => { m with banksSpared := mapSet false m.banksSpared b true }) :=
  h.onMemParts fun m => { m with banksSpared := mapWf_mapSet _ _ b true m.banksSpared }

theorem Kept.bankLost {b} (h : Kept q s) : Kept q (s.onMem fun m => { m with banksLost := mapSet false m.banksLost b true }) :=
  h.onMemParts fun m => { m with banksLost := mapWf_mapSet _ _ b true m.banksLost }

theorem Kept.mapSpare {pc bank source} (h : Kept q s) : Kept q (s.mapSpare pc bank source) :=
  h.wrBit.bankSpared.dramClearBank.addRepair

theorem Kept.bankFail {pc bank} (h : Kept q s) : Kept q (s.bankFail pc bank) :=
  .ite h (.ite h.bankLost.wrBit.wr.setInt.logEvent.reviewLost h.mapSpare.writeRepairMap.bump.setInt.logEvent.rebuildStart)

theorem Kept.execScrubRead {dram loc syndrome parity} (h : Kept q s) : KeptOut q (execScrubRead dram loc syndrome parity s) :=
  .ite (.next h) (.next (Kept.when (.ite h.validParity h) (·.patrol)))

theorem Kept.execMemClearDone (h : Kept q s) : KeptOut q (execMemClearDone s) := .next (.ite h.wr.setInt h)

theorem Kept.execDramBankFail {pc bank} (h : Kept q s) : KeptOut q (execDramBankFail pc bank s) := .next h.bankFail

/-! ## Operations of Machine/Detector.lean -/

theorem Kept.startDestuff {n} (h : Kept q s) : Kept q (s.startDestuff n) := by
  unfold State.startDestuff
  exact Kept.onRx (by split; exacts [h, h.drew])

theorem Kept.trimKept {n} (h : Kept q s) : Kept q (s.trimKept n) := h.same

theorem Kept.fullCodes {codes} (h : Kept q s) : Kept q (s.fullCodes codes).1 := h.same

theorem Kept.execCodewordArrive {lane now burst displaced} (h : Kept q s) : KeptOut q (execCodewordArrive lane now burst displaced
    s) :=
  .ite (.next h) (.next ((Kept.onRx (Kept.fork (.ite h.countSat.countSat.startDestuff h.countSat.countSat) (·.onRx.fullCodes.bump)
    (·.onRx.fullCodes))).onPool.trimKept))

/-! ## Operations of Machine/Pool.lean -/

theorem Kept.onCore {k f} (h : Kept q s) : Kept q (s.onCore k f) := h.same

theorem Kept.reviewCores (h : Kept q s) : Kept q s.reviewCores := Kept.reviewState (.ite h.wr.logEvent h.wr)

theorem Kept.decide_ {e core outcome iter at_ codes bits poison} (h : Kept q s) : Kept q (s.decide_ e core outcome iter at_ codes
    bits poison) :=
  h.raiseMax.same

theorem Kept.decideWork {k w outcome at_} (h : Kept q s) : Kept q (s.decideWork k w outcome at_) := by
  unfold State.decideWork
  exact Kept.onCore (.ite h h.decide_)

theorem Kept.mapOut {k row at_} (h : Kept q s) : Kept q (s.mapOut k row at_) :=
  .ite h ((Kept.wrBit (by split; exacts [h.decideWork, h])).bump.logEvent.reviewCores)

theorem Kept.setBal {n v} (h : Kept q s) : Kept q (s.setBal n v) := h.same

theorem Kept.fund {n} (h : Kept q s) : KeptOpt q (s.fund n) := .ite (.some h.setBal) (.ite (.some h.onPool.setBal.bumpWrap) .none)

theorem Kept.takeFecConfig (h : Kept q s) : Kept q s.takeFecConfig := .ite h ((Kept.onPool (.ite h.setReg h)).poolSettled)

theorem Kept.redistribute (h : Kept q s) : Kept q s.redistribute := h.same

theorem Kept.unqueue {e} (h : Kept q s) : Kept q (s.unqueue e) := h.same

theorem Kept.expireWaiting {e} (h : Kept q s) : Kept q (s.expireWaiting e) := h.unqueue.decide_

theorem Kept.countRecord {d hdrOk} (h : Kept q s) : Kept q (s.countRecord d hdrOk) := by
  unfold State.countRecord
  extract_lets +onlyGivenNames n done bits outcome failed unknown hist
  have hbits : Kept q bits := .ite h.bump64.bump64.bump64 h.bump64.bump64
  have houtcome : Kept q outcome := by
    unfold outcome
    split
    case h_7 => exact hbits
    all_goals exact hbits.bump
  have hhist : Kept q hist := Kept.bump (.ite houtcome.bump houtcome)
  exact .ite hhist.onPen hhist

theorem Kept.keepFailed {d} (h : Kept q s) : Kept q (s.keepFailed d) := .ite h h.onPool.trimKept

theorem Kept.addHistory {d hdrOk lost} (h : Kept q s) : Kept q (s.addHistory d hdrOk lost) := .ite h (.ite h.bump h.onPool)

theorem Kept.noteMiscorr {core mis now} (h : Kept q s) : Kept q (s.noteMiscorr core mis now) := by
  unfold State.noteMiscorr
  split
  · exact h
  · exact .ite h.onCore.mapOut h.onCore

theorem Kept.execPoolTick (h : Kept q s) : KeptOut q (execPoolTick s) :=
  .ite (.next h) (.next ((Kept.takeFecConfig (.ite h.onPool h.onPool)).onPool.wr.wr.wr.redistribute.reviewCores))

theorem Kept.execCoreDispatch {now poison} (h : Kept q s) : KeptOut q (execCoreDispatch now poison s) := by
  unfold Machine.execCoreDispatch
  dsimp only
  split
  · exact .ite (.next h.expireWaiting) (.next (Kept.onCore (h.unqueue.setBal.unless fun h => (Kept.bump (h.foldl
        (·.poisonReadShared))))))
  · exact .next h

theorem Kept.execIterationEnd {core} (h : Kept q s) : KeptOut q (execIterationEnd core s) := by
  unfold Machine.execIterationEnd
  split
  · exact .next h
  · refine .ite (.next h.onCore) (.ite (.next h.decideWork) (.ite (.next h.decideWork) (.ite (.next h.decideWork)
      (.ite (.next h.onCore) ?_))))
    split
    · next e => exact .next (h.fund _ e).onCore
    · exact .next h.decideWork

theorem Kept.execCodewordDeadline {core} (h : Kept q s) : KeptOut q (execCodewordDeadline core s) := by
  unfold Machine.execCodewordDeadline
  split
  · exact .next h
  · exact .ite (.next h) (.next h.decide_.onCore)

theorem Kept.execNotDispatchedExpire (h : Kept q s) : KeptOut q (execNotDispatchedExpire s) := by
  unfold Machine.execNotDispatchedExpire
  split
  · exact .next h.expireWaiting
  · exact .next h

theorem Kept.execCoreStall {core} (h : Kept q s) : KeptOut q (execCoreStall core s) := .ite (.next h.mapOut) (.next h)

theorem Kept.execMessageMemoryUe {core now} (h : Kept q s) : KeptOut q (execMessageMemoryUe core now s) :=
  .ite (.next h) (.ite (.next ((Kept.onCore (by split; exacts [h.drew.drew.uncorrectable.decideWork,
    h.drew.drew.uncorrectable])).mapOut)) (.next (Kept.onCore (by split; exacts [h.drew.drew.uncorrectable.decideWork,
    h.drew.drew.uncorrectable]))))

theorem Kept.execReleaseRecord {poison histLost} (h : Kept q s) : KeptOut q (execReleaseRecord poison histLost s) := by
  unfold Machine.execReleaseRecord
  split
  · exact .next h
  · exact .next ((Kept.countRecord (.ite h.onPool.poisonReadShared h.onPool)).keepFailed.addHistory.onLedger.noteMiscorr)

theorem Kept.execHistoryBurstWritten (h : Kept q s) : KeptOut q (execHistoryBurstWritten s) :=
  .ite (.next h) (.ite (.next h.onPool.bumpBy) (.next (.ite h.onPool.dramWrite.wr.wr h.onPool.dramWrite.wr)))

/-! ## Operations of Machine/Bist.lean -/

theorem Kept.setRun {r} (h : Kept q s) : Kept q (s.setRun r) := h.onMemRest

theorem Kept.sliceSetup {r} (h : Kept q s) : Kept q (s.sliceSetup r) :=
  Kept.when (.ite h.resetEngine.onSafe.reviewSafe h) (·.setReg.setReg)

theorem Kept.sliceStart {r} (h : Kept q s) : Kept q (s.sliceStart r) := h.setRun.sliceSetup

theorem Kept.bistCommand {mask} (h : Kept q s) : Kept q (s.bistCommand mask) := by
  unfold State.bistCommand
  split
  · exact h.sliceStart
  · exact h

theorem Kept.bistRound {trigger} (h : Kept q s) : Kept q (s.bistRound trigger) := h.sliceStart

theorem Kept.repairColumn {m col} (h : Kept q s) : Kept q (s.repairColumn m col).1 := .iteFst h.onMemRest.addRepair h

theorem Kept.repairRow {m row} (h : Kept q s) : Kept q (s.repairRow m row).1 := .iteFst h.onMemRest.addRepair h

theorem Kept.repairBank {pc bank} (h : Kept q s) : Kept q (s.repairBank pc bank).1 := .iteFst h.mapSpare h

theorem Kept.repairAll {α : Type} {fix : State → α → State × Bool} {xs} (h : Kept q s)
    (k : ∀ {t x}, Kept q t → Kept q (fix t x).1) : Kept q (s.repairAll fix xs).1 :=
  h.foldlFst fun h => .iteFst (k h) (k h)

theorem Kept.repairSlice {fs} (h : Kept q s) : Kept q (s.repairSlice fs).1 := by
  unfold State.repairSlice
  dsimp only
  refine .ite (Kept.wr ?_) ?_ <;>
    exact Kept.repairAll (Kept.repairAll (h.repairAll fun h => h.repairColumn) fun h => h.repairRow) fun h => h.repairBank

theorem Kept.reportFails {u before fs} (h : Kept q s) : Kept q (s.reportFails u before fs) :=
  (Kept.wr (.ite (by split; exacts [h.setReg.wr, h.setReg.wr, h]) h)).wr

theorem Kept.sliceContents {u slice} (h : Kept q s) : Kept q (s.sliceContents u slice) :=
  .ite h.onCore (.ite (.ite h.enterSearch h) (.ite (.ite h.startEngine h) (.ite
    (h.onMemParts fun m => { m with
      sramEcc := mapWf_filter _ _ _ m.sramEcc
      sramValid := mapWf_filter _ _ _ m.sramValid })
    (.ite (h.foldl fun h => h.dramClearBank) h))))

theorem Kept.unitConsequence {u result} (h : Kept q s) : Kept q (s.unitConsequence u result) :=
  .ite (.ite h.wrBit.reviewCores h.mapOut) (.ite (.ite h h.laneOff) (.ite h.reviewSafe h))

theorem Kept.setUnit {u t'} (h : Kept q s) : Kept q (s.setUnit u t') := Kept.unitConsequence (.ite h.wr.wr.setInt h.wr.wr)

theorem Kept.setNext {trigger unit slice} (h : Kept q s) : Kept q (s.setNext trigger unit slice) := .ite h h.wr.wr

theorem Kept.runEnd {trigger} (h : Kept q s) : Kept q (s.runEnd trigger) :=
  (Kept.setRun (.ite h h.setReg.setReg)).writeRepairMap.setInt

theorem Kept.unitEnd {r} (h : Kept q s) : Kept q (s.unitEnd r).1 := by
  unfold State.unitEnd
  dsimp only
  split
  · exact (Kept.setNext (.ite h.setUnit.wr h.setUnit.wr.wrBit)).sliceStart
  · exact (Kept.runEnd (.ite h.setUnit.wr h.setUnit.wr.wrBit))

theorem Kept.sliceAbort (h : Kept q s) : Kept q s.sliceAbort := by
  unfold State.sliceAbort
  split
  · exact h
  · exact (Kept.sliceContents (.ite h h.onMemRest)).setUnit.setNext.setRun.writeRepairMap.setInt

theorem Kept.sliceEnd {r rep} (h : Kept q s) : Kept q (s.sliceEnd r rep).1 :=
  .iteFst ((Kept.setNext (h.sliceContents.fork (fun h => Kept.reportFails (.iteFst h.repairSlice h)) fun h => .iteFst
    h.repairSlice h)).sliceStart) (Kept.unitEnd (h.sliceContents.fork (fun h => Kept.reportFails (.iteFst h.repairSlice h)) fun
    h => .iteFst h.repairSlice h))

theorem Kept.bistArgs {mask} (h : Kept q s) : Kept q (s.bistArgs mask) := h.setArg.setArg

/-! ## Operations of Machine/Capture.lean -/

theorem Kept.onCap {f} (h : Kept q s) : Kept q (s.onCap f) := h.same

theorem Kept.capStart (h : Kept q s) : Kept q s.capStart :=
  .ite h.endIfArg (.ite h.endIfArg (.ite h.endIfArg (.ite h.endIfArg (.ite h.onCap.setReg.setReg.capTrigger
    h.onCap.setReg.setReg))))

theorem Kept.capEnd {ring written post status arg0} (h : Kept q s) : Kept q (s.capEnd ring written post status arg0) :=
  h.dramWrite.dramWrite.wr.wr.onCap.logEvent.fork (·.endIf) (·.endIfArg)

theorem Kept.capStop {status arg0} (h : Kept q s) : Kept q (s.capStop status arg0) := .ite h h.drew.drew.same.capEnd

theorem Kept.capAbort (h : Kept q s) : Kept q s.capAbort := h.capStop

theorem Kept.execCaptureEnd {stream overrunPost} (h : Kept q s) : KeptOut q (execCaptureEnd stream overrunPost s) :=
  .ite (.next h) (by split; exacts [.next h.wr.capEnd, .ite (.next h.capEnd) (.next h)])

theorem Kept.execCaptureWaitTimeout (h : Kept q s) : KeptOut q (execCaptureWaitTimeout s) := .next (.ite h.capStop h)

/-! ## Operations of Machine/Gates.lean -/

theorem Kept.stopRun (h : Kept q s) : Kept q s.stopRun := by
  unfold State.stopRun
  split
  · exact h
  · exact .ite h (.ite h.sliceAbort.bistArgs.endIf h.sliceAbort.openFinal)

theorem Kept.gateRun (h : Kept q s) : Kept q s.gateRun := .ite h h.stopRun

theorem Kept.gateClosed {i} (h : Kept q s) : Kept q (s.gateClosed i) := .ite h.stopRun (.ite h.capStop h)

theorem Kept.gateWrite {v inProgress} (h : Kept q s) : Kept q (s.gateWrite v inProgress) := h.setReg.onClk.foldl (·.gateClosed)

theorem Kept.gateDone {i} (h : Kept q s) : Kept q (s.gateDone i) := h.onClk.gateClosed

theorem Kept.gatesDone (h : Kept q s) : Kept q s.gatesDone := h.foldl (·.gateDone)

theorem Kept.execGateCloseForced {gate} (h : Kept q s) : KeptOut q (execGateCloseForced gate s) :=
  .ite (.next h) (.next h.setInt.bump.logEvent.gateDone)

/-! ## Operations of Machine/Hsk.lean -/

theorem Kept.onHsk {f} (h : Kept q s) : Kept q (s.onHsk f) := h.same

theorem Kept.hskBegin {k} (h : Kept q s) : Kept q (s.hskBegin k) := h.auxSettled.same

theorem Kept.hskStart (h : Kept q s) : Kept q s.hskStart := .ite h.hskBegin h

theorem Kept.hskStop (h : Kept q s) : Kept q s.hskStop := h.auxSettled.same

theorem Kept.hskBoundary {last} (h : Kept q s) : Kept q (s.hskBoundary last) := .ite h.raiseEv.hskStop h.raiseEv.hskBegin

theorem Kept.hskEntryEnd (h : Kept q s) : Kept q s.hskEntryEnd := Kept.hskBoundary (.ite h.bump.setInt.raiseEv.raiseEv h)

theorem Kept.hskConvert {n} (h : Kept q s) : Kept q (s.hskConvert n) :=
  Kept.fork (Kept.unless (.ite h.setReg.bump.setInt h.setReg) (·.setInt)) (·.onHsk.hskEntryEnd) (·.onHsk)

theorem Kept.execConversionEnd {n} (h : Kept q s) : KeptOut q (execConversionEnd n s) := .next (.ite h.hskConvert h)

theorem Kept.execHskEntryDelayEnd {poison} (h : Kept q s) : KeptOut q (execHskEntryDelayEnd poison s) :=
  .ite (.next h) (.ite (.next h.logEvent.hskBoundary) (.next h.onHsk))

theorem Kept.execRefReady (h : Kept q s) : KeptOut q (execRefReady s) := .next (.ite h h.wr)

/-! ## Operations of Machine/Therm.lean -/

theorem Kept.onTherm {f} (h : Kept q s) : Kept q (s.onTherm f) := h.same

theorem Kept.setLevel {t'} (h : Kept q s) : Kept q (s.setLevel t') := Kept.unless (.ite h.onTherm.bump h.onTherm) (·.setInt)

theorem Kept.throttle {usable} (h : Kept q s) : Kept q (s.throttle usable) :=
  .ite (Kept.onTherm (.ite h h.setInt.logEvent)).setLevel
    (.ite (.ite h.onTherm.onTherm.setLevel (.ite h.onTherm.onTherm.setLevel h.onTherm))
      (.ite h.onTherm.onTherm.setLevel h.onTherm.setLevel))

theorem Kept.thermalShutdown {k temp two} (h : Kept q s) : Kept q (s.thermalShutdown k temp two) :=
  h.wr.reviewSafe.biasHold.linkStop.onLink.wr.setReg.datapathOff.dramOff.stopSynths.logEvent.dropPower.setDev

theorem Kept.shutdownTest {temps was} (h : Kept q s) : Kept q (s.shutdownTest temps was) :=
  .ite h (by split; exacts [h.thermalShutdown, .ite (by split; exacts [h.thermalShutdown, h]) h])

theorem Kept.suspectEvent {was k} (h : Kept q s) : Kept q (s.suspectEvent was k) := .ite h.bump.setInt.logEvent h

theorem Kept.sensorReading {microvolts} (h : Kept q s) : Kept q (s.sensorReading microvolts) :=
  Kept.shutdownTest ((Kept.throttle ((Kept.onTherm (by split; exacts [h.onTherm.onTherm, h.onTherm])).foldl
    (·.suspectEvent))).foldl (·.dacTempCheck.adcTempCheck))

theorem Kept.execSensorReading {microvolts} (h : Kept q s) : KeptOut q (execSensorReading microvolts s) :=
  .next (.ite h h.sensorReading)

/-! ## Operations of Machine/Reset.lean -/

theorem Kept.dramSoft (h : Kept q s) : Kept q s.dramSoft :=
  h.onMemParts fun m => { m with
    dram := mapWf_filter _ _ _ m.dram
    dramValid := mapWf_filter _ _ _ m.dramValid
    dramEcc := mapWf_filter _ _ _ m.dramEcc
    sramEcc := rfl
    sramValid := rfl
    regEcc := rfl }

theorem Kept.lockDebug (h : Kept q s) : Kept q s.lockDebug := h.wr.wr.same

theorem Kept.softReset {banks} (h : Kept q s) : Kept q (s.softReset banks) := by
  unfold State.softReset
  extract_lets +onlyGivenNames -underBinder locked off
  have hoff : Kept q off := h.lockDebug.datapathOff.biasHold
  clear_value off
  refine Kept.reviewSafe (Kept.when (Kept.setReg (Kept.dramSoft ?_)) (·.appendHeld))
  exact ⟨mapWf_filter _ _ _ hoff.regs, rfl, rfl, hoff.mem, hoff.pending⟩

theorem Kept.hardReset {latch} (h : Kept q s) : Kept q (s.hardReset latch) := by
  unfold State.hardReset
  extract_lets initial boot safe r
  have hr : Kept q r := ⟨rfl, rfl, rfl, State.reset_mem_wf, h.pending⟩
  exact .ite hr.wr.setReg.wr hr

theorem Kept.leaveOff (h : Kept q s) : Kept q s.leaveOff := .ite h.same.setDev h.same

theorem Kept.execVddAonPowerUp (h : Kept q s) : KeptOut q (execVddAonPowerUp s) :=
  .ite (.next h) (.next h.hardReset.same.leaveOff)

theorem Kept.execVddAonFall (h : Kept q s) : KeptOut q (execVddAonFall s) := .ite (.next h) (.next h.hardReset.same)

theorem Kept.execVddAonRemoved (h : Kept q s) : KeptOut q (execVddAonRemoved s) := .next (.ite h h.same)

theorem Kept.execResetNAssert (h : Kept q s) : KeptOut q (execResetNAssert s) := .next h.hardReset.same

theorem Kept.execResetNRelease (h : Kept q s) : KeptOut q (execResetNRelease s) := .ite (.next h) (.next h.same.leaveOff)

/-! ## Operations of Machine/Time.lean -/

theorem Kept.timeWrapped {k} (h : Kept q s) : Kept q (s.timeWrapped k) := .ite h h.onTime.setInt

theorem Kept.timeAdvance {cycles} (h : Kept q s) : Kept q (s.timeAdvance cycles) := h.onTime.timeWrapped

theorem Kept.timeRun {cycles} (h : Kept q s) : Kept q (s.timeRun cycles) := h.timeAdvance.same

theorem Kept.timeRead (h : Kept q s) : Kept q s.timeRead.1 := h.same

theorem Kept.timeShift {d} (h : Kept q s) : Kept q (s.timeShift d) := h.same

theorem Kept.timeStepGo {absolute} (h : Kept q s) : Kept q (s.timeStepGo absolute) := .ite h h.onTime

theorem Kept.timeStepApply (h : Kept q s) : Kept q s.timeStepApply := by
  unfold State.timeStepApply
  split
  · exact h
  · exact (Kept.onTime (.ite h.onTime h.timeShift))

theorem Kept.servoUpdate {theta} (h : Kept q s) : Kept q (s.servoUpdate theta) := .ite h.timeShift.setInt.logEvent h.drew.onTime

theorem Kept.expWrite {v} (h : Kept q s) : Kept q (s.expWrite v) := h.setReg.same

theorem Kept.expAdvance (h : Kept q s) : Kept q s.expAdvance := h.setReg

theorem Kept.ppsEdge {capture} (h : Kept q s) : Kept q (s.ppsEdge capture) := h.setReg.setReg.wr.wr.onTime.setInt.servoUpdate

theorem Kept.ppsClose (h : Kept q s) : Kept q s.ppsClose :=
  h.expAdvance.onTime.unless fun h => h.bump.onTime.when (·.wr.wr.setInt)

theorem Kept.servoWrite {v} (h : Kept q s) : Kept q (s.servoWrite v) := .ite h.servoUpdate h

theorem Kept.servoSource {old} (h : Kept q s) : Kept q (s.servoSource old) := .ite h h.onTime

theorem Kept.execTimeWrap {cycles} (h : Kept q s) : KeptOut q (execTimeWrap cycles s) := .next h.timeRun

theorem Kept.execTimeStepApply {cycles} (h : Kept q s) : KeptOut q (execTimeStepApply cycles s) := .next h.timeRun.timeStepApply

theorem Kept.execTsyncEdge {rising cycles sub} (h : Kept q s) : KeptOut q (execTsyncEdge rising cycles sub s) :=
  .ite (.next h.timeRun) (.ite (.next h.timeRun.bump) (.next h.timeRun.ppsEdge))

theorem Kept.execPpsWindowClose {cycles} (h : Kept q s) : KeptOut q (execPpsWindowClose cycles s) :=
  .ite (.next h.timeRun.ppsClose) (.next h.timeRun)

/-! ## Operations of Machine/Pwr.lean -/

theorem Kept.entryLinkDown (h : Kept q s) : Kept q s.entryLinkDown := by
  unfold State.entryLinkDown
  dsimp only
  split
  · exact h.linkStop.onLink
  · exact h.linkStop.onLink
  · exact h.linkStop.onLink
  · split
    · exact h.linkStop.onLink.onPwr
    · exact h.linkStop.onLink.onPwr
    · exact h.linkStop.onLink.onPwr
    · exact h
  · exact h

theorem Kept.linkRestart (h : Kept q s) : Kept q s.linkRestart := .ite (.ite h.enterStep1 (.ite h.setDev h.enterIdle)) h.enterIdle

theorem Kept.dropHistory (h : Kept q s) : Kept q s.dropHistory := h.bumpBy.same

theorem Kept.prepare (h : Kept q s) : Kept q s.prepare :=
  h.clearAsk.onPwr.fork (fun h => h.hostIdleAll.fork (·.onFramer) (·.onFramer.openFinal)) fun h =>
    h.entryLinkDown.dropHistory.fork (·.openFinal) (·.bistRound.gateRun)

theorem Kept.abortAny (h : Kept q s) : Kept q s.abortAny := by
  unfold State.abortAny
  refine .ite h.abortEntry (.ite h.onFramer.hostExitAll.abortEntry ?_)
  extract_lets +onlyGivenNames aborted
  have ha : Kept q aborted := h.sliceAbort.abortEntry
  split
  case h_4 => exact ha
  all_goals exact .ite ha.linkRestart ha

theorem Kept.granted (h : Kept q s) : Kept q s.granted := .ite h.ask h.prepare

theorem Kept.refused {reason} (h : Kept q s) : Kept q (s.refused reason) :=
  h.setRefuse.bump.setInt.logEvent.fork (·.granted) fun h => Kept.when (h.dropEntry.when (·.onPwr)) (·.failPower)

theorem Kept.delays (h : Kept q s) : Kept q s.delays := h.same

theorem Kept.answer {rxIdleUs dramPending} (h : Kept q s) : Kept q (s.answer rxIdleUs dramPending) := by
  unfold State.answer
  split
  · exact .ite h.refused h.granted
  · exact .ite h.refused (.ite h.delays h.granted)
  · exact .ite h.delays h.granted
  · exact .ite h.refused h.granted
  · exact .ite h.refused h.granted
  · exact .ite h.delays h.granted
  · exact .ite h h.granted
  · exact .ite h.refused (.ite h h.granted)
  · exact .ite h.granted h.raiseEv.onSafe.reviewSafe.granted

theorem Kept.powerAnswer {e ans delayMs} (h : Kept q s) : Kept q (s.powerAnswer e ans delayMs) :=
  h.wr.wr.when fun h => h.wr.raiseEv.fork (·.granted) fun h => .ite h.refused h.delays

theorem Kept.reached_ {pstate dev} (h : Kept q s) : Kept q (s.reached_ pstate dev) :=
  h.endEntry.onPwr.setDev.setInt.when (·.endIf)

theorem Kept.standbyOff (h : Kept q s) : Kept q s.standbyOff := by
  unfold State.standbyOff
  extract_lets +onlyGivenNames -underBinder locked engines held direct
  have hengines : Kept q engines := h.lockDebug.hskStop.foldl fun h => h.when (·.resetEngine)
  have hdirect : Kept q direct := hengines.onSafe.reviewSafe.stopSynths.wr
  exact Kept.onDp (Kept.datapathOff (hdirect.managed.when (·.wr)))

theorem Kept.sleepOff (h : Kept q s) : Kept q s.sleepOff := by
  unfold State.sleepOff
  exact h.softReset.dramOff.same.setReg.onTime.onSafe.reviewSafe.setReg.onPwr

theorem Kept.quietLane {n} (h : Kept q s) : Kept q (s.quietLane n) := .ite (.ite h.holdLoop h) (.ite h h.onRx.holdLoop.onLink)

theorem Kept.quietLaneBack {n} (h : Kept q s) : Kept q (s.quietLaneBack n) := .ite h.closeLoop h

theorem Kept.finalEnd (h : Kept q s) : Kept q s.finalEnd := by
  unfold State.finalEnd
  split
  · exact Kept.reached_ (h.foldl fun h => h.quietLane)
  · exact h.onPwr.standbyOff.reached_
  · exact h.sleepOff.reached_.onPwr

theorem Kept.timeCatchUp (h : Kept q s) : Kept q s.timeCatchUp := h.onTime.timeWrapped

theorem Kept.enginesAgain (h : Kept q s) : Kept q s.enginesAgain := h.foldl fun h => .ite h.startEngine h

theorem Kept.exitDone {dev} (h : Kept q s) : Kept q (s.exitDone dev) := h.endEntry.onPwr.wr.setDev.setInt.when (·.endCmd)

theorem Kept.exitQuiet (h : Kept q s) : Kept q s.exitQuiet :=
  Kept.reviewState (Kept.when (h.exitDone.wr.foldl (·.quietLaneBack)) (·.enterStep1))

/-- The lines of the retention and hold arrays are no longer valid. -/
theorem Kept.linesGone (h : Kept q s) : Kept q (s.onMem fun m =>
    { m with sramValid := [], sramEcc := m.sramEcc.filter fun c => decide (2 ^ 21 ≤ c.1) }) :=
  h.onMemParts fun m => { m with
    sramValid := rfl
    sramEcc := mapWf_filter _ _ _ m.sramEcc }

theorem Kept.exitStandby (h : Kept q s) : Kept q s.exitStandby := by
  unfold State.exitStandby
  extract_lets +onlyGivenNames awake restarted mgmt started
  have hs : Kept q started := Kept.managed h.wr.linesGone.timeCatchUp.exitDone.enginesAgain.hskStart
  exact .ite (.ite hs.enterStep1 (.ite hs.setDev hs)) hs

theorem Kept.exitSleep (h : Kept q s) : Kept q s.exitSleep := h.timeCatchUp.wr.exitDone.evrRestart

theorem Kept.powerStep (h : Kept q s) : Kept q s.powerStep :=
  .ite h (.ite h.failPower (.ite (.ite h.endCmd (.ite h.bump.endCmd (.ite h.wake h.proposeEntry))) (.ite (.ite h.onPwr h) (.ite h
    (.ite h.raiseEv.abortAny.endCmd h.raiseEv.abortAny)))))

theorem Kept.execQuietIdleTimeout (h : Kept q s) : KeptOut q (execQuietIdleTimeout s) := .ite (.next h) (.next h.proposeEntry)

theorem Kept.execStandbyIdleTimeout (h : Kept q s) : KeptOut q (execStandbyIdleTimeout s) :=
  .ite (.next h) (by split; exacts [.next h.proposeEntry, .next h.proposeEntry, .next h.proposeEntry, .next h])

theorem Kept.execParticipantAnswer {rxIdleUs dramPending} (h : Kept q s) : KeptOut q (execParticipantAnswer rxIdleUs dramPending
    s) :=
  .ite (.next h.raiseEv.answer) (.next h)

theorem Kept.execParticipantDelayLimit (h : Kept q s) : KeptOut q (execParticipantDelayLimit s) :=
  .ite (.next ((Kept.raiseEv (.ite h.dropHistory h)).refused)) (.next h)

theorem Kept.execEnginePowerAnswer {e answer delayMs} (h : Kept q s) : KeptOut q (execEnginePowerAnswer e answer delayMs s) :=
  .next (.ite h.powerAnswer h)

theorem Kept.execPowerAnswerTimeout {e} (h : Kept q s) : KeptOut q (execPowerAnswerTimeout e s) :=
  .ite (.next h.wr.raiseEv.granted) (.next h)

theorem Kept.execFinalWindowEnd (h : Kept q s) : KeptOut q (execFinalWindowEnd s) := .next (.ite h.finalEnd h)

theorem Kept.execWakeSource {source} (h : Kept q s) : KeptOut q (execWakeSource source s) := by
  unfold Machine.execWakeSource
  extract_lets +onlyGivenNames t
  have ht : Kept q t := .ite h.onPwr h
  refine .ite (.next ht) ?_
  split
  · exact .next ht
  · exact .next (.ite ht.wake ht)
  · exact .next (.ite ht.raiseEv.onPwr ht)
  · exact .ite (.next (.ite ht.raiseEv.abortAny.wake ht.raiseEv.abortAny)) (.next ht)

theorem Kept.execExitComplete (h : Kept q s) : KeptOut q (execExitComplete s) :=
  .ite (.next h) (.ite (.next h.exitQuiet) (.ite (.next (.ite h h.exitStandby)) (.ite (.next h.exitSleep) (.next h))))

theorem Kept.execReadinessTimeout {source} (h : Kept q s) : KeptOut q (execReadinessTimeout source s) :=
  .ite (.next h) (.next ((Kept.setInt (h.stopSynths.wr.onPwr.wr.wr.bump.when (·.wr))).logEvent))

theorem Kept.execWakeRetry (h : Kept q s) : KeptOut q (execWakeRetry s) := .ite (.next h.startExit) (.next h)

theorem Kept.wakeFailClear (h : Kept q s) : Kept q s.wakeFailClear := .ite h.wr.wr h

theorem Kept.execFollowSquelchEnd (h : Kept q s) : KeptOut q (execFollowSquelchEnd s) := .next h.onPwr

/-! ## Operations of Machine/Commit.lean -/

theorem Kept.refuseField {f} (h : Kept q s) : Kept q (s.refuseField f) := .ite h h.restage.wr

theorem Kept.staging (h : Kept q s) : Kept q s.staging := { h with inForce := h.staged }

theorem Kept.refuseFailedLane (h : Kept q s) : Kept q s.refuseFailedLane := .ite h.refuseField h

theorem Kept.refusePower (h : Kept q s) : Kept q s.refusePower := .ite (h.refuseField.refuseField.foldl (·.refuseField)) h

theorem Kept.refuseGroup (h : Kept q s) : Kept q s.refuseGroup := .ite h (.ite h.wr h.refuseField.wr.wr.logEvent)

theorem Kept.stageScaled {f v lo hi} (h : Kept q s) : Kept q (s.stageScaled f v lo hi) := .ite h.setStaged h.drew.setStaged

theorem Kept.rescaleBias {n} (h : Kept q s) : Kept q (s.rescaleBias n) :=
  .ite h (.ite h.onBias (.ite h.refuseField h.stageScaled.stageScaled.stageScaled))

theorem Kept.refuseWindow {e k} (h : Kept q s) : Kept q (s.refuseWindow e k) := .ite (h.foldl (·.refuseField)) h

theorem Kept.refuseAll (h : Kept q s) : Kept q s.refuseAll :=
  (Kept.foldl (h.refuseFailedLane.refusePower.refuseGroup.foldl (·.rescaleBias))) (·.refuseWindow)

theorem Kept.refApplied (h : Kept q s) : Kept q s.refApplied := h.same.wr.foldl fun h => .ite h h.hostToDown

theorem Kept.refReview (h : Kept q s) : Kept q s.refReview := by
  unfold State.refReview
  split
  · exact .ite h.setInForce.refApplied h
  · exact h

theorem Kept.dropOpen {p} (h : Kept q s) : Kept q (s.dropOpen p) := .ite h h.bump.onPort

theorem Kept.closePorts {new} (h : Kept q s) : Kept q (s.closePorts new) := h.foldl (·.dropOpen)

theorem Kept.framerChange {was} (h : Kept q s) : Kept q (State.framerChange was s) :=
  .ite h.cutSuperframe.onFramer.onLedger (.ite h.onFramer h)

theorem Kept.laneChange {was n} (h : Kept q s) : Kept q (State.laneChange was s n) :=
  .ite (.ite h.laneOff h) (.ite (Kept.onAdc (.ite h.wr h)) (.ite h.wr h))

theorem Kept.receiveChange {was n} (h : Kept q s) : Kept q (State.receiveChange was s n) :=
  .ite h (Kept.fork (.ite (Kept.same (.ite h.onEqu h)) (.ite h.onEqu h)) (·.enterSearch) fun h => h.unless fun h => h.fork
    (·.holdLoop) (·.wr))

theorem Kept.poolGate {was} (h : Kept q s) : Kept q (State.poolGate was s) := .ite h.onPool h

theorem Kept.poolChange {was} (h : Kept q s) : Kept q (State.poolChange was s) := by
  unfold State.poolChange
  exact .ite (.ite h.onPool (Kept.same h)) h

theorem Kept.settleChange {was} (h : Kept q s) : Kept q (State.settleChange was s) :=
  Kept.when (Kept.when (.ite h.auxWaits h) (·.auxWaits)) (·.auxWaits)

theorem Kept.auxChange {was} (h : Kept q s) : Kept q (State.auxChange was s) :=
  (Kept.foldl (Kept.when (.ite h.wr.onHsk h) (·.hskStart))) fun h => .ite h.onBias h

theorem Kept.monitorChange (h : Kept q s) : Kept q s.monitorChange := h.foldl fun h => .ite h h.onPort

theorem Kept.hostChange (h : Kept q s) : Kept q s.hostChange := h.foldl fun h => .ite h h.hostToDown

theorem Kept.bringupIfEnabled (h : Kept q s) : Kept q s.bringupIfEnabled :=
  .ite (.ite h.enterStep1 (.ite h.setDev.reviewState h)) h

theorem Kept.changeStop (h : Kept q s) : Kept q s.changeStop := by
  unfold State.changeStop
  split
  · exact h.linkStop
  · exact h.linkStop
  · exact h.linkStop
  · exact h.linkStop
  · exact h.entryLinkDown
  · exact h

theorem Kept.changeGoOn (h : Kept q s) : Kept q s.changeGoOn := by
  unfold State.changeGoOn
  split
  · exact h.linkRestart
  · exact h.linkRestart
  · exact h.linkRestart
  · exact h.linkRestart
  · exact h.onPwr
  · exact h

theorem Kept.loadConfig {new restart} (h : Kept q s) (hn : regMapWf new = true) : Kept q (s.loadConfig new restart) := by
  unfold State.loadConfig
  extract_lets +onlyGivenNames -underBinder was link group ref stopped closed loaded grouped lanes framed referenced received
    settled sourced going
  have hclosed : Kept q closed := Kept.closePorts (.ite h.changeStop h)
  have hloaded : Kept q loaded := { hclosed with inForce := hn }
  have hgrouped : Kept q grouped := .ite hloaded.applyGrouping hloaded
  have hlanes : Kept q lanes := hgrouped.foldl (·.laneChange)
  have hframed : Kept q framed := hlanes.framerChange.hostChange.monitorChange.reviewLineFault
  have hreferenced : Kept q referenced := .ite hframed.refApplied hframed
  have hreceived : Kept q received := hreferenced.foldl (·.receiveChange)
  have hsourced : Kept q sourced := hreceived.poolGate.poolChange.settleChange.auxChange.servoSource.reviewHostLock
  have hgoing : Kept q going := .ite hsourced.changeGoOn hsourced
  exact hgoing.bringupIfEnabled.patternService.reviewState

theorem Kept.commitDone (h : Kept q s) : Kept q s.commitDone := h.wr.setReg.wr.reviewSettled.setTopInt

theorem Kept.holdRef (h : Kept q s) : Kept q s.holdRef.1 := .iteFst h.same.wr (.iteFst h h.same.wr)

/-- The map that a commit puts in force. -/
theorem Kept.holdRef_map (h : Kept q s) : regMapWf s.holdRef.2 = true := by
  unfold State.holdRef
  dsimp only
  split
  · exact h.staged
  · split
    · exact h.staged
    · exact mapWf_mapSet resetWord _ _ _ h.staged

theorem Kept.applyCommit (h : Kept q s) : Kept q s.applyCommit :=
  (h.wr.wr.refuseAll.holdRef.loadConfig h.wr.wr.refuseAll.holdRef_map).wr.commitDone

theorem Kept.applyLink {enable restart} (h : Kept q s) : Kept q (s.applyLink enable restart) :=
  (h.wr.wr.setStaged.loadConfig (mapWf_mapSet resetWord _ _ _ h.inForce)).commitDone

/-! ## Operations of Machine/Commands.lean -/

/-- What stands in the word behind a register changes. -/
theorem Kept.setRegEcc {a c} (h : Kept q s) : Kept q (s.onMem fun m => { m with regEcc := mapSet 0 m.regEcc a c }) :=
  h.onMemParts fun m => { m with regEcc := mapWf_mapSet _ _ _ _ m.regEcc }

theorem Kept.regReadEcc {a} (h : Kept q s) : Kept q (s.regReadEcc a).1 := .iteFst h h.eccRead.setRegEcc

theorem Kept.argsRead {op} (h : Kept q s) : Kept q (s.argsRead op).1 := h.foldlFst (·.regReadEcc)

theorem Kept.linkBoundary (h : Kept q s) : Kept q s.linkBoundary := by
  unfold State.linkBoundary
  split
  · exact h.linkWaitEnd
  · exact h.same.applyLink.fork (·.linkWaitEnd) fun h => .ite h.setArg.endCmd h

theorem Kept.retrainLanes (h : Kept q s) : Kept q s.retrainLanes := h.foldl fun h => .ite h.orderFull (.ite h.orderFast h)

theorem Kept.resetRegs {as} (h : Kept q s) : Kept q (s.resetRegs as) := h.foldl (·.setReg)

theorem Kept.resetTransmit (h : Kept q s) : Kept q s.resetTransmit := by
  unfold State.resetTransmit
  exact h.resetRegs.cutSuperframe.onFramer

theorem Kept.resetReceive (h : Kept q s) : Kept q s.resetReceive := by
  unfold State.resetReceive
  exact h.resetRegs.onPool.onDp

theorem Kept.resetDatapath (h : Kept q s) : Kept q s.resetDatapath :=
  (Kept.drew (Kept.when (.ite h.resetTransmit h) (·.resetReceive))).setArg.endCmd

theorem Kept.shutdownTail (h : Kept q s) : Kept q s.shutdownTail :=
  Kept.fork (.ite h.same h.logEvent) (·.endIf) (·.endIf.endEntry.proposeEntry)

theorem Kept.shutdownStart (h : Kept q s) : Kept q s.shutdownStart :=
  h.endEntry.onFramer.entryLinkDown.onSafe.reviewSafe.fork (·.bistRound) (·.shutdownTail)

theorem Kept.resetCommand (h : Kept q s) : Kept q s.resetCommand :=
  h.endCmd.endEntry.entryLinkDown.softReset.onPwr.wr.wr.setDev.when (·.evrRestart)

theorem Kept.loadStart (h : Kept q s) : Kept q s.loadStart := by
  unfold State.loadStart
  split
  · exact h.setArg.endCmd
  · exact h.same.wr.wr

theorem Kept.debugChallenge (h : Kept q s) : Kept q s.debugChallenge := (Kept.wr (h.same.foldl (·.setArg))).endCmd

theorem Kept.debugResponse (h : Kept q s) : Kept q s.debugResponse :=
  h.same.wr.fork (·.wr.wr.wr.setInt.endCmd) fun h => (Kept.setInt (.ite h.wr.bump.wr h.wr.bump)).endCmd

theorem Kept.laserAct {lanes on} (h : Kept q s) : Kept q (s.laserAct lanes on) :=
  .ite (.ite h.drew.endIf ((Kept.reviewSafe (h.drew.foldl (·.wrBit.wrBit.wrBit))).endIf)) ((Kept.reviewSafe (h.foldl
    (·.wrBit))).endIf)

theorem Kept.laserReview (h : Kept q s) : Kept q s.laserReview := by
  unfold State.laserReview
  split
  · exact .ite h.onSafe.laserAct h
  · exact h

theorem Kept.laserStart (h : Kept q s) : Kept q s.laserStart := by
  unfold State.laserStart
  exact h.raiseEv.onSafe.laserReview

theorem Kept.cmdRun (h : Kept q s) : Kept q s.cmdRun := by
  unfold State.cmdRun
  extract_lets mgmt taken
  have ht : Kept q taken := h.same
  split
  · exact ht.setArg.endCmd
  · exact ht.same
  · exact ht.retrainLanes.endCmd
  · exact ht.powerStep
  · exact ht.shutdownStart
  · exact ht.resetDatapath
  · exact ht.resetCommand
  · exact ht.capStart
  · exact .ite ht.bistArgs.endCmd ht.bistCommand.gateRun
  · exact ht.loadStart
  · exact ht.debugChallenge
  · exact ht.debugResponse
  · exact ht.wr.endCmd
  · exact ht.laserStart

theorem Kept.takeUp (h : Kept q s) : Kept q s.takeUp := .ite h.cmdRun h

theorem Kept.cmdStops {op} (h : Kept q s) : Kept q (s.cmdStops op) := by
  unfold State.cmdStops
  split
  · exact .ite (.ite h.raiseEv.abortAny h.stopRun) h
  · exact h

theorem Kept.cmdTest {port op} (h : Kept q s) : Kept q (s.cmdTest port op) :=
  h.wr.wr.wr.fork (·.endCmd) fun h => h.fork (·.bump.endCmd) fun h => h.fork (·.argsRead.endCmd) fun h => .ite h.argsRead.endCmd
    h.argsRead.wr.wr.takeUp

theorem Kept.cmdWrite {port op} (h : Kept q s) : Kept q (s.cmdWrite port op) :=
  .ite h.raiseEv.cmdStops.wr h.raiseEv.cmdStops.cmdTest

theorem Kept.command {port op} (h : Kept q s) : Kept q (s.command port op) := .ite h.cmdWrite h

theorem Kept.fuseEnd {result} (h : Kept q s) : Kept q (s.fuseEnd result) := h.wr.wr.setInt

theorem Kept.fuseGo {op} (h : Kept q s) : Kept q (s.fuseGo op) := .ite h.wr (.ite h.wr.same.wr h.wr.fuseEnd)

theorem Kept.fuseDone {progFailed mismatch} (h : Kept q s) : Kept q (s.fuseDone progFailed mismatch) := by
  unfold State.fuseDone
  extract_lets +onlyGivenNames bad hash took drawn f blown
  have hd : Kept q drawn := .ite h.same h
  exact Kept.fuseEnd (Kept.wr (Kept.same hd))

theorem Kept.sliceDone {r rep} (h : Kept q s) : Kept q (s.sliceDone r rep) :=
  .ite h.stopRun (.ite h.sliceEnd (.ite h.sliceEnd.bistArgs.endIf (.ite h.sliceEnd.shutdownTail (.ite h.sliceEnd.openFinal
    h.sliceEnd))))

theorem Kept.execNop {port} (h : Kept q s) : KeptOut q (execNop port s) := .next h.command

theorem Kept.execLink {port} (h : Kept q s) : KeptOut q (execLink port s) := .next h.command

theorem Kept.execRetrain {port} (h : Kept q s) : KeptOut q (execRetrain port s) := .next h.command

theorem Kept.execPower {port} (h : Kept q s) : KeptOut q (execPower port s) := .next h.command

theorem Kept.execShutdown {port} (h : Kept q s) : KeptOut q (execShutdown port s) := .next h.command

theorem Kept.execResetDp {port} (h : Kept q s) : KeptOut q (execResetDp port s) := .next h.command

theorem Kept.execReset {port} (h : Kept q s) : KeptOut q (execReset port s) := .next h.command

theorem Kept.execCapture {port} (h : Kept q s) : KeptOut q (execCapture port s) := .next h.command

theorem Kept.execBist {port} (h : Kept q s) : KeptOut q (execBist port s) := .next h.command

theorem Kept.execImageLoad {port} (h : Kept q s) : KeptOut q (execImageLoad port s) := .next h.command

theorem Kept.execDebugChal {port} (h : Kept q s) : KeptOut q (execDebugChal port s) := .next h.command

theorem Kept.execDebugResp {port} (h : Kept q s) : KeptOut q (execDebugResp port s) := .next h.command

theorem Kept.execDebugLock {port} (h : Kept q s) : KeptOut q (execDebugLock port s) := .next h.command

theorem Kept.execLaser {port} (h : Kept q s) : KeptOut q (execLaser port s) := .next h.command

theorem Kept.execCommandCollide {port opcode} (h : Kept q s) : KeptOut q (execCommandCollide port opcode s) := .next h.command

theorem Kept.execCommandTakeupTimeout (h : Kept q s) : KeptOut q (execCommandTakeupTimeout s) := .next (.ite h.endCmd h)

theorem Kept.execLinkWaitTimeout (h : Kept q s) : KeptOut q (execLinkWaitTimeout s) := .next (.ite h.setArg.endCmd h)

theorem Kept.execLaserTimeout (h : Kept q s) : KeptOut q (execLaserTimeout s) := .next (.ite h.onSafe.endIf h)

theorem Kept.execBistCommandTimeout (h : Kept q s) : KeptOut q (execBistCommandTimeout s) := by
  unfold Machine.execBistCommandTimeout
  split
  · exact .next (.ite h.sliceAbort.bistArgs.endIf h)
  · exact .next h

theorem Kept.execDebugChallengeExpire (h : Kept q s) : KeptOut q (execDebugChallengeExpire s) := .next h.same.wr

theorem Kept.execBistSliceEnd {report} (h : Kept q s) : KeptOut q (execBistSliceEnd report s) := by
  unfold Machine.execBistSliceEnd
  split
  · exact .next h.sliceDone
  · exact .next h

theorem Kept.execFuseOpGo {port op} (h : Kept q s) : KeptOut q (execFuseOpGo port op s) := .next (.ite h.fuseGo h)

theorem Kept.execFuseOpDone {progFailed mismatch} (h : Kept q s) : KeptOut q (execFuseOpDone progFailed mismatch s) :=
  .next (.ite h.fuseDone h)

theorem Kept.execBscanInstruction {drives} (h : Kept q s) : KeptOut q (execBscanInstruction drives s) := .next h.onSafe.reviewSafe

/-! ## Operations of Machine/Pennant.lean -/

theorem Kept.burgeeDiff {soft} (h : Kept q s) : Kept q (s.burgeeDiff soft).1 := h.same

theorem Kept.penBlock {b} (h : Kept q s) : Kept q (s.penBlock b) := by
  unfold State.penBlock
  exact Kept.onPen (h.foldl (·.onRx))

theorem Kept.penBlocks {bs} (h : Kept q s) : Kept q (s.penBlocks bs) := h.foldl (·.penBlock)

theorem Kept.headerBits {c} (h : Kept q s) : Kept q (s.headerBits c).1 := h.same

theorem Kept.penSearch (h : Kept q s) : Kept q s.penSearch := h.same

theorem Kept.burgeeMatched {secondary c} (h : Kept q s) : Kept q (s.burgeeMatched secondary c) :=
  .ite h.onPen (.ite h.bump.onPen h.onPen)

theorem Kept.takeHeader {h'} (h : Kept q s) : Kept q (s.takeHeader h') := h.same

theorem Kept.mailEnd {state} (h : Kept q s) : Kept q (s.mailEnd state) := h.onPen.logEvent.raiseEv

theorem Kept.mailQueue (h : Kept q s) : Kept q s.mailQueue := by
  unfold State.mailQueue
  exact h.queuePen.onPen

theorem Kept.mailRetry (h : Kept q s) : Kept q s.mailRetry := .ite h.mailQueue h.mailEnd

theorem Kept.mailAck {seq status} (h : Kept q s) : Kept q (s.mailAck seq status) := .ite h (.ite h.mailEnd (.ite h.mailRetry h))

theorem Kept.mailAnswer {seq status} (h : Kept q s) : Kept q (s.mailAnswer seq status) := h.queuePen

theorem Kept.mailReceive {seq bytes} (h : Kept q s) : Kept q (s.mailReceive seq bytes) :=
  .ite h.mailAnswer (.ite h.onPen.mailAnswer.logEvent h.bump.mailAnswer)

theorem Kept.step1Pennant {p compat status} (h : Kept q s) : Kept q (s.step1Pennant p compat status) :=
  .ite (.ite h.onLink.logEvent h.onLink) (Kept.tryStep2 (Kept.when (Kept.when (.ite h.onLink.logEvent h.onLink)
    (·.queueAccept.onLink)) (·.onLink)))

theorem Kept.bringupPennant {p} (h : Kept q s) : Kept q (s.bringupPennant p) :=
  .ite h (h.onLink.unless fun h => h.fork (·.step1Pennant) fun h => h.fork (fun h => .ite h.enterStep1.step1Pennant h) fun h =>
    h.when fun h => .ite h.partnerRestart.step1Pennant h.partnerRestart)

theorem Kept.penDispatch {h' payload} (h : Kept q s) : Kept q (s.penDispatch h' payload) := by
  unfold State.penDispatch
  split
  · exact .ite h.bringupPennant h
  · exact h.mailReceive
  · exact h.mailAck
  · exact h.onPen

theorem Kept.penComplete {endUs} (h : Kept q s) : Kept q (s.penComplete endUs) :=
  h.penSearch.fork (·.bump) fun h => h.setReg.fork (·.bump) (·.bump.raiseEv.penDispatch)

theorem Kept.penSend {now} (h : Kept q s) : Kept q (s.penSend now) := by
  unfold State.penSend
  split
  · exact h
  · exact (Kept.onPen (.ite h h.onPen))

theorem Kept.penSent {x nowUs} (h : Kept q s) : Kept q (s.penSent x nowUs) :=
  .ite h.bump.raiseEv.onPen.onLink.tryStep2 h.bump.raiseEv.onPen

theorem Kept.mailSend (h : Kept q s) : Kept q s.mailSend := .ite h h.onPen.mailQueue

theorem Kept.mailAbort (h : Kept q s) : Kept q s.mailAbort := .ite h.mailEnd h

theorem Kept.mailPop (h : Kept q s) : Kept q s.mailPop := h.same

theorem Kept.execPennantPreambleDetect {secondary blocks} (h : Kept q s) : KeptOut q (execPennantPreambleDetect secondary blocks
    s) :=
  .ite (.next h.penBlocks) (.ite (.next h.penBlocks.onPen) (.ite (.next (.ite h.penBlocks h.penBlocks.onPen)) (.next
    h.penBlocks)))

theorem Kept.execBurgeeMatch {secondary blocks} (h : Kept q s) : KeptOut q (execBurgeeMatch secondary blocks s) :=
  .ite (.next h.penBlocks) (by split; exacts [.next h.penBlocks, .next (.ite h.penBlocks.burgeeDiff.burgeeMatched
    h.penBlocks.burgeeDiff)])

theorem Kept.execBurgeeTimeout {blocks} (h : Kept q s) : KeptOut q (execBurgeeTimeout blocks s) := by
  unfold Machine.execBurgeeTimeout
  dsimp only
  split
  · exact .ite (.next h.penBlocks.bump.penSearch) (.next h.penBlocks)
  · exact .next h.penBlocks

theorem Kept.execPennantHeaderReceived {blocks} (h : Kept q s) : KeptOut q (execPennantHeaderReceived blocks s) := by
  unfold Machine.execPennantHeaderReceived
  dsimp only
  split
  · exact .ite (.next (h.penBlocks.fork (·.headerBits.onPen.takeHeader) (·.headerBits.bump.penSearch))) (.next h.penBlocks)
  · exact .next h.penBlocks

theorem Kept.execPennantCapture {blocks} (h : Kept q s) : KeptOut q (execPennantCapture blocks s) := by
  unfold Machine.execPennantCapture
  dsimp only
  split
  · exact .ite (.next (h.penBlocks.headerBits.onPen.when (·.bump.onPen.takeHeader))) (.next h.penBlocks)
  · exact .next h.penBlocks

theorem Kept.execPennantCodewordDecoded {blocks endUs} (h : Kept q s) : KeptOut q (execPennantCodewordDecoded blocks endUs s) :=
    by
  unfold Machine.execPennantCodewordDecoded
  dsimp only
  split
  · exact .ite (.next (.ite h.penBlocks.onPen.penComplete h.penBlocks.onPen)) (.next h.penBlocks)
  · exact .next h.penBlocks

theorem Kept.execPennantTxStart {now} (h : Kept q s) : KeptOut q (execPennantTxStart now s) := .ite (.next h.penSend) (.next h)

theorem Kept.execPennantTxEnd {nowUs} (h : Kept q s) : KeptOut q (execPennantTxEnd nowUs s) := by
  unfold Machine.execPennantTxEnd
  split
  · exact .next h.penSent
  · exact .next h

theorem Kept.execMailAckTimeout (h : Kept q s) : KeptOut q (execMailAckTimeout s) := .ite (.next h.mailRetry) (.next h)

theorem Kept.execTelemetryTimer (h : Kept q s) : KeptOut q (execTelemetryTimer s) := .ite (.next h) (.next h.queuePen.onPen)

/-! ## Operations of Machine/Access.lean -/

theorem Kept.refreshMirror (h : Kept q s) : Kept q s.refreshMirror := h.same

theorem Kept.clearRc {a same} (h : Kept q s) : Kept q (s.clearRc a same) := .ite h h.setReg

theorem Kept.setLatch {k w} (h : Kept q s) : Kept q (s.setLatch k w) := h.same

theorem Kept.latchRead {x inForce a same} (h : Kept q s) : Kept q (s.latchRead x inForce a same).1 :=
  .iteFst h.setLatch (by split; exacts [h.setLatch, h.clearRc])

theorem Kept.pmonRead (h : Kept q s) : Kept q s.pmonRead.1 := h.wr.wr.setReg

theorem Kept.tblAdvance (h : Kept q s) : Kept q s.tblAdvance := h.wr

theorem Kept.dumpRead {k} (h : Kept q s) : Kept q (s.dumpRead k).1 := .iteFst h (.iteFst h (.iteFst h h.dramRead))

theorem Kept.regRead {x inForce a same} (h : Kept q s) : Kept q (s.regRead x inForce a same).1 :=
  .iteFst h.pmonRead (.iteFst h.evrWin0 (.iteFst h.wr (.iteFst h.timeRead (.iteFst h.dumpRead (.iteFst (.iteFst h h.tblAdvance)
    (.iteFst h (.iteFst h.tapRead (.iteFst (.iteFst h.memDataRead h) h.latchRead))))))))

theorem Kept.devRead {x inForce a same} (h : Kept q s) : Kept q (s.devRead x inForce a same).1 := by
  unfold State.devRead
  refine .iteFst h.setTopErr.bump (.iteFst h (.iteFst h.drew.drew ?_))
  extract_lets +onlyGivenNames t
  have ht : Kept q t := .ite h.drew h
  split
  · exact ht.setTopErr
  · exact ht
  · dsimp only
    exact ht.regReadEcc.regRead

theorem Kept.windowRead {a} (h : Kept q s) : Kept q (s.windowRead a).1 := by
  generalize hE : State.windowRead = E
  delta State.windowRead at hE
  subst hE
  beta_reduce
  refine .iteFst h.setTopErr ?_
  have hread := h.dramRead (a := s.winByte a) (n := 4)
  generalize s.dramRead (s.winByte a) 4 = read at hread ⊢
  obtain ⟨t, poison⟩ := read
  exact hread

theorem Kept.busRead {x addr same} (h : Kept q s) : Kept q (s.busRead x addr same).1 :=
  .iteFst h (.iteFst h.windowRead (.iteFst h.devRead h.devRead))

theorem Kept.plainWrite {a v} (h : Kept q s) : Kept q (s.plainWrite a v) :=
  Kept.unless (.ite h h.setStaged) (·.setReg.noticeSummary)

theorem Kept.commitGo {ns} (h : Kept q s) : Kept q (s.commitGo ns) := .ite h h.same.wr

theorem Kept.snapGo {clear} (h : Kept q s) : Kept q (s.snapGo clear) := .ite h h.same.wr

theorem Kept.topWrite {x a v} (h : Kept q s) : KeptOpt q (s.topWrite x a v) :=
  .ite (.some (.ite h.commitGo h)) (.ite (.some (.ite h.snapGo h)) (.ite (.some h.cmdWrite) (.ite (.some (.ite h h.plainWrite))
    (.ite (.some h.setReg) .none))))

theorem Kept.baseWrite {x a v} (h : Kept q s) : KeptOpt q (s.baseWrite x a v) :=
  .ite (.some h.gateWrite) (.ite (.some (Kept.reviewForce (.ite h.plainWrite.refRevert h.plainWrite))) (.ite (.some (.ite h.fuseGo
    h.plainWrite)) (.ite (.some h.evrFreeze) (.ite (.some h.injWrite) (.ite (.some (.ite h.memClear h)) (.ite (.some (.ite
    h.capAbort h)) .none))))))

theorem Kept.linkWrite {a v} (h : Kept q s) : KeptOpt q (s.linkWrite a v) :=
  .ite (.some h.expWrite) (.ite (.some (.ite h h.plainWrite)) (.ite (.some (.ite h.plainWrite.timeStepGo h.plainWrite)) (.ite
    (.some h.servoWrite) (.ite (.some (Kept.when (.ite h.plainWrite.mailSend h.plainWrite) (·.mailAbort))) (.ite (.some h) (.ite
    (.some (.ite h.mailPop h)) .none))))))

theorem Kept.opticalWrite {a v} (h : Kept q s) : KeptOpt q (s.opticalWrite a v) :=
  .ite .none (by split; exacts [.some h.setStaged, .some (.ite h.plainWrite.dacRequest h.plainWrite), .some (.ite
    h.plainWrite.adcRequest h.plainWrite), .some h.tapWrite, .none])

theorem Kept.hostWrite {a v} (h : Kept q s) : KeptOpt q (s.hostWrite a v) :=
  .ite .none (.ite (.some h) (.ite (.some (.ite h.plainWrite.hostToDown h.plainWrite)) (.ite (.some (Kept.when (Kept.when (.ite
    h.plainWrite.prbsSeed h.plainWrite) (·.prbsSlipBit)) (·.prbsSlipSym))) .none)))

theorem Kept.igsWrite {x a v bad} (h : Kept q s) : KeptOpt q (s.igsWrite x a v bad) := by
  unfold State.igsWrite
  refine .ite (.some h.freezeWrite) (.ite .none ?_)
  extract_lets +onlyGivenNames e debug
  split
  · refine .ite (.some h) ?_
    extract_lets +onlyGivenNames halted running
    have hh : Kept q halted := .ite h.engineHalt h
    have hr : Kept q running := .ite hh.engineRun hh
    exact .some (.ite hr.engineRestart hr)
  · exact .some (.ite h.plainWrite h)
  · exact .some (.ite h.raiseEv h)
  · exact .some h.powerAnswer
  · exact .some h.engineLog
  · exact .some (.ite h.plainWrite h)
  · exact .some (.ite h.memDataWrite h)
  · exact .none

theorem Kept.safeRegWrite {x a v} (h : Kept q s) : KeptOpt q (s.safeRegWrite x a v) :=
  .ite .none (.ite (.some h.safeWrite) (.some h.safeReject))

theorem Kept.regWrite {x a v bad} (h : Kept q s) : Kept q (s.regWrite x a v bad) :=
  (h.topWrite.orElse (h.baseWrite.orElse (h.linkWrite.orElse (h.opticalWrite.orElse (h.hostWrite.orElse
    (h.igsWrite.orElse h.safeRegWrite)))))).getD (.ite h.setStaged.tblAdvance h.plainWrite)

theorem Kept.stageDrop (h : Kept q s) : Kept q s.stageDrop := h.setTopErr.bump

theorem Kept.pwrWrite {a v} (h : Kept q s) : Kept q (s.pwrWrite a v) := .ite h.plainWrite.wakeFailClear h.plainWrite

theorem Kept.pwrSettle (h : Kept q s) : Kept q s.pwrSettle := h.same.foldl (·.pwrWrite)

theorem Kept.devWrite {x a v} (h : Kept q s) : Kept q (s.devWrite x a v) := by
  have hd : Kept q (if s.crossesBroken a then s.drew else s) := .ite h.drew h
  exact .ite h.setTopErr.bump (.ite h (.ite h.drew (.ite hd (.ite hd.stageDrop
    (.ite hd.takeInjection.setRegEcc.same hd.takeInjection.setRegEcc.regWrite)))))

theorem Kept.windowWrite {a v} (h : Kept q s) : Kept q (s.windowWrite a v) := by
  unfold State.windowWrite
  dsimp only
  exact .ite h.setTopErr (by split; exacts [h.takeInjection.dramWrite.setDramCode, h.takeInjection.dramWrite])

theorem Kept.busWrite {x addr v} (h : Kept q s) : Kept q (s.busWrite x addr v) :=
  .ite h (.ite h.windowWrite (.ite h.setTopErr h.devWrite))

/-! ## Operations of Machine/IgsBus.lean -/

theorem Kept.drainOne {e ns} (h : Kept q s) : Kept q (s.drainOne e ns) := by
  unfold State.drainOne
  split
  · exact h
  · exact h.onEng.busWrite

theorem Kept.drainAll {e} (h : Kept q s) : Kept q (s.drainAll e) := h.foldl (·.drainOne)

theorem Kept.waitFor {waits} (h : Kept q s) : Kept q (s.waitFor waits).1 := .iteFst h.drew h

theorem Kept.engineRead {e pc a handshake} (h : Kept q s) : Kept q (s.engineRead e pc a handshake).1 :=
  .iteFst h.setTopErr h.busRead

theorem Kept.doBrd {e d a imm handshake} (h : Kept q s) : Kept q (s.doBrd e d a imm handshake) := by
  unfold State.doBrd
  refine h.issue fun h => ?_
  extract_lets +onlyGivenNames addr pc
  split
  · exact h.engineTrap
  · dsimp only
    exact .ite h.waitFor.drainAll.engineRead.setTopErr.engineTrap h.waitFor.drainAll.engineRead.evCount.evCount.complete

theorem Kept.doBwr {e src a imm} (h : Kept q s) : Kept q (s.doBwr e src a imm) := by
  unfold State.doBwr
  dsimp only
  exact h.issue fun h => by split; exacts [h.engineTrap, (Kept.evCount (.ite h.waitFor.drainOne h.waitFor)).evCount.complete]

theorem Kept.execBrd {e d a imm handshake} (h : Kept q s) : KeptOut q (execBrd e d a imm handshake s) :=
  .next (h.whenRuns (·.doBrd))

theorem Kept.execBwr {e src a imm} (h : Kept q s) : KeptOut q (execBwr e src a imm s) := .next (h.whenRuns (·.doBwr))

theorem Kept.execEngineWriteDrain {e nsToBoundary} (h : Kept q s) : KeptOut q (execEngineWriteDrain e nsToBoundary s) :=
  .next h.drainOne

theorem Kept.igsExec {i} (h : Kept q s) : KeptOut q (igsExec i s) := by
  unfold Machine.igsExec
  split
  · exact h.execNopInstruction
  · exact h.execAdd
  · exact h.execSub
  · exact h.execAnd
  · exact h.execOr
  · exact h.execXor
  · exact h.execShl
  · exact h.execShr
  · exact h.execSar
  · exact h.execMul
  · exact h.execSlt
  · exact h.execSltu
  · exact h.execMin
  · exact h.execMax
  · exact h.execAddi
  · exact h.execAndi
  · exact h.execOri
  · exact h.execXori
  · exact h.execShli
  · exact h.execShri
  · exact h.execSari
  · exact h.execMovi
  · exact h.execMovhi
  · exact h.execLd
  · exact h.execSt
  · exact h.execBrd
  · exact h.execBwr
  · exact h.execBeq
  · exact h.execBne
  · exact h.execBlt
  · exact h.execBge
  · exact h.execBltu
  · exact h.execBgeu
  · exact h.execJ
  · exact h.execCall
  · exact h.execRet
  · exact h.execMacc
  · exact h.execMsub
  · exact h.execRdacc
  · exact h.execClracc
  · exact h.execLdacc
  · exact h.execWfe
  · exact h.execTset
  · exact h.execKick
  · exact h.execHalt
  · exact .next h

theorem Kept.stepWord {e} (h : Kept q s) : Kept q (s.stepWord e) := by
  unfold State.stepWord
  dsimp only
  split
  · split
    · next o => exact h.drew.igsExec _ o
    · exact h
  · exact h.issue fun h => h.engineTrap

theorem Kept.engineStep {e} (h : Kept q s) : Kept q (s.engineStep e) :=
  .ite h (Kept.engineHalt (by split; exacts [h.engineRun, h.engineRun.stepWord]))

/-! ## Operations of Machine/Ports.lean -/

theorem Kept.portRead {x addr same} (h : Kept q s) : Kept q (s.portRead x addr same) :=
  Kept.same (.ite h.busRead.setTopErr h.busRead)

theorem Kept.portWrite {x addr v} (h : Kept q s) : Kept q (s.portWrite x addr v) := by
  unfold State.portWrite
  split
  · exact .ite h.busWrite.engineStep h.busWrite
  · exact h.busWrite

theorem Kept.put {port addr v} (h : Kept q s) : Kept q (s.put port addr v) := h.portWrite

theorem Kept.get {port addr} (h : Kept q s) : Kept q (s.get port addr) := h.portRead

theorem Kept.access {port addr x3} (h : Kept q s) : Kept q (s.access port addr x3) := by
  unfold State.access
  split
  · exact h.put
  · exact h.get

theorem Kept.burstRead {port addrs} (h : Kept q s) : Kept q (s.burstRead port addrs) := h.foldl (·.get.same)

theorem Kept.onMgmt {f} (h : Kept q s) : Kept q (s.onMgmt f) := h.same

theorem Kept.mdioBefore {x} (h : Kept q s) : Kept q (s.mdioBefore x) := h.onMgmt

theorem Kept.mdioRead (h : Kept q s) : Kept q s.mdioRead := by
  unfold State.mdioRead
  exact h.get.onMgmt

theorem Kept.mdioWrite {hi} (h : Kept q s) : Kept q (s.mdioWrite hi) := by
  unfold State.mdioWrite
  exact h.put.onMgmt

theorem Kept.setSame {a same} (h : Kept q s) : Kept q (s.setSame a same) := .ite h h.setReg.noticeSummary

theorem Kept.execRegisterWrite {write sameCycle} (h : Kept q s) : KeptOut q (execRegisterWrite write sameCycle s) := by
  unfold Machine.execRegisterWrite
  split
  · exact .next h
  · exact .next (h.put.setSame.foldl (·.put))

theorem Kept.execRcRegisterRead {read sameCycle} (h : Kept q s) : KeptOut q (execRcRegisterRead read sameCycle s) := by
  unfold Machine.execRcRegisterRead
  split
  · exact .next h
  · exact .ite (.next h.portRead) (.next h.portRead.same.burstRead)

theorem Kept.execLoRegisterRead {port addr} (h : Kept q s) : KeptOut q (execLoRegisterRead port addr s) := .next h.get

theorem Kept.execUnmappedAccess {port addr write} (h : Kept q s) : KeptOut q (execUnmappedAccess port addr write s) :=
  .next h.access

theorem Kept.execHandshakeTimeout {port addr} (h : Kept q s) : KeptOut q (execHandshakeTimeout port addr s) :=
  .ite (.next h) (.next (.ite h.setTopErr.onMgmt.onMgmt h.setTopErr.onMgmt))

theorem Kept.execMdioDataLoRead {phy mmd before} (h : Kept q s) : KeptOut q (execMdioDataLoRead phy mmd before s) :=
  .ite (.next (Kept.mdioRead (h.foldl (·.mdioBefore)))) (.next h)

theorem Kept.execMdioDataHiWrite {phy mmd before hi} (h : Kept q s) : KeptOut q (execMdioDataHiWrite phy mmd before hi s) :=
  .ite (.next (Kept.mdioWrite (h.foldl (·.mdioBefore)))) (.next h)

theorem Kept.execDramWindowAccess {port addr write parity} (h : Kept q s) : KeptOut q (execDramWindowAccess port addr write parity
    s) :=
  .next (Kept.access (.ite h.validParity h))

theorem Kept.execPmonDataRead {port} (h : Kept q s) : KeptOut q (execPmonDataRead port s) := .next h.get

theorem Kept.execCommitGo {port nsToBoundary} (h : Kept q s) : KeptOut q (execCommitGo port nsToBoundary s) := .next h.portWrite

theorem Kept.execSnapGo {port clear} (h : Kept q s) : KeptOut q (execSnapGo port clear s) := .next h.put

theorem Kept.execSnapComplete (h : Kept q s) : KeptOut q (execSnapComplete s) :=
  .ite (.next h) (.next h.onMgmt.setReg.wr.setTopInt)

theorem Kept.execRevert {port} (h : Kept q s) : KeptOut q (execRevert port s) := .next h.put

theorem Kept.execClkGateWrite {port value inProgress} (h : Kept q s) : KeptOut q (execClkGateWrite port value inProgress s) :=
  .next h.portWrite

theorem Kept.execWakeFailClear {port} (h : Kept q s) : KeptOut q (execWakeFailClear port s) := .next h.put

theorem Kept.execDacCalRunRequest {port lane} (h : Kept q s) : KeptOut q (execDacCalRunRequest port lane s) := .next h.put

theorem Kept.execAdcCalRunRequest {port lane} (h : Kept q s) : KeptOut q (execAdcCalRunRequest port lane s) := .next h.put

theorem Kept.execTapDataWrite {port lane value} (h : Kept q s) : KeptOut q (execTapDataWrite port lane value s) := .next h.put

theorem Kept.execTapDataRead {port lane} (h : Kept q s) : KeptOut q (execTapDataRead port lane s) := .next h.get

theorem Kept.execHostRxRestart {port lane} (h : Kept q s) : KeptOut q (execHostRxRestart port lane s) := .next h.put

theorem Kept.execPrbsResync {port lane} (h : Kept q s) : KeptOut q (execPrbsResync port lane s) := .next h.put

theorem Kept.execPrbsSlipBit {port lane} (h : Kept q s) : KeptOut q (execPrbsSlipBit port lane s) := .next h.put

theorem Kept.execPrbsSlipSym {port lane} (h : Kept q s) : KeptOut q (execPrbsSlipSym port lane s) := .next h.put

theorem Kept.execMailSend {port lenM1} (h : Kept q s) : KeptOut q (execMailSend port lenM1 s) := .next h.put

theorem Kept.execMailAbort {port} (h : Kept q s) : KeptOut q (execMailAbort port s) := .next h.put

theorem Kept.execMailPop {port} (h : Kept q s) : KeptOut q (execMailPop port s) := .next h.put

theorem Kept.execTimeNowRead {port cycles} (h : Kept q s) : KeptOut q (execTimeNowRead port cycles s) :=
  .next (Kept.get (.ite h h.timeRun))

theorem Kept.execTimeStepGo {port absolute} (h : Kept q s) : KeptOut q (execTimeStepGo port absolute s) := .next h.put

theorem Kept.execServoOfsWrite {port value} (h : Kept q s) : KeptOut q (execServoOfsWrite port value s) := .next h.put

theorem Kept.execMemClearGo {port} (h : Kept q s) : KeptOut q (execMemClearGo port s) := .next h.put

theorem Kept.execMemInjArm {port value} (h : Kept q s) : KeptOut q (execMemInjArm port value s) := .next h.put

theorem Kept.execEngineHaltRequest {port e} (h : Kept q s) : KeptOut q (execEngineHaltRequest port e s) := .next h.put

theorem Kept.execEngineRunRequest {port e} (h : Kept q s) : KeptOut q (execEngineRunRequest port e s) := .next h.put

theorem Kept.execEngineStepRequest {port e} (h : Kept q s) : KeptOut q (execEngineStepRequest port e s) := .next h.put

theorem Kept.execEngineRestart {port e} (h : Kept q s) : KeptOut q (execEngineRestart port e s) := .next h.put

theorem Kept.execEngineDoorbell {e} (h : Kept q s) : KeptOut q (execEngineDoorbell e s) := .next (.ite h.raiseEv h)

theorem Kept.execEngineLogWrite {e code arg} (h : Kept q s) : KeptOut q (execEngineLogWrite e code arg s) := .next h.busWrite

theorem Kept.execEngineMemDataAccess {port e write} (h : Kept q s) : KeptOut q (execEngineMemDataAccess port e write s) :=
  .next h.access

theorem Kept.execIgsFreezeWrite {port value} (h : Kept q s) : KeptOut q (execIgsFreezeWrite port value s) := .next h.put

theorem Kept.execEvrWin0Read {port} (h : Kept q s) : KeptOut q (execEvrWin0Read port s) := .next h.get

theorem Kept.execEvrWin3Read {port} (h : Kept q s) : KeptOut q (execEvrWin3Read port s) := .next h.get

theorem Kept.execEvrFreezeWrite {port freeze} (h : Kept q s) : KeptOut q (execEvrFreezeWrite port freeze s) := .next h.put

theorem Kept.execCaptureAbort {port} (h : Kept q s) : KeptOut q (execCaptureAbort port s) := .next h.put

/-! ## Operations of Machine/Boot.lean -/

theorem Kept.onBoot {f} (h : Kept q s) : Kept q (s.onBoot f) := h.same

theorem Kept.bootStep {p step} (h : Kept q s) : Kept q (s.bootStep p step) := h.onBoot.wr

theorem Kept.loadBytes {a words bs} (h : Kept q s) : Kept q (s.loadBytes a words bs) := h.foldl (·.setReg)

theorem Kept.takeSpares {es} (h : Kept q s) : Kept q (s.takeSpares es) := by
  refine h.onMem (State.foldl_wf _ (fun m e k => ?_) es _ h.mem)
  split
  · exact k
  · split
    · exact k
    · exact k

theorem Kept.fuseLoad {checkOk} (h : Kept q s) : Kept q (s.fuseLoad checkOk) :=
  Kept.fork (h.wr.wr.wr.wr.wr.loadBytes.loadBytes.loadBytes.wr.wr.foldl (·.wr)) (·.onMemRest.takeSpares.takeSpares)
    (·.onMemRest.takeSpares.onMemRest)

theorem Kept.afterCheckers (h : Kept q s) : Kept q s.afterCheckers := by
  unfold State.afterCheckers
  split
  · exact h.onBoot.bootStep
  · exact h.onBoot.bootStep
  · exact h.bootStep

theorem Kept.checkersPass (h : Kept q s) : Kept q s.checkersPass := Kept.afterCheckers (.ite h.wr.onEvr h.wr.onEvr.appendHeld)

theorem Kept.checkersFail {k} (h : Kept q s) : Kept q (s.checkersFail k) := h.wr.wr.wr.logEvent.fatal

theorem Kept.mapBanks {es} (h : Kept q s) : Kept q (s.mapBanks es) := h.foldl fun h => .ite h.wrBit.bankSpared h

theorem Kept.dramInit {ok} (h : Kept q s) : Kept q (s.dramInit ok) :=
  .ite (.ite h.wr.wr.mapBanks.setInt h.wr.wr.mapBanks) h.wr.wr.logEvent

theorem Kept.undoImage (h : Kept q s) : Kept q s.undoImage := by
  unfold State.undoImage
  extract_lets +onlyGivenNames -underBinder unwritten stopped cleared idle
  have hu : Kept q unwritten := h.foldl fun h => .ite h.setStaged.setReg h.setStaged
  have hs : Kept q stopped := hu.resetEngine
  have hc : Kept q cleared := hs.same
  exact hc.onBoot.onSafe.reviewSafe

theorem Kept.bootFailed {step} (h : Kept q s) : Kept q (s.bootFailed step) := h.wr.setInt.bootStep

theorem Kept.bootFail {step} (h : Kept q s) : Kept q (s.bootFail step) := by
  unfold State.bootFail
  dsimp only
  split
  · exact h.undoImage.logEvent.wr.bootFailed.endIfArg
  · exact h.undoImage.logEvent.wr.fork (·.onBoot.bootStep.wr) fun h => h.bootFailed.when (·.setInt)
  · exact h.undoImage.logEvent.wr.bootFailed.when (·.setInt)

theorem Kept.configPair {p} (h : Kept q s) : Kept q (s.configPair p) :=
  .ite h.plainWrite.onBoot (.ite h.onBoot.regWrite (Kept.unless (.ite h h.setStaged.onBoot) (·.onBoot)))

theorem Kept.heldPair {p} (h : Kept q s) : Kept q (s.heldPair p) := .ite h.pwrWrite h.regWrite

theorem Kept.engineRecord {b} (h : Kept q s) : Kept q (s.engineRecord b) := .ite h.onEng.startEngine h.onEng

theorem Kept.actRecord {r} (h : Kept q s) : Kept q (s.actRecord r) := by
  unfold State.actRecord
  split
  · exact h.onBoot.foldl (·.configPair)
  · exact h.onBoot.engineRecord
  · exact .ite h.onBoot.safeRecord h.onBoot
  · exact h.onBoot

theorem Kept.repairRecord {b} (h : Kept q s) : Kept q (s.repairRecord b) :=
  .ite h (by split; exacts [h, h.onMemRest.reviewRepair.takeSpares.when (·.mapBanks)])

theorem Kept.endRecord (h : Kept q s) : Kept q s.endRecord := .ite h.bootFail (.ite h.bootStep h.bootFail)

theorem Kept.takeFrame {r} (h : Kept q s) : Kept q (s.takeFrame r) := by
  unfold State.takeFrame
  refine .ite h.bootFail ?_
  split
  · exact h.bootFail
  · split
    · exact h.onBoot.onBoot.bootStep
    · exact h.onBoot.endRecord
    · exact h.onBoot.repairRecord
    · exact .ite h.onBoot.onBoot.actRecord h.onBoot.onBoot

theorem Kept.badFrame {f} (h : Kept q s) : Kept q (s.badFrame f) := by
  unfold State.badFrame
  split
  · exact h.bootFail
  · exact (Kept.onBoot (.ite h.wr h))

theorem Kept.readRecord {reads poison} (h : Kept q s) : Kept q (s.readRecord reads poison) :=
  .ite h.bootFail (by split; exacts [h.takeFrame, by split; exacts [h.badFrame, h]])

theorem Kept.dramFrame (h : Kept q s) : Kept q s.dramFrame.1 := h.dramRead

theorem Kept.checkSignature (h : Kept q s) : Kept q s.checkSignature := by
  unfold State.checkSignature
  split
  · exact h
  · exact .ite (h.onBoot.bootStep.foldl (·.actRecord)) h.bootFail

theorem Kept.checkHeader {h' poison} (h : Kept q s) : Kept q (s.checkHeader h' poison) :=
  .ite h.bootFail (by split; exacts [h.bootFail, h.onBoot.bootStep])

theorem Kept.igsReports (h : Kept q s) : Kept q s.igsReports :=
  (Kept.drew (h.foldl fun h => .ite h.wrBit h)).onSafe.reviewSafe.laserReview

theorem Kept.startEngines (h : Kept q s) : Kept q s.startEngines := h.foldl fun h => .ite h.startEngine h

theorem Kept.commitOneApply (h : Kept q s) : Kept q s.commitOneApply := by
  unfold State.commitOneApply
  extract_lets +onlyGivenNames -underBinder applied held started
  have happlied : Kept q applied := h.wr.applyCommit
  have hheld : Kept q held := happlied.foldl (·.heldPair)
  have hstarted : Kept q started := hheld.wr.startEngines
  clear_value started
  exact hstarted.managed.onBoot.bootStep.wr.wr.wr.wr.wr.setInt.setDev.bringupIfEnabled.hskStart.endIf

theorem Kept.reloadPair {which p} (h : Kept q s) : Kept q (State.reloadPair which s p) :=
  .ite h.plainWrite (.ite (.ite h.setStaged.setInForce.tblAdvance h.setStaged.setInForce) h)

theorem Kept.zeroBoth {as} (h : Kept q s) : Kept q (s.zeroBoth as) := h.foldl (·.setStaged.setInForce)

theorem Kept.reloadBank {rs k} (h : Kept q s) : Kept q (s.reloadBank rs k) := by
  unfold State.reloadBank
  split
  · exact h.zeroBoth.onDp.foldl (·.reloadPair)
  · exact h.onDp
  · exact h.onDp
  · exact h.evrRestart
  · exact h.zeroBoth.foldl (·.reloadPair)
  · exact Kept.when ((Kept.foldl (h.foldl (·.onEng))) (·.onEng)) (·.onSafe.reviewSafe)

theorem Kept.bankFailed {k} (h : Kept q s) : Kept q (s.bankFailed k) := h.wrBit.setInt.logEvent

theorem Kept.reloadFails (h : Kept q s) : Kept q s.reloadFails := h.failPower.endEntry.onPwr.setDev.onBoot.bootStep.setInt

theorem Kept.verifyBanks {failed} (h : Kept q s) : Kept q (s.verifyBanks failed) :=
  Kept.fork (h.wr.wr.onPwr.foldl (·.bankFailed)) (fun h => by split; exacts [h.foldl (·.reloadBank), (Kept.reloadFails (h.foldl
    (·.reloadBank)))]) fun h => h.foldl (·.reloadBank)

theorem Kept.execStrapSample {bootsel maddr pclass safedef} (h : Kept q s) : KeptOut q (execStrapSample bootsel maddr pclass
    safedef s) :=
  .ite (.next h) (.next (Kept.fork (.ite h.setReg.wr h.setReg) (·.setDev) (·.bootStep)))

theorem Kept.execFuseLoad {checkOk} (h : Kept q s) : KeptOut q (execFuseLoad checkOk s) := .next (.ite h.fuseLoad.bootStep h)

theorem Kept.execCheckerSelfTest {failing} (h : Kept q s) : KeptOut q (execCheckerSelfTest failing s) :=
  .ite (.next h) (by split; exacts [.next h.checkersFail, .next h.checkersPass])

theorem Kept.execDramInitDone {ok} (h : Kept q s) : KeptOut q (execDramInitDone ok s) := .next (.ite h.dramInit h)

theorem Kept.execNvmDiscovery {erase4k headerAt0 headerAt8M} (h : Kept q s) : KeptOut q (execNvmDiscovery erase4k headerAt0
    headerAt8M s) :=
  .ite (.next h) (.ite (.next h.onBoot.bootStep) (.next h.onBoot.bootFail))

theorem Kept.execHeaderCheck {bytes secondaryMagic poison} (h : Kept q s) : KeptOut q (execHeaderCheck bytes secondaryMagic poison
    s) :=
  .ite (.next h) (.ite (.next h.dramRead.checkHeader) (.next h.onBoot.checkHeader))

theorem Kept.execRecordRead {reads poison} (h : Kept q s) : KeptOut q (execRecordRead reads poison s) :=
  .ite (.next h) (.ite (.next h.dramFrame.readRecord) (.next h.readRecord))

theorem Kept.execSignatureCheck (h : Kept q s) : KeptOut q (execSignatureCheck s) := .next (.ite h.checkSignature h)

theorem Kept.execIgsReportsRunning (h : Kept q s) : KeptOut q (execIgsReportsRunning s) :=
  .ite (.next h) (.ite (.next (.ite h.igsReports.bootStep h)) (.next h.igsReports))

theorem Kept.execIgsStartTimeout (h : Kept q s) : KeptOut q (execIgsStartTimeout s) := .next (.ite h.bootFail h)

theorem Kept.execRetentionVerify {failed} (h : Kept q s) : KeptOut q (execRetentionVerify failed s) :=
  .next (.ite h.verifyBanks h)

/-! ## Operations of Machine/Boundary.lean -/

theorem Kept.clearCounter {a} (h : Kept q s) : Kept q (s.clearCounter a) := .ite h (.ite h.setReg h.setReg)

theorem Kept.snapCapture (h : Kept q s) : Kept q s.snapCapture := .ite h (.ite (h.same.foldl (·.clearCounter)) h.same)

theorem Kept.boundaryCommit (h : Kept q s) : Kept q s.boundaryCommit := .ite h (.ite h.same h.applyCommit)

theorem Kept.boundary (h : Kept q s) : Kept q s.boundary := h.snapCapture.bumpWrap.linkBoundary.boundaryCommit.refReview

theorem Kept.timePass {parts} (h : Kept q s) : Kept q (s.timePass parts) := h.timeAdvance.same

theorem Kept.aonTime (h : Kept q s) : Kept q s.aonTime := .ite h h.timePass

theorem Kept.aonCount (h : Kept q s) : Kept q s.aonCount := h.same

theorem Kept.aonBoundary (h : Kept q s) : Kept q s.aonBoundary := .ite h (.ite h.snapCapture.bumpWrap.commitOneApply h.boundary)

theorem Kept.heldExit (h : Kept q s) : Kept q s.heldExit := .ite h.onPwr.wake h

theorem Kept.aonCycle {oscCount} (h : Kept q s) : Kept q (s.aonCycle oscCount) :=
  (Kept.aonBoundary (h.aonCount.aonTime.heldExit.pwrSettle.gatesDone.unless (·.oscCheck))).takeUp.powerStep.refreshMirror

theorem Kept.tickTime (h : Kept q s) : Kept q s.tickTime := by
  unfold State.tickTime
  exact h.timePass.onFramer.onTime

theorem Kept.loadCorrections (h : Kept q s) : Kept q s.loadCorrections := .ite h h.onDp

theorem Kept.beginSuperframe (h : Kept q s) : Kept q s.beginSuperframe :=
  .ite (.ite h.onFramer h) (by split; exacts [.ite h.onFramer.openFinal h.onFramer, h.onFramer, .ite h.onFramer (.ite h.onFramer
    h)])

theorem Kept.freshSuperframe (h : Kept q s) : Kept q s.freshSuperframe := by
  unfold State.freshSuperframe
  exact h.onFramer.onFramer.onDp

theorem Kept.superframeEvents (h : Kept q s) : Kept q s.superframeEvents := .ite (h.foldl (·.raiseEv)) h

theorem Kept.dropCut (h : Kept q s) : Kept q s.dropCut := .ite h (Kept.onFramer (h.foldl (·.forgetSuperframe)))

theorem Kept.newSuperframe (h : Kept q s) : Kept q s.newSuperframe := h.tickTime.boundary.dropCut.beginSuperframe

theorem Kept.timerTick (h : Kept q s) : Kept q s.timerTick :=
  (Kept.reviewFaultEnd (Kept.fork (h.foldl (·.laneEnds.receiveEnds)) (·.newSuperframe.freshSuperframe.tryLinked)
    (·.newSuperframe.freshSuperframe))).loadCorrections.superframeEvents

theorem Kept.execAlwaysOnCycle {oscCount} (h : Kept q s) : KeptOut q (execAlwaysOnCycle oscCount s) := .next (.ite h.aonCycle h)

theorem Kept.execSuperframeTimerTick (h : Kept q s) : KeptOut q (execSuperframeTimerTick s) := .next (.ite h.timerTick h)

/-! ## Operations of Machine/DumpWrite.lean -/

/-- The words a dump's view reads, one address after the other. -/
theorem Kept.viewed {l : List Nat} (h : Kept q s) (ws : Array Word) (n : Nat) :
    Kept q (l.foldl (fun (acc : State × Array Word × Nat) a =>
      let out := acc.1.viewTimesOut a
      let (s, w, poison) := acc.1.devRead (Source.ofEngine 0 0 40) true a 0
      (s, acc.2.1.push (if poison || out then 0 else w), if out then acc.2.2 + 1 else acc.2.2)) (s, ws, n)).1 := by
  induction l generalizing s ws n with
  | nil => exact h
  | cons a l ih => exact ih h.devRead _ _

/-- What a function makes of its results leaves the state they hold. -/
theorem Kept.keepFst {α β : Type} {r : State × α} {g : State × α → β} (h : Kept q r.1) :
    Kept q (let r := r; (r.1, g r)).1 := h

theorem Kept.viewSection (h : Kept q s) : Kept q s.viewSection.1 := by
  unfold State.viewSection
  generalize (dumpBlocks.flatMap fun b => (List.range 2048).map fun k => b + 4 * k) = addresses
  exact Kept.keepFst (g := fun r => (wordBytes r.2.1.toList, r.2.2)) (h.viewed #[] 0)

theorem Kept.dumpSections (h : Kept q s) : Kept q s.dumpSections.1 := by
  have hview : Kept q ({ s with draws := s.draws + 468 }).viewSection.1 := h.drawn.viewSection
  unfold State.dumpSections
  generalize ({ s with draws := s.draws + 468 }).viewSection = view at hview ⊢
  obtain ⟨t, two, outs⟩ := view
  exact hview.drawn

theorem Kept.dumpPut {lo bs} (h : Kept q s) : Kept q (s.dumpPut lo bs) :=
  .ite h.same (h.onMemParts fun m => { m with
    dram := mapWf_blit _ _ m.dram
    dramEcc := mapWf_filter _ _ _ m.dramEcc
    dramValid := mapWf_foldl_mapSet _ _ _ _ m.dramValid })

theorem Kept.dumpFinish {partialDump} (h : Kept q s) : Kept q (s.dumpFinish partialDump) := by
  have hsections := h.dumpSections
  generalize hE : State.dumpFinish = E
  delta State.dumpFinish at hE
  subst hE
  beta_reduce
  generalize s.dumpSections = sections at hsections ⊢
  obtain ⟨t, secs, outs⟩ := sections
  dsimp -zeta only
  extract_lets +onlyGivenNames -underBinder bad part status head put headed
  have hput : Kept q put := hsections.drew.foldl fun h => by split; exacts [h.dumpPut, h]
  have hheaded : Kept q headed := hput.dumpPut
  clear_value headed
  exact (hheaded.same (t := { headed with dump := _ })).wr.wr.wr.wr.setInt.logEvent

theorem Kept.execDumpComplete {partialDump} (h : Kept q s) : KeptOut q (execDumpComplete partialDump s) :=
  .next (.ite h.dumpFinish h)

theorem Kept.execDramControllerFatal {pc} (h : Kept q s) : KeptOut q (execDramControllerFatal pc s) := .next (.ite h.fatal h)

/-! ## Operations of Machine/Ptp.lean -/

theorem Kept.patchBlocks {toLine p ws} (h : Kept q s) : Kept q (s.patchBlocks toLine p ws) := by
  unfold State.patchBlocks
  dsimp only
  exact .ite (h.onPort.onFramer.onDp.onLedger.foldl (·.storeWrite)) h.onPort

theorem Kept.ptpIngress {toLine port place cycles} (h : Kept q s) : Kept q (s.ptpIngress toLine port place cycles) := by
  unfold State.ptpIngress
  dsimp only
  split
  · exact .ite h.bump h.patchBlocks.onTime
  · exact h

theorem Kept.ptpCorrect {b p e r toLine} (h : Kept q s) : Kept q (s.ptpCorrect b p e r toLine).1 :=
  Kept.bump (.ite (Kept.bump (.iteFst h.drew h)) (.iteFst h.drew h))

theorem Kept.ptpEgress {f port p e i t' v} (h : Kept q s) : Kept q (s.ptpEgress f port p e i t' v) := by
  unfold State.ptpEgress
  exact (Kept.patchBlocks (.iteFst h.bump h.ptpCorrect)).onTime

theorem Kept.execPtpIngressStamp {toLine port place cycles} (h : Kept q s) : KeptOut q (execPtpIngressStamp toLine port place
    cycles s) :=
  .ite (.next h.ptpIngress) (.next h)

theorem Kept.execPtpEgressCorrect {toLine port cycles} (h : Kept q s) : KeptOut q (execPtpEgressCorrect toLine port cycles s) :=
    by
  unfold Machine.execPtpEgressCorrect
  split
  · split
    · exact .next h.onTime.ptpEgress
    · exact .next h.onTime
  · exact .next h

/-! ## A step -/

theorem Kept.exec {i} (h : Kept q s) : KeptOut q (exec i s) := by
  unfold Machine.exec
  cases i with
  | vddAonPowerUp => exact h.execVddAonPowerUp
  | vddAonRemoved => exact h.execVddAonRemoved
  | resetNAssert => exact h.execResetNAssert
  | resetNRelease => exact h.execResetNRelease
  | strapSample => exact h.execStrapSample
  | fuseLoad => exact h.execFuseLoad
  | checkerSelfTest => exact h.execCheckerSelfTest
  | dramInitDone => exact h.execDramInitDone
  | nvmDiscovery => exact h.execNvmDiscovery
  | headerCheck => exact h.execHeaderCheck
  | recordRead => exact h.execRecordRead
  | signatureCheck => exact h.execSignatureCheck
  | igsReportsRunning => exact h.execIgsReportsRunning
  | igsStartTimeout => exact h.execIgsStartTimeout
  | alwaysOnCycle => exact h.execAlwaysOnCycle
  | superframeTimerTick => exact h.execSuperframeTimerTick
  | commitGo => exact h.execCommitGo
  | snapGo => exact h.execSnapGo
  | snapComplete => exact h.execSnapComplete
  | pmonDataRead => exact h.execPmonDataRead
  | registerWrite => exact h.execRegisterWrite
  | rcRegisterRead => exact h.execRcRegisterRead
  | loRegisterRead => exact h.execLoRegisterRead
  | unmappedAccess => exact h.execUnmappedAccess
  | handshakeTimeout => exact h.execHandshakeTimeout
  | mdioDataLoRead => exact h.execMdioDataLoRead
  | mdioDataHiWrite => exact h.execMdioDataHiWrite
  | dramWindowAccess => exact h.execDramWindowAccess
  | nop => exact h.execNop
  | link => exact h.execLink
  | retrain => exact h.execRetrain
  | power => exact h.execPower
  | shutdown => exact h.execShutdown
  | resetDp => exact h.execResetDp
  | reset => exact h.execReset
  | capture => exact h.execCapture
  | bist => exact h.execBist
  | imageLoad => exact h.execImageLoad
  | debugChal => exact h.execDebugChal
  | debugResp => exact h.execDebugResp
  | debugLock => exact h.execDebugLock
  | laser => exact h.execLaser
  | commandCollide => exact h.execCommandCollide
  | commandTakeupTimeout => exact h.execCommandTakeupTimeout
  | linkWaitTimeout => exact h.execLinkWaitTimeout
  | debugChallengeExpire => exact h.execDebugChallengeExpire
  | fuseOpGo => exact h.execFuseOpGo
  | fuseOpDone => exact h.execFuseOpDone
  | bscanInstruction => exact h.execBscanInstruction
  | hostRsCodeword => exact h.execHostRsCodeword
  | portAmLockLoss => exact h.execPortAmLockLoss
  | portAmLockReturn => exact h.execPortAmLockReturn
  | localFaultBlockInsert => exact h.execLocalFaultBlockInsert
  | slotDecision => exact h.execSlotDecision
  | controlMessageCapture => exact h.execControlMessageCapture
  | dacCalRunRequest => exact h.execDacCalRunRequest
  | dacCalRunEnd => exact h.execDacCalRunEnd
  | lanePowerUp => exact h.execLanePowerUp
  | adcCalRunRequest => exact h.execAdcCalRunRequest
  | adcCalPeriodExpire => exact h.execAdcCalPeriodExpire
  | adcCalOfflineDone => exact h.execAdcCalOfflineDone
  | adcCalShadowDone => exact h.execAdcCalShadowDone
  | adcCalStepEnd => exact h.execAdcCalStepEnd
  | cdrFallbackLimit => exact h.execCdrFallbackLimit
  | cdrLockChange => exact h.execCdrLockChange
  | pilotPeakFound => exact h.execPilotPeakFound
  | pilotPlateauNoPeak => exact h.execPilotPlateauNoPeak
  | pilotUpdate => exact h.execPilotUpdate
  | throttlePauseEnd => exact h.execThrottlePauseEnd
  | acquireTimeout => exact h.execAcquireTimeout
  | tapSwitch => exact h.execTapSwitch
  | fastRetrainPilotFound => exact h.execFastRetrainPilotFound
  | tapDataWrite => exact h.execTapDataWrite
  | tapDataRead => exact h.execTapDataRead
  | controlMessageAccept => exact h.execControlMessageAccept
  | codewordArrive => exact h.execCodewordArrive
  | poolTick => exact h.execPoolTick
  | coreDispatch => exact h.execCoreDispatch
  | iterationEnd => exact h.execIterationEnd
  | codewordDeadline => exact h.execCodewordDeadline
  | notDispatchedExpire => exact h.execNotDispatchedExpire
  | coreStall => exact h.execCoreStall
  | messageMemoryUe => exact h.execMessageMemoryUe
  | releaseRecord => exact h.execReleaseRecord
  | historyBurstWritten => exact h.execHistoryBurstWritten
  | handOn => exact h.execHandOn
  | holdVerifyRead => exact h.execHoldVerifyRead
  | unitExpire => exact h.execUnitExpire
  | unitDueRelease => exact h.execUnitDueRelease
  | lineFaultOnset => exact h.execLineFaultOnset
  | bankRebuildDone => exact h.execBankRebuildDone
  | inviteTimer => exact h.execInviteTimer
  | partnerAbsentTimeout => exact h.execPartnerAbsentTimeout
  | bringupStepTimeout => exact h.execBringupStepTimeout
  | partnerLossTimeout => exact h.execPartnerLossTimeout
  | ensignCheck => exact h.execEnsignCheck
  | relockTimeout => exact h.execRelockTimeout
  | fullRetrainTimeout => exact h.execFullRetrainTimeout
  | windowCheckDone => exact h.execWindowCheckDone
  | lineSignalDetect => exact h.execLineSignalDetect
  | hostSignalDetect => exact h.execHostSignalDetect
  | hostAdaptDone => exact h.execHostAdaptDone
  | hostAdaptTimeout => exact h.execHostAdaptTimeout
  | emfMeasure => exact h.execEmfMeasure
  | hostLaneDown => exact h.execHostLaneDown
  | hostRxRestart => exact h.execHostRxRestart
  | hostIdleExit => exact h.execHostIdleExit
  | hostFastExitTimeout => exact h.execHostFastExitTimeout
  | egressBlockOut => exact h.execEgressBlockOut
  | prbsResync => exact h.execPrbsResync
  | prbsSlipBit => exact h.execPrbsSlipBit
  | prbsSlipSym => exact h.execPrbsSlipSym
  | prbsCheckLock => exact h.execPrbsCheckLock
  | prbsLockLoss => exact h.execPrbsLockLoss
  | pennantPreambleDetect => exact h.execPennantPreambleDetect
  | burgeeMatch => exact h.execBurgeeMatch
  | burgeeTimeout => exact h.execBurgeeTimeout
  | pennantHeaderReceived => exact h.execPennantHeaderReceived
  | pennantCapture => exact h.execPennantCapture
  | pennantCodewordDecoded => exact h.execPennantCodewordDecoded
  | pennantTxStart => exact h.execPennantTxStart
  | pennantTxEnd => exact h.execPennantTxEnd
  | mailSend => exact h.execMailSend
  | mailAbort => exact h.execMailAbort
  | mailAckTimeout => exact h.execMailAckTimeout
  | mailPop => exact h.execMailPop
  | telemetryTimer => exact h.execTelemetryTimer
  | timeWrap => exact h.execTimeWrap
  | timeNowRead => exact h.execTimeNowRead
  | timeStepGo => exact h.execTimeStepGo
  | timeStepApply => exact h.execTimeStepApply
  | ptpIngressStamp => exact h.execPtpIngressStamp
  | ptpEgressCorrect => exact h.execPtpEgressCorrect
  | tsyncEdge => exact h.execTsyncEdge
  | ppsWindowClose => exact h.execPpsWindowClose
  | servoOfsWrite => exact h.execServoOfsWrite
  | monWindowEnd => exact h.execMonWindowEnd
  | refclkLoss => exact h.execRefclkLoss
  | synthRelock => exact h.execSynthRelock
  | revert => exact h.execRevert
  | trimMeasure => exact h.execTrimMeasure
  | rampStep => exact h.execRampStep
  | pllUnlock => exact h.execPllUnlock
  | clkGateWrite => exact h.execClkGateWrite
  | gateCloseForced => exact h.execGateCloseForced
  | quietIdleTimeout => exact h.execQuietIdleTimeout
  | standbyIdleTimeout => exact h.execStandbyIdleTimeout
  | participantAnswer => exact h.execParticipantAnswer
  | participantDelayLimit => exact h.execParticipantDelayLimit
  | finalWindowEnd => exact h.execFinalWindowEnd
  | wakeSource => exact h.execWakeSource
  | exitComplete => exact h.execExitComplete
  | retentionVerify => exact h.execRetentionVerify
  | readinessTimeout => exact h.execReadinessTimeout
  | wakeRetry => exact h.execWakeRetry
  | wakeFailClear => exact h.execWakeFailClear
  | followSquelchEnd => exact h.execFollowSquelchEnd
  | conversionEnd => exact h.execConversionEnd
  | hskEntryDelayEnd => exact h.execHskEntryDelayEnd
  | refReady => exact h.execRefReady
  | biasUpdate => exact h.execBiasUpdate
  | biasCurrentLimit => exact h.execBiasCurrentLimit
  | sensorReading => exact h.execSensorReading
  | txdisChange => exact h.execTxdisChange
  | scrubRead => exact h.execScrubRead
  | memClearGo => exact h.execMemClearGo
  | memClearDone => exact h.execMemClearDone
  | memInjArm => exact h.execMemInjArm
  | dramBankFail => exact h.execDramBankFail
  | bistSliceEnd => exact h.execBistSliceEnd
  | nopInstruction => exact h.execNopInstruction
  | add => exact h.execAdd
  | sub => exact h.execSub
  | and => exact h.execAnd
  | or => exact h.execOr
  | xor => exact h.execXor
  | shl => exact h.execShl
  | shr => exact h.execShr
  | sar => exact h.execSar
  | mul => exact h.execMul
  | slt => exact h.execSlt
  | sltu => exact h.execSltu
  | min => exact h.execMin
  | max => exact h.execMax
  | addi => exact h.execAddi
  | andi => exact h.execAndi
  | ori => exact h.execOri
  | xori => exact h.execXori
  | shli => exact h.execShli
  | shri => exact h.execShri
  | sari => exact h.execSari
  | movi => exact h.execMovi
  | movhi => exact h.execMovhi
  | ld => exact h.execLd
  | st => exact h.execSt
  | brd => exact h.execBrd
  | bwr => exact h.execBwr
  | engineWriteDrain => exact h.execEngineWriteDrain
  | beq => exact h.execBeq
  | bne => exact h.execBne
  | blt => exact h.execBlt
  | bge => exact h.execBge
  | bltu => exact h.execBltu
  | bgeu => exact h.execBgeu
  | j => exact h.execJ
  | call => exact h.execCall
  | ret => exact h.execRet
  | macc => exact h.execMacc
  | msub => exact h.execMsub
  | rdacc => exact h.execRdacc
  | clracc => exact h.execClracc
  | ldacc => exact h.execLdacc
  | wfe => exact h.execWfe
  | tset => exact h.execTset
  | kick => exact h.execKick
  | halt => exact h.execHalt
  | dumpComplete => exact h.execDumpComplete
  | engineTimerExpire => exact h.execEngineTimerExpire
  | engineWatchdogExpire => exact h.execEngineWatchdogExpire
  | engineHaltRequest => exact h.execEngineHaltRequest
  | engineRunRequest => exact h.execEngineRunRequest
  | engineStepRequest => exact h.execEngineStepRequest
  | engineRestart => exact h.execEngineRestart
  | engineDoorbell => exact h.execEngineDoorbell
  | enginePowerAnswer => exact h.execEnginePowerAnswer
  | engineLogWrite => exact h.execEngineLogWrite
  | engineMemDataAccess => exact h.execEngineMemDataAccess
  | igsFreezeWrite => exact h.execIgsFreezeWrite
  | eventAccept => exact h.execEventAccept
  | evrWin0Read => exact h.execEvrWin0Read
  | evrWin3Read => exact h.execEvrWin3Read
  | evrFreezeWrite => exact h.execEvrFreezeWrite
  | captureEnd => exact h.execCaptureEnd
  | captureAbort => exact h.execCaptureAbort
  | captureWaitTimeout => exact h.execCaptureWaitTimeout
  | lineSignalLoss => exact h.execLineSignalLoss
  | dramControllerFatal => exact h.execDramControllerFatal
  | bistCommandTimeout => exact h.execBistCommandTimeout
  | laserTimeout => exact h.execLaserTimeout
  | powerAnswerTimeout => exact h.execPowerAnswerTimeout
  | vddAonFall => exact h.execVddAonFall
  | illegalInstruction => exact h.execIllegalInstruction

/-- A step leaves the registers and memories canonical and takes the front command off the queue. -/
theorem kept_of_step {t : State} (h : Kept s.pending s) (e : step s = .next t) : Kept s.pending.tail t := by
  unfold step at e
  split at e
  next hnil =>
    cases e
    rwa [hnil] at h ⊢
  next c rest hcons =>
    rw [hcons]
    have htail : Kept rest { s with pending := rest } := ⟨h.regs, h.staged, h.inForce, h.mem, rfl⟩
    exact htail.exec t e

/-- Settles O56: each operation keeps the canonical form, so each command does (`Kept.exec`). -/
theorem canonicalFormIsKept : Obligations.CanonicalFormIsKept := by
  unfold Obligations.CanonicalFormIsKept
  intro s t hcanon hmem e
  simp only [State.canonical, Bool.and_eq_true] at hcanon
  obtain ⟨⟨hregs, hstaged⟩, hinForce⟩ := hcanon
  have k := kept_of_step ⟨hregs, hstaged, hinForce, hmem, rfl⟩ e
  exact ⟨by simp only [State.canonical, k.regs, k.staged, k.inForce, Bool.and_self], k.mem⟩

end Sys2Proof.Machine
end

section
/-!
What a hard reset leaves (R8, R10, R425), and what a change of device state adds to it (R266).
-/

namespace Sys2Proof.Machine

namespace State

/-! ## The reset state -/

theorem reg_reset (a : Nat) : State.reset.reg a = resetWord a := rfl

theorem stagedReg_reset (a : Nat) : State.reset.stagedReg a = resetWord a := rfl

theorem inForceReg_reset (a : Nat) : State.reset.inForceReg a = resetWord a := rfl

/-! ## A change of device state -/

/-- Logging an event leaves all registers alone but the recorder's drop count and flag, and the engines'. -/
theorem reg_logEvent {s : State} {src code x y a : Nat} (hdrop : a ≠ R.EVR_DROP_CNT) (hint : a ≠ R.EVR_INT) (heng : ¬ engReg a) :
    (s.logEvent src code x y).reg a = s.reg a := by
  unfold logEvent
  split
  · rfl
  · split
    · have hset := (setInt_touches (s.bump R.EVR_DROP_CNT) F.EVR_INT_drop).2.1 a (by rintro (h | h) <;> contradiction)
      exact hset.trans (reg_bumpBy_ne _ _ _ _ hdrop)
    · rfl

theorem reg_raiseEv {s : State} {e : Fin 9} {i a : Nat} (heng : ¬ engReg a) : (s.raiseEv e i).reg a = s.reg a :=
  (raiseEv_touches s e i).2.1 a heng

theorem setDev_mgmt {s : State} {d : DevState} (h : s.mgmt.dev ≠ d) :
    (s.setDev d).mgmt = { s.mgmt with dev := d, prev := s.mgmt.dev } := by
  unfold setDev
  rw [if_neg h, (raiseEv_touches _ _ _).1 .mgmt (by simp), (logEvent_touches _ _ _ _ _).1 .mgmt (by simp),
    (setTopInt_touches _ _).1 .mgmt (by simp)]

theorem not_engReg_top_int : ¬ engReg R.TOP_INT := by
  simp [engReg, R.TOP_INT]

theorem flag_congr {s t : State} {f : RField} (h : t.reg f.addr = s.reg f.addr) : t.flag f = s.flag f := by
  simp only [flag, rd, h]

/-- A one-bit field that is set reads set. -/
theorem flag_wr_one {s : State} {f : RField} (hw : f.width = 1) (hlo : f.lo < 32) : (s.wr f 1).flag f = true := by
  rw [flag, rd_wr_same _ _ _ (by omega), hw]
  rfl

/-- A change of device state sets TOP_INT.state_chg. -/
theorem setDev_state_chg {s : State} {d : DevState} (h : s.mgmt.dev ≠ d) : (s.setDev d).flag F.TOP_INT_state_chg = true := by
  unfold setDev
  rw [if_neg h, flag_congr (reg_raiseEv not_engReg_top_int),
    flag_congr (reg_logEvent (by decide) (by decide) not_engReg_top_int)]
  have hset (s : State) : s.setTopInt F.TOP_INT_state_chg = s.wr F.TOP_INT_state_chg 1 := by
    have hne : F.TOP_INT_state_chg ≠ F.TOP_INT_commit_done := by decide
    simp [setTopInt, hne]
  rw [hset]
  exact flag_wr_one rfl (by decide)

end State

/-! ## O55 -/

/-- Settles O55, by evaluation of the state right after reset. -/
theorem resetState : Obligations.ResetState := by
  unfold Obligations.ResetState
  refine ⟨fun a => ⟨rfl, rfl, rfl⟩, by decide, by decide, rfl, by decide, by decide, by decide, by decide, rfl, rfl, fun a => rfl,
    rfl, State.reset_mem_wf⟩

/-! ## Hard reset -/

namespace State

variable {s : State} {latch : Bool}

/-- Where the latch is kept, it, its reading and its fault are written back. -/
theorem hardReset_true : s.hardReset true =
    (((s.hardReset false).wr F.THERM_STAT_shut_latched (s.rd F.THERM_STAT_shut_latched)).setReg R.THERM_SHUT_INFO
      (s.reg R.THERM_SHUT_INFO)).wr F.SAFE_FAULT_thermal (s.rd F.SAFE_FAULT_thermal) := rfl

theorem reg_hardReset {a : Nat} (hstat : a ≠ R.THERM_STAT) (hinfo : a ≠ R.THERM_SHUT_INFO) (hfault : a ≠ R.SAFE_FAULT) :
    (s.hardReset latch).reg a = resetWord a := by
  cases latch
  · rfl
  · rw [hardReset_true, reg_wr_ne _ _ _ _ hfault, reg_setReg_ne _ _ _ _ hinfo, reg_wr_ne _ _ _ _ hstat]
    rfl

/-- A field written with its old value reads its old value. -/
theorem rd_wr_rd {u : State} {f : RField} (h : f.lo + f.width ≤ 32) : (u.wr f (s.rd f)).rd f = s.rd f := by
  rw [rd_wr_same _ _ _ h]
  exact Nat.mod_eq_of_lt (getField_lt _ _ _)

theorem flag_latched_hardReset :
    (s.hardReset latch).flag F.THERM_STAT_shut_latched = (latch && s.flag F.THERM_STAT_shut_latched) := by
  cases latch
  · exact (flag_congr (s := State.reset) rfl).trans (by decide : State.reset.flag F.THERM_STAT_shut_latched = false)
  · rw [hardReset_true, Bool.true_and, flag, rd_wr_addr _ _ _ _ (by decide),
      show ∀ (u : State) v, (u.setReg R.THERM_SHUT_INFO v).rd F.THERM_STAT_shut_latched = u.rd F.THERM_STAT_shut_latched from
        fun u v => congrArg (getField · _ _) (reg_setReg_ne u _ _ v (by decide)), rd_wr_rd (by decide)]
    rfl

theorem flag_fault_hardReset : (s.hardReset latch).flag F.SAFE_FAULT_thermal = (latch && s.flag F.SAFE_FAULT_thermal) := by
  cases latch
  · exact (flag_congr (s := State.reset) rfl).trans (by decide : State.reset.flag F.SAFE_FAULT_thermal = false)
  · rw [hardReset_true, Bool.true_and, flag, rd_wr_rd (by decide)]
    rfl

theorem reg_info_hardReset : (s.hardReset true).reg R.THERM_SHUT_INFO = s.reg R.THERM_SHUT_INFO := by
  rw [hardReset_true, reg_wr_ne _ _ _ _ (by decide), reg_setReg_same]

end State

section
variable {s t : State} {latch : Bool}

/-- The state of a hard reset that is OFF, with the boot sequencer at rest. -/
theorem hardResetOf_off {b : Boot} (hf : b.fuses = s.boot.fuses) (hr : b.nvmRepair = s.boot.nvmRepair) (hp : b.phase = .reset) :
    Claims.hardResetOf s { s.hardReset latch with boot := b, mgmt := { State.reset.mgmt with dev := .off } } latch false := by
  refine ⟨fun a h1 h2 h3 _ => State.reg_hardReset h1 h2 h3, fun a => ?_, State.flag_latched_hardReset, State.flag_fault_hardReset,
    fun h _ => ?_, hf, hr, hp, ?_⟩
  · cases latch <;> exact ⟨rfl, rfl⟩
  · subst h
    exact State.reg_info_hardReset
  · cases latch <;> exact ⟨rfl, rfl, rfl, rfl, rfl, rfl, rfl, .inr ⟨rfl, rfl⟩, rfl, rfl, rfl, rfl, rfl, rfl, nofun⟩

/-- Going on to BOOT adds what a change of device state does. -/
theorem hardResetOf_boots (h : Claims.hardResetOf s t latch false) : Claims.hardResetOf s (t.setDev .boot) latch true := by
  obtain ⟨hreg, hcopies, hlatched, hfault, hinfo, hfuses, hrepair, hphase, hsafe, hpwr, hclk, hhsk, hbias, htherm, hmem, -, hcap,
    hdump, hdp, hmgmt, hpending, hdev, -⟩ := h
  have hne : t.mgmt.dev ≠ .boot := by simp [hdev]
  obtain ⟨hparts, hregs, hq⟩ := State.setDev_touches t .boot
  have kept {a : Nat} (h : a < 0xD1000) (h1 : a ≠ R.TOP_INT) (h2 : a ≠ R.EVR_DROP_CNT) (h3 : a ≠ R.EVR_INT) :
      (t.setDev .boot).reg a = t.reg a := hregs a (by simp only [noticeReg, engReg]; omega)
  have same (p : Part) (h : p ∉ [Part.mgmt, .eng, .evr]) : p.Same t (t.setDev .boot) := hparts p h
  have hboot : (t.setDev .boot).boot = t.boot := same .boot (by decide)
  refine ⟨fun a h1 h2 h3 h4 => ?_, fun a => ?_, ?_, ?_, fun h1 h2 => ?_, hboot ▸ hfuses, hboot ▸ hrepair, hboot ▸ hphase,
    (same .safe (by decide)).trans hsafe, (same .pwr (by decide)).trans hpwr, (same .clk (by decide)).trans hclk,
    (same .hsk (by decide)).trans hhsk, (same .bias (by decide)).trans hbias, (same .therm (by decide)).trans htherm,
    (same .mem (by decide)).trans hmem, .inl rfl, (same .cap (by decide)).trans hcap, (same .dump (by decide)).trans hdump,
    (same .dp (by decide)).trans hdp, ?_, hq.trans hpending, State.setDev_dev _ _, fun _ => State.setDev_state_chg hne⟩
  · rw [hregs a fun hn => h4 ⟨rfl, hn⟩]
    exact hreg a h1 h2 h3 (by simp)
  · rw [State.stagedReg, State.inForceReg, same .staged (by decide), same .inForce (by decide)]
    exact hcopies a
  · rw [State.flag_congr (kept (by decide) (by decide) (by decide) (by decide))]
    exact hlatched
  · rw [State.flag_congr (kept (by decide) (by decide) (by decide) (by decide))]
    exact hfault
  · rw [kept (by decide) (by decide) (by decide) (by decide)]
    exact hinfo h1 h2
  · rw [State.setDev_mgmt hne, hdev, hmgmt]
    rfl

end

/-- With VDD_AON up and RESET_N high, the device goes on to BOOT (R266). -/
theorem State.leaveOff_boots {t : State} (hup : t.boot.aonUp = true) (hlow : t.boot.resetLow = false) :
    t.leaveOff = { t with mgmt := { t.mgmt with dev := .off, prev := .off } }.setDev .boot := if_pos ⟨hup, by simp [hlow]⟩

theorem State.leaveOff_stays {t : State} (hlow : t.boot.resetLow = true) :
    t.leaveOff = { t with mgmt := { t.mgmt with dev := .off, prev := .off } } := if_neg (by simp [hlow])

theorem State.setDev_boot {s : State} {d : DevState} : (s.setDev d).boot = s.boot := (setDev_touches s d).1 .boot (by decide)

/-- The state in which VDD_AON comes up, with RESET_N at the level `low`. -/
def State.poweredUp (s : State) (latch low : Bool) : State :=
  { s.hardReset latch with boot := { (s.hardReset latch).boot with resetLow := low } }

theorem State.poweredUp_aonUp {s : State} {latch low : Bool} : (s.poweredUp latch low).boot.aonUp = true := by
  cases latch <;> rfl

/-- OFF, a power-up has left what a hard reset leaves. -/
theorem hardResetOf_poweredUp {s : State} {latch low : Bool} :
    Claims.hardResetOf s { s.poweredUp latch low with mgmt := { (s.poweredUp latch low).mgmt with dev := .off, prev := .off } }
      latch false := by
  cases latch <;> exact hardResetOf_off rfl rfl rfl

theorem hardResetOf_powerUp {s : State} {latch low : Bool} :
    Claims.hardResetOf s (s.poweredUp latch low).leaveOff latch (!low) ∧ (s.poweredUp latch low).leaveOff.boot.aonUp = true
      ∧ (s.poweredUp latch low).leaveOff.boot.resetLow = low := by
  cases low
  · rw [State.leaveOff_boots State.poweredUp_aonUp rfl, State.setDev_boot]
    exact ⟨hardResetOf_boots hardResetOf_poweredUp, State.poweredUp_aonUp, rfl⟩
  · rw [State.leaveOff_stays rfl]
    exact ⟨hardResetOf_poweredUp, State.poweredUp_aonUp, rfl⟩

/-- Settles O12: each of the three commands is `State.hardReset`; a power-up with RESET_N high goes on to BOOT. -/
theorem hardResets : Obligations.HardResets := by
  unfold Obligations.HardResets
  refine fun s => ⟨fun hdown => ⟨_, if_neg (by simp [hdown]), ?_⟩, fun hup => ⟨_, if_neg (by simp [hup]), ?_⟩, ⟨_, rfl, ?_⟩⟩
  · exact hardResetOf_powerUp
  · exact ⟨hardResetOf_off rfl rfl rfl, rfl, rfl⟩
  · exact ⟨hardResetOf_off rfl rfl rfl, rfl, rfl⟩

end Sys2Proof.Machine
end

section
/-!
A read of FRAMER_QUEUE_HWM while units wait in the ready queue: the largest depth since the last read is at once the depth
that stands (R74), so the field does not read 0 after it.
-/

namespace Sys2Proof.Machine

/-- The device after hard reset, with one unit in the ready queue of FRAMER. -/
def oneUnitReady : State := { State.reset with dp := { State.reset.dp with framer := { Framer.initial with
  ready := [{ port := 0, epoch := 0, blocks := [], done := 0, start := 0 }] } } }

/-- The read of FRAMER_QUEUE_HWM on port 2 (SPI), in whose cycle hardware adds nothing. -/
def readQueueHwm (s : State) : State := s.portRead (Source.ofPort 2 40 0) F.FRAMER_QUEUE_HWM_hwm.addr 0

theorem oneUnitReady_ready : oneUnitReady.ready 2 F.FRAMER_QUEUE_HWM_hwm.addr = true := by decide

/-- After the read the field holds the depth of the queue. -/
theorem rd_hwm_readQueueHwm : (readQueueHwm oneUnitReady).rd F.FRAMER_QUEUE_HWM_hwm = 1 := by decide

theorem exec_readQueueHwm (s : State) :
    exec (.rcRegisterRead (.word 2 (BitVec.ofNat 32 F.FRAMER_QUEUE_HWM_hwm.addr)) (0 : Word).toNat) s = .next (readQueueHwm s) := rfl

/-- Refutes O17: with a unit in the ready queue, FRAMER_QUEUE_HWM does not clear to what hardware adds in the cycle of the
read. -/
theorem not_portAccesses : ¬ Obligations.PortAccesses := by
  unfold Obligations.PortAccesses
  rintro ⟨h, -⟩
  obtain ⟨-, -, -, hread, -⟩ := h oneUnitReady 2 0 0
  obtain ⟨t, hnext, -, hclear, -⟩ := hread F.FRAMER_QUEUE_HWM_hwm (by simp) oneUnitReady_ready rfl
  rw [exec_readQueueHwm] at hnext
  cases hnext
  rw [rd_hwm_readQueueHwm] at hclear
  exact absurd hclear (by decide)

end Sys2Proof.Machine
end

section
/-!
What the acceptance of a control message leaves alone (R39): the registers that its operations may write, and, operation by
operation, what is known of the partner and of the units that have been sent.
-/

namespace Sys2Proof.Machine

/-! ## What the acceptance keeps -/

/-- What the last accepted message has told of the partner, with the superframe count that each lane expects (R39, R161). -/
structure PartnerNews where
  step : Nat
  status : Nat
  seenAt : Option Nat
  txLanes : Nat
  retrainReq : Nat
  expected : Vector (Option Nat) 8

def Datapath.news (d : Datapath) : PartnerNews :=
  ⟨d.link.peerStep, d.link.peerStatus, d.link.peerSeenAt, d.link.peerTx, d.framer.peerReq, d.rx.map (·.expSfc)⟩

/-- Which halves of the ledger run, and what the transmit half holds of the units that may still be asked for (R170). -/
structure SendWindow where
  rxRun : Bool
  txRun : Bool
  retryOn : Bool
  next : Nat
  lastAck : Nat
  retained : List (Nat × Option Nat)

def Ledger.window (l : Ledger) : SendWindow :=
  ⟨l.rxRun, l.txRun, l.retryOn, l.txNext, l.lastAck, l.retention.map fun r => (r.seq, r.t1)⟩

/-- What an accepted message has told, and the transmit half's window. -/
def Datapath.tidings (d : Datapath) : PartnerNews × SendWindow := (d.news, d.ledger.window)

/-- The tidings, and the step of the bring-up. -/
def Datapath.course (d : Datapath) : (PartnerNews × SendWindow) × Nat := (d.tidings, d.link.step)

/-- The registers that the acceptance of a message may write: the ledger's, the lanes' counts of stuff mismatches, and those of an
event that is noticed. -/
def acceptReg (a : Nat) : Prop :=
  (0x310000 ≤ a ∧ a < 0x310200) ∨ (∃ k : Fin 8, a = R.OLn_DET_STUFF_MM k) ∨ noticeReg a

/-- Since `s₀`, only what the acceptance of a message may touch has changed, and the datapath looks the same to `v`. -/
structure Since {α : Type} (v : Datapath → α) (s₀ s : State) : Prop where
  touches : Touches [.dp, .mgmt, .eng, .evr] acceptReg s₀ s
  view : v s.dp = v s₀.dp

/-- The datapath is replaced. -/
theorem State.dp_touches (s : State) (d : Datapath) : Touches [.dp] (fun _ => False) s { s with dp := d } :=
  ⟨fun p hp => by
    cases p with
    | dp => simp at hp
    | engStore => exact fun _ => rfl
    | _ => rfl, fun _ _ => rfl, rfl⟩

section
variable {α β : Type} {v : Datapath → α} {s₀ s t : State}

theorem Since.refl (v : Datapath → α) (s : State) : Since v s s := ⟨.refl _ _ _, rfl⟩

theorem Since.trans (h : Since v s₀ s) (k : Since v s t) : Since v s₀ t := ⟨h.touches.trans k.touches, k.view.trans h.view⟩

/-- What follows from the view is the same too. -/
theorem Since.map (g : α → β) (h : Since v s₀ s) : Since (fun d => g (v d)) s₀ s := ⟨h.touches, congrArg g h.view⟩

/-- A change of registers and of parts beside the datapath. -/
theorem Since.beside {ps : List Part} {may : Nat → Prop} (h : Since v s₀ s) (k : Touches ps may s t)
    (hps : ∀ p ∈ ps, p ∈ [Part.mgmt, .eng, .evr]) (hmay : ∀ a, may a → acceptReg a) : Since v s₀ t := by
  have hdp : t.dp = s.dp := k.1 .dp fun hp => by simpa using hps _ hp
  refine ⟨h.touches.trans (k.mono (fun p hp => ?_) hmay), hdp ▸ h.view⟩
  have := hps p hp
  simp only [List.mem_cons] at this ⊢
  tauto

theorem Since.ite {c : Prop} [Decidable c] (h : Since v s₀ s) (k : Since v s₀ t) : Since v s₀ (if c then s else t) := by
  split
  · exact h
  · exact k

/-- A step that is taken or left out. -/
theorem Since.when {c : Prop} [Decidable c] (h : Since v s₀ s) (k : Since v s₀ s → Since v s₀ t) :
    Since v s₀ (if c then t else s) := .ite (k h) h

theorem Since.foldl {γ : Type} {g : State → γ → State} {l : List γ} (h : Since v s₀ s)
    (k : ∀ {s x}, Since v s₀ s → Since v s₀ (g s x)) : Since v s₀ (l.foldl g s) :=
  List.foldlRecOn l g h fun _ h _ _ => k h

/-! ## Registers and events -/

theorem Since.setReg {a w} (h : Since v s₀ s) (ha : 0x310000 ≤ a ∧ a < 0x310200 := by decide) : Since v s₀ (s.setReg a w) :=
  h.beside (s.setReg_touches a w) (by simp) (by rintro _ rfl; exact .inl ha)

theorem Since.wr {f w} (h : Since v s₀ s) (ha : 0x310000 ≤ f.addr ∧ f.addr < 0x310200 := by decide) : Since v s₀ (s.wr f w) :=
  h.setReg ha

theorem Since.bumpBy {a n} (h : Since v s₀ s) (ha : 0x310000 ≤ a ∧ a < 0x310200 := by decide) : Since v s₀ (s.bumpBy a n) :=
  h.setReg ha

theorem Since.bump {a} (h : Since v s₀ s) (ha : 0x310000 ≤ a ∧ a < 0x310200 := by decide) : Since v s₀ (s.bump a) := h.bumpBy ha

theorem Since.logEvent {src code x y} (h : Since v s₀ s) : Since v s₀ (s.logEvent src code x y) :=
  h.beside (s.logEvent_touches src code x y) (by simp) fun _ ha => .inr (.inr ha)

theorem Since.setDev {d} (h : Since v s₀ s) : Since v s₀ (s.setDev d) :=
  h.beside (s.setDev_touches d) (by simp) fun _ ha => .inr (.inr ha)

theorem Since.reviewState (h : Since v s₀ s) : Since v s₀ s.reviewState := by
  unfold State.reviewState
  dsimp only
  split
  · split
    · exact h.when (·.setDev)
    · exact h.when (·.setDev)
    · exact .ite h h.setDev
    · exact h
  · split
    · exact h.when (·.setDev)
    · exact .ite h h.setDev
    · exact h

/-! ## The datapath's own parts -/

theorem Since.onDp {f} (h : Since v s₀ s) (e : v (f s.dp) = v s.dp := by rfl) : Since v s₀ (s.onDp f) :=
  ⟨h.touches.trans ((s.dp_touches _).mono (by simp) (by simp)), e.trans h.view⟩

theorem Since.onLink {f} (h : Since v s₀ s) (e : v { s.dp with link := f s.dp.link } = v s.dp := by rfl) :
    Since v s₀ (s.onLink f) := h.onDp e

theorem Since.onFramer {f} (h : Since v s₀ s) (e : v { s.dp with framer := f s.dp.framer } = v s.dp := by rfl) :
    Since v s₀ (s.onFramer f) := h.onDp e

theorem Since.onLedger {f} (h : Since v s₀ s) (e : v { s.dp with ledger := f s.dp.ledger } = v s.dp := by rfl) :
    Since v s₀ (s.onLedger f) := h.onDp e

end

/-- A lane that expects the same superframe as before leaves the news as they are. -/
theorem Datapath.news_setRx {d : Datapath} {n : Fin 8} {r : RxLane} (e : r.expSfc = d.rx[n].expSfc) :
    { d with rx := d.rx.set n r }.news = d.news := by
  simp only [Datapath.news, Vector.map_set, e, PartnerNews.mk.injEq, true_and]
  ext i hi
  simp only [Vector.getElem_set, Vector.getElem_map]
  split
  · next h => subst h; rfl
  · rfl

section
variable {s₀ s : State}

theorem Since.onRx {n f} (h : Since Datapath.course s₀ s) (e : ∀ r, (f r).expSfc = r.expSfc := by exact fun _ => rfl) :
    Since Datapath.course s₀ (s.onRx n f) := by
  refine h.onDp ?_
  simp only [Datapath.course, Datapath.tidings, Datapath.news_setRx (e _)]

/-! ## Losses (R180–R182) -/

variable {α : Type} {v : Datapath → α}

theorem Since.countLoss {cause} (h : Since v s₀ s) : Since v s₀ (s.countLoss cause) := h.bump.setReg

theorem Since.logLoss {p cause seq} (h : Since v s₀ s) : Since v s₀ (s.logLoss p cause seq) := h.logEvent

theorem Since.lossPort {p now} (h : Since v s₀ s) : Since v s₀ (s.lossPort p now).1 := by
  cases p with
  | none => exact h.bump
  | some p => exact h

/-! ## The receive half (R174–R180) -/

theorem Since.updUnit {k f} (h : Since Datapath.course s₀ s) : Since Datapath.course s₀ (s.updUnit k f) :=
  h.onLedger (by split <;> rfl)

theorem Since.setNominal {k x} (h : Since Datapath.course s₀ s) : Since Datapath.course s₀ (s.setNominal k x) := h.updUnit

theorem Since.declareLost {k cause} (h : Since Datapath.course s₀ s) : Since Datapath.course s₀ (s.declareLost k cause) := by
  unfold State.declareLost
  split
  · exact .ite h h.updUnit.countLoss
  · exact h

theorem Since.loseFreed (h : Since Datapath.course s₀ s) : Since Datapath.course s₀ s.loseFreed := h.foldl (·.declareLost)

theorem Since.settleNumber {now x} (h : Since Datapath.course s₀ s) : Since Datapath.course s₀ (s.settleNumber now x) := by
  unfold State.settleNumber
  split
  · dsimp only
    split
    · exact Since.setNominal (h.when (·.bump))
    · exact h.when (·.bump)
  · have hport := h.countLoss (cause := 0) |>.lossPort (p := none) (now := now)
    dsimp only
    split
    · exact Since.logLoss (hport.onDp)
    · exact hport.logLoss

theorem Since.resolveOne (h : Since Datapath.course s₀ s) : Since Datapath.course s₀ s.resolveOne := by
  unfold State.resolveOne
  split
  · exact h
  · exact .ite h (Since.loseFreed (.ite (h.onLedger.foldl (·.settleNumber)) (h.onLedger.foldl (·.settleNumber)).onLedger))

theorem Since.resolveRanges (h : Since Datapath.course s₀ s) : Since Datapath.course s₀ s.resolveRanges := h.foldl (·.resolveOne)

theorem Since.closeRange {sfc next} (h : Since Datapath.course s₀ s) : Since Datapath.course s₀ (s.closeRange sfc next) := by
  unfold State.closeRange
  split
  · exact h.onLedger
  · exact .ite h (Since.resolveRanges (Since.when h.onLedger fun h => h.foldl (·.updUnit)))

/-! ## Requests (R171) -/

/-- An armed unit keeps its number and the time of its first sending. -/
theorem Ledger.window_arm (l : Ledger) (k : Nat) :
    Ledger.window { l with retention := l.retention.map fun x => if x.seq = k then { x with armed := true } else x } = l.window := by
  simp only [Ledger.window, List.map_map, SendWindow.mk.injEq, true_and]
  refine List.map_congr_left fun x _ => ?_
  simp only [Function.comp_apply]
  split <;> rfl

/-- A requested number is ignored or at its limit, which is counted, or its unit is armed. -/
theorem State.nackOne_cases (s : State) (now k : Nat) :
    s.nackOne now k = s.bump R.LEDGER_TX_IGN_CNT ∨ s.nackOne now k = s.bump R.LEDGER_TX_LIMIT_CNT
      ∨ s.nackOne now k = (s.onLedger fun l => { l with retention := l.retention.map fun x =>
          if x.seq = k then { x with armed := true } else x }).bump R.LEDGER_TX_ARM_CNT := by
  -- unfolded by itself: applied, the kernel would work out which slots lie inside the window
  generalize hE : State.nackOne = E
  delta State.nackOne at hE
  subst hE
  beta_reduce
  extract_lets ledger old inside
  generalize (inside && !ledger.unrec.contains k) = asked
  generalize ledger.retention.find? (·.seq == k) = slot
  split
  · split
    · exact .inl rfl
    · split
      · exact .inr (.inl rfl)
      · split
        · exact .inl rfl
        · exact .inr (.inr rfl)
  · exact .inl rfl

theorem Since.nackOne {now k} (h : Since Datapath.course s₀ s) : Since Datapath.course s₀ (s.nackOne now k) := by
  rcases s.nackOne_cases now k with e | e | e <;> rw [e]
  · exact h.bump
  · exact h.bump
  · exact Since.bump (h.onLedger (congrArg (fun w => ((s.dp.news, w), s.dp.link.step)) (s.dp.ledger.window_arm k)))

theorem Since.nackProcess {now entries} (h : Since Datapath.course s₀ s) : Since Datapath.course s₀ (s.nackProcess now entries) :=
  h.foldl fun h => h.foldl (·.nackOne)

/-! ## Round trip and alignment (R146, R150, R151, R155) -/

theorem Since.rttSample {rtt} (h : Since Datapath.course s₀ s) : Since Datapath.course s₀ (s.rttSample rtt) :=
  .ite h.onLink (.ite (.ite h.setReg.onLedger.logEvent h.setReg) h)

theorem Since.probeEcho {m start} (h : Since Datapath.course s₀ s) : Since Datapath.course s₀ (s.probeEcho m start) := by
  unfold State.probeEcho
  dsimp only
  have hecho (c : Prop) [Decidable c] :=
    h.when (c := c) (·.onFramer (f := fun f => { f with echoTag := m.probeTag, echoFrom := start }))
  split
  · exact .ite (hecho _) (hecho _).onFramer.rttSample
  · exact hecho _

/-- The lanes' first skews are forgotten. -/
theorem Datapath.news_forgetSkew (d : Datapath) :
    Datapath.news { d with rx := d.rx.map fun r => { r with firstSkew := none } } = d.news := by
  simp only [Datapath.news, Vector.map_map, Function.comp_def]

theorem Since.forgetSkew (h : Since Datapath.course s₀ s) :
    Since Datapath.course s₀ (s.onDp fun d => { d with rx := d.rx.map fun r => { r with firstSkew := none } }) :=
  h.onDp (congrArg (fun w => ((w, s.dp.ledger.window), s.dp.link.step)) s.dp.news_forgetSkew)

theorem Since.alignTest {sfc offs} (h : Since Datapath.course s₀ s) : Since Datapath.course s₀ (s.alignTest sfc offs) := by
  unfold State.alignTest
  exact Since.onLink ((Since.foldl (.ite h h.forgetSkew)) (·.onRx))

theorem Since.rejoin {sfc offs} (h : Since Datapath.course s₀ s) : Since Datapath.course s₀ (s.rejoin sfc offs) :=
  (Since.onLink (h.foldl fun h => .ite (.ite h.onRx.onLink h.onRx) h)).reviewState

/-- The registers of the lanes' skews are the ledger's. -/
theorem skew_addr (n : Fin 8) : 0x310000 ≤ (F.LEDGER_LINK_LANEn_skew n).addr ∧ (F.LEDGER_LINK_LANEn_skew n).addr < 0x310200 := by
  simp only [F.LEDGER_LINK_LANEn_skew, R.LEDGER_LINK_LANEn]
  omega

theorem Since.align {sfc lanes} (h : Since Datapath.course s₀ s) : Since Datapath.course s₀ (s.align sfc lanes) := by
  have hskew : Since Datapath.course s₀ ((s.offsets lanes).foldl (fun s x => s.wr (F.LEDGER_LINK_LANEn_skew x.1) x.2) s) :=
    h.foldl fun h => h.wr (skew_addr _)
  exact .ite hskew.alignTest (hskew.when (·.rejoin))

/-! ## The bring-up goes on -/

/-- A step that begins keeps the tidings. -/
theorem Since.nextStep {k} (h : Since Datapath.tidings s₀ s) : Since Datapath.tidings s₀ (s.nextStep k) := by
  unfold State.nextStep
  exact Since.when h.onLink fun h => h.onDp (congrArg (·, s.dp.ledger.window) (Datapath.news_forgetSkew _))

theorem Since.advanceSteps (h : Since Datapath.tidings s₀ s) : Since Datapath.tidings s₀ s.advanceSteps := by
  have h2 : Since Datapath.tidings s₀ s.advance2 := h.when (·.nextStep)
  have h3 : Since Datapath.tidings s₀ s.advance2.advance3 := h2.when (·.nextStep)
  have h4 : Since Datapath.tidings s₀ s.advance2.advance3.advance4 := h3.when (·.nextStep)
  exact h4.when fun h => h.setReg.nextStep

/-! ## The ledger takes a message (R154, R170) -/

theorem Since.rxStart {m retry} (h : Since Datapath.news s₀ s) : Since Datapath.news s₀ (s.rxStart m retry) := by
  unfold State.rxStart
  exact h.onLedger

theorem Since.ackProcess {seq} (h : Since Datapath.news s₀ s) : Since Datapath.news s₀ (s.ackProcess seq) := .ite h h.onLedger

end

end Sys2Proof.Machine
end

section
/-!
An accepted control message (R39, R40): its copies, what the device notes of it, how the ledger takes it (R170), and what follows
where the partner starts over (R159).
-/

namespace Sys2Proof.Machine

/-! ## Acknowledgements (R170) -/

/-- tx_oldest_seq, as the window shows it. -/
def SendWindow.oldest (w : SendWindow) : Nat :=
  match w.retained with
  | [] => w.next
  | x :: _ => if x.2.isSome then x.1 else w.next

theorem State.txOldest_eq_oldest (s : State) : s.txOldest = s.dp.ledger.window.oldest := by
  unfold State.txOldest SendWindow.oldest Ledger.window
  cases s.dp.ledger.retention <;> rfl

/-- The last acknowledgement is `seq`, and no unit that has been sent is retained from before it, counted from `old` on. -/
def SendWindow.Acked (w : SendWindow) (old seq : Nat) : Prop :=
  w.lastAck = seq ∧ ∀ x ∈ w.retained, x.2 = none ∨ State.seqAhead old seq ≤ State.seqAhead old x.1

theorem Ledger.acked_iff (l : Ledger) (old seq : Nat) : l.window.Acked old seq ↔
    l.lastAck = seq ∧ ∀ x ∈ l.retention, x.t1 = none ∨ State.seqAhead old seq ≤ State.seqAhead old x.seq := by
  simp only [SendWindow.Acked, Ledger.window, List.forall_mem_map]

namespace State

/-- An acknowledgement within the window frees the units before it. -/
theorem ackProcess_acked {s : State} {seq : Nat} (h : seqAhead s.txOldest seq ≤ seqAhead s.txOldest s.dp.ledger.txNext) :
    (s.ackProcess seq).dp.ledger.window.Acked s.txOldest seq := by
  have hfrees : s.ackProcess seq = s.onLedger fun l =>
      { l with lastAck := seq, lastAckValid := true,
               retention := l.retention.filter fun r =>
                 r.t1.isNone || decide (seqAhead s.txOldest seq ≤ seqAhead s.txOldest r.seq) } := if_neg (Nat.not_lt.mpr h)
  rw [hfrees, Ledger.acked_iff]
  generalize seqAhead s.txOldest = ahead
  refine ⟨rfl, fun x hx => ?_⟩
  have hkept := (List.mem_filter.mp hx).2
  rwa [Bool.or_eq_true, Option.isNone_iff_eq_none, decide_eq_true_eq] at hkept

/-! ## The ledger takes a message (R154, R167, R170, R174, R180) -/

/-- The receive half takes a message: it starts, or closes the range that began at the last one, and loses what the partner has
freed. -/
def received (s : State) (m : CtlMsg) : State :=
  let retry := if s.inLinked then s.dp.ledger.retryOn else s.dp.link.status == 2 && s.dp.link.peerReady == 2
  let s := if !s.dp.ledger.rxRun then s.rxStart m retry
    else (s.onLedger fun l => { l with hTx := if l.retryOn then m.holdH else l.hTx, peerOldest := m.txOldest }).closeRange m.sfc
      m.txNext
  let s := s.onLedger fun l =>
    { l with lfAfter := if l.lineFault && !l.lfDown then l.lfAfter.orElse (fun _ => some m.sfc) else none }
  if s.dp.ledger.retryOn then s.loseFreed else s

/-- The transmit half takes a message after it. -/
theorem ledgerMessage_eq (s : State) (m : CtlMsg) (now : Nat) :
    s.ledgerMessage m now =
      if (s.received m).dp.ledger.txRun ∧ (s.received m).dp.ledger.retryOn then
        (if m.ackValid then (s.received m).ackProcess m.ackSeq
          else (s.received m).onLedger fun l => { l with lastAckValid := false }).nackProcess now m.nack
      else s.received m := rfl

end State

section
variable {s₀ s t : State} {m : CtlMsg} {now : Nat}

/-- What keeps the whole course keeps the news. -/
theorem Since.andCourse (h : Since Datapath.news s₀ s) (k : Since Datapath.course s t) : Since Datapath.news s₀ t :=
  h.trans (k.map fun x => x.1.1)

theorem Since.received (h : Since Datapath.news s₀ s) : Since Datapath.news s₀ (s.received m) := by
  unfold State.received
  refine Since.when (Since.onLedger (.ite h.rxStart ?_)) fun h => h.andCourse (Since.refl _ _).loseFreed
  exact h.andCourse (Since.refl Datapath.course s).onLedger.closeRange

/-- A receive half that runs keeps the window. -/
theorem received_course (h : s.dp.ledger.rxRun = true) : Since Datapath.course s (s.received m) := by
  unfold State.received
  rw [h]
  exact Since.when (Since.onLedger (Since.refl Datapath.course s).onLedger.closeRange) (·.loseFreed)

theorem Since.ledgerMessage (h : Since Datapath.news s₀ s) : Since Datapath.news s₀ (s.ledgerMessage m now) := by
  rw [State.ledgerMessage_eq]
  exact h.received.when fun h => (Since.ite h.ackProcess h.onLedger).andCourse (Since.refl _ _).nackProcess

/-- With both halves running and retry on, a valid acknowledgement within the window frees the units before it. -/
theorem ledgerMessage_acked (hrx : s.dp.ledger.rxRun = true) (htx : s.dp.ledger.txRun = true) (hretry : s.dp.ledger.retryOn = true)
    (hvalid : m.ackValid = true)
    (hin : State.seqAhead s.txOldest m.ackSeq ≤ State.seqAhead s.txOldest s.dp.ledger.txNext) :
    (s.ledgerMessage m now).dp.ledger.window.Acked s.txOldest m.ackSeq := by
  have hwin : (s.received m).dp.ledger.window = s.dp.ledger.window := congrArg (·.1.2) (received_course hrx).view
  have hold : (s.received m).txOldest = s.txOldest := by simp only [State.txOldest_eq_oldest, hwin]
  have hnext : (s.received m).dp.ledger.txNext = s.dp.ledger.txNext := congrArg SendWindow.next hwin
  have hruns : (s.received m).dp.ledger.txRun = true ∧ (s.received m).dp.ledger.retryOn = true :=
    ⟨(congrArg SendWindow.txRun hwin).trans htx, (congrArg SendWindow.retryOn hwin).trans hretry⟩
  rw [State.ledgerMessage_eq, if_pos hruns, if_pos hvalid]
  have hnack := (Since.refl Datapath.course ((s.received m).ackProcess m.ackSeq)).nackProcess (now := now) (entries := m.nack)
  have hstays : (((s.received m).ackProcess m.ackSeq).nackProcess now m.nack).dp.ledger.window =
      ((s.received m).ackProcess m.ackSeq).dp.ledger.window := congrArg (·.1.2) hnack.view
  rw [hstays, ← hold]
  exact State.ackProcess_acked (by rwa [hold, hnext])

end

/-! ## A message that ends nothing -/

namespace State

/-- A message's lanes are aligned, and its probe and its echo taken (R146, R150, R151). -/
def timed (s : State) (m : CtlMsg) (start : Nat) (paired : List (Fin 8)) : State :=
  if paired.isEmpty then s.align m.sfc paired else (s.align m.sfc paired).probeEcho m start

/-- The ledger takes a message of a linked partner. -/
def ledgered (s : State) (m : CtlMsg) (now : Nat) : State :=
  if (m.linkStep = 7 ∨ m.linkStep = 8) ∧ (s.inLinked ∨ s.dp.link.step = 6) then s.ledgerMessage m now else s

/-- What an accepted message does that ends neither the link nor the attempt. -/
def proceed (s : State) (m : CtlMsg) (now start : Nat) (paired lanes : List (Fin 8)) : State :=
  ((s.timed m start paired).ledgered m now).advanceSteps.followQuiet m lanes

theorem followQuiet_of_ne {s : State} {m : CtlMsg} {lanes : List (Fin 8)} (h : m.status ≠ 5) : s.followQuiet m lanes = s :=
  if_neg fun hc => h hc.1

theorem inLinked_congr {s t : State} (h : t.dp.link.step = s.dp.link.step) : t.inLinked = s.inLinked := by
  simp only [inLinked, h]

end State

section
variable {s : State} {m : CtlMsg} {now start : Nat} {paired lanes : List (Fin 8)}

theorem timed_course : Since Datapath.course s (s.timed m start paired) :=
  .ite (Since.refl _ s).align (Since.refl _ s).align.probeEcho

/-- What is known of the partner stands. -/
theorem proceed_news (h : m.status ≠ 5) : Since Datapath.news s (s.proceed m now start paired lanes) := by
  unfold State.proceed
  rw [State.followQuiet_of_ne h]
  have htimed : Since Datapath.news s (s.timed m start paired) := (Since.refl _ s).andCourse timed_course
  have hledgered : Since Datapath.news s ((s.timed m start paired).ledgered m now) := htimed.when (·.ledgerMessage)
  exact hledgered.trans ((Since.refl Datapath.tidings _).advanceSteps.map (·.1))

/-- In LINKED, an acknowledgement within the window frees the units before it. -/
theorem proceed_acked (h : m.status ≠ 5) (hlinked : s.inLinked = true) (hstep : m.linkStep = 7)
    (hrx : s.dp.ledger.rxRun = true) (htx : s.dp.ledger.txRun = true) (hretry : s.dp.ledger.retryOn = true)
    (hvalid : m.ackValid = true)
    (hin : State.seqAhead s.txOldest m.ackSeq ≤ State.seqAhead s.txOldest s.dp.ledger.txNext) :
    (s.proceed m now start paired lanes).dp.ledger.window.Acked s.txOldest m.ackSeq := by
  have hcourse := timed_course (s := s) (m := m) (start := start) (paired := paired)
  have hwin : (s.timed m start paired).dp.ledger.window = s.dp.ledger.window := congrArg (·.1.2) hcourse.view
  have hold : (s.timed m start paired).txOldest = s.txOldest := by simp only [State.txOldest_eq_oldest, hwin]
  have hnext : (s.timed m start paired).dp.ledger.txNext = s.dp.ledger.txNext := congrArg SendWindow.next hwin
  have hstill : (s.timed m start paired).inLinked = true := (State.inLinked_congr (congrArg (·.2) hcourse.view)).trans hlinked
  have hacked := ledgerMessage_acked (now := now) (m := m) ((congrArg SendWindow.rxRun hwin).trans hrx)
    ((congrArg SendWindow.txRun hwin).trans htx) ((congrArg SendWindow.retryOn hwin).trans hretry) hvalid (by rwa [hold, hnext])
  rw [hold] at hacked
  have hadvance : ((s.timed m start paired).ledgerMessage m now).advanceSteps.dp.ledger.window =
      ((s.timed m start paired).ledgerMessage m now).dp.ledger.window :=
    congrArg Prod.snd (Since.refl Datapath.tidings _).advanceSteps.view
  unfold State.proceed
  rw [State.followQuiet_of_ne h, State.ledgered, if_pos ⟨.inl hstep, .inl hstill⟩, hadvance]
  exact hacked

end

/-! ## The copies of a superframe (R39) -/

namespace State

/-- Each lane that has an accepted copy expects the superframe that it names. -/
def expectAll (s : State) (l : List (Fin 8 × CtlMsg)) : State :=
  l.foldl (fun s x => if x.2.discarded then s else s.onRx x.1 fun r => { r with expSfc := some x.2.sfc }) s

/-- What the device learns from an accepted message. -/
def learnt (s : State) (n : Fin 8) (m : CtlMsg) (rest : List (Fin 8 × CtlMsg)) : State :=
  ((s.onLink fun l => { l with ctlDisagree := l.ctlDisagree + (rest.filter (·.2 != m)).length }).expectAll
    ((n, m) :: rest)).noteMessage m

/-- What the device notes of an accepted message, before anything follows from it. -/
def noted (s : State) (n : Fin 8) (m : CtlMsg) (rest : List (Fin 8 × CtlMsg)) : State := (s.learnt n m rest).stuffMismatch m

/-- Entries that carry their own key come from different keys. -/
theorem pairwise_filterMap_key {α β : Type} {f : α → Option (α × β)} {l : List α} (hl : l.Nodup)
    (hf : ∀ a x, f a = some x → x.1 = a) : (l.filterMap f).Pairwise fun x y => x.1 ≠ y.1 :=
  List.Pairwise.filterMap f (fun a b hab x hx y hy => by rwa [hf a x hx, hf b y hy]) hl

/-- No lane has two accepted copies. -/
theorem acceptedCopies_pairwise (s : State) (copies : List (Fin 8 × List Bool)) :
    (s.acceptedCopies copies).Pairwise fun x y => x.1 ≠ y.1 := by
  refine pairwise_filterMap_key (List.nodup_finRange 8) fun a x hx => ?_
  split at hx
  · cases hx
  · rw [Option.ite_none_left_eq_some] at hx
    obtain ⟨-, hx⟩ := hx
    split at hx
    · cases hx
    · rw [Option.ite_none_left_eq_some] at hx
      obtain ⟨-, ⟨⟩⟩ := hx
      rfl

theorem expectAll_touches (s : State) (l : List (Fin 8 × CtlMsg)) : Touches [.dp] (fun _ => False) s (s.expectAll l) := by
  refine Touches.foldl _ (fun s x => ?_) _ _
  split
  · exact .refl _ _ _
  · exact s.dp_touches _

/-- Only the receive lanes change. -/
theorem expectAll_dp (s : State) (l : List (Fin 8 × CtlMsg)) :
    (s.expectAll l).dp = { s.dp with rx := (s.expectAll l).dp.rx } := by
  unfold expectAll
  induction l generalizing s with
  | nil => rfl
  | cons x l ih =>
    rw [List.foldl_cons, ih]
    split <;> rfl

theorem expectAll_rx_of_ne {s : State} {l : List (Fin 8 × CtlMsg)} {n : Fin 8} (h : ∀ x ∈ l, n ≠ x.1) :
    (s.expectAll l).dp.rx[n] = s.dp.rx[n] := by
  unfold expectAll
  induction l generalizing s with
  | nil => rfl
  | cons x l ih =>
    have hx : (x.1 : Nat) ≠ n := fun e => h x (by simp) (Fin.ext e.symm)
    rw [List.foldl_cons, ih fun y hy => h y (by simp [hy])]
    split
    · rfl
    · exact Vector.getElem_set_ne x.1.isLt n.isLt hx

theorem expectAll_head {s : State} {n : Fin 8} {m : CtlMsg} {rest : List (Fin 8 × CtlMsg)} (hd : m.discarded = false)
    (h : ∀ x ∈ rest, n ≠ x.1) : (s.expectAll ((n, m) :: rest)).dp.rx[n].expSfc = some m.sfc := by
  have hcons : s.expectAll ((n, m) :: rest) = (s.onRx n fun r => { r with expSfc := some m.sfc }).expectAll rest := by
    simp [expectAll, hd]
  rw [hcons, expectAll_rx_of_ne h]
  simp [onRx, onDp]

theorem noteMessage_touches (s : State) (m : CtlMsg) : Touches [.dp] (fun _ => False) s (s.noteMessage m) := s.dp_touches _

theorem noteMessage_ledger (s : State) (m : CtlMsg) : (s.noteMessage m).dp.ledger = s.dp.ledger := rfl

theorem noteMessage_step (s : State) (m : CtlMsg) : (s.noteMessage m).dp.link.step = s.dp.link.step := rfl

theorem noteMessage_news (s : State) (m : CtlMsg) : (s.noteMessage m).dp.news =
    ⟨m.linkStep, m.status, some s.evr.time, m.txLanes, m.retrainReq, s.dp.rx.map (·.expSfc)⟩ := rfl

/-- A mismatch of stuff counts is counted in its lane's register, and changes nothing else. -/
theorem stuffMismatch_touches (s : State) (m : CtlMsg) :
    Touches [] (fun a => ∃ k : Fin 8, a = R.OLn_DET_STUFF_MM k) s (s.stuffMismatch m) := by
  refine Touches.foldl _ (fun s n => ?_) _ _
  split
  · split
    · exact (bumpBy_touches _ _ _).mono (by simp) fun _ h => ⟨n, h⟩
    · exact .refl _ _ _
  · exact .refl _ _ _

end State

section
variable {s : State} {n : Fin 8} {m : CtlMsg} {rest : List (Fin 8 × CtlMsg)}

theorem learnt_touches : Touches [.dp] (fun _ => False) s (s.learnt n m rest) :=
  ((s.dp_touches _).trans (State.expectAll_touches _ _)).trans (State.noteMessage_touches _ _)

theorem noted_touches : Touches [.dp] (fun a => ∃ k : Fin 8, a = R.OLn_DET_STUFF_MM k) s (s.noted n m rest) :=
  (learnt_touches.mono (by simp) (by simp)).trans ((State.stuffMismatch_touches _ _).mono (by simp) fun _ h => h)

theorem noted_dp : (s.noted n m rest).dp = (s.learnt n m rest).dp := (State.stuffMismatch_touches _ _).1 .dp (by simp)

theorem noted_ledger : (s.noted n m rest).dp.ledger = s.dp.ledger := by
  rw [noted_dp, State.learnt, State.noteMessage_ledger, State.expectAll_dp, State.onLink_dp_ledger]

theorem noted_step : (s.noted n m rest).dp.link.step = s.dp.link.step := by
  rw [noted_dp, State.learnt, State.noteMessage_step, State.expectAll_dp]
  rfl

theorem noted_inLinked : (s.noted n m rest).inLinked = s.inLinked := State.inLinked_congr noted_step

theorem noted_news (hd : m.discarded = false) (h : ∀ x ∈ rest, n ≠ x.1) :
    ∃ e : Vector (Option Nat) 8, e[n] = some m.sfc
      ∧ (s.noted n m rest).dp.news = ⟨m.linkStep, m.status, some s.evr.time, m.txLanes, m.retrainReq, e⟩ := by
  rw [noted_dp, State.learnt, State.noteMessage_news, (State.expectAll_touches _ _).1 .evr (by simp), State.onLink_evr]
  exact ⟨_, (Vector.getElem_map _ _).trans (State.expectAll_head hd h), rfl⟩

end

/-! ## What a message ends (R159) -/

namespace State

/-- Outside step 6, a message ends nothing where its step and its retry mode agree with a linked device's. -/
theorem messageEnds_none {s : State} {m : CtlMsg} (h6 : s.dp.link.step ≠ 6)
    (hstep : s.inLinked = true → m.linkStep < 2 ∨ 5 < m.linkStep)
    (hretry : s.inLinked = true → m.linkStep = 7 → m.retryOn = s.dp.ledger.retryOn) : s.messageEnds m = none := by
  unfold messageEnds
  rw [if_neg, if_neg, if_neg]
  · exact fun h => h6 h.2.1
  · exact fun h => h.2.2 (hretry h.2.1 h.1)
  · exact fun h => by have := hstep h.1; omega

/-- A partner in steps 2 to 5 has started over. -/
theorem messageEnds_restart {s : State} {m : CtlMsg} (hlinked : s.inLinked = true) (h2 : 2 ≤ m.linkStep) (h5 : m.linkStep ≤ 5) :
    s.messageEnds m = some (·.partnerRestart) := if_pos ⟨hlinked, h2, h5⟩

end State

namespace State

/-- The lanes in lock whose copies carry the superframe of the accepted message (R146). -/
def pairedLanes (s : State) (m : CtlMsg) (l : List (Fin 8 × CtlMsg)) : List (Fin 8) :=
  l.filterMap fun x => if x.2.sfc = m.sfc ∧ s.dp.rx[x.1].lock = EnsState.locked then some x.1 else none

/-- When the last of these lanes' superframes has arrived. -/
def latestArrival (s : State) (lanes : List (Fin 8)) : Nat := lanes.foldl (fun t k => Nat.max t s.dp.rx[k].lastArrival) 0

end State

/-- How an accepted message that is not discarded is answered. -/
theorem exec_controlMessageAccept {s : State} {copies : List (Fin 8 × List Bool)} {n : Fin 8} {m : CtlMsg}
    {rest : List (Fin 8 × CtlMsg)} (h : s.acceptedCopies copies = (n, m) :: rest) (hd : m.discarded = false) :
    ∃ now start paired lanes, exec (.controlMessageAccept copies) s =
      .next (((s.noted n m rest).messageEnds m).elim ((s.noted n m rest).proceed m now start paired lanes)
        (· (s.noted n m rest))) := by
  let expecting := (s.onLink fun l => { l with ctlDisagree := l.ctlDisagree + (rest.filter (·.2 != m)).length }).expectAll
    ((n, m) :: rest)
  let paired := expecting.pairedLanes m ((n, m) :: rest)
  refine ⟨expecting.messageTime (n :: rest.map (·.1)), expecting.latestArrival paired, paired, n :: rest.map (·.1), ?_⟩
  change execControlMessageAccept copies s = _
  unfold execControlMessageAccept
  rw [h]
  dsimp only
  rw [if_neg (by simp [hd])]
  split
  · next f hf =>
    have hends : (s.noted n m rest).messageEnds m = some f := hf
    rw [hends]
    rfl
  · next hf =>
    have hends : (s.noted n m rest).messageEnds m = none := hf
    rw [hends]
    rfl

end Sys2Proof.Machine
end

section
/-!
A link that goes down for a new attempt (R138, R158), a partner that starts over (R159), and the statement about accepted messages.
-/

namespace Sys2Proof.Machine

namespace State

/-! ## A register that an event does not touch -/

theorem reg_logEvent_of_not_notice {s : State} {src code x y a : Nat} (h : ¬ noticeReg a) :
    (s.logEvent src code x y).reg a = s.reg a :=
  (s.logEvent_touches src code x y).2.1 a h

theorem reg_setDev_of_not_notice {s : State} {d : DevState} {a : Nat} (h : ¬ noticeReg a) : (s.setDev d).reg a = s.reg a :=
  (s.setDev_touches d).2.1 a h

theorem reg_congr {s t : State} (h : t.regs = s.regs) (a : Nat) : t.reg a = s.reg a := congrArg (mapGet (resetWord a) · a) h

theorem setDev_dp {s : State} {d : DevState} : (s.setDev d).dp = s.dp := (s.setDev_touches d).1 .dp (by simp)

/-- The ledger's registers are not those of an event. -/
theorem not_noticeReg_ledger {a : Nat} (h : 0x310000 ≤ a) : ¬ noticeReg a := by
  simp only [noticeReg, engReg, R.TOP_INT, R.EVR_DROP_CNT, R.EVR_INT]
  omega

/-! ## The configuration in force -/

theorem cfg_congr {s t : State} (h : t.inForce = s.inForce) (f : CField) : t.cfg f = s.cfg f := by
  simp only [cfg, inForceReg, h]

theorem cfgOn_congr {s t : State} (h : t.inForce = s.inForce) (f : CField) : t.cfgOn f = s.cfgOn f := by
  simp only [cfgOn, cfg_congr h]

theorem cvMode_congr {s t : State} (h : t.inForce = s.inForce) : t.cvMode = s.cvMode := by
  simp only [cvMode, lineMode, cfg_congr h]

/-! ## Step 1 (R135, R141) -/

/-- The bring-up as a new attempt finds it. -/
def attemptCleared (s : State) : State := s.newNonce.clearAttempt.onLink fun l => { l with step := 1 }

theorem enterStep1_eq (s : State) : s.enterStep1 false = (s.attemptCleared.setDev .bringup).queueInvite := rfl

theorem attemptCleared_nonce (s : State) : s.attemptCleared.dp.link.nonce ≠ 0 := by
  simp [attemptCleared, newNonce, clearAttempt, onLink, onDp]

theorem queueInvite_link (s : State) : s.queueInvite.dp.link = s.dp.link := rfl
theorem queueInvite_ledger (s : State) : s.queueInvite.dp.ledger = s.dp.ledger := rfl
theorem queueInvite_mgmt (s : State) : s.queueInvite.mgmt = s.mgmt := rfl
theorem queueInvite_reg (s : State) (a : Nat) : s.queueInvite.reg a = s.reg a := reg_congr rfl a
theorem queueInvite_framer (s : State) : s.queueInvite.dp.framer = s.dp.framer := rfl

theorem enterStep1_link (s : State) : (s.enterStep1 false).dp.link = s.attemptCleared.dp.link := by
  rw [enterStep1_eq, queueInvite_link, setDev_dp]

theorem enterStep1_ledger (s : State) : (s.enterStep1 false).dp.ledger = s.dp.ledger := by
  rw [enterStep1_eq, queueInvite_ledger, setDev_dp]
  rfl

theorem enterStep1_framer (s : State) : (s.enterStep1 false).dp.framer = s.dp.framer := by
  rw [enterStep1_eq, queueInvite_framer, setDev_dp]
  rfl

theorem enterStep1_dev (s : State) : (s.enterStep1 false).mgmt.dev = .bringup := by
  rw [enterStep1_eq, queueInvite_mgmt, setDev_dev]

theorem reg_enterStep1 {s : State} {a : Nat} (h : ¬ noticeReg a) : (s.enterStep1 false).reg a = s.reg a := by
  rw [enterStep1_eq, queueInvite_reg, reg_setDev_of_not_notice h]
  exact reg_congr rfl a

theorem queueInvite_since {s₀ s : State} (h : Since (fun _ => ()) s₀ s) : Since (fun _ => ()) s₀ s.queueInvite := by
  unfold queueInvite queuePen onPen
  exact Since.onDp h

theorem enterStep1_since {s₀ s : State} (h : Since (fun _ => ()) s₀ s) : Since (fun _ => ()) s₀ (s.enterStep1 false) := by
  have hnew : Since (fun _ => ()) s₀ s.newNonce := Since.onLink (h.beside s.drew_touches (by simp) (by simp))
  have hcleared : Since (fun _ => ()) s₀ s.attemptCleared := Since.onLink (Since.onLink hnew)
  rw [enterStep1_eq]
  exact queueInvite_since hcleared.setDev

/-! ## The link stops (R158) -/

/-- What stopping a link that stands writes to the registers, before the count of the units that it discards. -/
def linkFailed (s : State) (code : Nat) : State :=
  ((s.bump R.LEDGER_LINK_DOWN_CNT).wr F.LEDGER_LINK_FAIL_last_fail code).wr F.LEDGER_LINK_FAIL_fail_step s.dp.link.step

theorem linkStop_eq {s : State} {code : Nat} (h : s.linkStands = true) (hcv : s.cvMode = true) :
    s.linkStop code = (((s.linkFailed code).logEvent srcLedger 0x8003 code 0).dropTransmit.ledgerStop.squelchAll).onLink fun l =>
      { l with fresh := true } := by
  unfold linkStop
  rw [if_pos (by simp [h, hcv])]
  rfl

theorem linkStop_ledger {s : State} {code : Nat} (h : s.linkStands = true) (hcv : s.cvMode = true) :
    (s.linkStop code).dp.ledger.txRun = false ∧ (s.linkStop code).dp.ledger.rxRun = false
      ∧ (s.linkStop code).dp.ledger.retention = [] ∧ (s.linkStop code).dp.framer.sending = false := by
  rw [linkStop_eq h hcv]
  exact ⟨rfl, rfl, rfl, rfl⟩

/-- Discarding the ready queue and retention writes their count alone. -/
theorem reg_dropTransmit {s : State} {a : Nat} (h : a ≠ R.LEDGER_TX_DOWN_CNT) : s.dropTransmit.reg a = s.reg a := by
  unfold dropTransmit
  exact reg_bumpBy_ne s _ _ _ h

/-- Nothing else that stops writes a register. -/
theorem reg_stopped (s : State) (f : Link → Link) (a : Nat) : (s.ledgerStop.squelchAll.onLink f).reg a = s.reg a :=
  reg_congr rfl a

theorem reg_linkStop {s : State} {code a : Nat} (h : s.linkStands = true) (hcv : s.cvMode = true) (ha : ¬ noticeReg a)
    (hdown : a ≠ R.LEDGER_TX_DOWN_CNT) : (s.linkStop code).reg a = (s.linkFailed code).reg a := by
  rw [linkStop_eq h hcv, reg_stopped, reg_dropTransmit hdown, reg_logEvent_of_not_notice ha]

theorem linkFailed_since {s₀ s : State} {code : Nat} (h : Since (fun _ => ()) s₀ s) :
    Since (fun _ => ()) s₀ (s.linkFailed code) := by
  unfold linkFailed
  exact Since.wr (Since.wr (Since.bump h))

theorem dropTransmit_since {s₀ s : State} (h : Since (fun _ => ()) s₀ s) : Since (fun _ => ()) s₀ s.dropTransmit := by
  unfold dropTransmit
  exact Since.onLedger (Since.onFramer (Since.bumpBy h))

theorem linkStop_since {s₀ s : State} {code : Nat} (h : Since (fun _ => ()) s₀ s) (hstands : s.linkStands = true)
    (hcv : s.cvMode = true) : Since (fun _ => ()) s₀ (s.linkStop code) := by
  rw [linkStop_eq hstands hcv]
  have hlogged := (linkFailed_since (code := code) h).logEvent (src := srcLedger) (code := 0x8003) (x := code) (y := 0)
  exact Since.onLink (Since.onFramer (Since.onFramer (Since.onLedger (dropTransmit_since hlogged))))

/-- A link that stands in a CV mode goes down for a new attempt. -/
theorem linkDown_eq {s : State} {code : Nat} (hup : s.linkUp = true) (hcv : s.cvMode = true)
    (hen : s.cfgOn F.LEDGER_LINK_CTRL_enable = true) : s.linkDown code = (s.linkStop code).enterStep1 false := by
  have hstands : s.linkStands = true := by simp [linkStands, hup]
  have hforce : (s.linkStop code).inForce = s.inForce :=
    (linkStop_since (.refl _ s) hstands hcv).touches.1 .inForce (by simp)
  unfold linkDown
  rw [if_pos (by simp [hup])]
  dsimp only
  rw [if_pos ((cvMode_congr hforce).trans hcv), if_pos ((cfgOn_congr hforce _).trans hen)]

end State

/-- What a link that has gone down for a new attempt leaves (R138, R158). -/
structure WentDown (s t : State) (code : Nat) : Prop where
  dev : t.mgmt.dev = .bringup
  step : t.dp.link.step = 1
  nonce : t.dp.link.nonce ≠ 0
  sending : t.dp.framer.sending = false
  txRun : t.dp.ledger.txRun = false
  rxRun : t.dp.ledger.rxRun = false
  retention : t.dp.ledger.retention = []
  reg : ∀ a, ¬ noticeReg a → a ≠ R.LEDGER_TX_DOWN_CNT → t.reg a = (s.linkFailed code).reg a
  since : Since (fun _ => ()) s t

theorem wentDown_linkDown {s : State} {code : Nat} (hup : s.linkUp = true) (hcv : s.cvMode = true)
    (hen : s.cfgOn F.LEDGER_LINK_CTRL_enable = true) : WentDown s (s.linkDown code) code := by
  have hstands : s.linkStands = true := by simp [State.linkStands, hup]
  obtain ⟨htx, hrx, hret, hsend⟩ := State.linkStop_ledger (code := code) hstands hcv
  rw [State.linkDown_eq hup hcv hen]
  refine ⟨State.enterStep1_dev _, ?_, ?_, ?_, ?_, ?_, ?_, fun a ha hd => ?_, ?_⟩
  · rw [State.enterStep1_link]; rfl
  · rw [State.enterStep1_link]; exact State.attemptCleared_nonce _
  · rw [State.enterStep1_framer]; exact hsend
  · rw [State.enterStep1_ledger]; exact htx
  · rw [State.enterStep1_ledger]; exact hrx
  · rw [State.enterStep1_ledger]; exact hret
  · rw [State.reg_enterStep1 ha, State.reg_linkStop hstands hcv ha hd]
  · exact State.enterStep1_since (State.linkStop_since (.refl _ s) hstands hcv)

theorem State.reg_linkFailed_of_ne {s : State} {code a : Nat} (hdown : a ≠ R.LEDGER_LINK_DOWN_CNT)
    (hfail : a ≠ R.LEDGER_LINK_FAIL) : (s.linkFailed code).reg a = s.reg a := by
  unfold State.linkFailed
  rw [reg_wr_ne _ _ _ _ hfail, reg_wr_ne _ _ _ _ hfail]
  exact reg_bumpBy_ne _ _ _ _ hdown

section
variable {s t : State} {code : Nat}

/-- A register of the ledger beside the count of discarded units. -/
theorem WentDown.reg_ledger (h : WentDown s t code) {a : Nat} (ha : 0x310000 ≤ a) (hd : a ≠ R.LEDGER_TX_DOWN_CNT) :
    t.reg a = (s.linkFailed code).reg a := h.reg a (State.not_noticeReg_ledger ha) hd

theorem WentDown.last_fail (h : WentDown s t code) : t.rd F.LEDGER_LINK_FAIL_last_fail = code % 2 ^ 8 := by
  rw [State.rd, h.reg_ledger (by decide) (by decide), ← State.rd, State.linkFailed,
    State.rd_wr_disjoint _ _ _ _ (by decide) (by decide), State.rd_wr_same _ _ _ (by decide)]
  rfl

theorem WentDown.counted_down (h : WentDown s t code) : Claims.counted s t R.LEDGER_LINK_DOWN_CNT 1 := by
  rw [Claims.counted, h.reg_ledger (by decide) (by decide), State.linkFailed, State.reg_wr_ne _ _ _ _ (by decide),
    State.reg_wr_ne _ _ _ _ (by decide)]
  exact State.reg_bumpBy_same _ _ _

theorem WentDown.reg_restarts (h : WentDown s t code) : t.reg R.LEDGER_LINK_RESTART_CNT = s.reg R.LEDGER_LINK_RESTART_CNT := by
  rw [h.reg_ledger (by decide) (by decide), State.reg_linkFailed_of_ne (by decide) (by decide)]

end

/-! ## O36 -/

theorem State.linkUp_of_linked {s : State} (h : s.mgmt.dev = .linked) : s.linkUp = true := by
  simp [State.linkUp, h]

section
variable {s : State} {copies : List (Fin 8 × List Bool)} {n : Fin 8} {m : CtlMsg} {rest : List (Fin 8 × CtlMsg)}

/-- A superframe whose copies all fail loses its message (R39). -/
theorem exec_controlMessageAccept_nil (h : s.acceptedCopies copies = []) :
    exec (.controlMessageAccept copies) s = .next (s.onLink fun l => { l with ctlLost := l.ctlLost + 1 }) := by
  change execControlMessageAccept copies s = _
  unfold execControlMessageAccept
  rw [h]

/-- A message that R40 discards is counted, and lost. -/
theorem exec_controlMessageAccept_discarded (h : s.acceptedCopies copies = (n, m) :: rest) (hd : m.discarded = true) :
    exec (.controlMessageAccept copies) s = .next (s.onLink fun l =>
      { l with ctlDisagree := l.ctlDisagree + (rest.filter (·.2 != m)).length, ctlDiscard := l.ctlDiscard + 1,
               ctlLost := l.ctlLost + 1 }) := by
  change execControlMessageAccept copies s = _
  unfold execControlMessageAccept
  rw [h]
  exact if_pos hd

/-- No other accepted copy comes from the first one's lane. -/
theorem ne_of_acceptedCopies (h : s.acceptedCopies copies = (n, m) :: rest) : ∀ x ∈ rest, n ≠ x.1 := by
  have hpair := s.acceptedCopies_pairwise copies
  rw [h] at hpair
  exact fun x hx => List.rel_of_pairwise_cons hpair hx

/-- What is noted of a message is within what its acceptance may touch. -/
theorem noted_accepts : Touches [.dp, .mgmt, .eng, .evr] acceptReg s (s.noted n m rest) :=
  noted_touches.mono (by simp) fun _ h => .inr (.inl h)

/-- The ledger's registers are not the lanes'. -/
theorem noted_reg {a : Nat} (h : 0x310000 ≤ a) : (s.noted n m rest).reg a = s.reg a := by
  refine noted_touches.2.1 a ?_
  rintro ⟨k, rfl⟩
  simp only [R.OLn_DET_STUFF_MM] at h
  omega

/-- A message that ends nothing (R39, R148, R161, R170). -/
theorem accept_proceeds (h : s.acceptedCopies copies = (n, m) :: rest) (hd : m.discarded = false)
    (h6 : s.dp.link.step ≠ 6) (hstep : s.inLinked = true → m.linkStep < 2 ∨ 5 < m.linkStep)
    (hretry : s.inLinked = true → m.linkStep = 7 → m.retryOn = s.dp.ledger.retryOn) :
    ∃ now start paired lanes, exec (.controlMessageAccept copies) s =
      .next ((s.noted n m rest).proceed m now start paired lanes) := by
  obtain ⟨now, start, paired, lanes, hexec⟩ := exec_controlMessageAccept h hd
  have hends : (s.noted n m rest).messageEnds m = none :=
    State.messageEnds_none (by rwa [noted_step]) (by rwa [noted_inLinked]) (by rwa [noted_inLinked, noted_ledger])
  rw [hends] at hexec
  exact ⟨now, start, paired, lanes, hexec⟩

/-- A partner that starts over takes the link of a linked device down (R159). -/
theorem accept_restarts (h : s.acceptedCopies copies = (n, m) :: rest) (hd : m.discarded = false) (hlinked : s.inLinked = true)
    (h2 : 2 ≤ m.linkStep) (h5 : m.linkStep ≤ 5) : exec (.controlMessageAccept copies) s =
      .next (((s.noted n m rest).bump R.LEDGER_LINK_RESTART_CNT).linkDown 0x25) := by
  have hstill : (s.noted n m rest).inLinked = true := noted_inLinked.trans hlinked
  obtain ⟨now, start, paired, lanes, hexec⟩ := exec_controlMessageAccept h hd
  rw [State.messageEnds_restart hstill h2 h5] at hexec
  refine hexec.trans (congrArg _ ?_)
  exact if_pos hstill

/-- An accepted message acknowledges against the window that stood before it. -/
theorem noted_proceed_acked {now start : Nat} {paired lanes : List (Fin 8)} (h5 : m.status ≠ 5) (hlinked : s.inLinked = true)
    (h7 : m.linkStep = 7) (hrx : s.dp.ledger.rxRun = true) (htx : s.dp.ledger.txRun = true) (hretry : s.dp.ledger.retryOn = true)
    (hvalid : m.ackValid = true)
    (hin : State.seqAhead s.txOldest m.ackSeq ≤ State.seqAhead s.txOldest s.dp.ledger.txNext) :
    ((s.noted n m rest).proceed m now start paired lanes).dp.ledger.window.Acked s.txOldest m.ackSeq := by
  have hledger : (s.noted n m rest).dp.ledger = s.dp.ledger := noted_ledger
  have hold : (s.noted n m rest).txOldest = s.txOldest := by simp only [State.txOldest_eq_oldest, hledger]
  rw [← hledger] at hrx htx hretry hin
  rw [← hold] at hin ⊢
  exact proceed_acked h5 (noted_inLinked.trans hlinked) h7 hrx htx hretry hvalid hin

/-- A linked device whose partner has started over: the restart is counted, and the link goes down. -/
theorem restart_wentDown (hdev : s.mgmt.dev = .linked) (hcv : s.cvMode = true)
    (hen : s.cfgOn F.LEDGER_LINK_CTRL_enable = true) :
    WentDown ((s.noted n m rest).bump R.LEDGER_LINK_RESTART_CNT)
      (((s.noted n m rest).bump R.LEDGER_LINK_RESTART_CNT).linkDown 0x25) 0x25 := by
  have hforce : ((s.noted n m rest).bump R.LEDGER_LINK_RESTART_CNT).inForce = s.inForce := noted_touches.1 .inForce (by simp)
  have hmgmt : ((s.noted n m rest).bump R.LEDGER_LINK_RESTART_CNT).mgmt = s.mgmt := noted_touches.1 .mgmt (by simp)
  exact wentDown_linkDown (State.linkUp_of_linked (hmgmt ▸ hdev)) ((State.cvMode_congr hforce).trans hcv)
    ((State.cfgOn_congr hforce _).trans hen)

theorem counted_restarts : Claims.counted s ((s.noted n m rest).bump R.LEDGER_LINK_RESTART_CNT) R.LEDGER_LINK_RESTART_CNT 1 := by
  rw [Claims.counted, State.bump, State.reg_bumpBy_same, noted_reg (by decide)]

/-- The counter of links down stands as it did before the message. -/
theorem reg_down_noted :
    ((s.noted n m rest).bump R.LEDGER_LINK_RESTART_CNT).reg R.LEDGER_LINK_DOWN_CNT = s.reg R.LEDGER_LINK_DOWN_CNT := by
  rw [State.bump, State.reg_bumpBy_ne _ _ _ _ (by decide), noted_reg (by decide)]

end

/-- Settles O36: a message that ends nothing keeps the news that it brings (`proceed_news`) and frees what it acknowledges
(`proceed_acked`); one of a partner that starts over takes the link down (`restart_wentDown`). -/
theorem messagesAccepted : Obligations.MessagesAccepted := by
  unfold Obligations.MessagesAccepted
  intro s copies
  refine ⟨fun hnil => ⟨_, exec_controlMessageAccept_nil hnil, rfl, s.dp_touches _⟩, fun n m rest h =>
    ⟨fun hd => ⟨_, exec_controlMessageAccept_discarded h hd, rfl, rfl, rfl, rfl, s.dp_touches _⟩,
      fun hd h5 h6 hstep hretry => ?_, fun hd hcv hlinked hdev h2 h5 hen => ?_⟩⟩
  · obtain ⟨now, start, paired, lanes, hexec⟩ := accept_proceeds h hd h6 hstep hretry
    obtain ⟨e, hn, hnoted⟩ := noted_news hd (ne_of_acceptedCopies h)
    have hsince : Since Datapath.news (s.noted n m rest) _ :=
      proceed_news (now := now) (start := start) (paired := paired) (lanes := lanes) h5
    have hnews := hsince.view.trans hnoted
    refine ⟨_, hexec, congrArg PartnerNews.step hnews, congrArg PartnerNews.status hnews, congrArg PartnerNews.seenAt hnews,
      congrArg PartnerNews.txLanes hnews, congrArg PartnerNews.retrainReq hnews, ?_, fun hl h7 hrx htx hr hv hin => ?_,
      noted_accepts.trans hsince.touches⟩
    · have hexpected := congrArg (·.expected[n]) hnews
      exact ((Vector.getElem_map _ _).symm.trans hexpected).trans hn
    · exact (Ledger.acked_iff _ _ _).mp (noted_proceed_acked h5 hl h7 hrx htx hr hv hin)
  · have hdown := restart_wentDown (n := n) (m := m) (rest := rest) hdev hcv hen
    have hbump : Since (fun _ => ()) s ((s.noted n m rest).bump R.LEDGER_LINK_RESTART_CNT) := Since.bump ⟨noted_accepts, rfl⟩
    refine ⟨_, accept_restarts h hd hlinked h2 h5, hdown.dev, hdown.step, hdown.nonce, hdown.sending, hdown.txRun, hdown.rxRun,
      hdown.retention, hdown.last_fail, ?_, ?_, (hbump.trans hdown.since).touches⟩
    · rw [Claims.counted, hdown.reg_restarts]
      exact counted_restarts
    · rw [Claims.counted, ← reg_down_noted (s := s) (n := n) (m := m) (rest := rest)]
      exact hdown.counted_down

end Sys2Proof.Machine
end

section
/-!
A unit that completes while the retention store has a base of 8, the first address past the 4 GiB of DRAM. LEDGER_DRAM_BASE.ret_base
has three bits (R168), but the state holds the base as a number. The store's words then wrap around to address 0, none of them counts
as written whole, and the write first reads the words that it replaces: a bit error in one of them is corrected and counted (R357).
-/

namespace Sys2Proof.Machine

/-- A port of one lane without alignment-marker lock, one block short of a unit. -/
def oneBlockShort : Port := { Port.initial with width := 1, openBlocks := List.replicate 58 0 }

/-- A transmit half that runs with retry on, its retention past the end of DRAM. -/
def retainsBeyondDram : Ledger := { Ledger.initial with txRun := true, retryOn := true, place := 2, retBase := 8 }

/-- A device in CV-FULL whose port 0 is about to complete a unit, with one wrong bit in the first word of DRAM. -/
def completesBeyondDram : State :=
  let dp : Datapath := { Datapath.initial with ports := Vector.replicate 16 oneBlockShort, ledger := retainsBeyondDram }
  let s : State := { State.reset with dp := dp, mem := { State.reset.mem with dramEcc := [(0, 1)] } }
  ((s.force F.TOP_MODE_line_mode 1).force F.FRAMER_CTRL_enable 1).force F.FRAMER_PORT_EN_port_en 1

theorem completesBeyondDram_lfFill : completesBeyondDram.lfFill 0 = true := by decide +kernel

/-- A port that fills packs a Local Fault block (R53). -/
theorem exec_localFaultBlockInsert {s : State} {p : Fin 16} {cyc : Nat} (h : s.lfFill p = true) :
    exec (.localFaultBlockInsert p cyc) s = .next (s.packBlock p localFaultBlock true cyc) := by
  change execLocalFaultBlockInsert p cyc s = _
  exact if_pos h

/-- The write of the unit corrects a word of DRAM. -/
theorem dramCorrected_completesBeyondDram :
    (completesBeyondDram.packBlock 0 localFaultBlock true 0).reg R.MEM_DRAM_CE_CNT ≠ completesBeyondDram.reg R.MEM_DRAM_CE_CNT := by
  decide +kernel

/-- Refutes O30: nothing in the statement keeps the retention store within DRAM, and a unit written past its end touches
MEM_DRAM_CE_CNT beside FRAMER_CNT_LOCKFILL and FRAMER_QUEUE_HWM. -/
theorem not_hostBlocksAndUnits : ¬ Obligations.HostBlocksAndUnits := by
  unfold Obligations.HostBlocksAndUnits
  rintro ⟨-, hunits⟩
  obtain ⟨hqueued, -⟩ := hunits completesBeyondDram 0 0 completesBeyondDram_lfFill rfl
  obtain ⟨t, hnext, -, -, -, -, -, -, hregs, -⟩ := hqueued rfl (by decide) fun _ => .inl rfl
  rw [exec_localFaultBlockInsert completesBeyondDram_lfFill] at hnext
  have ht := Host.Outcome.next.inj hnext
  exact dramCorrected_completesBeyondDram (ht ▸ hregs R.MEM_DRAM_CE_CNT (by decide))

end Sys2Proof.Machine
end

section
/-!
Calibration of an optical lane as its runs begin: a run that is requested (R67, R82), and the end of a DAC run (R68).
-/

namespace Sys2Proof.Machine

namespace State

/-! ## Writes of a lane's registers -/

/-- The write of an optical lane's register that acts is the lane's alone. -/
theorem regWrite_optical {s t : State} {x : Source} {a : Nat} {v : Word} {bad : Option Nat} (ha : 0x200000 ≤ a ∧ a < 0x280000)
    (ht : s.opticalWrite a v = some t) : s.regWrite x a v bad = t := by
  have out (k : Nat) (hk : k < 0x200000 ∨ 0x280000 ≤ k) : ¬ a = k := by omega
  have hargs : ¬ a ≤ R.TOP_CMD_ARGk 3 := by simp only [R.TOP_CMD_ARGk]; omega
  have hmail : ¬ a ≤ R.PEN_MB_TXk 63 := by simp only [R.PEN_MB_TXk]; omega
  have htop : s.topWrite x a v = none := by
    simp only [topWrite, hargs, and_false, if_false, out R.TOP_COMMIT (by decide), out R.TOP_SNAP (by decide),
      out R.TOP_CMD (by decide),
      out R.PMON_ADDR (by decide)]
  have hbase : s.baseWrite x a v = none := by
    simp only [baseWrite, if_false, out R.CLK_GATE (by decide), out R.CLK_REF_CTRL (by decide), out R.SEC_FUSE_CTRL (by decide),
      out R.EVR_CTRL (by decide), out R.MEM_INJ_CTRL (by decide), out R.MEM_CLEAR_CTRL (by decide),
      out R.CAP_CTRL (by decide)]
  have hlink : s.linkWrite a v = none := by
    simp only [linkWrite, hmail, false_and, and_false, if_false, out R.TIME_PPS_EXP (by decide),
      out R.TIME_STEP (by decide), out R.TIME_STEP_CTRL (by decide),
      out R.TIME_SERVO_OFS (by decide), out R.PEN_MB_TX_CTRL (by decide), out R.PEN_MB_RX_POP (by decide)]
  simp only [regWrite, htop, hbase, hlink, ht]
  rfl

/-- Bits written as they stand leave the word as it is. -/
theorem merge_or_self {w v : Word} {m : Nat} (h : v &&& BitVec.ofNat 32 m = 0) : merge w m (w ||| v) = w := by
  rw [merge, BitVec.and_comm (w ||| v), BitVec.and_or_distrib_left, BitVec.and_comm _ v, h]
  ext i hi
  simp
  grind

/-- A copy that is written as it stands reads as before. -/
theorem stagedReg_setStaged_self (s : State) (a b : Nat) : (s.setStaged a (s.stagedReg a)).stagedReg b = s.stagedReg b := by
  by_cases h : b = a
  · rw [h, stagedReg_setStaged_same]
  · exact stagedReg_setStaged_ne _ _ _ _ h

theorem setStaged_touches (s : State) (a : Nat) (v : Word) : Touches [.staged] (fun _ => False) s (s.setStaged a v) :=
  ⟨fun p hp => by
    cases p with
    | staged => simp at hp
    | engStore => exact fun _ => rfl
    | _ => rfl, fun _ _ => rfl, rfl⟩

/-! ## Lanes of the datapath -/

theorem onTx_tx_same (s : State) (n : Fin 8) (f : TxLane → TxLane) : (s.onTx n f).dp.tx[n] = f s.dp.tx[n] :=
  Vector.getElem_set_self _

theorem onTx_tx_ne {s : State} {m n : Fin 8} {f : TxLane → TxLane} (h : m ≠ n) : (s.onTx n f).dp.tx[m] = s.dp.tx[m] :=
  Vector.getElem_set_ne n.isLt m.isLt fun e => h (Fin.ext e.symm)

theorem onRx_rx_same (s : State) (n : Fin 8) (f : RxLane → RxLane) : (s.onRx n f).dp.rx[n] = f s.dp.rx[n] :=
  Vector.getElem_set_self _

theorem onRx_rx_ne {s : State} {m n : Fin 8} {f : RxLane → RxLane} (h : m ≠ n) : (s.onRx n f).dp.rx[m] = s.dp.rx[m] :=
  Vector.getElem_set_ne n.isLt m.isLt fun e => h (Fin.ext e.symm)

/-! ## Requests of a DAC run (R67) -/

theorem desc_txCalCtrl : ∀ n : Fin 8,
    desc (R.OLn_TX_CAL_CTRL n) = ⟨0x60, 1, 4, 0xFFFFF1, 0, 0, 2, 0, 0xFFFFF1, 0x1E361, false, 0⟩ := by decide

/-- OLn_TX_CAL_CTRL has staged bits and its run bit alone. -/
theorem plainWrite_txCalCtrl (s : State) (n : Fin 8) (v : Word) : s.plainWrite (R.OLn_TX_CAL_CTRL n) v =
    s.setStaged (R.OLn_TX_CAL_CTRL n) (merge (s.stagedReg (R.OLn_TX_CAL_CTRL n)) 0xFFFFF1 v) := by
  unfold plainWrite
  rw [desc_txCalCtrl]
  rfl

/-- Its run bit requests a run. -/
theorem opticalWrite_txCalCtrl {s : State} {n : Fin 8} {v : Word} (hv : v.getLsbD 1 = true) :
    s.opticalWrite (R.OLn_TX_CAL_CTRL n) v = some ((s.plainWrite (R.OLn_TX_CAL_CTRL n) v).dacRequest n) := by
  have hoff : (R.OLn_TX_CAL_CTRL n - 0x200000) % 0x10000 = 0x60 := by simp only [R.OLn_TX_CAL_CTRL]; omega
  have hlane : Fin.ofNat 8 ((R.OLn_TX_CAL_CTRL n - 0x200000) / 0x10000) = n := by
    refine Fin.ext ?_
    simp only [Fin.ofNat, R.OLn_TX_CAL_CTRL]
    omega
  unfold opticalWrite
  rw [if_neg (by simp only [R.OLn_TX_CAL_CTRL]; omega)]
  simp only [hoff, hlane, hv, if_true]

/-- A port that sets the run bit requests a run, and stages nothing new. -/
theorem put_dacRun {s : State} {port : Fin 5} {n : Fin 8} (h : s.ready port (R.OLn_TX_CAL_CTRL n) = true) :
    s.put port (R.OLn_TX_CAL_CTRL n) (s.stagedReg (R.OLn_TX_CAL_CTRL n) ||| 2) =
      ((s.checked (R.OLn_TX_CAL_CTRL n)).setStaged (R.OLn_TX_CAL_CTRL n) (s.stagedReg (R.OLn_TX_CAL_CTRL n))).dacRequest n := by
  have haddr : 0x200000 ≤ R.OLn_TX_CAL_CTRL n ∧ R.OLn_TX_CAL_CTRL n < 0x280000 := by simp only [R.OLn_TX_CAL_CTRL]; omega
  rw [put_ready s port _ _ h (by omega) (by omega),
    regWrite_optical haddr (opticalWrite_txCalCtrl (by simp)), plainWrite_txCalCtrl,
    show (s.checked (R.OLn_TX_CAL_CTRL n)).stagedReg (R.OLn_TX_CAL_CTRL n) = s.stagedReg (R.OLn_TX_CAL_CTRL n) from rfl,
    merge_or_self (by decide)]

end State

/-- What a request of a run of lane `n` touches: its status, and the engine that serves the lane. -/
def dacRunReg (n : Fin 8) (a : Nat) : Prop := a = R.OLn_TX_CAL_STAT n ∨ engReg a

/-- The registers of the optical lanes are not the engines'. -/
theorem not_engReg_of_optical {a : Nat} (h : 0x200000 ≤ a) : ¬ engReg a := by
  simp only [engReg]
  omega

theorem txCalStat_optical (n : Fin 8) : 0x200000 ≤ R.OLn_TX_CAL_STAT n := by
  simp only [R.OLn_TX_CAL_STAT]
  omega

namespace State

theorem raiseEv_dp {s : State} {e : Fin 9} {i : Nat} : (s.raiseEv e i).dp = s.dp := (raiseEv_touches s e i).1 .dp (by simp)

section
variable {s : State} {n : Fin 8}

/-- A lane that has power starts a run, or remembers the request where one is busy. -/
theorem dacRequest_of_powered (h : s.dp.tx[n].powered = true) : s.dacRequest n =
    if s.flag (F.OLn_TX_CAL_STAT_busy n) then (s.raiseEv (laneEngine n) 10).onDac n fun c => { c with again := true }
    else (s.raiseEv (laneEngine n) 10).wr (F.OLn_TX_CAL_STAT_busy n) 1 := by
  unfold dacRequest
  dsimp only
  rw [raiseEv_dp, if_neg (by rw [h]; decide), flag_congr (reg_raiseEv (not_engReg_of_optical (txCalStat_optical n)))]

theorem dacRequest_busy (h : s.dp.tx[n].powered = true) : (s.dacRequest n).flag (F.OLn_TX_CAL_STAT_busy n) = true := by
  rw [dacRequest_of_powered h]
  split
  · next hbusy =>
    exact (flag_congr (reg_raiseEv (not_engReg_of_optical (txCalStat_optical n)))).trans hbusy
  · exact flag_wr_one rfl (show 0 < 32 by decide)

/-- A request while a run is busy is remembered, and changes nothing else of the datapath; another changes nothing there. -/
theorem dacRequest_dp (h : s.dp.tx[n].powered = true) : (s.dacRequest n).dp =
    if s.flag (F.OLn_TX_CAL_STAT_busy n) then
      { s.dp with tx := s.dp.tx.set n { s.dp.tx[n] with cal := { s.dp.tx[n].cal with again := true } } }
    else s.dp := by
  rw [dacRequest_of_powered h]
  split
  · simp only [onDac, onTx, onDp, raiseEv_dp]
  · exact raiseEv_dp

theorem dacRequest_touches (h : s.dp.tx[n].powered = true) : Touches [.dp, .eng] (dacRunReg n) s (s.dacRequest n) := by
  have hraise : Touches [.dp, .eng] (dacRunReg n) s (s.raiseEv (laneEngine n) 10) :=
    (raiseEv_touches _ _ _).mono (by simp) fun _ ha => .inr ha
  rw [dacRequest_of_powered h]
  split
  · exact hraise.trans ((dp_touches _ _).mono (by simp) (by simp))
  · exact hraise.trans ((wr_touches _ _ _).mono (by simp) fun _ ha => .inl ha)

/-! ## The end of a DAC run (R68) -/

/-- The busy flag falls and the run is counted. -/
def dacCounted (s : State) (n : Fin 8) : State :=
  (s.wr (F.OLn_TX_CAL_STAT_busy n) 0).wr (F.OLn_TX_CAL_STAT_runs n) (s.rd (F.OLn_TX_CAL_STAT_runs n) + 1)

/-- The corrections of an accepted result wait to be loaded, and it is the reference of the next. -/
def dacTaken (s : State) (n : Fin 8) (r : DacResult) : State :=
  s.onDac n fun c =>
    { c with accepted := true, last := r.corr, spur := r.spur, temp := s.therm.laneTemp[n], waiting := some r.corr }

/-- An accepted result is reported. -/
def dacReported (s : State) (n : Fin 8) (r : DacResult) : State :=
  ((((s.wr (F.OLn_TX_CAL_STAT_last n) 1).wr (F.OLn_TX_CAL_STAT_temp_c n) (s.laneTempC n)).wr (F.OLn_TX_QUAL_spur_db n)
    (fixedNat 8 1 ((r.spur : Rat) / 100))).wr (F.OLn_TX_QUAL_sndr_q n) r.sndr).wr (F.OLn_TX_QUAL_valid n) 1

/-- A rejected result is counted. -/
def dacRejected (s : State) (n : Fin 8) : State := (s.wr (F.OLn_TX_CAL_STAT_last n) 2).bump (R.OLn_TX_CAL_REJ_CNT n)

variable {r : DacResult}

theorem dacEnd_of_passes (h : s.dacPasses n r = true) :
    s.dacEnd n r = (((s.dacCounted n).dacTaken n r).dacReported n r).dacAfter n := by
  unfold dacEnd
  rw [h]
  rfl

theorem dacEnd_of_not_passes (h : s.dacPasses n r = false) : s.dacEnd n r = ((s.dacCounted n).dacRejected n).dacAfter n := by
  unfold dacEnd
  rw [h]
  rfl

/-- With no run requested meanwhile, nothing follows where the temperature has not moved. -/
theorem dacAfter_of_same_temp (hagain : s.dp.tx[n].cal.again = false) (htemp : s.dp.tx[n].cal.temp = s.therm.laneTemp[n]) :
    s.dacAfter n = s := by
  unfold dacAfter
  rw [if_neg (by rw [hagain]; decide)]
  exact if_neg fun ⟨_, _, _, _, _, _, hmoved⟩ => by
    rw [htemp, sub_self] at hmoved
    exact Nat.not_lt_zero _ hmoved

/-- Nor without calibration in the background. -/
theorem dacAfter_of_not_bg (hagain : s.dp.tx[n].cal.again = false) (hbg : s.cfgOn (F.OLn_TX_CAL_CTRL_bg_en n) = false) :
    s.dacAfter n = s := by
  unfold dacAfter
  rw [if_neg (by rw [hagain]; decide)]
  exact if_neg fun ⟨_, hon, _⟩ => by simp [hbg] at hon

theorem dacCounted_touches : Touches [] (· = R.OLn_TX_CAL_STAT n) s (s.dacCounted n) := by
  unfold dacCounted
  exact (wr_touches s (F.OLn_TX_CAL_STAT_busy n) 0).trans (wr_touches _ (F.OLn_TX_CAL_STAT_runs n) _)

theorem dacRejected_touches :
    Touches [] (fun a => a = R.OLn_TX_CAL_STAT n ∨ a = R.OLn_TX_CAL_REJ_CNT n) s (s.dacRejected n) := by
  unfold dacRejected
  exact ((wr_touches _ _ _).mono (by simp) fun _ h => .inl h).trans ((bumpBy_touches _ _ _).mono (by simp) fun _ h => .inr h)

theorem dacReported_touches :
    Touches [] (fun a => a = R.OLn_TX_CAL_STAT n ∨ a = R.OLn_TX_QUAL n) s (s.dacReported n r) := by
  unfold dacReported
  have stat (s : State) f v (h : f.addr = R.OLn_TX_CAL_STAT n) :
      Touches [] (fun a => a = R.OLn_TX_CAL_STAT n ∨ a = R.OLn_TX_QUAL n) s (s.wr f v) :=
    (wr_touches _ _ _).mono (by simp) fun _ ha => .inl (ha.trans h)
  have qual (s : State) f v (h : f.addr = R.OLn_TX_QUAL n) :
      Touches [] (fun a => a = R.OLn_TX_CAL_STAT n ∨ a = R.OLn_TX_QUAL n) s (s.wr f v) :=
    (wr_touches _ _ _).mono (by simp) fun _ ha => .inr (ha.trans h)
  exact ((((stat _ _ _ rfl).trans (stat _ _ _ rfl)).trans (qual _ _ _ rfl)).trans (qual _ _ _ rfl)).trans (qual _ _ _ rfl)

theorem laneTempC_lt (s : State) (n : Fin 8) : s.laneTempC n < 2 ^ 8 := by
  simp only [laneTempC, ofSigned]
  omega

/-- What the status of a run's end and its figures read after an accepted result. -/
theorem dacAccepted_status (u : State) (hu : u = ((s.dacCounted n).dacTaken n r).dacReported n r) :
    u.flag (F.OLn_TX_CAL_STAT_busy n) = false ∧ u.rd (F.OLn_TX_CAL_STAT_last n) = 1
      ∧ u.rd (F.OLn_TX_CAL_STAT_runs n) = (s.rd (F.OLn_TX_CAL_STAT_runs n) + 1) % 2 ^ 16
      ∧ u.rd (F.OLn_TX_CAL_STAT_temp_c n) = s.laneTempC n ∧ u.flag (F.OLn_TX_QUAL_valid n) = true := by
  have htemp : ((s.dacCounted n).dacTaken n r).laneTempC n = s.laneTempC n := rfl
  have honDac (t : State) (f : DacCal → DacCal) a : (t.onDac n f).reg a = t.reg a := rfl
  have hlt := s.laneTempC_lt n
  subst hu
  simp only [dacReported, htemp]
  simp [dacTaken, dacCounted, honDac, flag, rd, wr, reg_setReg, getField_putField, getField_putField_disjoint, F.OLn_TX_CAL_STAT_busy,
    F.OLn_TX_CAL_STAT_last, F.OLn_TX_CAL_STAT_runs, F.OLn_TX_CAL_STAT_temp_c, F.OLn_TX_QUAL_spur_db, F.OLn_TX_QUAL_sndr_q,
    F.OLn_TX_QUAL_valid, R.OLn_TX_QUAL, R.OLn_TX_CAL_STAT]
  exact hlt

/-- What the status of a run's end reads after a rejected result. -/
theorem dacRejected_status (u : State) (hu : u = (s.dacCounted n).dacRejected n) :
    u.flag (F.OLn_TX_CAL_STAT_busy n) = false ∧ u.rd (F.OLn_TX_CAL_STAT_last n) = 2
      ∧ u.rd (F.OLn_TX_CAL_STAT_runs n) = (s.rd (F.OLn_TX_CAL_STAT_runs n) + 1) % 2 ^ 16
      ∧ Claims.counted s u (R.OLn_TX_CAL_REJ_CNT n) 1 := by
  have hcount (t : State) : (t.bump (R.OLn_TX_CAL_REJ_CNT n)).reg (R.OLn_TX_CAL_STAT n) = t.reg (R.OLn_TX_CAL_STAT n) :=
    reg_bumpBy_ne _ _ _ _ (by simp [R.OLn_TX_CAL_STAT, R.OLn_TX_CAL_REJ_CNT])
  have hstat : (s.dacCounted n).reg (R.OLn_TX_CAL_REJ_CNT n) = s.reg (R.OLn_TX_CAL_REJ_CNT n) :=
    dacCounted_touches.2.1 _ (by simp [R.OLn_TX_CAL_STAT, R.OLn_TX_CAL_REJ_CNT])
  subst hu
  refine ⟨?_, ?_, ?_, ?_⟩
  iterate 3
    simp [dacRejected, dacCounted, hcount, flag, rd, wr, getField_putField, getField_putField_disjoint,
      F.OLn_TX_CAL_STAT_busy, F.OLn_TX_CAL_STAT_last, F.OLn_TX_CAL_STAT_runs]
  rw [Claims.counted, dacRejected, bump, reg_bumpBy_same,
    reg_wr_ne _ _ _ _ (by simp [R.OLn_TX_CAL_REJ_CNT, F.OLn_TX_CAL_STAT_last, R.OLn_TX_CAL_STAT]), hstat]

end

section
variable {s : State} {n : Fin 8} {r : DacResult}

/-- R68: a result within the limits is taken. -/
theorem dacEnd_accepts (hagain : s.dp.tx[n].cal.again = false) (h : s.dacPasses n r = true) :
    s.dacEnd n r = ((s.dacCounted n).dacTaken n r).dacReported n r := by
  have hlane : (((s.dacCounted n).dacTaken n r).dacReported n r).dp.tx[n] = { s.dp.tx[n] with cal := { s.dp.tx[n].cal with
      accepted := true, last := r.corr, spur := r.spur, temp := s.therm.laneTemp[n], waiting := some r.corr } } :=
    Vector.getElem_set_self _
  rw [dacEnd_of_passes h]
  refine dacAfter_of_same_temp ?_ ?_
  · rw [hlane]
    exact hagain
  · rw [hlane]
    rfl

/-- R68: another is rejected. -/
theorem dacEnd_rejects (hagain : s.dp.tx[n].cal.again = false) (hbg : s.cfgOn (F.OLn_TX_CAL_CTRL_bg_en n) = false)
    (h : s.dacPasses n r = false) : s.dacEnd n r = (s.dacCounted n).dacRejected n :=
  (dacEnd_of_not_passes h).trans (dacAfter_of_not_bg hagain hbg)

theorem dacAccepted_touches : Touches [.dp] (fun a => a = R.OLn_TX_CAL_STAT n ∨ a = R.OLn_TX_QUAL n) s
    (((s.dacCounted n).dacTaken n r).dacReported n r) :=
  ((dacCounted_touches.mono (by simp) fun _ => .inl).trans ((dp_touches _ _).mono (by simp) (by simp))).trans
    (dacReported_touches.mono (by simp) fun _ h => h)

end
end State
end Sys2Proof.Machine
end

section
/-!
The start of ADC runs (R79, R82) and the power-up of an optical lane (R13, R67, R82, R97).
-/

namespace Sys2Proof.Machine

/-- What an ADC run that starts leaves of a receive lane: all but the state of the run, and of the calibration the corrections. -/
def RxLane.RunOf (r r' : RxLane) : Prop :=
  r' = { r with adc := r'.adc } ∧ r'.adc.slices = r.adc.slices ∧ r'.adc.trims = r.adc.trims

theorem RxLane.RunOf.refl (r : RxLane) : r.RunOf r := ⟨rfl, rfl, rfl⟩

theorem RxLane.RunOf.trans {r r' r'' : RxLane} (h : r.RunOf r') (k : r'.RunOf r'') : r.RunOf r'' := by
  obtain ⟨h1, h2, h3⟩ := h
  obtain ⟨k1, k2, k3⟩ := k
  refine ⟨?_, k2.trans h2, k3.trans h3⟩
  rw [k1, h1]

/-- The registers of ADC runs of the lanes that share lane `n`'s engine. -/
def adcRunReg (n : Fin 8) (a : Nat) : Prop := ∃ m : Fin 8, m.val / 2 = n.val / 2 ∧ a = R.OLn_RX_CAL_STAT m

/-- Between two states an ADC run of lane `n`'s pair may have been requested and started. -/
structure AdcRuns (n : Fin 8) (s t : State) : Prop where
  touches : Touches [.dp, .eng] (fun a => adcRunReg n a ∨ engReg a) s t
  dp : t.dp = { s.dp with rx := t.dp.rx }
  lane : ∀ m : Fin 8, s.dp.rx[m].RunOf t.dp.rx[m]
  other : ∀ m : Fin 8, m.val / 2 ≠ n.val / 2 → t.dp.rx[m] = s.dp.rx[m]
  spare : ∀ m : Fin 8, t.rd (F.OLn_RX_CAL_STAT_spare m) = s.rd (F.OLn_RX_CAL_STAT_spare m)

section
variable {n : Fin 8} {s t u : State}

theorem AdcRuns.refl (n : Fin 8) (s : State) : AdcRuns n s s := ⟨.refl _ _ _, rfl, fun _ => .refl _, fun _ _ => rfl, fun _ => rfl⟩

theorem AdcRuns.trans (h : AdcRuns n s t) (k : AdcRuns n t u) : AdcRuns n s u :=
  ⟨h.touches.trans k.touches, by rw [k.dp, h.dp], fun m => (h.lane m).trans (k.lane m),
    fun m hm => (k.other m hm).trans (h.other m hm), fun m => (k.spare m).trans (h.spare m)⟩

theorem AdcRuns.tx (h : AdcRuns n s t) : t.dp.tx = s.dp.tx := by rw [h.dp]

theorem rxCalStat_optical (m : Fin 8) : 0x200000 ≤ R.OLn_RX_CAL_STAT m := by
  simp only [R.OLn_RX_CAL_STAT]
  omega

/-- An event of an engine. -/
theorem AdcRuns.raiseEv (e : Fin 9) (i : Nat) : AdcRuns n s (s.raiseEv e i) := by
  have hdp : (s.raiseEv e i).dp = s.dp := State.raiseEv_dp
  refine ⟨(State.raiseEv_touches _ _ _).mono (by simp) fun _ => .inr, by rw [hdp], fun m => ?_, fun m _ => by rw [hdp], fun m => ?_⟩
  · rw [hdp]
    exact .refl _
  · exact congrArg (getField · _ _) (State.reg_raiseEv (not_engReg_of_optical (rxCalStat_optical m)))

/-- The state of a run of a lane of the pair changes. -/
theorem AdcRuns.onAdc {m : Fin 8} {f : AdcCal → AdcCal} (hm : m.val / 2 = n.val / 2)
    (hs : (f s.dp.rx[m].adc).slices = s.dp.rx[m].adc.slices) (ht : (f s.dp.rx[m].adc).trims = s.dp.rx[m].adc.trims) :
    AdcRuns n s (s.onAdc m f) := by
  refine ⟨(s.dp_touches _).mono (by simp) (by simp), rfl, fun k => ?_, fun k hk => ?_, fun _ => rfl⟩
  · by_cases h : k = m
    · rw [h]
      exact State.onRx_rx_same s m _ ▸ ⟨rfl, hs, ht⟩
    · exact State.onRx_rx_ne (s := s) h ▸ .refl _
  · exact State.onRx_rx_ne fun e => hk (e ▸ hm)

/-- The spare slice of no lane changes by a write of another field of the status. -/
theorem AdcRuns.wr {m : Fin 8} {f : RField} {v : Nat} (hm : m.val / 2 = n.val / 2) (ha : f.addr = R.OLn_RX_CAL_STAT m)
    (hf : f.lo + f.width ≤ 10) : AdcRuns n s (s.wr f v) := by
  refine ⟨(s.wr_touches f v).mono (by simp) fun a h => .inl ⟨m, hm, h.trans ha⟩, rfl, fun _ => .refl _, fun _ _ => rfl, fun k => ?_⟩
  exact State.rd_wr_disjoint _ _ _ _ (.inr hf) (by decide : 10 + 7 ≤ 32)

theorem AdcRuns.adcStart {m : Fin 8} (hm : m.val / 2 = n.val / 2) : AdcRuns n s (s.adcStart m) := by
  unfold State.adcStart
  exact ((AdcRuns.onAdc hm rfl rfl).trans (.wr hm rfl (show 0 + 1 ≤ 10 by decide))).trans (.wr hm rfl (show 3 + 7 ≤ 10 by decide))

namespace State

/-- The two lanes that share lane `n`'s engine. -/
def pairLow (n : Fin 8) : Fin 8 := ⟨n.val / 2 * 2 % 8, Nat.mod_lt _ (by decide)⟩
def pairHigh (n : Fin 8) : Fin 8 := ⟨(n.val / 2 * 2 + 1) % 8, Nat.mod_lt _ (by decide)⟩

/-- A lane that has power waits for a run. -/
def adcWaits (s : State) (n : Fin 8) : Bool := s.dp.rx[n].adc.request && s.dp.rx[n].powered

theorem adcReview_eq (s : State) (n : Fin 8) : s.adcReview n =
    if s.adcBusy (pairLow n) || s.adcBusy (pairHigh n) then s
    else if s.adcWaits (pairLow n) then s.adcStart (pairLow n)
    else if s.adcWaits (pairHigh n) then s.adcStart (pairHigh n)
    else s := rfl

theorem pairLow_div (n : Fin 8) : (pairLow n).val / 2 = n.val / 2 := by
  simp only [pairLow]
  omega

theorem pairHigh_div (n : Fin 8) : (pairHigh n).val / 2 = n.val / 2 := by
  simp only [pairHigh]
  omega

/-- A lane is one of its pair. -/
theorem eq_pairLow_or_eq_pairHigh (n : Fin 8) : n = pairLow n ∨ n = pairHigh n := by
  simp only [pairLow, pairHigh, Fin.ext_iff]
  omega

/-- The only lane of an idle pair that waits starts its run. -/
theorem adcReview_starts (hbusy : ∀ m : Fin 8, m.val / 2 = n.val / 2 → s.adcBusy m = false)
    (hother : ∀ m : Fin 8, m ≠ n → m.val / 2 = n.val / 2 → s.adcWaits m = false) (hn : s.adcWaits n = true) :
    s.adcReview n = s.adcStart n := by
  rw [adcReview_eq, hbusy _ (pairLow_div n), hbusy _ (pairHigh_div n), if_neg (by decide)]
  by_cases hlow : pairLow n = n
  · rw [hlow, if_pos hn]
  · have hhigh : pairHigh n = n := ((eq_pairLow_or_eq_pairHigh n).resolve_left (Ne.symm hlow)).symm
    rw [hother _ hlow (pairLow_div n), if_neg (by decide), hhigh, if_pos hn]

/-- A run has started in its slot 0. -/
theorem adcStart_busy (s : State) (n : Fin 8) : (s.adcStart n).adcBusy n = true ∧ (s.adcStart n).rd (F.OLn_RX_CAL_STAT_step n) = 0 := by
  have honAdc (f : AdcCal → AdcCal) a : (s.onAdc n f).reg a = s.reg a := rfl
  simp [adcStart, adcBusy, honAdc, flag, rd, wr, getField_putField, getField_putField_disjoint, F.OLn_RX_CAL_STAT_busy,
    F.OLn_RX_CAL_STAT_step]

end State

theorem AdcRuns.adcReview : AdcRuns n s (s.adcReview n) := by
  rw [State.adcReview_eq]
  split
  · exact .refl _ _
  · split
    · exact .adcStart (State.pairLow_div n)
    · split
      · exact .adcStart (State.pairHigh_div n)
      · exact .refl _ _

theorem AdcRuns.adcRequest : AdcRuns n s (s.adcRequest n) := by
  unfold State.adcRequest
  dsimp only
  split
  · exact ((AdcRuns.raiseEv _ _).trans (.onAdc rfl rfl rfl)).trans .adcReview
  · exact .raiseEv _ _

/-- A lane that has power, whose pair is idle and whose pair's other lane does not wait, starts its run at a request. -/
theorem State.adcRequest_starts (hpow : s.dp.rx[n].powered = true) (hbusy : ∀ m : Fin 8, m.val / 2 = n.val / 2 → s.adcBusy m = false)
    (hother : ∀ m : Fin 8, m ≠ n → m.val / 2 = n.val / 2 → s.adcWaits m = false) :
    (s.adcRequest n).adcBusy n = true ∧ (s.adcRequest n).rd (F.OLn_RX_CAL_STAT_step n) = 0 := by
  have hreq : s.adcRequest n = ((s.raiseEv (laneEngine n) 10).onAdc n fun c => { c with request := true }).adcReview n := by
    unfold State.adcRequest
    dsimp only
    rw [raiseEv_dp]
    exact if_pos hpow
  have hlanes : ((s.raiseEv (laneEngine n) 10).onAdc n fun c => { c with request := true }).dp.rx =
      s.dp.rx.set n { s.dp.rx[n] with adc := { s.dp.rx[n].adc with request := true } } := by
    simp only [onAdc, onRx, onDp, raiseEv_dp]
  have hregs (m : Fin 8) : ((s.raiseEv (laneEngine n) 10).onAdc n fun c => { c with request := true }).adcBusy m = s.adcBusy m :=
    flag_congr (reg_raiseEv (not_engReg_of_optical (rxCalStat_optical m)))
  rw [hreq, adcReview_starts (fun m hm => (hregs m).trans (hbusy m hm)) ?_ ?_]
  · exact adcStart_busy _ _
  · intro m hne hm
    refine Eq.trans ?_ (hother m hne hm)
    rw [adcWaits, hlanes]
    exact congrArg (fun r : RxLane => r.adc.request && r.powered) (Vector.getElem_set_ne _ _ fun e => hne (Fin.ext e.symm))
  · rw [adcWaits, hlanes]
    exact (congrArg (fun r : RxLane => r.adc.request && r.powered) (Vector.getElem_set_self _)).trans ((Bool.true_and _).trans hpow)

end

/-! ## The power-up of a lane -/

namespace State

/-- The calibration record of a lane that powers up, where the image has one. -/
def calRecord (s : State) (record : Option (Nat × DacCorr)) : Option (Nat × DacCorr) :=
  if s.boot.acted.any (·.kind == 3) then record else none

/-- The DAC calibration that a lane starts from: its record's, or the factory's. -/
def dacAtPowerUp (s : State) (n : Fin 8) (record : Option (Nat × DacCorr)) : DacCal :=
  let corr := match record with | some (_, c) => c | none => s.factoryCorr
  { TxLane.initial.cal with
    spur := match record with | some (d, _) => d | none => 4500
    temp := s.therm.laneTemp[n], last := corr, loaded := corr }

/-- The transmit side of a lane has power. -/
def txPowered (s : State) (n : Fin 8) (record : Option (Nat × DacCorr)) : State :=
  let s := s.onTx n fun t => { t with powered := true, cal := s.dacAtPowerUp n record }
  if record.isSome then s else { s with draws := s.draws + 268 }

/-- A receive lane that has just got power: tap sets and accumulators are those that it had, and so are slice corrections after
STANDBY (R321). -/
def rxAtPowerUp (s : State) (r : RxLane) : RxLane :=
  { RxLane.initial with
    powered := true, equ := { Equ.initial with acc := r.equ.acc, pow := r.equ.pow, inForce := r.equ.inForce },
    adc := { AdcCal.initial with slices := if r.keptCal then Slice.home r.adc.slices else s.recordSlices,
                                 trims := if r.keptCal then r.adc.trims else s.recordTrims } }

/-- The receive side of a lane has power. -/
def rxPowered (s : State) (n : Fin 8) : State :=
  if s.dp.rx[n].keptCal then s.onRx n s.rxAtPowerUp else { s.onRx n s.rxAtPowerUp with draws := s.draws + 194 }

/-- The receive registers that take their reset values at power-up. -/
def rxRegsReset (s : State) (n : Fin 8) : State :=
  (((s.setReg (R.OLn_CDR_STAT n) 0x2).setReg (R.OLn_CDR_FREQ n) 0).setReg (R.OLn_RX_CAL_STAT n) 0x10000).wr
    (F.OLn_RX_STAT_slice_parked n) 0

/-- The detector takes its configuration. -/
def detLoaded (s : State) (n : Fin 8) : State := s.onEqu n fun e =>
  { e with det := s.inForceReg (R.OLn_DET_CTRL n), detTarget := s.inForceReg (R.OLn_DET_TARGET n) }

/-- A lane that powers up, before its runs are requested. -/
def laneUp (s : State) (n : Fin 8) (record : Option (Nat × DacCorr)) : State :=
  (((s.txPowered n (s.calRecord record)).rxPowered n).rxRegsReset n).detLoaded n

theorem lanePowerUp_eq (s : State) (n : Fin 8) (record : Option (Nat × DacCorr)) :
    s.lanePowerUp n record = ((s.laneUp n record).dacRequest n).adcRequest n := rfl

section
variable {s : State} {n : Fin 8} {record : Option (Nat × DacCorr)}

theorem txPowered_dp : (s.txPowered n record).dp =
    { s.dp with tx := s.dp.tx.set n { s.dp.tx[n] with powered := true, cal := s.dacAtPowerUp n record } } := by
  unfold txPowered
  dsimp only
  split <;> rfl

theorem rxPowered_dp : (s.rxPowered n).dp = { s.dp with rx := s.dp.rx.set n (s.rxAtPowerUp s.dp.rx[n]) } := by
  unfold rxPowered
  split <;> rfl

/-- The lane's receive registers at power-up. -/
theorem rxRegsReset_touches : Touches [] (fun a => a = R.OLn_CDR_STAT n ∨ a = R.OLn_CDR_FREQ n ∨ a = R.OLn_RX_CAL_STAT n
    ∨ a = R.OLn_RX_STAT n) s (s.rxRegsReset n) :=
  ((((setReg_touches _ _ _).mono (by simp) fun _ => .inl).trans
    ((setReg_touches _ _ _).mono (by simp) fun _ h => .inr (.inl h))).trans
    ((setReg_touches _ _ _).mono (by simp) fun _ h => .inr (.inr (.inl h)))).trans
    ((wr_touches _ _ _).mono (by simp) fun _ h => .inr (.inr (.inr h)))

theorem rxRegsReset_reg : (s.rxRegsReset n).reg (R.OLn_CDR_STAT n) = 2 ∧ (s.rxRegsReset n).reg (R.OLn_CDR_FREQ n) = 0
    ∧ (s.rxRegsReset n).reg (R.OLn_RX_CAL_STAT n) = 0x10000 := by
  simp [rxRegsReset, wr, reg_setReg, F.OLn_RX_STAT_slice_parked, R.OLn_CDR_STAT, R.OLn_CDR_FREQ, R.OLn_RX_CAL_STAT, R.OLn_RX_STAT]

/-- A draw of free values touches nothing. -/
theorem draws_touches (s : State) (k : Nat) : Touches [] (fun _ => False) s { s with draws := k } :=
  ⟨fun p _ => by
    cases p with
    | engStore => exact fun _ => rfl
    | _ => rfl, fun _ _ => rfl, rfl⟩

theorem txPowered_touches : Touches [.dp] (fun _ => False) s (s.txPowered n record) := by
  unfold txPowered
  dsimp only
  split
  · exact dp_touches _ _
  · exact (dp_touches _ _).trans ((draws_touches _ _).mono (by simp) (by simp))

theorem rxPowered_touches : Touches [.dp] (fun _ => False) s (s.rxPowered n) := by
  unfold rxPowered
  split
  · exact dp_touches _ _
  · exact (dp_touches _ _).trans ((draws_touches _ _).mono (by simp) (by simp))

/-- The state in which a lane's receive side gets power. -/
theorem laneUp_touches : Touches [.dp] (fun a => a = R.OLn_CDR_STAT n ∨ a = R.OLn_CDR_FREQ n ∨ a = R.OLn_RX_CAL_STAT n
    ∨ a = R.OLn_RX_STAT n) s (s.laneUp n record) :=
  (((txPowered_touches.trans rxPowered_touches).mono (by simp) (by simp)).trans
    (rxRegsReset_touches.mono (by simp) fun _ h => h)).trans ((dp_touches _ _).mono (by simp) (by simp))

theorem laneUp_reg : (s.laneUp n record).reg (R.OLn_CDR_STAT n) = 2 ∧ (s.laneUp n record).reg (R.OLn_CDR_FREQ n) = 0
    ∧ (s.laneUp n record).reg (R.OLn_RX_CAL_STAT n) = 0x10000 := rxRegsReset_reg

theorem laneUp_tx : (s.laneUp n record).dp.tx =
    s.dp.tx.set n { s.dp.tx[n] with powered := true, cal := s.dacAtPowerUp n (s.calRecord record) } := by
  have h : (s.laneUp n record).dp.tx = ((s.txPowered n (s.calRecord record)).rxPowered n).dp.tx := rfl
  rw [h, rxPowered_dp, txPowered_dp]

/-- A receive lane that has powered up, with its detector's configuration. -/
theorem laneUp_rx_same : ∃ (u : State) (e : Equ), e.inForce = s.dp.rx[n].equ.inForce
    ∧ (s.laneUp n record).dp.rx[n] = { u.rxAtPowerUp s.dp.rx[n] with equ := e } := by
  refine ⟨s.txPowered n (s.calRecord record), ?_⟩
  have h : ((s.txPowered n (s.calRecord record)).rxPowered n).dp.rx[n] =
      (s.txPowered n (s.calRecord record)).rxAtPowerUp s.dp.rx[n] := by
    simp only [rxPowered_dp, txPowered_dp]
    exact Vector.getElem_set_self _
  have hdet : (s.laneUp n record).dp.rx[n] = _ := onRx_rx_same _ n _
  rw [hdet]
  refine ⟨_, ?_, congrArg (fun r : RxLane => ({ r with equ := _ } : RxLane)) h⟩
  exact (congrArg (fun r : RxLane => r.equ.inForce) h).trans rfl

theorem laneUp_rx_ne {m : Fin 8} (h : m ≠ n) : (s.laneUp n record).dp.rx[m] = s.dp.rx[m] := by
  have hdet : (s.laneUp n record).dp.rx[m] = ((s.txPowered n (s.calRecord record)).rxPowered n).dp.rx[m] := onRx_rx_ne h
  rw [hdet]
  simp only [rxPowered_dp, txPowered_dp]
  exact Vector.getElem_set_ne _ _ fun e => h (Fin.ext e.symm)

/-- A request of a DAC run leaves the receive lanes, and the other transmit lanes; of its own it changes at most what is remembered. -/
theorem dacRequest_lanes (h : s.dp.tx[n].powered = true) : (s.dacRequest n).dp.rx = s.dp.rx
    ∧ (∀ m : Fin 8, m ≠ n → (s.dacRequest n).dp.tx[m] = s.dp.tx[m])
    ∧ ∃ again, (s.dacRequest n).dp.tx[n] = { s.dp.tx[n] with cal := { s.dp.tx[n].cal with again := again } } := by
  rw [dacRequest_dp h]
  split
  · exact ⟨rfl, fun m hm => Vector.getElem_set_ne n.isLt m.isLt fun e => hm (Fin.ext e.symm), _, Vector.getElem_set_self _⟩
  · exact ⟨rfl, fun _ _ => rfl, s.dp.tx[n].cal.again, rfl⟩

end
end State

/-- What a lane that has powered up holds (R13, R67, R77, R86, R97, R321). -/
structure PoweredUp (n : Fin 8) (record : Option (Nat × DacCorr)) (s t : State) : Prop where
  tx : ∃ again, t.dp.tx[n] = { s.dp.tx[n] with
    powered := true, cal := { s.dacAtPowerUp n (s.calRecord record) with again := again } }
  rx : ∃ (u : State) (e : Equ) (c : AdcCal), e.inForce = s.dp.rx[n].equ.inForce
    ∧ t.dp.rx[n] = { u.rxAtPowerUp s.dp.rx[n] with equ := e, adc := c }
    ∧ c.slices = (u.rxAtPowerUp s.dp.rx[n]).adc.slices ∧ c.trims = (u.rxAtPowerUp s.dp.rx[n]).adc.trims
  txOther : ∀ m : Fin 8, m ≠ n → t.dp.tx[m] = s.dp.tx[m]
  rxOther : ∀ m : Fin 8, m.val / 2 ≠ n.val / 2 → t.dp.rx[m] = s.dp.rx[m]
  cdrStat : t.reg (R.OLn_CDR_STAT n) = 2
  cdrFreq : t.reg (R.OLn_CDR_FREQ n) = 0
  spare : t.rd (F.OLn_RX_CAL_STAT_spare n) = 64
  dacBusy : t.flag (F.OLn_TX_CAL_STAT_busy n) = true
  adcBusy : (∀ m : Fin 8, m ≠ n → m.val / 2 = n.val / 2 → s.adcBusy m = false ∧ s.dp.rx[m].adc.request = false) →
    t.adcBusy n = true ∧ t.rd (F.OLn_RX_CAL_STAT_step n) = 0
  touches : Touches [.dp, .eng] (fun a => a = R.OLn_CDR_FREQ n ∨ a = R.OLn_CDR_STAT n ∨ a = R.OLn_RX_STAT n
    ∨ adcRunReg n a ∨ a = R.OLn_TX_CAL_STAT n ∨ engReg a) s t

section
variable {s : State} {n : Fin 8} {record : Option (Nat × DacCorr)}

/-- A lane that has powered up, with its DAC run requested. -/
def State.laneUpDac (s : State) (n : Fin 8) (record : Option (Nat × DacCorr)) : State := (s.laneUp n record).dacRequest n

theorem laneUp_powered : (s.laneUp n record).dp.tx[n].powered = true := by
  simp only [State.laneUp_tx]
  exact congrArg TxLane.powered (Vector.getElem_set_self _)

theorem laneUpDac_rx : (s.laneUpDac n record).dp.rx = (s.laneUp n record).dp.rx := (State.dacRequest_lanes laneUp_powered).1

theorem poweredUp_lanePowerUp : PoweredUp n record s (s.lanePowerUp n record) := by
  have hruns : AdcRuns n (s.laneUpDac n record) (s.lanePowerUp n record) := AdcRuns.adcRequest
  obtain ⟨-, htxOther, again, htx⟩ := State.dacRequest_lanes (laneUp_powered (s := s) (n := n) (record := record))
  have hreq : Touches [.dp, .eng] (dacRunReg n) (s.laneUp n record) (s.laneUpDac n record) := State.dacRequest_touches laneUp_powered
  have htouch := State.laneUp_touches (s := s) (n := n) (record := record)
  obtain ⟨hstat, hfreq, hcal⟩ := State.laneUp_reg (s := s) (n := n) (record := record)
  -- the requests leave the other registers of the lane
  have kept {a : Nat} (ha : 0x200000 ≤ a) (h1 : a ≠ R.OLn_TX_CAL_STAT n) :
      (s.laneUpDac n record).reg a = (s.laneUp n record).reg a :=
    hreq.2.1 a fun h => h.elim h1 (not_engReg_of_optical ha)
  have same {a : Nat} (ha : 0x200000 ≤ a) (h2 : ¬ adcRunReg n a) :
      (s.lanePowerUp n record).reg a = (s.laneUpDac n record).reg a :=
    hruns.touches.2.1 a fun h => h.elim h2 (not_engReg_of_optical ha)
  obtain ⟨u, e, he, hrx⟩ := State.laneUp_rx_same (s := s) (n := n) (record := record)
  obtain ⟨hlane, hslices, htrims⟩ := hruns.lane n
  refine ⟨⟨again, ?_⟩, ⟨u, e, (s.lanePowerUp n record).dp.rx[n].adc, he, ?_, ?_, ?_⟩, fun m hm => ?_, fun m hm => ?_, ?_, ?_, ?_,
    ?_, fun hidle => ?_, ?_⟩
  · simp only [hruns.tx]
    refine htx.trans ?_
    simp only [State.laneUp_tx]
    rw [show (s.dp.tx.set n _)[n] = _ from Vector.getElem_set_self _]
  · rw [hlane, laneUpDac_rx, hrx]
  · rw [hslices, laneUpDac_rx, hrx]
  · rw [htrims, laneUpDac_rx, hrx]
  · simp only [hruns.tx]
    refine (htxOther m hm).trans ?_
    simp only [State.laneUp_tx]
    exact Vector.getElem_set_ne n.isLt m.isLt fun e => hm (Fin.ext e.symm)
  · rw [hruns.other m hm, laneUpDac_rx, State.laneUp_rx_ne fun e : m = n => hm (e ▸ rfl)]
  · rw [same (by simp only [R.OLn_CDR_STAT]; omega) (by simp only [adcRunReg, R.OLn_CDR_STAT, R.OLn_RX_CAL_STAT]; omega),
      kept (by simp only [R.OLn_CDR_STAT]; omega) (by simp only [R.OLn_CDR_STAT, R.OLn_TX_CAL_STAT]; omega), hstat]
  · rw [same (by simp only [R.OLn_CDR_FREQ]; omega) (by simp only [adcRunReg, R.OLn_CDR_FREQ, R.OLn_RX_CAL_STAT]; omega),
      kept (by simp only [R.OLn_CDR_FREQ]; omega) (by simp only [R.OLn_CDR_FREQ, R.OLn_TX_CAL_STAT]; omega), hfreq]
  · have h : (s.laneUpDac n record).reg (R.OLn_RX_CAL_STAT n) = 0x10000 :=
      (kept (rxCalStat_optical n) (by simp only [R.OLn_RX_CAL_STAT, R.OLn_TX_CAL_STAT]; omega)).trans hcal
    rw [hruns.spare, State.rd, show (F.OLn_RX_CAL_STAT_spare n).addr = R.OLn_RX_CAL_STAT n from rfl, h]
    exact (by decide : getField 0x10000 10 7 = 64)
  · have h : (s.laneUpDac n record).flag (F.OLn_TX_CAL_STAT_busy n) = true := State.dacRequest_busy laneUp_powered
    rw [← h]
    exact State.flag_congr (same (txCalStat_optical n) (by
      simp only [adcRunReg, F.OLn_TX_CAL_STAT_busy, R.OLn_TX_CAL_STAT, R.OLn_RX_CAL_STAT]; omega))
  · have hpow : (s.laneUpDac n record).dp.rx[n].powered = true := by rw [laneUpDac_rx, hrx]; rfl
    have hrest (m : Fin 8) : (s.laneUpDac n record).reg (R.OLn_RX_CAL_STAT m) = (s.laneUp n record).reg (R.OLn_RX_CAL_STAT m) :=
      kept (rxCalStat_optical m) (by simp only [R.OLn_RX_CAL_STAT, R.OLn_TX_CAL_STAT]; omega)
    refine State.adcRequest_starts (s := s.laneUpDac n record) hpow (fun m hm => ?_) fun m hne hm => ?_
    · by_cases hne : m = n
      · rw [hne, State.adcBusy, State.flag, State.rd, show (F.OLn_RX_CAL_STAT_busy n).addr = R.OLn_RX_CAL_STAT n from rfl,
          hrest, hcal]
        exact (by decide : (getField 0x10000 0 1 == 1) = false)
      · have hstays : (s.laneUp n record).reg (R.OLn_RX_CAL_STAT m) = s.reg (R.OLn_RX_CAL_STAT m) := htouch.2.1 _ (by
          have := fun e => hne (Fin.ext e)
          simp only [R.OLn_CDR_STAT, R.OLn_CDR_FREQ, R.OLn_RX_CAL_STAT, R.OLn_RX_STAT]
          omega)
        exact (State.flag_congr ((hrest m).trans hstays)).trans (hidle m hne hm).1
    · rw [State.adcWaits, laneUpDac_rx, State.laneUp_rx_ne hne, (hidle m hne hm).2]
      rfl
  · refine ((htouch.mono (by simp) ?_).trans (hreq.mono (fun _ h => h) ?_)).trans (hruns.touches.mono (fun _ h => h) ?_)
    · rintro a (h | h | h | h)
      exacts [.inr (.inl h), .inl h, .inr (.inr (.inr (.inl ⟨n, rfl, h⟩))), .inr (.inr (.inl h))]
    · rintro a (h | h)
      exacts [.inr (.inr (.inr (.inr (.inl h)))), .inr (.inr (.inr (.inr (.inr h))))]
    · rintro a (h | h)
      exacts [.inr (.inr (.inr (.inl h))), .inr (.inr (.inr (.inr (.inr h))))]

end

end Sys2Proof.Machine
end

section
/-!
The statement about DAC runs and the power-up of a lane.
-/

namespace Sys2Proof.Machine

section
variable {s : State} {port : Fin 5} {n : Fin 8} {r : DacResult} {record : Option (Nat × DacCorr)}

/-- A port requests a DAC run (R67). -/
theorem dacCalRunRequest_answers (hready : s.ready port (R.OLn_TX_CAL_CTRL n) = true) (hpow : s.dp.tx[n].powered = true) :
    Answers (.dacCalRunRequest port n) s fun t => t.flag (F.OLn_TX_CAL_STAT_busy n) = true
      ∧ (s.flag (F.OLn_TX_CAL_STAT_busy n) = true → t.dp.tx[n].cal = { s.dp.tx[n].cal with again := true })
      ∧ (s.flag (F.OLn_TX_CAL_STAT_busy n) = false → t.dp = s.dp) ∧ (∀ a, t.stagedReg a = s.stagedReg a)
      ∧ Touches [.staged, .dp, .mem, .eng] (fun a => a = R.OLn_TX_CAL_STAT n ∨ engReg a) s t := by
  let u := (s.checked (R.OLn_TX_CAL_CTRL n)).setStaged (R.OLn_TX_CAL_CTRL n) (s.stagedReg (R.OLn_TX_CAL_CTRL n))
  have hbefore : Touches [.staged, .mem] (fun _ => False) s u :=
    ((State.checked_touches _ _).mono (by simp) (by simp)).trans ((State.setStaged_touches _ _ _).mono (by simp) (by simp))
  have hpowu : u.dp.tx[n].powered = true := hpow
  have hflag : u.flag (F.OLn_TX_CAL_STAT_busy n) = s.flag (F.OLn_TX_CAL_STAT_busy n) := rfl
  have hdp := State.dacRequest_dp hpowu
  have htouch := State.dacRequest_touches hpowu
  refine ⟨u.dacRequest n, congrArg Host.Outcome.next (State.put_dacRun hready), State.dacRequest_busy hpowu, fun hbusy => ?_,
    fun hidle => ?_, fun a => ?_, (hbefore.mono (by simp) (by simp)).trans (htouch.mono (by simp) fun _ h => h)⟩
  · rw [hflag, hbusy, if_pos rfl] at hdp
    simp only [hdp]
    exact congrArg TxLane.cal (Vector.getElem_set_self _)
  · rw [hflag, hidle, if_neg (by decide)] at hdp
    exact hdp
  · have hstaged : (u.dacRequest n).staged = u.staged := htouch.1 .staged (by simp)
    exact (congrArg (mapGet (resetWord a) · a) hstaged).trans (s.stagedReg_setStaged_self (R.OLn_TX_CAL_CTRL n) a)

/-- The end of a busy DAC run. -/
theorem exec_dacCalRunEnd (h : s.flag (F.OLn_TX_CAL_STAT_busy n) = true) :
    exec (.dacCalRunEnd n r) s = .next (s.dacEnd n r) := by
  change execDacCalRunEnd n r s = _
  exact if_pos h

/-- A lane of the mode in force powers up where its unit has not failed (R13, R368). -/
theorem exec_lanePowerUp (hmask : bitOf s.laneMask n = true) (hunit : s.unitFailed (16 + n) = false)
    (hpow : s.dp.tx[n].powered = false) (hoff : s.dpOff = false) :
    exec (.lanePowerUp n record) s = .next (s.lanePowerUp n record) := by
  change execLanePowerUp n record s = _
  exact if_neg (by rw [hmask, hunit, hpow, hoff]; decide)

theorem State.calRecord_none : s.calRecord none = none := ite_self none

end

/-- Settles O32: a request is `dacCalRunRequest_answers`; a result is taken (`State.dacEnd_accepts`) or rejected
(`State.dacEnd_rejects`); what a lane that powers up holds is `PoweredUp`. -/
theorem dacRunsAndPowerUp : Obligations.DacRunsAndPowerUp := by
  unfold Obligations.DacRunsAndPowerUp
  intro s port n r record
  refine ⟨dacCalRunRequest_answers, fun hbusy hagain => ⟨fun hpass => ?_, fun hpass hbg => ?_⟩, fun hmask hunit hpow hoff => ?_⟩
  · obtain ⟨hidle, hlast, hruns, htemp, hvalid⟩ := State.dacAccepted_status (s := s) (n := n) (r := r) _ rfl
    exact ⟨_, (exec_dacCalRunEnd hbusy).trans (congrArg _ (State.dacEnd_accepts hagain hpass)), hidle, hlast, hruns, htemp, hvalid,
      rfl, State.dacAccepted_touches⟩
  · obtain ⟨hidle, hlast, hruns, hcount⟩ := State.dacRejected_status (s := s) (n := n) _ rfl
    exact ⟨_, (exec_dacCalRunEnd hbusy).trans (congrArg _ (State.dacEnd_rejects hagain hbg hpass)), hidle, hlast, hruns, hcount,
      (State.dacCounted_touches.mono (by simp) fun _ => .inl).trans State.dacRejected_touches⟩
  · have hup := poweredUp_lanePowerUp (s := s) (n := n) (record := record)
    obtain ⟨again, htx⟩ := hup.tx
    obtain ⟨u, e, c, he, hrx, hslices, htrims⟩ := hup.rx
    refine ⟨_, exec_lanePowerUp hmask hunit hpow hoff, ?_, ?_, ?_, ?_, ?_, ?_, hup.cdrFreq, hup.dacBusy, ?_, fun hkept => ⟨?_, ?_⟩,
      hup.spare, fun d k hrecord hacted => ⟨?_, ?_, ?_⟩, fun hnone => ⟨?_, ?_⟩, hup.adcBusy, hup.txOther, hup.rxOther, hup.touches⟩
    · rw [htx]
    · rw [hrx]; rfl
    · rw [hrx]; rfl
    · rw [hrx]; rfl
    · rw [State.flag, State.rd, show (F.OLn_CDR_STAT_fallback n).addr = R.OLn_CDR_STAT n from rfl, hup.cdrStat]
      exact (by decide : (getField 2 1 1 == 1) = true)
    · rw [State.flag, State.rd, show (F.OLn_CDR_STAT_locked n).addr = R.OLn_CDR_STAT n from rfl, hup.cdrStat]
      exact (by decide : (getField 2 0 1 == 1) = false)
    · rw [hrx]; exact he
    · rw [hrx]; exact hslices.trans (if_pos hkept)
    · rw [hrx]; exact htrims.trans (if_pos hkept)
    · rw [htx, State.calRecord, if_pos hacted, hrecord]; rfl
    · rw [htx, State.calRecord, if_pos hacted, hrecord]; rfl
    · rw [htx, State.calRecord, if_pos hacted, hrecord]; rfl
    · rw [htx, hnone, State.calRecord_none]; rfl
    · rw [htx, hnone, State.calRecord_none]; rfl

end Sys2Proof.Machine
end

section
/-!
Reads of stored words: what they touch (R357, R358), and that what they give back rests on the memories and on the retry ledger's
stores alone.
-/

namespace Sys2Proof.Machine

/-- The registers that count or report what a read of a memory meets (R357). -/
def memReadReg (a : Nat) : Prop := a = R.MEM_SRAM_CE_CNT ∨ a = R.MEM_DRAM_CE_CNT ∨ Claims.ueReg a

/-- The parts that a read of a memory touches. -/
abbrev memReadParts : List Part := [.eng, .evr, .mem, .memStore]

namespace State

theorem onMem_touches (s : State) (f : MemState → MemState) : Touches [.mem, .memStore] (fun _ => False) s (s.onMem f) :=
  ⟨fun p hp => by
    cases p with
    | mem | memStore => simp at hp
    | engStore => exact fun _ => rfl
    | _ => rfl, fun _ _ => rfl, rfl⟩

theorem uncorrectable_touches (s : State) (dram scrub : Bool) (loc syn : Nat) :
    Touches [.eng, .evr] Claims.ueReg s (s.uncorrectable dram scrub loc syn) := by
  unfold uncorrectable
  refine (((((bumpBy_touches _ _ _).mono (by simp) fun a h => ?_).trans ((setReg_touches _ _ _).mono (by simp) fun a h => ?_)).trans
    ((setReg_touches _ _ _).mono (by simp) fun a h => ?_)).trans ((setInt_touches _ _).mono (by simp) fun a h => ?_)).trans
    ((logEvent_touches _ _ _ _ _).mono (fun _ h => h) fun a h => ?_)
  · cases dram with
    | false => exact .inl h
    | true => exact .inr (.inl h)
  · exact .inr (.inr (.inl h))
  · exact .inr (.inr (.inr (.inl h)))
  · exact h.elim (fun h => .inr (.inr (.inr (.inr (.inl h))))) fun h => .inr (.inr (.inr (.inr (.inr (.inr (.inr (.inr h)))))))
  · exact .inr (.inr (.inr (.inr (.inr h))))

theorem poisonReadShared_touches (s : State) : Touches [.eng, .evr] Claims.ueReg s s.poisonReadShared := by
  have hdrew (u : State) : Touches [.eng, .evr] Claims.ueReg u u.drew := (drew_touches u).mono (by simp) (by simp)
  unfold poisonReadShared poisonRead
  dsimp only
  split
  · exact (hdrew _).trans (hdrew _)
  · exact ((hdrew _).trans (hdrew _)).trans (uncorrectable_touches _ _ _ _ _)

theorem eccRead_touches (s : State) (dram : Bool) (loc : Option Nat) (code : Nat) :
    Touches [.eng, .evr] memReadReg s (s.eccRead dram loc code).1 := by
  have hdrew (u : State) : Touches [.eng, .evr] memReadReg u u.drew := (drew_touches u).mono (by simp) (by simp)
  have hue (u : State) (l syn : Nat) : Touches [.eng, .evr] memReadReg u (u.uncorrectable dram false l syn) :=
    (uncorrectable_touches _ _ _ _ _).mono (fun _ h => h) fun _ h => .inr (.inr h)
  unfold eccRead
  split
  · exact .refl _ _ _
  · refine (bumpBy_touches _ _ _).mono (by simp) fun a h => ?_
    cases dram with
    | false => exact .inl h
    | true => exact .inr (.inl h)
  · dsimp only
    split
    · exact (hdrew _).trans (hue _ _ _)
    · exact ((hdrew _).trans (hdrew _)).trans (hue _ _ _)
  · exact .refl _ _ _

/-- What stands in a word after a read, and whether the read returns poison. -/
theorem eccRead_snd (s : State) (dram : Bool) (loc : Option Nat) (code : Nat) :
    (s.eccRead dram loc code).2 = (if code ≤ 1 then 0 else code, decide (2 ≤ code)) := by
  match code with
  | 0 => rfl
  | 1 => rfl
  | 2 => cases loc <;> rfl
  | n + 3 => simp [eccRead]

theorem onMem_read (s : State) (f : MemState → MemState) : Touches memReadParts memReadReg s (s.onMem f) :=
  (onMem_touches s f).mono (by simp) (by simp)

theorem eccRead_read (s : State) (dram : Bool) (loc : Option Nat) (code : Nat) :
    Touches memReadParts memReadReg s (s.eccRead dram loc code).1 :=
  (eccRead_touches s dram loc code).mono (by simp) fun _ h => h

theorem dramReadWord_touches (s : State) (a : Nat) : Touches memReadParts memReadReg s (s.dramReadWord a).1 := by
  unfold dramReadWord
  split
  · exact .refl _ _ _
  · split
    · exact .refl _ _ _
    · let x := s.eccRead true (some (a / 8)) (s.dramCode a)
      change Touches _ _ s (x.1.setDramCode a x.2.1)
      exact (eccRead_read _ _ _ _).trans (onMem_read _ _)

theorem sramReadWord_touches (s : State) (loc : Nat) : Touches memReadParts memReadReg s (s.sramReadWord loc).1 := by
  unfold sramReadWord
  split
  · exact .refl _ _ _
  · let x := s.eccRead false (some loc) (mapGet 0 s.mem.sramEcc loc)
    change Touches _ _ s (x.1.onMem fun m => { m with sramEcc := mapSet 0 m.sramEcc loc x.2.1 })
    exact (eccRead_read _ _ _ _).trans (onMem_read _ _)

theorem spoil_touches (s : State) (hold : Bool) (q : Nat) (bad : List Nat) :
    Touches memReadParts memReadReg s (s.spoil hold q bad) := by
  refine Touches.foldl _ (fun u w => ?_) bad s
  split
  · dsimp only
    split
    · exact onMem_read _ _
    · exact .refl _ _ _
  · exact onMem_read _ _

end State

/-- A fold whose first component is a state touches what its steps touch. -/
theorem Touches.foldlFst {β γ : Type} {ps : List Part} {may : Nat → Prop} (g : State × γ → β → State × γ)
    (h : ∀ x b, Touches ps may x.1 (g x b).1) (l : List β) (x : State × γ) : Touches ps may x.1 (l.foldl g x).1 := by
  induction l generalizing x with
  | nil => exact .refl _ _ _
  | cons b l ih => exact (h x b).trans (ih _)

/-! ## A unit is read word by word -/

/-- The next word of a unit in DRAM. -/
def dramUnitWord (hold : Bool) (q : Nat) (x : State × List (Option Nat)) (w : Nat) : State × List (Option Nat) :=
  ((x.1.storeWord hold q w).1, x.2 ++ [(x.1.storeWord hold q w).2])

/-- The next word of a unit in SRAM, of which the places that return poison are kept. -/
def sramUnitWord (hold : Bool) (q : Nat) (x : State × List Nat) (w : Nat) : State × List Nat :=
  ((x.1.sramReadWord (State.sramSlot hold q + w)).1,
    if (x.1.sramReadWord (State.sramSlot hold q + w)).2 then x.2 ++ [w] else x.2)

namespace State

/-- The words of a unit that a read finds uncorrectable, marked so. -/
def spoiled (s : State) (hold : Bool) (q : Nat) (bad : List Nat) : State := s.spoil hold q (bad.filter (decide <| · < 237))

theorem spoiled_place {s : State} {hold : Bool} {q : Nat} {bad : List Nat} :
    (s.spoiled hold q bad).dp.ledger.place = s.dp.ledger.place :=
  congrArg (·.ledger.place) ((spoil_touches s hold q _).1 .dp (by decide))

/-- The words of a unit in DRAM. -/
def dramWords (s : State) (hold : Bool) (q : Nat) (bad : List Nat) : State × List (Option Nat) :=
  (List.range 237).foldl (dramUnitWord hold q) (s.spoiled hold q bad, [])

/-- The words of a unit in SRAM that return poison. -/
def sramLost (s : State) (hold : Bool) (q : Nat) (bad : List Nat) : State × List Nat :=
  (List.range 237).foldl (sramUnitWord hold q) (s.spoiled hold q bad, [])

section
variable {s : State} {hold : Bool} {q : Nat} {bad : List Nat} {kept : List Block}

theorem storeRead_of_dram (h : s.dp.ledger.place = 2) : (s.storeRead hold q bad kept).1 = (s.dramWords hold q bad).1
    ∧ (s.storeRead hold q bad kept).2 = (wordsPayload ((s.dramWords hold q bad).2.map (·.getD 0)),
      (List.range 237).filter fun w => ((s.dramWords hold q bad).2.getD w none).isNone) := by
  unfold storeRead dramWords
  generalize List.range 237 = l
  have hplace := spoiled_place (s := s) (hold := hold) (q := q) (bad := bad)
  exact ⟨congrArg Prod.fst (if_pos (hplace.trans h)), congrArg Prod.snd (if_pos (hplace.trans h))⟩

theorem storeRead_of_sram (h : ¬ s.dp.ledger.place = 2) : (s.storeRead hold q bad kept).1 = (s.sramLost hold q bad).1
    ∧ (s.storeRead hold q bad kept).2 = (kept, (s.sramLost hold q bad).2) := by
  unfold storeRead sramLost
  generalize List.range 237 = l
  have hplace := spoiled_place (s := s) (hold := hold) (q := q) (bad := bad)
  exact ⟨congrArg Prod.fst (if_neg fun k => h (hplace.symm.trans k)), congrArg Prod.snd (if_neg fun k => h (hplace.symm.trans k))⟩

theorem spoiled_touches : Touches memReadParts memReadReg s (s.spoiled hold q bad) := spoil_touches s hold q _

theorem dramWords_touches : Touches memReadParts memReadReg s (s.dramWords hold q bad).1 :=
  spoiled_touches.trans (Touches.foldlFst (dramUnitWord hold q) (fun x _ => dramReadWord_touches x.1 _) _ (_, []))

theorem sramLost_touches : Touches memReadParts memReadReg s (s.sramLost hold q bad).1 :=
  spoiled_touches.trans (Touches.foldlFst (sramUnitWord hold q) (fun x _ => sramReadWord_touches x.1 _) _ (_, []))

theorem storeRead_touches : Touches memReadParts memReadReg s (s.storeRead hold q bad kept).1 := by
  by_cases h : s.dp.ledger.place = 2
  · rw [(storeRead_of_dram h).1]
    exact dramWords_touches
  · rw [(storeRead_of_sram h).1]
    exact sramLost_touches

end
end State

/-! ## What a read of a store gives back -/

/-- Two states whose stores hold the same: the memories, and where the ledger keeps its units. -/
structure SameStores (s t : State) : Prop where
  mem : t.mem = s.mem
  ledger : t.dp.ledger = s.dp.ledger

namespace SameStores

variable {s t : State}

theorem of_reads {s' t' : State} (h : SameStores s t) (hs : Touches memReadParts memReadReg s s')
    (ht : Touches memReadParts memReadReg t t') (hmem : t'.mem = s'.mem) : SameStores s' t' := by
  have hs' : s'.dp = s.dp := hs.1 .dp (by decide)
  have ht' : t'.dp = t.dp := ht.1 .dp (by decide)
  exact ⟨hmem, by rw [hs', ht', h.ledger]⟩

theorem dramReadWord (h : SameStores s t) (a : Nat) :
    SameStores (s.dramReadWord a).1 (t.dramReadWord a).1 ∧ (t.dramReadWord a).2 = (s.dramReadWord a).2 := by
  have hcode : t.dramCode a = s.dramCode a := by rw [State.dramCode, State.dramCode, h.mem]
  have hlost : t.dramLost a = s.dramLost a := by rw [State.dramLost, State.dramLost, h.mem]
  have hboth : (t.dramReadWord a).1.mem = (s.dramReadWord a).1.mem ∧ (t.dramReadWord a).2 = (s.dramReadWord a).2 := by
    unfold State.dramReadWord
    rw [hcode, hlost]
    split
    · exact ⟨h.mem, rfl⟩
    · split
      · exact ⟨h.mem, rfl⟩
      · simp only [State.setDramCode, State.onMem, State.eccRead_mem, State.eccRead_snd, h.mem, and_self]
  exact ⟨h.of_reads (State.dramReadWord_touches s a) (State.dramReadWord_touches t a) hboth.1, hboth.2⟩

theorem sramReadWord (h : SameStores s t) (loc : Nat) :
    SameStores (s.sramReadWord loc).1 (t.sramReadWord loc).1 ∧ (t.sramReadWord loc).2 = (s.sramReadWord loc).2 := by
  have hvalid : t.sramLineValid loc = s.sramLineValid loc := by rw [State.sramLineValid, State.sramLineValid, h.mem]
  have hboth : (t.sramReadWord loc).1.mem = (s.sramReadWord loc).1.mem ∧ (t.sramReadWord loc).2 = (s.sramReadWord loc).2 := by
    unfold State.sramReadWord
    rw [hvalid, h.mem]
    split
    · exact ⟨h.mem, rfl⟩
    · simp only [State.onMem, State.eccRead_mem, State.eccRead_snd, h.mem, and_self]
  exact ⟨h.of_reads (State.sramReadWord_touches s loc) (State.sramReadWord_touches t loc) hboth.1, hboth.2⟩

theorem dramWord (h : SameStores s t) (a : Nat) : t.dramWord a = s.dramWord a := by
  simp only [State.dramWord, State.dramBytes, State.dramByte, h.mem]

theorem slotDown (h : SameStores s t) (a : Nat) : t.slotDown a = s.slotDown a := by
  simp only [State.slotDown, State.dramLost, h.mem, h.ledger]

theorem rebuiltWord (h : SameStores s t) (base g w i : Nat) : t.rebuiltWord base g w i = s.rebuiltWord base g w i := by
  have hmember (k : Nat) : t.memberWord base g w k = s.memberWord base g w k := by
    rw [State.memberWord, State.memberWord, h.slotDown, h.dramWord, State.dramCode, State.dramCode, h.mem]
  simp only [State.rebuiltWord, hmember]

theorem storeWord (h : SameStores s t) (hold : Bool) (q w : Nat) :
    SameStores (s.storeWord hold q w).1 (t.storeWord hold q w).1 ∧ (t.storeWord hold q w).2 = (s.storeWord hold q w).2 := by
  have hbase : t.storeBase hold = s.storeBase hold := by simp only [State.storeBase, h.ledger]
  unfold State.storeWord
  dsimp only
  rw [hbase]
  obtain ⟨hread, hpoison⟩ := h.dramReadWord (memberAddr (s.storeBase hold) (q % 131072 / 16) (q % 16) + 8 * w)
  exact ⟨hread, by rw [hpoison, hread.slotDown, hread.rebuiltWord, hread.dramWord]⟩

/-- A fold over reads that each give the same back. -/
theorem foldl {β γ : Type} {g : State × γ → β → State × γ}
    (hg : ∀ (s t : State) (c : γ) b, SameStores s t → SameStores (g (s, c) b).1 (g (t, c) b).1 ∧ (g (t, c) b).2 = (g (s, c) b).2)
    (l : List β) (c : γ) (h : SameStores s t) : (l.foldl g (t, c)).2 = (l.foldl g (s, c)).2 := by
  induction l generalizing s t c with
  | nil => rfl
  | cons b l ih =>
    obtain ⟨hnext, hans⟩ := hg s t c b h
    rw [List.foldl_cons, List.foldl_cons, ← Prod.eta (g (t, c) b), ← Prod.eta (g (s, c) b), hans]
    exact ih _ hnext

/-- A read of a unit gives the same back from stores that hold the same, where it finds no new word uncorrectable. -/
theorem storeRead (h : SameStores s t) (hold : Bool) (q : Nat) (kept : List Block) :
    (t.storeRead hold q [] kept).2 = (s.storeRead hold q [] kept).2 := by
  have hplace : t.dp.ledger.place = s.dp.ledger.place := congrArg (·.place) h.ledger
  by_cases hdram : s.dp.ledger.place = 2
  · have hwords : (t.dramWords hold q []).2 = (s.dramWords hold q []).2 :=
      foldl (g := dramUnitWord hold q) (fun s t c w h =>
        ⟨(h.storeWord hold q w).1, congrArg (c ++ [·]) (h.storeWord hold q w).2⟩) _ [] h
    rw [(State.storeRead_of_dram (hplace.trans hdram)).2, (State.storeRead_of_dram hdram).2, hwords]
  · have hlost : (t.sramLost hold q []).2 = (s.sramLost hold q []).2 :=
      foldl (g := sramUnitWord hold q) (fun s t c w h => ⟨(h.sramReadWord (State.sramSlot hold q + w)).1,
        congrArg (fun p : Bool => if p then c ++ [w] else c) (h.sramReadWord (State.sramSlot hold q + w)).2⟩) _ [] h
    rw [(State.storeRead_of_sram fun k => hdram (hplace.symm.trans k)).2, (State.storeRead_of_sram hdram).2, hlost]

end SameStores
end Sys2Proof.Machine
end

section
/-!
One slot of a slot decision (R55–R58, R172, R173): what it carries, and what it takes from the queue.
-/

namespace Sys2Proof.Machine

/-- The registers that a slot may count in, but for those of data slots. -/
def otherSlotReg (a : Nat) : Prop :=
  a = R.FRAMER_CNT_REPLAY_LO ∨ a = R.FRAMER_CNT_REPLAY_HI ∨ a = R.FRAMER_CNT_FILLER_LO ∨ a = R.FRAMER_CNT_FILLER_HI
    ∨ a = R.FRAMER_CNT_POISON ∨ a = R.FRAMER_WAIT_MAX ∨ a = R.LEDGER_TX_RET_POISON ∨ memReadReg a

/-- The registers that a slot may count in. -/
def slotReg (a : Nat) : Prop := a = R.FRAMER_CNT_DATA_LO ∨ a = R.FRAMER_CNT_DATA_HI ∨ otherSlotReg a

/-- The parts that a slot touches. -/
abbrev slotParts : List Part := [.dp, .eng, .evr, .mem, .memStore]

theorem not_otherSlotReg_dataLo : ¬ otherSlotReg R.FRAMER_CNT_DATA_LO := by
  unfold otherSlotReg memReadReg Claims.ueReg noticeReg engReg
  decide

theorem not_otherSlotReg_dataHi : ¬ otherSlotReg R.FRAMER_CNT_DATA_HI := by
  unfold otherSlotReg memReadReg Claims.ueReg noticeReg engReg
  decide

theorem not_slotReg_commit : ¬ slotReg R.TOP_COMMIT := by
  unfold slotReg otherSlotReg memReadReg Claims.ueReg noticeReg engReg
  decide

/-- Lane `n` is given the slot `u`, which takes `k` units from the queue. -/
structure SlotFilled (n : Fin 8) (u : SlotUnit) (k : Nat) (s t : State) : Prop where
  touches : Touches slotParts slotReg s t
  tx : t.dp.tx = s.dp.tx.set n { s.dp.tx[n] with slots := s.dp.tx[n].slots ++ [u] }
  framer : t.dp.framer = { s.dp.framer with ready := s.dp.framer.ready.drop k }
  txNext : t.dp.ledger.txNext = (s.dp.ledger.txNext + k) % 2 ^ 18
  counted : Claims.counted64 s t R.FRAMER_CNT_DATA_LO k

namespace State

/-! ## Counters and high-water marks -/

theorem bump64_touches (s : State) (lo n : Nat) : Touches [] (fun a => a = lo ∨ a = lo + 4) s (s.bump64 lo n) :=
  ((setReg_touches _ _ _).mono (fun _ h => h) fun _ h => .inl h).trans
    ((setReg_touches _ _ _).mono (fun _ h => h) fun _ h => .inr h)

theorem raiseMax_touches (s : State) (f : RField) (v : Nat) : Touches [] (· = f.addr) s (s.raiseMax f v) := by
  unfold raiseMax
  split
  · exact wr_touches _ _ _
  · exact .refl _ _ _

theorem count64_bump64 (s : State) (lo n : Nat) : (s.bump64 lo n).count64 lo = (s.count64 lo + n) % 2 ^ 64 :=
  count64_setCount64 _ _ _ (Nat.mod_lt _ (by decide))

theorem count64_congr {s t : State} {lo : Nat} (hlo : t.reg lo = s.reg lo) (hhi : t.reg (lo + 4) = s.reg (lo + 4)) :
    t.count64 lo = s.count64 lo := by
  rw [count64, count64, hlo, hhi]

theorem count64_lt (s : State) (lo : Nat) : s.count64 lo < 2 ^ 64 := by
  have hlo := (s.reg lo).isLt
  have hhi := (s.reg (lo + 4)).isLt
  unfold count64
  omega

/-- What touches no count of data slots leaves the count. -/
theorem dataCount_of_touches {s t : State} {ps : List Part} (h : Touches ps otherSlotReg s t) :
    t.count64 R.FRAMER_CNT_DATA_LO = s.count64 R.FRAMER_CNT_DATA_LO :=
  count64_congr (h.2.1 _ not_otherSlotReg_dataLo) (h.2.1 _ not_otherSlotReg_dataHi)

theorem dataCounted_zero {s t : State} {ps : List Part} (h : Touches ps otherSlotReg s t) :
    Claims.counted64 s t R.FRAMER_CNT_DATA_LO 0 :=
  (dataCount_of_touches h).trans (Nat.mod_eq_of_lt (count64_lt _ _)).symm

/-! ## Slots -/

theorem slot_dp (s : State) (d : Datapath) : Touches slotParts otherSlotReg s { s with dp := d } :=
  (s.dp_touches d).mono (by simp) (by simp)

/-- The filler slot rests on tx_next_seq and the commit epoch. -/
theorem fillerSlot_congr {s t : State} (hnext : t.dp.ledger.txNext = s.dp.ledger.txNext)
    (hepoch : t.reg R.TOP_COMMIT = s.reg R.TOP_COMMIT) : t.fillerSlot = s.fillerSlot := by
  have hrd : t.rd F.TOP_COMMIT_commit_no = s.rd F.TOP_COMMIT_commit_no := congrArg (getField · _ _) hepoch
  rw [fillerSlot, fillerSlot, hnext, epoch4, epoch4, hrd]

section
variable {s t : State} {n : Fin 8} {u : SlotUnit}

/-- A slot of another kind than data. -/
theorem slotFilled_other (h : Touches slotParts otherSlotReg s t) (htx : t.dp.tx = s.dp.tx) (hframer : t.dp.framer = s.dp.framer)
    (hnext : t.dp.ledger.txNext = s.dp.ledger.txNext) (hlt : s.dp.ledger.txNext < 2 ^ 18) :
    SlotFilled n u 0 s (t.putSlot n u) := by
  have htouch : Touches slotParts otherSlotReg s (t.putSlot n u) := h.trans (slot_dp _ _)
  refine ⟨htouch.mono (fun _ h => h) fun _ h => .inr (.inr h), ?_, hframer, ?_, dataCounted_zero htouch⟩
  · rw [← htx]
    rfl
  · exact hnext.trans (Nat.mod_eq_of_lt hlt).symm

/-- A filler slot. -/
theorem putFiller_filled (hlt : s.dp.ledger.txNext < 2 ^ 18) : SlotFilled n s.fillerSlot 0 s (s.putFiller n) := by
  have hcount : Touches slotParts otherSlotReg s (s.bump64 R.FRAMER_CNT_FILLER_LO 1) :=
    (bump64_touches s _ _).mono (by simp) fun _ h => .inr (.inr (h.elim .inl (.inr ∘ .inl)))
  exact slotFilled_other hcount rfl rfl rfl hlt

/-- The slot of a waiting unit (R56). -/
def dataSlot (s : State) (u : TxUnit) (poison : Bool) : SlotUnit :=
  { kind := 1, seq := s.dp.ledger.txNext, port := u.port, epoch := u.epoch, blocks := u.blocks, badCrc := poison, start := u.start }

/-- The datapath after a waiting unit is taken, before its slot is put. -/
def dataTaken (s : State) (n : Fin 8) (u : TxUnit) (start : Nat) : State :=
  let q := s.dp.ledger.txNext
  let s := (s.onFramer fun f => { f with ready := f.ready.drop 1 }).frameSent u start
  let tag := s.frameEnding u
  s.onLedger fun l =>
    { l with txNext := (q + 1) % 2 ^ 18,
             retention := l.retention.map fun r =>
               if r.seq = q then { r with t1 := some start, lane := n.val, lastStart := start, frameT1 := tag } else r }

/-- A unit that is poisoned is counted. -/
def poisonCounted (s : State) (poison : Bool) : State := if poison then (s.bump R.FRAMER_CNT_POISON).poisonReadShared else s

theorem sendData_eq {u : TxUnit} {start : Nat} {poison : Bool} : s.sendData n u start poison =
    ((((s.dataTaken n u start).poisonCounted poison).raiseMax F.FRAMER_WAIT_MAX_cycles (start - u.done)).bump64
      R.FRAMER_CNT_DATA_LO 1).putSlot n (s.dataSlot u poison) := rfl

theorem poisonCounted_touches (s : State) (poison : Bool) :
    Touches [.eng, .evr] otherSlotReg s (s.poisonCounted poison) := by
  unfold poisonCounted
  split
  · exact ((bumpBy_touches s _ _).mono (by simp) fun _ h => .inr (.inr (.inr (.inr (.inl h))))).trans
      ((poisonReadShared_touches _).mono (fun _ h => h) fun _ h =>
        .inr (.inr (.inr (.inr (.inr (.inr (.inr (.inr (.inr h)))))))))
  · exact .refl _ _ _

/-- A data slot takes the first unit of the queue. -/
theorem sendData_filled {u : TxUnit} {start : Nat} {poison : Bool} :
    SlotFilled n (s.dataSlot u poison) 1 s (s.sendData n u start poison) := by
  let v := s.dataTaken n u start
  let w := (v.poisonCounted poison).raiseMax F.FRAMER_WAIT_MAX_cycles (start - u.done)
  have hcounts : Touches [.eng, .evr] otherSlotReg v w :=
    (poisonCounted_touches v poison).trans ((raiseMax_touches _ _ _).mono (by simp) fun _ h =>
      .inr (.inr (.inr (.inr (.inr (.inl h))))))
  have htouch : Touches slotParts otherSlotReg s w := (slot_dp s v.dp).trans (hcounts.mono (by simp) fun _ h => h)
  have hdp : w.dp = v.dp := hcounts.1 .dp (by decide)
  have hsent : Touches slotParts slotReg s (w.bump64 R.FRAMER_CNT_DATA_LO 1) :=
    (htouch.mono (fun _ h => h) fun _ h => .inr (.inr h)).trans
      ((bump64_touches w _ _).mono (by simp) fun _ h => h.elim .inl (.inr ∘ .inl))
  rw [sendData_eq]
  refine ⟨hsent.trans ((slot_dp _ _).mono (fun _ h => h) fun _ h => .inr (.inr h)), ?_, ?_, ?_, ?_⟩
  · refine (congrArg (fun d : Datapath => d.tx.set n { d.tx[n] with slots := d.tx[n].slots ++ [s.dataSlot u poison] }) hdp).trans ?_
    rfl
  · exact congrArg (·.framer) hdp
  · exact congrArg (·.ledger.txNext) hdp
  · exact (count64_bump64 w _ 1).trans (by rw [dataCount_of_touches htouch])

/-! ## Replays (R172, R173) -/

/-- What the read of a retained copy gives back; where a poisoned read is due, which word it concerns is free. -/
def replayRead (s : State) (x : Retained) (poison : Bool) : State × List Block × List Nat :=
  s.drew.storeRead false x.seq (if poison then [s.freeNat % 237] else []) x.unit.blocks

/-- The slot of a retained unit: its copy, or filler where the store does not give it back. -/
def replaySlot (s : State) (x : Retained) (poison : Bool) : SlotUnit :=
  if (s.replayRead x poison).2.2 = [] then
    { kind := 2, seq := x.seq, port := x.unit.port, epoch := x.unit.epoch, blocks := (s.replayRead x poison).2.1,
      badCrc := false, start := x.unit.start }
  else s.fillerSlot

/-- The retained copy reads poison that its group does not rebuild. -/
def replayLost (s : State) (x : Retained) : State :=
  ((s.onLedger fun l => { l with
    unrec := x.seq :: l.unrec.filter (· != x.seq),
    retention := l.retention.map fun y => if y.seq = x.seq then { y with armed := false, unrec := true } else y }).bump
      R.LEDGER_TX_RET_POISON).logEvent srcLedger 0x9002 0 x.seq

/-- The retained unit is sent. -/
def replaySent (s : State) (n : Fin 8) (x : Retained) (start : Nat) : State :=
  (s.onLedger fun l => { l with retention := l.retention.map fun y =>
    if y.seq = x.seq then { y with armed := false, count := y.count + 1, lane := n.val, lastStart := start } else y }).bump64
      R.FRAMER_CNT_REPLAY_LO 1

theorem sendReplay_eq {x : Retained} {start : Nat} {poison : Bool} : s.sendReplay n x start poison =
    if (s.replayRead x poison).2.2 = [] then
      ((s.replayRead x poison).1.replaySent n x start).putSlot n
        { kind := 2, seq := x.seq, port := x.unit.port, epoch := x.unit.epoch, blocks := (s.replayRead x poison).2.1,
          badCrc := false, start := x.unit.start }
    else ((s.replayRead x poison).1.replayLost x).putFiller n := by
  unfold sendReplay
  change (if !(s.replayRead x poison).2.2.isEmpty then _ else _) = _
  cases (s.replayRead x poison).2.2 <;> rfl

theorem otherSlotReg_of_read {a : Nat} (h : memReadReg a) : otherSlotReg a :=
  .inr (.inr (.inr (.inr (.inr (.inr (.inr h))))))

theorem replayRead_touches {x : Retained} {poison : Bool} : Touches memReadParts otherSlotReg s (s.replayRead x poison).1 :=
  (((drew_touches s).mono (by simp) (by simp)).trans storeRead_touches).mono (fun _ h => h) fun _ => otherSlotReg_of_read

theorem replayLost_touches {x : Retained} : Touches slotParts otherSlotReg s (s.replayLost x) :=
  ((slot_dp s _).trans ((bumpBy_touches _ _ _).mono (by simp) fun _ h => .inr (.inr (.inr (.inr (.inr (.inr (.inl h)))))))).trans
    ((logEvent_touches _ _ _ _ _).mono (by simp) fun _ h =>
      otherSlotReg_of_read (.inr (.inr (.inr (.inr (.inr (.inr (.inr h))))))))

/-- A lost copy leaves what it carries on to the next slots. -/
theorem replayLost_dp {x : Retained} : (s.replayLost x).dp.tx = s.dp.tx ∧ (s.replayLost x).dp.framer = s.dp.framer
    ∧ (s.replayLost x).dp.ledger.txNext = s.dp.ledger.txNext := by
  have hdp : (s.replayLost x).dp = _ := (logEvent_touches _ _ _ _ _).1 .dp (by decide)
  rw [hdp]
  exact ⟨rfl, rfl, rfl⟩

theorem replaySent_touches {x : Retained} {start : Nat} : Touches slotParts otherSlotReg s (s.replaySent n x start) :=
  (slot_dp s _).trans ((bump64_touches _ _ _).mono (by simp) fun _ h => h.elim .inl (.inr ∘ .inl))

/-- A replay takes no unit of the queue. -/
theorem sendReplay_filled {x : Retained} {start : Nat} {poison : Bool} (hlt : s.dp.ledger.txNext < 2 ^ 18) :
    SlotFilled n (s.replaySlot x poison) 0 s (s.sendReplay n x start poison) := by
  let v := (s.replayRead x poison).1
  have hread : Touches slotParts otherSlotReg s v := replayRead_touches.mono (by simp) fun _ h => h
  have hdp : v.dp = s.dp := replayRead_touches.1 .dp (by decide)
  have hnext : v.dp.ledger.txNext = s.dp.ledger.txNext := congrArg (·.ledger.txNext) hdp
  rw [sendReplay_eq, replaySlot]
  split
  · exact slotFilled_other (hread.trans replaySent_touches) (congrArg (·.tx) hdp) (congrArg (·.framer) hdp) hnext hlt
  · obtain ⟨htx, hframer, hkept⟩ := replayLost_dp (s := v) (x := x)
    have hlost : Touches slotParts otherSlotReg s (v.replayLost x) := hread.trans replayLost_touches
    have hfiller : (v.replayLost x).fillerSlot = s.fillerSlot :=
      fillerSlot_congr (hkept.trans hnext) (hlost.2.1 _ fun h => not_slotReg_commit (.inr (.inr h)))
    have hcount : Touches slotParts otherSlotReg s ((v.replayLost x).bump64 R.FRAMER_CNT_FILLER_LO 1) :=
      hlost.trans ((bump64_touches _ _ _).mono (by simp) fun _ h => .inr (.inr (h.elim .inl (.inr ∘ .inl))))
    rw [← hfiller]
    exact slotFilled_other hcount (htx.trans (congrArg (·.tx) hdp)) (hframer.trans (congrArg (·.framer) hdp))
      (hkept.trans hnext) hlt

/-! ## The slot's priority (R55, R172) -/

/-- Lane `n` is in service, and more than filler may be sent. -/
def servesLane (s : State) (n : Fin 8) : Bool := bitOf s.dp.framer.laneStatus n && !s.cfgOn F.FRAMER_CTRL_filler_only

/-- What a lane in service sends where no unit waits. -/
def idleSlot (s : State) (n : Fin 8) (poison : Bool) : SlotUnit :=
  match s.pickReplay n with
  | some x => s.replaySlot x poison
  | none => s.fillerSlot

variable {start : Nat} {poison : Bool}

theorem fillSlot_eq : s.fillSlot n start poison =
    if s.servesLane n then
      match s.dp.framer.ready with
      | u :: _ => s.sendData n u start poison
      | [] => match s.pickReplay n with
        | some x => s.sendReplay n x start poison
        | none => s.putFiller n
    else s.putFiller n := by
  unfold fillSlot servesLane
  cases bitOf s.dp.framer.laneStatus n <;> cases s.cfgOn F.FRAMER_CTRL_filler_only <;> rfl

/-- A lane out of service carries filler. -/
theorem fillSlot_of_not_serves (h : s.servesLane n = false) : s.fillSlot n start poison = s.putFiller n := by
  rw [fillSlot_eq, h]
  rfl

/-- A lane in service takes the first waiting unit. -/
theorem fillSlot_of_ready {u : TxUnit} {us : List TxUnit} (h : s.servesLane n = true) (hready : s.dp.framer.ready = u :: us) :
    s.fillSlot n start poison = s.sendData n u start poison := by
  rw [fillSlot_eq, if_pos h, hready]

/-- A lane in service sends a retained unit, or filler, where none waits. -/
theorem fillSlot_idle_filled (h : s.servesLane n = true) (hready : s.dp.framer.ready = []) (hlt : s.dp.ledger.txNext < 2 ^ 18) :
    SlotFilled n (s.idleSlot n poison) 0 s (s.fillSlot n start poison) := by
  rw [fillSlot_eq, if_pos h, hready, idleSlot]
  cases s.pickReplay n with
  | some x => exact sendReplay_filled hlt
  | none => exact putFiller_filled hlt

end
end State
end Sys2Proof.Machine
end

section
/-!
The slots of a slot decision, lane by lane (R55–R58, R172).
-/

namespace Sys2Proof.Machine

/-- Lane `n` is given the slot `u`. -/
def Sends (n : Fin 8) (u : SlotUnit) (s t : State) : Prop := t.dp.tx[n] = { s.dp.tx[n] with slots := s.dp.tx[n].slots ++ [u] }

/-- The next sequence number after `k` lanes have taken what waits. -/
def State.seqAfter (s : State) (k : Nat) : Nat := (s.dp.ledger.txNext + min k s.dp.framer.ready.length) % 2 ^ 18

/-- The lanes `l` are given their slots, and of them `k` could have taken a unit from the queue of `r`. -/
structure SlotsFilled (l : List (Fin 8)) (k : Nat) (r t : State) : Prop where
  touches : Touches slotParts slotReg r t
  kept : ∀ n : Fin 8, n ∉ l → t.dp.tx[n] = r.dp.tx[n]
  framer : t.dp.framer = { r.dp.framer with ready := r.dp.framer.ready.drop k }
  txNext : t.dp.ledger.txNext = r.seqAfter k
  counted : Claims.counted64 r t R.FRAMER_CNT_DATA_LO (min k r.dp.framer.ready.length)

section
variable {l : List (Fin 8)} {k : Nat} {r s t t' : State} {n : Fin 8} {u : SlotUnit} {j : Nat}

theorem SlotFilled.kept (h : SlotFilled n u j s t) {m : Fin 8} (hm : m ≠ n) : t.dp.tx[m] = s.dp.tx[m] := by
  simp only [h.tx]
  exact Vector.getElem_set_ne n.isLt m.isLt fun e => hm (Fin.ext e.symm)

theorem SlotFilled.sends (h : SlotFilled n u j s t) : Sends n u s t := by
  simp only [Sends, h.tx]
  exact Vector.getElem_set_self _

theorem SlotFilled.txNext_lt (h : SlotFilled n u j s t) : t.dp.ledger.txNext < 2 ^ 18 := h.txNext ▸ Nat.mod_lt _ (by decide)

theorem SlotsFilled.txNext_lt (h : SlotsFilled l k r t) : t.dp.ledger.txNext < 2 ^ 18 := h.txNext ▸ Nat.mod_lt _ (by decide)

theorem SlotsFilled.refl (hlt : r.dp.ledger.txNext < 2 ^ 18) : SlotsFilled [] 0 r r :=
  ⟨.refl _ _ _, fun _ _ => rfl, rfl, by rw [State.seqAfter, Nat.zero_min]; exact (Nat.mod_eq_of_lt hlt).symm,
    by rw [Nat.zero_min]; exact (Nat.mod_eq_of_lt (State.count64_lt _ _)).symm⟩

/-- The lanes in service stay those that they were. -/
theorem SlotsFilled.serves (h : SlotsFilled l k r t) (m : Fin 8) : t.servesLane m = r.servesLane m := by
  have hforce : t.inForce = r.inForce := h.touches.1 .inForce (by decide)
  have hcfg : t.cfgOn F.FRAMER_CTRL_filler_only = r.cfgOn F.FRAMER_CTRL_filler_only := State.cfgOn_congr hforce _
  rw [State.servesLane, State.servesLane, hcfg, h.framer]

/-- The next lane's slot takes `j` units, which brings the lanes that could have taken one to `k'`. -/
theorem SlotsFilled.next (h : SlotsFilled l k r t) (hf : SlotFilled n u j t t') {k' : Nat}
    (hdrop : r.dp.framer.ready.drop k' = (r.dp.framer.ready.drop k).drop j)
    (hmin : min k' r.dp.framer.ready.length = min k r.dp.framer.ready.length + j) : SlotsFilled (l ++ [n]) k' r t' := by
  refine ⟨h.touches.trans hf.touches, fun m hm => ?_, ?_, ?_, ?_⟩
  · simp only [List.mem_append, List.mem_singleton, not_or] at hm
    exact (hf.kept hm.2).trans (h.kept m hm.1)
  · rw [hf.framer, h.framer, hdrop]
  · rw [hf.txNext, h.txNext, State.seqAfter, State.seqAfter, hmin, Nat.mod_add_mod, Nat.add_assoc]
  · have hcount := hf.counted
    rw [Claims.counted64, h.counted, Nat.mod_add_mod, Nat.add_assoc, ← hmin] at hcount
    exact hcount

/-- A lane's slot follows on those of the lanes before it. -/
theorem SlotsFilled.fillSlot (h : SlotsFilled l k r t) {start : Nat} {poison : Bool} :
    SlotsFilled (l ++ [n]) (if r.servesLane n then k + 1 else k) r (t.fillSlot n start poison) := by
  by_cases hs : r.servesLane n = true
  · rw [if_pos hs]
    have hs' : t.servesLane n = true := (h.serves n).trans hs
    have hready : t.dp.framer.ready = r.dp.framer.ready.drop k := congrArg (·.ready) h.framer
    have hdrop : r.dp.framer.ready.drop (k + 1) = (r.dp.framer.ready.drop k).drop 1 := List.drop_drop.symm
    cases hq : r.dp.framer.ready.drop k with
    | nil =>
      have hlen : r.dp.framer.ready.length ≤ k := List.drop_eq_nil_iff.mp hq
      refine h.next (State.fillSlot_idle_filled hs' (hready.trans hq) h.txNext_lt) ?_ (by omega)
      rw [hdrop, hq]
      rfl
    | cons x xs =>
      have hlen : k < r.dp.framer.ready.length := by
        by_contra hle
        rw [List.drop_eq_nil_of_le (by omega)] at hq
        simp at hq
      rw [State.fillSlot_of_ready hs' (hready.trans hq)]
      exact h.next State.sendData_filled hdrop (by omega)
  · rw [if_neg hs, State.fillSlot_of_not_serves ((h.serves n).trans (Bool.not_eq_true _ ▸ hs))]
    exact h.next (State.putFiller_filled h.txNext_lt) rfl rfl

end

namespace State

/-- Lanes take their slots one after another. -/
def fillLanes (s : State) (start : Nat) (poison : List Nat) (l : List (Fin 8 × Nat)) : State :=
  l.foldl (fun s (n, i) => s.fillSlot n start (poison.contains i)) s

section
variable {r : State} {start : Nat} {poison : List Nat}

theorem fillLanes_append {l m : List (Fin 8 × Nat)} :
    r.fillLanes start poison (l ++ m) = (r.fillLanes start poison l).fillLanes start poison m := List.foldl_append

/-- Lanes that take their slots in turn, those in service from the queue. -/
theorem fillLanes_filled (hlt : r.dp.ledger.txNext < 2 ^ 18) (c : Nat) (l : List (Fin 8)) :
    SlotsFilled l (l.filter r.servesLane).length r (r.fillLanes start poison (l.zipIdx c)) := by
  induction l using List.reverseRecOn with
  | nil => exact .refl hlt
  | append_singleton l n ih =>
    have hlen : ((l ++ [n]).filter r.servesLane).length =
        if r.servesLane n then (l.filter r.servesLane).length + 1 else (l.filter r.servesLane).length := by
      rw [List.filter_append, List.length_append, List.filter_singleton]
      cases r.servesLane n <;> rfl
    rw [List.zipIdx_append, fillLanes_append, hlen]
    exact ih.fillSlot

/-- A lane's slot is the one that it is given after the lanes before it. -/
theorem fillLanes_lane (hlt : r.dp.ledger.txNext < 2 ^ 18) {l m : List (Fin 8)} {n : Fin 8} (hl : n ∉ l) (hm : n ∉ m) {u : SlotUnit}
    {j : Nat} {t : State} (ht : t = r.fillLanes start poison l.zipIdx)
    (hu : SlotFilled n u j t (t.fillSlot n start (poison.contains l.length))) :
    Sends n u r (r.fillLanes start poison (l ++ n :: m).zipIdx) := by
  have hbefore : t.dp.tx[n] = r.dp.tx[n] := ht ▸ (fillLanes_filled hlt 0 l).kept n hl
  have hafter := (fillLanes_filled (start := start) (poison := poison) hu.txNext_lt (l.length + 1) m).kept n hm
  have hsplit : r.fillLanes start poison (l ++ n :: m).zipIdx =
      (t.fillSlot n start (poison.contains l.length)).fillLanes start poison (m.zipIdx (l.length + 1)) := by
    rw [List.zipIdx_append, fillLanes_append, ← ht, Nat.zero_add]
    rfl
  rw [hsplit]
  exact hafter.trans (hu.sends.trans (by rw [hbefore]))

/-- Lanes out of service leave the ledger and the memories. -/
theorem fillLanes_stores (l : List (Fin 8 × Nat)) (hl : ∀ x ∈ l, r.servesLane x.1 = false) :
    SameStores r (r.fillLanes start poison l) := by
  induction l generalizing r with
  | nil => exact ⟨rfl, rfl⟩
  | cons x l ih =>
    have hx : r.fillSlot x.1 start (poison.contains x.2) = r.putFiller x.1 := fillSlot_of_not_serves (hl x (by simp))
    have hrest : SameStores (r.putFiller x.1) ((r.putFiller x.1).fillLanes start poison l) := ih fun y hy => hl y (by simp [hy])
    have hcons : r.fillLanes start poison (x :: l) = (r.fillSlot x.1 start (poison.contains x.2)).fillLanes start poison l := rfl
    rw [hcons, hx]
    exact ⟨hrest.mem, hrest.ledger⟩

/-! ## What each lane sends -/

/-- What a lane in service sends where no unit waits and no read is poisoned. -/
def idleSlotOf (r : State) (n : Fin 8) : SlotUnit :=
  match r.pickReplay n with
  | some x =>
    let got := r.storeRead false x.seq [] x.unit.blocks
    if got.2.2 = [] then { kind := 2, seq := x.seq, port := x.unit.port, epoch := x.unit.epoch, blocks := got.2.1,
                           badCrc := false, start := x.unit.start }
    else r.fillerSlot
  | none => r.fillerSlot

section
variable {l m : List (Fin 8)} {n : Fin 8} (hlt : r.dp.ledger.txNext < 2 ^ 18) (hl : n ∉ l) (hm : n ∉ m)
include hlt hl hm

/-- A lane out of service carries filler, with the next sequence number then. -/
theorem fillLanes_filler (hs : r.servesLane n = false) :
    Sends n { r.fillerSlot with seq := r.seqAfter (l.filter r.servesLane).length } r
      (r.fillLanes start poison (l ++ n :: m).zipIdx) := by
  have h := fillLanes_filled (start := start) (poison := poison) hlt 0 l
  have hfiller : (r.fillLanes start poison l.zipIdx).fillerSlot =
      { r.fillerSlot with seq := r.seqAfter (l.filter r.servesLane).length } := by
    have hepoch : (r.fillLanes start poison l.zipIdx).epoch4 = r.epoch4 :=
      congrArg (getField · _ _ % 16) (h.touches.2.1 _ not_slotReg_commit)
    rw [fillerSlot, fillerSlot, hepoch, h.txNext]
  rw [← hfiller]
  refine fillLanes_lane hlt hl hm rfl (j := 0) ?_
  rw [fillSlot_of_not_serves ((h.serves n).trans hs)]
  exact putFiller_filled h.txNext_lt

/-- A lane in service sends the waiting unit at its place in the queue. -/
theorem fillLanes_data (hs : r.servesLane n = true) {u : TxUnit} (hu : r.dp.framer.ready[(l.filter r.servesLane).length]? = some u) :
    Sends n { kind := 1, seq := r.seqAfter (l.filter r.servesLane).length, port := u.port, epoch := u.epoch, blocks := u.blocks,
              badCrc := poison.contains l.length, start := u.start } r (r.fillLanes start poison (l ++ n :: m).zipIdx) := by
  have h := fillLanes_filled (start := start) (poison := poison) hlt 0 l
  obtain ⟨hlen, hget⟩ := List.getElem?_eq_some_iff.mp hu
  have hready : (r.fillLanes start poison l.zipIdx).dp.framer.ready = u :: r.dp.framer.ready.drop ((l.filter r.servesLane).length + 1) := by
    rw [h.framer, ← hget]
    exact List.drop_eq_getElem_cons hlen
  rw [← h.txNext]
  refine fillLanes_lane hlt hl hm rfl (j := 1) ?_
  rw [fillSlot_of_ready ((h.serves n).trans hs) hready]
  exact sendData_filled

/-- The first lane in service sends a retained unit, or filler, where none waits. -/
theorem fillLanes_idle (hs : r.servesLane n = true) (hfirst : l.filter r.servesLane = []) (hready : r.dp.framer.ready = []) :
    Sends n (r.idleSlotOf n) r (r.fillLanes start [] (l ++ n :: m).zipIdx) := by
  have h := fillLanes_filled (start := start) (poison := []) hlt 0 l
  have hstores : SameStores r (r.fillLanes start [] l.zipIdx) := fillLanes_stores _ fun x hx => by
    have hmem : x.1 ∈ l := List.fst_mem_of_mem_zipIdx hx
    simpa using List.filter_eq_nil_iff.mp hfirst x.1 hmem
  have hfiller : (r.fillLanes start [] l.zipIdx).fillerSlot = r.fillerSlot :=
    fillerSlot_congr (congrArg (·.txNext) hstores.ledger) (h.touches.2.1 _ not_slotReg_commit)
  have hpick : (r.fillLanes start [] l.zipIdx).pickReplay n = r.pickReplay n := by rw [pickReplay, pickReplay, hstores.ledger]
  have hempty : (r.fillLanes start [] l.zipIdx).dp.framer.ready = [] := by rw [h.framer, hready]; exact List.drop_nil
  have hslot : (r.fillLanes start [] l.zipIdx).idleSlot n (([] : List Nat).contains l.length) = r.idleSlotOf n := by
    rw [idleSlot, idleSlotOf, hpick, hfiller]
    cases r.pickReplay n with
    | none => rfl
    | some x =>
      have hread : ((r.fillLanes start [] l.zipIdx).replayRead x false).2 = (r.storeRead false x.seq [] x.unit.blocks).2 :=
        SameStores.storeRead (t := (r.fillLanes start [] l.zipIdx).drew) ⟨hstores.mem, hstores.ledger⟩ false x.seq x.unit.blocks
      simp only [List.contains_nil, replaySlot, hread, hfiller]
  exact hslot ▸ fillLanes_lane hlt hl hm rfl (fillSlot_idle_filled ((h.serves n).trans hs) hempty h.txNext_lt)

end
end
end State
end Sys2Proof.Machine
end

section
/-!
What the lanes of a slot decision send, by their place among the lanes in service (R55–R58, R172).
-/

namespace Sys2Proof.Machine

/-! ## The lanes in service -/

section
variable {l m : List (Fin 8)} {n : Fin 8} {p : Fin 8 → Bool}

/-- Of rising numbers, those before `n` are those that stand before it. -/
theorem filter_lt_of_pairwise (h : (l ++ n :: m).Pairwise (· < ·)) :
    ((l ++ n :: m).filter p).filter (fun k => decide (k.val < n.val)) = l.filter p := by
  obtain ⟨-, hm, hl⟩ := List.pairwise_append.mp h
  obtain ⟨hm, -⟩ := List.pairwise_cons.mp hm
  have hbefore : (l.filter p).filter (fun k => decide (k.val < n.val)) = l.filter p :=
    List.filter_eq_self.mpr fun k hk => decide_eq_true (hl k (List.mem_filter.mp hk).1 n (by simp))
  have hafter : ((n :: m).filter p).filter (fun k => decide (k.val < n.val)) = [] := by
    refine List.filter_eq_nil_iff.mpr fun k hk => ?_
    have hge : ¬ k < n := by
      obtain rfl | hk := List.mem_cons.mp (List.mem_filter.mp hk).1
      · exact lt_irrefl _
      · exact lt_asymm (hm k hk)
    simpa using hge
  rw [List.filter_append, List.filter_append, hbefore, hafter, List.append_nil]

/-- The place of `n` among the lanes that `p` keeps is the number of those before it. -/
theorem filter_place (h : (l ++ n :: m).Pairwise (· < ·)) (hn : p n = true) {j : Nat} (hj : j < ((l ++ n :: m).filter p).length)
    (hjn : n = ((l ++ n :: m).filter p)[j]) : (l.filter p).length = j := by
  have hsplit : (l ++ n :: m).filter p = l.filter p ++ n :: m.filter p := by
    rw [List.filter_append, List.filter_cons_of_pos hn]
  have hnodup : ((l ++ n :: m).filter p).Nodup := (h.filter p).imp ne_of_lt
  have hplace : (l.filter p).length < ((l ++ n :: m).filter p).length := by
    rw [hsplit, List.length_append, List.length_cons]
    omega
  refine (hnodup.getElem_inj_iff (hi := hplace) (hj := hj)).mp (Eq.trans ?_ hjn)
  simp only [hsplit, List.getElem_append_right (le_refl _), Nat.sub_self, List.getElem_cons_zero]

theorem State.activeLanes_pairwise (s : State) : s.activeLanes.Pairwise (· < ·) := (List.pairwise_lt_finRange 8).filter _

/-- A lane in use stands between others. -/
theorem split_of_pairwise {ls : List (Fin 8)} (h : ls.Pairwise (· < ·)) (hn : n ∈ ls) :
    ∃ l m, ls = l ++ n :: m ∧ n ∉ l ∧ n ∉ m := by
  obtain ⟨l, m, rfl⟩ := List.append_of_mem hn
  obtain ⟨-, hm, hl⟩ := List.pairwise_append.mp h
  exact ⟨l, m, rfl, fun k => lt_irrefl n (hl n k n (by simp)), fun k => lt_irrefl n ((List.pairwise_cons.mp hm).1 n k)⟩

end

namespace State

section
variable {r : State} {start : Nat} {poison : List Nat} {ls : List (Fin 8)}
  (hlt : r.dp.ledger.txNext < 2 ^ 18) (hls : ls.Pairwise (· < ·))
include hlt hls

/-- A lane out of service carries filler. -/
theorem fillLanes_sends_filler {n : Fin 8} (hn : n ∈ ls) (hout : n ∉ ls.filter r.servesLane) :
    Sends n { r.fillerSlot with
      seq := r.seqAfter ((ls.filter r.servesLane).filter fun m => decide (m.val < n.val)).length } r
      (r.fillLanes start poison ls.zipIdx) := by
  obtain ⟨l, m, rfl, hl, hm⟩ := split_of_pairwise hls hn
  have hs : r.servesLane n = false := by
    by_contra hs
    exact hout (List.mem_filter.mpr ⟨hn, by simpa using hs⟩)
  rw [filter_lt_of_pairwise hls]
  exact fillLanes_filler hlt hl hm hs

/-- A lane in service sends the unit that waits at its place. -/
theorem fillLanes_sends_data {j : Nat} (hj : j < (ls.filter r.servesLane).length) {u : TxUnit} (hu : r.dp.framer.ready[j]? = some u) :
    Sends (ls.filter r.servesLane)[j]
      { kind := 1, seq := r.seqAfter j, port := u.port, epoch := u.epoch, blocks := u.blocks,
        badCrc := poison.contains (ls.idxOf (ls.filter r.servesLane)[j]), start := u.start } r
      (r.fillLanes start poison ls.zipIdx) := by
  obtain ⟨n, hjn⟩ : ∃ n, n = (ls.filter r.servesLane)[j] := ⟨_, rfl⟩
  obtain ⟨hn, hs⟩ := List.mem_filter.mp (hjn ▸ List.getElem_mem hj : n ∈ ls.filter r.servesLane)
  rw [← hjn]
  obtain ⟨l, m, rfl, hl, hm⟩ := split_of_pairwise hls hn
  have hplace : (l.filter r.servesLane).length = j := filter_place hls hs hj hjn
  have hidx : (l ++ n :: m).idxOf n = l.length := by
    rw [List.idxOf_append_of_notMem hl, List.idxOf_cons_self, Nat.add_zero]
  rw [hidx, ← hplace]
  exact fillLanes_data hlt hl hm hs (hplace ▸ hu)

/-- The first lane in service sends a retained unit where none waits. -/
theorem fillLanes_sends_idle {n : Fin 8} {ms : List (Fin 8)} (hms : ls.filter r.servesLane = n :: ms) (hready : r.dp.framer.ready = []) :
    Sends n (r.idleSlotOf n) r (r.fillLanes start [] ls.zipIdx) := by
  obtain ⟨hn, hs⟩ := List.mem_filter.mp (hms ▸ List.mem_cons_self : n ∈ ls.filter r.servesLane)
  obtain ⟨l, m, rfl, hl, hm⟩ := split_of_pairwise hls hn
  have hplace : (l.filter r.servesLane).length = 0 :=
    filter_place hls hs (by rw [hms]; exact Nat.succ_pos _) (by simp only [hms, List.getElem_cons_zero])
  exact fillLanes_idle hlt hl hm hs (List.eq_nil_of_length_eq_zero hplace) hready

end
end State

/-! ## The slot decision -/

namespace State

section
variable {s : State} {start : Nat}

/-- The state in which a slot decision gives the lanes their slots. -/
def slotReady (s : State) (start : Nat) : State := s.reviewService.disarmLate start

theorem exec_slotDecision {cw : Fin 32} {poison : List Nat} (h : s.dp.framer.sending = true) :
    exec (.slotDecision cw poison) s =
      .next ((s.slotReady (s.slotStart cw)).fillLanes (s.slotStart cw) poison s.activeLanes.zipIdx) := by
  change execSlotDecision cw poison s = _
  exact if_neg (by rw [h]; decide)

theorem slotReady_touches : Touches [.dp] (· = R.LEDGER_TX_LATE_CNT) s (s.slotReady start) :=
  (((s.dp_touches s.reviewService.dp).mono (fun _ h => h) (by simp)).trans ((bumpBy_touches _ _ _).mono (by simp) fun _ h => h)).trans
    ((dp_touches _ _).mono (fun _ h => h) (by simp))

theorem slotReady_fillerSlot : (s.slotReady start).fillerSlot = s.fillerSlot :=
  fillerSlot_congr rfl (slotReady_touches.2.1 _ (by decide))

theorem slotReady_dataCount : (s.slotReady start).count64 R.FRAMER_CNT_DATA_LO = s.count64 R.FRAMER_CNT_DATA_LO :=
  count64_congr (slotReady_touches.2.1 _ (by decide)) (slotReady_touches.2.1 _ (by decide))

/-- The lanes that may send more than filler. -/
theorem filter_servesLane (r : State) (ls : List (Fin 8)) :
    (if r.cfgOn F.FRAMER_CTRL_filler_only then [] else ls.filter fun n : Fin 8 => bitOf r.dp.framer.laneStatus n) =
      ls.filter r.servesLane := by
  unfold servesLane
  cases r.cfgOn F.FRAMER_CTRL_filler_only <;> simp

end
end State

end Sys2Proof.Machine
end

section
/-!
The control message that cycle 8 captures (R37, R61, R149, R179, R180).
-/

namespace Sys2Proof.Machine

namespace State

section
variable {s t : State}

/-! ## The acknowledgement (R180) -/

/-- Listing units changes nothing of what the acknowledgement rests on. -/
theorem ackFrom_of_units {f : RxUnit → RxUnit} (hf : ∀ u, (f u).seq = u.seq ∧ (f u).held = u.held ∧ (f u).verified = u.verified)
    (hunits : t.dp.ledger.units = s.dp.ledger.units.map f) (hnext : t.dp.ledger.rxNext = s.dp.ledger.rxNext)
    (hlost : t.dp.ledger.lostSeqs = s.dp.ledger.lostSeqs) (hplace : t.dp.ledger.place = s.dp.ledger.place) (n q : Nat) :
    t.ackFrom n q = s.ackFrom n q := by
  have hok (u : RxUnit) : t.receivedOk (f u) = s.receivedOk u := by
    obtain ⟨-, hheld, hver⟩ := hf u
    rw [receivedOk, receivedOk, hheld, hver, hplace]
  have hfind (q : Nat) : t.dp.ledger.units.find? (·.seq == q) = (s.dp.ledger.units.find? (·.seq == q)).map f := by
    rw [hunits, List.find?_map]
    exact congrArg (Option.map f) (congrArg (List.find? · _) (funext fun u => congrArg (· == q) (hf u).1))
  induction n generalizing q with
  | zero => rfl
  | succ n ih =>
    simp only [ackFrom, hnext, hlost, hfind, ih]
    cases s.dp.ledger.units.find? (·.seq == q) with
    | none => rfl
    | some u => simp only [Option.map_some, hok]

/-- Units listed in a message. -/
def markListed (nack : List (Nat × Nat)) (u : RxUnit) : RxUnit := if (nackSeqs nack).contains u.seq then { u with listed := true } else u

theorem markListed_keeps (nack : List (Nat × Nat)) (u : RxUnit) : (markListed nack u).seq = u.seq
    ∧ (markListed nack u).held = u.held ∧ (markListed nack u).verified = u.verified := by
  unfold markListed
  split <;> exact ⟨rfl, rfl, rfl⟩

theorem countListed_dp {nack : List (Nat × Nat)} : (s.countListed nack).dp = { s.dp with ledger := { s.dp.ledger with
    nackEntries := nack.length, units := s.dp.ledger.units.map (markListed nack) } } := rfl

theorem countListed_touches {nack : List (Nat × Nat)} :
    Touches [.dp] (· = R.LEDGER_RX_REQ_CNT) s (s.countListed nack) :=
  ((bumpBy_touches s _ _).mono (by simp) fun _ h => h).trans ((dp_touches _ _).mono (fun _ h => h) (by simp))

/-! ## The probe tag (R149) -/

theorem nextTag_ne_zero (t : Nat) : nextTag t ≠ 0 := by
  unfold nextTag
  split <;> omega

/-- A capture sets the probe's tag, and keeps it with those before it. -/
def probeTagged (s : State) : State :=
  if s.probing then s.onFramer fun f =>
    let tag := nextTag f.probe
    { f with probe := tag, tags := ((tag, f.base, false) :: f.tags.filter (·.1 != tag)).take 1024 }
  else s

theorem probeTagged_eq (s : State) : ∃ tag tags, s.probeTagged = s.onFramer (fun f => { f with probe := tag, tags := tags })
    ∧ (s.probing = true → tag = nextTag s.dp.framer.probe) := by
  unfold probeTagged
  split
  · exact ⟨_, _, rfl, fun _ => rfl⟩
  · next h => exact ⟨s.dp.framer.probe, s.dp.framer.tags, rfl, fun k => absurd k h⟩

/-! ## The capture (R61) -/

/-- The nack entries of the message that cycle 8 captures. -/
def capturedNack (s : State) : List (Nat × Nat) :=
  if (s.dp.link.step = 7 ∨ s.dp.link.step = 8) ∧ s.dp.ledger.retryOn then s.nackList (128 * (s.dp.framer.base + 8)) else []

/-- The state that a captured message speaks of. -/
def messageReady (s : State) : State := (s.countListed s.capturedNack).probeTagged

/-- The message that cycle 8 captures. -/
def capturedMessage (s : State) : CtlMsg := s.messageReady.ctlMessage s.capturedNack

/-- The message stands for the superframe, and what it tells of retrains and readiness is noted. -/
def messageTaken (s : State) (m : CtlMsg) : State :=
  (s.onFramer fun f => { f with msg := some m }).onLink fun l =>
    { l with reqSent := l.retrainReq, readySent := l.readySent || (l.step == 6 && decide (2 ≤ l.status) && decide (l.status ≤ 4)) }

theorem messageTaken_dp {m : CtlMsg} : (s.messageTaken m).dp = { s.dp with
    framer := { s.dp.framer with msg := some m },
    link := { s.dp.link with
      reqSent := s.dp.link.retrainReq,
      readySent := s.dp.link.readySent || (s.dp.link.step == 6 && decide (2 ≤ s.dp.link.status) && decide (s.dp.link.status ≤ 4)) } } :=
  rfl

theorem exec_controlMessageCapture (h : s.dp.framer.sending = true) :
    exec .controlMessageCapture s = .next (s.messageReady.messageTaken s.capturedMessage) := by
  change execControlMessageCapture s = _
  exact if_neg (by rw [h]; decide)

/-- Before the message is taken only what it lists and its probe tag have changed. -/
theorem messageReady_dp (s : State) : ∃ units tag tags, s.messageReady.dp = { s.dp with
    ledger := { s.dp.ledger with nackEntries := s.capturedNack.length, units := units },
    framer := { s.dp.framer with probe := tag, tags := tags } }
    ∧ units = s.dp.ledger.units.map (markListed s.capturedNack) ∧ (s.probing = true → tag = nextTag s.dp.framer.probe) := by
  obtain ⟨tag, tags, heq, htag⟩ := (s.countListed s.capturedNack).probeTagged_eq
  refine ⟨_, tag, tags, ?_, rfl, htag⟩
  rw [messageReady, heq]
  rfl

theorem messageReady_touches : Touches [.dp] (· = R.LEDGER_RX_REQ_CNT) s s.messageReady := by
  obtain ⟨tag, tags, heq, -⟩ := (s.countListed s.capturedNack).probeTagged_eq
  rw [messageReady, heq]
  exact countListed_touches.trans ((dp_touches _ _).mono (fun _ h => h) (by simp))

theorem messageReady_ackSeq : s.messageReady.ackSeq = s.ackSeq := by
  obtain ⟨units, tag, tags, hdp, hunits, -⟩ := s.messageReady_dp
  have hledger := congrArg (·.ledger) hdp
  have holdest : s.messageReady.dp.ledger.peerOldest = s.dp.ledger.peerOldest := congrArg (·.peerOldest) hledger
  rw [ackSeq, ackSeq, holdest]
  exact ackFrom_of_units (markListed_keeps s.capturedNack) ((congrArg (·.units) hledger).trans hunits)
    (congrArg (·.rxNext) hledger) (congrArg (·.lostSeqs) hledger) (congrArg (·.place) hledger) _ _

end
end State
end Sys2Proof.Machine
end

section
/-!
The statement about slots and control messages.
-/

namespace Sys2Proof.Machine

section
variable {s : State}

/-- The captured message tells of the state in which the capture began. -/
theorem capturedMessage_fields : s.capturedMessage.version = 1 ∧ s.capturedMessage.sfc = s.dp.framer.sfc
    ∧ s.capturedMessage.mode = s.lineMode ∧ s.capturedMessage.laneMask = s.laneMask
    ∧ s.capturedMessage.linkStep = s.dp.link.step ∧ s.capturedMessage.txLanes = s.dp.framer.laneStatus
    ∧ s.capturedMessage.txOldest = s.txOldest ∧ s.capturedMessage.txNext = s.dp.ledger.txNext
    ∧ s.capturedMessage.retrainReq = s.dp.link.retrainReq := by
  obtain ⟨units, tag, tags, hdp, -, -⟩ := s.messageReady_dp
  have hforce : s.messageReady.inForce = s.inForce := State.messageReady_touches.1 .inForce (by decide)
  have hmode : s.messageReady.lineMode = s.lineMode := by rw [State.lineMode, State.lineMode, State.cfg_congr hforce]
  have hmask : s.messageReady.laneMask = s.laneMask := by rw [State.laneMask, State.laneMask, hmode]
  have holdest : s.messageReady.txOldest = s.txOldest := by rw [State.txOldest, State.txOldest, hdp]
  exact ⟨rfl, congrArg (·.framer.sfc) hdp, hmode, hmask, congrArg (·.link.step) hdp, congrArg (·.framer.laneStatus) hdp, holdest,
    congrArg (·.ledger.txNext) hdp, congrArg (·.link.retrainReq) hdp⟩

/-- In LINKED with retry it acknowledges. -/
theorem capturedMessage_ack (hstep : s.dp.link.step = 7) (hretry : s.dp.ledger.retryOn = true) :
    s.capturedMessage.retryOn = true ∧ s.capturedMessage.ackValid = true ∧ s.capturedMessage.ackSeq = s.ackSeq := by
  obtain ⟨units, tag, tags, hdp, -, -⟩ := s.messageReady_dp
  have hlinked : ((s.messageReady.dp.link.step == 7 || s.messageReady.dp.link.step == 8) && s.messageReady.dp.ledger.retryOn) = true := by
    rw [hdp, hstep, hretry]
    decide
  exact ⟨hlinked, hlinked, (if_pos hlinked).trans State.messageReady_ackSeq⟩

/-- In step 5 it carries the next probe tag. -/
theorem capturedMessage_probe (hstep : s.dp.link.step = 5) : s.capturedMessage.probeTag = State.nextTag s.dp.framer.probe := by
  obtain ⟨units, tag, tags, hdp, -, htag⟩ := s.messageReady_dp
  have hprobing : s.probing = true := by rw [State.probing, hstep]; decide
  have hready : s.messageReady.probing = true := by rw [State.probing, hdp, hstep]; decide
  exact (if_pos hready).trans ((congrArg (·.framer.probe) hdp).trans (htag hprobing))

end

/-- Settles O31: the slots of a decision are `fillLanes_filled`, `fillLanes_sends_filler`, `fillLanes_sends_data` and
`fillLanes_sends_idle`; the message of a capture is `capturedMessage_fields`, `capturedMessage_ack` and `capturedMessage_probe`. -/
theorem slotsAndControlMessages : Obligations.SlotsAndControlMessages := by
  unfold Obligations.SlotsAndControlMessages
  refine ⟨fun s cw poison hsend hlt => ?_, fun s hsend => ?_⟩
  · intro r serving ready next sent
    have hltr : r.dp.ledger.txNext < 2 ^ 18 := hlt
    have hserving : serving = s.activeLanes.filter r.servesLane := State.filter_servesLane r s.activeLanes
    have hfiller : r.fillerSlot = s.fillerSlot := State.slotReady_fillerSlot
    have hfilled := State.fillLanes_filled (r := r) (start := s.slotStart cw) (poison := poison) hltr 0 s.activeLanes
    have hsorted := s.activeLanes_pairwise
    rw [← hserving] at hfilled
    refine ⟨_, State.exec_slotDecision hsend, congrArg (·.ready) hfilled.framer, hfilled.txNext, ?_, hfilled.kept,
      fun n hn hout => ?_, fun j hj u hu => ?_, fun n ms hms hready hpoison => ?_, ?_⟩
    · exact hfilled.counted.trans (congrArg (fun k => (k + _) % 2 ^ 64) State.slotReady_dataCount)
    · rw [hserving] at hout ⊢
      exact hfiller ▸ State.fillLanes_sends_filler hltr hsorted hn hout
    · simp only [hserving] at hj ⊢
      exact State.fillLanes_sends_data hltr hsorted hj hu
    · rw [hserving] at hms
      subst hpoison
      exact hfiller ▸ State.fillLanes_sends_idle hltr hsorted hms hready
    · refine (State.slotReady_touches.mono (by simp) ?_).trans (hfilled.touches.mono (fun _ h => h) ?_)
      · rintro a rfl
        simp
      · rintro a h
        simp only [slotReg, otherSlotReg, memReadReg] at h
        tauto
  · obtain ⟨units, tag, tags, hdp, -, -⟩ := s.messageReady_dp
    obtain ⟨hversion, hsfc, hmode, hmask, hstep, hlanes, holdest, hnext, hretrain⟩ := capturedMessage_fields (s := s)
    refine ⟨_, State.exec_controlMessageCapture hsend, ⟨s.capturedMessage, rfl, hversion, hsfc, hmode, hmask, hstep, hlanes, holdest,
      hnext, hretrain, capturedMessage_ack, fun h => ⟨capturedMessage_probe h, ?_⟩⟩, ?_, ?_, ?_, ?_, ?_⟩
    · rw [capturedMessage_probe h]
      exact State.nextTag_ne_zero _
    · simp only [State.messageTaken_dp, hdp]
    · simp only [State.messageTaken_dp, hdp]
    · simp only [State.messageTaken_dp, hdp]
    · simp only [State.messageTaken_dp, hdp]
    · exact State.messageReady_touches.trans ((State.dp_touches _ _).mono (fun _ h => h) (by simp))

end Sys2Proof.Machine
end
section
/-!
The front end of a lane: what fallback and a search anew leave of it (R86, R97), and what decides whether an update is the fourth
good one.
-/

namespace Sys2Proof.Machine

/-- The clock loop as fallback leaves it (R86). -/
def CdrLoop.fallen (l : CdrLoop) : CdrLoop := { l with phase := 0, freq := 0, errs := [], atLimit := 0 }

/-- A lane that searches anew, its loop in fallback (R86, R97). -/
def RxLane.searching (r : RxLane) : RxLane :=
  { r with fe := .search, equ := { r.equ with good := 0, ramp := 0, next := none, paused := false }, loop := r.loop.fallen }

namespace State

section
variable {s : State} {n : Fin 8}

/-- Two changes of a lane are one. -/
theorem onRx_onRx (f g : RxLane → RxLane) : (s.onRx n f).onRx n g = s.onRx n fun r => g (f r) := by
  simp only [onRx, onDp]
  rw [Vector.set_set]
  simp only [Fin.getElem_fin, Vector.getElem_set_self]

theorem logEvent_dp {src code x y : Nat} : (s.logEvent src code x y).dp = s.dp := (logEvent_touches _ _ _ _ _).1 .dp (by simp)

theorem enterFallback_dp : (s.enterFallback n).dp = (s.onRx n fun r => { r with loop := r.loop.fallen }).dp := by
  unfold enterFallback
  dsimp only
  split
  · rfl
  · exact logEvent_dp

theorem enterSearch_dp : (s.enterSearch n).dp = (s.onRx n RxLane.searching).dp := by
  unfold enterSearch
  dsimp only
  rw [enterFallback_dp, onRx_onRx]
  rfl

theorem enterSearch_lane : (s.enterSearch n).dp.rx[n] = s.dp.rx[n].searching := by
  simp only [enterSearch_dp]
  exact onRx_rx_same _ _ _

end
end State

/-! ## The count of good updates -/

/-- What decides whether an update is the fourth good one of lane `n` is the same: the configuration, the lane's state and its count. -/
structure SameCount (n : Fin 8) (s t : State) : Prop where
  inForce : t.inForce = s.inForce
  fe : t.dp.rx[n].fe = s.dp.rx[n].fe
  good : t.dp.rx[n].equ.good = s.dp.rx[n].equ.good

section
variable {n : Fin 8} {s t : State}

theorem SameCount.refl (n : Fin 8) (s : State) : SameCount n s s := ⟨rfl, rfl, rfl⟩

theorem SameCount.wr {f : RField} {v : Nat} (h : SameCount n s t) : SameCount n s (t.wr f v) := ⟨h.inForce, h.fe, h.good⟩

theorem SameCount.ite {c : Prop} [Decidable c] {u : State} (h : SameCount n s t) (k : SameCount n s u) :
    SameCount n s (if c then t else u) := by
  split
  · exact h
  · exact k

theorem SameCount.onRx {f : RxLane → RxLane} (h : SameCount n s t)
    (hf : ∀ r, (f r).fe = r.fe ∧ (f r).equ.good = r.equ.good := by exact fun _ => ⟨rfl, rfl⟩) : SameCount n s (t.onRx n f) := by
  have hlane := State.onRx_rx_same t n f
  obtain ⟨hfe, hgood⟩ := hf t.dp.rx[n]
  exact ⟨h.inForce, ((congrArg RxLane.fe hlane).trans hfe).trans h.fe,
    ((congrArg (fun r : RxLane => r.equ.good) hlane).trans hgood).trans h.good⟩

theorem SameCount.onEqu {f : Equ → Equ} (h : SameCount n s t) (hf : ∀ e, (f e).good = e.good := by exact fun _ => rfl) :
    SameCount n s (t.onEqu n f) :=
  h.onRx fun r => ⟨rfl, hf r.equ⟩

theorem SameCount.holdLoop (h : SameCount n s t) : SameCount n s (t.holdLoop n) := by
  unfold State.holdLoop
  exact h.onRx.wr.wr

theorem SameCount.closeLoop (h : SameCount n s t) : SameCount n s (t.closeLoop n) := .ite h (.ite h.wr.holdLoop h.wr.wr)

theorem SameCount.measureSnr {tr : State.Training} (h : SameCount n s t) : SameCount n s (t.measureSnr n tr) :=
  .ite (SameCount.wr (SameCount.wr (t := t.drew) ⟨h.inForce, h.fe, h.good⟩)) h.wr.wr

theorem SameCount.updateTarget {k : Nat} {w : List Cx} {tr : State.Training} (h : SameCount n s t) :
    SameCount n s (t.updateTarget n k w tr) := by
  unfold State.updateTarget
  exact h.onEqu.wr.wr

/-- An accepted update ends with the count of the good ones. -/
theorem acceptUpdate_countGood {tr : State.Training} : ∃ u, s.acceptUpdate n tr = u.countGood n ∧ SameCount n s u := by
  unfold State.acceptUpdate
  refine ⟨_, rfl, SameCount.updateTarget (.measureSnr (.closeLoop (.ite (.wr (.wr (.wr (.onEqu (.refl n s))))) ?_)))⟩
  exact (SameCount.onEqu (.refl n s)).wr.wr

namespace State

/-- ACQUIRE is left for a search anew where force_ref = 1 holds the loop in fallback (R86, R97). -/
theorem enterTrack_of_forced (href : s.cfgOn (F.OLn_CDR_CTRL_force_ref n) = true) : (s.enterTrack n).dp.rx[n].equ.next = none := by
  unfold enterTrack
  dsimp only
  split
  · rw [enterSearch_lane]
    rfl
  · next h => exact absurd href h

/-- With force_ref = 1 the fourth good update leaves no set that waits for a switch point. -/
theorem countGood_of_forced (hfe : s.dp.rx[n].fe = .acquire) (hgood : 3 ≤ s.dp.rx[n].equ.good)
    (hsnr : s.cfg (F.OLn_FDE_CTRL_acq_snr n) = 0) (href : s.cfgOn (F.OLn_CDR_CTRL_force_ref n) = true) :
    (s.countGood n).dp.rx[n].equ.next = none := by
  unfold countGood
  rw [if_pos hfe, hsnr, if_pos (Nat.zero_le _)]
  dsimp only
  rw [if_pos (by omega)]
  exact enterTrack_of_forced (s := s.onEqu n fun e => { e with good := s.dp.rx[n].equ.good + 1 }) href

/-- So does the update that it counts. -/
theorem acceptUpdate_of_forced {tr : State.Training} (hfe : s.dp.rx[n].fe = .acquire) (hgood : 3 ≤ s.dp.rx[n].equ.good)
    (hsnr : s.cfg (F.OLn_FDE_CTRL_acq_snr n) = 0) (href : s.cfgOn (F.OLn_CDR_CTRL_force_ref n) = true) :
    (s.acceptUpdate n tr).dp.rx[n].equ.next = none := by
  obtain ⟨u, hu, hsame⟩ := acceptUpdate_countGood (n := n) (s := s) (tr := tr)
  rw [hu]
  exact countGood_of_forced (hsame.fe.trans hfe) (hsame.good ▸ hgood) ((cfg_congr hsame.inForce _).trans hsnr)
    ((cfgOn_congr hsame.inForce _).trans href)

end State
end

end Sys2Proof.Machine
end

section
/-!
An update that takes a lane out of ACQUIRE while OLn_CDR_CTRL.force_ref = 1: the lane searches anew at once (R86, R97), and the set that
the update has made is discarded.
-/

namespace Sys2Proof.Machine

/-- Lane 0 in CV-FULL is in ACQUIRE after three good updates, with force_ref = 1 and acq_snr = 0. -/
def heldInFallback : State :=
  let s := ((State.reset.setInForce R.TOP_MODE 1).setInForce (R.OLn_CDR_CTRL 0) 0x200).setInForce (R.OLn_FDE_CTRL 0) 0
  s.onRx 0 fun r => { r with powered := true, fe := .acquire, equ := { r.equ with good := 3 } }

/-- Three blocks of zeros, which hold the pilot field of a superframe that begins with them. -/
def quietBurst : RxBurst := { block := 0, codes := List.replicate 2560 0 }

theorem quietBurst_length : quietBurst.codes.length = 2560 := List.length_replicate

theorem quietBurst_clean : ∀ c ∈ quietBurst.codes, ¬ saturatedCode c = true := fun c hc => by
  rw [List.eq_of_mem_replicate hc]
  decide

/-- A burst that holds both pilot blocks trains a lane. -/
theorem fieldTraining_of_clean {s : State} {n : Fin 8} {b : RxBurst} {i : Nat} (hlen : i + 2048 ≤ b.codes.length)
    (hclean : ∀ c ∈ b.codes, ¬ saturatedCode c = true) : ∃ y, s.fieldTraining n b i = some y ∧ y.sat = 0 := by
  unfold State.fieldTraining
  rw [if_neg (by omega)]
  refine ⟨_, rfl, ?_⟩
  dsimp only
  rw [List.length_eq_zero_iff, List.filter_eq_nil_iff]
  exact fun c hc => hclean c (List.mem_of_mem_take (List.mem_of_mem_drop hc))

theorem heldInFallback_training : ∃ y, heldInFallback.training 0 quietBurst = some y ∧ y.sat = 0 := by
  have hstd : heldInFallback.stdMode = false := by decide
  have hplace : heldInFallback.samplesTo 0 quietBurst 256 = 256 := by decide
  unfold State.training State.pilotTraining
  rw [hstd, if_neg (by decide), hplace]
  exact fieldTraining_of_clean (by rw [quietBurst_length]) quietBurst_clean

/-- In a CV mode the host lanes hear nothing. -/
theorem State.hear_of_not_std {s : State} {n : Fin 8} {b : RxBurst} (h : s.stdMode = false) : s.hear n b = s.countSat n b := by
  unfold State.hear State.retimeToHost
  exact if_pos (by rw [show (s.countSat n b).stdMode = s.stdMode from rfl, h]; rfl)

/-- The update of a lane that runs. -/
theorem exec_pilotUpdate {s : State} {n : Fin 8} {b : RxBurst} {signal : Bool} (hpow : s.dp.rx[n].powered = true)
    (hmask : bitOf s.laneMask n = true) (hruns : (s.stdMode || s.dp.rx[n].fe == .acquire || s.dp.rx[n].fe == .track) = true)
    (hpaused : s.dp.rx[n].equ.paused = false) :
    exec (.pilotUpdate n b signal) s = .next (((s.hear n b).processPilots n (s.training n b) signal).pausePilots n) := by
  change execPilotUpdate n b signal s = _
  unfold execPilotUpdate
  simp only [hpow, hmask, hruns, hpaused, Bool.and_self, Bool.not_true, Bool.false_eq_true, if_false]

/-- An update with nothing against it is accepted. -/
theorem State.processPilots_of_clean {s : State} {n : Fin 8} {tr : State.Training} (hlock : (s.dp.rx[n].lock == .locked) = false)
    (hsat : tr.sat = 0) (hdbar : s.dp.rx[n].equ.dbar = none) (hfrozen : s.frozen n = false) :
    ∃ d, s.processPilots n (some tr) true = (s.onEqu n fun e => { e with dbar := d }).acceptUpdate n tr := by
  unfold State.processPilots
  have hcauses : b2n (s.cvMode && false && !s.dp.rx[n].ensignOk) + 2 * b2n (decide (s.cfg (F.OLn_FDE_LIMITS_sat_lim n) < 0))
      + 8 * b2n (!true || (some tr).isNone) = 0 := by simp [b2n]
  simp only [hlock, hsat, hcauses, hdbar]
  exact ⟨_, if_neg (c := s.frozen n = true) (by rw [hfrozen]; decide)⟩

namespace State

section
variable {s : State} {n : Fin 8} {b : RxBurst}

/-- Counting the saturated codes of a burst changes nothing of a lane but where the next begins. -/
theorem countSat_lane : (s.countSat n b).dp.rx[n] =
    { s.dp.rx[n] with heard := max s.dp.rx[n].heard (768 * b.block + (b.codes.length - 256)) } := onRx_rx_same _ _ _

theorem countSat_lock : (s.countSat n b).dp.rx[n].lock = s.dp.rx[n].lock := by rw [countSat_lane]

theorem countSat_equ : (s.countSat n b).dp.rx[n].equ = s.dp.rx[n].equ := by rw [countSat_lane]

theorem countSat_frozen : (s.countSat n b).frozen n = s.frozen n := rfl

theorem countSat_sameCount : SameCount n s (s.countSat n b) := ⟨rfl, by rw [countSat_lane], by rw [countSat_lane]⟩

/-- The pause of the throttle leaves the set that waits for a switch point. -/
theorem pausePilots_next : (s.pausePilots n).dp.rx[n].equ.next = s.dp.rx[n].equ.next := by
  unfold pausePilots onEqu
  rw [onRx_rx_same]

end
end State

theorem heldInFallback_lock : heldInFallback.dp.rx[(0 : Fin 8)].lock = .off := by decide

theorem heldInFallback_dbar : heldInFallback.dp.rx[(0 : Fin 8)].equ.dbar = none := by decide

/-- The fourth good update of the held lane leaves no set that waits. -/
theorem heldInFallback_next {y : State.Training} (hsat : y.sat = 0) :
    (((heldInFallback.hear 0 quietBurst).processPilots 0 (some y) true).pausePilots 0).dp.rx[(0 : Fin 8)].equ.next = none := by
  rw [State.pausePilots_next, State.hear_of_not_std (by decide)]
  obtain ⟨d, hd⟩ := State.processPilots_of_clean (s := heldInFallback.countSat 0 quietBurst) (n := 0)
    (by rw [State.countSat_lock, heldInFallback_lock]; decide) hsat (by rw [State.countSat_equ, heldInFallback_dbar])
    (State.countSat_frozen.trans (by decide))
  have hsame : SameCount 0 heldInFallback ((heldInFallback.countSat 0 quietBurst).onEqu 0 fun e => { e with dbar := d }) :=
    .onEqu State.countSat_sameCount
  rw [hd]
  exact State.acceptUpdate_of_forced (hsame.fe.trans (by decide)) (hsame.good.symm ▸ (by decide))
    ((State.cfg_congr hsame.inForce _).trans (by decide)) ((State.cfgOn_congr hsame.inForce _).trans (by decide))

/-- Refutes O35: with force_ref = 1 the fourth good update in ACQUIRE starts a search anew, and no set waits for the switch point. -/
theorem not_pilotsAndTaps : ¬ Obligations.PilotsAndTaps := by
  unfold Obligations.PilotsAndTaps
  rintro ⟨h, -⟩
  obtain ⟨y, hy, hsat⟩ := heldInFallback_training
  obtain ⟨-, hupdate, -⟩ := h heldInFallback 0 quietBurst 0 true
  obtain ⟨-, -, htrained⟩ := hupdate (by decide) (.inr (.inr (by decide))) (by decide)
  obtain ⟨-, -, -, haccepts⟩ := htrained y (by decide) hy
  obtain ⟨t, hexec, hnext, -⟩ := haccepts
    (by rw [if_neg (by rw [heldInFallback_lock]; rintro ⟨-, h, -⟩; cases h), hsat, if_neg (Nat.not_lt_zero _), if_pos rfl])
    (by rw [heldInFallback_dbar]; rintro ⟨m, hm, -⟩; cases hm) (by decide)
  rw [exec_pilotUpdate (by decide) (by decide) (by decide) (by decide), hy] at hexec
  cases hexec
  rw [heldInFallback_next hsat] at hnext
  exact absurd hnext (by decide)

end Sys2Proof.Machine
end

section
/-!
How a frame grows by one write, and what an operation of a lane's ADC calibration leaves of the lane (R79–R83).
-/

namespace Sys2Proof.Machine

/-! ## A frame and one write more -/

section
variable {ps : List Part} {may : Nat → Prop} {s t : State}

theorem Touches.setReg (h : Touches ps may s t) {a : Nat} {v : Word} (ha : may a) : Touches ps may s (t.setReg a v) :=
  h.trans ((t.setReg_touches a v).mono (by simp) (by rintro _ rfl; exact ha))

theorem Touches.wr (h : Touches ps may s t) {f : RField} {v : Nat} (ha : may f.addr) : Touches ps may s (t.wr f v) := h.setReg ha

theorem Touches.bumpBy (h : Touches ps may s t) {a k : Nat} (ha : may a) : Touches ps may s (t.bumpBy a k) := h.setReg ha

theorem Touches.bump (h : Touches ps may s t) {a : Nat} (ha : may a) : Touches ps may s (t.bump a) := h.bumpBy ha

theorem Touches.onDp (h : Touches ps may s t) {f : Datapath → Datapath} (hdp : .dp ∈ ps := by decide) : Touches ps may s (t.onDp f) :=
  h.trans ((t.dp_touches _).mono (by simpa using hdp) (by simp))

theorem Touches.onRx (h : Touches ps may s t) {n : Fin 8} {f : RxLane → RxLane} (hdp : .dp ∈ ps := by decide) :
    Touches ps may s (t.onRx n f) := h.onDp hdp

theorem Touches.onAdc (h : Touches ps may s t) {n : Fin 8} {f : AdcCal → AdcCal} (hdp : .dp ∈ ps := by decide) :
    Touches ps may s (t.onAdc n f) := h.onDp hdp

end

/-! ## The calibration of one lane -/

/-- Of the datapath, lane `n`'s ADC calibration alone may have changed since `s`, and it is `d` now. -/
def AdcNow (n : Fin 8) (s t : State) (d : AdcCal) : Prop :=
  t.dp = { s.dp with rx := s.dp.rx.set n { s.dp.rx[n] with adc := d } }

section
variable {n : Fin 8} {s t u : State} {d : AdcCal}

theorem AdcNow.refl (n : Fin 8) (s : State) : AdcNow n s s s.dp.rx[n].adc :=
  congrArg (fun v : Vector RxLane 8 => ({ s.dp with rx := v } : Datapath)) (Vector.set_getElem_self n.isLt).symm

/-- A change of what is beside the datapath. -/
theorem AdcNow.same (h : AdcNow n s t d) (e : u.dp = t.dp) : AdcNow n s u d := e.trans h

theorem AdcNow.wr {f : RField} {v : Nat} (h : AdcNow n s t d) : AdcNow n s (t.wr f v) d := h

theorem AdcNow.bump {a : Nat} (h : AdcNow n s t d) : AdcNow n s (t.bump a) d := h

theorem AdcNow.lane (h : AdcNow n s t d) : t.dp.rx[n] = { s.dp.rx[n] with adc := d } := by
  simp only [AdcNow] at h
  simp only [h]
  exact Vector.getElem_set_self _

theorem AdcNow.other (h : AdcNow n s t d) {m : Fin 8} (hm : m ≠ n) : t.dp.rx[m] = s.dp.rx[m] := by
  simp only [AdcNow] at h
  simp only [h]
  exact Vector.getElem_set_ne n.isLt m.isLt fun e => hm (Fin.ext e.symm)

theorem AdcNow.adc (h : AdcNow n s t d) : t.dp.rx[n].adc = d := by rw [h.lane]

theorem AdcNow.onAdc {f : AdcCal → AdcCal} (h : AdcNow n s t d) : AdcNow n s (t.onAdc n f) (f d) := by
  have hrx : t.dp.rx = s.dp.rx.set n { s.dp.rx[n] with adc := d } := congrArg Datapath.rx h
  have hdp : (t.onAdc n f).dp = { t.dp with rx := t.dp.rx.set n { t.dp.rx[n] with adc := f t.dp.rx[n].adc } } := rfl
  rw [AdcNow, hdp, h.lane, hrx, Vector.set_set, h]

/-! ## The start of a run (R79, R82) -/

/-- A run that starts (R79). -/
def AdcCal.started (c : AdcCal) (temp : Int) : AdcCal :=
  { c with request := false, abort := false, tries := 0, shadowOk := false, partialRun := false, skewOnly := false, startTemp := temp }

theorem AdcNow.adcStart (h : AdcNow n s t d) : AdcNow n s (t.adcStart n) (d.started t.therm.laneTemp[n]) := by
  unfold State.adcStart
  exact h.onAdc.wr.wr

theorem Touches.adcStart {ps : List Part} {may : Nat → Prop} (h : Touches ps may s t) (ha : may (R.OLn_RX_CAL_STAT n))
    (hdp : .dp ∈ ps := by decide) : Touches ps may s (t.adcStart n) := ((h.onAdc hdp).wr ha).wr ha

namespace State

/-- A lane of a pair with a busy run starts none. -/
theorem adcReview_of_busy {m : Fin 8} (hm : m.val / 2 = n.val / 2) (h : s.adcBusy m = true) : s.adcReview n = s := by
  have hor : (s.adcBusy (pairLow n) || s.adcBusy (pairHigh n)) = true := by
    have hpair : m = pairLow n ∨ m = pairHigh n := by
      simp only [pairLow, pairHigh, Fin.ext_iff]
      omega
    rcases hpair with rfl | rfl <;> simp [h]
  rw [adcReview_eq, hor, if_pos rfl]

/-- Nor does a pair of which no lane waits. -/
theorem adcReview_of_idle (h : ∀ m : Fin 8, m.val / 2 = n.val / 2 → s.dp.rx[m].adc.request = false) : s.adcReview n = s := by
  have hwaits (m : Fin 8) (hm : m.val / 2 = n.val / 2) : s.adcWaits m = false := by rw [adcWaits, h m hm, Bool.false_and]
  rw [adcReview_eq, hwaits _ (pairLow_div n), hwaits _ (pairHigh_div n)]
  simp only [Bool.false_eq_true, if_false, ite_self]

/-- A request reaches the lane's engine, and waits. -/
def adcAsked (s : State) (n : Fin 8) : State := (s.raiseEv (laneEngine n) 10).onAdc n fun c => { c with request := true }

theorem adcRequest_of_powered (h : s.dp.rx[n].powered = true) : s.adcRequest n = (s.adcAsked n).adcReview n := by
  unfold adcRequest
  dsimp only
  rw [raiseEv_dp]
  exact if_pos h

theorem adcAsked_now : AdcNow n s (s.adcAsked n) { s.dp.rx[n].adc with request := true } :=
  ((AdcNow.refl n s).same raiseEv_dp).onAdc

theorem adcAsked_touches : Touches [.dp, .eng] engReg s (s.adcAsked n) :=
  Touches.onAdc ((raiseEv_touches _ _ _).mono (by simp) fun _ h => h)

theorem adcAsked_busy (m : Fin 8) : (s.adcAsked n).adcBusy m = s.adcBusy m :=
  flag_congr (reg_raiseEv (not_engReg_of_optical (rxCalStat_optical m)))

/-- A request in an idle pair whose other lane does not wait starts a run. -/
theorem adcRequest_of_idle (hpow : s.dp.rx[n].powered = true)
    (hidle : ∀ m : Fin 8, m.val / 2 = n.val / 2 → s.adcBusy m = false ∧ (m ≠ n → s.dp.rx[m].adc.request = false)) :
    s.adcRequest n = (s.adcAsked n).adcStart n := by
  have hlane := adcAsked_now (n := n) (s := s)
  rw [adcRequest_of_powered hpow]
  refine adcReview_starts (fun m hm => (adcAsked_busy m).trans (hidle m hm).1) (fun m hne hm => ?_) ?_
  · rw [adcWaits, hlane.other hne, (hidle m hm).2 hne, Bool.false_and]
  · rw [adcWaits, hlane.lane]
    exact (Bool.true_and _).trans hpow

/-- A request of a lane whose run is busy is remembered (R82). -/
theorem adcRequest_of_busy (hpow : s.dp.rx[n].powered = true) (hbusy : s.adcBusy n = true) : s.adcRequest n = s.adcAsked n :=
  (adcRequest_of_powered hpow).trans (adcReview_of_busy rfl ((adcAsked_busy n).trans hbusy))

/-- What a request in an idle pair leaves. -/
theorem adcRequest_started (hpow : s.dp.rx[n].powered = true)
    (hidle : ∀ m : Fin 8, m.val / 2 = n.val / 2 → s.adcBusy m = false ∧ (m ≠ n → s.dp.rx[m].adc.request = false)) :
    ((s.adcRequest n).adcBusy n = true ∧ (s.adcRequest n).rd (F.OLn_RX_CAL_STAT_step n) = 0
      ∧ AdcNow n s (s.adcRequest n) (s.dp.rx[n].adc.started s.therm.laneTemp[n]))
    ∧ Touches [.dp, .eng] (fun a => a = R.OLn_RX_CAL_STAT n ∨ engReg a) s (s.adcRequest n) := by
  have htherm : (s.adcAsked n).therm = s.therm := adcAsked_touches.1 .therm (by simp)
  have hnow := (adcAsked_now (n := n) (s := s)).adcStart
  obtain ⟨hbusy, hstep⟩ := adcStart_busy (n := n) (s.adcAsked n)
  rw [adcRequest_of_idle hpow hidle]
  simp only [htherm] at hnow
  exact ⟨⟨hbusy, hstep, hnow⟩, (adcAsked_touches.mono (by simp) fun _ => .inr).adcStart (.inl rfl)⟩

/-! ## The write that requests a run (R82) -/

theorem desc_rxCalCtrl : ∀ n : Fin 8,
    desc (R.OLn_RX_CAL_CTRL n) = ⟨0x110, 1, 4, 0xFFFFFFF1, 0, 0, 2, 0, 0xFFFFFFF1, 0xFFFFF61, false, 0⟩ := by decide

/-- OLn_RX_CAL_CTRL has staged bits and its run bit alone. -/
theorem plainWrite_rxCalCtrl (s : State) (n : Fin 8) (v : Word) : s.plainWrite (R.OLn_RX_CAL_CTRL n) v =
    s.setStaged (R.OLn_RX_CAL_CTRL n) (merge (s.stagedReg (R.OLn_RX_CAL_CTRL n)) 0xFFFFFFF1 v) := by
  unfold plainWrite
  rw [desc_rxCalCtrl]
  rfl

/-- Its run bit requests a run. -/
theorem opticalWrite_rxCalCtrl {s : State} {n : Fin 8} {v : Word} (hv : v.getLsbD 1 = true) :
    s.opticalWrite (R.OLn_RX_CAL_CTRL n) v = some ((s.plainWrite (R.OLn_RX_CAL_CTRL n) v).adcRequest n) := by
  have hoff : (R.OLn_RX_CAL_CTRL n - 0x200000) % 0x10000 = 0x110 := by simp only [R.OLn_RX_CAL_CTRL]; omega
  have hlane : Fin.ofNat 8 ((R.OLn_RX_CAL_CTRL n - 0x200000) / 0x10000) = n := by
    refine Fin.ext ?_
    simp only [Fin.ofNat, R.OLn_RX_CAL_CTRL]
    omega
  unfold opticalWrite
  rw [if_neg (by simp only [R.OLn_RX_CAL_CTRL]; omega)]
  simp only [hoff, hlane, hv, if_true]

/-- The state in which a port's write acts that stages nothing new. -/
def restaged (s : State) (a : Nat) : State := (s.checked a).setStaged a (s.stagedReg a)

theorem restaged_touches (a : Nat) : Touches [.staged, .mem] (fun _ => False) s (s.restaged a) :=
  ((s.checked_touches a).mono (by simp) (by simp)).trans ((setStaged_touches _ _ _).mono (by simp) (by simp))

/-- A port that sets the run bit requests a run, and stages nothing new. -/
theorem put_adcRun {port : Fin 5} (h : s.ready port (R.OLn_RX_CAL_CTRL n) = true) :
    s.put port (R.OLn_RX_CAL_CTRL n) (s.stagedReg (R.OLn_RX_CAL_CTRL n) ||| 2) = (s.restaged (R.OLn_RX_CAL_CTRL n)).adcRequest n := by
  have haddr : 0x200000 ≤ R.OLn_RX_CAL_CTRL n ∧ R.OLn_RX_CAL_CTRL n < 0x280000 := by simp only [R.OLn_RX_CAL_CTRL]; omega
  rw [put_ready s port _ _ h (by omega) (by omega), regWrite_optical haddr (opticalWrite_rxCalCtrl (by simp)), plainWrite_rxCalCtrl,
    show (s.checked (R.OLn_RX_CAL_CTRL n)).stagedReg (R.OLn_RX_CAL_CTRL n) = s.stagedReg (R.OLn_RX_CAL_CTRL n) from rfl,
    merge_or_self (by decide)]
  rfl

/-- What follows on a write that stages nothing new leaves the staged copies as they were. -/
theorem stagedReg_of_restaged {a : Nat} {ps : List Part} {may : Nat → Prop} {t : State} (h : Touches ps may (s.restaged a) t)
    (hps : .staged ∉ ps := by decide) (b : Nat) : t.stagedReg b = s.stagedReg b :=
  (congrArg (mapGet (resetWord b) · b) (h.1 .staged hps)).trans (s.stagedReg_setStaged_self a b)

end State
end

section
variable {s : State} {port : Fin 5} {n : Fin 8}

/-- A port requests an ADC run in an idle pair (R82). -/
theorem adcCalRunRequest_starts (hready : s.ready port (R.OLn_RX_CAL_CTRL n) = true) (hpow : s.dp.rx[n].powered = true)
    (hidle : ∀ m : Fin 8, m.val / 2 = n.val / 2 → s.adcBusy m = false ∧ (m ≠ n → s.dp.rx[m].adc.request = false)) :
    Answers (.adcCalRunRequest port n) s fun t =>
      (t.adcBusy n = true ∧ t.rd (F.OLn_RX_CAL_STAT_step n) = 0 ∧ AdcNow n s t (s.dp.rx[n].adc.started s.therm.laneTemp[n]))
      ∧ (∀ a, t.stagedReg a = s.stagedReg a)
      ∧ Touches [.staged, .dp, .mem, .eng] (fun a => a = R.OLn_RX_CAL_STAT n ∨ engReg a) s t := by
  obtain ⟨hstarted, htouch⟩ := State.adcRequest_started (s := s.restaged (R.OLn_RX_CAL_CTRL n)) hpow hidle
  exact ⟨_, congrArg Host.Outcome.next (State.put_adcRun hready), hstarted, State.stagedReg_of_restaged htouch,
    ((State.restaged_touches _).mono (by simp) (by simp)).trans (htouch.mono (by simp) fun _ h => h)⟩

/-- A port requests an ADC run of a lane whose run is busy (R82). -/
theorem adcCalRunRequest_waits (hready : s.ready port (R.OLn_RX_CAL_CTRL n) = true) (hpow : s.dp.rx[n].powered = true)
    (hbusy : s.adcBusy n = true) :
    Answers (.adcCalRunRequest port n) s fun t =>
      AdcNow n s t { s.dp.rx[n].adc with request := true } ∧ (∀ a, t.stagedReg a = s.stagedReg a)
      ∧ Touches [.staged, .dp, .mem, .eng] engReg s t := by
  have hasked := State.adcRequest_of_busy (s := s.restaged (R.OLn_RX_CAL_CTRL n)) hpow hbusy
  have hnow := State.adcAsked_now (s := s.restaged (R.OLn_RX_CAL_CTRL n)) (n := n)
  have htouch := State.adcAsked_touches (s := s.restaged (R.OLn_RX_CAL_CTRL n)) (n := n)
  exact ⟨_, congrArg Host.Outcome.next ((State.put_adcRun hready).trans hasked), hnow, State.stagedReg_of_restaged htouch,
    ((State.restaged_touches _).mono (by simp) (by simp)).trans (htouch.mono (by simp) fun _ h => h)⟩

end
end Sys2Proof.Machine
end

section
/-!
The results of an ADC run and the ends of its steps (R79–R83).
-/

namespace Sys2Proof.Machine

/-- One slice's corrections or place change. -/
def AdcCal.setSlice (c : AdcCal) (i : Nat) (f : Slice → Slice) : AdcCal :=
  match c.slices[i]? with
  | some x => { c with slices := c.slices.setIfInBounds i (f x) }
  | none => c

theorem AdcCal.setSlice_of_some {c : AdcCal} {i : Nat} {x : Slice} {f : Slice → Slice} (h : c.slices[i]? = some x) :
    c.setSlice i f = { c with slices := c.slices.setIfInBounds i (f x) } := by
  rw [setSlice, h]

theorem AdcCal.setSlice_slices (c : AdcCal) (i : Nat) (f : Slice → Slice) (k : Fin 65) :
    (c.setSlice i f).slices[k] = if i = k.val then f c.slices[k] else c.slices[k] := by
  by_cases hi : i < 65
  · rw [setSlice_of_some (Vector.getElem?_eq_getElem hi)]
    refine (Vector.getElem_setIfInBounds k.isLt).trans ?_
    by_cases h : i = k.val
    · subst h
      rfl
    · rw [if_neg h, if_neg h]
      rfl
  · rw [setSlice, Vector.getElem?_eq_none (Nat.le_of_not_lt hi), if_neg fun h : i = k.val => hi (h ▸ k.isLt)]

/-- Nothing but the slices changes. -/
theorem AdcCal.setSlice_rest (c : AdcCal) (i : Nat) (f : Slice → Slice) :
    c.setSlice i f = { c with slices := (c.setSlice i f).slices } := by
  unfold setSlice
  split <;> rfl

section
variable {n : Fin 8} {s t : State} {d : AdcCal}

theorem AdcNow.setSlice {i : Nat} {f : Slice → Slice} (h : AdcNow n s t d) : AdcNow n s (t.setSlice n i f) (d.setSlice i f) := h.onAdc

theorem Touches.setSlice {ps : List Part} {may : Nat → Prop} (h : Touches ps may s t) {i : Nat} {f : Slice → Slice}
    (hdp : .dp ∈ ps := by decide) : Touches ps may s (t.setSlice n i f) := h.onAdc hdp

theorem counted_bump (s : State) (a : Nat) : Claims.counted s (s.bump a) a 1 := State.reg_bumpBy_same s a 1

namespace State

/-! ## Results (R80, R81) -/

theorem adcReject_now : AdcNow n s (s.adcReject n) { s.dp.rx[n].adc with partialRun := true } := (AdcNow.refl n s).bump.onAdc

theorem adcReject_touches : Touches [.dp] (· = R.OLn_RX_CAL_REJ_CNT n) s (s.adcReject n) :=
  ((Touches.refl [.dp] (· = R.OLn_RX_CAL_REJ_CNT n) s).bump rfl).onAdc

theorem adcReject_counted : Claims.counted s (s.adcReject n) (R.OLn_RX_CAL_REJ_CNT n) 1 := counted_bump s _

variable {off gain skew : Int} {x : Slice}

theorem adcOffline_of_within (hx : s.dp.rx[n].adc.slices[s.spareSlice n]? = some x)
    (hoff : (off - x.offset).natAbs ≤ 4 * s.cfg (F.OLn_RX_CAL_CTRL_off_lim n))
    (hgain : (gain - x.gain).natAbs ≤ 10 * s.cfg (F.OLn_RX_CAL_CTRL_gain_lim n)) :
    s.adcOffline n off gain = s.setSlice n (s.spareSlice n) fun x => { x with offset := off, gain := gain } := by
  unfold adcOffline
  rw [hx]
  exact if_neg (by omega)

theorem adcOffline_of_gain (hx : s.dp.rx[n].adc.slices[s.spareSlice n]? = some x)
    (hgain : 10 * s.cfg (F.OLn_RX_CAL_CTRL_gain_lim n) < (gain - x.gain).natAbs) : s.adcOffline n off gain = s.adcReject n := by
  unfold adcOffline
  rw [hx]
  exact if_pos (.inr hgain)

theorem adcSkew_of_within
    (h : (skew - s.dp.rx[n].adc.trims.getD (s.stepSlot n) 0).natAbs ≤ 2 * s.cfg (F.OLn_RX_CAL_CTRL_skew_lim n)) :
    s.adcSkew n skew = s.onAdc n fun c => { c with trims := c.trims.setIfInBounds (s.stepSlot n) skew } := if_neg (by omega)

/-! ## The end of a step (R79, R81, R83) -/

/-- The spare has taken the step's slot from the slice `old`, which is the spare now (R79). -/
def adcTraded (s : State) (n : Fin 8) (old : Nat) : State :=
  (((s.setSlice n (s.spareSlice n) fun x => { x with slot := s.stepSlot n }).setSlice n old fun x => { x with slot := 64 }).wr
    (F.OLn_RX_CAL_STAT_spare n) old).wr (F.OLn_RX_STAT_slice_parked n) 0

theorem adcSwap_of_found {old : Nat} (h : s.dp.rx[n].adc.slices.toList.findIdx? (·.slot == s.stepSlot n) = some old) :
    s.adcSwap n = s.adcTraded n old := by
  unfold adcSwap
  simp only [h]
  rfl

/-- The next step begins. -/
def adcNextStep (s : State) (n : Fin 8) : State :=
  (s.wr (F.OLn_RX_CAL_STAT_step n) (s.rd (F.OLn_RX_CAL_STAT_step n) + 1)).onAdc n fun c => { c with tries := 0, shadowOk := false }

/-- Where a step's end leaves the spare. -/
def adcPlaced (s : State) (n : Fin 8) : State :=
  if s.dp.rx[n].adc.skewOnly then s else if s.dp.rx[n].adc.shadowOk then s.adcSwap n else s.adcPark n

variable {spur sndr : Nat}

/-- A step whose work is done ends. -/
theorem adcStepEnd_of_done (habort : s.dp.rx[n].adc.abort = false)
    (hdone : s.dp.rx[n].adc.skewOnly = true ∨ s.dp.rx[n].adc.shadowOk = true ∨ 2 ≤ s.dp.rx[n].adc.tries) :
    s.adcStepEnd n spur sndr = if (s.adcPlaced n).rd (F.OLn_RX_CAL_STAT_step n) = 64 then (s.adcPlaced n).adcRunEnd n spur sndr
      else (s.adcPlaced n).adcNextStep n := by
  unfold adcStepEnd
  dsimp only
  rw [if_neg (by rw [habort]; decide), if_neg]
  · rfl
  · rcases hdone with h | h | h
    · rw [h, Bool.not_true, Bool.false_and, Bool.false_and]
      decide
    · rw [h, Bool.not_true, Bool.and_false, Bool.false_and]
      decide
    · rw [decide_eq_false (Nat.not_lt.mpr h), Bool.and_false]
      decide

/-! ### The spare takes a slot -/

/-- The two slices change their slots, and nothing else of the calibration changes. -/
theorem adcTraded_now {old : Nat} (hne : old ≠ s.spareSlice n) : ∃ v : Vector Slice 65,
    AdcNow n s (s.adcTraded n old) { s.dp.rx[n].adc with slices := v } ∧ ∀ i : Fin 65, v[i] = { s.dp.rx[n].adc.slices[i] with
      slot := if i.val = old then 64 else if i.val = s.spareSlice n then s.stepSlot n else s.dp.rx[n].adc.slices[i].slot } := by
  have hnow : AdcNow n s (s.adcTraded n old) _ := (AdcNow.refl n s).setSlice.setSlice.wr.wr
  rw [AdcCal.setSlice_rest, AdcCal.setSlice_rest s.dp.rx[n].adc] at hnow
  refine ⟨_, hnow, fun i => ?_⟩
  rw [AdcCal.setSlice_slices]
  by_cases hold : old = i.val
  · rw [if_pos hold, if_pos hold.symm]
    dsimp only
    rw [AdcCal.setSlice_slices, if_neg (by omega)]
  · rw [if_neg hold, if_neg (Ne.symm hold)]
    dsimp only
    rw [AdcCal.setSlice_slices]
    by_cases hspare : s.spareSlice n = i.val
    · rw [if_pos hspare, if_pos hspare.symm]
    · rw [if_neg hspare, if_neg (Ne.symm hspare)]

theorem adcTraded_touches {old : Nat} :
    Touches [.dp] (fun a => a = R.OLn_RX_CAL_STAT n ∨ a = R.OLn_RX_STAT n) s (s.adcTraded n old) :=
  ((Touches.refl [.dp] (fun a => a = R.OLn_RX_CAL_STAT n ∨ a = R.OLn_RX_STAT n) s).setSlice.setSlice.wr (.inl rfl)).wr (.inr rfl)

theorem adcNextStep_touches : Touches [.dp] (· = R.OLn_RX_CAL_STAT n) s (s.adcNextStep n) :=
  ((Touches.refl [.dp] (· = R.OLn_RX_CAL_STAT n) s).wr rfl).onAdc

/-- The next step is one on, and nothing else of the run's status changes. -/
theorem adcNextStep_status (h : s.rd (F.OLn_RX_CAL_STAT_step n) < 64) :
    (s.adcNextStep n).rd (F.OLn_RX_CAL_STAT_step n) = s.rd (F.OLn_RX_CAL_STAT_step n) + 1
      ∧ (s.adcNextStep n).adcBusy n = s.adcBusy n ∧ (s.adcNextStep n).spareSlice n = s.spareSlice n := by
  have hon (t : State) (f : AdcCal → AdcCal) (g : RField) : (t.onAdc n f).rd g = t.rd g := rfl
  simp only [adcBusy, flag, spareSlice, adcNextStep, hon]
  refine ⟨?_, ?_, ?_⟩
  · rw [rd_wr_same _ _ _ (by decide : 3 + 7 ≤ 32)]
    exact Nat.mod_eq_of_lt (show _ < 2 ^ 7 by omega)
  · rw [rd_wr_disjoint _ _ _ _ (.inl (by decide : 0 + 1 ≤ 3)) (by decide : 0 + 1 ≤ 32)]
  · exact rd_wr_disjoint _ _ _ _ (.inr (by decide : 3 + 7 ≤ 10)) (by decide : 10 + 7 ≤ 32)

theorem adcTraded_status {old : Nat} (h : old < 65) : (s.adcTraded n old).spareSlice n = old ∧ (s.adcTraded n old).adcBusy n = s.adcBusy n
    ∧ (s.adcTraded n old).rd (F.OLn_RX_CAL_STAT_step n) = s.rd (F.OLn_RX_CAL_STAT_step n) := by
  have hstat : (F.OLn_RX_CAL_STAT_spare n).addr ≠ (F.OLn_RX_STAT_slice_parked n).addr := by
    simp only [F.OLn_RX_CAL_STAT_spare, F.OLn_RX_STAT_slice_parked, R.OLn_RX_CAL_STAT, R.OLn_RX_STAT]
    omega
  have hparked (t : State) (f : RField) (hf : f.addr = R.OLn_RX_CAL_STAT n) : (t.wr (F.OLn_RX_STAT_slice_parked n) 0).rd f = t.rd f :=
    rd_wr_addr _ _ _ _ (hf ▸ hstat)
  have hset (t : State) (i : Nat) (f : Slice → Slice) (g : RField) : (t.setSlice n i f).rd g = t.rd g := rfl
  simp only [adcBusy, flag, spareSlice, adcTraded, hparked _ (F.OLn_RX_CAL_STAT_spare n) rfl, hparked _ (F.OLn_RX_CAL_STAT_busy n) rfl,
    hparked _ (F.OLn_RX_CAL_STAT_step n) rfl]
  refine ⟨?_, ?_, ?_⟩
  · rw [rd_wr_same _ _ _ (by decide : 10 + 7 ≤ 32)]
    exact Nat.mod_eq_of_lt (show _ < 2 ^ 7 by omega)
  · rw [rd_wr_disjoint _ _ _ _ (.inl (by decide : 0 + 1 ≤ 10)) (by decide : 0 + 1 ≤ 32), hset, hset]
  · exact rd_wr_disjoint _ _ _ _ (.inl (by decide : 3 + 7 ≤ 10)) (by decide : 3 + 7 ≤ 32)

/-- R79: the end of a step whose shadow test passed. -/
theorem adcStepEnd_trades {old : Nat} (habort : s.dp.rx[n].adc.abort = false) (hskew : s.dp.rx[n].adc.skewOnly = false)
    (hok : s.dp.rx[n].adc.shadowOk = true) (hstep : s.rd (F.OLn_RX_CAL_STAT_step n) < 64) (hold : old < 65)
    (hfound : s.dp.rx[n].adc.slices.toList.findIdx? (·.slot == s.stepSlot n) = some old) :
    s.adcStepEnd n spur sndr = (s.adcTraded n old).adcNextStep n := by
  obtain ⟨-, -, hkept⟩ := adcTraded_status (n := n) (s := s) hold
  have hplaced : s.adcPlaced n = s.adcTraded n old := by
    unfold adcPlaced
    rw [if_neg (by rw [hskew]; decide), if_pos hok, adcSwap_of_found hfound]
  rw [adcStepEnd_of_done habort (.inr (.inl hok)), hplaced, hkept, if_neg (by omega)]

/-! ### The spare is parked -/

theorem adcPark_touches :
    Touches [.dp, .eng, .evr] (fun a => a = R.OLn_RX_CAL_STAT n ∨ a = R.OLn_RX_STAT n ∨ noticeReg a) s (s.adcPark n) :=
  ((Touches.refl [.dp, .eng, .evr] (fun a => a = R.OLn_RX_CAL_STAT n ∨ a = R.OLn_RX_STAT n ∨ noticeReg a) s).setSlice.onAdc.wr
    (.inr (.inl rfl))).trans ((logEvent_touches _ _ _ _ _).mono (by simp) fun _ h => .inr (.inr h))

theorem adcPark_now : ∃ slices,
    AdcNow n s (s.adcPark n) { s.dp.rx[n].adc with slices := slices, partialRun := true, skewOnly := true } := by
  have hnow : AdcNow n s (s.adcPark n) { s.dp.rx[n].adc.setSlice (s.spareSlice n) (fun x => { x with slot := 0x7F }) with
      partialRun := true, skewOnly := true } := (AdcNow.refl n s).setSlice.onAdc.wr.same logEvent_dp
  rw [AdcCal.setSlice_rest] at hnow
  exact ⟨_, hnow⟩

/-- The registers of optical lanes are not those of an event that is noticed. -/
theorem not_noticeReg_of_optical {a : Nat} (h : 0x200000 ≤ a) : ¬ noticeReg a := by
  simp only [noticeReg, R.TOP_INT, R.EVR_DROP_CNT, R.EVR_INT, engReg]
  omega

theorem adcPark_status : (s.adcPark n).flag (F.OLn_RX_STAT_slice_parked n) = true
    ∧ (s.adcPark n).rd (F.OLn_RX_CAL_STAT_step n) = s.rd (F.OLn_RX_CAL_STAT_step n) := by
  have hstat : (F.OLn_RX_CAL_STAT_step n).addr ≠ (F.OLn_RX_STAT_slice_parked n).addr := by
    simp only [F.OLn_RX_CAL_STAT_step, F.OLn_RX_STAT_slice_parked, R.OLn_RX_CAL_STAT, R.OLn_RX_STAT]
    omega
  have hlogged (t : State) (code x y a : Nat) (ha : 0x200000 ≤ a) : (t.logEvent srcOl code x y).reg a = t.reg a :=
    reg_logEvent_of_not_notice (not_noticeReg_of_optical ha)
  unfold adcPark
  refine ⟨(flag_congr (hlogged _ _ _ _ _ (by simp only [F.OLn_RX_STAT_slice_parked, R.OLn_RX_STAT]; omega))).trans
    (flag_wr_one rfl (by decide : 5 < 32)), ?_⟩
  exact (congrArg (getField · _ _) (hlogged _ _ _ _ _ (rxCalStat_optical n))).trans (rd_wr_addr _ _ _ _ hstat)

/-- R81: the end of a step whose shadow test failed twice. -/
theorem adcStepEnd_parks (habort : s.dp.rx[n].adc.abort = false) (hskew : s.dp.rx[n].adc.skewOnly = false)
    (hok : s.dp.rx[n].adc.shadowOk = false) (htries : 2 ≤ s.dp.rx[n].adc.tries) (hstep : s.rd (F.OLn_RX_CAL_STAT_step n) < 64) :
    s.adcStepEnd n spur sndr = (s.adcPark n).adcNextStep n := by
  have hplaced : s.adcPlaced n = s.adcPark n := by
    unfold adcPlaced
    rw [if_neg (by rw [hskew]; decide), if_neg (by rw [hok]; decide)]
  rw [adcStepEnd_of_done habort (.inr (.inr htries)), hplaced, adcPark_status.2, if_neg (by omega)]

/-! ### The run ends -/

/-- A run has ended, and its figures are reported (R83, R100). -/
def adcEnded (s : State) (n : Fin 8) (spur sndr : Nat) : State :=
  (((((((s.wr (F.OLn_RX_CAL_STAT_busy n) 0).wr (F.OLn_RX_CAL_STAT_last n) (if s.dp.rx[n].adc.partialRun then 2 else 1)).wr
    (F.OLn_RX_CAL_STAT_temp_c n) (ofSigned 8 (roundDiv s.dp.rx[n].adc.startTemp 16))).wr (F.OLn_RX_QUAL_spur_db n) spur).wr
    (F.OLn_RX_QUAL_sndr_q n) sndr).wr (F.OLn_RX_QUAL_valid n) 1)).onAdc n fun c =>
    { c with j0 := (c.j0 + 65) % 64, lastTemp := some c.startTemp }

theorem adcRunEnd_eq : s.adcRunEnd n spur sndr = ((s.adcEnded n spur sndr).adcTempCheck n).adcReview n := rfl

theorem adcEnded_now : AdcNow n s (s.adcEnded n spur sndr)
    { s.dp.rx[n].adc with j0 := (s.dp.rx[n].adc.j0 + 65) % 64, lastTemp := some s.dp.rx[n].adc.startTemp } :=
  (AdcNow.refl n s).wr.wr.wr.wr.wr.wr.onAdc

theorem adcEnded_touches : Touches [.dp] (fun a => a = R.OLn_RX_CAL_STAT n ∨ a = R.OLn_RX_QUAL n) s (s.adcEnded n spur sndr) :=
  (((((((Touches.refl [.dp] (fun a => a = R.OLn_RX_CAL_STAT n ∨ a = R.OLn_RX_QUAL n) s).wr (.inl rfl)).wr (.inl rfl)).wr
    (.inl rfl)).wr (.inr rfl)).wr (.inr rfl)).wr (.inr rfl)).onAdc

theorem ofSigned_lt (k : Nat) (i : Int) : ofSigned k i < 2 ^ k := by
  have hpos : (0 : Int) < ((2 ^ k : Nat) : Int) := by positivity
  have := Int.emod_lt_of_pos i hpos
  unfold ofSigned
  omega

theorem adcEnded_status : (s.adcEnded n spur sndr).adcBusy n = false
    ∧ (s.adcEnded n spur sndr).rd (F.OLn_RX_CAL_STAT_last n) = (if s.dp.rx[n].adc.partialRun then 2 else 1)
    ∧ (s.adcEnded n spur sndr).rd (F.OLn_RX_CAL_STAT_temp_c n) = ofSigned 8 (roundDiv s.dp.rx[n].adc.startTemp 16)
    ∧ (s.adcEnded n spur sndr).flag (F.OLn_RX_QUAL_valid n) = true := by
  have hon (t : State) (f : AdcCal → AdcCal) (a : Nat) : (t.onAdc n f).reg a = t.reg a := rfl
  have hlast : (if s.dp.rx[n].adc.partialRun then 2 else 1) < 4 := by split <;> decide
  have htemp := ofSigned_lt 8 (roundDiv s.dp.rx[n].adc.startTemp 16)
  unfold adcEnded
  generalize (if s.dp.rx[n].adc.partialRun then 2 else 1) = last at *
  generalize ofSigned 8 (roundDiv s.dp.rx[n].adc.startTemp 16) = temp at *
  simp [adcBusy, hon, flag, rd, wr, reg_setReg, getField_putField, getField_putField_disjoint, F.OLn_RX_CAL_STAT_busy,
    F.OLn_RX_CAL_STAT_last, F.OLn_RX_CAL_STAT_temp_c, F.OLn_RX_QUAL_spur_db, F.OLn_RX_QUAL_sndr_q, F.OLn_RX_QUAL_valid, R.OLn_RX_QUAL,
    R.OLn_RX_CAL_STAT]
  omega

theorem adcTempCheck_of_not_bg (h : s.cfgOn (F.OLn_RX_CAL_CTRL_bg_en n) = false) : s.adcTempCheck n = s := by
  unfold adcTempCheck
  dsimp only
  split
  · rfl
  · exact if_neg fun ⟨_, hon, _⟩ => by simp [h] at hon

/-- R83: the end of the last step. -/
theorem adcStepEnd_ends (habort : s.dp.rx[n].adc.abort = false) (hskew : s.dp.rx[n].adc.skewOnly = true)
    (hstep : s.rd (F.OLn_RX_CAL_STAT_step n) = 64) (hbg : s.cfgOn (F.OLn_RX_CAL_CTRL_bg_en n) = false)
    (hidle : ∀ m : Fin 8, m.val / 2 = n.val / 2 → s.dp.rx[m].adc.request = false) :
    s.adcStepEnd n spur sndr = s.adcEnded n spur sndr := by
  have hplaced : s.adcPlaced n = s := by
    unfold adcPlaced
    rw [if_pos hskew]
  have hnow := adcEnded_now (n := n) (s := s) (spur := spur) (sndr := sndr)
  rw [adcStepEnd_of_done habort (.inl hskew), hplaced, if_pos hstep, adcRunEnd_eq,
    adcTempCheck_of_not_bg (s := s.adcEnded n spur sndr) hbg]
  refine adcReview_of_idle fun m hm => ?_
  by_cases h : m = n
  · rw [h, hnow.adc]
    exact hidle n rfl
  · rw [hnow.other h]
    exact hidle m hm

/-! ### The run is aborted -/

/-- A run that has been cut asks for the next. -/
def adcAborted (s : State) (n : Fin 8) : State := (s.adcCut n).onAdc n fun c => { c with request := true }

theorem adcAborted_now : AdcNow n s (s.adcAborted n) { s.dp.rx[n].adc with
    abort := false, j0 := (s.dp.rx[n].adc.j0 + s.rd (F.OLn_RX_CAL_STAT_step n) + 1) % 64, request := true } :=
  (AdcNow.refl n s).onAdc.wr.wr.onAdc

theorem adcAborted_touches : Touches [.dp] (· = R.OLn_RX_CAL_STAT n) s (s.adcAborted n) :=
  (((Touches.refl [.dp] (· = R.OLn_RX_CAL_STAT n) s).onAdc.wr rfl).wr rfl).onAdc

theorem adcAborted_status : (s.adcAborted n).adcBusy n = false ∧ (s.adcAborted n).rd (F.OLn_RX_CAL_STAT_last n) = 3 := by
  have hon (t : State) (f : AdcCal → AdcCal) (a : Nat) : (t.onAdc n f).reg a = t.reg a := rfl
  unfold adcAborted adcCut
  simp [adcBusy, hon, flag, rd, wr, getField_putField, getField_putField_disjoint, F.OLn_RX_CAL_STAT_busy, F.OLn_RX_CAL_STAT_last]

/-- A run that starts leaves what the last one has ended with. -/
theorem adcStart_last : (s.adcStart n).rd (F.OLn_RX_CAL_STAT_last n) = s.rd (F.OLn_RX_CAL_STAT_last n) := by
  unfold adcStart
  rw [rd_wr_disjoint _ _ _ _ (.inl (by decide : 1 + 2 ≤ 3)) (by decide : 1 + 2 ≤ 32),
    rd_wr_disjoint _ _ _ _ (.inr (by decide : 0 + 1 ≤ 1)) (by decide : 1 + 2 ≤ 32)]
  rfl

/-- R79, R83: a run that is to be aborted starts anew at its step's end. -/
theorem adcStepEnd_aborts (habort : s.dp.rx[n].adc.abort = true) (hpow : s.dp.rx[n].powered = true)
    (hidle : ∀ m : Fin 8, m.val / 2 = n.val / 2 → m ≠ n → s.adcBusy m = false ∧ s.dp.rx[m].adc.request = false) :
    s.adcStepEnd n spur sndr = (s.adcAborted n).adcStart n := by
  have hnow := adcAborted_now (n := n) (s := s)
  have hcut : s.adcStepEnd n spur sndr = (s.adcAborted n).adcReview n := if_pos habort
  rw [hcut]
  refine adcReview_starts (fun m hm => ?_) (fun m hne hm => ?_) ?_
  · by_cases h : m = n
    · rw [h]
      exact adcAborted_status.1
    · refine (flag_congr (adcAborted_touches.2.1 _ ?_)).trans (hidle m hm h).1
      have := fun e => h (Fin.ext e)
      simp only [F.OLn_RX_CAL_STAT_busy, R.OLn_RX_CAL_STAT]
      omega
  · rw [adcWaits, hnow.other hne, (hidle m hm hne).2, Bool.false_and]
  · rw [adcWaits, hnow.lane]
    exact (Bool.true_and _).trans hpow

end State
end

/-! ## O33 -/

section
variable {s : State} {n : Fin 8}

/-- The end of a step of a busy run. -/
theorem exec_adcCalStepEnd {spur sndr : Nat} (h : s.adcBusy n = true) :
    exec (.adcCalStepEnd n spur sndr) s = .next (s.adcStepEnd n spur sndr) := by
  change execAdcCalStepEnd n spur sndr s = _
  exact if_pos h

/-- A result of a busy run whose steps take the spare offline. -/
theorem exec_adcCalOfflineDone {off gain : Int} (h : s.adcBusy n = true) (hskew : s.dp.rx[n].adc.skewOnly = false) :
    exec (.adcCalOfflineDone n off gain none) s = .next (s.adcOffline n off gain) := by
  change execAdcCalOfflineDone n off gain none s = _
  unfold execAdcCalOfflineDone
  rw [h, if_neg (by decide), hskew]
  rfl

/-- A result of a busy run whose steps re-trim skew alone. -/
theorem exec_adcCalOfflineDone_skew {off gain skew : Int} (h : s.adcBusy n = true) (hskew : s.dp.rx[n].adc.skewOnly = true) :
    exec (.adcCalOfflineDone n off gain (some skew)) s = .next (s.adcSkew n skew) := by
  change execAdcCalOfflineDone n off gain (some skew) s = _
  unfold execAdcCalOfflineDone
  rw [h, if_neg (by decide), hskew]
  rfl

/-- A shadow test of a busy run that still waits for one (R80, R81). -/
theorem exec_adcCalShadowDone {rms : Nat} (h : s.adcBusy n = true) (hskew : s.dp.rx[n].adc.skewOnly = false)
    (hok : s.dp.rx[n].adc.shadowOk = false) (htries : s.dp.rx[n].adc.tries < 2) : exec (.adcCalShadowDone n rms) s =
      if rms ≤ 128 then .next (s.onAdc n fun c => { c with shadowOk := true })
      else .next ((s.bump (R.OLn_RX_CAL_REJ_CNT n)).onAdc n fun c => { c with tries := c.tries + 1 }) := by
  change execAdcCalShadowDone n rms s = _
  unfold execAdcCalShadowDone
  dsimp only
  rw [h, hskew, hok, decide_eq_false (Nat.not_le.mpr htries)]
  rfl

end

/-- Settles O33: a run that is requested starts or waits (`State.adcRequest_started`, `State.adcRequest_of_busy`); a step ends in one
of four ways (`State.adcStepEnd_trades`, `adcStepEnd_parks`, `adcStepEnd_ends`, `adcStepEnd_aborts`). -/
theorem adcCalibration : Obligations.AdcCalibration := by
  unfold Obligations.AdcCalibration
  intro s port n off gain skew rms spur sndr
  have hsame : Touches [.dp] (fun _ => False) s s := .refl _ _ _
  refine ⟨fun hready hpow => ⟨adcCalRunRequest_starts hready hpow, adcCalRunRequest_waits hready hpow⟩, fun hperiod hpow hidle => ?_,
    fun hbusy => ⟨fun x hskew hx => ⟨fun hoff hgain => ?_, fun hgain => ?_⟩, fun hskew hlim => ?_,
      fun hskew hok htries => ⟨fun hrms => ?_, fun hrms => ?_⟩, fun old habort hskew hok hstep hfound hne hspare => ?_,
      fun habort hskew hok htries hstep => ?_, fun habort hskew hstep hrequest hbg hidle => ?_, fun habort hpow hidle => ?_⟩⟩
  · obtain ⟨hstarted, htouch⟩ := State.adcRequest_started hpow hidle
    exact ⟨_, if_neg hperiod, hstarted, htouch⟩
  · have hnow := (AdcNow.refl n s).setSlice (i := s.spareSlice n) (f := fun x => { x with offset := off, gain := gain })
    rw [AdcCal.setSlice_of_some hx] at hnow
    exact ⟨_, (exec_adcCalOfflineDone hbusy hskew).trans (congrArg _ (State.adcOffline_of_within hx hoff hgain)), hnow, hsame.setSlice⟩
  · exact ⟨_, (exec_adcCalOfflineDone hbusy hskew).trans (congrArg _ (State.adcOffline_of_gain hx hgain)), State.adcReject_now,
      State.adcReject_counted, State.adcReject_touches⟩
  · exact ⟨_, (exec_adcCalOfflineDone_skew hbusy hskew).trans (congrArg _ (State.adcSkew_of_within hlim)), (AdcNow.refl n s).onAdc,
      hsame.onAdc⟩
  · exact ⟨_, (exec_adcCalShadowDone hbusy hskew hok htries).trans (if_pos hrms), (AdcNow.refl n s).onAdc, hsame.onAdc⟩
  · exact ⟨_, (exec_adcCalShadowDone hbusy hskew hok htries).trans (if_neg (by omega)), (AdcNow.refl n s).bump.onAdc, counted_bump s _,
      ((Touches.refl [.dp] (· = R.OLn_RX_CAL_REJ_CNT n) s).bump rfl).onAdc⟩
  · have hold : old < 65 := (List.findIdx?_eq_some_iff_findIdx_eq.mp hfound).1.trans_eq
      Vector.length_toList
    obtain ⟨v, hnow, hv⟩ := State.adcTraded_now hne
    have hnext : AdcNow n s ((s.adcTraded n old).adcNextStep n) 
        { s.dp.rx[n].adc with slices := v, tries := 0, shadowOk := false } := hnow.wr.onAdc
    obtain ⟨hslice, hrun, hkept⟩ := State.adcTraded_status (n := n) (s := s) hold
    obtain ⟨hon, hbusy', hslice'⟩ := State.adcNextStep_status (hkept ▸ hstep)
    refine ⟨_, (exec_adcCalStepEnd hbusy).trans (congrArg _ (State.adcStepEnd_trades habort hskew hok hstep hold hfound)), ?_,
      hslice'.trans hslice, (hbusy'.trans hrun).trans hbusy, hkept ▸ hon, ?_,
      State.adcTraded_touches.trans (State.adcNextStep_touches.mono (by simp) fun _ => .inl)⟩
    · rw [hnext.adc]
      exact hv
    · rw [hnext.adc]
      exact hnext
  · obtain ⟨v, hnow⟩ := State.adcPark_now (n := n) (s := s)
    have hnext : AdcNow n s ((s.adcPark n).adcNextStep n) _ := hnow.wr.onAdc
    obtain ⟨hparked, hkept⟩ := State.adcPark_status (n := n) (s := s)
    obtain ⟨hon, -, -⟩ := State.adcNextStep_status (hkept ▸ hstep)
    refine ⟨_, (exec_adcCalStepEnd hbusy).trans (congrArg _ (State.adcStepEnd_parks habort hskew hok htries hstep)), ?_, ?_, ?_,
      hkept ▸ hon, State.adcPark_touches.trans (State.adcNextStep_touches.mono (by simp) fun _ => .inl)⟩
    · refine (State.flag_congr (State.adcNextStep_touches.2.1 _ ?_)).trans hparked
      simp only [F.OLn_RX_STAT_slice_parked, R.OLn_RX_STAT, R.OLn_RX_CAL_STAT]
      omega
    · rw [hnext.adc]
    · rw [hnext.adc]
  · have hrequests (m : Fin 8) (hm : m.val / 2 = n.val / 2) : s.dp.rx[m].adc.request = false := by
      by_cases h : m = n
      · rw [h]
        exact hrequest
      · exact hidle m hm h
    obtain ⟨hends, hlast, htemp, hvalid⟩ := State.adcEnded_status (n := n) (s := s) (spur := spur) (sndr := sndr)
    exact ⟨_, (exec_adcCalStepEnd hbusy).trans (congrArg _ (State.adcStepEnd_ends habort hskew hstep hbg hrequests)), hends, hlast,
      htemp, hvalid, State.adcEnded_now, State.adcEnded_touches⟩
  · obtain ⟨hstarts, hfirst⟩ := State.adcStart_busy (n := n) (s.adcAborted n)
    have hnow := (State.adcAborted_now (n := n) (s := s)).adcStart
    exact ⟨_, (exec_adcCalStepEnd hbusy).trans (congrArg _ (State.adcStepEnd_aborts habort hpow hidle)), hstarts,
      State.adcStart_last.trans State.adcAborted_status.2, hfirst, hnow, State.adcAborted_touches.adcStart rfl⟩

end Sys2Proof.Machine
end

section
/-!
What a burst that is heard leaves (R78, R131, R211): the saturated codes are counted, and in a standard mode the decisions of its
symbols go through the inner FEC to the host lane, and in a loop on to the line.
-/

namespace Sys2Proof.Machine

/-- The registers of the host lanes' checkers and of the lanes' DACs. -/
def hostSideReg (a : Nat) : Prop := (∃ k : Fin 16, a = R.HLn_PRBS_ERR k) ∨ ∃ k : Fin 8, a = R.OLn_TX_SAT_CNT k

/-- Between two states only host lanes and transmit lanes have changed. -/
structure HostSide (s t : State) : Prop where
  touches : Touches [.dp] hostSideReg s t
  dp : t.dp = { s.dp with host := t.dp.host, tx := t.dp.tx }

section
variable {s t u : State}

theorem HostSide.refl (s : State) : HostSide s s := ⟨.refl _ _ _, rfl⟩

theorem HostSide.trans (h : HostSide s t) (k : HostSide t u) : HostSide s u := ⟨h.touches.trans k.touches, by rw [k.dp, h.dp]⟩

theorem HostSide.onHost {n : Fin 16} {f : HostLane → HostLane} (h : HostSide s t) : HostSide s (t.onHost n f) :=
  h.trans ⟨(Touches.refl _ _ t).onDp, rfl⟩

theorem HostSide.onTx {n : Fin 8} {f : TxLane → TxLane} (h : HostSide s t) : HostSide s (t.onTx n f) :=
  h.trans ⟨(Touches.refl _ _ t).onDp, rfl⟩

theorem HostSide.bumpBy {a k : Nat} (h : HostSide s t) (ha : hostSideReg a) : HostSide s (t.bumpBy a k) :=
  h.trans ⟨(Touches.refl _ _ t).bumpBy ha, rfl⟩

theorem HostSide.ite {c : Prop} [Decidable c] (h : HostSide s t) (k : HostSide s u) : HostSide s (if c then t else u) := by
  split
  · exact h
  · exact k

/-- Symbols reach a host lane's checker (R209). -/
theorem HostSide.checkSymbols {n : Fin 16} {xs : List Nat} (h : HostSide s t) : HostSide s (t.checkSymbols n xs) := by
  unfold State.checkSymbols
  dsimp only
  split
  · exact h
  · exact (h.bumpBy (.inl ⟨n, rfl⟩)).onHost

theorem HostSide.sendLevels {n : Fin 8} {start : Nat} {levels next : List Int} (h : HostSide s t) :
    HostSide s (t.sendLevels n start levels next) := by
  unfold State.sendLevels State.emit
  exact (h.bumpBy (.inr ⟨n, rfl⟩)).onTx.onTx

/-- Symbols of a standard mode reach a lane's transmitter (R70, R71). -/
theorem HostSide.retimeToLine {n : Fin 8} {xs : List Nat} (h : HostSide s t) : HostSide s (t.retimeToLine n xs) := by
  unfold State.retimeToLine
  exact .ite h h.onTx.sendLevels

/-- What is sent in a near-end loop reaches the lane's own receiver, and in a standard mode the line (R208, R211). -/
def State.loopedBack (s : State) (n : Fin 16) (sent : List Nat) : State :=
  if s.hostLoop n = 1 ∨ s.hostLoop n = 2 then
    let s := s.checkSymbols n sent
    if h8 : n.val < 8 then s.retimeToLine ⟨n.val, h8⟩ sent else s
  else s

theorem HostSide.loopedBack {n : Fin 16} {sent : List Nat} (h : HostSide s t) : HostSide s (t.loopedBack n sent) := by
  unfold State.loopedBack
  refine .ite ?_ h
  dsimp only
  split
  · exact h.checkSymbols.retimeToLine
  · exact h.checkSymbols

theorem HostSide.hostShape {n : Fin 16} {xs : List Nat} (h : HostSide s t) : HostSide s (t.hostShape n xs) := by
  unfold State.hostShape
  exact h.onHost

/-- Symbols are due at a host lane's transmitter (R199, R208). -/
theorem HostSide.hostSend {n : Fin 16} {xs : List Nat} (h : HostSide s t) : HostSide s (t.hostSend n xs) := by
  unfold State.hostSend
  cases hp : hostPattern (t.prbsGen n) with
  | some p =>
    simp only [hp]
    exact h.onHost.loopedBack
  | none =>
    simp only [hp]
    exact h.onHost.hostShape.loopedBack

end
end Sys2Proof.Machine
end

section
/-!
A lane hears a burst (R78, R211): what it leaves of the lane, and which registers it writes.
-/

namespace Sys2Proof.Machine

section
variable {s t u : State} {n : Fin 8} {b : RxBurst} {xs : List Nat}

theorem HostSide.rx (h : HostSide s t) : t.dp.rx = s.dp.rx := by rw [h.dp]

/-- The registers that the decisions of lane `n` reach in a standard mode. -/
def decisionReg (n : Fin 8) (a : Nat) : Prop := a = R.OLn_IFEC_CORR n ∨ a = R.OLn_IFEC_UNCORR n ∨ hostSideReg a

namespace State

/-- The inner FEC of a lane has received symbols: the corrected and the uncorrectable codewords are counted (R131). -/
def innerReceived (s : State) (n : Fin 8) (fec good bad : Nat) : State :=
  ((s.onRx n fun r => { r with fec := fec }).bumpBy (R.OLn_IFEC_CORR n) good).bumpBy (R.OLn_IFEC_UNCORR n) bad

/-- In a standard mode the decisions pass the inner FEC and reach the host lane (R131, R211). -/
theorem retimeToHost_of_std (h : s.stdMode = true) :
    ∃ fec good bad, HostSide (s.innerReceived n fec good bad) (s.retimeToHost n xs) := by
  unfold retimeToHost
  rw [if_neg (by rw [h]; decide)]
  exact ⟨_, _, _, .ite (.refl _) (.hostSend (.refl _))⟩

/-- In a CV mode they go nowhere. -/
theorem retimeToHost_of_not_std (h : s.stdMode = false) : s.retimeToHost n xs = s := if_pos (by rw [h]; rfl)

/-- Of the receive lanes, the decisions of lane `n` change its inner FEC alone. -/
theorem retimeToHost_dp : (s.retimeToHost n xs).dp =
    { s.dp with rx := s.dp.rx.set n { s.dp.rx[n] with fec := (s.retimeToHost n xs).dp.rx[n].fec },
                host := (s.retimeToHost n xs).dp.host, tx := (s.retimeToHost n xs).dp.tx } := by
  cases h : s.stdMode with
  | false =>
    rw [retimeToHost_of_not_std h]
    exact congrArg (fun v : Vector RxLane 8 => ({ s.dp with rx := v } : Datapath)) (Vector.set_getElem_self n.isLt).symm
  | true =>
    obtain ⟨fec, good, bad, hside⟩ := retimeToHost_of_std (n := n) (xs := xs) h
    have hfec : (s.retimeToHost n xs).dp.rx[n].fec = fec := by
      simp only [hside.rx]
      exact congrArg RxLane.fec (onRx_rx_same s n fun r => { r with fec := fec })
    rw [hfec]
    exact hside.dp

theorem retimeToHost_touches : Touches [.dp] (fun a => s.stdMode = true ∧ decisionReg n a) s (s.retimeToHost n xs) := by
  cases h : s.stdMode with
  | false =>
    rw [retimeToHost_of_not_std h]
    exact .refl _ _ _
  | true =>
    obtain ⟨fec, good, bad, hside⟩ := retimeToHost_of_std (n := n) (xs := xs) h
    have hinner : Touches [.dp] (fun a => true = true ∧ decisionReg n a) s (s.innerReceived n fec good bad) :=
      (Touches.refl [.dp] (fun a => true = true ∧ decisionReg n a) s).onRx.bumpBy ⟨rfl, .inl rfl⟩ |>.bumpBy ⟨rfl, .inr (.inl rfl)⟩
    exact hinner.trans (hside.touches.mono (fun _ h => h) fun _ ha => ⟨rfl, .inr (.inr ha)⟩)

end State

theorem not_decisionReg_satCnt (n : Fin 8) : ¬ decisionReg n (R.OLn_RX_SAT_CNT n) := by
  rintro (h | h | ⟨k, h⟩ | ⟨k, h⟩)
  all_goals
    simp only [R.OLn_RX_SAT_CNT, R.OLn_IFEC_CORR, R.OLn_IFEC_UNCORR, R.HLn_PRBS_ERR, R.OLn_TX_SAT_CNT] at h
    omega

/-! ## The burst -/

theorem countSat_touches : Touches [.dp] (· = R.OLn_RX_SAT_CNT n) s (s.countSat n b) := by
  unfold State.countSat
  exact ((Touches.refl [.dp] (· = R.OLn_RX_SAT_CNT n) s).bumpBy rfl).onRx

theorem hear_touches : Touches [.dp] (Claims.heardReg s n) s (s.hear n b) := by
  unfold State.hear
  refine ((countSat_touches (b := b)).mono (fun _ h => h) fun _ => .inl).trans ?_
  exact (State.retimeToHost_touches (s := s.countSat n b)).mono (fun _ h => h) fun _ ha => .inr ha

theorem hear_hearsAs : Claims.hearsAs s (s.hear n b) n b s.dp.rx[n] := by
  have hdp := State.retimeToHost_dp (s := s.countSat n b) (n := n)
    (xs := (((s.listen n b).drop ((s.dp.rx[n].heard - 768 * b.block) / s.perSymbol)).map fun x => labelSym x.label))
  rw [State.countSat_lane] at hdp
  change (s.hear n b).dp = _ at hdp
  refine ⟨?_, ?_, ?_, ?_⟩
  · exact (congrArg Datapath.rx hdp).trans (Vector.set_set ..)
  · unfold Claims.counted State.hear
    rw [State.retimeToHost_touches.2.1 _ fun h => not_decisionReg_satCnt n h.2]
    exact State.reg_bumpBy_same s _ _
  · rw [hdp]
    rfl
  · intro hstd
    rw [State.hear_of_not_std hstd, State.countSat_lane]
    exact ⟨rfl, rfl, rfl⟩

/-- A lane that has heard a burst changes in what the burst leaves. -/
theorem hearsAs_onRx {r : RxLane} {f : RxLane → RxLane} (h : Claims.hearsAs s u n b r) (hdp : t.dp = (u.onRx n f).dp)
    (hreg : t.reg (R.OLn_RX_SAT_CNT n) = u.reg (R.OLn_RX_SAT_CNT n))
    (hf : ∀ heard fec, f { r with heard := heard, fec := fec } = { f r with heard := heard, fec := fec } := by exact fun _ _ => rfl) :
    Claims.hearsAs s t n b (f r) := by
  obtain ⟨hrx, hcount, hrest, hstd⟩ := h
  have hu : u.dp.rx[n] = { r with heard := max s.dp.rx[n].heard (768 * b.block + (b.codes.length - 256)), fec := u.dp.rx[n].fec } :=
    (congrArg (fun v : Vector RxLane 8 => v[n]) hrx).trans (Vector.getElem_set_self n.isLt)
  have hlane : t.dp.rx[n] = f u.dp.rx[n] := (congrArg (fun d : Datapath => d.rx[n]) hdp).trans (State.onRx_rx_same u n f)
  have hfec : t.dp.rx[n].fec = u.dp.rx[n].fec := by rw [hlane, hu, hf]
  have hset : t.dp.rx = u.dp.rx.set n (f u.dp.rx[n]) := congrArg Datapath.rx hdp
  have hhost : t.dp.host = u.dp.host := by rw [hdp]; rfl
  have htx : t.dp.tx = u.dp.tx := by rw [hdp]; rfl
  have hnow : f u.dp.rx[n] = { f r with heard := max s.dp.rx[n].heard (768 * b.block + (b.codes.length - 256)),
                                        fec := t.dp.rx[n].fec } :=
    (congrArg f hu).trans ((hf _ _).trans (by rw [hfec]))
  refine ⟨?_, ?_, ?_, ?_⟩
  · rw [hnow] at hset
    exact hset.trans ((congrArg (fun v : Vector RxLane 8 => v.set n _) hrx).trans (Vector.set_set ..))
  · rw [Claims.counted, hreg]
    exact hcount
  · rw [hhost, htx, hdp, State.onRx, State.onDp, hrest]
  · rw [hfec, hhost, htx]
    exact hstd

end
end Sys2Proof.Machine
end

section
/-!
The clock loop over the cycles of a burst (R85, R86).
-/

namespace Sys2Proof.Machine

section
variable {s t u : State} {n : Fin 8} {b : RxBurst}

namespace State

theorem lineMode_congr (h : t.inForce = s.inForce) : t.lineMode = s.lineMode := by simp only [lineMode, cfg_congr h]

theorem perSymbol_congr (h : t.inForce = s.inForce) : t.perSymbol = s.perSymbol := by simp only [perSymbol, lineMode_congr h]

theorem blockSamples_congr (h : t.inForce = s.inForce) : t.blockSamples = s.blockSamples := by
  have hlanes : t.activeLanes = s.activeLanes := by simp only [activeLanes, laneMask, lineMode_congr h]
  have hinner : (fun n : Fin 8 => t.cfgOn (F.OLn_TX_CTRL_inner_fec_en n)) = fun n : Fin 8 => s.cfgOn (F.OLn_TX_CTRL_inner_fec_en n) :=
    funext fun _ => cfgOn_congr h _
  rw [blockSamples, lineMode_congr h, hlanes, hinner]
  rfl

/-- The symbols that a lane detects do not depend on what it has heard before. -/
theorem listen_congr (hin : t.inForce = s.inForce) {heard fec : Nat}
    (hr : t.dp.rx[n] = { s.dp.rx[n] with heard := heard, fec := fec }) : t.listen n b = s.listen n b := by
  have hest : t.penEstimate n = s.penEstimate n := by
    simp only [penEstimate, hr, cvMode_congr hin, cfgOn_congr hin, cfg_congr hin, blockSamples_congr hin]
  simp only [listen, decimate, equInput, burstSamples, laneSamples, hr, hest, cfgOn_congr hin, perSymbol_congr hin]

end State

/-! ## The cycles -/

/-- One cycle of the loop from the symbol before it on (R85, R86). -/
def CdrLoop.cycle (kp ki : Nat) (track : Bool) (xs : List RxSym) (l : CdrLoop) (k : Nat) : CdrLoop :=
  match track, xs[128 * k]? with
  | true, some x => l.track kp ki (phaseError x ((xs.drop (128 * k + 1)).take 128))
  | _, _ => l.hold

section
variable {kp ki : Nat} {track : Bool} {xs : List RxSym} {l : CdrLoop}

theorem CdrLoop.cycle_next (k next : Nat) :
    CdrLoop.cycle kp ki track xs { l with next := next } k = { CdrLoop.cycle kp ki track xs l k with next := next } := by
  unfold CdrLoop.cycle
  split <;> rfl

theorem CdrLoop.foldl_cycle_next (ks : List Nat) (next : Nat) :
    ks.foldl (CdrLoop.cycle kp ki track xs) { l with next := next } =
      { ks.foldl (CdrLoop.cycle kp ki track xs) l with next := next } := by
  induction ks generalizing l with
  | nil => rfl
  | cons k ks ih => rw [List.foldl_cons, List.foldl_cons, CdrLoop.cycle_next, ih]

/-- The cycles after the first are those of the symbols after it. -/
theorem CdrLoop.cycle_succ (x : RxSym) (k : Nat) :
    CdrLoop.cycle kp ki track (x :: xs) l (k + 1) = CdrLoop.cycle kp ki track (xs.drop 127) l k := by
  have hprev : (x :: xs)[128 * (k + 1)]? = (xs.drop 127)[128 * k]? := by
    rw [List.getElem?_drop, show 128 * (k + 1) = 127 + 128 * k + 1 by omega, List.getElem?_cons_succ]
  have hcyc : (x :: xs).drop (128 * (k + 1) + 1) = (xs.drop 127).drop (128 * k + 1) := by
    rw [List.drop_drop, List.drop_succ_cons]
    congr 1
    omega
  unfold CdrLoop.cycle
  rw [hprev, hcyc]

/-- The loop runs whole cycles, and stops at the last or where F has stood at its limit for 4,096. -/
theorem loopCycles_ran (fuel : Nat) (hfuel : xs.length ≤ fuel) :
    ∃ k, (k ≠ 0 → 128 * k < xs.length)
      ∧ State.loopCycles kp ki track fuel l xs =
          { (List.range k).foldl (CdrLoop.cycle kp ki track xs) l with next := l.next + 128 * k }
      ∧ ((State.loopCycles kp ki track fuel l xs).atLimit < 4096 → xs.length ≤ 128 * (k + 1)) := by
  induction fuel generalizing l xs with
  | zero => exact ⟨0, by simp, rfl, fun _ => by omega⟩
  | succ fuel ih =>
    cases xs with
    | nil => exact ⟨0, by simp, rfl, fun _ => by simp⟩
    | cons x t =>
      rw [State.loopCycles]
      dsimp only
      split
      next hstop =>
        rw [List.length_take] at hstop
        exact ⟨0, by simp, rfl, fun h => by simp; omega⟩
      next hruns =>
        have hlen : (t.drop 127).length ≤ fuel := by simp at hfuel ⊢; omega
        rw [List.length_take] at hruns
        obtain ⟨k, hk, hloop, hend⟩ := ih (l := { CdrLoop.cycle kp ki track (x :: t) l 0 with next := l.next + 128 }) hlen
        have hstep : (if track then l.track kp ki (phaseError x (t.take 128)) else l.hold) = CdrLoop.cycle kp ki track (x :: t) l 0 := by
          cases track <;> rfl
        have hnext : (CdrLoop.cycle kp ki track (x :: t) l 0).next = l.next := by
          cases track <;> rfl
        rw [List.length_drop] at hk hend
        rw [hstep, hnext]
        refine ⟨k + 1, fun _ => ?_, ?_, fun h => ?_⟩
        · rw [List.length_cons]
          omega
        · rw [hloop, CdrLoop.foldl_cycle_next, List.range_succ_eq_map, List.foldl_cons, List.foldl_map]
          simp only [CdrLoop.cycle_succ]
          rw [show l.next + 128 + 128 * k = l.next + 128 * (k + 1) by omega]
        · have := hend h
          rw [List.length_cons]
          omega

end

/-! ## The frequency -/

theorem satRat_freqLimit_abs (v : Rat) : (satRat freqLimit v).abs ≤ freqLimit := by
  unfold Rat.abs satRat freqLimit
  split_ifs <;> linarith

section
variable {kp ki : Nat} {track : Bool} {xs : List RxSym} {l : CdrLoop}

/-- F stays within its limit (R85). -/
theorem CdrLoop.cycle_freq_abs (k : Nat) (h : l.freq.abs ≤ freqLimit) : (CdrLoop.cycle kp ki track xs l k).freq.abs ≤ freqLimit := by
  unfold CdrLoop.cycle
  split
  · exact satRat_freqLimit_abs _
  · exact h

/-- In hold mode F is kept (R86). -/
theorem CdrLoop.cycle_freq_of_holding (k : Nat) : (CdrLoop.cycle kp ki false xs l k).freq = l.freq := rfl

end

/-! ## The loop over a burst -/

namespace State

/-- The number of the first symbol of a burst. -/
def firstSymbol (s : State) (b : RxBurst) : Nat := 768 * b.block / s.perSymbol

/-- The first cycle of a burst that the loop has not run on. -/
def firstCycle (s : State) (n : Fin 8) (b : RxBurst) : Nat :=
  max s.dp.rx[n].loop.next ((s.firstSymbol b + 255) / 128 * 128)

/-- The symbols that the loop runs over, from the one before its first cycle to the last that has its warm-up. -/
def loopSymbols (s : State) (n : Fin 8) (b : RxBurst) : List RxSym :=
  ((s.listen n b).drop (s.firstCycle n b - 1 - s.firstSymbol b)).take
    (s.firstSymbol b + (s.listen n b).length - 64 - (s.firstCycle n b - 1))

/-- The loop after a burst (R85, R86). -/
def ranLoop (s : State) (n : Fin 8) (b : RxBurst) : CdrLoop :=
  loopCycles (s.cfg (F.OLn_CDR_CTRL_kp_sh n)) (s.cfg (F.OLn_CDR_CTRL_ki_sh n)) (!s.flag (F.OLn_CDR_STAT_holding n))
    (s.listen n b).length { s.dp.rx[n].loop with next := s.firstCycle n b } (s.loopSymbols n b)

theorem runLoop_of_closed (h : s.flag (F.OLn_CDR_STAT_fallback n) = false) :
    s.runLoop n b = (s.onRx n fun r => { r with loop := s.ranLoop n b }).showLoop n :=
  if_neg (by rw [h]; decide)

/-- What the loop has run over, in cycles. -/
theorem ranLoop_cycles : ∃ k, (k ≠ 0 → 128 * k < (s.loopSymbols n b).length)
    ∧ s.ranLoop n b = { (List.range k).foldl (CdrLoop.cycle (s.cfg (F.OLn_CDR_CTRL_kp_sh n)) (s.cfg (F.OLn_CDR_CTRL_ki_sh n))
        (!s.flag (F.OLn_CDR_STAT_holding n)) (s.loopSymbols n b)) s.dp.rx[n].loop with next := s.firstCycle n b + 128 * k }
    ∧ ((s.ranLoop n b).atLimit < 4096 → (s.loopSymbols n b).length ≤ 128 * (k + 1)) := by
  have hfuel : (s.loopSymbols n b).length ≤ (s.listen n b).length := by
    unfold loopSymbols
    rw [List.length_take, List.length_drop]
    omega
  obtain ⟨k, hk, hloop, hend⟩ := loopCycles_ran (s.listen n b).length hfuel
  refine ⟨k, hk, hloop.trans ?_, hend⟩
  rw [CdrLoop.foldl_cycle_next]

theorem ranLoop_freq_abs (h : s.dp.rx[n].loop.freq.abs ≤ freqLimit) : (s.ranLoop n b).freq.abs ≤ freqLimit := by
  obtain ⟨k, -, hloop, -⟩ := ranLoop_cycles (s := s) (n := n) (b := b)
  rw [hloop]
  exact List.foldlRecOn (motive := fun l : CdrLoop => l.freq.abs ≤ freqLimit) _ _ h fun _ hl k _ => CdrLoop.cycle_freq_abs k hl

theorem ranLoop_freq_of_holding (h : s.flag (F.OLn_CDR_STAT_holding n) = true) : (s.ranLoop n b).freq = s.dp.rx[n].loop.freq := by
  obtain ⟨k, -, hloop, -⟩ := ranLoop_cycles (s := s) (n := n) (b := b)
  rw [hloop, h]
  exact List.foldlRecOn (motive := fun l : CdrLoop => l.freq = s.dp.rx[n].loop.freq) _ _ rfl fun _ hl k _ =>
    (CdrLoop.cycle_freq_of_holding k).trans hl

theorem firstSymbol_lt_firstCycle : s.firstSymbol b + 128 ≤ s.firstCycle n b := by
  unfold firstCycle
  omega

theorem loopSymbols_length : (s.loopSymbols n b).length = s.firstSymbol b + (s.listen n b).length - 64 - (s.firstCycle n b - 1) := by
  have hfirst := firstSymbol_lt_firstCycle (s := s) (n := n) (b := b)
  unfold loopSymbols
  rw [List.length_take, List.length_drop]
  omega

/-- The symbol before a cycle. -/
theorem loopSymbols_getElem? {i : Nat} (hi : i < (s.loopSymbols n b).length) :
    (s.loopSymbols n b)[i]? = (s.listen n b)[s.firstCycle n b - s.firstSymbol b + i - 1]? := by
  have hfirst := firstSymbol_lt_firstCycle (s := s) (n := n) (b := b)
  rw [loopSymbols_length] at hi
  unfold loopSymbols
  rw [List.getElem?_take_of_lt hi, List.getElem?_drop]
  congr 1
  omega

/-- The symbols of a cycle. -/
theorem loopSymbols_cycle {i : Nat} (hi : i + 128 < (s.loopSymbols n b).length) :
    ((s.loopSymbols n b).drop (i + 1)).take 128 = ((s.listen n b).drop (s.firstCycle n b - s.firstSymbol b + i)).take 128 := by
  have hfirst := firstSymbol_lt_firstCycle (s := s) (n := n) (b := b)
  rw [loopSymbols_length] at hi
  unfold loopSymbols
  rw [List.drop_take, List.take_take, List.drop_drop, Nat.min_eq_left (by omega)]
  congr 2
  omega

theorem loopRan_ranLoop : Claims.loopRan s n b (s.ranLoop n b) := by
  obtain ⟨k, hk, hloop, hend⟩ := ranLoop_cycles (s := s) (n := n) (b := b)
  have hfirst := firstSymbol_lt_firstCycle (s := s) (n := n) (b := b)
  have hlen := loopSymbols_length (s := s) (n := n) (b := b)
  refine ⟨k, fun h => ?_, hloop.trans ?_, fun h => ?_⟩
  · have := hk h
    simp only [hlen] at this
    change s.firstCycle n b + 128 * k + 64 ≤ s.firstSymbol b + (s.listen n b).length
    omega
  · refine congrArg (fun l : CdrLoop => { l with next := s.firstCycle n b + 128 * k }) (List.foldl_ext _ _ _ fun l j hj => ?_)
    have hjk := List.mem_range.1 hj
    have hlast := hk (by omega)
    unfold CdrLoop.cycle
    rw [loopSymbols_getElem? (by omega), loopSymbols_cycle (by omega)]
    change _ = match s.flag (F.OLn_CDR_STAT_holding n), (s.listen n b)[s.firstCycle n b - s.firstSymbol b + 128 * j - 1]? with
      | false, some x => l.track _ _ (phaseError x (((s.listen n b).drop (s.firstCycle n b - s.firstSymbol b + 128 * j)).take 128))
      | _, _ => l.hold
    cases s.flag (F.OLn_CDR_STAT_holding n) <;> cases (s.listen n b)[s.firstCycle n b - s.firstSymbol b + 128 * j - 1]? <;> rfl
  · have := hend h
    simp only [hlen] at this
    change s.firstSymbol b + (s.listen n b).length < s.firstCycle n b + 128 * (k + 1) + 64
    omega

end State

end
end Sys2Proof.Machine
end

section
/-!
What the front end's registers show of the clock loop, and the fall to fallback (R85, R86, R97, R103).
-/

namespace Sys2Proof.Machine

section
variable {ps : List Part} {may : Nat → Prop} {s t u : State} {n : Fin 8} {b : RxBurst}

theorem Touches.ite {c : Prop} [Decidable c] (h : Touches ps may s t) (k : Touches ps may s u) : Touches ps may s (if c then t else u) := by
  split
  · exact h
  · exact k

theorem Touches.logEvent (h : Touches ps may s t) {src code x y : Nat} (hps : ∀ p ∈ [Part.eng, .evr], p ∈ ps := by decide)
    (hmay : ∀ a, noticeReg a → may a) : Touches ps may s (t.logEvent src code x y) :=
  h.trans ((t.logEvent_touches src code x y).mono hps hmay)

namespace State

/-- A review of the device's state takes at most one step (R266). -/
theorem reviewState_cases : s.reviewState = s ∨ ∃ d, s.reviewState = s.setDev d := by
  have hstep (c : Prop) [Decidable c] (d : DevState) :
      (if c then s.setDev d else s) = s ∨ ∃ d', (if c then s.setDev d else s) = s.setDev d' := by
    split
    · exact .inr ⟨d, rfl⟩
    · exact .inl rfl
  have hstay (c : Prop) [Decidable c] (d : DevState) :
      (if c then s else s.setDev d) = s ∨ ∃ d', (if c then s else s.setDev d) = s.setDev d' := by
    split
    · exact .inl rfl
    · exact .inr ⟨d, rfl⟩
  unfold reviewState
  dsimp only
  split
  · split
    · exact hstep _ _
    · exact hstep _ _
    · exact hstay _ _
    · exact .inl rfl
  · split
    · exact hstep _ _
    · exact hstay _ _
    · exact .inl rfl

theorem reviewState_touches : Touches [.mgmt, .eng, .evr] noticeReg s s.reviewState := by
  rcases reviewState_cases (s := s) with h | ⟨d, h⟩
  · rw [h]
    exact .refl _ _ _
  · rw [h]
    exact s.setDev_touches d

theorem reviewState_dp : s.reviewState.dp = s.dp := reviewState_touches.1 .dp (by decide)

theorem reviewState_reg {a : Nat} (h : ¬ noticeReg a) : s.reviewState.reg a = s.reg a := reviewState_touches.2.1 a h

/-! ## The loop's registers (R85, R86, R103) -/

theorem showLoop_touches : Touches [] (fun a => a = R.OLn_CDR_STAT n ∨ a = R.OLn_CDR_FREQ n) s (s.showLoop n) :=
  ((((Touches.refl [] (fun a => a = R.OLn_CDR_STAT n ∨ a = R.OLn_CDR_FREQ n) s).wr (.inr rfl)).wr (.inl rfl)).wr (.inl rfl)).wr (.inl rfl)

/-- The registers show the loop `l` (R85, R86). -/
structure Shows (n : Fin 8) (holds : Bool) (t : State) (l : CdrLoop) : Prop where
  ppm : t.rd (F.OLn_CDR_FREQ_ppm n) = fixedField 24 100000000 (l.freq / 128)
  limit : t.flag (F.OLn_CDR_STAT_at_limit n) = (l.freq.abs == freqLimit)
  phase : t.rd (F.OLn_CDR_STAT_phase n) = ((l.phase * 64).floor % 64).toNat
  locked : t.flag (F.OLn_CDR_STAT_locked n) = (!holds && l.locked)

theorem fixedField_lt (k scale : Nat) (v : Rat) : fixedField k scale v < 2 ^ k := by
  unfold fixedField
  dsimp only
  split
  · exact ofSigned_lt _ _
  · exact Nat.mod_lt _ (Nat.two_pow_pos k)

theorem flag_b2n {f : RField} {c : Bool} (h : t.rd f = b2n c) : t.flag f = c := by
  rw [flag, h]
  cases c <;> rfl

theorem showLoop_shows (h : s.flag (F.OLn_CDR_STAT_fallback n) = false) :
    Shows n (s.flag (F.OLn_CDR_STAT_holding n)) (s.showLoop n) s.dp.rx[n].loop := by
  have haddr : R.OLn_CDR_FREQ n ≠ R.OLn_CDR_STAT n := by
    simp only [R.OLn_CDR_FREQ, R.OLn_CDR_STAT]
    omega
  have hppm := Nat.mod_eq_of_lt (fixedField_lt 24 100000000 (s.dp.rx[n].loop.freq / 128))
  have hphase : ((s.dp.rx[n].loop.phase * 64).floor % 64).toNat < 2 ^ 6 := by omega
  have hbit (c : Bool) : b2n c % 2 ^ 1 = b2n c := by cases c <;> rfl
  unfold showLoop
  dsimp only
  rw [h]
  refine ⟨?_, flag_b2n ?_, ?_, flag_b2n ?_⟩
  · rw [rd_wr_addr _ _ _ _ haddr, rd_wr_addr _ _ _ _ haddr, rd_wr_addr _ _ _ _ haddr, rd_wr_same _ _ _ (by decide : 0 + 24 ≤ 32)]
    exact hppm
  · rw [rd_wr_disjoint _ _ _ _ (.inr (by decide : 0 + 1 ≤ 2)) (by decide : 2 + 1 ≤ 32),
      rd_wr_disjoint _ _ _ _ (.inl (by decide : 2 + 1 ≤ 3)) (by decide : 2 + 1 ≤ 32), rd_wr_same _ _ _ (by decide : 2 + 1 ≤ 32)]
    exact hbit _
  · rw [rd_wr_disjoint _ _ _ _ (.inr (by decide : 0 + 1 ≤ 3)) (by decide : 3 + 6 ≤ 32), rd_wr_same _ _ _ (by decide : 3 + 6 ≤ 32)]
    exact Nat.mod_eq_of_lt hphase
  · rw [rd_wr_same _ _ _ (by decide : 0 + 1 ≤ 32)]
    exact hbit _

/-- The flag of fallback is not among what is shown. -/
theorem showLoop_fallback : (s.showLoop n).flag (F.OLn_CDR_STAT_fallback n) = s.flag (F.OLn_CDR_STAT_fallback n) := by
  have haddr : R.OLn_CDR_STAT n ≠ R.OLn_CDR_FREQ n := by
    simp only [R.OLn_CDR_FREQ, R.OLn_CDR_STAT]
    omega
  unfold showLoop flag
  rw [rd_wr_disjoint _ _ _ _ (.inr (by decide : 0 + 1 ≤ 1)) (by decide : 1 + 1 ≤ 32),
    rd_wr_disjoint _ _ _ _ (.inl (by decide : 1 + 1 ≤ 3)) (by decide : 1 + 1 ≤ 32),
    rd_wr_disjoint _ _ _ _ (.inl (by decide : 1 + 1 ≤ 2)) (by decide : 1 + 1 ≤ 32), rd_wr_addr _ _ _ _ haddr]

/-! ## Fallback (R86, R97) -/

theorem enterFallback_touches : Touches [.dp, .eng, .evr] (fun a => a = R.OLn_CDR_STAT n ∨ a = R.OLn_CDR_FREQ n
    ∨ a = R.OLn_CDR_FALLBACK_CNT n ∨ noticeReg a) s (s.enterFallback n) := by
  have hset : Touches [.dp, .eng, .evr]
      (fun a => a = R.OLn_CDR_STAT n ∨ a = R.OLn_CDR_FREQ n ∨ a = R.OLn_CDR_FALLBACK_CNT n ∨ noticeReg a) s
      (((s.onRx n fun r => { r with loop := r.loop.fallen }).setReg (R.OLn_CDR_STAT n) 0x2).setReg (R.OLn_CDR_FREQ n) 0) :=
    ((Touches.refl _ _ _).onRx.setReg (.inl rfl)).setReg (.inr (.inl rfl))
  exact .ite hset ((hset.bump (.inr (.inr (.inl rfl)))).logEvent (by decide) fun _ ha => .inr (.inr (.inr ha)))

/-- What the registers read of a lane in fallback (R86). -/
theorem enterFallback_reg : (s.enterFallback n).reg (R.OLn_CDR_STAT n) = 0x2 ∧ (s.enterFallback n).reg (R.OLn_CDR_FREQ n) = 0 := by
  have hstat : ¬ noticeReg (R.OLn_CDR_STAT n) := not_noticeReg_of_optical (by simp only [R.OLn_CDR_STAT]; omega)
  have hfreq : ¬ noticeReg (R.OLn_CDR_FREQ n) := not_noticeReg_of_optical (by simp only [R.OLn_CDR_FREQ]; omega)
  have hset : ∀ u : State, ((u.setReg (R.OLn_CDR_STAT n) 0x2).setReg (R.OLn_CDR_FREQ n) 0).reg (R.OLn_CDR_STAT n) = 0x2
      ∧ ((u.setReg (R.OLn_CDR_STAT n) 0x2).setReg (R.OLn_CDR_FREQ n) 0).reg (R.OLn_CDR_FREQ n) = 0 := fun u => by
    refine ⟨?_, reg_setReg_same _ _ _⟩
    rw [reg_setReg_ne _ _ _ _ (by simp only [R.OLn_CDR_STAT, R.OLn_CDR_FREQ]; omega), reg_setReg_same]
  unfold enterFallback
  dsimp only
  split
  · exact hset _
  · rw [reg_logEvent_of_not_notice hstat, reg_logEvent_of_not_notice hfreq]
    unfold bump
    rw [reg_bumpBy_ne _ _ _ _ (by simp only [R.OLn_CDR_STAT, R.OLn_CDR_FALLBACK_CNT]; omega),
      reg_bumpBy_ne _ _ _ _ (by simp only [R.OLn_CDR_FREQ, R.OLn_CDR_FALLBACK_CNT]; omega)]
    exact hset _

/-- A lane that was not in fallback is counted (R86). -/
theorem enterFallback_counted (h : s.flag (F.OLn_CDR_STAT_fallback n) = false) :
    Claims.counted s (s.enterFallback n) (R.OLn_CDR_FALLBACK_CNT n) 1 := by
  have hnotice : ¬ noticeReg (R.OLn_CDR_FALLBACK_CNT n) := not_noticeReg_of_optical (by simp only [R.OLn_CDR_FALLBACK_CNT]; omega)
  unfold enterFallback Claims.counted
  dsimp only
  rw [if_neg (by rw [h]; decide), reg_logEvent_of_not_notice hnotice, bump, reg_bumpBy_same,
    reg_setReg_ne _ _ _ _ (by simp only [R.OLn_CDR_FREQ, R.OLn_CDR_FALLBACK_CNT]; omega),
    reg_setReg_ne _ _ _ _ (by simp only [R.OLn_CDR_STAT, R.OLn_CDR_FALLBACK_CNT]; omega)]
  rfl

end State
end
end Sys2Proof.Machine
end

section
/-!
O34: the clock loop over a burst, fallback, and the ends of a search and of a pause (R85, R86, R95, R97, R345).
-/

namespace Sys2Proof.Machine

section
variable {s t u : State} {n : Fin 8} {b : RxBurst}

/-- The clock loop's and the equaliser's registers are not those of a burst that is heard. -/
theorem not_heardReg_of_cdr {a : Nat} (hlo : 0x200200 + 0x10000 * n.val ≤ a) (hhi : a < 0x200400 + 0x10000 * n.val) :
    ¬ Claims.heardReg s n a := by
  rintro (h | ⟨-, h | h | ⟨k, h⟩ | ⟨k, h⟩⟩)
  all_goals
    simp only [R.OLn_RX_SAT_CNT, R.OLn_IFEC_CORR, R.OLn_IFEC_UNCORR, R.HLn_PRBS_ERR, R.OLn_TX_SAT_CNT] at h
    omega

theorem hear_reg_of_cdr {a : Nat} (hlo : 0x200200 + 0x10000 * n.val ≤ a) (hhi : a < 0x200400 + 0x10000 * n.val) :
    (s.hear n b).reg a = s.reg a :=
  hear_touches.2.1 a (not_heardReg_of_cdr hlo hhi)

theorem hear_inForce : (s.hear n b).inForce = s.inForce := hear_touches.1 .inForce (by decide)

theorem hear_flag_of_stat {f : RField} (hf : f.addr = R.OLn_CDR_STAT n) : (s.hear n b).flag f = s.flag f := by
  refine State.flag_congr ?_
  rw [hf]
  exact hear_reg_of_cdr (by simp only [R.OLn_CDR_STAT]; omega) (by simp only [R.OLn_CDR_STAT]; omega)

theorem hear_lane : ∃ heard fec, (s.hear n b).dp.rx[n] = { s.dp.rx[n] with heard := heard, fec := fec } :=
  ⟨_, _, (congrArg (fun v : Vector RxLane 8 => v[n]) hear_hearsAs.1).trans (Vector.getElem_set_self n.isLt)⟩

theorem hear_loop : (s.hear n b).dp.rx[n].loop = s.dp.rx[n].loop := by
  obtain ⟨heard, fec, h⟩ := hear_lane (s := s) (n := n) (b := b)
  rw [h]

theorem hear_listen : (s.hear n b).listen n b = s.listen n b := by
  obtain ⟨heard, fec, h⟩ := hear_lane (s := s) (n := n) (b := b)
  exact State.listen_congr hear_inForce h

/-- The loop runs over the symbols of a burst whether or not they have been heard. -/
theorem hear_ranLoop : (s.hear n b).ranLoop n b = s.ranLoop n b := by
  unfold State.ranLoop State.loopSymbols State.firstCycle State.firstSymbol
  rw [hear_listen, hear_loop, hear_flag_of_stat rfl, State.perSymbol_congr hear_inForce, State.cfg_congr hear_inForce,
    State.cfg_congr hear_inForce]

/-- The registers of lane `n` that a burst and its loop write. -/
def loopReg (s : State) (n : Fin 8) (a : Nat) : Prop :=
  a = R.OLn_CDR_STAT n ∨ a = R.OLn_CDR_FREQ n ∨ Claims.heardReg s n a ∨ noticeReg a

theorem State.Shows.congr {holds : Bool} {l : CdrLoop} (h : State.Shows n holds t l)
    (hstat : u.reg (R.OLn_CDR_STAT n) = t.reg (R.OLn_CDR_STAT n)) (hfreq : u.reg (R.OLn_CDR_FREQ n) = t.reg (R.OLn_CDR_FREQ n)) :
    State.Shows n holds u l :=
  ⟨(congrArg (getField · _ _) hfreq).trans h.ppm, (State.flag_congr hstat).trans h.limit,
    (congrArg (getField · _ _) hstat).trans h.phase, (State.flag_congr hstat).trans h.locked⟩

/-- A lane hears a burst and its loop runs over it. -/
def State.looped (s : State) (n : Fin 8) (b : RxBurst) : State := (s.hear n b).runLoop n b

theorem looped_of_closed (h : s.flag (F.OLn_CDR_STAT_fallback n) = false) :
    s.looped n b = (((s.hear n b).onRx n fun r => { r with loop := s.ranLoop n b })).showLoop n := by
  unfold State.looped
  rw [State.runLoop_of_closed (by rw [hear_flag_of_stat rfl]; exact h), hear_ranLoop]

theorem looped_touches (h : s.flag (F.OLn_CDR_STAT_fallback n) = false) : Touches [.dp] (loopReg s n) s (s.looped n b) := by
  rw [looped_of_closed h]
  have hhear : Touches [.dp] (loopReg s n) s (s.hear n b) := hear_touches.mono (fun _ h => h) fun _ ha => .inr (.inr (.inl ha))
  exact (hhear.onRx (n := n) (f := fun r => { r with loop := s.ranLoop n b })).trans
    (State.showLoop_touches.mono (by simp) fun _ ha => ha.elim .inl fun ha => .inr (.inl ha))

theorem looped_satCnt (h : s.flag (F.OLn_CDR_STAT_fallback n) = false) :
    (s.looped n b).reg (R.OLn_RX_SAT_CNT n) = (s.hear n b).reg (R.OLn_RX_SAT_CNT n) := by
  rw [looped_of_closed h, State.showLoop_touches.2.1 _ (by simp only [R.OLn_RX_SAT_CNT, R.OLn_CDR_STAT, R.OLn_CDR_FREQ]; omega)]
  rfl

theorem looped_hearsAs (h : s.flag (F.OLn_CDR_STAT_fallback n) = false) :
    Claims.hearsAs s (s.looped n b) n b { s.dp.rx[n] with loop := s.ranLoop n b } := by
  refine hearsAs_onRx (f := fun r => { r with loop := s.ranLoop n b }) hear_hearsAs ?_ (looped_satCnt h)
  rw [looped_of_closed h]
  rfl

theorem looped_shows (h : s.flag (F.OLn_CDR_STAT_fallback n) = false) :
    State.Shows n (s.flag (F.OLn_CDR_STAT_holding n)) (s.looped n b) (s.ranLoop n b) := by
  have hshows := State.showLoop_shows (s := (s.hear n b).onRx n fun r => { r with loop := s.ranLoop n b }) (n := n)
    ((hear_flag_of_stat (b := b) rfl).trans h)
  rw [looped_of_closed h]
  rw [State.onRx_rx_same] at hshows
  exact (hear_flag_of_stat (s := s) (n := n) (b := b) (f := F.OLn_CDR_STAT_holding n) rfl) ▸ hshows

theorem looped_loop (h : s.flag (F.OLn_CDR_STAT_fallback n) = false) : (s.looped n b).dp.rx[n].loop = s.ranLoop n b := by
  rw [looped_of_closed h]
  exact congrArg RxLane.loop (State.onRx_rx_same (s.hear n b) n fun r => { r with loop := s.ranLoop n b })

/-! ## The end of an operation -/

theorem hearsAs_congr {r : RxLane} (h : Claims.hearsAs s u n b r) (hdp : t.dp = u.dp)
    (hreg : t.reg (R.OLn_RX_SAT_CNT n) = u.reg (R.OLn_RX_SAT_CNT n)) : Claims.hearsAs s t n b r := by
  unfold Claims.hearsAs Claims.counted
  rw [hdp, hreg]
  exact h

theorem hearsAs_reviewState {r : RxLane} (h : Claims.hearsAs s t n b r) : Claims.hearsAs s t.reviewState n b r :=
  hearsAs_congr h State.reviewState_dp
    (State.reviewState_reg (State.not_noticeReg_of_optical (by simp only [R.OLn_RX_SAT_CNT]; omega)))

theorem State.Shows.reviewState {holds : Bool} {l : CdrLoop} (h : State.Shows n holds t l) : State.Shows n holds t.reviewState l :=
  State.Shows.congr h (State.reviewState_reg (State.not_noticeReg_of_optical (by simp only [R.OLn_CDR_STAT]; omega)))
    (State.reviewState_reg (State.not_noticeReg_of_optical (by simp only [R.OLn_CDR_FREQ]; omega)))

/-- Lane `n` is in fallback, and has been counted where it was not before. -/
def InFallback (n : Fin 8) (s t : State) : Prop :=
  t.flag (F.OLn_CDR_STAT_fallback n) = true ∧ t.flag (F.OLn_CDR_STAT_locked n) = false ∧ t.reg (R.OLn_CDR_FREQ n) = 0
    ∧ (s.flag (F.OLn_CDR_STAT_fallback n) = false → Claims.counted s t (R.OLn_CDR_FALLBACK_CNT n) 1)

/-- A lane that falls back after what has left its flag and its count. -/
theorem inFallback_enterFallback (hstat : u.reg (R.OLn_CDR_FALLBACK_CNT n) = s.reg (R.OLn_CDR_FALLBACK_CNT n))
    (hflag : u.flag (F.OLn_CDR_STAT_fallback n) = s.flag (F.OLn_CDR_STAT_fallback n)) : InFallback n s (u.enterFallback n) := by
  obtain ⟨hreg, hfreq⟩ := State.enterFallback_reg (s := u) (n := n)
  refine ⟨?_, ?_, hfreq, fun h => ?_⟩
  · exact congrArg (fun w => getField w 1 1 == 1) hreg
  · exact congrArg (fun w => getField w 0 1 == 1) hreg
  · have := State.enterFallback_counted (hflag.trans h)
    rw [Claims.counted, hstat] at this
    exact this

theorem InFallback.congr (h : InFallback n s t) (hreg : ∀ a, 0x200000 ≤ a → u.reg a = t.reg a) : InFallback n s u := by
  obtain ⟨hopen, hlocked, hfreq, hcount⟩ := h
  refine ⟨(State.flag_congr ?_).trans hopen, (State.flag_congr ?_).trans hlocked, (hreg _ ?_).trans hfreq, fun h => ?_⟩
  · exact hreg _ (by simp only [F.OLn_CDR_STAT_fallback, R.OLn_CDR_STAT]; omega)
  · exact hreg _ (by simp only [F.OLn_CDR_STAT_locked, R.OLn_CDR_STAT]; omega)
  · simp only [R.OLn_CDR_FREQ]
    omega
  · rw [Claims.counted, hreg _ (by simp only [R.OLn_CDR_FALLBACK_CNT]; omega)]
    exact hcount h

theorem InFallback.reviewState (h : InFallback n s t) : InFallback n s t.reviewState :=
  h.congr fun _ ha => State.reviewState_reg (State.not_noticeReg_of_optical ha)

/-! ## The instructions -/

theorem exec_cdrLockChange (h : s.dp.rx[n].powered = true) : exec (.cdrLockChange n b) s = .next (s.looped n b).reviewState := by
  change execCdrLockChange n b s = _
  unfold execCdrLockChange
  rw [h]
  rfl

theorem exec_cdrFallbackLimit (h : s.dp.rx[n].powered = true) :
    exec (.cdrFallbackLimit n b) s = .next ((s.looped n b).limitFallback n).reviewState := by
  change execCdrFallbackLimit n b s = _
  unfold execCdrFallbackLimit
  rw [h]
  rfl

/-- What a burst on a loop that is not at its limit leaves. -/
theorem looped_leaves (h : s.flag (F.OLn_CDR_STAT_fallback n) = false) :
    Claims.hearsAs s (s.looped n b).reviewState n b { s.dp.rx[n] with loop := s.ranLoop n b }
    ∧ State.Shows n (s.flag (F.OLn_CDR_STAT_holding n)) (s.looped n b).reviewState (s.ranLoop n b)
    ∧ Touches [.dp, .mgmt, .eng, .evr] (loopReg s n) s (s.looped n b).reviewState :=
  ⟨hearsAs_reviewState (looped_hearsAs h), (looped_shows h).reviewState,
    ((looped_touches h).mono (by simp) fun _ h => h).trans
      (State.reviewState_touches.mono (by simp) fun _ h => .inr (.inr (.inr h)))⟩

theorem limitFallback_of_below (h : t.dp.rx[n].loop.atLimit < 4096) : t.limitFallback n = t := if_pos h

theorem limitFallback_of_limit (h : 4096 ≤ t.dp.rx[n].loop.atLimit) :
    t.limitFallback n = if t.cvMode then t.enterSearch n else t.enterFallback n := if_neg (Nat.not_lt.2 h)

/-- The registers of the loop, with the count of the falls to fallback. -/
def fallReg (s : State) (n : Fin 8) (a : Nat) : Prop := a = R.OLn_CDR_FALLBACK_CNT n ∨ loopReg s n a

theorem enterFallback_fallReg (h : Touches [.dp] (loopReg s n) s t) :
    Touches [.dp, .mgmt, .eng, .evr] (fallReg s n) s (t.enterFallback n) := by
  refine (h.mono (by simp) fun _ ha => .inr ha).trans (State.enterFallback_touches.mono (by simp) ?_)
  rintro a (ha | ha | ha | ha)
  · exact .inr (.inl ha)
  · exact .inr (.inr (.inl ha))
  · exact .inl ha
  · exact .inr (.inr (.inr (.inr ha)))

theorem looped_fallbackCnt (h : s.flag (F.OLn_CDR_STAT_fallback n) = false) :
    (s.looped n b).reg (R.OLn_CDR_FALLBACK_CNT n) = s.reg (R.OLn_CDR_FALLBACK_CNT n) := by
  refine (looped_touches h).2.1 _ ?_
  rintro (ha | ha | ha | ha)
  · simp only [R.OLn_CDR_FALLBACK_CNT, R.OLn_CDR_STAT] at ha
    omega
  · simp only [R.OLn_CDR_FALLBACK_CNT, R.OLn_CDR_FREQ] at ha
    omega
  · exact not_heardReg_of_cdr (by simp only [R.OLn_CDR_FALLBACK_CNT]; omega) (by simp only [R.OLn_CDR_FALLBACK_CNT]; omega) ha
  · exact State.not_noticeReg_of_optical (by simp only [R.OLn_CDR_FALLBACK_CNT]; omega) ha

theorem looped_fallback (h : s.flag (F.OLn_CDR_STAT_fallback n) = false) :
    (s.looped n b).flag (F.OLn_CDR_STAT_fallback n) = s.flag (F.OLn_CDR_STAT_fallback n) := by
  rw [looped_of_closed h, State.showLoop_fallback]
  exact hear_flag_of_stat (b := b) rfl

/-- A fall to fallback leaves the count of saturated codes. -/
theorem enterFallback_satCnt : (t.enterFallback n).reg (R.OLn_RX_SAT_CNT n) = t.reg (R.OLn_RX_SAT_CNT n) := by
  refine State.enterFallback_touches.2.1 _ ?_
  rintro (ha | ha | ha | ha)
  · simp only [R.OLn_RX_SAT_CNT, R.OLn_CDR_STAT] at ha
    omega
  · simp only [R.OLn_RX_SAT_CNT, R.OLn_CDR_FREQ] at ha
    omega
  · simp only [R.OLn_RX_SAT_CNT, R.OLn_CDR_FALLBACK_CNT] at ha
    omega
  · exact State.not_noticeReg_of_optical (by simp only [R.OLn_RX_SAT_CNT]; omega) ha

/-- What a burst on a loop that reaches its limit leaves: fallback, and in a CV mode a search anew. -/
theorem looped_falls (h : s.flag (F.OLn_CDR_STAT_fallback n) = false) (hlimit : 4096 ≤ (s.ranLoop n b).atLimit) :
    InFallback n s ((s.looped n b).limitFallback n)
    ∧ Claims.hearsAs s ((s.looped n b).limitFallback n) n b
        (if s.cvMode then RxLane.searching { s.dp.rx[n] with loop := s.ranLoop n b }
         else { s.dp.rx[n] with loop := (s.ranLoop n b).fallen })
    ∧ Touches [.dp, .mgmt, .eng, .evr] (fallReg s n) s ((s.looped n b).limitFallback n) := by
  have htouch := looped_touches (b := b) h
  have hhears := looped_hearsAs (b := b) h
  rw [limitFallback_of_limit (by rw [looped_loop h]; exact hlimit), State.cvMode_congr (htouch.1 .inForce (by decide))]
  cases s.cvMode with
  | true =>
    simp only [if_true]
    exact ⟨inFallback_enterFallback (looped_fallbackCnt h) (looped_fallback h),
      hearsAs_onRx (f := RxLane.searching) hhears State.enterSearch_dp enterFallback_satCnt, enterFallback_fallReg htouch.onRx⟩
  | false =>
    simp only [Bool.false_eq_true, if_false]
    exact ⟨inFallback_enterFallback (looped_fallbackCnt h) (looped_fallback h),
      hearsAs_onRx (f := fun r => { r with loop := r.loop.fallen }) hhears State.enterFallback_dp enterFallback_satCnt,
      enterFallback_fallReg htouch⟩

/-! ## The settlement -/

theorem not_fallbackReg_acqCnt (n : Fin 8) : ¬ (R.OLn_FDE_ACQ_CNT n = R.OLn_CDR_STAT n ∨ R.OLn_FDE_ACQ_CNT n = R.OLn_CDR_FREQ n
    ∨ R.OLn_FDE_ACQ_CNT n = R.OLn_CDR_FALLBACK_CNT n ∨ noticeReg (R.OLn_FDE_ACQ_CNT n)) := by
  rintro (h | h | h | h)
  · simp only [R.OLn_FDE_ACQ_CNT, R.OLn_CDR_STAT] at h
    omega
  · simp only [R.OLn_FDE_ACQ_CNT, R.OLn_CDR_FREQ] at h
    omega
  · simp only [R.OLn_FDE_ACQ_CNT, R.OLn_CDR_FALLBACK_CNT] at h
    omega
  · exact State.not_noticeReg_of_optical (by simp only [R.OLn_FDE_ACQ_CNT]; omega) h

/-- A lane that does not acquire in time searches anew, in fallback (R97). -/
theorem acquireTimeout_searches (h : s.dp.rx[n].fe = .acquire) : Answers (.acquireTimeout n) s fun t =>
    InFallback n s t ∧ t.dp = { s.dp with rx := s.dp.rx.set n s.dp.rx[n].searching }
    ∧ Claims.counted s t (R.OLn_FDE_ACQ_CNT n) 1
    ∧ Touches [.dp, .eng, .evr] (fun a => a = R.OLn_FDE_ACQ_CNT n ∨ a = R.OLn_CDR_STAT n ∨ a = R.OLn_CDR_FREQ n
        ∨ a = R.OLn_CDR_FALLBACK_CNT n ∨ noticeReg a) s t := by
  refine ⟨(s.bump (R.OLn_FDE_ACQ_CNT n)).enterSearch n, if_pos h, inFallback_enterFallback ?_ ?_, State.enterSearch_dp, ?_, ?_⟩
  · exact State.reg_bumpBy_ne _ _ _ _ (by simp only [R.OLn_CDR_FALLBACK_CNT, R.OLn_FDE_ACQ_CNT]; omega)
  · exact State.flag_congr (State.reg_bumpBy_ne _ _ _ _ (by
      simp only [F.OLn_CDR_STAT_fallback, R.OLn_CDR_STAT, R.OLn_FDE_ACQ_CNT]; omega))
  · have hkept : ((s.bump (R.OLn_FDE_ACQ_CNT n)).enterSearch n).reg (R.OLn_FDE_ACQ_CNT n)
        = (s.bump (R.OLn_FDE_ACQ_CNT n)).reg (R.OLn_FDE_ACQ_CNT n) := State.enterFallback_touches.2.1 _ (not_fallbackReg_acqCnt n)
    rw [Claims.counted, hkept]
    exact counted_bump s _
  · exact ((Touches.refl _ _ s).bump (.inl rfl)).onRx.trans (State.enterFallback_touches.mono (fun _ h => h) fun _ => .inr)

theorem exec_pilotPlateauNoPeak (hcv : s.cvMode = true) (hpow : s.dp.rx[n].powered = true) (hfe : s.dp.rx[n].fe = .search) :
    exec (.pilotPlateauNoPeak n b) s = .next (if pilotSearch (pilotLevels n) ((s.hear n b).burstSamples n b) = .noPeak
      then (s.hear n b).bump (R.OLn_FDE_ACQ_CNT n) else s.hear n b) := by
  change execPilotPlateauNoPeak n b s = _
  unfold execPilotPlateauNoPeak
  rw [hcv, hpow, hfe]
  dsimp only
  split
  · rename_i h
    cases h
  · split <;> rfl

theorem hear_burstSamples : (s.hear n b).burstSamples n b = s.burstSamples n b := by
  obtain ⟨heard, fec, h⟩ := hear_lane (s := s) (n := n) (b := b)
  unfold State.burstSamples State.laneSamples
  rw [h, State.cfgOn_congr hear_inForce]

/-- A search that ends without a peak is counted (R95). -/
theorem pilotPlateauNoPeak_counts (hcv : s.cvMode = true) (hpow : s.dp.rx[n].powered = true) (hfe : s.dp.rx[n].fe = .search) :
    Answers (.pilotPlateauNoPeak n b) s fun t =>
      Claims.hearsAs s t n b s.dp.rx[n]
      ∧ (pilotSearch (pilotLevels n) (s.burstSamples n b) = .noPeak → Claims.counted s t (R.OLn_FDE_ACQ_CNT n) 1)
      ∧ Touches [.dp] (fun a => Claims.heardReg s n a
          ∨ (pilotSearch (pilotLevels n) (s.burstSamples n b) = .noPeak ∧ a = R.OLn_FDE_ACQ_CNT n)) s t := by
  refine ⟨_, exec_pilotPlateauNoPeak hcv hpow hfe, ?_⟩
  have hframe : Touches [.dp] (fun a => Claims.heardReg s n a
      ∨ (pilotSearch (pilotLevels n) (s.burstSamples n b) = .noPeak ∧ a = R.OLn_FDE_ACQ_CNT n)) s (s.hear n b) :=
    hear_touches.mono (fun _ h => h) fun _ => .inl
  rw [hear_burstSamples]
  by_cases hpeak : pilotSearch (pilotLevels n) (s.burstSamples n b) = .noPeak
  · rw [if_pos hpeak]
    refine ⟨hearsAs_congr hear_hearsAs rfl ?_, fun _ => ?_, hframe.bump (.inr ⟨hpeak, rfl⟩)⟩
    · exact State.reg_bumpBy_ne _ _ _ _ (by simp only [R.OLn_RX_SAT_CNT, R.OLn_FDE_ACQ_CNT]; omega)
    · have hsame : (s.hear n b).reg (R.OLn_FDE_ACQ_CNT n) = s.reg (R.OLn_FDE_ACQ_CNT n) :=
        hear_reg_of_cdr (by simp only [R.OLn_FDE_ACQ_CNT]; omega) (by simp only [R.OLn_FDE_ACQ_CNT]; omega)
      have hcount := counted_bump (s.hear n b) (R.OLn_FDE_ACQ_CNT n)
      rw [Claims.counted, hsame] at hcount
      exact hcount
  · rw [if_neg hpeak]
    exact ⟨hear_hearsAs, fun h => absurd h hpeak, hframe⟩

end

/-- Settles O34: the loop's cycles are counted off the burst's symbols by induction on the fuel, and its registers are shown from it. -/
theorem clockLoopAndSearch : Obligations.ClockLoopAndSearch := by
  unfold Obligations.ClockLoopAndSearch
  intro s n b
  refine ⟨fun hpow hclosed => ?_, acquireTimeout_searches, pilotPlateauNoPeak_counts, _, rfl, rfl, (Touches.refl _ _ s).onRx⟩
  refine ⟨s.ranLoop n b, State.loopRan_ranLoop, ?_, fun hbelow => ?_, fun hlimit => ?_⟩
  · obtain ⟨hhears, ⟨hppm, hlim, hphase, hlock⟩, htouch⟩ := looped_leaves (b := b) hclosed
    exact ⟨_, exec_cdrLockChange hpow, hhears, ⟨hppm, hlim, hphase, hlock⟩, State.ranLoop_freq_abs, State.ranLoop_freq_of_holding,
      htouch⟩
  · obtain ⟨hhears, ⟨hppm, hlim, hphase, hlock⟩, htouch⟩ := looped_leaves (b := b) hclosed
    refine ⟨_, exec_cdrFallbackLimit hpow, ?_⟩
    rw [limitFallback_of_below (by rw [looped_loop hclosed]; exact hbelow)]
    exact ⟨hhears, ⟨hppm, hlim, hphase, hlock⟩, htouch⟩
  · obtain ⟨hfall, hhears, htouch⟩ := looped_falls hclosed hlimit
    exact ⟨_, exec_cdrFallbackLimit hpow, hfall.reviewState, hearsAs_reviewState hhears,
      htouch.trans (State.reviewState_touches.mono (by simp) fun _ h => .inr (.inr (.inr (.inr h))))⟩

end Sys2Proof.Machine
end

section
/-!
The pool's queue: a waiting codeword that is released or dispatched (R110, R116–R118).
-/

namespace Sys2Proof.Machine

section
variable {s t u : State} {n : Fin 8} {e : CwEntry} {poison : List Nat} {now : Nat}

theorem Touches.onPool {ps : List Part} {may : Nat → Prop} (h : Touches ps may s t) {f : Pool → Pool} (hdp : .dp ∈ ps := by decide) :
    Touches ps may s (t.onPool f) := h.onDp hdp

namespace State

theorem raiseMax_dp {f : RField} {v : Nat} : (s.raiseMax f v).dp = s.dp := by
  unfold raiseMax
  split <;> rfl

/-- What a high-water mark becomes depends on the registers alone. -/
theorem raiseMax_reg_congr {f : RField} {v : Nat} (h : t.regs = s.regs) (a : Nat) : (t.raiseMax f v).reg a = (s.raiseMax f v).reg a := by
  have hrd : t.rd f = s.rd f := by simp only [rd, reg, h]
  unfold raiseMax
  rw [hrd]
  split
  · exact reg_congr (by simp only [wr, setReg, reg, h]) a
  · exact reg_congr h a

end State

/-- Waiting codeword `e` has been released with outcome 5, without a core and before a first iteration (R117, R118). -/
def ReleasedUndecoded (s : State) (e : CwEntry) (t : State) : Prop :=
  (∃ d, t.dp.pool = { s.dp.pool with queue := (s.unqueue e).dp.pool.queue, decisions := s.dp.pool.decisions ++ [d] }
    ∧ d.entry = e ∧ d.core = none ∧ d.outcome = 5 ∧ d.iter = 0 ∧ d.poison = false
    ∧ t.reg R.FEC_LAT_MAX = (s.raiseMax F.FEC_LAT_MAX_cycles (d.made - e.arrival)).reg R.FEC_LAT_MAX)
  ∧ t.dp = { s.dp with pool := t.dp.pool } ∧ Touches [.dp] (· = R.FEC_LAT_MAX) s t

theorem decide_undecoded (s : State) (e : CwEntry) (made : Nat) (bits : List Bool) :
    ReleasedUndecoded s e ((s.unqueue e).decide_ e none 5 0 made e.codes bits false) := by
  unfold State.decide_
  refine ⟨⟨{ entry := e, core := none, made := made, outcome := 5, iter := 0, corr := State.corrCount e.codes bits, bits := bits,
             poison := false }, ?_, rfl, rfl, rfl, rfl, rfl, ?_⟩, ?_, ?_⟩
  · rw [State.onPool_dp_pool, State.raiseMax_dp]
    rfl
  · exact State.raiseMax_reg_congr (s := s) (t := s.unqueue e) rfl _
  · unfold State.onPool State.onDp
    dsimp only
    rw [State.raiseMax_dp]
    rfl
  · exact .onPool (.trans (.onPool (.refl [.dp] (· = R.FEC_LAT_MAX) s)) ((State.raiseMax_touches _ _ _).mono (by simp) fun _ h => h))

/-! ## Dispatch (R111, R116, R118, R123) -/

/-- The units of a load that read with poison are counted as such, in MEM and on the lane (R123, R357). -/
def State.loadPoisoned (s : State) (lane : Nat) (poison : List Nat) : State :=
  if poison.isEmpty then s else (poison.foldl (fun s _ => s.poisonReadShared) s).bump (R.FEC_LANEn_POISON lane)

/-- The parts and the registers that the load of a codeword reaches. -/
def poisonParts (poison : List Nat) : List Part := if poison = [] then [.dp] else [.dp, .eng, .evr]

def poisonReg (lane : Nat) (poison : List Nat) (a : Nat) : Prop := poison ≠ [] ∧ (a = R.FEC_LANEn_POISON lane ∨ Claims.ueReg a)

theorem poisonReads_touches (ps : List Nat) : Touches [.eng, .evr] Claims.ueReg s (ps.foldl (fun s _ => s.poisonReadShared) s) :=
  Touches.foldl _ (fun s _ => State.poisonReadShared_touches s) ps s

theorem loadPoisoned_dp {lane : Nat} : (s.loadPoisoned lane poison).dp = s.dp := by
  cases poison with
  | nil => rfl
  | cons p ps => exact (poisonReads_touches (p :: ps)).1 .dp (by decide)

theorem loadPoisoned_touches {lane : Nat} : Touches (poisonParts poison) (poisonReg lane poison) s (s.loadPoisoned lane poison) := by
  cases poison with
  | nil => exact .refl _ _ _
  | cons p ps =>
    exact ((poisonReads_touches (p :: ps)).mono (by simp [poisonParts]) fun _ h => ⟨by simp, .inr h⟩).bump ⟨by simp, .inl rfl⟩

/-- The registers of an uncorrectable read are not the pool's. -/
theorem not_ueReg_of_optical {a : Nat} (h : 0x200000 ≤ a) : ¬ Claims.ueReg a := by
  rintro (ha | ha | ha | ha | ha | ha)
  case inr.inr.inr.inr.inr => exact State.not_noticeReg_of_optical h ha
  all_goals
    simp only [R.MEM_SRAM_UE_CNT, R.MEM_DRAM_UE_CNT, R.MEM_ERR_ADDR, R.MEM_ERR_INFO, R.MEM_INT] at ha
    omega

theorem loadPoisoned_counted {lane : Nat} (h : poison ≠ []) :
    Claims.counted s (s.loadPoisoned lane poison) (R.FEC_LANEn_POISON lane) 1 := by
  cases poison with
  | nil => exact absurd rfl h
  | cons p ps =>
    have hcount := counted_bump ((p :: ps).foldl (fun s _ => s.poisonReadShared) s) (R.FEC_LANEn_POISON lane)
    rw [Claims.counted, (poisonReads_touches (p :: ps)).2.1 _ (not_ueReg_of_optical (by simp only [R.FEC_LANEn_POISON]; omega))] at hcount
    exact hcount

/-- The work that a core takes up with codeword `e` at core cycle `now`. -/
def State.takenUp (s : State) (e : CwEntry) (now : Nat) (poison : List Nat) : Work :=
  let codes := e.codes.mapIdx fun i c => if poison.contains (i / 10) then 0 else c
  { entry := e, codes := codes, post := codes, msgs := innerCode.noMsgs, iter := 0, paid := s.minIter, ends := s.ends now 24,
    poison := !poison.isEmpty, released := false }

/-- What a dispatch pays for leaves the queue (R116). -/
def State.charged (s : State) (e : CwEntry) : State :=
  (s.unqueue e).setBal (Fin.ofNat 8 e.lane) ((s.unqueue e).bal (Fin.ofNat 8 e.lane) - (8 + 16 * s.minIter : Nat))

/-- Waiting codeword `e` is dispatched to core `k`. -/
def State.dispatched (s : State) (k : Fin 16) (e : CwEntry) (now : Nat) (poison : List Nat) : State :=
  ((s.charged e).loadPoisoned e.lane poison).onCore k fun c => { c with work := some (s.takenUp e now poison) }

theorem exec_coreDispatch {k : Fin 16}
    (hidle : (List.finRange 16).find? (fun k : Fin 16 => s.coreActive k && s.dp.pool.cores[k].work.isNone) = some k)
    (he : s.earliest = some e) : exec (.coreDispatch now poison) s =
      .next (if e.deadline < s.ends now (8 + 16 * s.minIter) then s.expireWaiting e else s.dispatched k e now poison) := by
  change execCoreDispatch now poison s = _
  unfold execCoreDispatch
  rw [hidle, he]
  dsimp only
  split
  · rfl
  · have hwork : ((s.charged e).loadPoisoned e.lane poison).takenUp e now poison = s.takenUp e now poison := by
      unfold State.takenUp State.minIter State.ends
      rw [loadPoisoned_dp]
      rfl
    unfold State.dispatched
    rw [← hwork]
    rfl

/-- A codeword that could no longer be decided in time is released instead (R118). -/
theorem coreDispatch_releases {k : Fin 16}
    (hidle : (List.finRange 16).find? (fun k : Fin 16 => s.coreActive k && s.dp.pool.cores[k].work.isNone) = some k)
    (he : s.earliest = some e) (hlate : e.deadline < s.ends now (8 + 16 * s.minIter)) :
    Answers (.coreDispatch now poison) s fun t => ReleasedUndecoded s e t := by
  refine ⟨_, exec_coreDispatch hidle he, ?_⟩
  rw [if_pos hlate]
  exact decide_undecoded s e _ _

theorem notDispatchedExpire_releases (he : s.earliest = some e) : Answers .notDispatchedExpire s fun t => ReleasedUndecoded s e t := by
  refine ⟨s.expireWaiting e, ?_, decide_undecoded s e _ _⟩
  change execNotDispatchedExpire s = _
  unfold execNotDispatchedExpire
  rw [he]

theorem dispatched_pool {k : Fin 16} : (s.dispatched k e now poison).dp.pool = { s.dp.pool with
    queue := (s.unqueue e).dp.pool.queue,
    bal := s.dp.pool.bal.set (Fin.ofNat 8 e.lane) (s.bal (Fin.ofNat 8 e.lane) - (8 + 16 * s.minIter : Nat)),
    cores := s.dp.pool.cores.set k { s.dp.pool.cores[k] with work := some (s.takenUp e now poison) } } := by
  unfold State.dispatched State.onCore
  rw [State.onPool_dp_pool, loadPoisoned_dp]
  rfl

theorem dispatched_work {k : Fin 16} : (s.dispatched k e now poison).dp.pool.cores[k].work = some (s.takenUp e now poison) := by
  simp only [dispatched_pool]
  exact congrArg PoolCore.work (Vector.getElem_set_self k.isLt)

theorem dispatched_dp {k : Fin 16} : (s.dispatched k e now poison).dp = { s.dp with pool := (s.dispatched k e now poison).dp.pool } := by
  unfold State.dispatched State.onCore State.onPool State.onDp
  dsimp only
  rw [loadPoisoned_dp]
  rfl

theorem dispatched_touches {k : Fin 16} : Touches (poisonParts poison) (poisonReg e.lane poison) s (s.dispatched k e now poison) := by
  have hdp : .dp ∈ poisonParts poison := by
    unfold poisonParts
    split <;> decide
  have hcharged : Touches (poisonParts poison) (poisonReg e.lane poison) s (s.charged e) :=
    ((Touches.refl _ _ s).onPool hdp).onPool hdp
  exact (hcharged.trans loadPoisoned_touches).onPool hdp

theorem dispatched_counted {k : Fin 16} (h : poison ≠ []) :
    Claims.counted s (s.dispatched k e now poison) (R.FEC_LANEn_POISON e.lane) 1 :=
  loadPoisoned_counted (s := s.charged e) h

end
end Sys2Proof.Machine
end

section
/-!
A codeword arrives (R78, R107–R110, R122): the codes of its symbols, and what an arrival leaves of its lane and of the pool.
-/

namespace Sys2Proof.Machine

/-! ## The codes of symbols (R108) -/

/-- A likelihood code (R108). -/
def IsCode (c : Int) : Prop := -31 ≤ c ∧ c ≤ 31

theorem llrCode_isCode (gain : Nat) (l : Rat) : IsCode (llrCode gain l) := by
  unfold IsCode llrCode satI
  split_ifs <;> omega

theorem symCodes_isCode {gain scr : Nat} {x : RxSym} : ∀ c ∈ symCodes gain x scr, IsCode c := by
  have hcode := llrCode_isCode gain
  have hneg (l : Rat) (b : Bool) : IsCode (if b then -llrCode gain l else llrCode gain l) := by
    obtain ⟨hlo, hhi⟩ := hcode l
    cases b
    · exact ⟨hlo, hhi⟩
    · exact ⟨by simp; omega, by simp; omega⟩
  intro c hc
  unfold symCodes at hc
  simp only [List.mem_cons, List.not_mem_nil, or_false] at hc
  rcases hc with rfl | rfl
  · exact hneg x.l1 _
  · exact hneg x.l0 _

namespace Destuff

section
variable {gain : Nat} {d : Destuff} {x : RxSym}

/-- One symbol keeps the superframe and the codeword that it belongs to. -/
theorem take_place : (d.take gain x).1.sfc = d.sfc ∧ (d.take gain x).1.cw = d.cw := by
  unfold Destuff.take
  dsimp only
  split <;> exact ⟨rfl, rfl⟩

theorem take_isCode : ∀ c ∈ (d.take gain x).2, IsCode c := by
  unfold Destuff.take
  dsimp only
  split
  · simp
  · exact symCodes_isCode

theorem takeAll_place (need : Nat) (xs : List RxSym) :
    (d.takeAll gain need xs).1.sfc = d.sfc ∧ (d.takeAll gain need xs).1.cw = d.cw := by
  induction xs generalizing d need with
  | nil => exact ⟨rfl, rfl⟩
  | cons x t ih =>
    rw [takeAll]
    split
    · exact ⟨rfl, rfl⟩
    · obtain ⟨hsfc, hcw⟩ := take_place (gain := gain) (d := d) (x := x)
      obtain ⟨ihs, ihc⟩ := ih (d := (d.take gain x).1) (need - (d.take gain x).2.length)
      exact ⟨ihs.trans hsfc, ihc.trans hcw⟩

theorem takeAll_isCode (need : Nat) (xs : List RxSym) : ∀ c ∈ (d.takeAll gain need xs).2, IsCode c := by
  induction xs generalizing d need with
  | nil => simp [takeAll]
  | cons x t ih =>
    rw [takeAll]
    split
    · simp
    · intro c hc
      rcases List.mem_append.1 hc with hc | hc
      · exact take_isCode c hc
      · exact ih _ c hc

theorem displaced_place (xs : List RxSym) : (d.displaced gain xs).1.sfc = d.sfc ∧ (d.displaced gain xs).1.cw = d.cw := by
  induction xs generalizing d with
  | nil => exact ⟨rfl, rfl⟩
  | cons x t ih =>
    obtain ⟨hsfc, hcw⟩ := ih (d := { d with scr := (scramStep d.scr).2 })
    exact ⟨hsfc, hcw⟩

theorem displaced_isCode (xs : List RxSym) : ∀ c ∈ (d.displaced gain xs).2, IsCode c := by
  induction xs generalizing d with
  | nil => simp [displaced]
  | cons x t ih =>
    intro c hc
    rcases List.mem_append.1 hc with hc | hc
    · exact symCodes_isCode c hc
    · exact ih c hc

end
end Destuff

namespace State

section
variable {s t : State} {n : Fin 8} {codes : List Int}

/-- A codeword's codes are made up to 16,384 (R35). -/
theorem fullCodes_length : (s.fullCodes codes).2.length = 16384 := by
  unfold fullCodes
  simp only [List.length_append, List.length_take, List.length_map, List.length_range]
  omega

theorem fullCodes_isCode (h : ∀ c ∈ codes, IsCode c) : ∀ c ∈ (s.fullCodes codes).2, IsCode c := by
  intro c hc
  unfold fullCodes at hc
  rcases List.mem_append.1 hc with hc | hc
  · exact h c (List.mem_of_mem_take hc)
  · obtain ⟨i, -, rfl⟩ := List.mem_map.1 hc
    constructor <;> omega

/-- Codes that are enough are kept as they are. -/
theorem fullCodes_of_full (h : codes.length = 16384) : (s.fullCodes codes).2 = codes := by
  unfold fullCodes
  simp only [h, Nat.sub_self, List.range_zero, List.map_nil, List.append_nil]
  exact List.take_of_length_le (by omega)

/-! ## The entries that keep failures (R110) -/

theorem trimKept_pool {m : Nat} : (s.trimKept m).dp.pool = { s.dp.pool with
    kept := (s.dp.pool.kept.filter (·.lane == m)).take (48 - inUse s.dp.pool m) ++ s.dp.pool.kept.filter (·.lane != m) } := rfl

/-- A lane keeps the failures that the entries in use leave. -/
theorem trimKept_length {m : Nat} : ((s.trimKept m).dp.pool.kept.filter (·.lane == m)).length ≤ 48 - inUse s.dp.pool m := by
  have hothers : (s.dp.pool.kept.filter (·.lane != m)).filter (·.lane == m) = [] :=
    List.filter_eq_nil_iff.2 fun x hx => by simpa using (List.mem_filter.1 hx).2
  rw [trimKept_pool]
  simp only [List.filter_append, hothers, List.append_nil]
  exact (List.length_filter_le _ _).trans (List.length_take_le _ _)

theorem trimKept_mem {m : Nat} : ∀ x ∈ (s.trimKept m).dp.pool.kept, x ∈ s.dp.pool.kept := by
  intro x hx
  rw [trimKept_pool] at hx
  rcases List.mem_append.1 hx with hx | hx
  · exact (List.mem_filter.1 (List.mem_of_mem_take hx)).1
  · exact (List.mem_filter.1 hx).1

/-- The other lanes keep theirs. -/
theorem trimKept_other {m : Nat} : (s.trimKept m).dp.pool.kept.filter (·.lane != m) = s.dp.pool.kept.filter (·.lane != m) := by
  have hown : ((s.dp.pool.kept.filter (·.lane == m)).take (48 - inUse s.dp.pool m)).filter (·.lane != m) = [] :=
    List.filter_eq_nil_iff.2 fun x hx => by simpa using (List.mem_filter.1 (List.mem_of_mem_take hx)).2
  rw [trimKept_pool]
  simp only [List.filter_append, hown, List.nil_append, List.filter_filter, Bool.and_self]

end
end State
end Sys2Proof.Machine
end

section
/-!
CODEWORD_ARRIVE in its steps (R107–R110): the symbols are heard, a superframe begins where one has ended, the codeword takes its symbols
and its displaced ones, and its entry joins the queue.
-/

namespace Sys2Proof.Machine

/-- Of the datapath, lane `n` alone may have changed since `s`, and it is `r` now. -/
def LaneNow (n : Fin 8) (s t : State) (r : RxLane) : Prop := t.dp = { s.dp with rx := s.dp.rx.set n r }

section
variable {s t u : State} {n : Fin 8} {r : RxLane}

theorem LaneNow.refl (n : Fin 8) (s : State) : LaneNow n s s s.dp.rx[n] :=
  congrArg (fun v : Vector RxLane 8 => ({ s.dp with rx := v } : Datapath)) (Vector.set_getElem_self n.isLt).symm

theorem LaneNow.same (h : LaneNow n s t r) (e : u.dp = t.dp) : LaneNow n s u r := e.trans h

theorem LaneNow.lane (h : LaneNow n s t r) : t.dp.rx[n] = r := by
  simp only [LaneNow] at h
  simp only [h]
  exact Vector.getElem_set_self _

theorem LaneNow.onRx {f : RxLane → RxLane} (h : LaneNow n s t r) : LaneNow n s (t.onRx n f) (f r) := by
  have hdp : (t.onRx n f).dp = { t.dp with rx := t.dp.rx.set n (f t.dp.rx[n]) } := rfl
  have hrx : t.dp.rx = s.dp.rx.set n r := congrArg Datapath.rx h
  rw [LaneNow, hdp, h.lane, hrx, Vector.set_set, h]

theorem LaneNow.trans {q : RxLane} (h : LaneNow n s t r) (k : LaneNow n t u q) : LaneNow n s u q := by
  have hrx : t.dp.rx = s.dp.rx.set n r := congrArg Datapath.rx h
  rw [LaneNow, k, hrx, Vector.set_set, h]

theorem LaneNow.pool (h : LaneNow n s t r) : t.dp.pool = s.dp.pool := by rw [h]

end

/-! ## The superframe of an arrival -/

/-- The payload region of superframe `sfc` begins on a lane (R35, R109). -/
def Destuff.begun (d : Destuff) (n : Fin 8) (alt : Bool) (sfc : Nat) : Destuff :=
  { d with pos := 4096, run := 0, last := 0, stuffs := 0, overflow := false, scr := payloadSeed n alt sfc, sfc := sfc, cw := 0 }

namespace State

section
variable {s t : State} {n : Fin 8} {burst displaced : RxBurst}

/-- The symbols of an arrival are heard. -/
def arrivalHeard (s : State) (n : Fin 8) (burst displaced : RxBurst) : State := (s.countSat n burst).countSat n displaced

/-- Where the last codeword ended its superframe, the next begins. -/
def arrivalBegun (s : State) (n : Fin 8) (burst displaced : RxBurst) : State :=
  if 32 ≤ (s.arrivalHeard n burst displaced).dp.rx[n].ds.cw then (s.arrivalHeard n burst displaced).startDestuff n
  else s.arrivalHeard n burst displaced

theorem countSat_now {b : RxBurst} : LaneNow n s (s.countSat n b)
    { s.dp.rx[n] with heard := max s.dp.rx[n].heard (768 * b.block + (b.codes.length - 256)) } :=
  LaneNow.onRx (f := fun r => { r with heard := Nat.max r.heard (768 * b.block + (b.codes.length - 256)) })
    (LaneNow.same (.refl n s) rfl)

/-- What the lane has heard of an arrival. -/
def heardOf (s : State) (n : Fin 8) (burst displaced : RxBurst) : Nat :=
  max (max s.dp.rx[n].heard (768 * burst.block + (burst.codes.length - 256))) (768 * displaced.block + (displaced.codes.length - 256))

theorem arrivalHeard_now :
    LaneNow n s (s.arrivalHeard n burst displaced) { s.dp.rx[n] with heard := s.heardOf n burst displaced } := by
  have h := (countSat_now (s := s) (n := n) (b := burst)).onRx
    (f := fun r => { r with heard := Nat.max r.heard (768 * displaced.block + (displaced.codes.length - 256)) })
  exact h.same rfl

theorem arrivalHeard_touches : Touches [.dp] (· = R.OLn_RX_SAT_CNT n) s (s.arrivalHeard n burst displaced) :=
  countSat_touches.trans countSat_touches

/-- The count that a superframe begins with is the expected one, where there is one (R35). -/
theorem startDestuff_eq : ∃ u sfc alt, s.startDestuff n = State.onRx u n (fun r => { r with ds := r.ds.begun n alt sfc })
    ∧ u.dp = s.dp ∧ Touches [] (fun _ => False) s u ∧ ∀ c, s.dp.rx[n].expSfc = some c → sfc = c := by
  unfold startDestuff
  cases hexp : s.dp.rx[n].expSfc with
  | some e => exact ⟨s, e, _, rfl, rfl, .refl _ _ _, fun _ hc => Option.some.inj hc⟩
  | none => exact ⟨s.drew, _, _, rfl, rfl, drew_touches s, fun _ hc => by cases hc⟩

theorem startDestuff_now : ∃ ds, LaneNow n s (s.startDestuff n) { s.dp.rx[n] with ds := ds } ∧ ds.cw = 0
    ∧ ∀ c, s.dp.rx[n].expSfc = some c → ds.sfc = c := by
  obtain ⟨u, sfc, alt, heq, hdp, -, hsfc⟩ := startDestuff_eq (s := s) (n := n)
  refine ⟨s.dp.rx[n].ds.begun n alt sfc, ?_, rfl, hsfc⟩
  rw [heq]
  exact LaneNow.onRx (f := fun r => { r with ds := r.ds.begun n alt sfc }) ((LaneNow.refl n s).same hdp)

theorem startDestuff_touches : Touches [.dp] (fun _ => False) s (s.startDestuff n) := by
  obtain ⟨u, sfc, alt, heq, -, htouch, -⟩ := startDestuff_eq (s := s) (n := n)
  rw [heq]
  exact Touches.onRx (htouch.mono (by simp) fun _ h => h)

/-- The state in which an arriving codeword takes its symbols. -/
theorem arrivalBegun_now : ∃ ds,
    LaneNow n s (s.arrivalBegun n burst displaced) { s.dp.rx[n] with heard := s.heardOf n burst displaced, ds := ds }
    ∧ ds.cw = (if 32 ≤ s.dp.rx[n].ds.cw then 0 else s.dp.rx[n].ds.cw) ∧ (s.dp.rx[n].ds.cw < 32 → ds = s.dp.rx[n].ds)
    ∧ ∀ c, 32 ≤ s.dp.rx[n].ds.cw → s.dp.rx[n].expSfc = some c → ds.sfc = c := by
  have hheard := arrivalHeard_now (s := s) (n := n) (burst := burst) (displaced := displaced)
  unfold arrivalBegun
  rw [hheard.lane]
  by_cases hnew : 32 ≤ s.dp.rx[n].ds.cw
  · obtain ⟨ds, hnow, hcw, hsfc⟩ := startDestuff_now (s := s.arrivalHeard n burst displaced) (n := n)
    rw [hheard.lane] at hnow hsfc
    rw [if_pos hnew, if_pos hnew]
    refine ⟨ds, ?_, hcw, fun h => absurd hnew (by omega), fun c _ => hsfc c⟩
    exact hheard.trans hnow
  · rw [if_neg hnew, if_neg hnew]
    exact ⟨s.dp.rx[n].ds, hheard, rfl, fun _ => rfl, fun _ h => absurd h hnew⟩

theorem arrivalBegun_touches : Touches [.dp] (· = R.OLn_RX_SAT_CNT n) s (s.arrivalBegun n burst displaced) :=
  .ite (arrivalHeard_touches.trans (startDestuff_touches.mono (fun _ h => h) fun _ h => h.elim)) arrivalHeard_touches

/-! ## The codeword -/

/-- What a codeword takes of the payload region. -/
def payloadTaken (u : State) (n : Fin 8) (burst : RxBurst) : Destuff × List Int :=
  u.dp.rx[n].ds.takeAll (u.llrGain n) 16384 (u.symbolsFrom n burst u.dp.rx[n].ds.pos)

/-- The lane has taken them. -/
def payloadLeft (u : State) (n : Fin 8) (burst : RxBurst) : State := u.onRx n fun r => { r with ds := (u.payloadTaken n burst).1 }

/-- The last codeword of a superframe takes displaced symbols beside (R33, R35). -/
def displacedTaken (u : State) (n : Fin 8) (burst displaced : RxBurst) : Destuff × List Int :=
  if u.dp.rx[n].ds.cw = 31 then
    (u.payloadTaken n burst).1.displaced (u.llrGain n) (((u.payloadLeft n burst).symbolsFrom n displaced 3456).take
      ((u.payloadLeft n burst).displacedCount n).1)
  else ((u.payloadTaken n burst).1, [])

/-- The codes of an arriving codeword, and the state after those that are free have been drawn. -/
def codesMade (u : State) (n : Fin 8) (burst displaced : RxBurst) : State × List Int :=
  (u.payloadLeft n burst).fullCodes ((u.payloadTaken n burst).2 ++ (u.displacedTaken n burst displaced).2)

/-- A stuffing mismatch is counted at the superframe's end (R35). -/
def mismatchCounted (u : State) (n : Fin 8) (burst displaced : RxBurst) : State :=
  if u.dp.rx[n].ds.cw = 31 ∧ ((u.payloadLeft n burst).displacedCount n).2 then
    (u.codesMade n burst displaced).1.bump (R.OLn_DET_STUFF_MM n)
  else (u.codesMade n burst displaced).1

end
end State

/-- Codeword `cw` of a superframe is complete (R35). -/
def Destuff.ended (d : Destuff) (cw : Nat) : Destuff :=
  if cw = 31 then { d with cw := cw + 1, prev := some (d.sfc, d.stuffs, d.overflow) } else { d with cw := cw + 1 }

theorem Destuff.ended_place (d : Destuff) (cw : Nat) : (d.ended cw).sfc = d.sfc ∧ (d.ended cw).cw = cw + 1 := by
  unfold Destuff.ended
  split <;> exact ⟨rfl, rfl⟩

namespace State

section
variable {s t u : State} {n : Fin 8} {now : Nat} {burst displaced : RxBurst}

/-- The lane after an arrival. -/
def destuffEnded (u : State) (n : Fin 8) (burst displaced : RxBurst) : Destuff :=
  (u.displacedTaken n burst displaced).1.ended u.dp.rx[n].ds.cw

/-- The entry of an arriving codeword (R110, R117). -/
def arrivalEntry (u : State) (n : Fin 8) (now : Nat) (burst displaced : RxBurst) : CwEntry :=
  { lane := n, sfc := (u.destuffEnded n burst displaced).sfc, cw := u.dp.rx[n].ds.cw, codes := (u.codesMade n burst displaced).2,
    arrival := now, deadline := now + deadlineCycles (u.mismatchCounted n burst displaced).dp.pool.deadlineNs }

/-- An arrival, from where its superframe stands. -/
def arrived (u : State) (n : Fin 8) (now : Nat) (burst displaced : RxBurst) : State :=
  (((u.mismatchCounted n burst displaced).onRx n fun r => { r with ds := u.destuffEnded n burst displaced }).onPool fun p =>
    { p with queue := p.queue ++ [u.arrivalEntry n now burst displaced], delivered := setBit p.delivered n true }).trimKept n

theorem exec_codewordArrive (h : s.delivers n = true) :
    exec (.codewordArrive n now burst displaced) s = .next ((s.arrivalBegun n burst displaced).arrived n now burst displaced) := by
  change execCodewordArrive n now burst displaced s = _
  unfold execCodewordArrive
  rw [if_neg (by rw [h]; decide)]
  unfold arrived arrivalEntry mismatchCounted codesMade destuffEnded displacedTaken payloadLeft payloadTaken arrivalBegun arrivalHeard
  dsimp only
  rfl

/-! ## What an arrival leaves -/

/-- The lane before its arrival's entry joins the queue. -/
def laneEnded (u : State) (n : Fin 8) (burst displaced : RxBurst) : State :=
  (u.mismatchCounted n burst displaced).onRx n fun r => { r with ds := u.destuffEnded n burst displaced }

theorem mismatchCounted_dp : (u.mismatchCounted n burst displaced).dp = (u.payloadLeft n burst).dp := by
  unfold mismatchCounted
  split <;> rfl

theorem laneEnded_now : LaneNow n u (u.laneEnded n burst displaced) { u.dp.rx[n] with ds := u.destuffEnded n burst displaced } := by
  have hleft : LaneNow n u (u.payloadLeft n burst) { u.dp.rx[n] with ds := (u.payloadTaken n burst).1 } :=
    (LaneNow.refl n u).onRx (f := fun r => { r with ds := (u.payloadTaken n burst).1 })
  exact (hleft.same mismatchCounted_dp).onRx (f := fun r => { r with ds := u.destuffEnded n burst displaced })

theorem payloadLeft_touches : Touches [.dp] (fun a => u.dp.rx[n].ds.cw = 31 ∧ a = R.OLn_DET_STUFF_MM n) u (u.payloadLeft n burst) :=
  (Touches.refl _ _ _).onRx

theorem codesMade_touches : Touches [.dp] (fun a => u.dp.rx[n].ds.cw = 31 ∧ a = R.OLn_DET_STUFF_MM n) u
    (u.codesMade n burst displaced).1 :=
  (payloadLeft_touches (burst := burst)).trans ((draws_touches _ _).mono (by simp) (by simp))

theorem laneEnded_touches : Touches [.dp] (fun a => u.dp.rx[n].ds.cw = 31 ∧ a = R.OLn_DET_STUFF_MM n) u
    (u.laneEnded n burst displaced) := by
  unfold laneEnded mismatchCounted
  split
  next h => exact (codesMade_touches.bump ⟨h.1, rfl⟩).onRx
  next => exact codesMade_touches.onRx

theorem arrived_eq : u.arrived n now burst displaced = ((u.laneEnded n burst displaced).onPool fun p =>
    { p with queue := p.queue ++ [u.arrivalEntry n now burst displaced], delivered := setBit p.delivered n true }).trimKept n := rfl

theorem arrived_kept : (∀ x ∈ (u.arrived n now burst displaced).dp.pool.kept, x ∈ (u.laneEnded n burst displaced).dp.pool.kept)
    ∧ (u.arrived n now burst displaced).dp.pool.kept.filter (·.lane != n.val) =
        (u.laneEnded n burst displaced).dp.pool.kept.filter (·.lane != n.val) := by
  rw [arrived_eq]
  refine ⟨fun x hx => ?_, ?_⟩
  · have hkept := trimKept_mem x hx
    rw [onPool_dp_pool] at hkept
    exact hkept
  · rw [trimKept_other, onPool_dp_pool]

theorem arrived_touches : Touches [.dp] (fun a => u.dp.rx[n].ds.cw = 31 ∧ a = R.OLn_DET_STUFF_MM n) u
    (u.arrived n now burst displaced) := by
  rw [arrived_eq]
  exact (laneEnded_touches.onPool).onPool

theorem arrivalEntry_place : (u.arrivalEntry n now burst displaced).sfc = u.dp.rx[n].ds.sfc
    ∧ (u.destuffEnded n burst displaced).cw = u.dp.rx[n].ds.cw + 1 := by
  obtain ⟨hsfc, hcw⟩ := (u.displacedTaken n burst displaced).1.ended_place u.dp.rx[n].ds.cw
  refine ⟨hsfc.trans ?_, hcw⟩
  have htaken : (u.payloadTaken n burst).1.sfc = u.dp.rx[n].ds.sfc := (Destuff.takeAll_place _ _).1
  unfold displacedTaken
  split
  · exact (Destuff.displaced_place _).1.trans htaken
  · exact htaken

theorem arrivalEntry_deadline : (u.arrivalEntry n now burst displaced).deadline = now + deadlineCycles u.dp.pool.deadlineNs := by
  unfold arrivalEntry
  rw [mismatchCounted_dp]
  rfl

theorem arrivalEntry_isCode : ∀ c ∈ (u.arrivalEntry n now burst displaced).codes, IsCode c := by
  refine fullCodes_isCode fun c hc => ?_
  rcases List.mem_append.1 hc with hc | hc
  · exact Destuff.takeAll_isCode _ _ c hc
  · unfold displacedTaken at hc
    split at hc
    · exact Destuff.displaced_isCode _ c hc
    · cases hc

/-- A codeword within its superframe takes the next symbols of the payload region. -/
theorem arrivalEntry_within (hcw : u.dp.rx[n].ds.cw < 31) (hlen : (u.payloadTaken n burst).2.length = 16384) :
    (u.arrivalEntry n now burst displaced).codes = (u.payloadTaken n burst).2
    ∧ u.destuffEnded n burst displaced = { (u.payloadTaken n burst).1 with cw := u.dp.rx[n].ds.cw + 1 } := by
  have htail : u.displacedTaken n burst displaced = ((u.payloadTaken n burst).1, []) := if_neg (by omega)
  constructor
  · unfold arrivalEntry codesMade
    rw [htail, List.append_nil]
    exact fullCodes_of_full hlen
  · unfold destuffEnded Destuff.ended
    rw [htail, if_neg (by omega)]

/-- It takes what the lane would have taken before it heard the symbols. -/
theorem payloadTaken_congr {heard : Nat} (hin : u.inForce = s.inForce) (hr : u.dp.rx[n] = { s.dp.rx[n] with heard := heard }) :
    u.payloadTaken n burst = s.dp.rx[n].ds.takeAll (s.llrGain n) 16384 (s.symbolsFrom n burst s.dp.rx[n].ds.pos) := by
  unfold payloadTaken llrGain symbolsFrom samplesTo
  rw [listen_congr hin (heard := heard) (fec := s.dp.rx[n].fec) hr, hr]

end
end State
end Sys2Proof.Machine
end

section
/-!
What CODEWORD_ARRIVE and CORE_DISPATCH answer, as O37 says it (R78, R107–R110, R117, R118, R122).
-/

namespace Sys2Proof.Machine

section
variable {s : State} {n : Fin 8} {now : Nat} {burst displaced : RxBurst}

/-- What an arrival leaves of lane `n` and of the pool. -/
theorem codewordArrive_leaves (h : s.delivers n = true) : Answers (.codewordArrive n now burst displaced) s fun t =>
    let r := s.dp.rx[n]
    (∃ e, t.dp.pool =
        { s.dp.pool with queue := s.dp.pool.queue ++ [e], delivered := setBit s.dp.pool.delivered n true, kept := t.dp.pool.kept }
      ∧ e.lane = n.val ∧ e.arrival = now ∧ e.deadline = now + 3 * min 260 (max 40 s.dp.pool.deadlineNs) / 2
      ∧ e.cw = (if 32 ≤ r.ds.cw then 0 else r.ds.cw) ∧ e.codes.length = 16384
      ∧ (∀ c ∈ e.codes, -31 ≤ c ∧ c ≤ 31) ∧ t.dp.rx[n].ds.cw = e.cw + 1
      ∧ (r.ds.cw < 32 → e.sfc = r.ds.sfc)
      ∧ (∀ c, 32 ≤ r.ds.cw → r.expSfc = some c → e.sfc = c)
      ∧ (let got := r.ds.takeAll (s.llrGain n) 16384 (s.symbolsFrom n burst r.ds.pos)
         r.ds.cw < 31 → got.2.length = 16384 →
           e.codes = got.2 ∧ t.dp.rx[n].ds = { got.1 with cw := r.ds.cw + 1 }))
    ∧ (t.dp.pool.kept.filter (·.lane == n.val)).length ≤ 48 - State.inUse t.dp.pool n
    ∧ (∀ x ∈ t.dp.pool.kept, x ∈ s.dp.pool.kept)
    ∧ t.dp.pool.kept.filter (·.lane != n.val) = s.dp.pool.kept.filter (·.lane != n.val)
    ∧ t.dp = { s.dp with pool := t.dp.pool, rx := s.dp.rx.set n { r with ds := t.dp.rx[n].ds, heard := t.dp.rx[n].heard } }
    ∧ r.heard ≤ t.dp.rx[n].heard ∧ 768 * burst.block + (burst.codes.length - 256) ≤ t.dp.rx[n].heard
    ∧ Touches [.dp] (fun a => a = R.OLn_RX_SAT_CNT n ∨ (r.ds.cw = 31 ∧ a = R.OLn_DET_STUFF_MM n)) s t := by
  refine ⟨_, State.exec_codewordArrive h, ?_⟩
  obtain ⟨ds, hbegun, hcw, hwithin, hsfc⟩ := State.arrivalBegun_now (s := s) (n := n) (burst := burst) (displaced := displaced)
  have htouch := State.arrivalBegun_touches (s := s) (n := n) (burst := burst) (displaced := displaced)
  generalize s.arrivalBegun n burst displaced = u at *
  have hlane := hbegun.lane
  have hended := hbegun.trans (State.laneEnded_now (burst := burst) (displaced := displaced))
  rw [hlane] at hended
  have hdelivers : (u.arrived n now burst displaced).dp.rx[n] = _ := hended.lane
  have hpool : (u.laneEnded n burst displaced).dp.pool = s.dp.pool := hended.pool
  obtain ⟨hplace, hcwEnded⟩ := State.arrivalEntry_place (u := u) (n := n) (now := now) (burst := burst) (displaced := displaced)
  have hdeadline := State.arrivalEntry_deadline (u := u) (n := n) (now := now) (burst := burst) (displaced := displaced)
  obtain ⟨hmem, hother⟩ := State.arrived_kept (u := u) (n := n) (now := now) (burst := burst) (displaced := displaced)
  have hds : u.dp.rx[n].ds = ds := congrArg RxLane.ds hlane
  rw [hbegun.pool] at hdeadline
  rw [hds] at hplace
  refine ⟨⟨u.arrivalEntry n now burst displaced, ?_, rfl, rfl, hdeadline, ?_, State.fullCodes_length, State.arrivalEntry_isCode, ?_,
    fun hmid => ?_, fun c hnew hexp => hplace.trans (hsfc c hnew hexp), fun hmid hlen => ?_⟩, State.trimKept_length, ?_, ?_, ?_,
    ?_, ?_, ?_⟩
  · rw [State.arrived_eq, State.trimKept_pool, State.onPool_dp_pool, hpool]
  · exact (congrArg Destuff.cw hds).trans hcw
  · rw [hdelivers]
    exact hcwEnded
  · rw [hplace, hwithin hmid]
  · have hsame := hwithin (by omega)
    subst hsame
    have htaken := State.payloadTaken_congr (burst := burst) (htouch.1 .inForce (by decide)) hlane
    rw [hdelivers]
    obtain ⟨hcodes, hdestuff⟩ := State.arrivalEntry_within (now := now) (displaced := displaced) (by rw [hds]; exact hmid)
      ((congrArg (fun p => p.2.length) htaken).trans hlen)
    rw [htaken, hds] at hdestuff
    exact ⟨hcodes.trans (congrArg Prod.snd htaken), hdestuff⟩
  · rw [hpool] at hmem
    exact hmem
  · rw [hother, hpool]
  · rw [hdelivers]
    exact congrArg (fun d : Datapath => { d with pool := (u.arrived n now burst displaced).dp.pool }) hended
  · rw [hdelivers]
    exact (Nat.le_max_left _ _).trans (Nat.le_max_left _ _)
  · rw [hdelivers]
    exact (Nat.le_max_right _ _).trans (Nat.le_max_left _ _)
  · refine (htouch.mono (fun _ h => h) fun _ => .inl).trans (State.arrived_touches.mono (fun _ h => h) ?_)
    rintro a ⟨hlast, ha⟩
    refine .inr ⟨?_, ha⟩
    rw [hds, hcw] at hlast
    split at hlast
    · cases hlast
    · exact hlast

end

section
variable {s : State} {e : CwEntry} {k : Fin 16} {now : Nat} {poison : List Nat}

/-- An idle core takes a codeword that can be decided in time, and its lane is charged (R111, R116, R123). -/
theorem coreDispatch_loads
    (hidle : (List.finRange 16).find? (fun k : Fin 16 => s.coreActive k && s.dp.pool.cores[k].work.isNone) = some k)
    (he : s.earliest = some e) (htime : s.ends now (8 + 16 * s.minIter) ≤ e.deadline) :
    Answers (.coreDispatch now poison) s fun t =>
      t.dp.pool.cores[k].work = some (s.takenUp e now poison)
      ∧ t.dp.pool = { s.dp.pool with
          queue := (s.unqueue e).dp.pool.queue,
          bal := s.dp.pool.bal.set (Fin.ofNat 8 e.lane) (s.bal (Fin.ofNat 8 e.lane) - (8 + 16 * s.minIter : Nat)),
          cores := s.dp.pool.cores.set k { s.dp.pool.cores[k] with work := t.dp.pool.cores[k].work } }
      ∧ t.dp = { s.dp with pool := t.dp.pool }
      ∧ (poison ≠ [] → Claims.counted s t (R.FEC_LANEn_POISON e.lane) 1)
      ∧ Touches (poisonParts poison) (poisonReg e.lane poison) s t := by
  refine ⟨_, exec_coreDispatch hidle he, ?_⟩
  rw [if_neg (Nat.not_lt.2 htime)]
  refine ⟨dispatched_work, ?_, dispatched_dp, dispatched_counted, dispatched_touches⟩
  rw [dispatched_work]
  exact dispatched_pool

end
end Sys2Proof.Machine
end

section
/-!
POOL_TICK in its steps (R115, R119, R121, R127): the tick begins, a commit's values come into force, work slows or speeds, the figures are
shown, credit is redistributed, and the cores are reviewed.
-/

namespace Sys2Proof.Machine

namespace State

section
variable {s t u : State}

/-- The next tick, or the first (R115). -/
def tickBegun (s : State) : State :=
  if s.dp.pool.running then s.onPool fun p => { p with tick := p.tick + 1752 }
  else s.onPool fun p =>
    { p with running := true, tick := ceilDiv (128 * s.dp.framer.base) 152, reserve := 0,
             bal := Vector.replicate 8 0, drawn := Vector.replicate 8 0, delivered := 0 }

/-- The work in progress goes on at the throttle level of now (R119). -/
def tickSlowed (u : State) : State :=
  u.onPool fun p =>
    { p with t := u.therm.level, nCores := u.activeCores,
             cores := p.cores.map fun c =>
               { c with work := c.work.map fun w => w.throttled u.dp.pool.t u.therm.level u.dp.pool.tick } }

/-- FEC_STAT's figures (R132). -/
def tickShown (u : State) : State :=
  ((u.wr F.FEC_STAT_in_service u.dp.pool.delivered).wr F.FEC_STAT_throttle_t u.dp.pool.t).wr F.FEC_STAT_cores u.dp.pool.nCores

theorem exec_poolTick (hcv : s.cvMode = true) (hoff : s.dpOff = false) :
    exec .poolTick s = .next (s.tickBegun.takeFecConfig.tickSlowed.tickShown.redistribute.reviewCores) := by
  change execPoolTick s = _
  unfold execPoolTick
  rw [if_neg (by rw [hcv, hoff]; decide)]
  rfl

/-! ## The review of the cores (R121) -/

theorem setDev_settlePool {d : DevState} : (s.setDev d).mgmt.settlePool = s.mgmt.settlePool := by
  by_cases h : s.mgmt.dev = d
  · exact congrArg (fun v : State => v.mgmt.settlePool) (if_pos h)
  · rw [setDev_mgmt h]

theorem reviewState_settlePool : s.reviewState.mgmt.settlePool = s.mgmt.settlePool := by
  rcases reviewState_cases (s := s) with h | ⟨d, h⟩
  · rw [h]
  · rw [h, setDev_settlePool]

/-- The flag is shown, and a fall below min_cores is logged. -/
def coresShown (s : State) : State :=
  let shown := s.wr F.FEC_STAT_below_min (b2n (decide (s.activeCores < s.minCores)))
  if decide (s.activeCores < s.minCores) = true ∧ (!s.flag F.FEC_STAT_below_min) = true then
    shown.logEvent srcFec 0x7002 shown.activeCores 0
  else shown

theorem reviewCores_eq : s.reviewCores = s.coresShown.reviewState := rfl

theorem coresShown_touches : Touches [.eng, .evr] (fun a => a = R.FEC_STAT ∨ noticeReg a) s s.coresShown := by
  have hshown : Touches [.eng, .evr] (fun a => a = R.FEC_STAT ∨ noticeReg a) s
      (s.wr F.FEC_STAT_below_min (b2n (decide (s.activeCores < s.minCores)))) := (Touches.refl _ _ _).wr (.inl rfl)
  exact .ite (hshown.logEvent (by decide) fun _ => .inr) hshown

theorem reviewCores_touches : Touches [.mgmt, .eng, .evr] (fun a => a = R.FEC_STAT ∨ noticeReg a) s s.reviewCores := by
  rw [reviewCores_eq]
  exact (coresShown_touches.mono (by simp) fun _ h => h).trans (reviewState_touches.mono (by simp) fun _ => .inr)

theorem reviewCores_dp : s.reviewCores.dp = s.dp := reviewCores_touches.1 .dp (by decide)

theorem reviewCores_settlePool : s.reviewCores.mgmt.settlePool = s.mgmt.settlePool := by
  have hshown : s.coresShown.mgmt = s.mgmt := coresShown_touches.1 .mgmt (by decide)
  rw [reviewCores_eq, reviewState_settlePool, hshown]

theorem reviewCores_reg {a : Nat} (h : 0x200000 ≤ a) :
    s.reviewCores.reg a = (s.wr F.FEC_STAT_below_min (b2n (decide (s.activeCores < s.minCores)))).reg a := by
  rw [reviewCores_eq, reviewState_reg (not_noticeReg_of_optical h)]
  unfold coresShown
  dsimp only
  split
  · exact reg_logEvent_of_not_notice (not_noticeReg_of_optical h)
  · rfl

/-! ## The figures (R132) -/

theorem activeCores_congr (hen : t.dp.pool.coreEn = s.dp.pool.coreEn) (hreg : t.reg R.FEC_CORE_STAT = s.reg R.FEC_CORE_STAT) :
    t.activeCores = s.activeCores := by
  have hfailed : t.failedCores = s.failedCores := congrArg (getField · _ _) hreg
  unfold activeCores coreActive
  rw [hen, hfailed]

theorem activeCores_le : s.activeCores ≤ 16 := (List.length_filter_le _ _).trans (List.length_range ▸ Nat.le_refl _)

theorem tickShown_touches : Touches [] (· = R.FEC_STAT) u u.tickShown := by
  unfold tickShown
  exact (((Touches.refl [] (· = R.FEC_STAT) u).wr rfl).wr rfl).wr rfl

theorem reviewCores_rd {f : RField} (hf : f.addr = R.FEC_STAT) :
    s.reviewCores.rd f = (s.wr F.FEC_STAT_below_min (b2n (decide (s.activeCores < s.minCores)))).rd f := by
  refine congrArg (getField · _ _) (reviewCores_reg ?_)
  rw [hf]
  decide

theorem reviewCores_below : s.reviewCores.flag F.FEC_STAT_below_min = decide (s.activeCores < s.minCores) := by
  refine flag_b2n ?_
  rw [reviewCores_rd rfl, rd_wr_same _ _ _ (by decide)]
  cases decide (s.activeCores < s.minCores) <;> rfl

theorem tick_inService : u.tickShown.redistribute.reviewCores.rd F.FEC_STAT_in_service = u.dp.pool.delivered % 2 ^ 8 := by
  rw [reviewCores_rd rfl, rd_wr_disjoint _ _ _ _ (.inl (by decide)) (by decide)]
  change u.tickShown.rd F.FEC_STAT_in_service = _
  unfold tickShown
  rw [rd_wr_disjoint _ _ _ _ (.inl (by decide)) (by decide), rd_wr_disjoint _ _ _ _ (.inl (by decide)) (by decide),
    rd_wr_same _ _ _ (by decide)]
  rfl

theorem tick_cores (h : u.dp.pool.nCores ≤ 16) :
    u.tickShown.redistribute.reviewCores.rd F.FEC_STAT_cores = u.dp.pool.nCores := by
  rw [reviewCores_rd rfl, rd_wr_disjoint _ _ _ _ (.inl (by decide)) (by decide)]
  change u.tickShown.rd F.FEC_STAT_cores = _
  unfold tickShown
  rw [rd_wr_same _ _ _ (by decide)]
  exact Nat.mod_eq_of_lt (Nat.lt_of_le_of_lt h (by decide))

theorem tick_below : u.tickShown.redistribute.reviewCores.flag F.FEC_STAT_below_min = decide (u.activeCores < u.minCores) := by
  have hactive : u.tickShown.redistribute.activeCores = u.activeCores :=
    activeCores_congr rfl (tickShown_touches.2.1 R.FEC_CORE_STAT (by decide))
  rw [reviewCores_below, hactive]
  rfl

theorem tick_dp : u.tickShown.redistribute.reviewCores.dp = u.redistribute.dp := reviewCores_dp

theorem tick_touches :
    Touches [.dp, .mgmt, .eng, .evr] (fun a => a = R.FEC_STAT ∨ noticeReg a) u u.tickShown.redistribute.reviewCores := by
  have hshown : Touches [.dp, .mgmt, .eng, .evr] (fun a => a = R.FEC_STAT ∨ noticeReg a) u u.tickShown :=
    tickShown_touches.mono (by simp) fun _ => .inl
  have hshared : Touches [.dp, .mgmt, .eng, .evr] (fun a => a = R.FEC_STAT ∨ noticeReg a) u u.tickShown.redistribute := hshown.onPool
  exact hshared.trans (reviewCores_touches.mono (by simp) fun _ h => h)

theorem tickSlowed_touches : Touches [.dp] (fun _ => False) u u.tickSlowed := (Touches.refl _ _ _).onPool

end
end State

/-! ## Credit (R115) -/

namespace Pool

/-- The lanes in service, the credit of a tick, what each lane is granted of it, and what is left. -/
def lanesServed (p : Pool) : Nat := ((List.range 8).filter fun n => bitOf p.delivered n).length

def credit (p : Pool) : Nat := p.nCores * 219 * (8 - p.t)

def share (p : Pool) : Nat := if p.lanesServed * p.grant ≤ p.credit then p.grant else p.credit / p.lanesServed

def left (p : Pool) : Nat := if p.lanesServed * p.grant ≤ p.credit then p.credit - p.lanesServed * p.grant else 0

/-- The positive credit that the lanes give up. -/
def givenUp (p : Pool) : Nat := (p.bal.toList.map fun b => (max b 0).toNat).sum

theorem lanesServed_eq (p : Pool) : ((List.finRange 8).filter fun n : Fin 8 => bitOf p.delivered n).length = p.lanesServed := by
  unfold lanesServed
  rw [← List.map_coe_finRange_eq_range, List.filter_map, List.length_map]
  rfl

end Pool

namespace State

section
variable {u : State} {n : Fin 8}

theorem givenUp_eq (p : Pool) : p.bal.toList.foldl (fun g b => g + (max b 0).toNat) 0 = p.givenUp := by
  unfold Pool.givenUp
  rw [List.sum_eq_foldl, List.foldl_map]

theorem share_left_eq (p : Pool) : (if p.lanesServed * p.grant ≤ p.nCores * 219 * (8 - p.t) then
    (p.grant, p.nCores * 219 * (8 - p.t) - p.lanesServed * p.grant) else (p.nCores * 219 * (8 - p.t) / p.lanesServed, 0))
      = (p.share, p.left) := by
  unfold Pool.share Pool.left Pool.credit
  split <;> rfl

/-- What a lane's balance becomes. -/
def regranted (p : Pool) (i : Nat) (b : Int) : Int :=
  (if b > 0 ∨ !bitOf p.delivered i then 0 else b) + (if bitOf p.delivered i then (p.share : Int) else 0)

theorem redistribute_eq : u.redistribute = u.onPool fun p =>
    { p with reserve := Nat.min (p.reserve + u.dp.pool.givenUp + u.dp.pool.left) p.resCap,
             bal := p.bal.mapFinIdx fun i b _ => regranted u.dp.pool i b,
             drawn := p.drawn.mapFinIdx fun i d _ => if bitOf u.dp.pool.delivered i then 0 else d,
             delivered := 0 } := by
  have hshare := share_left_eq u.dp.pool
  unfold redistribute regranted
  dsimp only
  rw [givenUp_eq, u.dp.pool.lanesServed_eq, hshare]

theorem redistribute_pool : u.redistribute.dp.pool = { u.dp.pool with
    reserve := min (u.dp.pool.reserve + u.dp.pool.givenUp + u.dp.pool.left) u.dp.pool.resCap,
    bal := u.redistribute.dp.pool.bal, drawn := u.redistribute.dp.pool.drawn, delivered := 0 } := by
  rw [redistribute_eq]
  rfl

/-- A lane in service keeps its debt and is granted its share; any other starts at nothing. -/
theorem redistribute_bal : u.redistribute.bal n =
    if bitOf u.dp.pool.delivered n then min (u.bal n) 0 + u.dp.pool.share else 0 := by
  have hbal : u.redistribute.bal n = regranted u.dp.pool n (u.bal n) := by
    rw [redistribute_eq]
    exact Vector.getElem_mapFinIdx ..
  rw [hbal, regranted]
  cases bitOf u.dp.pool.delivered n with
  | true =>
    simp
    split <;> omega
  | false => simp

theorem redistribute_drawn : u.redistribute.dp.pool.drawn[n] = if bitOf u.dp.pool.delivered n then 0 else u.dp.pool.drawn[n] := by
  rw [redistribute_eq]
  exact Vector.getElem_mapFinIdx ..

end
end State
end Sys2Proof.Machine
end

section
/-!
What POOL_TICK leaves, in the three ways that a tick can fall (R115, R119, R121, R127).
-/

namespace Sys2Proof.Machine

/-- Work whose end has been moved differs in its end alone (R119). -/
theorem Work.throttled_eq (w : Work) (old new now : Nat) :
    w.throttled old new now = { w with ends := if w.ends ≤ now then w.ends else (w.throttled old new now).ends } := by
  unfold Work.throttled
  split <;> rfl

namespace State

section
variable {s v : State} {n : Fin 8} {k : Fin 16}

/-- The rest of a tick once it has begun and a commit's values are in force. -/
def ticked (v : State) : State := v.tickSlowed.tickShown.redistribute.reviewCores

theorem ticked_dp : v.ticked.dp = v.tickSlowed.redistribute.dp := tick_dp

/-- The tick changes the throttle level, the number of cores, the work in progress and the credit of the pool. -/
theorem ticked_pool : v.ticked.dp.pool = { v.dp.pool with
    t := v.therm.level, nCores := v.activeCores, cores := v.tickSlowed.dp.pool.cores, delivered := 0, bal := v.ticked.dp.pool.bal,
    drawn := v.ticked.dp.pool.drawn,
    reserve := min (v.dp.pool.reserve + v.dp.pool.givenUp + v.tickSlowed.dp.pool.left) v.dp.pool.resCap } := by
  rw [ticked_dp, redistribute_pool]
  rfl

theorem ticked_rest : v.ticked.dp = { v.dp with pool := v.ticked.dp.pool } := by
  rw [ticked_dp]
  rfl

theorem ticked_touches : Touches [.dp, .mgmt, .eng, .evr] (fun a => a = R.FEC_STAT ∨ noticeReg a) v v.ticked :=
  (tickSlowed_touches.mono (by simp) (by simp)).trans tick_touches

theorem ticked_bal : v.ticked.bal n =
    if bitOf v.dp.pool.delivered n then min (v.bal n) 0 + v.tickSlowed.dp.pool.share else 0 := by
  unfold bal
  rw [ticked_dp]
  exact redistribute_bal (u := v.tickSlowed)

theorem ticked_drawn : v.ticked.dp.pool.drawn[n] = if bitOf v.dp.pool.delivered n then 0 else v.dp.pool.drawn[n] := by
  simp only [ticked_dp]
  exact redistribute_drawn (u := v.tickSlowed)

theorem ticked_core : v.ticked.dp.pool.cores[k] = { v.dp.pool.cores[k] with
    work := v.dp.pool.cores[k].work.map fun w => { w with ends := if w.ends ≤ v.dp.pool.tick then w.ends
      else (w.throttled v.dp.pool.t v.therm.level v.dp.pool.tick).ends } } := by
  have hcores : v.ticked.dp.pool.cores = v.tickSlowed.dp.pool.cores := by rw [ticked_pool]
  simp only [← Work.throttled_eq]
  exact (congrArg (fun cores : Vector PoolCore 16 => cores[k]) hcores).trans (Vector.getElem_map ..)

theorem ticked_settlePool : v.ticked.mgmt.settlePool = v.mgmt.settlePool := reviewCores_settlePool

/-! ## A commit's values (R127, R130) -/

theorem takeFecConfig_of_unstaged (h : v.dp.pool.staged = false) : v.takeFecConfig = v := if_pos (by rw [h]; rfl)

/-- The ring restarts where its base changes (R130). -/
def ringRestarted (v : State) : State :=
  if v.cfg F.FEC_HIST_BASE_base ≠ v.dp.pool.histBase then v.setReg R.FEC_HIST_WPTR 0 else v

/-- The pool's values are in force. -/
def fecTaken (v : State) : State :=
  v.onPool fun p =>
    { p with staged := false, deadlineNs := v.cfg F.FEC_DEADLINE_ns, grant := v.cfg F.FEC_GRANT_grant,
             resCap := v.cfg F.FEC_RES_CTRL_res_cap, laneMax := v.cfg F.FEC_RES_CTRL_lane_max,
             ctrl := v.inForceReg R.FEC_CTRL, coreEn := v.cfg F.FEC_CORE_EN_en, histBase := v.cfg F.FEC_HIST_BASE_base,
             histEn := v.cfgOn F.FEC_HIST_CTRL_en }

theorem ringRestarted_cases : v.ringRestarted = v ∨ v.ringRestarted = v.setReg R.FEC_HIST_WPTR 0 := by
  unfold ringRestarted
  split
  · exact .inr rfl
  · exact .inl rfl

theorem takeFecConfig_of_staged (h : v.dp.pool.staged = true) : v.takeFecConfig = v.ringRestarted.fecTaken.poolSettled := by
  unfold takeFecConfig ringRestarted
  rw [if_neg (by rw [h]; decide)]
  by_cases hbase : v.cfg F.FEC_HIST_BASE_base ≠ v.dp.pool.histBase
  · rw [if_pos hbase]
    dsimp only
    rw [if_pos hbase]
    rfl
  · rw [if_neg hbase]
    dsimp only
    rw [if_neg hbase]
    rfl

theorem poolSettled_touches : Touches [.mgmt] (· = R.TOP_COMMIT) v v.poolSettled := by
  unfold poolSettled reviewSettled
  have hmgmt := (v.mgmt_touches { v.mgmt with settlePool := false }).mono (qs := [.mgmt]) (can := (· = R.TOP_COMMIT)) (by simp) (by simp)
  split
  · split
    · exact hmgmt.wr rfl
    · exact hmgmt
  · exact .refl _ _ _

theorem poolSettled_settlePool : v.poolSettled.mgmt.settlePool = false := by
  unfold poolSettled reviewSettled
  split
  · split <;> rfl
  next h => exact Bool.eq_false_iff.2 h

theorem takeFecConfig_dp (h : v.dp.pool.staged = true) : v.takeFecConfig.dp = v.fecTaken.dp := by
  rw [takeFecConfig_of_staged h, poolSettled_touches.1 .dp (by decide)]
  rcases ringRestarted_cases (v := v) with hring | hring
  · rw [hring]
  · rw [hring]
    rfl

theorem takeFecConfig_touches (h : v.dp.pool.staged = true) :
    Touches [.dp, .mgmt] (fun a => a = R.FEC_HIST_WPTR ∨ a = R.TOP_COMMIT) v v.takeFecConfig := by
  rw [takeFecConfig_of_staged h]
  have hring : Touches [.dp, .mgmt] (fun a => a = R.FEC_HIST_WPTR ∨ a = R.TOP_COMMIT) v v.ringRestarted :=
    .ite ((Touches.refl _ _ _).setReg (.inl rfl)) (.refl _ _ _)
  have htaken : Touches [.dp, .mgmt] (fun a => a = R.FEC_HIST_WPTR ∨ a = R.TOP_COMMIT) v v.ringRestarted.fecTaken := hring.onPool
  exact htaken.trans (poolSettled_touches.mono (by simp) fun _ => .inr)

theorem takeFecConfig_wptr (h : v.dp.pool.staged = true) (hbase : v.cfg F.FEC_HIST_BASE_base ≠ v.dp.pool.histBase) :
    v.takeFecConfig.reg R.FEC_HIST_WPTR = 0 := by
  rw [takeFecConfig_of_staged h, poolSettled_touches.2.1 _ (by decide)]
  unfold ringRestarted
  rw [if_pos hbase]
  exact reg_setReg_same v R.FEC_HIST_WPTR 0

end
end State

/-! ## The three ways of a tick -/

/-- Where no lane is in service the whole credit is left. -/
theorem Pool.left_of_idle {p : Pool} (h : p.delivered = 0) : p.left = p.credit := by
  have hnone : p.lanesServed = 0 := by
    unfold Pool.lanesServed
    rw [h]
    decide
  unfold Pool.left
  rw [hnone, Nat.zero_mul, if_pos (Nat.zero_le _), Nat.sub_zero]

theorem Pool.givenUp_of_empty {p : Pool} (h : p.bal = Vector.replicate 8 0) : p.givenUp = 0 := by
  unfold Pool.givenUp
  rw [h]
  decide

section
variable {s : State}

theorem exec_poolTick_ticked (hcv : s.cvMode = true) (hoff : s.dpOff = false) :
    exec .poolTick s = .next s.tickBegun.takeFecConfig.ticked := State.exec_poolTick hcv hoff

theorem tickBegun_staged : s.tickBegun.dp.pool.staged = s.dp.pool.staged := by
  unfold State.tickBegun
  split <;> rfl

/-- A tick in which no commit waits. -/
theorem exec_poolTick_unstaged (hcv : s.cvMode = true) (hoff : s.dpOff = false) (hstaged : s.dp.pool.staged = false) :
    exec .poolTick s = .next s.tickBegun.ticked := by
  rw [exec_poolTick_ticked hcv hoff, State.takeFecConfig_of_unstaged (tickBegun_staged.trans hstaged)]

theorem tickBegun_touches : Touches [.dp] (fun _ => False) s s.tickBegun := .ite (.onPool (.refl _ _ _)) (.onPool (.refl _ _ _))

theorem poolTick_touches : Touches [.dp, .mgmt, .eng, .evr] (fun a => a = R.FEC_STAT ∨ noticeReg a) s s.tickBegun.ticked :=
  (tickBegun_touches.mono (by simp) (by simp)).trans State.ticked_touches

/-- The pool at a tick after the first (R115, R119, R121). -/
theorem poolTick_running (hcv : s.cvMode = true) (hoff : s.dpOff = false) (hrun : s.dp.pool.running = true)
    (hstaged : s.dp.pool.staged = false) : Answers .poolTick s fun t =>
      let p := s.dp.pool
      let serving (n : Nat) : Bool := bitOf p.delivered n
      let lanes := ((List.range 8).filter serving).length
      let c := s.activeCores * 219 * (8 - s.therm.level)
      let share := if lanes * p.grant ≤ c then p.grant else c / lanes
      let left := if lanes * p.grant ≤ c then c - lanes * p.grant else 0
      t.dp.pool.tick = p.tick + 1752 ∧ t.dp.pool.t = s.therm.level ∧ t.dp.pool.nCores = s.activeCores
      ∧ t.dp.pool.delivered = 0
      ∧ (∀ n : Fin 8, t.bal n = if serving n then min (s.bal n) 0 + share else 0)
      ∧ (∀ n : Fin 8, t.dp.pool.drawn[n] = if serving n then 0 else p.drawn[n])
      ∧ t.dp.pool.reserve = min (p.reserve + (p.bal.toList.map fun b => (max b 0).toNat).sum + left) p.resCap
      ∧ (∀ k : Fin 16, t.dp.pool.cores[k] = { p.cores[k] with
          work := p.cores[k].work.map fun w => { w with ends := if w.ends ≤ p.tick + 1752 then w.ends
            else (w.throttled p.t s.therm.level (p.tick + 1752)).ends } })
      ∧ t.rd F.FEC_STAT_in_service = p.delivered % 2 ^ 8 ∧ t.rd F.FEC_STAT_cores = s.activeCores
      ∧ t.flag F.FEC_STAT_below_min = decide (s.activeCores < s.minCores)
      ∧ t.dp = { s.dp with pool := { p with
          tick := t.dp.pool.tick, t := t.dp.pool.t, nCores := t.dp.pool.nCores, delivered := 0,
          cores := t.dp.pool.cores, bal := t.dp.pool.bal, drawn := t.dp.pool.drawn, reserve := t.dp.pool.reserve } }
      ∧ Touches [.dp, .mgmt, .eng, .evr] (fun a => a = R.FEC_STAT ∨ noticeReg a) s t := by
  refine ⟨_, exec_poolTick_unstaged hcv hoff hstaged, ?_⟩
  have htouch := poolTick_touches (s := s)
  have hbegun : s.tickBegun = s.onPool fun p => { p with tick := p.tick + 1752 } := if_pos hrun
  rw [hbegun] at htouch ⊢
  have hpool := State.ticked_pool (v := s.onPool fun p => { p with tick := p.tick + 1752 })
  refine ⟨?_, ?_, ?_, ?_, fun n => State.ticked_bal, fun n => State.ticked_drawn, ?_, fun k => State.ticked_core, State.tick_inService,
    ?_, State.tick_below, ?_, htouch⟩
  · rw [hpool]
    rfl
  · rw [hpool]
    rfl
  · rw [hpool]
    rfl
  · rw [hpool]
  · rw [hpool]
    rfl
  · exact State.tick_cores State.activeCores_le
  · refine State.ticked_rest.trans ?_
    rw [hpool]
    rfl

/-- The pool at its first tick (R115). -/
theorem poolTick_first (hcv : s.cvMode = true) (hoff : s.dpOff = false) (hrun : s.dp.pool.running = false)
    (hstaged : s.dp.pool.staged = false) : Answers .poolTick s fun t =>
      t.dp.pool.running = true ∧ t.dp.pool.nCores = s.activeCores ∧ t.dp.pool.delivered = 0
      ∧ (∀ n : Fin 8, t.bal n = 0 ∧ t.dp.pool.drawn[n] = 0)
      ∧ t.dp.pool.reserve = min (s.activeCores * 219 * (8 - s.therm.level)) s.dp.pool.resCap
      ∧ t.dp.pool.queue = s.dp.pool.queue ∧ t.dp.pool.decisions = s.dp.pool.decisions ∧ t.dp = { s.dp with pool := t.dp.pool }
      ∧ Touches [.dp, .mgmt, .eng, .evr] (fun a => a = R.FEC_STAT ∨ noticeReg a) s t := by
  refine ⟨_, exec_poolTick_unstaged hcv hoff hstaged, ?_⟩
  have htouch := poolTick_touches (s := s)
  have hbegun : s.tickBegun = s.onPool fun p =>
      { p with running := true, tick := ceilDiv (128 * s.dp.framer.base) 152, reserve := 0,
               bal := Vector.replicate 8 0, drawn := Vector.replicate 8 0, delivered := 0 } := if_neg (by rw [hrun]; decide)
  have hdelivered : s.tickBegun.dp.pool.delivered = 0 := by rw [hbegun, State.onPool_dp_pool]
  have hidle (n : Fin 8) : bitOf s.tickBegun.dp.pool.delivered n = false := by
    rw [hdelivered]
    revert n
    decide
  have hbal : s.tickBegun.dp.pool.bal = Vector.replicate 8 0 := by rw [hbegun, State.onPool_dp_pool]
  have hdrawn : s.tickBegun.dp.pool.drawn = Vector.replicate 8 0 := by rw [hbegun, State.onPool_dp_pool]
  have hpool := State.ticked_pool (v := s.tickBegun)
  refine ⟨?_, ?_, ?_, fun n => ⟨?_, ?_⟩, ?_, ?_, ?_, ?_, htouch⟩
  · rw [hpool, hbegun]
    rfl
  · rw [hpool, hbegun]
    rfl
  · rw [hpool]
  · rw [State.ticked_bal, hidle]
    rfl
  · rw [State.ticked_drawn, hidle, if_neg (by decide), hdrawn]
    exact Vector.getElem_replicate ..
  · have hleft : s.tickBegun.tickSlowed.dp.pool.left = s.activeCores * 219 * (8 - s.therm.level) := by
      rw [Pool.left_of_idle (p := s.tickBegun.tickSlowed.dp.pool) hdelivered, hbegun]
      rfl
    rw [hpool, hleft, Pool.givenUp_of_empty hbal, hbegun]
    simp only [State.onPool_dp_pool, Nat.zero_add]
  · rw [hpool, hbegun]
    rfl
  · rw [hpool, hbegun]
    rfl
  · exact State.ticked_rest.trans (by rw [hbegun]; rfl)

/-- The beginning of a tick keeps what waits, and where the ring stands. -/
theorem tickBegun_keeps : s.tickBegun.dp.pool.burst = s.dp.pool.burst ∧ s.tickBegun.dp.pool.queue = s.dp.pool.queue
    ∧ s.tickBegun.dp.pool.histBase = s.dp.pool.histBase ∧ s.tickBegun.dp = { s.dp with pool := s.tickBegun.dp.pool } := by
  unfold State.tickBegun
  split <;> exact ⟨rfl, rfl, rfl, rfl⟩

/-- The pool at a tick that brings a commit's values into force (R127, R130). -/
theorem poolTick_staged (hcv : s.cvMode = true) (hoff : s.dpOff = false) (hstaged : s.dp.pool.staged = true) :
    Answers .poolTick s fun t =>
      let p := s.dp.pool
      let q := t.dp.pool
      q.staged = false ∧ q.deadlineNs = s.cfg F.FEC_DEADLINE_ns ∧ q.grant = s.cfg F.FEC_GRANT_grant
      ∧ q.resCap = s.cfg F.FEC_RES_CTRL_res_cap ∧ q.laneMax = s.cfg F.FEC_RES_CTRL_lane_max
      ∧ q.ctrl = s.inForceReg R.FEC_CTRL ∧ q.coreEn = s.cfg F.FEC_CORE_EN_en ∧ q.histBase = s.cfg F.FEC_HIST_BASE_base
      ∧ q.histEn = s.cfgOn F.FEC_HIST_CTRL_en ∧ q.burst = p.burst ∧ q.queue = p.queue
      ∧ (q.histBase ≠ p.histBase → t.reg R.FEC_HIST_WPTR = 0)
      ∧ t.mgmt.settlePool = false ∧ t.dp = { s.dp with pool := q }
      ∧ Touches [.dp, .mgmt, .eng, .evr]
          (fun a => a = R.FEC_STAT ∨ a = R.FEC_HIST_WPTR ∨ a = R.TOP_COMMIT ∨ noticeReg a) s t := by
  refine ⟨_, exec_poolTick_ticked hcv hoff, ?_⟩
  have hwaits : s.tickBegun.dp.pool.staged = true := tickBegun_staged.trans hstaged
  have hin : s.tickBegun.inForce = s.inForce := tickBegun_touches.1 .inForce (by decide)
  have hvalues : s.tickBegun.takeFecConfig.dp.pool = { s.tickBegun.dp.pool with
      staged := false, deadlineNs := s.cfg F.FEC_DEADLINE_ns, grant := s.cfg F.FEC_GRANT_grant, resCap := s.cfg F.FEC_RES_CTRL_res_cap,
      laneMax := s.cfg F.FEC_RES_CTRL_lane_max, ctrl := s.inForceReg R.FEC_CTRL, coreEn := s.cfg F.FEC_CORE_EN_en,
      histBase := s.cfg F.FEC_HIST_BASE_base, histEn := s.cfgOn F.FEC_HIST_CTRL_en } := by
    rw [State.takeFecConfig_dp hwaits]
    simp only [State.fecTaken, State.onPool_dp_pool, State.cfg_congr hin, State.cfgOn_congr hin, State.inForceReg, hin]
  have hpool := State.ticked_pool (v := s.tickBegun.takeFecConfig)
  rw [hvalues] at hpool
  obtain ⟨hburst, hqueue, hring, hdp⟩ := tickBegun_keeps (s := s)
  refine ⟨by rw [hpool], by rw [hpool], by rw [hpool], by rw [hpool], by rw [hpool], by rw [hpool], by rw [hpool], by rw [hpool],
    by rw [hpool], by rw [hpool]; exact hburst, by rw [hpool]; exact hqueue, fun hmoved => ?_, ?_, ?_, ?_⟩
  · rw [hpool] at hmoved
    rw [State.ticked_touches.2.1 _ (by
      rintro (ha | ha)
      · exact absurd ha (by decide)
      · exact State.not_noticeReg_of_optical (by decide) ha)]
    exact State.takeFecConfig_wptr hwaits (by rw [State.cfg_congr hin, hring]; exact hmoved)
  · rw [State.ticked_settlePool, State.takeFecConfig_of_staged hwaits, State.poolSettled_settlePool]
  · rw [State.ticked_rest, State.takeFecConfig_dp hwaits]
    exact congrArg (fun d : Datapath => { d with pool := s.tickBegun.takeFecConfig.ticked.dp.pool }) hdp
  · refine (tickBegun_touches.mono (by simp) (by simp)).trans (Touches.trans ((State.takeFecConfig_touches hwaits).mono (by simp) ?_)
      (State.ticked_touches.mono (fun _ h => h) ?_))
    · rintro a (ha | ha)
      · exact .inr (.inl ha)
      · exact .inr (.inr (.inl ha))
    · rintro a (ha | ha)
      · exact .inl ha
      · exact .inr (.inr (.inr ha))

end

/-- Settles O37: an arrival, a dispatch, an expiry and a tick are each taken apart into their steps. -/
theorem unitsArriveAndDecode : Obligations.UnitsArriveAndDecode := by
  unfold Obligations.UnitsArriveAndDecode
  refine ⟨fun s n now burst displaced poison => ⟨codewordArrive_leaves, fun k e hidle he _ =>
    ⟨coreDispatch_loads hidle he, coreDispatch_releases hidle he⟩, fun e => notDispatchedExpire_releases⟩, fun s hcv hoff => ?_⟩
  exact ⟨poolTick_running hcv hoff, poolTick_first hcv hoff, poolTick_staged hcv hoff⟩

end Sys2Proof.Machine
end

section
/-!
What the rules of the pool's cores rest on: bits, counters and high-water marks as a later state reads them (R4, R11), and the count of
an uncorrectable read (R357).
-/

namespace Sys2Proof.Machine

/-! ## Bits of a field -/

theorem bitOf_eq_testBit (v i : Nat) : bitOf v i = v.testBit i := by
  rw [bitOf, Nat.testBit_eq_decide_div_mod_eq]
  rfl

/-- A bit that is set reads as set. -/
theorem bitOf_setBit_true (m i : Nat) : bitOf (setBit m i true) i = true := by
  unfold setBit
  by_cases h : bitOf m i = true
  · rw [h]
    exact h
  · rw [if_neg (by simpa using h), if_pos rfl, bitOf_eq_testBit, Nat.add_comm, Nat.testBit_two_pow_add_eq, ← bitOf_eq_testBit]
    simpa using h

/-- A field holds the bits that lie in its width. -/
theorem bitOf_mod_two_pow {m n i : Nat} (h : i < n) : bitOf (m % 2 ^ n) i = bitOf m i := by
  rw [bitOf_eq_testBit, bitOf_eq_testBit, Nat.testBit_mod_two_pow, decide_eq_true h, Bool.true_and]

/-! ## Counters and high-water marks -/

section
variable {s t u v : State} {a n : Nat}

/-- A count made between two states holds between any others that read the counter as they do. -/
theorem counted_congr (h : Claims.counted u v a n) (hs : u.reg a = s.reg a) (ht : t.reg a = v.reg a) : Claims.counted s t a n := by
  rw [Claims.counted, ht, ← hs]
  exact h

namespace State

/-- What a high-water mark becomes depends on its register alone. -/
theorem raiseMax_reg_same {f : RField} {x : Nat} (h : t.reg f.addr = s.reg f.addr) :
    (t.raiseMax f x).reg f.addr = (s.raiseMax f x).reg f.addr := by
  have hrd : t.rd f = s.rd f := congrArg (getField · _ _) h
  unfold raiseMax
  rw [hrd]
  split
  · rw [wr, wr, reg_setReg_same, reg_setReg_same, h]
  · exact h

theorem not_noticeReg_sramUe : ¬ noticeReg R.MEM_SRAM_UE_CNT := by
  unfold noticeReg engReg
  decide

/-- An uncorrectable read of SRAM is counted (R357). -/
theorem uncorrectable_counted {scrub : Bool} {loc syn : Nat} :
    Claims.counted s (s.uncorrectable false scrub loc syn) R.MEM_SRAM_UE_CNT 1 := by
  refine counted_congr (counted_bump s R.MEM_SRAM_UE_CNT) rfl ?_
  unfold uncorrectable
  rw [reg_logEvent_of_not_notice not_noticeReg_sramUe,
    (setInt_touches _ _).2.1 _ (fun h => h.elim (by decide) fun h => not_noticeReg_sramUe (.inr (.inr (.inr h)))),
    reg_setReg_ne _ _ _ _ (by decide), reg_setReg_ne _ _ _ _ (by decide)]
  rfl

end State
end
end Sys2Proof.Machine
end

section
/-!
What a core's codeword becomes (R111–R113, R116–R118): its decision, its next iteration, and the credit that funds it.
-/

namespace Sys2Proof.Machine

/-- The decision of core `k` on its codeword as the hard decisions stand (R112, R113, R126). -/
def Work.decision (w : Work) (k : Fin 16) (outcome made : Nat) : Decision :=
  { entry := w.entry, core := some k.val, made := made, outcome := outcome, iter := w.iter,
    corr := State.corrCount w.codes (hardBits w.post), bits := hardBits w.post, poison := w.poison }

/-- The work after one more iteration, which gave `it` for its posteriors and messages (R111). -/
def Work.iterated (w : Work) (it : List Int × List Int) : Work := { w with post := it.1, msgs := it.2, iter := w.iter + 1 }

/-- Decision `d` joins those that wait for their release record, and its time is within the largest shown (R126, R132). -/
def Decides (s : State) (d : Decision) (t : State) : Prop :=
  t.dp.pool.decisions = s.dp.pool.decisions ++ [d]
    ∧ t.reg R.FEC_LAT_MAX = (s.raiseMax F.FEC_LAT_MAX_cycles (d.made - d.entry.arrival)).reg R.FEC_LAT_MAX

/-- Core `k` is idle, and beside the decisions nothing else has changed. -/
def Idles (k : Fin 16) (s t : State) : Prop :=
  t.dp.pool = { s.dp.pool with
      decisions := t.dp.pool.decisions, cores := s.dp.pool.cores.set k { s.dp.pool.cores[k] with work := none } }
    ∧ t.dp = { s.dp with pool := t.dp.pool } ∧ Touches [.dp] (· = R.FEC_LAT_MAX) s t

/-- Core `k` goes on with work `v`, and beside the credit nothing else of the datapath has changed. -/
def GoesOn (k : Fin 16) (v : Work) (s t : State) : Prop :=
  t.dp.pool = { s.dp.pool with
      cores := s.dp.pool.cores.set k { s.dp.pool.cores[k] with work := some v },
      bal := t.dp.pool.bal, reserve := t.dp.pool.reserve, drawn := t.dp.pool.drawn }
    ∧ t.dp = { s.dp with pool := t.dp.pool }

section
variable {s t u : State} {k : Fin 16} {w v : Work} {n : Fin 8} {outcome made : Nat}

/-- A decision is the same from another state that holds the same decisions and shows the same largest time. -/
theorem Decides.congr {d : Decision} (h : Decides u d t) (hdp : u.dp = s.dp) (hreg : u.reg R.FEC_LAT_MAX = s.reg R.FEC_LAT_MAX) :
    Decides s d t := by
  obtain ⟨hdecisions, hmax⟩ := h
  exact ⟨hdp ▸ hdecisions, hmax.trans (State.raiseMax_reg_same hreg)⟩

/-- A decision stands in a later state that keeps the decisions and the largest time. -/
theorem Decides.kept {d : Decision} (h : Decides s d t) (hpool : u.dp.pool.decisions = t.dp.pool.decisions)
    (hreg : u.reg R.FEC_LAT_MAX = t.reg R.FEC_LAT_MAX) : Decides s d u := by
  obtain ⟨hdecisions, hmax⟩ := h
  exact ⟨hpool.trans hdecisions, hreg.trans hmax⟩

namespace State

/-! ## A decision -/

/-- The core's decision on `w` waits for its release record. -/
def decidedOn (s : State) (k : Fin 16) (w : Work) (outcome made : Nat) : State :=
  s.decide_ w.entry (some k.val) outcome w.iter made w.codes (hardBits w.post) w.poison

theorem decidedOn_dp : (s.decidedOn k w outcome made).dp =
    { s.dp with pool := { s.dp.pool with decisions := s.dp.pool.decisions ++ [w.decision k outcome made] } } := by
  unfold decidedOn decide_ onPool onDp
  dsimp only
  rw [raiseMax_dp]
  rfl

theorem decidedOn_touches : Touches [.dp] (· = R.FEC_LAT_MAX) s (s.decidedOn k w outcome made) :=
  ((raiseMax_touches _ _ _).mono (by simp) fun _ h => h).onPool

theorem decidedOn_decides : Decides s (w.decision k outcome made) (s.decidedOn k w outcome made) :=
  ⟨by rw [decidedOn_dp], rfl⟩

theorem decideWork_of_held (h : w.released = false) :
    s.decideWork k w outcome made = (s.decidedOn k w outcome made).onCore k fun c => { c with work := none } := by
  unfold decideWork
  rw [h]
  rfl

theorem decideWork_dp (h : w.released = false) : (s.decideWork k w outcome made).dp = { s.dp with pool := { s.dp.pool with
    decisions := s.dp.pool.decisions ++ [w.decision k outcome made],
    cores := s.dp.pool.cores.set k { s.dp.pool.cores[k] with work := none } } } := by
  rw [decideWork_of_held h]
  unfold onCore onPool onDp
  dsimp only
  rw [decidedOn_dp]

theorem decideWork_touches (h : w.released = false) : Touches [.dp] (· = R.FEC_LAT_MAX) s (s.decideWork k w outcome made) := by
  rw [decideWork_of_held h]
  exact decidedOn_touches.onPool

theorem decideWork_decides (h : w.released = false) : Decides s (w.decision k outcome made) (s.decideWork k w outcome made) := by
  rw [decideWork_of_held h]
  exact decidedOn_decides.kept rfl rfl

theorem decideWork_idles (h : w.released = false) : Idles k s (s.decideWork k w outcome made) := by
  refine ⟨?_, ?_, decideWork_touches h⟩ <;> rw [decideWork_dp h]

/-! ## The next iteration -/

/-- Core `k` goes on with `v` until `ends`. -/
def takesNext (s : State) (k : Fin 16) (v : Work) (ends : Nat) : State :=
  s.onCore k fun c => { c with work := some { v with ends := ends } }

/-- A lane that has the credit goes on with `v`, and one that lacks it has the codeword decided (R116). -/
def fundedNext (s : State) (k : Fin 16) (v : Work) : State :=
  match s.fund (Fin.ofNat 8 v.entry.lane) with
  | some u => u.takesNext k v (s.ends v.ends 16)
  | none => s.decideWork k v 3 v.ends

/-- What follows an iteration after which the work is `v` (R111, R112, R116, R118). -/
def afterIteration (s : State) (k : Fin 16) (v : Work) : State :=
  if s.minIter ≤ v.iter ∧ innerCode.satisfied (hardBits v.post) = true then s.decideWork k v (crcOutcome (hardBits v.post)) v.ends
  else if s.maxIter ≤ v.iter ∨ v.entry.deadline < s.ends v.ends 16 then s.decideWork k v 2 v.ends
  else if v.iter < v.paid then s.takesNext k v (s.ends v.ends 16)
  else s.fundedNext k v

end State

/-- The decoder's answer is a pair of variables before anything is reduced: the kernel would evaluate the decoder otherwise. -/
theorem exec_iterationEnd (hwork : s.dp.pool.cores[k].work = some w) (hheld : w.released = false) :
    exec (.iterationEnd k) s = .next (s.afterIteration k (w.iterated (innerCode.iterate s.alpha w.post w.msgs))) := by
  change execIterationEnd k s = _
  unfold execIterationEnd State.afterIteration Work.iterated
  rw [hwork]
  refine (if_neg (by rw [hheld]; exact Bool.false_ne_true)).trans ?_
  obtain ⟨post, msgs⟩ := innerCode.iterate s.alpha w.post w.msgs
  dsimp only
  by_cases hdone : s.minIter ≤ w.iter + 1 ∧ innerCode.satisfied (hardBits post) = true
  · rw [if_pos hdone, if_pos hdone]
  · rw [if_neg hdone, if_neg hdone]
    by_cases hmax : s.maxIter ≤ w.iter + 1
    · rw [if_pos hmax, if_pos (.inl hmax)]
    · rw [if_neg hmax]
      by_cases hlate : w.entry.deadline < s.ends w.ends 16
      · rw [if_pos hlate, if_pos (.inr hlate)]
      · rw [if_neg hlate, if_neg (not_or.2 ⟨hmax, hlate⟩)]
        split
        · rfl
        · unfold State.fundedNext
          cases s.fund (Fin.ofNat 8 w.entry.lane) <;> rfl

theorem exec_iterationEnd_released (hwork : s.dp.pool.cores[k].work = some w) (hreleased : w.released = true) :
    exec (.iterationEnd k) s = .next (s.onCore k fun c => { c with work := none }) := by
  change execIterationEnd k s = _
  unfold execIterationEnd
  rw [hwork]
  exact if_pos hreleased

/-! ## Credit (R116) -/

namespace State

/-- The cycles that a lane's balance gives towards an iteration. -/
def own (s : State) (n : Fin 8) : Nat := (max (s.bal n) 0).toNat

/-- The reserve gives what the balance lacks. -/
def Lends (s : State) (n : Fin 8) : Prop := 16 - s.own n ≤ s.dp.pool.reserve ∧ s.dp.pool.drawn[n] + (16 - s.own n) ≤ s.dp.pool.laneMax

/-- The balance is used up, and the reserve has given the rest. -/
def borrowed (s : State) (n : Fin 8) : State :=
  ((s.onPool fun p =>
      { p with reserve := p.reserve - (16 - s.own n), drawn := p.drawn.set n (p.drawn[n] + (16 - s.own n)) }).setBal n
    (s.bal n - s.own n)).bumpWrap (R.FEC_LANEn_RES_DRAW n) (16 - s.own n)

theorem fund_of_own (h : 16 ≤ s.bal n) : s.fund n = some (s.setBal n (s.bal n - 16)) :=
  if_pos (by omega)

theorem fund_of_short (h : s.bal n < 16) : s.fund n =
    if 16 - s.own n ≤ s.dp.pool.reserve ∧ s.dp.pool.drawn[n] + (16 - s.own n) ≤ s.dp.pool.laneMax then some (s.borrowed n)
    else none :=
  if_neg (by omega)

theorem fund_of_lends (h : s.bal n < 16) (hlends : s.Lends n) : s.fund n = some (s.borrowed n) :=
  (fund_of_short h).trans (if_pos hlends)

theorem fund_of_not_lends (h : s.bal n < 16) (hlends : ¬ s.Lends n) : s.fund n = none :=
  (fund_of_short h).trans (if_neg hlends)

end State
end
end Sys2Proof.Machine
end

section
/-!
What ITERATION_END and CODEWORD_DEADLINE answer, as O38 says it (R111–R113, R116–R118).
-/

namespace Sys2Proof.Machine

section
variable {s : State} {k : Fin 16} {w : Work}

/-! ## The iteration after which a codeword is decided or goes on -/

/-- The checks are satisfied by work `v`, and min_iter iterations have run (R112). -/
def Converged (s : State) (v : Work) : Prop := s.minIter ≤ v.iter ∧ innerCode.satisfied (hardBits v.post) = true

/-- The limit lets another iteration run, and it ends by the deadline (R112, R118). -/
def Timely (s : State) (v : Work) : Prop := v.iter < s.maxIter ∧ s.ends v.ends 16 ≤ v.entry.deadline

namespace State

section
variable {u : State} {v : Work}

theorem afterIteration_converged (h : Converged s v) :
    s.afterIteration k v = s.decideWork k v (crcOutcome (hardBits v.post)) v.ends := by
  unfold afterIteration
  unfold Converged at h
  rw [if_pos h]

theorem afterIteration_untimely (hopen : ¬ Converged s v) (hlate : ¬ Timely s v) :
    s.afterIteration k v = s.decideWork k v 2 v.ends := by
  have hends : s.maxIter ≤ v.iter ∨ v.entry.deadline < s.ends v.ends 16 := by
    unfold Timely at hlate
    omega
  unfold afterIteration
  unfold Converged at hopen
  rw [if_neg hopen, if_pos hends]

/-- Where neither holds, the work goes on if it is paid for, and else as its lane funds it. -/
theorem afterIteration_timely (hopen : ¬ Converged s v) (htime : Timely s v) : s.afterIteration k v =
    if v.iter < v.paid then s.takesNext k v (s.ends v.ends 16)
    else s.fundedNext k v := by
  have hends : ¬ (s.maxIter ≤ v.iter ∨ v.entry.deadline < s.ends v.ends 16) := by
    unfold Timely at htime
    omega
  unfold afterIteration
  unfold Converged at hopen
  rw [if_neg hopen, if_neg hends]

theorem afterIteration_paid (hopen : ¬ Converged s v) (htime : Timely s v) (hpaid : v.iter < v.paid) :
    s.afterIteration k v = s.takesNext k v (s.ends v.ends 16) := by
  rw [afterIteration_timely hopen htime, if_pos hpaid]

theorem afterIteration_funded (hopen : ¬ Converged s v) (htime : Timely s v) (hpaid : v.paid ≤ v.iter)
    (hfund : s.fund (Fin.ofNat 8 v.entry.lane) = some u) : s.afterIteration k v = u.takesNext k v (s.ends v.ends 16) := by
  rw [afterIteration_timely hopen htime, if_neg (Nat.not_lt.2 hpaid), fundedNext, hfund]

theorem afterIteration_unfunded (hopen : ¬ Converged s v) (htime : Timely s v) (hpaid : v.paid ≤ v.iter)
    (hfund : s.fund (Fin.ofNat 8 v.entry.lane) = none) : s.afterIteration k v = s.decideWork k v 3 v.ends := by
  rw [afterIteration_timely hopen htime, if_neg (Nat.not_lt.2 hpaid), fundedNext, hfund]

end

end State

/-! ## What the commands answer -/

section
variable {v : Work}

/-- A decision after the iteration, with outcome `outcome`, leaves the core idle. -/
theorem iterationEnd_decides {outcome : Nat} (hexec : exec (.iterationEnd k) s = .next (s.afterIteration k v)) (hheld : v.released = false)
    (h : s.afterIteration k v = s.decideWork k v outcome v.ends) :
    Answers (.iterationEnd k) s fun t => Decides s (v.decision k outcome v.ends) t ∧ Idles k s t := by
  rw [h] at hexec
  exact ⟨_, hexec, State.decideWork_decides hheld, State.decideWork_idles hheld⟩

/-- Iterations that the dispatch has charged cost no more (R116). -/
theorem iterationEnd_paid (hexec : exec (.iterationEnd k) s = .next (s.afterIteration k v)) (hopen : ¬ Converged s v)
    (htime : Timely s v) (hpaid : v.iter < v.paid) : Answers (.iterationEnd k) s fun t =>
      GoesOn k { v with ends := s.ends v.ends 16 } s t ∧ t.dp.pool.bal = s.dp.pool.bal ∧ t.dp.pool.reserve = s.dp.pool.reserve
      ∧ Touches [.dp] (fun _ => False) s t := by
  rw [State.afterIteration_paid hopen htime hpaid] at hexec
  exact ⟨_, hexec, ⟨rfl, rfl⟩, rfl, rfl, (Touches.refl _ _ s).onPool⟩

/-- The lane's balance pays for the next iteration. -/
theorem iterationEnd_ownCredit (hexec : exec (.iterationEnd k) s = .next (s.afterIteration k v)) (hopen : ¬ Converged s v)
    (htime : Timely s v) (hpaid : v.paid ≤ v.iter) (hown : 16 ≤ s.bal (Fin.ofNat 8 v.entry.lane)) :
    Answers (.iterationEnd k) s fun t =>
      let n := Fin.ofNat 8 v.entry.lane
      GoesOn k { v with ends := s.ends v.ends 16 } s t ∧ t.dp.pool.bal = s.dp.pool.bal.set n (s.bal n - 16)
      ∧ t.dp.pool.reserve = s.dp.pool.reserve ∧ t.dp.pool.drawn = s.dp.pool.drawn ∧ Touches [.dp] (fun _ => False) s t := by
  rw [State.afterIteration_funded hopen htime hpaid (State.fund_of_own hown)] at hexec
  have hcharged : Touches [.dp] (fun _ => False) s (s.setBal (Fin.ofNat 8 v.entry.lane) (s.bal (Fin.ofNat 8 v.entry.lane) - 16)) :=
    (Touches.refl _ _ s).onPool
  exact ⟨_, hexec, ⟨rfl, rfl⟩, rfl, rfl, rfl, hcharged.onPool⟩

/-- The reserve gives what the balance lacks. -/
theorem iterationEnd_lentCredit (hexec : exec (.iterationEnd k) s = .next (s.afterIteration k v)) (hopen : ¬ Converged s v)
    (htime : Timely s v) (hpaid : v.paid ≤ v.iter) (hshort : s.bal (Fin.ofNat 8 v.entry.lane) < 16)
    (hlends : s.Lends (Fin.ofNat 8 v.entry.lane)) : Answers (.iterationEnd k) s fun t =>
      let n := Fin.ofNat 8 v.entry.lane
      GoesOn k { v with ends := s.ends v.ends 16 } s t ∧ t.dp.pool.bal = s.dp.pool.bal.set n (s.bal n - s.own n)
      ∧ t.dp.pool.reserve = s.dp.pool.reserve - (16 - s.own n)
      ∧ t.dp.pool.drawn = s.dp.pool.drawn.set n (s.dp.pool.drawn[n] + (16 - s.own n))
      ∧ t.reg (R.FEC_LANEn_RES_DRAW n) = s.reg (R.FEC_LANEn_RES_DRAW n) + BitVec.ofNat 32 (16 - s.own n)
      ∧ Touches [.dp] (· = R.FEC_LANEn_RES_DRAW n) s t := by
  rw [State.afterIteration_funded hopen htime hpaid (State.fund_of_lends hshort hlends)] at hexec
  have hlent : Touches [.dp] (· = R.FEC_LANEn_RES_DRAW (Fin.ofNat 8 v.entry.lane)) s (s.borrowed (Fin.ofNat 8 v.entry.lane)) :=
    (Touches.onPool (Touches.onPool (.refl _ _ _))).setReg rfl
  exact ⟨_, hexec, ⟨rfl, rfl⟩, rfl, rfl, rfl, State.reg_bumpWrap_same _ _ _, hlent.onPool⟩

end

/-- The deadline of a codeword that the core still holds (R117). -/
theorem codewordDeadline_releases (hwork : s.dp.pool.cores[k].work = some w) (hheld : w.released = false) :
    Answers (.codewordDeadline k) s fun t =>
      Decides s (w.decision k 4 w.entry.deadline) t
      ∧ t.dp.pool.cores = s.dp.pool.cores.set k { s.dp.pool.cores[k] with work := some { w with released := true } }
      ∧ t.dp = { s.dp with pool := { s.dp.pool with decisions := t.dp.pool.decisions, cores := t.dp.pool.cores } }
      ∧ Touches [.dp] (· = R.FEC_LAT_MAX) s t := by
  refine ⟨(s.decidedOn k w 4 w.entry.deadline).onCore k fun c => { c with work := some { w with released := true } }, ?_,
    State.decidedOn_decides.kept rfl rfl, ?_, ?_, State.decidedOn_touches.onPool⟩
  · change execCodewordDeadline k s = _
    unfold execCodewordDeadline
    rw [hwork]
    exact if_neg (by rw [hheld]; exact Bool.false_ne_true)
  · unfold State.onCore
    rw [State.onPool_dp_pool, State.decidedOn_dp]
  · unfold State.onCore State.onPool State.onDp
    dsimp only
    rw [State.decidedOn_dp]

/-- The end of work whose codeword its deadline has released leaves the core idle (R117). -/
theorem iterationEnd_released (hwork : s.dp.pool.cores[k].work = some w) (hreleased : w.released = true) :
    Answers (.iterationEnd k) s fun t =>
      t.dp = { s.dp with pool := { s.dp.pool with cores := s.dp.pool.cores.set k { s.dp.pool.cores[k] with work := none } } }
      ∧ Touches [.dp] (fun _ => False) s t :=
  ⟨_, exec_iterationEnd_released hwork hreleased, rfl, (Touches.refl _ _ s).onPool⟩

end
end Sys2Proof.Machine
end

section
/-!
Cores that fail (R120): what mapping a core out leaves, after a stall and after errors of its message memory.
-/

namespace Sys2Proof.Machine

/-- The registers that a core's failure writes. -/
def failReg (a : Nat) : Prop := a = R.FEC_CORE_STAT ∨ a = R.FEC_CNT_MAPOUT ∨ a = R.FEC_STAT ∨ noticeReg a

theorem not_failReg_sramUe : ¬ failReg R.MEM_SRAM_UE_CNT := by
  rintro (h | h | h | h)
  case inr.inr.inr => exact State.not_noticeReg_sramUe h
  all_goals exact absurd h (by decide)

section
variable {s t u : State} {k : Fin 16} {w : Work} {row now : Nat}

namespace State

/-! ## CORE_MAP_OUT -/

/-- Core `k` is shown as failed, and that is counted, logged and reviewed. -/
def coreFailed (s : State) (k : Fin 16) (row : Nat) : State :=
  (((s.wrBit F.FEC_CORE_STAT_failed k true).bump R.FEC_CNT_MAPOUT).logEvent srcFec 0x7001 k.val row).reviewCores

theorem coreFailed_touches : Touches [.mgmt, .eng, .evr] failReg s (s.coreFailed k row) := by
  have hcounted : Touches [.mgmt, .eng, .evr] failReg s ((s.wrBit F.FEC_CORE_STAT_failed k true).bump R.FEC_CNT_MAPOUT) :=
    ((Touches.refl _ _ s).wr (.inl rfl)).bump (.inr (.inl rfl))
  exact (hcounted.logEvent (by decide) fun _ h => .inr (.inr (.inr h))).trans
    (reviewCores_touches.mono (fun _ h => h) fun _ h => .inr (.inr h))

theorem coreFailed_dp : (s.coreFailed k row).dp = s.dp := coreFailed_touches.1 .dp (by decide)

/-- The log and the review write none of the pool's registers but FEC_STAT. -/
theorem coreFailed_reg {a : Nat} (h : 0x200000 ≤ a) (hstat : a ≠ R.FEC_STAT) :
    (s.coreFailed k row).reg a = ((s.wrBit F.FEC_CORE_STAT_failed k true).bump R.FEC_CNT_MAPOUT).reg a := by
  unfold coreFailed
  rw [reviewCores_reg h, reg_wr_ne _ _ _ _ hstat, reg_logEvent_of_not_notice (not_noticeReg_of_optical h)]

theorem coreFailed_latMax : (s.coreFailed k row).reg R.FEC_LAT_MAX = s.reg R.FEC_LAT_MAX := by
  rw [coreFailed_reg (by decide) (by decide)]
  exact (reg_bumpBy_ne _ _ _ _ (by decide)).trans (reg_wr_ne _ _ _ _ (by decide))

theorem coreFailed_inactive : (s.coreFailed k row).coreActive k = false := by
  have hstat : (s.coreFailed k row).reg R.FEC_CORE_STAT = (s.wrBit F.FEC_CORE_STAT_failed k true).reg R.FEC_CORE_STAT := by
    rw [coreFailed_reg (by decide) (by decide)]
    exact reg_bumpBy_ne _ _ _ _ (by decide)
  have hfailed : (s.coreFailed k row).failedCores = setBit (s.rd F.FEC_CORE_STAT_failed) k true % 2 ^ 16 :=
    (congrArg (getField · _ _) hstat).trans (rd_wr_same _ _ _ (by decide))
  unfold coreActive
  rw [hfailed, bitOf_mod_two_pow k.isLt, bitOf_setBit_true, Bool.not_true, Bool.and_false]

theorem coreFailed_counted : Claims.counted s (s.coreFailed k row) R.FEC_CNT_MAPOUT 1 :=
  counted_congr (counted_bump (s.wrBit F.FEC_CORE_STAT_failed k true) R.FEC_CNT_MAPOUT) (reg_wr_ne _ _ _ _ (by decide))
    (coreFailed_reg (by decide) (by decide))

theorem mapOut_of_work {at_ : Work → Nat} (hok : bitOf s.failedCores k = false) (hwork : s.dp.pool.cores[k].work = some w) :
    s.mapOut k row at_ = (s.decideWork k w 4 (at_ w)).coreFailed k row := by
  unfold mapOut
  rw [if_neg (by rw [hok]; exact Bool.false_ne_true), hwork]
  rfl

theorem mapOut_of_idle {at_ : Work → Nat} (hok : bitOf s.failedCores k = false) (hwork : s.dp.pool.cores[k].work = none) :
    s.mapOut k row at_ = s.coreFailed k row := by
  unfold mapOut
  rw [if_neg (by rw [hok]; exact Bool.false_ne_true), hwork]
  rfl

end State

/-- Core `k` is mapped out, with `ues` for the errors of its message memory; the other cores stand (R120). -/
def MappedOut (k : Fin 16) (ues : List Nat) (s t : State) : Prop :=
  t.dp.pool.cores[k].work = none ∧ t.dp.pool.cores[k].ues = ues ∧ t.coreActive k = false
    ∧ Claims.counted s t R.FEC_CNT_MAPOUT 1
    ∧ t.dp = { s.dp with pool := { s.dp.pool with cores := t.dp.pool.cores, decisions := t.dp.pool.decisions } }
    ∧ (∀ j : Fin 16, j ≠ k → t.dp.pool.cores[j] = s.dp.pool.cores[j])

/-- A core fails once its codeword is decided: `u` is the state in which it is idle, and at most FEC_LAT_MAX of the pool's registers
has changed until then. -/
theorem coreFailed_mapsOut {d : List Decision} (c : PoolCore)
    (hdp : u.dp = { s.dp with pool := { s.dp.pool with decisions := d, cores := s.dp.pool.cores.set k c } }) (hidle : c.work = none)
    (hmapouts : u.reg R.FEC_CNT_MAPOUT = s.reg R.FEC_CNT_MAPOUT) : MappedOut k c.ues s (u.coreFailed k row) := by
  have hafter : (u.coreFailed k row).dp = _ := State.coreFailed_dp.trans hdp
  have hcore : (u.coreFailed k row).dp.pool.cores[k] = c := by
    simp only [hafter]
    exact Vector.getElem_set_self k.isLt
  refine ⟨(congrArg PoolCore.work hcore).trans hidle, congrArg PoolCore.ues hcore, State.coreFailed_inactive,
    counted_congr State.coreFailed_counted hmapouts rfl, ?_, fun j hj => ?_⟩
  · rw [hafter]
  · simp only [hafter]
    exact Vector.getElem_set_ne k.isLt j.isLt fun h => hj (Fin.ext h.symm)

/-! ## A stall -/

/-- A core that stalls is mapped out 32 cycles after its work should have ended. -/
theorem coreStall_mapsOut (hwork : s.dp.pool.cores[k].work = some w) (hheld : w.released = false)
    (hok : bitOf s.failedCores k = false) : Answers (.coreStall k) s fun t =>
      Decides s (w.decision k 4 (w.ends + 32)) t ∧ MappedOut k s.dp.pool.cores[k].ues s t
      ∧ Touches [.dp, .mgmt, .eng, .evr] (fun a => a = R.FEC_LAT_MAX ∨ failReg a) s t := by
  refine ⟨(s.decideWork k w 4 (w.ends + 32)).coreFailed k 1, ?_, ?_, ?_, ?_⟩
  · change execCoreStall k s = _
    unfold execCoreStall
    rw [hwork]
    exact congrArg Host.Outcome.next (State.mapOut_of_work hok hwork)
  · exact (State.decideWork_decides hheld).kept (congrArg (·.pool.decisions) State.coreFailed_dp) State.coreFailed_latMax
  · exact coreFailed_mapsOut { s.dp.pool.cores[k] with work := none } (State.decideWork_dp hheld) rfl
      ((State.decideWork_touches hheld).2.1 _ (by decide))
  · exact ((State.decideWork_touches hheld).mono (by simp) fun _ => .inl).trans
      (State.coreFailed_touches.mono (by simp) fun _ => .inr)

/-! ## Errors of a message memory -/

/-- The core cycles of a core's errors that count at `now`, with the one of now (R120). -/
def PoolCore.uesWith (c : PoolCore) (now : Nat) : List Nat := now :: c.ues.filter fun t => decide (now - t < 2 ^ 24)

theorem PoolCore.uesWith_of_nil {c : PoolCore} (h : c.ues = []) : c.uesWith now = [now] := by rw [uesWith, h, List.filter_nil]

theorem PoolCore.uesWith_of_now {c : PoolCore} (h : c.ues = [now]) : c.uesWith now = [now, now] := by
  rw [uesWith, h, List.filter_singleton, Nat.sub_self]
  rfl

namespace State

/-- The read counts as uncorrectable; its place and its syndrome are free (R357). -/
def messageReadLost (s : State) : State := s.drew.drew.uncorrectable false false (2 ^ 21 + s.freeNat % 2 ^ 21) (s.drew.freeNat % 255)

theorem messageReadLost_touches : Touches [.eng, .evr] Claims.ueReg s s.messageReadLost :=
  (((drew_touches _).trans (drew_touches _)).mono (by simp) (by simp)).trans (uncorrectable_touches _ _ _ _ _)

theorem messageReadLost_dp : s.messageReadLost.dp = s.dp := messageReadLost_touches.1 .dp (by decide)

theorem messageReadLost_counted : Claims.counted s s.messageReadLost R.MEM_SRAM_UE_CNT 1 :=
  counted_congr (uncorrectable_counted (s := s.drew.drew)) rfl rfl

/-- The codeword that the core holds, if it holds one, is decided. -/
def heldDecided (s : State) (k : Fin 16) (now : Nat) : State :=
  match s.dp.pool.cores[k].work with
  | some w => s.decideWork k w 4 now
  | none => s

/-- The error stands in the core's record. -/
def ueNoted (s : State) (k : Fin 16) (now : Nat) : State := s.onCore k fun c => { c with ues := s.dp.pool.cores[k].uesWith now }

/-- The state in which it is told whether the core has failed. -/
def messageUeNoted (s : State) (k : Fin 16) (w : Work) (now : Nat) : State := (s.messageReadLost.decideWork k w 4 now).ueNoted k now

end State

theorem exec_messageMemoryUe_heldDecided (hcv : s.cvMode = true) : exec (.messageMemoryUe k now) s = .next
    (if 2 ≤ ((s.messageReadLost.heldDecided k now).dp.pool.cores[k].uesWith now).length
      then ((s.messageReadLost.heldDecided k now).ueNoted k now).mapOut k 2 fun _ => now
      else (s.messageReadLost.heldDecided k now).ueNoted k now) := by
  change execMessageMemoryUe k now s = _
  unfold execMessageMemoryUe
  rw [if_neg (by rw [hcv]; decide)]
  split
  next h => exact if_pos h
  next h => exact if_neg h

theorem decideWork_uesWith (hheld : w.released = false) :
    (s.messageReadLost.decideWork k w 4 now).dp.pool.cores[k].uesWith now = s.dp.pool.cores[k].uesWith now := by
  unfold PoolCore.uesWith
  simp only [State.decideWork_dp hheld, State.messageReadLost_dp, Fin.getElem_fin, Vector.getElem_set_self]

theorem exec_messageMemoryUe (hcv : s.cvMode = true) (hwork : s.dp.pool.cores[k].work = some w) (hheld : w.released = false) :
    exec (.messageMemoryUe k now) s = .next (if 2 ≤ (s.dp.pool.cores[k].uesWith now).length
      then (s.messageUeNoted k w now).mapOut k 2 fun _ => now else s.messageUeNoted k w now) := by
  have hdecided : s.messageReadLost.heldDecided k now = s.messageReadLost.decideWork k w 4 now := by
    unfold State.heldDecided
    simp only [State.messageReadLost_dp, hwork]
  rw [exec_messageMemoryUe_heldDecided hcv, hdecided, decideWork_uesWith hheld]
  rfl

/-- What the noted error leaves of the datapath. -/
theorem messageUeNoted_dp (hheld : w.released = false) : (s.messageUeNoted k w now).dp = { s.dp with pool := { s.dp.pool with
    decisions := s.dp.pool.decisions ++ [w.decision k 4 now],
    cores := s.dp.pool.cores.set k { s.dp.pool.cores[k] with work := none, ues := s.dp.pool.cores[k].uesWith now } } } := by
  unfold State.messageUeNoted State.ueNoted State.onCore State.onPool State.onDp
  dsimp only
  rw [decideWork_uesWith hheld, State.decideWork_dp hheld, State.messageReadLost_dp]
  simp only [Fin.getElem_fin, Vector.getElem_set_self, Vector.set_set]

theorem messageUeNoted_touches (hheld : w.released = false) :
    Touches [.dp, .eng, .evr] (fun a => a = R.FEC_LAT_MAX ∨ Claims.ueReg a) s (s.messageUeNoted k w now) :=
  ((State.messageReadLost_touches.mono (by simp) fun _ => .inr).trans
    ((State.decideWork_touches hheld).mono (by simp) fun _ => .inl)).onPool

theorem messageUeNoted_decides (hheld : w.released = false) : Decides s (w.decision k 4 now) (s.messageUeNoted k w now) :=
  ((State.decideWork_decides hheld).congr State.messageReadLost_dp
    (State.messageReadLost_touches.2.1 _ (not_ueReg_of_optical (by decide)))).kept rfl rfl

theorem messageUeNoted_counted (hheld : w.released = false) : Claims.counted s (s.messageUeNoted k w now) R.MEM_SRAM_UE_CNT 1 :=
  counted_congr State.messageReadLost_counted rfl ((State.decideWork_touches hheld).2.1 _ (by decide))

/-- The first error of a core's message memory ends its codeword alone. -/
theorem messageMemoryUe_decides (hcv : s.cvMode = true) (hwork : s.dp.pool.cores[k].work = some w) (hheld : w.released = false)
    (hfew : (s.dp.pool.cores[k].uesWith now).length < 2) : Answers (.messageMemoryUe k now) s fun t =>
      Decides s (w.decision k 4 now) t ∧ t.dp.pool.cores[k].work = none
      ∧ t.dp.pool.cores[k].ues = s.dp.pool.cores[k].uesWith now ∧ Claims.counted s t R.MEM_SRAM_UE_CNT 1
      ∧ Touches [.dp, .eng, .evr] (fun a => a = R.FEC_LAT_MAX ∨ Claims.ueReg a) s t := by
  have hexec := exec_messageMemoryUe (now := now) hcv hwork hheld
  rw [if_neg (Nat.not_le.2 hfew)] at hexec
  have hcore : (s.messageUeNoted k w now).dp.pool.cores[k] =
      { s.dp.pool.cores[k] with work := none, ues := s.dp.pool.cores[k].uesWith now } := by
    simp only [messageUeNoted_dp hheld]
    exact Vector.getElem_set_self k.isLt
  exact ⟨_, hexec, messageUeNoted_decides hheld, congrArg PoolCore.work hcore, congrArg PoolCore.ues hcore,
    messageUeNoted_counted hheld, messageUeNoted_touches hheld⟩

/-- A second error that counts maps the core out. -/
theorem messageMemoryUe_mapsOut (hcv : s.cvMode = true) (hwork : s.dp.pool.cores[k].work = some w) (hheld : w.released = false)
    (hok : bitOf s.failedCores k = false) (hmany : 2 ≤ (s.dp.pool.cores[k].uesWith now).length) :
    Answers (.messageMemoryUe k now) s fun t =>
      Decides s (w.decision k 4 now) t ∧ MappedOut k (s.dp.pool.cores[k].uesWith now) s t ∧ Claims.counted s t R.MEM_SRAM_UE_CNT 1
      ∧ Touches [.dp, .mgmt, .eng, .evr] (fun a => (a = R.FEC_LAT_MAX ∨ failReg a) ∨ Claims.ueReg a) s t := by
  have hexec := exec_messageMemoryUe (now := now) hcv hwork hheld
  have htouch := messageUeNoted_touches (s := s) (k := k) (now := now) hheld
  have hdp := messageUeNoted_dp (s := s) (k := k) (now := now) hheld
  have hpool {a : Nat} (h : 0x200000 ≤ a) (hmax : a ≠ R.FEC_LAT_MAX) : (s.messageUeNoted k w now).reg a = s.reg a :=
    htouch.2.1 a (not_or.2 ⟨hmax, not_ueReg_of_optical h⟩)
  have hstill : bitOf (s.messageUeNoted k w now).failedCores k = false := by
    rw [State.failedCores, State.rd, hpool (by decide) (by decide)]
    exact hok
  have hidle : (s.messageUeNoted k w now).dp.pool.cores[k].work = none := by
    simp only [hdp, Fin.getElem_fin, Vector.getElem_set_self]
  rw [if_pos hmany, State.mapOut_of_idle hstill hidle] at hexec
  refine ⟨_, hexec, (messageUeNoted_decides hheld).kept (congrArg (·.pool.decisions) State.coreFailed_dp) State.coreFailed_latMax,
    coreFailed_mapsOut _ hdp rfl (hpool (by decide) (by decide)),
    counted_congr (messageUeNoted_counted hheld) rfl (State.coreFailed_touches.2.1 _ not_failReg_sramUe), ?_⟩
  refine (htouch.mono (by simp) fun _ h => ?_).trans (State.coreFailed_touches.mono (by simp) fun _ h => .inl (.inr h))
  exact h.imp_left .inl

end
end Sys2Proof.Machine
end

section
/-!
Iterations, deadlines, and cores that fail (O38).
-/

namespace Sys2Proof.Machine

/-- Settles O38: what follows an iteration is `State.afterIteration`, with the decoder's answer held as a variable; a core that stalls, or
whose message memory errs, comes to `State.coreFailed`. -/
theorem iterationsAndCores : Obligations.IterationsAndCores := by
  unfold Obligations.IterationsAndCores
  intro s k w now hwork
  have hexec := exec_iterationEnd hwork
  obtain ⟨it, hit⟩ : ∃ it, innerCode.iterate s.alpha w.post w.msgs = it := ⟨_, rfl⟩
  rw [hit] at hexec ⊢
  refine ⟨fun hheld => ⟨fun hdone => ?_, fun hopen hlate => ?_, fun hopen htime hpaid => ?_, fun hopen htime hpaid _ =>
    ⟨fun hown => ?_, fun hshort hlends => ?_, fun hshort hpoor => ?_⟩, ?_, fun hok => ?_, fun hcv hok hues => ?_, fun hcv hues => ?_⟩,
    iterationEnd_released hwork⟩
  · exact iterationEnd_decides (hexec hheld) hheld (State.afterIteration_converged hdone)
  · exact iterationEnd_decides (hexec hheld) hheld (State.afterIteration_untimely hopen hlate)
  · exact iterationEnd_paid (hexec hheld) hopen htime hpaid
  · exact iterationEnd_ownCredit (hexec hheld) hopen htime hpaid hown
  · exact iterationEnd_lentCredit (hexec hheld) hopen htime hpaid hshort hlends
  · exact iterationEnd_decides (hexec hheld) hheld
      (State.afterIteration_unfunded hopen htime hpaid (State.fund_of_not_lends hshort hpoor))
  · exact codewordDeadline_releases hwork hheld
  · exact coreStall_mapsOut hwork hheld hok
  · have hboth := PoolCore.uesWith_of_now hues
    have h := messageMemoryUe_mapsOut hcv hwork hheld hok (by rw [hboth]; exact Nat.le_refl 2)
    rw [hboth] at h
    exact h
  · have hfirst := PoolCore.uesWith_of_nil (now := now) hues
    have h := messageMemoryUe_decides hcv hwork hheld (by rw [hfirst]; exact Nat.one_lt_two)
    rw [hfirst] at h
    exact h

end Sys2Proof.Machine
end

section
/-!
Bring-up pennants that wait (R140, R141, R228): what queueing one leaves, and what the invite timer queues in each step.
-/

namespace Sys2Proof.Machine

/-- Pennant `x` stands alone of its kind in priority `prio`; every other one waits as before, and beside the queue at most the link's
own state has changed. -/
def Queued (s t : State) (prio : Nat) (x : PenItem) : Prop :=
  t.dp.pen.waiting.filter (State.samePen prio x) = [(prio, x)]
  ∧ (∀ j, t.dp.pen.waiting.filter (fun y => y.1 == j && !State.samePen prio x y) =
      s.dp.pen.waiting.filter fun y => y.1 == j && !State.samePen prio x y)
  ∧ t.dp = { s.dp with pen := { s.dp.pen with waiting := t.dp.pen.waiting }, link := t.dp.link }
  ∧ Touches [.dp] (fun _ => False) s t

/-- A bring-up pennant (R140). -/
def bringupPen (payload : List Byte) (accept : Bool) : PenItem := { kind := 1, payload := payload, seq := none, accept := accept }

theorem samePen_self (prio : Nat) (x : PenItem) : State.samePen prio x (prio, x) = true := by
  simp [State.samePen]

/-- A queue without the pennants of one kind, with a new one of it behind those of no lower priority. -/
def requeue (w : List (Nat × PenItem)) (prio : Nat) (x : PenItem) : List (Nat × PenItem) :=
  let rest := w.filter fun y => !State.samePen prio x y
  rest.filter (decide <| ·.1 ≤ prio) ++ [(prio, x)] ++ rest.filter (decide <| prio < ·.1)

theorem requeue_same (w : List (Nat × PenItem)) (prio : Nat) (x : PenItem) :
    (requeue w prio x).filter (State.samePen prio x) = [(prio, x)] := by
  have hnone (p : Nat × PenItem → Bool) :
      ((w.filter fun y => !State.samePen prio x y).filter p).filter (State.samePen prio x) = [] := by
    rw [List.filter_eq_nil_iff]
    intro y hy
    simpa using (List.mem_filter.1 (List.mem_filter.1 hy).1).2
  rw [requeue, List.filter_append, List.filter_append, hnone, hnone, List.filter_singleton, samePen_self]
  rfl

/-- The pennants of the other kinds keep their places within each priority. -/
theorem requeue_other (w : List (Nat × PenItem)) (prio j : Nat) (x : PenItem) :
    (requeue w prio x).filter (fun y => y.1 == j && !State.samePen prio x y) =
      w.filter fun y => y.1 == j && !State.samePen prio x y := by
  have hnew : [(prio, x)].filter (fun y => y.1 == j && !State.samePen prio x y) = [] := by
    simp [samePen_self]
  have hpart (p : Nat × PenItem → Bool) :
      ((w.filter fun y => !State.samePen prio x y).filter p).filter (fun y => y.1 == j && !State.samePen prio x y) =
        (w.filter fun y => y.1 == j && !State.samePen prio x y).filter p := by
    simp only [List.filter_filter]
    exact List.filter_congr fun y _ => by
      cases State.samePen prio x y <;> simp [Bool.and_comm]
  have hpriority : ∀ y ∈ w.filter fun y => y.1 == j && !State.samePen prio x y, y.1 = j := fun y hy => by
    have hy := (List.mem_filter.1 hy).2
    rw [Bool.and_eq_true, beq_iff_eq] at hy
    exact hy.1
  rw [requeue, List.filter_append, List.filter_append, hnew, hpart, hpart, List.append_nil]
  rcases Nat.lt_or_ge prio j with h | h
  · rw [List.filter_eq_nil_iff.2 fun y hy => by simp [hpriority y hy, h], List.nil_append,
      List.filter_eq_self.2 fun y hy => by simp [hpriority y hy, h]]
  · have hlow : ∀ y ∈ w.filter fun y => y.1 == j && !State.samePen prio x y, ¬ decide (prio < y.1) = true := fun y hy => by
      simp [hpriority y hy, h]
    rw [List.filter_eq_self.2 fun y hy => by simp [hpriority y hy, h], List.filter_eq_nil_iff.2 hlow, List.append_nil]

namespace State

/-- An acknowledgement of mail apart, queueing takes the place of the pennant of the same kind that still waits (R140, R228). -/
theorem queuePen_eq {s : State} {prio : Nat} {x : PenItem} (h : prio ≠ 3) :
    s.queuePen prio x = s.onPen fun p => { p with waiting := requeue p.waiting prio x } := by
  simp only [queuePen, requeue, if_neg h]

theorem queuePen_queued {s : State} {prio : Nat} {x : PenItem} (h : prio ≠ 3) : Queued s (s.queuePen prio x) prio x := by
  rw [queuePen_eq h]
  exact ⟨requeue_same _ _ _, fun j => requeue_other _ _ j _, rfl, s.dp_touches _⟩

end State

section
variable {s : State}

/-- What the invite timer does, by the step (R141, R143). -/
theorem exec_inviteTimer_absent (h : s.dp.link.step = 9) :
    exec .inviteTimer s = .next (s.onLink fun l => { l with ignoring := false }).queueInvite := if_pos h

theorem exec_inviteTimer_invite (h : s.dp.link.step = 1) (hagain : s.dp.link.compatSeen = false ∨ s.dp.link.mismatch = true) :
    exec .inviteTimer s = .next s.queueInvite := by
  change execInviteTimer s = _
  unfold execInviteTimer
  rcases hagain with hseen | hmis
  · simp [h, hseen]
  · simp [h, hmis]

theorem exec_inviteTimer_accept (h : s.dp.link.step = 1) (hmis : s.dp.link.mismatch = false) (hseen : s.dp.link.compatSeen = true)
    (hcand : s.dp.link.cand ≠ 0) : exec .inviteTimer s = .next (s.queueAccept s.dp.link.cand) := by
  change execInviteTimer s = _
  unfold execInviteTimer
  simp [h, hmis, hseen, hcand]

theorem exec_inviteTimer_status (h2 : 2 ≤ s.dp.link.step) (h8 : s.dp.link.step ≤ 8) :
    exec .inviteTimer s = .next s.queueStatus := by
  change execInviteTimer s = _
  unfold execInviteTimer
  dsimp only
  rw [if_neg (by omega), if_neg (by omega), if_pos ⟨h2, h8⟩]

end
end Sys2Proof.Machine
end

section
/-!
A new attempt and the registers that leading up to one writes: a link that goes down (R158), an attempt that fails (R138), and a partner
that is absent (R159).
-/

namespace Sys2Proof.Machine

/-! ## The registers of bring-up -/

/-- What a failed attempt or a lost link may touch. -/
abbrev LinkTouches (s t : State) : Prop := Touches [.dp, .mgmt, .eng, .evr] Claims.linkReg s t

theorem linkReg_ledger {a : Nat} (h : 0x310000 ≤ a ∧ a < 0x310200) : Claims.linkReg a := .inl h

theorem linkReg_notice {a : Nat} (h : noticeReg a) : Claims.linkReg a := .inr (.inr (.inr (.inr (.inr h))))

section
variable {ps : List Part} {may : Nat → Prop} {s t : State}

theorem Touches.setDev (h : Touches ps may s t) {d : DevState} (hps : ∀ p ∈ [Part.mgmt, .eng, .evr], p ∈ ps := by decide)
    (hmay : ∀ a, noticeReg a → may a) : Touches ps may s (t.setDev d) :=
  h.trans ((t.setDev_touches d).mono hps hmay)

theorem LinkTouches.endCmd (h : LinkTouches s t) {st : Nat} : LinkTouches s (t.endCmd st) := by
  refine h.trans ((t.endCmd_touches st).mono (by simp) ?_)
  rintro a (ha | ha | ha)
  · exact .inr (.inr (.inl ha))
  · exact linkReg_notice (.inl ha)
  · exact linkReg_notice (.inr (.inr (.inr ha)))

end

/-! ## A new attempt (R138, R141) -/

namespace State

/-- The payload of a pennant reads nothing of the pennant channel. -/
theorem bringupPayload_queueInvite (s : State) (msg peer : Nat) :
    s.queueInvite.bringupPayload msg peer = s.bringupPayload msg peer := rfl

/-- Step 1 begins with an INVITE of the new nonce, in place of one that still waits. -/
theorem enterStep1_invite (s : State) : (s.enterStep1 false).dp.pen.waiting.filter
    (samePen 2 (bringupPen ((s.enterStep1 false).bringupPayload 1 0) false)) =
      [(2, bringupPen ((s.enterStep1 false).bringupPayload 1 0) false)] := by
  rw [enterStep1_eq, bringupPayload_queueInvite]
  exact (queuePen_queued (by decide)).1

/-- Step 1 is a new attempt where no superframe is sent and both halves of the ledger have stopped. -/
theorem enterStep1_newAttempt {s : State} (hsend : s.dp.framer.sending = false) (htx : s.dp.ledger.txRun = false)
    (hrx : s.dp.ledger.rxRun = false) : Claims.newAttempt (s.enterStep1 false) := by
  have hlink := enterStep1_link s
  have hledger := enterStep1_ledger s
  refine ⟨?_, ?_, enterStep1_dev s, ?_, ?_, ?_, enterStep1_invite s⟩
  · rw [hlink]; rfl
  · rw [hlink]; exact attemptCleared_nonce s
  · rw [enterStep1_framer]; exact hsend
  · rw [hledger]; exact htx
  · rw [hledger]; exact hrx

theorem enterStep1_touches (s : State) : LinkTouches s (s.enterStep1 false) := by
  have hcleared : LinkTouches s s.attemptCleared :=
    ((((s.drew_touches.mono (by simp) (by simp) : LinkTouches s s.drew).onDp).onDp).onDp)
  rw [enterStep1_eq]
  exact (hcleared.setDev (by decide) fun _ => linkReg_notice).onDp

/-! ## A link that goes down (R158) -/

variable {s : State} {code : Nat}

theorem linkDown_newAttempt (hup : s.linkUp = true) (hcv : s.cvMode = true) (hen : s.cfgOn F.LEDGER_LINK_CTRL_enable = true) :
    Claims.newAttempt (s.linkDown code) := by
  obtain ⟨htx, hrx, -, hsend⟩ := linkStop_ledger (code := code) (by simp [linkStands, hup]) hcv
  rw [linkDown_eq hup hcv hen]
  exact enterStep1_newAttempt hsend htx hrx

/-- The units that wait to be sent are discarded (R187). -/
theorem linkDown_ready (hup : s.linkUp = true) (hcv : s.cvMode = true) (hen : s.cfgOn F.LEDGER_LINK_CTRL_enable = true) :
    (s.linkDown code).dp.framer.ready = [] := by
  rw [linkDown_eq hup hcv hen, enterStep1_framer, linkStop_eq (by simp [linkStands, hup]) hcv]
  rfl

/-- A link that goes down writes its own registers alone, and those of an event. -/
theorem linkDown_touches (hup : s.linkUp = true) (hcv : s.cvMode = true) (hen : s.cfgOn F.LEDGER_LINK_CTRL_enable = true) :
    LinkTouches s (s.linkDown code) := by
  have h := wentDown_linkDown (code := code) hup hcv hen
  refine ⟨h.since.touches.1, fun a ha => ?_, h.since.touches.2.2⟩
  have hout (b : Nat) (hb : 0x310000 ≤ b ∧ b < 0x310200) : a ≠ b := by
    rintro rfl
    exact ha (linkReg_ledger hb)
  rw [h.reg a (fun hn => ha (linkReg_notice hn)) (hout _ (by decide)),
    reg_linkFailed_of_ne (hout _ (by decide)) (hout _ (by decide))]

/-! ## An attempt that fails (R138) -/

/-- The consecutive failures, with one more. -/
def failures (s : State) : Nat := Nat.min 0xFFFF (s.rd F.LEDGER_LINK_FAIL_consec + 1)

/-- What a failed attempt writes of LEDGER_LINK_FAIL and its count. -/
def failNoted (s : State) (code : Nat) : State :=
  (((s.bump R.LEDGER_LINK_ATTEMPT_CNT).wr F.LEDGER_LINK_FAIL_consec s.failures).wr F.LEDGER_LINK_FAIL_last_fail code).wr
    F.LEDGER_LINK_FAIL_fail_step s.dp.link.step

/-- The device as an attempt stops: no superframe is sent and the ledger stands. -/
def failStopped (s : State) (code : Nat) : State :=
  ((((s.failNoted code).logEvent srcLedger 0x8001 code s.dp.link.step).squelchAll.onLink fun l =>
    { l with fresh := true, lastFail := code }).ledgerStop)

/-- A LINK command that waits ends with what has failed (R269). -/
def failTold (s : State) : State :=
  if s.linkWaits then ((s.setArg 0 (s.reg R.LEDGER_LINK_FAIL).toNat).setArg 1 s.linkStat.toNat).endCmd stFail else s

theorem failNoted_touches : LinkTouches s (s.failNoted code) := by
  have hreg (a : Nat) (h : 0x310000 ≤ a ∧ a < 0x310200 := by decide) : Claims.linkReg a := linkReg_ledger h
  exact ((((Touches.refl _ _ s).bump (hreg R.LEDGER_LINK_ATTEMPT_CNT)).wr (hreg R.LEDGER_LINK_FAIL)).wr
    (hreg R.LEDGER_LINK_FAIL)).wr (hreg R.LEDGER_LINK_FAIL)

theorem failStopped_touches : LinkTouches s (s.failStopped code) :=
  (((((failNoted_touches.logEvent (by decide) fun _ => linkReg_notice).onDp).onDp).onDp).onDp)

theorem failTold_touches : LinkTouches s s.failTold := by
  have harg (k : Nat) (h : k = 0 ∨ k = 1) : Claims.linkReg (R.TOP_CMD_ARGk k) := by
    rcases h with rfl | rfl
    · exact .inr (.inr (.inr (.inl rfl)))
    · exact .inr (.inr (.inr (.inr (.inl rfl))))
  exact .ite (LinkTouches.endCmd (((Touches.refl _ _ s).setReg (harg 0 (.inl rfl))).setReg (harg 1 (.inr rfl)))) (.refl _ _ s)

theorem failTold_dp : s.failTold.dp = s.dp := by
  unfold failTold
  split
  · exact (endCmd_touches _ _).1 .dp (by decide)
  · rfl

/-- The end of a command writes no register of the ledger. -/
theorem failTold_reg {a : Nat} (h : 0x310000 ≤ a) : s.failTold.reg a = s.reg a := by
  have hne (k : Nat) (hk : k < 2) : a ≠ R.TOP_CMD_ARGk k := by
    simp only [R.TOP_CMD_ARGk]
    omega
  unfold failTold
  split
  · rw [(endCmd_touches _ _).2.1 a, setArg, reg_setReg_ne _ _ _ _ (hne 1 (by decide)), setArg,
      reg_setReg_ne _ _ _ _ (hne 0 (by decide))]
    simp only [R.TOP_CMD_STAT, R.TOP_INT, engReg]
    omega
  · rfl

/-- Stopping writes no register. -/
theorem reg_halted (s : State) (f : Link → Link) (a : Nat) : (s.squelchAll.onLink f).ledgerStop.reg a = s.reg a := reg_congr rfl a

theorem failStopped_reg {a : Nat} (h : 0x310000 ≤ a) : (s.failStopped code).reg a = (s.failNoted code).reg a := by
  rw [failStopped, reg_halted, reg_logEvent_of_not_notice (not_noticeReg_ledger h)]

theorem attemptFail_eq : s.attemptFail code =
    if s.cfgMin1 F.LEDGER_LINK_TMO2_max_attempts ≤ s.failures then (s.failStopped code).failTold.enterAbsent 0x26
    else (s.failStopped code).failTold.enterStep1 false := by
  have hforce : (s.failStopped code).failTold.inForce = s.inForce :=
    (failStopped_touches.trans failTold_touches : LinkTouches s _).1 .inForce (by decide)
  have hmin : (s.failStopped code).failTold.cfgMin1 F.LEDGER_LINK_TMO2_max_attempts = s.cfgMin1 F.LEDGER_LINK_TMO2_max_attempts := by
    simp only [cfgMin1, cfg_congr hforce]
  have hcount : (s.bump R.LEDGER_LINK_ATTEMPT_CNT).rd F.LEDGER_LINK_FAIL_consec = s.rd F.LEDGER_LINK_FAIL_consec :=
    congrArg (getField · 16 16) (reg_bumpBy_ne s _ _ 1 (by decide))
  rw [← hmin]
  unfold attemptFail
  dsimp only
  rw [hcount]
  rfl

end State
end Sys2Proof.Machine
end

section
/-!
Absence (R159), the attempt that fails (R138), and the step that starts again (R137).
-/

namespace Sys2Proof.Machine

namespace State

variable {s : State} {code status : Nat}

/-! ## PARTNER_ABSENT (R138, R141, R159) -/

/-- The link as PARTNER_ABSENT finds it. -/
def absentBegun (s : State) (status : Nat) : State :=
  s.newNonce.clearAttempt.onLink fun l => { l with step := 9, status := status, ignoring := status == 0x26 }

theorem enterAbsent_eq : s.enterAbsent status = ((s.absentBegun status).bump R.LEDGER_LINK_ABSENT_CNT).setDev .partnerAbsent := rfl

theorem enterAbsent_dp : (s.enterAbsent status).dp = (s.absentBegun status).dp := by
  rw [enterAbsent_eq, setDev_dp]
  rfl

theorem absentBegun_nonce : (s.absentBegun status).dp.link.nonce ≠ 0 := by
  simp [absentBegun, newNonce, clearAttempt, onLink, onDp]

theorem enterAbsent_dev : (s.enterAbsent status).mgmt.dev = .partnerAbsent := setDev_dev _ _

theorem absentBegun_reg (a : Nat) : (s.absentBegun status).reg a = s.reg a := reg_congr rfl a

theorem enterAbsent_counted : Claims.counted s (s.enterAbsent status) R.LEDGER_LINK_ABSENT_CNT 1 := by
  refine counted_congr (counted_bump (s.absentBegun status) R.LEDGER_LINK_ABSENT_CNT) (absentBegun_reg _) ?_
  rw [enterAbsent_eq, reg_setDev_of_not_notice (not_noticeReg_ledger (by decide))]

theorem enterAbsent_reg {a : Nat} (h : ¬ noticeReg a) (hne : a ≠ R.LEDGER_LINK_ABSENT_CNT) :
    (s.enterAbsent status).reg a = s.reg a := by
  rw [enterAbsent_eq, reg_setDev_of_not_notice h, bump, reg_bumpBy_ne _ _ _ _ hne, absentBegun_reg]

theorem enterAbsent_touches : Touches [.dp, .mgmt, .eng, .evr] (fun a => a = R.LEDGER_LINK_ABSENT_CNT ∨ noticeReg a) s
    (s.enterAbsent status) := by
  have hdrew : Touches [.dp, .mgmt, .eng, .evr] (fun a => a = R.LEDGER_LINK_ABSENT_CNT ∨ noticeReg a) s s.drew :=
    s.drew_touches.mono (by simp) (by simp)
  exact (hdrew.onDp.onDp.onDp.bump (.inl rfl)).setDev (by decide) fun _ => .inr

end State

/-- A partner that never answers, or has fallen silent, is absent (R159). -/
theorem exec_partnerAbsentTimeout {s : State} (h : s.dp.link.step = 1) : exec .partnerAbsentTimeout s = .next (s.enterAbsent 0) :=
  if_pos h

/-! ## The attempt that fails (R138) -/

/-- The attempt has failed with `code`: it is counted and shown with its step, and a new one begins, or, where as many in a row as may
have failed, the partner is absent. -/
def AttemptFailed (s t : State) (code : Nat) : Prop :=
  Claims.counted s t R.LEDGER_LINK_ATTEMPT_CNT 1 ∧ t.rd F.LEDGER_LINK_FAIL_last_fail = code
  ∧ t.rd F.LEDGER_LINK_FAIL_fail_step = s.dp.link.step
  ∧ t.rd F.LEDGER_LINK_FAIL_consec = min 0xFFFF (s.rd F.LEDGER_LINK_FAIL_consec + 1)
  ∧ (t.rd F.LEDGER_LINK_FAIL_consec < s.cfgMin1 F.LEDGER_LINK_TMO2_max_attempts → Claims.newAttempt t)
  ∧ (s.cfgMin1 F.LEDGER_LINK_TMO2_max_attempts ≤ t.rd F.LEDGER_LINK_FAIL_consec →
      t.dp.link.step = 9 ∧ t.dp.link.status = 0x26 ∧ t.mgmt.dev = .partnerAbsent
      ∧ Claims.counted s t R.LEDGER_LINK_ABSENT_CNT 1)
  ∧ LinkTouches s t

namespace State

variable {s : State} {code : Nat}

/-- The device as an attempt that has failed leaves it, before the next one or absence. -/
def failEnded (s : State) (code : Nat) : State := (s.failStopped code).failTold

theorem failEnded_touches : LinkTouches s (s.failEnded code) := failStopped_touches.trans failTold_touches

theorem failEnded_reg {a : Nat} (h : 0x310000 ≤ a) : (s.failEnded code).reg a = (s.failNoted code).reg a := by
  rw [failEnded, failTold_reg h, failStopped_reg h]

/-- Nothing is sent, and the ledger stands. -/
theorem halted_stands (s : State) (f : Link → Link) : (s.squelchAll.onLink f).ledgerStop.dp.framer.sending = false
    ∧ (s.squelchAll.onLink f).ledgerStop.dp.ledger.txRun = false ∧ (s.squelchAll.onLink f).ledgerStop.dp.ledger.rxRun = false :=
  ⟨rfl, rfl, rfl⟩

theorem failEnded_newAttempt : Claims.newAttempt ((s.failEnded code).enterStep1 false) := by
  have hdp : (s.failEnded code).dp = (s.failStopped code).dp := failTold_dp
  obtain ⟨hsend, htx, hrx⟩ := halted_stands ((s.failNoted code).logEvent srcLedger 0x8001 code s.dp.link.step) fun l =>
    { l with fresh := true, lastFail := code }
  exact enterStep1_newAttempt ((congrArg (·.framer.sending) hdp).trans hsend) ((congrArg (·.ledger.txRun) hdp).trans htx)
    ((congrArg (·.ledger.rxRun) hdp).trans hrx)

theorem attemptFail_again (h : s.failures < s.cfgMin1 F.LEDGER_LINK_TMO2_max_attempts) :
    s.attemptFail code = (s.failEnded code).enterStep1 false := by
  rw [attemptFail_eq, if_neg (Nat.not_le.2 h), failEnded]

theorem attemptFail_gone (h : s.cfgMin1 F.LEDGER_LINK_TMO2_max_attempts ≤ s.failures) :
    s.attemptFail code = (s.failEnded code).enterAbsent 0x26 := by
  rw [attemptFail_eq, if_pos h, failEnded]

theorem attemptFail_touches : LinkTouches s (s.attemptFail code) := by
  rcases Nat.lt_or_ge s.failures (s.cfgMin1 F.LEDGER_LINK_TMO2_max_attempts) with h | h
  · rw [attemptFail_again h]
    exact failEnded_touches.trans (enterStep1_touches _)
  · rw [attemptFail_gone h]
    refine failEnded_touches.trans (enterAbsent_touches.mono (by simp) ?_)
    rintro a (rfl | ha)
    · exact linkReg_ledger (by decide)
    · exact linkReg_notice ha

/-- What a failed attempt has noted stands. -/
theorem attemptFail_reg {a : Nat} (h : 0x310000 ≤ a) (hne : a ≠ R.LEDGER_LINK_ABSENT_CNT) :
    (s.attemptFail code).reg a = (s.failNoted code).reg a := by
  have hn := not_noticeReg_ledger h
  rw [← failEnded_reg h]
  rcases Nat.lt_or_ge s.failures (s.cfgMin1 F.LEDGER_LINK_TMO2_max_attempts) with hc | hc
  · rw [attemptFail_again hc, reg_enterStep1 hn]
  · rw [attemptFail_gone hc, enterAbsent_reg hn hne]

/-- What LEDGER_LINK_FAIL and the count of attempts read after a failure (R138). -/
theorem failNoted_reads (hcode : code < 2 ^ 8) (hstep : s.dp.link.step < 2 ^ 4) :
    (s.failNoted code).rd F.LEDGER_LINK_FAIL_last_fail = code ∧ (s.failNoted code).rd F.LEDGER_LINK_FAIL_fail_step = s.dp.link.step
    ∧ (s.failNoted code).rd F.LEDGER_LINK_FAIL_consec = s.failures := by
  have hcount : s.failures < 2 ^ 16 := Nat.lt_of_le_of_lt (Nat.min_le_left _ _) (by decide)
  unfold failNoted
  refine ⟨?_, ?_, ?_⟩
  · rw [rd_wr_disjoint _ _ _ _ (by decide) (by decide), rd_wr_same _ _ _ (by decide)]
    exact Nat.mod_eq_of_lt hcode
  · rw [rd_wr_same _ _ _ (by decide)]
    exact Nat.mod_eq_of_lt hstep
  · rw [rd_wr_disjoint _ _ _ _ (by decide) (by decide), rd_wr_disjoint _ _ _ _ (by decide) (by decide),
      rd_wr_same _ _ _ (by decide)]
    exact Nat.mod_eq_of_lt hcount

theorem failNoted_reg_of_ne {a : Nat} (hcnt : a ≠ R.LEDGER_LINK_ATTEMPT_CNT) (hfail : a ≠ R.LEDGER_LINK_FAIL) :
    (s.failNoted code).reg a = s.reg a := by
  unfold failNoted
  rw [reg_wr_ne _ _ _ _ hfail, reg_wr_ne _ _ _ _ hfail, reg_wr_ne _ _ _ _ hfail]
  exact reg_bumpBy_ne _ _ _ _ hcnt

theorem failNoted_counted : Claims.counted s (s.failNoted code) R.LEDGER_LINK_ATTEMPT_CNT 1 := by
  refine counted_congr (counted_bump s _) rfl ?_
  rw [failNoted, reg_wr_ne _ _ _ _ (by decide), reg_wr_ne _ _ _ _ (by decide), reg_wr_ne _ _ _ _ (by decide)]

theorem attemptFail_absent (h : s.cfgMin1 F.LEDGER_LINK_TMO2_max_attempts ≤ s.failures) :
    (s.attemptFail code).dp.link.step = 9 ∧ (s.attemptFail code).dp.link.status = 0x26
    ∧ (s.attemptFail code).mgmt.dev = .partnerAbsent ∧ Claims.counted s (s.attemptFail code) R.LEDGER_LINK_ABSENT_CNT 1 := by
  rw [attemptFail_gone h]
  refine ⟨?_, ?_, enterAbsent_dev, counted_congr enterAbsent_counted ?_ rfl⟩
  · rw [enterAbsent_dp]
    rfl
  · rw [enterAbsent_dp]
    rfl
  · rw [failEnded_reg (by decide), failNoted_reg_of_ne (by decide) (by decide)]

/-- An attempt that fails is counted, and shows its code and its step (R138). -/
theorem attemptFail_failed (hcode : code < 2 ^ 8) (hstep : s.dp.link.step < 2 ^ 4) : AttemptFailed s (s.attemptFail code) code := by
  have hreg : (s.attemptFail code).reg R.LEDGER_LINK_FAIL = (s.failNoted code).reg R.LEDGER_LINK_FAIL :=
    attemptFail_reg (by decide) (by decide)
  obtain ⟨hlast, hfail, hconsec⟩ := failNoted_reads hcode hstep
  have hrd : (s.attemptFail code).rd F.LEDGER_LINK_FAIL_consec = s.failures := (congrArg (getField · 16 16) hreg).trans hconsec
  refine ⟨counted_congr failNoted_counted rfl (attemptFail_reg (by decide) (by decide)),
    (congrArg (getField · 0 8) hreg).trans hlast, (congrArg (getField · 8 4) hreg).trans hfail, hrd, fun h => ?_, fun h => ?_,
    attemptFail_touches⟩
  · rw [attemptFail_again (hrd ▸ h)]
    exact failEnded_newAttempt
  · exact attemptFail_absent (hrd ▸ h)

end State

/-! ## A step that starts again (R137) -/

namespace State

variable {s : State}

/-- One more start of the step is counted. -/
def startCounted (s : State) : State := s.onLink fun l => { l with restarts := l.restarts + 1 }

/-- The lanes that have not acquired search anew. -/
theorem restartStep_acquire (h : s.dp.link.step = 2) : s.restartStep =
    (s.startCounted.activeLanes.filter fun n => !s.startCounted.acquired n).foldl (fun s n => s.enterSearch n) s.startCounted := by
  have hstep : s.startCounted.dp.link.step = 2 := h
  unfold restartStep
  dsimp only
  rw [← startCounted, hstep]
  rfl

/-- A lane of which the ensign is still hunted, or verified, is hunted anew. -/
def huntAgain (s : State) (n : Fin 8) : State :=
  s.onRx n fun r => { r with lock := if r.lock = .off then .off else .hunt, matched := 0 }

theorem restartStep_lock (h : s.dp.link.step = 3) : s.restartStep =
    (s.startCounted.activeLanes.filter fun n => s.startCounted.dp.rx[n].lock != .locked).foldl huntAgain s.startCounted := by
  have hstep : s.startCounted.dp.link.step = 3 := h
  unfold restartStep
  dsimp only
  rw [← startCounted, hstep]
  rfl

theorem restartStep_align (h : s.dp.link.step = 4) : s.restartStep =
    (s.startCounted.onLink fun l => { l with stable := 0 }).onDp fun d =>
      { d with rx := d.rx.map fun r => { r with firstSkew := none } } := by
  have hstep : s.startCounted.dp.link.step = 4 := h
  unfold restartStep
  dsimp only
  rw [← startCounted, hstep]
  rfl

theorem restartStep_measure (h : s.dp.link.step = 5) : s.restartStep = s.startCounted.onLink fun l => { l with samples := [] } := by
  have hstep : s.startCounted.dp.link.step = 5 := h
  unfold restartStep
  dsimp only
  rw [← startCounted, hstep]
  rfl

theorem enterSearch_link {n : Fin 8} : (s.enterSearch n).dp.link = s.dp.link := by
  rw [enterSearch_dp]
  rfl

/-- A search anew writes the loop's registers of its lane. -/
theorem enterSearch_touches {n : Fin 8} : Touches [.dp, .eng, .evr] Claims.linkReg s (s.enterSearch n) := by
  refine (Touches.refl _ _ s).onRx.trans (enterFallback_touches.mono (by simp) ?_)
  rintro a (ha | ha | ha | ha)
  · exact .inr (.inl ⟨n, .inl ha⟩)
  · exact .inr (.inl ⟨n, .inr (.inl ha)⟩)
  · exact .inr (.inl ⟨n, .inr (.inr ha)⟩)
  · exact linkReg_notice ha

/-- A lane that searches goes on searching where another one begins to. -/
theorem enterSearch_fe {m n : Fin 8} (h : m = n ∨ s.dp.rx[n].fe = .search) : (s.enterSearch m).dp.rx[n].fe = .search := by
  by_cases hmn : m = n
  · subst hmn
    rw [enterSearch_lane]
    rfl
  · rw [enterSearch_dp]
    exact (congrArg RxLane.fe (onRx_rx_ne (Ne.symm hmn))).trans (h.resolve_left hmn)

theorem huntAgain_hunt {m n : Fin 8} (hoff : s.dp.rx[n].lock ≠ .off) (h : m = n ∨ s.dp.rx[n].lock = .hunt) :
    (s.huntAgain m).dp.rx[n].lock = .hunt := by
  by_cases hmn : m = n
  · subst hmn
    exact (congrArg RxLane.lock (onRx_rx_same _ _ _)).trans (if_neg hoff)
  · exact (congrArg RxLane.lock (onRx_rx_ne (Ne.symm hmn))).trans (h.resolve_left hmn)

theorem foldl_enterSearch_search {l : List (Fin 8)} {n : Fin 8} (h : n ∈ l ∨ s.dp.rx[n].fe = .search) :
    (l.foldl (fun s n => s.enterSearch n) s).dp.rx[n].fe = .search := by
  induction l generalizing s with
  | nil => exact h.resolve_left (by simp)
  | cons m l ih =>
    refine ih ?_
    rcases h with h | h
    · rcases List.mem_cons.1 h with rfl | h
      · exact .inr (enterSearch_fe (.inl rfl))
      · exact .inl h
    · exact .inr (enterSearch_fe (.inr h))

theorem huntAgain_off {m n : Fin 8} (h : s.dp.rx[n].lock ≠ .off) : (s.huntAgain m).dp.rx[n].lock ≠ .off := by
  by_cases hmn : m = n
  · rw [huntAgain_hunt h (.inl hmn)]
    decide
  · exact fun e => h ((congrArg RxLane.lock (onRx_rx_ne (Ne.symm hmn))).symm.trans e)

theorem foldl_huntAgain_hunt {l : List (Fin 8)} {n : Fin 8} (hoff : s.dp.rx[n].lock ≠ .off) (h : n ∈ l ∨ s.dp.rx[n].lock = .hunt) :
    (l.foldl huntAgain s).dp.rx[n].lock = .hunt := by
  induction l generalizing s with
  | nil => exact h.resolve_left (by simp)
  | cons m l ih =>
    refine ih (huntAgain_off hoff) ?_
    rcases h with h | h
    · rcases List.mem_cons.1 h with rfl | h
      · exact .inr (huntAgain_hunt hoff (.inl rfl))
      · exact .inl h
    · exact .inr (huntAgain_hunt hoff (.inr h))

theorem foldl_link {g : State → Fin 8 → State} (hg : ∀ s n, (g s n).dp.link = s.dp.link) (l : List (Fin 8)) :
    (l.foldl g s).dp.link = s.dp.link :=
  List.foldlRecOn (motive := fun t => t.dp.link = s.dp.link) l g rfl fun t ht m _ => (hg t m).trans ht

/-- A step that starts again stays the same step, and is counted. -/
theorem restartStep_restarts (h2 : 2 ≤ s.dp.link.step) (h5 : s.dp.link.step ≤ 5) :
    s.restartStep.dp.link.step = s.dp.link.step ∧ s.restartStep.dp.link.restarts = s.dp.link.restarts + 1
    ∧ Touches [.dp, .eng, .evr] Claims.linkReg s s.restartStep := by
  have hcounted : Touches [.dp, .eng, .evr] Claims.linkReg s s.startCounted := (Touches.refl _ _ s).onDp
  have hcases : s.dp.link.step = 2 ∨ s.dp.link.step = 3 ∨ s.dp.link.step = 4 ∨ s.dp.link.step = 5 := by omega
  rcases hcases with h | h | h | h
  · rw [restartStep_acquire h, foldl_link fun s n => enterSearch_link]
    exact ⟨rfl, rfl, hcounted.trans (Touches.foldl _ (fun s n => enterSearch_touches) _ _)⟩
  · rw [restartStep_lock h, foldl_link (g := huntAgain) fun _ _ => rfl]
    exact ⟨rfl, rfl, hcounted.trans (Touches.foldl _ (fun s n => (Touches.refl _ _ s).onRx) _ _)⟩
  · rw [restartStep_align h]
    exact ⟨rfl, rfl, hcounted.onDp.onDp⟩
  · rw [restartStep_measure h]
    exact ⟨rfl, rfl, hcounted.onDp⟩

/-- Pilot search begins anew on the lanes that have not acquired. -/
theorem restartStep_search {n : Fin 8} (h : s.dp.link.step = 2) (hn : n ∈ s.activeLanes) (hacq : s.acquired n = false) :
    s.restartStep.dp.rx[n].fe = .search := by
  rw [restartStep_acquire h]
  refine foldl_enterSearch_search (.inl (List.mem_filter.2 ⟨hn, ?_⟩))
  rw [show s.startCounted.acquired n = s.acquired n from rfl, hacq]
  rfl

/-- A lane that is not in lock yet is hunted anew. -/
theorem restartStep_hunt {n : Fin 8} (h : s.dp.link.step = 3) (hn : n ∈ s.activeLanes) (hlock : s.dp.rx[n].lock ≠ .locked)
    (hoff : s.dp.rx[n].lock ≠ .off) : s.restartStep.dp.rx[n].lock = .hunt := by
  rw [restartStep_lock h]
  exact foldl_huntAgain_hunt hoff (.inl (List.mem_filter.2 ⟨hn, bne_iff_ne.2 hlock⟩))

end State

section
variable {s : State}

/-- What a step that times out does (R137). -/
theorem exec_bringupStepTimeout_again (h2 : 2 ≤ s.dp.link.step) (h5 : s.dp.link.step ≤ 5)
    (h : s.dp.link.restarts < s.cfg F.LEDGER_LINK_TMO2_step_retries) : exec .bringupStepTimeout s = .next s.restartStep := by
  change execBringupStepTimeout s = _
  unfold execBringupStepTimeout
  dsimp only
  rw [if_neg (by omega), if_pos ⟨h2, h5⟩, if_pos h]

theorem exec_bringupStepTimeout_fails (h2 : 2 ≤ s.dp.link.step) (h5 : s.dp.link.step ≤ 5)
    (h : s.cfg F.LEDGER_LINK_TMO2_step_retries ≤ s.dp.link.restarts) :
    exec .bringupStepTimeout s = .next (s.attemptFail (0x1E + s.dp.link.step)) := by
  change execBringupStepTimeout s = _
  unfold execBringupStepTimeout
  dsimp only
  rw [if_neg (by omega), if_pos ⟨h2, h5⟩, if_neg (Nat.not_lt.2 h)]

theorem exec_bringupStepTimeout_ready (h : s.dp.link.step = 6) : exec .bringupStepTimeout s = .next (s.attemptFail 0x26) := if_pos h

/-- A partner that is lost (R139, R158, R159). -/
theorem exec_partnerLossTimeout_attempt (h2 : 2 ≤ s.dp.link.step) (h6 : s.dp.link.step ≤ 6) :
    exec .partnerLossTimeout s = .next (s.attemptFail 0x24) := if_pos ⟨h2, h6⟩

theorem exec_partnerLossTimeout_link (h : s.inLinked = true) (hup : s.linkUp = true) :
    exec .partnerLossTimeout s = .next (s.linkDown 0x24) := by
  have hstep : s.dp.link.step = 7 ∨ s.dp.link.step = 8 := by simpa [State.inLinked] using h
  change execPartnerLossTimeout s = _
  unfold execPartnerLossTimeout
  dsimp only
  rw [if_neg (by omega), if_pos ⟨h, hup⟩]

end

/-- Settles O26: a queued pennant stands alone of its kind (`State.queuePen_queued`), a failed attempt is counted and begins anew or gives
up (`State.attemptFail_failed`), and a link that is lost goes down for a new attempt (`State.linkDown_newAttempt`). -/
theorem bringupTimers : Obligations.BringupTimers := by
  unfold Obligations.BringupTimers
  intro s
  have hqueued {u : State} {prio : Nat} {x : PenItem} (h : prio ≠ 3) : Queued u (u.queuePen prio x) prio x := State.queuePen_queued h
  refine ⟨fun h => ?_, fun h hagain => ?_, fun h hmis hseen hcand => ?_, fun h2 h8 => ?_, fun h => ?_, fun h2 h5 => ⟨fun hfew => ?_,
    fun hmany => ?_⟩, fun h => ?_, fun h2 h6 => ?_, fun hlinked hup hcv hen => ?_⟩
  · obtain ⟨hsame, hother, hdp, htouch⟩ := hqueued (u := s.onLink fun l => { l with ignoring := false })
      (x := bringupPen (s.bringupPayload 1 0) false) (by decide : 2 ≠ 3)
    exact ⟨_, exec_inviteTimer_absent h, ⟨hsame, hother, hdp, (s.dp_touches _).trans htouch⟩, rfl⟩
  · exact ⟨_, exec_inviteTimer_invite h hagain, hqueued (by decide), rfl⟩
  · exact ⟨_, exec_inviteTimer_accept h hmis hseen hcand, hqueued (by decide), rfl⟩
  · exact ⟨_, exec_inviteTimer_status h2 h8, hqueued (by decide), rfl⟩
  · have hdp := State.enterAbsent_dp (s := s) (status := 0)
    refine ⟨_, exec_partnerAbsentTimeout h, ?_, ?_, ?_, State.enterAbsent_dev, State.enterAbsent_counted, ?_,
      State.enterAbsent_touches⟩
    · rw [hdp]; rfl
    · rw [hdp]; rfl
    · rw [hdp]; exact State.absentBegun_nonce
    · rw [hdp]; rfl
  · obtain ⟨hstep, hcount, htouch⟩ := State.restartStep_restarts h2 h5
    refine ⟨_, exec_bringupStepTimeout_again h2 h5 hfew, hstep, hcount, fun h n hn hacq => State.restartStep_search h hn hacq,
      fun h n hn hlock hoff => State.restartStep_hunt h hn hlock hoff, fun h => ?_, fun h => ?_, htouch⟩
    · rw [State.restartStep_align h]; rfl
    · rw [State.restartStep_measure h]; rfl
  · exact ⟨_, exec_bringupStepTimeout_fails h2 h5 hmany, State.attemptFail_failed (by omega) (by omega)⟩
  · exact ⟨_, exec_bringupStepTimeout_ready h, State.attemptFail_failed (by decide) (by omega)⟩
  · exact ⟨_, exec_partnerLossTimeout_attempt h2 h6, State.attemptFail_failed (by decide) (by omega)⟩
  · have hdown := wentDown_linkDown (code := 0x24) hup hcv hen
    exact ⟨_, exec_partnerLossTimeout_link hlinked hup, State.linkDown_newAttempt hup hcv hen, hdown.counted_down, hdown.last_fail,
      hdown.retention, State.linkDown_ready hup hcv hen, State.linkDown_touches hup hcv hen⟩

end Sys2Proof.Machine
end

section
/-!
A lane and the link's own state: what an operation of ensign lock leaves (R145), and the clock loop that holds (R86).
-/

namespace Sys2Proof.Machine

/-- Of the datapath, at most lane `n` and the link's own state have changed since `s`; they are `r` and `l` now. -/
def LaneAndLink (n : Fin 8) (s t : State) (r : RxLane) (l : Link) : Prop :=
  t.dp = { s.dp with rx := s.dp.rx.set n r, link := l }

/-- Of the datapath, at most lane `n` and the link's own state have changed since `s`, and the lane's equaliser and the calibration of
its ADC have not. -/
def LaneStays (n : Fin 8) (s t : State) : Prop :=
  t.dp = { s.dp with rx := s.dp.rx.set n t.dp.rx[n], link := t.dp.link } ∧ t.dp.rx[n].equ = s.dp.rx[n].equ
    ∧ t.dp.rx[n].adc = s.dp.rx[n].adc

section
variable {n : Fin 8} {s t u : State} {r : RxLane} {l : Link}

theorem LaneNow.andLink (h : LaneNow n s t r) : LaneAndLink n s t r s.dp.link := h

theorem LaneAndLink.onLink (h : LaneAndLink n s t r l) {f : Link → Link} : LaneAndLink n s (t.onLink f) r (f l) := by
  have hdp : (t.onLink f).dp = { t.dp with link := f t.dp.link } := rfl
  rw [LaneAndLink, hdp, h]

theorem LaneAndLink.same (h : LaneAndLink n s t r l) (e : u.dp = t.dp) : LaneAndLink n s u r l := e.trans h

theorem LaneAndLink.lane (h : LaneAndLink n s t r l) : t.dp.rx[n] = r := by
  simp only [LaneAndLink] at h
  simp only [h]
  exact Vector.getElem_set_self _

theorem LaneAndLink.link (h : LaneAndLink n s t r l) : t.dp.link = l := congrArg Datapath.link h

theorem LaneAndLink.stays (h : LaneAndLink n s t r l) (hequ : r.equ = s.dp.rx[n].equ) (hadc : r.adc = s.dp.rx[n].adc) :
    LaneStays n s t := by
  refine ⟨?_, (congrArg RxLane.equ h.lane).trans hequ, (congrArg RxLane.adc h.lane).trans hadc⟩
  rw [h.lane, h.link]
  exact h

/-- The other lanes are as they were. -/
theorem LaneNow.other (h : LaneNow n s t r) {k : Fin 8} (hk : k ≠ n) : t.dp.rx[k] = s.dp.rx[k] := by
  simp only [LaneNow] at h
  simp only [h]
  exact Vector.getElem_set_ne n.isLt k.isLt fun e => hk (Fin.ext e.symm)

end

/-- A bit that is cleared reads as clear. -/
theorem bitOf_setBit_false (m i : Nat) : bitOf (setBit m i false) i = false := by
  unfold setBit
  by_cases h : bitOf m i = true
  · have hle : 2 ^ i ≤ m := Nat.ge_two_pow_of_testBit (by rwa [← bitOf_eq_testBit])
    have hset : bitOf (m - 2 ^ i + 2 ^ i) i = true := by rwa [Nat.sub_add_cancel hle]
    rw [bitOf_eq_testBit, Nat.add_comm, Nat.testBit_two_pow_add_eq, ← bitOf_eq_testBit, Bool.not_eq_true'] at hset
    rw [if_neg (by simp [h]), if_neg (by decide)]
    exact hset
  · rw [if_pos (by simpa using h)]
    simpa using h

/-! ## The clock loop in hold mode (R86) -/

namespace State

variable {s : State} {n : Fin 8}

theorem holdLoop_touches : Touches [.dp] (· = R.OLn_CDR_STAT n) s (s.holdLoop n) := by
  unfold holdLoop
  exact ((Touches.refl [.dp] (· = R.OLn_CDR_STAT n) s).onRx.wr rfl).wr rfl

/-- The loop is shown as holding, and not as locked. -/
theorem holdLoop_flags : (s.holdLoop n).flag (F.OLn_CDR_STAT_holding n) = true
    ∧ (s.holdLoop n).flag (F.OLn_CDR_STAT_locked n) = false := by
  unfold holdLoop flag
  constructor
  · rw [rd_wr_disjoint _ _ _ _ (.inr (by decide : 0 + 1 ≤ 9)) (by decide : 9 + 1 ≤ 32), rd_wr_same _ _ _ (by decide : 9 + 1 ≤ 32)]
    rfl
  · rw [rd_wr_same _ _ _ (by decide : 0 + 1 ≤ 32)]
    rfl

end State

/-! ## An order to retrain fast (R145, R155) -/

/-- A lane that retrains fast: it relocks, and a front end that tracked holds. -/
def RxLane.fastOrdered (r : RxLane) : RxLane :=
  { r with lock := .relock, fe := if r.fe = .track then .hold else r.fe, misses := 0, loop := { r.loop with errs := [], atLimit := 0 } }

/-- The link's state with lane `n` ordered to retrain. -/
def Link.fastOrdered (n : Fin 8) (l : Link) : Link :=
  { l with retrainReq := setBit l.retrainReq n true, step := if l.step = 7 then 8 else l.step }

/-- Lane `n` has been ordered to retrain fast: it relocks, the loop holds, and the order is counted and asked of the partner. -/
def FastOrdered (n : Fin 8) (s t : State) : Prop :=
  t.dp.rx[n].lock = .relock ∧ bitOf t.dp.link.retrainReq n = true ∧ (s.dp.rx[n].fe = .track → t.dp.rx[n].fe = .hold)
  ∧ (s.dp.link.step = 7 → t.dp.link.step = 8) ∧ t.flag (F.OLn_CDR_STAT_holding n) = true
  ∧ t.flag (F.OLn_CDR_STAT_locked n) = false ∧ Claims.counted s t (R.LEDGER_LINK_FAST_CNTn n) 1
  ∧ LaneStays n s t ∧ Touches [.dp] (fun a => a = R.OLn_CDR_STAT n ∨ a = R.LEDGER_LINK_FAST_CNTn n) s t

section
variable {n : Fin 8} {s t : State} {r : RxLane}

/-- The lane as it goes to RELOCK, with its loop held. -/
def State.relockHeld (s : State) (n : Fin 8) : State :=
  (s.onRx n fun r => { r with lock := .relock, fe := if r.fe = .track then .hold else r.fe, misses := 0 }).holdLoop n

theorem orderFast_eq : t.orderFast n = ((t.relockHeld n).bump (R.LEDGER_LINK_FAST_CNTn n)).onLink (Link.fastOrdered n) := rfl

theorem orderFast_lane (h : LaneNow n s t r) : LaneAndLink n s (t.orderFast n) r.fastOrdered (s.dp.link.fastOrdered n) := by
  have hheld : LaneNow n s (t.relockHeld n) r.fastOrdered :=
    (h.onRx (f := fun r => { r with lock := .relock, fe := if r.fe = .track then .hold else r.fe, misses := 0 })).onRx
      (f := fun r => { r with loop := { r.loop with errs := [], atLimit := 0 } })
  have hcounted : LaneAndLink n s ((t.relockHeld n).bump (R.LEDGER_LINK_FAST_CNTn n)) r.fastOrdered s.dp.link := hheld.andLink.same rfl
  exact hcounted.onLink

theorem relockHeld_touches : Touches [.dp] (· = R.OLn_CDR_STAT n) t (t.relockHeld n) :=
  (Touches.refl [.dp] (· = R.OLn_CDR_STAT n) t).onRx.trans State.holdLoop_touches

theorem orderFast_reg (a : Nat) : (t.orderFast n).reg a = ((t.relockHeld n).bump (R.LEDGER_LINK_FAST_CNTn n)).reg a := by
  rw [orderFast_eq]
  exact State.reg_congr (State.onLink_regs _ _) a

/-- The order writes the loop's state and its own count. -/
theorem orderFast_shows : (t.orderFast n).flag (F.OLn_CDR_STAT_holding n) = true
    ∧ (t.orderFast n).flag (F.OLn_CDR_STAT_locked n) = false ∧ Claims.counted t (t.orderFast n) (R.LEDGER_LINK_FAST_CNTn n) 1
    ∧ Touches [.dp] (fun a => a = R.OLn_CDR_STAT n ∨ a = R.LEDGER_LINK_FAST_CNTn n) t (t.orderFast n) := by
  have hne : R.OLn_CDR_STAT n ≠ R.LEDGER_LINK_FAST_CNTn n := by
    simp only [R.OLn_CDR_STAT, R.LEDGER_LINK_FAST_CNTn]
    omega
  have hstat : (t.orderFast n).reg (R.OLn_CDR_STAT n) = (t.relockHeld n).reg (R.OLn_CDR_STAT n) := by
    rw [orderFast_reg, State.bump, State.reg_bumpBy_ne _ _ _ _ hne]
  obtain ⟨hholding, hlocked⟩ : (t.relockHeld n).flag (F.OLn_CDR_STAT_holding n) = true
      ∧ (t.relockHeld n).flag (F.OLn_CDR_STAT_locked n) = false := State.holdLoop_flags
  refine ⟨(State.flag_congr hstat).trans hholding, (State.flag_congr hstat).trans hlocked,
    counted_congr (counted_bump (t.relockHeld n) _) (relockHeld_touches.2.1 _ hne.symm) (orderFast_reg _), ?_⟩
  rw [orderFast_eq]
  exact ((relockHeld_touches.mono (by simp) fun _ => .inl).bump (.inr rfl)).onDp

/-- The order, after what has changed the lane but for its front end, its equaliser and the calibration of its ADC. -/
theorem orderFast_ordered (h : LaneNow n s t r) (htouch : Touches [.dp] (fun _ => False) s t) (hfe : r.fe = s.dp.rx[n].fe)
    (hequ : r.equ = s.dp.rx[n].equ) (hadc : r.adc = s.dp.rx[n].adc) : FastOrdered n s (t.orderFast n) := by
  have hnow := orderFast_lane h
  obtain ⟨hholding, hlocked, hcount, hregs⟩ := orderFast_shows (t := t) (n := n)
  refine ⟨congrArg RxLane.lock hnow.lane, ?_, fun htrack => ?_, fun hstep => ?_, hholding, hlocked,
    counted_congr hcount (htouch.2.1 _ id) rfl, hnow.stays hequ hadc, (htouch.mono (by simp) (by simp)).trans hregs⟩
  · rw [hnow.link]
    exact bitOf_setBit_true _ _
  · rw [hnow.lane]
    exact if_pos (hfe.trans htrack)
  · rw [hnow.link]
    exact if_pos hstep

end
end Sys2Proof.Machine
end

section
/-!
The check of a lane's ensign in each state of its lock (R144, R145, R155).
-/

namespace Sys2Proof.Machine

/-! ## What the check finds -/

/-- A lane of which the superframe's ensign has been looked at. -/
def RxLane.looked (arrival : Nat) (hit : Bool) (r : RxLane) : RxLane :=
  { r with lastArrival := arrival, ensignOk := hit, expSfc := r.expSfc.map fun e => (e + 1) % 2 ^ 32 }

/-- A hunting lane that has found the ensign at offset `o` (R145). -/
def RxLane.found (arrival o : Nat) (r : RxLane) : RxLane :=
  { r with lock := .verify, matched := 1, origin := (r.origin + o + 266240 - 8) % 266240, lastArrival := arrival + o - 8,
           ensignOk := true, expSfc := none }

/-- A lane whose ensign has matched `m` times in a row (R145). -/
def RxLane.verified (m : Nat) (r : RxLane) : RxLane :=
  { r with matched := m, lock := if 3 ≤ m then .locked else .verify, misses := 0, alignRun := 0, ds := { r.ds with cw := 32 } }

/-- A lane that is in lock again after RELOCK. -/
def RxLane.relocked (r : RxLane) : RxLane := { r with lock := .locked, misses := 0, ds := { r.ds with cw := 32 } }

namespace State

/-- The device once the ensign of lane `n` has been looked at. -/
def looked (s : State) (n : Fin 8) (labels : List (Fin 4)) (arrival : Nat) : State :=
  s.onRx n (RxLane.looked arrival (decide (ensignDiff labels 8 ≤ s.ensTol)))

variable {s t : State} {n : Fin 8} {labels : List (Fin 4)} {arrival : Nat}

theorem looked_lane : LaneNow n s (s.looked n labels arrival)
    (s.dp.rx[n].looked arrival (decide (ensignDiff labels 8 ≤ s.ensTol))) := (LaneNow.refl n s).onRx

theorem looked_touches : Touches [.dp] (fun _ => False) s (s.looked n labels arrival) := s.dp_touches _

/-! ## The steps of bring-up around the check -/

/-- Outside steps 2 to 5 nothing moves on. -/
theorem advanceSteps_of_outside (h2 : s.dp.link.step ≠ 2) (h3 : s.dp.link.step ≠ 3) (h4 : s.dp.link.step ≠ 4)
    (h5 : s.dp.link.step ≠ 5) : s.advanceSteps = s := by
  have hadvance2 : s.advance2 = s := if_neg fun h => h2 h.1
  have hadvance3 : s.advance3 = s := if_neg fun h => h3 h.1
  have hadvance4 : s.advance4 = s := if_neg fun h => h4 h.1
  have hadvance5 : s.advance5 = s := if_neg fun h => h5 h.1
  rw [advanceSteps, hadvance2, hadvance3, hadvance4, hadvance5]

/-- Step 3 is complete once every active lane is in lock. Step 4, which begins its alignment test, is not yet. -/
theorem advanceSteps_of_locked (h3 : s.dp.link.step = 3) (hlocked : ∀ m ∈ s.activeLanes, s.dp.rx[m].lock = .locked) :
    s.advanceSteps = s.nextStep 4 := by
  have hadvance2 : s.advance2 = s := if_neg fun h => by omega
  have hadvance3 : s.advance3 = s.nextStep 4 := if_pos ⟨h3, List.all_eq_true.2 fun m hm => decide_eq_true (hlocked m hm)⟩
  have hstep : (s.nextStep 4).dp.link.step = 4 := rfl
  have hstable : (s.nextStep 4).dp.link.stable = 0 := rfl
  have hadvance4 : (s.nextStep 4).advance4 = s.nextStep 4 := if_neg fun h => by omega
  have hadvance5 : (s.nextStep 4).advance5 = s.nextStep 4 := if_neg fun h => by omega
  rw [advanceSteps, hadvance2, hadvance3, hadvance4, hadvance5]

theorem nextStep_lock {k : Nat} : (s.nextStep k).dp.rx[n].lock = s.dp.rx[n].lock := by
  unfold nextStep
  dsimp only
  split
  · change (Vector.map (fun r : RxLane => { r with firstSkew := none }) s.dp.rx)[n].lock = _
    rw [Fin.getElem_fin, Vector.getElem_map]
    rfl
  · rfl

theorem nextStep_touches {k : Nat} : Touches [.dp] (fun _ => False) s (s.nextStep k) := by
  have hbegun : Touches [.dp] (fun _ => False) s (s.onLink fun l =>
      { l with step := k, status := 0, restarts := 0, stable := 0, samples := [], readySent := false }) := s.dp_touches _
  exact .ite hbegun.onDp hbegun

/-- The offset to the other lanes in lock does not read the lane itself. -/
theorem laneOffset_congr (hforce : t.inForce = s.inForce) (hother : ∀ k, k ≠ n → t.dp.rx[k] = s.dp.rx[k]) :
    t.laneOffset n arrival = s.laneOffset n arrival := by
  have hactive : t.activeLanes = s.activeLanes := by simp only [activeLanes, laneMask, lineMode, cfg_congr hforce]
  have hlocked : (t.activeLanes.filter fun k => k != n && t.dp.rx[k].lock == .locked) =
      s.activeLanes.filter fun k => k != n && s.dp.rx[k].lock == .locked := by
    rw [hactive]
    refine List.filter_congr fun k _ => ?_
    by_cases hk : k = n
    · simp [hk]
    · rw [hother k hk]
  unfold laneOffset
  rw [hlocked]
  refine List.foldl_ext _ _ _ fun m k hk => ?_
  have hne : k ≠ n := by
    have hk := (List.mem_filter.1 hk).2
    rw [Bool.and_eq_true, bne_iff_ne] at hk
    exact hk.1
  rw [hother k hne]

/-- A review of RELOCK moves the step between 7 and 8 alone (R155). -/
theorem reviewStep_link : s.reviewStep.dp.link = { s.dp.link with step := s.reviewStep.dp.link.step } := by
  unfold reviewStep
  dsimp only [onLink, onDp]
  split
  · rfl
  · split <;> rfl

theorem reviewStep_dp : s.reviewStep.dp = { s.dp with link := s.reviewStep.dp.link } := rfl

/-- With no lane in RELOCK any more the link is in step 7 again. -/
theorem reviewStep_step (h : s.dp.link.step = 8) (hnone : ∀ m ∈ s.activeLanes, s.dp.rx[m].lock ≠ .relock) :
    s.reviewStep.dp.link.step = 7 := by
  have hany : (s.activeLanes.any fun n => s.dp.rx[n].lock = .relock) = false :=
    List.any_eq_false.2 fun m hm => by simpa using hnone m hm
  unfold reviewStep
  dsimp only [onLink, onDp]
  rw [hany, if_neg (by simp), if_pos ⟨h, rfl⟩]

end State

/-! ## How ENSIGN_CHECK answers (R145) -/

/-- The device after the check of lane `n`, by the state of its lock. -/
def State.ensignFollowed (s : State) (n : Fin 8) (labels : List (Fin 4)) (arrival : Nat) : EnsState → State
  | .off => s
  | .hunt =>
    if (ensignBest labels).2 ≤ s.ensTol then (s.looked n labels arrival).onRx n (RxLane.found arrival (ensignBest labels).1)
    else s.looked n labels arrival
  | .verify =>
    if decide (ensignDiff labels 8 ≤ s.ensTol) then
      ((s.looked n labels arrival).onRx n (RxLane.verified (s.dp.rx[n].matched + 1))).advanceSteps
    else (s.looked n labels arrival).onRx n fun r => { r with lock := .hunt, matched := 0 }
  | .locked =>
    if decide (ensignDiff labels 8 ≤ s.ensTol) then (s.looked n labels arrival).onRx n fun r => { r with misses := 0 }
    else if 4 ≤ s.dp.rx[n].misses + 1 then (s.looked n labels arrival).ensignLost n
    else (s.looked n labels arrival).onRx n fun r => { r with misses := r.misses + 1 }
  | .relock =>
    if decide (ensignDiff labels 8 ≤ s.ensTol) ∧ s.dp.rx[n].fe = .track
        ∧ (s.looked n labels arrival).laneOffset n arrival ≤ 228 * s.deskewNs then
      (((s.looked n labels arrival).onRx n RxLane.relocked).onLink fun l =>
        { l with retrainReq := setBit l.retrainReq n false }).reviewStep
    else s.looked n labels arrival

section
variable {s : State} {n : Fin 8} {labels : List (Fin 4)} {arrival : Nat}

theorem exec_ensignCheck {k : EnsState} (hidle : s.dp.rx[n].heldIdle = false) (hlock : s.dp.rx[n].lock = k) :
    exec (.ensignCheck n labels arrival) s = .next (s.ensignFollowed n labels arrival k) := by
  change execEnsignCheck n labels arrival s = _
  unfold execEnsignCheck
  dsimp only
  rw [hlock, hidle]
  cases k with
  | off => exact if_pos (.inl rfl)
  | hunt =>
    rw [if_neg (by decide)]
    exact (apply_ite Host.Outcome.next _ _ _).symm
  | verify =>
    rw [if_neg (by decide)]
    exact (apply_ite Host.Outcome.next _ _ _).symm
  | locked =>
    rw [if_neg (by decide)]
    refine Eq.trans ?_ (apply_ite Host.Outcome.next _ _ _).symm
    rw [apply_ite Host.Outcome.next (4 ≤ s.dp.rx[n].misses + 1)]
    rfl
  | relock =>
    rw [if_neg (by decide)]
    exact (apply_ite Host.Outcome.next _ _ _).symm

theorem ensignFollowed_hunt (hbest : (ensignBest labels).2 ≤ s.ensTol) : s.ensignFollowed n labels arrival .hunt =
    (s.looked n labels arrival).onRx n (RxLane.found arrival (ensignBest labels).1) := by
  rw [State.ensignFollowed, if_pos hbest]

theorem ensignFollowed_verify (hhit : decide (ensignDiff labels 8 ≤ s.ensTol) = true) : s.ensignFollowed n labels arrival .verify =
    ((s.looked n labels arrival).onRx n (RxLane.verified (s.dp.rx[n].matched + 1))).advanceSteps := if_pos hhit

theorem ensignFollowed_verifyMiss (hmiss : decide (ensignDiff labels 8 ≤ s.ensTol) = false) :
    s.ensignFollowed n labels arrival .verify = (s.looked n labels arrival).onRx n fun r => { r with lock := .hunt, matched := 0 } :=
  if_neg (by rw [hmiss]; decide)

/-- A lane in lock that is not at its fourth miss counts the misses in a row. -/
theorem ensignFollowed_locked (h : decide (ensignDiff labels 8 ≤ s.ensTol) = true ∨ s.dp.rx[n].misses < 3) :
    s.ensignFollowed n labels arrival .locked = (s.looked n labels arrival).onRx n fun r =>
      { r with misses := if decide (ensignDiff labels 8 ≤ s.ensTol) then 0 else r.misses + 1 } := by
  unfold State.ensignFollowed
  by_cases hhit : decide (ensignDiff labels 8 ≤ s.ensTol) = true
  · simp only [if_pos hhit]
  · have hfew := h.resolve_left hhit
    simp only [if_neg hhit, if_neg (by omega : ¬ 4 ≤ s.dp.rx[n].misses + 1)]

/-- At the fourth miss in a row in LINKED the lane is ordered to retrain fast. -/
theorem ensignFollowed_lost (hmiss : decide (ensignDiff labels 8 ≤ s.ensTol) = false) (hmisses : s.dp.rx[n].misses = 3)
    (hlinked : s.inLinked = true) (hfast : s.cfgOn F.LEDGER_LINK_CTRL_fast_en = true) :
    s.ensignFollowed n labels arrival .locked = (s.looked n labels arrival).orderFast n := by
  have hlost : (s.looked n labels arrival).ensignLost n = (s.looked n labels arrival).orderFast n :=
    (if_pos hlinked).trans (if_pos hfast)
  rw [← hlost]
  exact (if_neg (by rw [hmiss]; decide)).trans (if_pos (by rw [hmisses]))

/-- A lane that relocks in time with the others, its front end tracking, is in service again. -/
theorem ensignFollowed_relock (hhit : decide (ensignDiff labels 8 ≤ s.ensTol) = true) (htrack : s.dp.rx[n].fe = .track)
    (hoff : s.laneOffset n arrival ≤ 228 * s.deskewNs) : s.ensignFollowed n labels arrival .relock =
      (((s.looked n labels arrival).onRx n RxLane.relocked).onLink fun l =>
        { l with retrainReq := setBit l.retrainReq n false }).reviewStep := by
  have hoffset : (s.looked n labels arrival).laneOffset n arrival = s.laneOffset n arrival :=
    State.laneOffset_congr rfl fun k hk => State.looked_lane.other hk
  exact if_pos ⟨hhit, htrack, hoffset.trans_le hoff⟩

end
end Sys2Proof.Machine
end

section
/-!
What ENSIGN_CHECK leaves (R145, R155), relock and retrain timeouts (R155, R159), the line signal (R157), and the statement about the locks
of lanes.
-/

namespace Sys2Proof.Machine

/-! ## What the check leaves -/

section
variable {s : State} {n : Fin 8} {labels : List (Fin 4)} {arrival : Nat}

/-- The check, followed by another change of the lane. -/
theorem looked_onRx_lane (f : RxLane → RxLane) : LaneNow n s ((s.looked n labels arrival).onRx n f)
    (f (s.dp.rx[n].looked arrival (decide (ensignDiff labels 8 ≤ s.ensTol)))) := State.looked_lane.onRx

theorem looked_onRx_touches (f : RxLane → RxLane) : Touches [.dp] (fun _ => False) s ((s.looked n labels arrival).onRx n f) :=
  State.looked_touches.onRx

/-- A lane that finds the ensign keeps its equaliser and the calibration of its ADC. -/
theorem found_keeps (o : Nat) (r : RxLane) : (r.found arrival o).equ = r.equ ∧ (r.found arrival o).adc = r.adc := by
  rw [RxLane.found]
  exact ⟨rfl, rfl⟩

/-- After three ensigns in a row the lane is in lock. -/
theorem verified_lock {m : Nat} (r : RxLane) (h : 2 ≤ m) : (r.verified (m + 1)).lock = .locked := if_pos (by omega)

/-- The lane that locks last ends step 3. -/
theorem verified_advances (hothers : ∀ m ∈ s.activeLanes, m ≠ n → s.dp.rx[m].lock = .locked) (hmatched : 2 ≤ s.dp.rx[n].matched)
    (hstep : s.dp.link.step = 3) :
    ((s.looked n labels arrival).onRx n (RxLane.verified (s.dp.rx[n].matched + 1))).advanceSteps =
      ((s.looked n labels arrival).onRx n (RxLane.verified (s.dp.rx[n].matched + 1))).nextStep 4 := by
  have hlane := looked_onRx_lane (s := s) (n := n) (labels := labels) (arrival := arrival)
    (RxLane.verified (s.dp.rx[n].matched + 1))
  refine State.advanceSteps_of_locked hstep fun m hm => ?_
  by_cases hmn : m = n
  · rw [hmn, hlane.lane]
    exact verified_lock _ hmatched
  · rw [hlane.other hmn]
    exact hothers m hm hmn

/-- The device with lane `n` in service again, before the review of RELOCK. -/
def State.laneBack (s : State) (n : Fin 8) (labels : List (Fin 4)) (arrival : Nat) : State :=
  ((s.looked n labels arrival).onRx n RxLane.relocked).onLink fun l => { l with retrainReq := setBit l.retrainReq n false }

theorem laneBack_lane : LaneAndLink n s (s.laneBack n labels arrival)
    (s.dp.rx[n].looked arrival (decide (ensignDiff labels 8 ≤ s.ensTol))).relocked
    { s.dp.link with retrainReq := setBit s.dp.link.retrainReq n false } := (looked_onRx_lane _).andLink.onLink

theorem laneBack_other {m : Fin 8} (h : m ≠ n) : (s.laneBack n labels arrival).dp.rx[m] = s.dp.rx[m] :=
  (looked_onRx_lane (s := s) (labels := labels) (arrival := arrival) RxLane.relocked).other h

/-- The last lane to relock brings the link back to step 7 (R155). -/
theorem laneBack_step (h : s.dp.link.step = 8) (hothers : ∀ m ∈ s.activeLanes, m ≠ n → s.dp.rx[m].lock ≠ .relock) :
    (s.laneBack n labels arrival).reviewStep.dp.link.step = 7 := by
  refine State.reviewStep_step h fun m hm => ?_
  by_cases hmn : m = n
  · rw [hmn, laneBack_lane.lane]
    exact (by decide : EnsState.locked ≠ .relock)
  · rw [laneBack_other hmn]
    exact hothers m hm hmn

theorem laneBack_reviewed : LaneAndLink n s (s.laneBack n labels arrival).reviewStep
    (s.dp.rx[n].looked arrival (decide (ensignDiff labels 8 ≤ s.ensTol))).relocked
    (s.laneBack n labels arrival).reviewStep.dp.link := by
  rw [LaneAndLink, State.reviewStep_dp, laneBack_lane]

theorem laneBack_retrainReq : bitOf (s.laneBack n labels arrival).reviewStep.dp.link.retrainReq n = false := by
  rw [State.reviewStep_link, laneBack_lane.link]
  exact bitOf_setBit_false _ _

end

/-! ## A lane that does not relock in time (R145, R155) -/

namespace State

variable {s : State} {n : Fin 8}

/-- The lane that is to retrain fully searches anew. -/
def fullSearch (s : State) (n : Fin 8) : State :=
  (s.onRx n fun r => { r with lock := .off, full := true, misses := 0, matched := 0, firstSkew := none }).enterSearch n

/-- The order is counted, and asked of the partner. -/
def fullOrdered (s : State) (n : Fin 8) : State :=
  ((s.fullSearch n).bump (R.LEDGER_LINK_FULL_CNTn n)).onLink fun l =>
    { l with retrainReq := setBit l.retrainReq n true, stable := 0 }

theorem orderFull_eq : s.orderFull n = (s.fullOrdered n).reviewStep.reviewState := rfl

theorem fullSearch_lane : (s.fullSearch n).dp.rx[n] =
    { s.dp.rx[n] with lock := .off, full := true, misses := 0, matched := 0, firstSkew := none }.searching := by
  rw [fullSearch, enterSearch_lane, onRx_rx_same]

theorem orderFull_lane : (s.orderFull n).dp.rx[n] =
    { s.dp.rx[n] with lock := .off, full := true, misses := 0, matched := 0, firstSkew := none }.searching := by
  rw [← fullSearch_lane, orderFull_eq, reviewState_dp]
  rfl

theorem orderFull_retrainReq : bitOf (s.orderFull n).dp.link.retrainReq n = true := by
  rw [orderFull_eq, reviewState_dp, reviewStep_link]
  exact bitOf_setBit_true _ _

theorem fullOrdered_reg (a : Nat) : (s.fullOrdered n).reviewStep.reg a = ((s.fullSearch n).bump (R.LEDGER_LINK_FULL_CNTn n)).reg a :=
  (reg_congr (onLink_regs _ _) a).trans (reg_congr (onLink_regs _ _) a)

theorem fullSearch_touches : Touches [.dp, .eng, .evr] (fun a => a = R.OLn_CDR_STAT n ∨ a = R.OLn_CDR_FREQ n
    ∨ a = R.OLn_CDR_FALLBACK_CNT n ∨ noticeReg a) s (s.fullSearch n) := by
  unfold fullSearch enterSearch
  exact (Touches.refl _ _ s).onRx.onRx.trans enterFallback_touches

/-- The loop is in fallback (R86). -/
theorem orderFull_fallback : (s.orderFull n).flag (F.OLn_CDR_STAT_fallback n) = true := by
  have hfall : (s.fullSearch n).reg (R.OLn_CDR_STAT n) = 0x2 := enterFallback_reg.1
  have hstat : (s.orderFull n).reg (R.OLn_CDR_STAT n) = 0x2 := by
    rw [orderFull_eq, reviewState_reg (not_noticeReg_of_optical (by simp only [R.OLn_CDR_STAT]; omega)), fullOrdered_reg, bump,
      reg_bumpBy_ne _ _ _ _ (by simp only [R.OLn_CDR_STAT, R.LEDGER_LINK_FULL_CNTn]; omega), hfall]
  exact congrArg (fun w => getField w 1 1 == 1) hstat

theorem orderFull_counted : Claims.counted s (s.orderFull n) (R.LEDGER_LINK_FULL_CNTn n) 1 := by
  have hnotice : ¬ noticeReg (R.LEDGER_LINK_FULL_CNTn n) := not_noticeReg_ledger (by simp only [R.LEDGER_LINK_FULL_CNTn]; omega)
  refine counted_congr (counted_bump (s.fullSearch n) _) (fullSearch_touches.2.1 _ ?_) ?_
  · rintro (h | h | h | h)
    · simp only [R.LEDGER_LINK_FULL_CNTn, R.OLn_CDR_STAT] at h; omega
    · simp only [R.LEDGER_LINK_FULL_CNTn, R.OLn_CDR_FREQ] at h; omega
    · simp only [R.LEDGER_LINK_FULL_CNTn, R.OLn_CDR_FALLBACK_CNT] at h; omega
    · exact hnotice h
  · rw [orderFull_eq, reviewState_reg hnotice, fullOrdered_reg]

theorem orderFull_touches : LinkTouches s (s.orderFull n) := by
  have hsearch : LinkTouches s (s.fullSearch n) :=
    (Touches.refl _ _ s).onRx.trans (enterSearch_touches.mono (by simp) fun _ h => h)
  have hcount : Claims.linkReg (R.LEDGER_LINK_FULL_CNTn n) := linkReg_ledger (by simp only [R.LEDGER_LINK_FULL_CNTn]; omega)
  have hordered : LinkTouches s (s.fullOrdered n).reviewStep := (hsearch.bump hcount).onDp.onDp
  rw [orderFull_eq]
  exact hordered.trans (reviewState_touches.mono (by simp) fun _ => linkReg_notice)

end State

section
variable {s : State} {n : Fin 8}

theorem exec_relockTimeout (h : s.dp.rx[n].lock = .relock) : exec (.relockTimeout n) s = .next (s.orderFull n) := if_pos h

/-- The stage that a full retrain has not passed in time (R155, R159). -/
def State.retrainCode (s : State) (n : Fin 8) : Nat :=
  if s.acquired n = false then 0x20 else if s.dp.rx[n].lock ≠ .locked then 0x21 else 0x22

theorem retrainCode_lt : s.retrainCode n < 2 ^ 8 := by
  unfold State.retrainCode
  split
  · decide
  · split <;> decide

theorem exec_fullRetrainTimeout (h : s.dp.rx[n].full = true) (hup : s.linkUp = true) :
    exec (.fullRetrainTimeout n) s = .next (s.linkDown (s.retrainCode n)) := by
  have hcode : (if !s.acquired n then 0x20 else if s.dp.rx[n].lock != .locked then 0x21 else 0x22) = s.retrainCode n := by
    simp only [State.retrainCode, Bool.not_eq_true', bne_iff_ne]
  rw [← hcode]
  exact if_pos ⟨h, hup⟩

/-! ## The line signal (R157) -/

/-- A lane in line electrical idle holds. -/
def State.idleHeld (s : State) (n : Fin 8) : State := (s.onRx n fun r => { r with fe := .hold, heldIdle := true }).holdLoop n

theorem exec_lineSignalLoss (h5 : s.dp.link.peerStatus = 5) (hmask : bitOf s.laneMask n = true) (hlinked : s.inLinked = true)
    (htrack : s.dp.rx[n].fe = .track) : exec (.lineSignalLoss n) s =
      .next ((s.idleHeld n).onLink fun l => { l with retrainReq := setBit l.retrainReq n true }) :=
  if_pos ⟨h5, hmask, hlinked, htrack⟩

theorem idleHeld_lane : LaneNow n s (s.idleHeld n)
    { s.dp.rx[n] with fe := .hold, heldIdle := true, loop := { s.dp.rx[n].loop with errs := [], atLimit := 0 } } :=
  ((LaneNow.refl n s).onRx (f := fun r => { r with fe := .hold, heldIdle := true })).onRx
    (f := fun r => { r with loop := { r.loop with errs := [], atLimit := 0 } })

theorem idleHeld_touches : Touches [.dp] (· = R.OLn_CDR_STAT n) s (s.idleHeld n) :=
  (Touches.refl [.dp] (· = R.OLn_CDR_STAT n) s).onRx.trans State.holdLoop_touches

/-- The loop of a lane in line electrical idle is shown as holding. -/
theorem idleHeld_holding (f : Link → Link) : ((s.idleHeld n).onLink f).flag (F.OLn_CDR_STAT_holding n) = true :=
  (State.flag_congr (State.reg_congr (State.onLink_regs _ _) _)).trans State.holdLoop_flags.1

theorem exec_lineSignalDetect (h : s.dp.rx[n].heldIdle = true) : exec (.lineSignalDetect n) s =
    .next ((s.onRx n fun r => { r with heldIdle := false }).orderFast n) := if_pos h

end

/-! ## How the check of a lane that is not held in idle is answered (R144, R145, R155) -/

section
variable {s : State} {n : Fin 8} {labels : List (Fin 4)} {arrival : Nat} (hidle : s.dp.rx[n].heldIdle = false)
include hidle

/-- A hunting lane that finds the ensign, at the best offset `b`, verifies it. -/
theorem ensignCheck_finds {b : Nat × Nat} (hlock : s.dp.rx[n].lock = .hunt) (hb : ensignBest labels = b) (hbest : b.2 ≤ s.ensTol) :
    Answers (.ensignCheck n labels arrival) s fun t =>
      t.dp.rx[n].lock = .verify ∧ t.dp.rx[n].matched = 1 ∧ t.dp.rx[n].ensignOk = true
      ∧ t.dp.rx[n].lastArrival = arrival + b.1 - 8 ∧ LaneStays n s t ∧ Touches [.dp] (fun _ => False) s t := by
  have hexec := (exec_ensignCheck hidle hlock).trans (congrArg _ (ensignFollowed_hunt (arrival := arrival) (hb ▸ hbest)))
  rw [hb] at hexec
  have hlane := looked_onRx_lane (s := s) (n := n) (labels := labels) (arrival := arrival) (RxLane.found arrival b.1)
  exact ⟨_, hexec, congrArg RxLane.lock hlane.lane, congrArg RxLane.matched hlane.lane, congrArg RxLane.ensignOk hlane.lane,
    congrArg RxLane.lastArrival hlane.lane, hlane.andLink.stays (found_keeps _ _).1 (found_keeps _ _).2, looked_onRx_touches _⟩

/-- A lane that verifies is in lock at the third match; outside steps 2 to 5 nothing else follows. -/
theorem ensignCheck_locks (hlock : s.dp.rx[n].lock = .verify) (hhit : decide (ensignDiff labels 8 ≤ s.ensTol) = true)
    (hmatched : 2 ≤ s.dp.rx[n].matched) (h2 : s.dp.link.step ≠ 2) (h3 : s.dp.link.step ≠ 3) (h4 : s.dp.link.step ≠ 4)
    (h5 : s.dp.link.step ≠ 5) : Answers (.ensignCheck n labels arrival) s fun t =>
      t.dp.rx[n].lock = .locked ∧ t.dp.rx[n].misses = 0 ∧ LaneStays n s t ∧ Touches [.dp] (fun _ => False) s t := by
  have hexec := (exec_ensignCheck hidle hlock).trans (congrArg _ (ensignFollowed_verify (arrival := arrival) hhit))
  have hlane := looked_onRx_lane (s := s) (n := n) (labels := labels) (arrival := arrival)
    (RxLane.verified (s.dp.rx[n].matched + 1))
  rw [State.advanceSteps_of_outside (s := (s.looked n labels arrival).onRx n _) h2 h3 h4 h5] at hexec
  exact ⟨_, hexec, (congrArg RxLane.lock hlane.lane).trans (verified_lock _ hmatched), congrArg RxLane.misses hlane.lane,
    hlane.andLink.stays rfl rfl, looked_onRx_touches _⟩

/-- In step 3 the lane that locks last ends the step. -/
theorem ensignCheck_completes (hlock : s.dp.rx[n].lock = .verify) (hhit : decide (ensignDiff labels 8 ≤ s.ensTol) = true)
    (hothers : ∀ m ∈ s.activeLanes, m ≠ n → s.dp.rx[m].lock = .locked) (hmatched : 2 ≤ s.dp.rx[n].matched)
    (hstep : s.dp.link.step = 3) : Answers (.ensignCheck n labels arrival) s fun t =>
      t.dp.rx[n].lock = .locked ∧ t.dp.link.step = 4 ∧ Touches [.dp] (fun _ => False) s t := by
  have hexec := (exec_ensignCheck hidle hlock).trans (congrArg _ (ensignFollowed_verify (arrival := arrival) hhit))
  have hlane := looked_onRx_lane (s := s) (n := n) (labels := labels) (arrival := arrival)
    (RxLane.verified (s.dp.rx[n].matched + 1))
  rw [verified_advances hothers hmatched hstep] at hexec
  exact ⟨_, hexec, (State.nextStep_lock.trans (congrArg RxLane.lock hlane.lane)).trans (verified_lock _ hmatched), rfl,
    (looked_onRx_touches _).trans State.nextStep_touches⟩

/-- A mismatch sends a lane that verifies back to the hunt. -/
theorem ensignCheck_mismatches (hlock : s.dp.rx[n].lock = .verify) (hmiss : decide (ensignDiff labels 8 ≤ s.ensTol) = false) :
    Answers (.ensignCheck n labels arrival) s fun t =>
      t.dp.rx[n].lock = .hunt ∧ t.dp.rx[n].matched = 0 ∧ LaneStays n s t ∧ Touches [.dp] (fun _ => False) s t := by
  have hexec := (exec_ensignCheck hidle hlock).trans (congrArg _ (ensignFollowed_verifyMiss (arrival := arrival) hmiss))
  have hlane := looked_onRx_lane (s := s) (n := n) (labels := labels) (arrival := arrival) fun r =>
    { r with lock := .hunt, matched := 0 }
  exact ⟨_, hexec, congrArg RxLane.lock hlane.lane, congrArg RxLane.matched hlane.lane, hlane.andLink.stays rfl rfl,
    looked_onRx_touches _⟩

/-- A lane in lock counts its misses in a row. -/
theorem ensignCheck_counts (hlock : s.dp.rx[n].lock = .locked)
    (h : decide (ensignDiff labels 8 ≤ s.ensTol) = true ∨ s.dp.rx[n].misses < 3) :
    Answers (.ensignCheck n labels arrival) s fun t => t.dp.rx[n].lock = .locked
      ∧ t.dp.rx[n].misses = (if decide (ensignDiff labels 8 ≤ s.ensTol) then 0 else s.dp.rx[n].misses + 1)
      ∧ t.dp.rx[n].ensignOk = decide (ensignDiff labels 8 ≤ s.ensTol) ∧ LaneStays n s t ∧ Touches [.dp] (fun _ => False) s t := by
  have hexec := (exec_ensignCheck hidle hlock).trans (congrArg _ (ensignFollowed_locked (arrival := arrival) h))
  have hlane := looked_onRx_lane (s := s) (n := n) (labels := labels) (arrival := arrival) fun r =>
    { r with misses := if decide (ensignDiff labels 8 ≤ s.ensTol) then 0 else r.misses + 1 }
  exact ⟨_, hexec, (congrArg RxLane.lock hlane.lane).trans hlock, congrArg RxLane.misses hlane.lane,
    congrArg RxLane.ensignOk hlane.lane, hlane.andLink.stays rfl rfl, looked_onRx_touches _⟩

/-- The fourth miss in a row in LINKED orders the lane to retrain fast. -/
theorem ensignCheck_orders (hlock : s.dp.rx[n].lock = .locked) (hmiss : decide (ensignDiff labels 8 ≤ s.ensTol) = false)
    (hmisses : s.dp.rx[n].misses = 3) (hlinked : s.inLinked = true) (hfast : s.cfgOn F.LEDGER_LINK_CTRL_fast_en = true) :
    Answers (.ensignCheck n labels arrival) s (FastOrdered n s) :=
  ⟨_, (exec_ensignCheck hidle hlock).trans (congrArg _ (ensignFollowed_lost hmiss hmisses hlinked hfast)),
    orderFast_ordered State.looked_lane State.looked_touches rfl rfl rfl⟩

/-- A lane that relocks is in service again; the last one brings the link back to step 7. -/
theorem ensignCheck_relocks (hlock : s.dp.rx[n].lock = .relock) (hhit : decide (ensignDiff labels 8 ≤ s.ensTol) = true)
    (htrack : s.dp.rx[n].fe = .track) (hoff : s.laneOffset n arrival ≤ 228 * s.deskewNs) :
    Answers (.ensignCheck n labels arrival) s fun t =>
      t.dp.rx[n].lock = .locked ∧ bitOf t.dp.link.retrainReq n = false
      ∧ (s.dp.link.step = 8 → (∀ m ∈ s.activeLanes, m ≠ n → s.dp.rx[m].lock ≠ .relock) → t.dp.link.step = 7)
      ∧ LaneStays n s t ∧ Touches [.dp] (fun _ => False) s t :=
  ⟨_, (exec_ensignCheck hidle hlock).trans (congrArg _ (ensignFollowed_relock hhit htrack hoff)),
    congrArg RxLane.lock laneBack_reviewed.lane, laneBack_retrainReq, laneBack_step, laneBack_reviewed.stays rfl rfl,
    (looked_onRx_touches _).onDp.onDp⟩

end

/-- Settles O27: ENSIGN_CHECK is answered by the state of the lane's lock (`exec_ensignCheck`), an order to retrain fast leaves
`FastOrdered`, and a lane that has no lock in time searches anew (`State.orderFull_eq`) or takes the link down
(`State.linkDown_newAttempt`). -/
theorem laneLocks : Obligations.LaneLocks := by
  unfold Obligations.LaneLocks
  intro s n labels arrival
  refine ⟨fun hidle => ⟨fun hlock hbest => ensignCheck_finds hidle hlock rfl hbest,
    fun hlock hhit hmatched h3 h2 => ensignCheck_locks hidle hlock hhit hmatched h2 h3,
    fun hlock hhit hothers _ => ensignCheck_completes hidle hlock hhit hothers, ensignCheck_mismatches hidle, ensignCheck_counts hidle,
    ensignCheck_orders hidle, ensignCheck_relocks hidle⟩, fun hlock => ?_, fun hfull hup hcv hen => ?_,
    fun h5 hmask hlinked htrack => ?_, fun hidle => ?_⟩
  · have hlane := State.orderFull_lane (s := s) (n := n)
    exact ⟨_, exec_relockTimeout hlock, congrArg RxLane.lock hlane, congrArg RxLane.full hlane, congrArg RxLane.fe hlane,
      State.orderFull_retrainReq, State.orderFull_fallback, State.orderFull_counted, State.orderFull_touches⟩
  · have hdown := wentDown_linkDown (code := s.retrainCode n) hup hcv hen
    exact ⟨_, exec_fullRetrainTimeout hfull hup, State.linkDown_newAttempt hup hcv hen, hdown.counted_down,
      hdown.last_fail.trans (Nat.mod_eq_of_lt retrainCode_lt), State.linkDown_touches hup hcv hen⟩
  · have hlane := (idleHeld_lane (s := s) (n := n)).andLink.onLink (f := fun l =>
      { l with retrainReq := setBit l.retrainReq n true })
    refine ⟨_, exec_lineSignalLoss h5 hmask hlinked htrack, congrArg RxLane.fe hlane.lane, congrArg RxLane.heldIdle hlane.lane, ?_,
      idleHeld_holding _, hlane.stays rfl rfl, idleHeld_touches.onDp⟩
    rw [hlane.link]
    exact bitOf_setBit_true _ _
  · have hlane := (LaneNow.refl n s).onRx (f := fun r => { r with heldIdle := false })
    exact ⟨_, exec_lineSignalDetect hidle, congrArg RxLane.heldIdle (orderFast_lane hlane).lane,
      orderFast_ordered hlane (s.dp_touches _) rfl rfl rfl⟩

end Sys2Proof.Machine
end

section
/-!
A patrol read of a word (R357, R359): what it leaves in the word, and what it counts and reports.
-/

namespace Sys2Proof.Machine

section
variable {ps : List Part} {may : Nat → Prop} {s t : State}

theorem Touches.setInt (h : Touches ps may s t) {f : RField} (hps : .eng ∈ ps := by decide) (hf : may f.addr)
    (hmay : ∀ a, engReg a → may a) : Touches ps may s (t.setInt f) :=
  h.trans ((t.setInt_touches f).mono (by simpa using hps) fun a ha => ha.elim (fun h => h ▸ hf) (hmay a))

theorem Touches.onMem (h : Touches ps may s t) {f : MemState → MemState} (hps : ∀ p ∈ [Part.mem, .memStore], p ∈ ps := by decide) :
    Touches ps may s (t.onMem f) :=
  h.trans ((t.onMem_touches f).mono hps (by simp))

theorem Touches.drew (h : Touches ps may s t) : Touches ps may s t.drew := h.trans (t.drew_touches.mono (by simp) (by simp))

end

/-! ## Registers of MEM -/

/-- No event counts in a register of MEM. -/
theorem not_noticeReg_mem {a : Nat} (h : 0xA0000 ≤ a ∧ a < 0xB0000) : ¬ noticeReg a := by
  simp only [noticeReg, engReg, R.TOP_INT, R.EVR_DROP_CNT, R.EVR_INT]
  omega

theorem not_engReg_mem {a : Nat} (h : 0xA0000 ≤ a ∧ a < 0xB0000) : ¬ engReg a := fun he =>
  not_noticeReg_mem h (.inr (.inr (.inr he)))

/-- The words of a memory. -/
def patrolWords (dram : Bool) : Nat := if dram then 2 ^ 29 else 2 ^ 22

/-- The counters of corrected and of uncorrectable reads. -/
def ceCount (dram : Bool) : Nat := if dram then R.MEM_DRAM_CE_CNT else R.MEM_SRAM_CE_CNT
def ueCount (dram : Bool) : Nat := if dram then R.MEM_DRAM_UE_CNT else R.MEM_SRAM_UE_CNT

/-- Where an uncorrectable read was met, as MEM_ERR_ADDR gives it. -/
def errorPlace (dram : Bool) (loc : Nat) : Nat := if dram then 2 ^ 31 + loc / 8 % 2 ^ 26 else loc % 2 ^ 22

theorem errorPlace_lt {dram : Bool} {loc : Nat} : errorPlace dram loc < 2 ^ 32 := by
  cases dram
  · exact (Nat.mod_lt _ (by decide)).trans (by decide)
  · have := Nat.mod_lt (loc / 8) (y := 2 ^ 26) (by decide)
    simp only [errorPlace, if_true]
    omega

namespace State

section
variable {s t : State} {dram scrub : Bool} {loc syn : Nat}

/-- An interrupt flag that is set reads as set. -/
theorem setInt_flag {f : RField} (hw : f.width = 1) (hlo : f.lo < 32) (he : ¬ engReg f.addr) : (s.setInt f).flag f = true := by
  unfold setInt
  rw [flag_congr ((noticeSummary_touches _ _).2.1 _ he), hw]
  exact flag_wr_one hw hlo

/-! ## An uncorrectable read (R357) -/

/-- What an uncorrectable read writes before it raises the interrupt. -/
def errorNoted (s : State) (dram scrub : Bool) (loc syn : Nat) : State :=
  ((s.bump (ueCount dram)).setReg R.MEM_ERR_ADDR (BitVec.ofNat 32 (errorPlace dram loc))).setReg R.MEM_ERR_INFO
    (BitVec.ofNat 32 (b2n scrub + 2 * (syn % 256)))

theorem uncorrectable_eq : s.uncorrectable dram scrub loc syn =
    ((s.errorNoted dram scrub loc syn).setInt F.MEM_INT_ue).logEvent srcMem 0x3001 syn (errorPlace dram loc) := rfl

theorem uncorrectable_reg {a : Nat} (hmem : 0xA0000 ≤ a ∧ a < 0xB0000) (hint : a ≠ R.MEM_INT) :
    (s.uncorrectable dram scrub loc syn).reg a = (s.errorNoted dram scrub loc syn).reg a := by
  rw [uncorrectable_eq, reg_logEvent_of_not_notice (not_noticeReg_mem hmem),
    (setInt_touches _ _).2.1 a fun h => h.elim hint (not_engReg_mem hmem)]

theorem uncorrectable_flag : (s.uncorrectable dram scrub loc syn).flag F.MEM_INT_ue = true := by
  rw [uncorrectable_eq, flag_congr (reg_logEvent_of_not_notice (not_noticeReg_mem (by decide)))]
  exact setInt_flag rfl (by decide) (not_engReg_mem (by decide))

theorem uncorrectable_errAddr : ((s.uncorrectable dram scrub loc syn).reg R.MEM_ERR_ADDR).toNat = errorPlace dram loc := by
  rw [uncorrectable_reg (by decide) (by decide), errorNoted, reg_setReg_ne _ _ _ _ (by decide), reg_setReg_same, BitVec.toNat_ofNat]
  exact Nat.mod_eq_of_lt errorPlace_lt

theorem uncorrectable_errInfo :
    (s.uncorrectable dram scrub loc syn).reg R.MEM_ERR_INFO = BitVec.ofNat 32 (b2n scrub + 2 * (syn % 256)) := by
  rw [uncorrectable_reg (by decide) (by decide), errorNoted, reg_setReg_same]

theorem uncorrectable_counts : Claims.counted s (s.uncorrectable dram scrub loc syn) (ueCount dram) 1 := by
  refine counted_congr (counted_bump s (ueCount dram)) rfl ?_
  cases dram with
  | false | true =>
    rw [uncorrectable_reg (by decide) (by decide), errorNoted, reg_setReg_ne _ _ _ _ (by decide), reg_setReg_ne _ _ _ _ (by decide)]

/-! ## The word that a patrol reads -/

/-- The word at `loc` stands with `code`, and every other word as before. -/
def Stands (dram : Bool) (loc code : Nat) (s t : State) : Prop :=
  t.patrolCode dram loc = code
    ∧ ∀ l, l % patrolWords dram ≠ loc % patrolWords dram → t.patrolCode dram l = s.patrolCode dram l

theorem stands_setPatrolCode {code : Nat} (h : t.mem = s.mem) : Stands dram loc code s (t.setPatrolCode dram loc code) := by
  cases dram with
  | false =>
    refine ⟨mapGet_mapSet_same _ _ _ _, fun l hl => (mapGet_mapSet_ne _ _ _ _ _ _ hl).trans ?_⟩
    exact congrArg (fun m => mapGet 0 (MemState.sramEcc m) _) h
  | true =>
    refine ⟨mapGet_mapSet_same _ _ _ _, fun l hl => (mapGet_mapSet_ne _ _ _ _ _ _ hl).trans ?_⟩
    exact congrArg (fun m => mapGet 0 (MemState.dramEcc m) _) h

theorem Stands.refl {code : Nat} (h : s.patrolCode dram loc = code) (ht : t.mem = s.mem) : Stands dram loc code s t := by
  have hcode (l : Nat) : t.patrolCode dram l = s.patrolCode dram l := by simp only [patrolCode, ht]
  exact ⟨(hcode _).trans h, fun l _ => hcode l⟩

end

/-! ## The read, by what stands in the word (R357–R359) -/

section
variable {s t : State} {dram : Bool} {loc syn : Nat}

theorem patrol_of_poison (h : 3 ≤ s.patrolCode dram loc) : s.patrol dram loc syn = s := by
  unfold patrol
  split
  next h0 => omega
  next h1 => omega
  next h2 => omega
  next => rfl

theorem patrol_of_one (h : s.patrolCode dram loc = 1) : s.patrol dram loc syn = (s.corrected dram).setPatrolCode dram loc 0 := by
  unfold patrol
  rw [h]
  rfl

theorem patrol_of_two (h : s.patrolCode dram loc = 2) : s.patrol dram loc syn =
    (s.drew.uncorrectable dram true loc (1 + s.freeNat % 254)).setPatrolCode dram loc 3 := by
  unfold patrol
  rw [h]
  rfl

theorem patrol_of_clean (h : s.patrolCode dram loc = 0) : s.patrol dram loc syn =
    if syn = 0 then s else if syn = 0xFF then s.setPatrolCode dram loc 3 else if singleBit syn then s.corrected dram
    else (s.uncorrectable dram true loc syn).setPatrolCode dram loc 3 := by
  unfold patrol
  rw [h]
  rfl

theorem corrected_touches : Touches [.mem, .memStore] (· = ceCount dram) s (s.corrected dram) :=
  (bumpBy_touches s _ 1).mono (by simp) fun _ h => h

/-- A word with one wrong bit is corrected and counted. -/
structure WordCorrected (dram : Bool) (loc : Nat) (s t : State) : Prop where
  stands : Stands dram loc 0 s t
  counted : Claims.counted s t (ceCount dram) 1
  touches : Touches [.mem, .memStore] (· = ceCount dram) s t

theorem wordCorrected_of_clean (h : s.patrolCode dram loc = 0) : WordCorrected dram loc s (s.corrected dram) :=
  ⟨.refl h rfl, counted_bump s _, corrected_touches⟩

theorem wordCorrected_setPatrolCode : WordCorrected dram loc s ((s.corrected dram).setPatrolCode dram loc 0) :=
  ⟨stands_setPatrolCode rfl, counted_bump s _, corrected_touches.onMem⟩

/-- An uncorrectable word is counted, recorded with syndrome `syn` and flagged, and stands with the poison code. -/
structure WordLost (dram : Bool) (loc syn : Nat) (s t : State) : Prop where
  stands : Stands dram loc 3 s t
  counted : Claims.counted s t (ueCount dram) 1
  flag : t.flag F.MEM_INT_ue = true
  place : (t.reg R.MEM_ERR_ADDR).toNat = errorPlace dram loc
  info : t.reg R.MEM_ERR_INFO = BitVec.ofNat 32 (1 + 2 * (syn % 256))
  touches : Touches [.mem, .memStore, .eng, .evr] Claims.ueReg s t

theorem wordLost_setPatrolCode : WordLost dram loc syn s ((s.uncorrectable dram true loc syn).setPatrolCode dram loc 3) :=
  ⟨stands_setPatrolCode (uncorrectable_mem _ _ _ _ _), uncorrectable_counts, uncorrectable_flag, uncorrectable_errAddr,
    uncorrectable_errInfo, ((uncorrectable_touches s dram true loc syn).mono (by decide) fun _ h => h).onMem⟩

/-- A draw before the read changes nothing of this. -/
theorem WordLost.of_drew (h : WordLost dram loc syn s.drew t) : WordLost dram loc syn s t :=
  ⟨h.stands, h.counted, h.flag, h.place, h.info, (Touches.refl _ _ s).drew.trans h.touches⟩

/-- MEM_ERR_INFO says that a patrol met the error, with a syndrome that is neither 0 nor the poison code's. -/
theorem WordLost.info_bounds (h : WordLost dram loc syn s t) (hpos : 0 < syn) (hlt : syn < 255) :
    (t.reg R.MEM_ERR_INFO).toNat % 2 = 1 ∧ (t.reg R.MEM_ERR_INFO).toNat / 2 < 255 ∧ 1 < (t.reg R.MEM_ERR_INFO).toNat := by
  rw [h.info, BitVec.toNat_ofNat]
  omega

/-- Every patrol read touches what reads of memories touch. -/
theorem patrol_touches : Touches memReadParts memReadReg s (s.patrol dram loc syn) := by
  have hue (u : State) (y : Nat) : Touches memReadParts memReadReg u ((u.uncorrectable dram true loc y).setPatrolCode dram loc 3) :=
    wordLost_setPatrolCode.touches.mono (by decide) fun _ h => .inr (.inr h)
  have hce {u v : State} (h : WordCorrected dram loc u v) : Touches memReadParts memReadReg u v :=
    h.touches.mono (by decide) fun a h => by
      cases dram with
      | false => exact .inl h
      | true => exact .inr (.inl h)
  match hcode : s.patrolCode dram loc with
  | 0 =>
    rw [patrol_of_clean hcode]
    exact .ite (.refl _ _ _) (.ite (onMem_read _ _) (.ite (hce (wordCorrected_of_clean hcode)) (hue _ _)))
  | 1 =>
    rw [patrol_of_one hcode]
    exact hce wordCorrected_setPatrolCode
  | 2 =>
    rw [patrol_of_two hcode]
    exact (Touches.refl _ _ s).drew.trans (hue _ _)
  | n + 3 =>
    rw [patrol_of_poison (by omega)]
    exact .refl _ _ _

/-- A patrol read changes at most the check bits of its word. -/
theorem patrol_mem :
    (s.patrol dram loc syn).mem = s.mem ∨ ∃ code, (s.patrol dram loc syn).mem = (s.setPatrolCode dram loc code).mem := by
  have hue (u : State) (y : Nat) (hu : u.mem = s.mem) :
      ((u.uncorrectable dram true loc y).setPatrolCode dram loc 3).mem = (s.setPatrolCode dram loc 3).mem := by
    simp only [setPatrolCode, onMem, uncorrectable_mem, hu]
  match hcode : s.patrolCode dram loc with
  | 0 =>
    rw [patrol_of_clean hcode]
    split
    · exact .inl rfl
    · split
      · exact .inr ⟨3, rfl⟩
      · split
        · exact .inl rfl
        · exact .inr ⟨3, hue s syn rfl⟩
  | 1 =>
    rw [patrol_of_one hcode]
    exact .inr ⟨0, rfl⟩
  | 2 =>
    rw [patrol_of_two hcode]
    exact .inr ⟨3, hue s.drew _ rfl⟩
  | n + 3 =>
    rw [patrol_of_poison (by omega)]
    exact .inl rfl

end

/-! ## SCRUB_READ -/

/-- The patrol of a memory is on. -/
def scrubs (s : State) (dram : Bool) : Bool := if dram then s.flag F.MEM_CTRL_dram_scrub else s.flag F.MEM_CTRL_sram_scrub

section
variable {s : State} {dram parity : Bool} {loc : Nat} {syn : BitVec 8}

theorem exec_scrubRead_off (h : s.scrubs dram = false ∨ 1 < s.pwr.pstate) : exec (.scrubRead dram loc syn parity) s = .next s := by
  refine if_pos ?_
  change (!(s.scrubs dram && decide (s.pwr.pstate ≤ 1))) = true
  rcases h with h | h
  · rw [h]
    rfl
  · rw [decide_eq_false (by omega), Bool.and_false]
    rfl

theorem exec_scrubRead_on (hon : s.scrubs dram = true) (hup : s.pwr.pstate ≤ 1) : exec (.scrubRead dram loc syn parity) s =
    .next (if (if parity then s.validParity dram (validWord dram loc) else s).patrolValid dram loc
      then (if parity then s.validParity dram (validWord dram loc) else s).patrol dram loc syn.toNat
      else if parity then s.validParity dram (validWord dram loc) else s) := by
  refine if_neg ?_
  change ¬ (!(s.scrubs dram && decide (s.pwr.pstate ≤ 1))) = true
  rw [hon, decide_eq_true hup]
  decide

theorem exec_scrubRead_valid (hon : s.scrubs dram = true) (hup : s.pwr.pstate ≤ 1) (hvalid : s.patrolValid dram loc = true) :
    exec (.scrubRead dram loc syn false) s = .next (s.patrol dram loc syn.toNat) := by
  rw [exec_scrubRead_on hon hup, if_neg Bool.false_ne_true, if_pos hvalid]

/-- A word that is not valid, one that carries the poison code and one that reads clean are passed over. -/
theorem exec_scrubRead_passes (hon : s.scrubs dram = true) (hup : s.pwr.pstate ≤ 1)
    (h : s.patrolValid dram loc = false ∨ 3 ≤ s.patrolCode dram loc ∨ (s.patrolCode dram loc = 0 ∧ syn = 0)) :
    exec (.scrubRead dram loc syn false) s = .next s := by
  cases hvalid : s.patrolValid dram loc with
  | false => rw [exec_scrubRead_on hon hup, if_neg Bool.false_ne_true, hvalid, if_neg Bool.false_ne_true]
  | true =>
    rw [exec_scrubRead_valid hon hup hvalid]
    rcases h with h | h | ⟨hclean, rfl⟩
    · rw [h] at hvalid
      cases hvalid
    · rw [patrol_of_poison h]
    · rw [patrol_of_clean hclean]
      rfl

end

section
variable {s : State} {dram : Bool} {loc : Nat} {syn : BitVec 8} (hon : s.scrubs dram = true) (hup : s.pwr.pstate ≤ 1)
  (hvalid : s.patrolValid dram loc = true)
include hon hup hvalid

/-- A clean word that reads with the poison code's syndrome is rewritten, and counts nowhere (R358). -/
theorem scrubRead_poisons (hcode : s.patrolCode dram loc = 0) : Answers (.scrubRead dram loc 0xFF false) s fun t =>
    Stands dram loc 3 s t ∧ Touches [.mem, .memStore] (fun _ => False) s t := by
  refine ⟨_, exec_scrubRead_valid hon hup hvalid, ?_⟩
  rw [patrol_of_clean hcode]
  exact ⟨stands_setPatrolCode rfl, s.onMem_touches _⟩

theorem scrubRead_corrects (hcode : s.patrolCode dram loc = 1
      ∨ (s.patrolCode dram loc = 0 ∧ syn ≠ 0 ∧ syn ≠ 0xFF ∧ singleBit syn.toNat = true)) :
    Answers (.scrubRead dram loc syn false) s (WordCorrected dram loc s) := by
  refine ⟨_, exec_scrubRead_valid hon hup hvalid, ?_⟩
  rcases hcode with hone | ⟨hclean, hzero, hpoison, hsingle⟩
  · rw [patrol_of_one hone]
    exact wordCorrected_setPatrolCode
  · rw [patrol_of_clean hclean, if_neg (by bv_omega), if_neg (by bv_omega), if_pos hsingle]
    exact wordCorrected_of_clean hclean

/-- The syndrome of an uncorrectable word is the one read, or where two flipped bits stood in the word one that is drawn. -/
theorem scrubRead_loses (hcode : s.patrolCode dram loc = 2
      ∨ (s.patrolCode dram loc = 0 ∧ syn ≠ 0 ∧ syn ≠ 0xFF ∧ singleBit syn.toNat = false)) :
    Answers (.scrubRead dram loc syn false) s fun t =>
      ∃ y, 0 < y ∧ y < 255 ∧ (s.patrolCode dram loc = 0 → y = syn.toNat) ∧ WordLost dram loc y s t := by
  refine ⟨_, exec_scrubRead_valid hon hup hvalid, ?_⟩
  rcases hcode with htwo | ⟨hclean, hzero, hpoison, hsingle⟩
  · refine ⟨1 + s.freeNat % 254, by omega, by omega, fun h => ?_, ?_⟩
    · rw [htwo] at h
      cases h
    · rw [patrol_of_two htwo]
      exact wordLost_setPatrolCode.of_drew
  · have hzero' : syn.toNat ≠ 0 := by bv_omega
    have hpoison' : syn.toNat ≠ 255 := by bv_omega
    refine ⟨syn.toNat, by omega, by omega, fun _ => rfl, ?_⟩
    rw [patrol_of_clean hclean, if_neg hzero', if_neg hpoison', if_neg (Bool.eq_false_iff.mp hsingle)]
    exact wordLost_setPatrolCode

end
end State
end Sys2Proof.Machine
end

section
/-!
A parity error of a word of a valid-bit array (R360): its 32 units are valid from then on, with whatever stood in them, and what was
valid before stands.
-/

namespace Sys2Proof.Machine

/-! ## Units of memory -/

/-- The words of a unit of memory that one valid bit covers: a 4 KiB block of DRAM, a 64-byte line of SRAM. -/
def unitWords (dram : Bool) : Nat := if dram then 512 else 8

/-- The units of a memory. -/
def unitCount (dram : Bool) : Nat := if dram then 2 ^ 20 else 2 ^ 19

/-- The word of the valid-bit array that covers a location holds the valid bits of 32 units. -/
theorem validWord_units {dram : Bool} {loc k : Nat} (h : k < 32) : 32 * State.validWord dram loc + k < unitCount dram := by
  cases dram with
  | false | true =>
    simp only [State.validWord, unitCount, if_true, if_false, Bool.false_eq_true]
    omega

theorem unit_lt {dram : Bool} {l : Nat} (h : l < patrolWords dram) : l / unitWords dram < unitCount dram :=
  Nat.div_lt_of_lt_mul (h.trans_eq (by cases dram <;> rfl))

theorem word_lt {dram : Bool} {k w : Nat} (hk : k < unitCount dram) (hw : w < unitWords dram) :
    unitWords dram * k + w < patrolWords dram := by
  cases dram with
  | false => change 8 * k + w < 2 ^ 22; change k < 2 ^ 19 at hk; change w < 8 at hw; omega
  | true => change 512 * k + w < 2 ^ 29; change k < 2 ^ 20 at hk; change w < 512 at hw; omega

theorem div_unitWords {dram : Bool} {k w : Nat} (hw : w < unitWords dram) : (unitWords dram * k + w) / unitWords dram = k := by
  rw [Nat.mul_add_div (by omega), Nat.div_eq_of_lt hw, Nat.add_zero]

namespace State

/-- A unit of memory is valid. -/
def unitValid (s : State) (dram : Bool) (k : Nat) : Bool := if dram then s.dramBlockValid (4096 * k) else s.sramLineValid (8 * k)

theorem unitValid_block {s : State} {k : Nat} : s.unitValid true k = mapGet false s.mem.dramValid k :=
  congrArg (mapGet false s.mem.dramValid) (Nat.mul_div_cancel_left k (by decide))

theorem unitValid_line {s : State} {k : Nat} : s.unitValid false k = (decide (2 ^ 21 ≤ 8 * k) || mapGet false s.mem.sramValid k) :=
  congrArg (fun l => decide (2 ^ 21 ≤ 8 * k) || mapGet false s.mem.sramValid l) (Nat.mul_div_cancel_left k (by decide))

theorem unitValid_congr {s t : State} {dram : Bool} {k : Nat} (h : t.mem = s.mem) : t.unitValid dram k = s.unitValid dram k := by
  simp only [unitValid, dramBlockValid, sramLineValid, h]

theorem unitValid_setPatrolCode {s : State} {dram bank : Bool} {l c k : Nat} :
    (s.setPatrolCode bank l c).unitValid dram k = s.unitValid dram k := by
  cases bank <;> rfl

theorem dramBlockValid_eq {s : State} {a : Nat} : s.dramBlockValid a = s.unitValid true (a / 4096) := unitValid_block.symm

theorem sramLineValid_eq {s : State} {l : Nat} : s.sramLineValid l = s.unitValid false (l / 8) := by
  rw [unitValid_line, sramLineValid, show decide (2 ^ 21 ≤ 8 * (l / 8)) = decide (2 ^ 21 ≤ l) from by rw [decide_eq_decide]; omega]

theorem patrolValid_eq {s : State} {dram : Bool} {l : Nat} (h : l < patrolWords dram) :
    s.patrolValid dram l = s.unitValid dram (l / unitWords dram) := by
  cases dram with
  | false =>
    change s.sramLineValid (l % 2 ^ 22) = _
    rw [Nat.mod_eq_of_lt (show l < 2 ^ 22 from h), sramLineValid_eq]
    rfl
  | true =>
    change s.dramBlockValid (l % 2 ^ 29 * 8) = _
    rw [Nat.mod_eq_of_lt (show l < 2 ^ 29 from h), dramBlockValid_eq, show l * 8 / 4096 = l / 512 by omega]
    rfl

end State

/-! ## Valid bits alone do not lose what is stored -/

/-- Unit `k` may have got new contents; beside it the memory holds what it held, valid or not. -/
structure BesideUnit (dram : Bool) (k : Nat) (s t : State) : Prop where
  code : ∀ l, l < patrolWords dram → l / unitWords dram ≠ k → t.patrolCode dram l = s.patrolCode dram l
  byte : ∀ a, (dram = true → a / 4096 ≠ k) → t.dramByte a = s.dramByte a
  blocks : ∀ b, (dram = true → b ≠ k) → t.unitValid true b = s.unitValid true b
  units : ∀ j, j ≠ k → t.unitValid dram j = s.unitValid dram j

namespace BesideUnit

variable {dram : Bool} {k : Nat} {s t u : State}

theorem of_mem (h : t.mem = s.mem) : BesideUnit dram k s t :=
  ⟨fun l _ _ => by simp only [State.patrolCode, h], fun a _ => by simp only [State.dramByte, h],
    fun b _ => by simp only [State.unitValid_block, h], fun j _ => State.unitValid_congr h⟩

theorem trans (h : BesideUnit dram k s t) (g : BesideUnit dram k t u) : BesideUnit dram k s u :=
  ⟨fun l hl hk => (g.code l hl hk).trans (h.code l hl hk), fun a ha => (g.byte a ha).trans (h.byte a ha),
    fun b hb => (g.blocks b hb).trans (h.blocks b hb), fun j hj => (g.units j hj).trans (h.units j hj)⟩

theorem foldl {β : Type} (g : State → β → State) (l : List β) (h : ∀ s, ∀ x ∈ l, BesideUnit dram k s (g s x)) (s : State) :
    BesideUnit dram k s (l.foldl g s) :=
  List.foldlRecOn (motive := fun t => BesideUnit dram k s t) l g (of_mem rfl) fun t ht x hx => ht.trans (h t x hx)

/-- What stands in a word of the unit changes. -/
theorem setPatrolCode {l c : Nat} (hl : l < patrolWords dram) (hk : l / unitWords dram = k) :
    BesideUnit dram k s (s.setPatrolCode dram l c) := by
  have hcode := (State.stands_setPatrolCode (s := s) (t := s) (dram := dram) (loc := l) (code := c) rfl).2
  refine ⟨fun m hm hmk => hcode m fun heq => hmk ?_, fun a _ => ?_, fun b _ => ?_, fun j _ => State.unitValid_setPatrolCode⟩
  · rw [Nat.mod_eq_of_lt hm, Nat.mod_eq_of_lt hl] at heq
    rw [heq, hk]
  · cases dram <;> rfl
  · cases dram <;> rfl

end BesideUnit

/-! ## A unit that becomes valid -/

/-- The units `ks` have become valid; what was valid before holds what it held. -/
structure Opened (dram : Bool) (ks : List Nat) (s t : State) : Prop where
  valid : ∀ k, k < unitCount dram → t.unitValid dram k = (s.unitValid dram k || ks.contains k)
  code : ∀ l, l < patrolWords dram → s.patrolValid dram l = true → t.patrolCode dram l = s.patrolCode dram l
  byte : ∀ a, s.dramBlockValid a = true → t.dramByte a = s.dramByte a
  blocks : ∀ a, s.dramBlockValid a = true → t.dramBlockValid a = true

namespace Opened

variable {dram : Bool} {ks : List Nat} {s t u : State}

theorem nil : Opened dram [] s s :=
  ⟨fun k _ => by simp, fun _ _ _ => rfl, fun _ _ => rfl, fun _ h => h⟩

/-- A unit that was valid already. -/
theorem of_valid {k : Nat} (h : s.unitValid dram k = true) : Opened dram [k] s s := by
  refine ⟨fun j _ => ?_, fun _ _ _ => rfl, fun _ _ => rfl, fun _ h => h⟩
  by_cases hj : j = k
  · simp [hj, h]
  · simp [hj]

/-- A unit that was not valid, and that alone gets new contents. -/
theorem of_beside {k : Nat} (hinvalid : s.unitValid dram k = false) (h : BesideUnit dram k s t)
    (hvalid : t.unitValid dram k = true) : Opened dram [k] s t := by
  have hother {b : Nat} (hb : s.unitValid true b = true) (hd : dram = true) : b ≠ k := by
    rintro rfl
    rw [hd, hb] at hinvalid
    cases hinvalid
  refine ⟨fun j _ => ?_, fun l hl hs => h.code l hl ?_, fun a ha => h.byte a ?_, fun a ha => ?_⟩
  · by_cases hj : j = k
    · simp [hj, hvalid]
    · simp [hj, h.units j hj]
  · rintro rfl
    rw [State.patrolValid_eq hl, hinvalid] at hs
    cases hs
  · exact hother (State.dramBlockValid_eq ▸ ha)
  · rw [State.dramBlockValid_eq] at ha ⊢
    rw [h.blocks _ (hother ha), ha]

theorem keeps_patrolValid (h : Opened dram ks s t) {l : Nat} (hl : l < patrolWords dram) (hs : s.patrolValid dram l = true) :
    t.patrolValid dram l = true := by
  rw [State.patrolValid_eq hl] at hs ⊢
  rw [h.valid _ (unit_lt hl), hs, Bool.true_or]

/-- The units of a word become valid one by one. -/
theorem cons {k : Nat} (h : Opened dram [k] s t) (g : Opened dram ks t u) : Opened dram (k :: ks) s u := by
  refine ⟨fun j hj => ?_, fun l hl hs => (g.code l hl (h.keeps_patrolValid hl hs)).trans (h.code l hl hs),
    fun a ha => (g.byte a (h.blocks a ha)).trans (h.byte a ha), fun a ha => g.blocks a (h.blocks a ha)⟩
  rw [g.valid j hj, h.valid j hj, Bool.or_assoc, List.contains_cons, List.contains_cons, List.contains_nil, Bool.or_false]

theorem foldl (g : State → Nat → State) (f : Nat → Nat) (l : List Nat) (h : ∀ s, ∀ i ∈ l, Opened dram [f i] s (g s i)) (s : State) :
    Opened dram (l.map f) s (l.foldl g s) := by
  induction l generalizing s with
  | nil => exact nil
  | cons i l ih =>
    have hfirst := h s i (by simp)
    exact hfirst.cons (ih (fun s j hj => h s j (by simp [hj])) _)

end Opened

namespace State

section
variable {s t : State} {b l : Nat}

/-! ## Stale contents -/

/-- What stands in the words of a unit becomes free. -/
def recoded (s : State) (dram : Bool) (k : Nat) : State :=
  (List.range (unitWords dram)).foldl (fun s w => (s.setPatrolCode dram (unitWords dram * k + w) (s.freeNat % 4)).drew) s

theorem recoded_beside {dram : Bool} {k : Nat} (hk : k < unitCount dram) : BesideUnit dram k s (s.recoded dram k) := by
  refine .foldl _ _ (fun u w hw => ?_) s
  have hin := List.mem_range.mp hw
  have hset := BesideUnit.setPatrolCode (s := u) (c := u.freeNat % 4) (word_lt hk hin) (div_unitWords hin)
  exact hset.trans (.of_mem rfl)

theorem recoded_unitValid {dram bank : Bool} {k j : Nat} : (s.recoded bank k).unitValid dram j = s.unitValid dram j :=
  List.foldlRecOn (motive := fun t : State => t.unitValid dram j = s.unitValid dram j) _ _ rfl fun _ ht _ _ =>
    unitValid_setPatrolCode.trans ht

theorem recoded_touches {dram : Bool} {k : Nat} : Touches memReadParts memReadReg s (s.recoded dram k) :=
  Touches.foldl _ (fun u _ => (onMem_read u _).drew) _ s

/-! ## A line of SRAM -/

def lineOpened (s : State) (l : Nat) : State := s.onMem fun m => { m with sramValid := mapSet false m.sramValid l true }

theorem lineOpened_sramValid : (s.lineOpened l).mem.sramValid = mapSet false s.mem.sramValid l true := rfl

theorem lineOpened_beside : BesideUnit false l s (s.lineOpened l) := by
  refine ⟨fun _ _ _ => rfl, fun _ _ => rfl, fun _ _ => rfl, fun j hj => ?_⟩
  rw [unitValid_line, unitValid_line, lineOpened_sramValid, mapGet_mapSet_ne _ _ _ _ _ _ hj]

theorem lineOpened_unitValid : (s.lineOpened l).unitValid false l = true := by
  rw [unitValid_line, lineOpened_sramValid, mapGet_mapSet_same, Bool.or_true]

theorem staleLine_eq : s.staleLine l = if s.unitValid false l then s else (s.lineOpened l).recoded false l := rfl

theorem staleLine_opened (hl : l < unitCount false) : Opened false [l] s (s.staleLine l) := by
  rw [staleLine_eq]
  split
  next h => exact .of_valid h
  next h =>
    exact .of_beside (Bool.eq_false_iff.mpr h) (lineOpened_beside.trans (recoded_beside hl))
      (recoded_unitValid.trans lineOpened_unitValid)

theorem staleLine_touches : Touches memReadParts memReadReg s (s.staleLine l) := by
  rw [staleLine_eq]
  exact .ite (.refl _ _ _) ((onMem_read _ _).trans recoded_touches)

/-! ## A write of DRAM -/

/-- The words that a write touches are stored with new check bits. -/
def wordsWritten (s : State) (a n : Nat) : State :=
  (List.range ((a + n + 7) / 8 - a / 8)).foldl (fun s i => s.dramWriteWord ((a / 8 + i) % 2 ^ 29) a n) s

/-- The bytes that a write stores. -/
def bytesWritten (m : MemState) (a : Nat) (bs : List Byte) : MemState :=
  bs.zipIdx.foldl (fun m x => { m with dram := mapSet 0 m.dram ((a + x.2) % 2 ^ 32) x.1 }) m

/-- The blocks that a write makes valid. -/
def blocksWritten (m : MemState) (a n : Nat) : MemState :=
  (List.range ((a + n + 4095) / 4096 - a / 4096)).foldl
    (fun m i => { m with dramValid := mapSet false m.dramValid ((a / 4096 + i) % 2 ^ 20) true }) m

theorem dramWrite_eq {a : Nat} {bs : List Byte} :
    s.dramWrite a bs = (s.wordsWritten a bs.length).onMem fun m => blocksWritten (bytesWritten m a bs) a bs.length := rfl

theorem dramWriteWord_touches (w a n : Nat) : Touches memReadParts memReadReg s (s.dramWriteWord w a n) := by
  unfold dramWriteWord
  exact .ite (.refl _ _ _) (.ite (onMem_read _ _) ((eccRead_read s true (some w) _).trans (onMem_read _ _)))

theorem dramWrite_touches (a : Nat) (bs : List Byte) : Touches memReadParts memReadReg s (s.dramWrite a bs) :=
  (Touches.foldl _ (fun _ _ => dramWriteWord_touches _ _ _) _ s).trans (onMem_read _ _)

theorem bytesWritten_dram {m : MemState} {a x : Nat} {bs : List Byte} (h : ∀ i, i < bs.length → (a + i) % 2 ^ 32 ≠ x) :
    mapGet 0 (bytesWritten m a bs).dram x = mapGet 0 m.dram x :=
  List.foldlRecOn (motive := fun n : MemState => mapGet 0 n.dram x = mapGet 0 m.dram x) _ _ rfl fun _ hn y hy =>
    (mapGet_mapSet_ne _ _ _ _ _ _ (h y.2 (by simpa using List.snd_lt_of_mem_zipIdx hy)).symm).trans hn

theorem bytesWritten_rest {m : MemState} {a : Nat} {bs : List Byte} :
    (bytesWritten m a bs).dramValid = m.dramValid ∧ (bytesWritten m a bs).dramEcc = m.dramEcc :=
  List.foldlRecOn (motive := fun n : MemState => n.dramValid = m.dramValid ∧ n.dramEcc = m.dramEcc) _ _ ⟨rfl, rfl⟩
    fun _ hn _ _ => hn

/-- A word that is written whole is stored with its correct check bits. -/
theorem dramWriteWord_whole {w a n : Nat} (hlo : a ≤ 8 * w) (hhi : 8 * w + 8 ≤ a + n) (hw : w < patrolWords true)
    (hb : w / unitWords true = b) : BesideUnit true b s (s.dramWriteWord w a n) := by
  unfold dramWriteWord
  split
  · exact .of_mem rfl
  · rw [if_pos ⟨hlo, hhi⟩]
    have hset := BesideUnit.setPatrolCode (s := s) (c := 0) hw hb
    rwa [← Nat.mul_div_cancel_left w (show 0 < 8 by decide)] at hset

theorem wordsWritten_block (hb : b < 2 ^ 20) : BesideUnit true b s (s.wordsWritten (4096 * b) 4096) := by
  refine .foldl _ _ (fun u i hi => ?_) s
  have hi512 : i < 512 := (List.mem_range.mp hi).trans_eq (by omega)
  have hword : (4096 * b / 8 + i) % 2 ^ 29 = 512 * b + i := by omega
  rw [hword]
  exact dramWriteWord_whole (by omega) (by omega) (by change _ < 2 ^ 29; omega) (by change _ / 512 = b; omega)

theorem blocksWritten_block {m : MemState} (hb : b < 2 ^ 20) :
    blocksWritten m (4096 * b) 4096 = { m with dramValid := mapSet false m.dramValid b true } := by
  have hcount : (4096 * b + 4096 + 4095) / 4096 - 4096 * b / 4096 = 1 := by omega
  have hblock : (4096 * b / 4096 + 0) % 2 ^ 20 = b := by omega
  unfold blocksWritten
  rw [hcount, List.range_one, List.foldl_cons, List.foldl_nil, hblock]

theorem dramWrite_mem {bs : List Byte} (hb : b < 2 ^ 20) (hbs : bs.length = 4096) : (s.dramWrite (4096 * b) bs).mem =
    { bytesWritten (s.wordsWritten (4096 * b) 4096).mem (4096 * b) bs with
      dramValid := mapSet false (s.wordsWritten (4096 * b) 4096).mem.dramValid b true } := by
  rw [dramWrite_eq, hbs, ← (bytesWritten_rest (a := 4096 * b) (bs := bs)).1]
  exact blocksWritten_block hb

/-- A block is written whole: it alone changes, and becomes valid. -/
theorem dramWrite_block {bs : List Byte} (hb : b < 2 ^ 20) (hbs : bs.length = 4096) :
    BesideUnit true b s (s.dramWrite (4096 * b) bs) := by
  refine (wordsWritten_block hb).trans ⟨fun l _ _ => ?_, fun a ha => ?_, fun c hc => ?_, fun c hc => ?_⟩
  · simp only [patrolCode, dramWrite_mem hb hbs, bytesWritten_rest.2, if_true]
  · simp only [dramByte, dramWrite_mem hb hbs]
    exact bytesWritten_dram fun i hi heq => ha rfl (by omega)
  · simp only [unitValid_block, dramWrite_mem hb hbs]
    exact mapGet_mapSet_ne _ _ _ _ _ _ (hc rfl)
  · simp only [unitValid_block, dramWrite_mem hb hbs]
    exact mapGet_mapSet_ne _ _ _ _ _ _ hc

/-! ## A block of DRAM -/

/-- Stale contents of a block, as a write of them. -/
def staleBytes (s : State) : List Byte := (List.range 4096).map fun i => BitVec.ofNat 8 (Config.freeNat (s.draws + i))

theorem staleBytes_length : s.staleBytes.length = 4096 := by rw [staleBytes, List.length_map, List.length_range]

def blockOpened (s : State) (b : Nat) : State := { s.dramWrite (4096 * b) s.staleBytes with draws := s.draws + 4096 }

theorem blockOpened_beside (hb : b < 2 ^ 20) : BesideUnit true b s (s.blockOpened b) :=
  (dramWrite_block hb staleBytes_length).trans (.of_mem rfl)

theorem blockOpened_unitValid (hb : b < 2 ^ 20) : (s.blockOpened b).unitValid true b = true := by
  rw [unitValid_congr (t := s.blockOpened b) (s := s.dramWrite (4096 * b) s.staleBytes) rfl, unitValid_block,
    dramWrite_mem hb staleBytes_length, mapGet_mapSet_same]

theorem setDramCode_eq {w c : Nat} : s.setDramCode (4096 * b + 8 * w) c = s.setPatrolCode true (512 * b + w) c := by
  unfold setDramCode setPatrolCode
  rw [show (4096 * b + 8 * w) / 8 = 512 * b + w by omega]
  rfl

theorem staleBlock_eq : s.staleBlock b = if s.unitValid true b then s else (s.blockOpened b).recoded true b := by
  have hcodes : (fun (u : State) w => (u.setDramCode (4096 * b + 8 * w) (u.freeNat % 4)).drew) =
      fun u w => (u.setPatrolCode true (512 * b + w) (u.freeNat % 4)).drew := by
    funext u w
    rw [setDramCode_eq]
  unfold staleBlock
  rw [hcodes]
  rfl

theorem staleBlock_opened (hb : b < unitCount true) : Opened true [b] s (s.staleBlock b) := by
  rw [staleBlock_eq]
  split
  next h => exact .of_valid h
  next h =>
    exact .of_beside (Bool.eq_false_iff.mpr h) ((blockOpened_beside hb).trans (recoded_beside hb))
      (recoded_unitValid.trans (blockOpened_unitValid hb))

theorem blockOpened_touches : Touches memReadParts memReadReg s (s.blockOpened b) :=
  (dramWrite_touches _ _).trans ((draws_touches (s.dramWrite (4096 * b) s.staleBytes) _).mono (by simp) (by simp))

theorem staleBlock_touches : Touches memReadParts memReadReg s (s.staleBlock b) := by
  rw [staleBlock_eq]
  exact .ite (.refl _ _ _) (blockOpened_touches.trans recoded_touches)

/-! ## The word of the array -/

/-- The units that a word of a valid-bit array covers. -/
def coveredUnits (w : Nat) : List Nat := (List.range 32).map (32 * w + ·)

theorem contains_coveredUnits {w k : Nat} : (coveredUnits w).contains k = (k / 32 == w) := by
  rw [Bool.eq_iff_iff, List.contains_iff_mem, beq_iff_eq, coveredUnits, List.mem_map]
  constructor
  · rintro ⟨i, hi, rfl⟩
    have := List.mem_range.mp hi
    omega
  · rintro rfl
    exact ⟨k % 32, List.mem_range.mpr (Nat.mod_lt _ (by decide)), by omega⟩

/-- The units of a word of a valid-bit array, made valid. -/
def unitsOpened (s : State) (dram : Bool) (w : Nat) : State :=
  (List.range 32).foldl (fun s k => if dram then s.staleBlock (32 * w + k) else s.staleLine (32 * w + k)) s

theorem unitsOpened_opened {dram : Bool} {loc : Nat} :
    Opened dram (coveredUnits (validWord dram loc)) s (s.unitsOpened dram (validWord dram loc)) := by
  refine .foldl _ _ _ (fun u i hi => ?_) s
  have hunit := validWord_units (dram := dram) (loc := loc) (List.mem_range.mp hi)
  cases dram with
  | false => exact staleLine_opened hunit
  | true => exact staleBlock_opened hunit

theorem unitsOpened_touches {dram : Bool} {w : Nat} : Touches memReadParts memReadReg s (s.unitsOpened dram w) :=
  Touches.foldl _ (fun _ _ => .ite staleBlock_touches staleLine_touches) _ s

theorem validParity_touches {dram : Bool} {w : Nat} : Touches memReadParts memReadReg s (s.validParity dram w) :=
  unitsOpened_touches.logEvent (by decide) fun _ h => .inr (.inr (.inr (.inr (.inr (.inr (.inr h))))))

theorem validParity_mem {dram : Bool} {w : Nat} : (s.validParity dram w).mem = (s.unitsOpened dram w).mem :=
  (logEvent_touches _ _ _ _ _).1 .mem (by decide)

/-! ## The patrol read of a word whose valid bits meet the error -/

/-- At most what stands in the word at `loc` changes. -/
structure AtMostWord (dram : Bool) (loc : Nat) (s t : State) : Prop where
  code : ∀ l, l % patrolWords dram ≠ loc % patrolWords dram → t.patrolCode dram l = s.patrolCode dram l
  byte : ∀ a, t.dramByte a = s.dramByte a
  units : ∀ bank k, t.unitValid bank k = s.unitValid bank k

theorem AtMostWord.of_mem {dram : Bool} {loc : Nat} (h : t.mem = s.mem) : AtMostWord dram loc s t :=
  ⟨fun l _ => by simp only [patrolCode, h], fun a => by simp only [dramByte, h], fun _ _ => unitValid_congr h⟩

theorem AtMostWord.trans {dram : Bool} {loc : Nat} {u : State} (h : AtMostWord dram loc s t) (g : AtMostWord dram loc t u) :
    AtMostWord dram loc s u :=
  ⟨fun l hl => (g.code l hl).trans (h.code l hl), fun a => (g.byte a).trans (h.byte a),
    fun bank k => (g.units bank k).trans (h.units bank k)⟩

theorem patrol_atMostWord {dram : Bool} {loc syn : Nat} : AtMostWord dram loc s (s.patrol dram loc syn) := by
  rcases patrol_mem (s := s) (dram := dram) (loc := loc) (syn := syn) with h | ⟨c, h⟩
  · exact .of_mem h
  · have hafter := AtMostWord.of_mem (dram := dram) (loc := loc) h
    refine ⟨fun l hl => (hafter.code l hl).trans ((stands_setPatrolCode rfl).2 l hl), fun a => (hafter.byte a).trans ?_,
      fun bank k => (hafter.units bank k).trans unitValid_setPatrolCode⟩
    cases dram <;> rfl

/-- A patrol read whose valid bits meet a parity error: the units of the word `w` of the array are valid, and beside them and the
word read everything that was valid stands. -/
structure ParityMet (dram : Bool) (loc w : Nat) (s t : State) : Prop where
  valid : ∀ k, k < unitCount dram → t.unitValid dram k = (s.unitValid dram k || k / 32 == w)
  byte : ∀ a, s.dramBlockValid a = true → t.dramByte a = s.dramByte a
  code : ∀ l, l < patrolWords dram → l ≠ loc % patrolWords dram → s.patrolValid dram l = true →
    t.patrolCode dram l = s.patrolCode dram l
  touches : Touches memReadParts memReadReg s t

theorem parityMet_of_opened {dram : Bool} {loc w : Nat} {u : State} (hopened : Opened dram (coveredUnits w) s u)
    (hread : AtMostWord dram loc u t) (htouches : Touches memReadParts memReadReg s t) : ParityMet dram loc w s t := by
  refine ⟨fun k hk => ?_, fun a ha => (hread.byte a).trans (hopened.byte a ha), fun l hl hne hs => ?_, htouches⟩
  · rw [hread.units, hopened.valid k hk, contains_coveredUnits]
  · exact (hread.code l (by rwa [Nat.mod_eq_of_lt hl])).trans (hopened.code l hl hs)

theorem scrubRead_parity {dram : Bool} {loc : Nat} {syn : BitVec 8} (hon : s.scrubs dram = true) (hup : s.pwr.pstate ≤ 1) :
    Answers (.scrubRead dram loc syn true) s (ParityMet dram loc (validWord dram loc) s) := by
  refine ⟨_, exec_scrubRead_on hon hup, ?_⟩
  have hlogged : AtMostWord dram loc (s.unitsOpened dram (validWord dram loc)) (s.validParity dram (validWord dram loc)) :=
    .of_mem validParity_mem
  have hparity := validParity_touches (s := s) (dram := dram) (w := validWord dram loc)
  rw [if_pos rfl]
  split
  · exact parityMet_of_opened unitsOpened_opened (hlogged.trans patrol_atMostWord) (hparity.trans patrol_touches)
  · exact parityMet_of_opened unitsOpened_opened hlogged hparity

end
end State
end Sys2Proof.Machine
end

section
/-!
A clear of DRAM blocks (R361) and the arming of an injection (R358).
-/

namespace Sys2Proof.Machine

/-- A sparse memory of which the addresses outside `keep` are dropped. -/
theorem mapGet_filter_key {α : Type} (d : α) (keep : Nat → Bool) (m : List (Nat × α)) (a : Nat) :
    mapGet d (m.filter fun c => keep c.1) a = if keep a then mapGet d m a else d := by
  induction m with
  | nil => simp [mapGet]
  | cons x t ih =>
    obtain ⟨k, v⟩ := x
    by_cases hak : a = k
    · subst hak
      cases hkeep : keep a with
      | true => simp [mapGet, hkeep]
      | false => simp [hkeep, ih]
    · cases hkeep : keep k with
      | true => simp [mapGet, hkeep, hak, ih]
      | false => simp [mapGet, hkeep, hak, ih]

namespace State

section
variable {s t : State} {port : Fin 5} {v : Word}

/-- A write that a register of CLK, SEC, EVR or MEM takes acts as that register's. -/
theorem regWrite_base {x : Source} {a : Nat} {bad : Option Nat} (htop : s.topWrite x a v = none) (h : s.baseWrite x a v = some t) :
    s.regWrite x a v bad = t := by
  simp only [regWrite, htop, h]
  rfl

/-! ## Clears -/

theorem dramByte_dramClear {lo hi a : Nat} : (s.dramClear lo hi).dramByte a =
    if a / 4096 < lo ∨ hi ≤ a / 4096 then s.dramByte a else 0 := by
  refine (mapGet_filter_key 0 (fun k => decide (k / 4096 < lo) || decide (hi ≤ k / 4096)) _ a).trans ?_
  simp only [Bool.or_eq_true, decide_eq_true_eq]
  rfl

theorem exec_memClearGo (h : s.ready port R.MEM_CLEAR_CTRL = true) :
    exec (.memClearGo port) s = .next (s.checked R.MEM_CLEAR_CTRL).memClear :=
  congrArg Host.Outcome.next ((put_ready s port _ _ h (by decide) (by decide)).trans (regWrite_base rfl rfl))

theorem memClearGo_busy (h : s.ready port R.MEM_CLEAR_CTRL = true) (hbusy : s.flag F.MEM_STAT_clear_busy = true) :
    Answers (.memClearGo port) s (Touches [.mem] (fun _ => False) s) := by
  refine ⟨_, exec_memClearGo h, ?_⟩
  rw [memClear, if_pos (show (s.checked R.MEM_CLEAR_CTRL).flag F.MEM_STAT_clear_busy = true from hbusy)]
  exact s.checked_touches _

/-- The blocks that a clear names read as zero, and the clear runs. -/
theorem memClearGo_clears (h : s.ready port R.MEM_CLEAR_CTRL = true) (hbusy : s.flag F.MEM_STAT_clear_busy = false) :
    Answers (.memClearGo port) s fun t => t.flag F.MEM_STAT_clear_busy = true
      ∧ (∀ a, a < 2 ^ 32 → t.dramByte a = if s.rd F.MEM_CLEAR_BASE_block ≤ a / 4096
          ∧ a / 4096 < s.rd F.MEM_CLEAR_BASE_block + s.rd F.MEM_CLEAR_LEN_blocks then 0 else s.dramByte a)
      ∧ Touches [.mem, .memStore] (· = R.MEM_STAT) s t := by
  refine ⟨_, exec_memClearGo h, ?_⟩
  rw [memClear, if_neg (show ¬ (s.checked R.MEM_CLEAR_CTRL).flag F.MEM_STAT_clear_busy = true from Bool.eq_false_iff.mp hbusy)]
  refine ⟨flag_wr_one rfl (by decide), fun a ha => ?_, ?_⟩
  · refine dramByte_dramClear.trans ?_
    change (if _ < s.rd F.MEM_CLEAR_BASE_block ∨ min (2 ^ 20) (s.rd F.MEM_CLEAR_BASE_block + s.rd F.MEM_CLEAR_LEN_blocks) ≤ _
      then s.dramByte a else 0) = _
    split
    · rw [if_neg (by omega)]
    · rw [if_pos (by omega)]
  · exact (((s.checked_touches _).mono (by simp) (by simp)).onMem).wr rfl

/-- A clear ends. -/
theorem memClearDone_ends (hbusy : s.flag F.MEM_STAT_clear_busy = true) : Answers .memClearDone s fun t =>
    t.flag F.MEM_STAT_clear_busy = false ∧ t.flag F.MEM_INT_clear_done = true
      ∧ Touches [.eng] (fun a => a = R.MEM_STAT ∨ a = R.MEM_INT ∨ engReg a) s t := by
  refine ⟨_, congrArg Host.Outcome.next (if_pos hbusy), ?_, ?_, ?_⟩
  · rw [flag_congr ((setInt_touches _ F.MEM_INT_clear_done).2.1 _ fun h => h.elim (by decide) (not_engReg_mem (by decide))), flag,
      rd_wr_same _ _ _ (by decide)]
    rfl
  · exact setInt_flag rfl (by decide) (not_engReg_mem (by decide))
  · exact ((Touches.refl _ _ s).wr (.inl rfl)).setInt (by decide) (.inr (.inl rfl)) fun _ h => .inr (.inr h)

/-! ## Injection -/

theorem exec_memInjArm (h : s.ready port R.MEM_INJ_CTRL = true) :
    exec (.memInjArm port v) s = .next ((s.checked R.MEM_INJ_CTRL).injWrite v) :=
  congrArg Host.Outcome.next ((put_ready s port _ _ h (by decide) (by decide)).trans (regWrite_base rfl rfl))

/-- The kind and the bit of an injection, as they are written. -/
def injectionSet (s : State) (v : Word) : State :=
  (s.wr F.MEM_INJ_CTRL_kind (getField v 0 2)).wr F.MEM_INJ_CTRL_bit (getField v 2 7)

theorem injWrite_eq : s.injWrite v = if v.getLsbD 9 then (s.injectionSet v).wr F.MEM_INJ_CTRL_armed 1 else s.injectionSet v := rfl

theorem injectionSet_kind : (s.injectionSet v).rd F.MEM_INJ_CTRL_kind = getField v 0 2 := by
  rw [injectionSet, rd_wr_disjoint _ _ _ _ (by decide) (by decide), rd_wr_same _ _ _ (by decide)]
  exact Nat.mod_eq_of_lt (getField_lt _ _ _)

theorem injectionSet_bit : (s.injectionSet v).rd F.MEM_INJ_CTRL_bit = getField v 2 7 := by
  rw [injectionSet, rd_wr_same _ _ _ (by decide)]
  exact Nat.mod_eq_of_lt (getField_lt _ _ _)

theorem injectionSet_armed : (s.injectionSet v).flag F.MEM_INJ_CTRL_armed = s.flag F.MEM_INJ_CTRL_armed := by
  rw [flag, injectionSet, rd_wr_disjoint _ _ _ _ (by decide) (by decide), rd_wr_disjoint _ _ _ _ (by decide) (by decide), flag]

theorem injectionSet_touches : Touches [.mem] (· = R.MEM_INJ_CTRL) s (s.injectionSet v) := by
  have hnone : Touches [.mem] (· = R.MEM_INJ_CTRL) s s := .refl _ _ _
  exact (hnone.wr rfl).wr rfl

/-- An injection takes its kind and its bit, and is armed from then on where the write asks for it. -/
structure InjectionWritten (v : Word) (s t : State) : Prop where
  kind : t.rd F.MEM_INJ_CTRL_kind = getField v 0 2
  bit : t.rd F.MEM_INJ_CTRL_bit = getField v 2 7
  armed : t.flag F.MEM_INJ_CTRL_armed = (v.getLsbD 9 || s.flag F.MEM_INJ_CTRL_armed)
  touches : Touches [.mem] (· = R.MEM_INJ_CTRL) s t

theorem injWrite_written : InjectionWritten v s (s.injWrite v) := by
  rw [injWrite_eq]
  cases harm : v.getLsbD 9 with
  | false =>
    exact ⟨injectionSet_kind, injectionSet_bit, by rw [harm, Bool.false_or]; exact injectionSet_armed, injectionSet_touches⟩
  | true =>
    refine ⟨?_, ?_, ?_, injectionSet_touches.wr rfl⟩
    · exact (rd_wr_disjoint _ _ _ _ (by decide) (by decide)).trans injectionSet_kind
    · exact (rd_wr_disjoint _ _ _ _ (by decide) (by decide)).trans injectionSet_bit
    · rw [harm, Bool.true_or]
      exact flag_wr_one rfl (by decide)

theorem memInjArm_written (h : s.ready port R.MEM_INJ_CTRL = true) : Answers (.memInjArm port v) s (InjectionWritten v s) := by
  obtain ⟨hkind, hbit, harmed, htouches⟩ := injWrite_written (v := v) (s := s.checked R.MEM_INJ_CTRL)
  exact ⟨_, exec_memInjArm h, hkind, hbit, harmed, ((s.checked_touches _).mono (by simp) (by simp)).trans htouches⟩

end
end State
end Sys2Proof.Machine
end

section
/-!
What the loss of a DRAM bank costs the retry ledger (R164, R170): the retained units of the lost slots are exposed, and the capacity
falls by those slots.
-/

namespace Sys2Proof.Machine

/-! ## A unit is exposed -/

/-- A retained unit is freed unprotected and marked. -/
def Ledger.exposed (l : Ledger) (q : Nat) : Ledger :=
  { l with retention := l.retention.filter (·.seq != q), unrec := q :: l.unrec.filter (· != q) }

/-- The units `qs` have been exposed, and the stores lie where they lay. -/
structure Ledger.Exposed (qs : List Nat) (l m : Ledger) : Prop where
  rebuild : m.rebuild = l.rebuild
  retBase : m.retBase = l.retBase
  retained : ∀ x ∈ m.retention, x ∈ l.retention ∧ x.seq ∉ qs
  marked : ∀ q, q ∈ qs ∨ q ∈ l.unrec → q ∈ m.unrec

namespace Ledger

variable {qs : List Nat} {l m : Ledger} {q : Nat}

theorem mem_unrec_exposed (h : q ∈ l.unrec) (p : Nat) : q ∈ (l.exposed p).unrec := by
  by_cases hq : q = p
  · rw [hq]
    exact List.mem_cons_self
  · exact List.mem_cons_of_mem _ (List.mem_filter.mpr ⟨h, by simpa using hq⟩)

theorem Exposed.nil : Exposed [] l l := ⟨rfl, rfl, fun _ hx => ⟨hx, List.not_mem_nil⟩, fun _ h => h.resolve_left List.not_mem_nil⟩

theorem Exposed.cons (h : Exposed qs (l.exposed q) m) : Exposed (q :: qs) l m := by
  refine ⟨h.rebuild, h.retBase, fun x hx => ?_, fun p hp => h.marked p ?_⟩
  · obtain ⟨hkept, hnot⟩ := h.retained x hx
    obtain ⟨hin, hne⟩ := List.mem_filter.mp hkept
    exact ⟨hin, by simpa using ⟨by simpa using hne, hnot⟩⟩
  · rcases hp with hp | hp
    · rcases List.mem_cons.mp hp with rfl | hp
      · exact .inr List.mem_cons_self
      · exact .inl hp
    · exact .inr (mem_unrec_exposed hp q)

theorem exposed_foldl (qs : List Nat) (l : Ledger) : Exposed qs l (qs.foldl exposed l) := by
  induction qs generalizing l with
  | nil => exact .nil
  | cons q qs ih => exact (ih _).cons

end Ledger

namespace State

section
variable {s t u : State}

/-- The registers that the loss of stored units counts and reports in. -/
def exposeReg (a : Nat) : Prop := a = R.LEDGER_TX_EXPOSE_CNT ∨ noticeReg a

theorem expose_dp {q : Nat} : (s.expose q).dp = { s.dp with ledger := s.dp.ledger.exposed q } := logEvent_dp

theorem expose_touches (q : Nat) : Touches [.eng, .evr, .dp] exposeReg s (s.expose q) :=
  ((((Touches.refl _ _ s).onDp).bump (.inl rfl))).logEvent (by decide) fun _ => .inr

theorem foldl_expose_dp {α : Type} (seq : α → Nat) (rs : List α) (s : State) :
    (rs.foldl (fun s r => s.expose (seq r)) s).dp = { s.dp with ledger := (rs.map seq).foldl Ledger.exposed s.dp.ledger } := by
  induction rs generalizing s with
  | nil => rfl
  | cons r rs ih =>
    rw [List.foldl_cons, ih, expose_dp]
    rfl

/-! ## The slots that are lost -/

/-- Which slots are lost depends on the banks and on where the ledger keeps its units. -/
theorem lostSlots_congr {hold : Bool} (hmem : t.mem = s.mem) (hrebuild : t.dp.ledger.rebuild = s.dp.ledger.rebuild)
    (hbase : t.storeBase hold = s.storeBase hold) : t.lostSlots hold = s.lostSlots hold := by
  have hdown (base g : Nat) : t.downMembers base g = s.downMembers base g := by
    simp only [downMembers, slotDown, dramLost, hmem, hrebuild]
  unfold lostSlots
  rw [hbase]
  exact congrArg (fun f => (List.range 8192).flatMap f) (funext fun g => by rw [hdown])

/-- Retained units that lie in lost slots. -/
def lostUnits (s : State) : List Retained := s.dp.ledger.retention.filter fun r => (s.lostSlots false).contains (r.seq % 131072)

/-- What is left of the ledger once the units of lost slots have been exposed. -/
def lossTaken (s : State) (l : Ledger) : Ledger :=
  { l with cap := 131072 - (s.lostSlots false).length,
           retention := l.retention.map fun r => if s.lostUnits.any (·.seq == r.seq) then { r with unrec := true } else r }

/-- The retained units of lost slots that have been sent, by sequence number. -/
def exposedSeqs (s : State) : List Nat := (s.lostUnits.filter (·.t1.isSome)).map (·.seq)

theorem reviewLost_eq : s.reviewLost = if s.dp.ledger.place ≠ 2 ∨ s.dp.ledger.cap = 0 then s
    else ((s.lostUnits.filter (·.t1.isSome)).foldl (fun s r => s.expose r.seq) s).onLedger s.lossTaken := rfl

theorem reviewLost_of_none (h : s.dp.ledger.place ≠ 2 ∨ s.dp.ledger.cap = 0) : s.reviewLost = s := by
  rw [reviewLost_eq, if_pos h]

theorem reviewLost_dp (hplace : s.dp.ledger.place = 2) (hcap : s.dp.ledger.cap ≠ 0) :
    s.reviewLost.dp = { s.dp with ledger := s.lossTaken (s.exposedSeqs.foldl Ledger.exposed s.dp.ledger) } := by
  rw [reviewLost_eq, if_neg (by simp [hplace, hcap])]
  have hfold := foldl_expose_dp (fun r : Retained => r.seq) (s.lostUnits.filter (·.t1.isSome)) s
  rw [onLedger, onDp, hfold]
  rfl

/-- The registers in which the loss of stored units is counted and reported, where the stores lie in DRAM. -/
def lossReg (s : State) (a : Nat) : Prop := (a = R.LEDGER_TX_EXPOSE_CNT ∧ s.dp.ledger.place = 2) ∨ noticeReg a

theorem reviewLost_touches : Touches [.eng, .evr, .dp] s.lossReg s s.reviewLost := by
  by_cases hplace : s.dp.ledger.place = 2
  · rw [reviewLost_eq]
    exact (Touches.ite (.refl _ _ _) (Touches.foldl _ (fun _ _ => expose_touches _) _ s).onDp).mono (fun _ h => h)
      fun _ h => h.imp (⟨·, hplace⟩) id
  · rw [reviewLost_of_none (.inl hplace)]
    exact .refl _ _ _

/-! ## The cost of a bank -/

/-- What a failed bank costs a ledger whose stores lie in DRAM, of which `banks` are to be rebuilt. -/
structure BankCost (banks : List Nat) (s t : State) : Prop where
  dp : t.dp = { s.dp with ledger := t.dp.ledger }
  rebuild : t.dp.ledger.rebuild = banks
  down : s.dp.ledger.cap = 0 → t.dp.ledger = { s.dp.ledger with rebuild := banks }
  cap : s.dp.ledger.cap ≠ 0 → t.dp.ledger.cap = 131072 - (t.lostSlots false).length
  retained : s.dp.ledger.cap ≠ 0 → ∀ x ∈ t.dp.ledger.retention, ∃ r ∈ s.dp.ledger.retention, x.seq = r.seq ∧ x.unit = r.unit
  givenUp : s.dp.ledger.cap ≠ 0 → ∀ r ∈ s.dp.ledger.retention, r.t1.isSome = true →
    (t.lostSlots false).contains (r.seq % 131072) = true → r.seq ∈ t.dp.ledger.unrec ∧ ∀ x ∈ t.dp.ledger.retention, x.seq ≠ r.seq

theorem mem_lossTaken_retention {l : Ledger} {x : Retained} (h : x ∈ (s.lossTaken l).retention) :
    ∃ r ∈ l.retention, x.seq = r.seq ∧ x.unit = r.unit := by
  obtain ⟨r, hr, hrx⟩ := List.mem_map.mp h
  refine ⟨r, hr, ?_⟩
  rw [← hrx]
  split
  · exact ⟨rfl, rfl⟩
  · exact ⟨rfl, rfl⟩

theorem mem_exposedSeqs {r : Retained} (hr : r ∈ s.dp.ledger.retention) (hsent : r.t1.isSome = true)
    (hlost : (s.lostSlots false).contains (r.seq % 131072) = true) : r.seq ∈ s.exposedSeqs :=
  List.mem_map.mpr ⟨r, List.mem_filter.mpr ⟨List.mem_filter.mpr ⟨hr, hlost⟩, hsent⟩, rfl⟩

theorem bankCost_reviewLost (hplace : s.dp.ledger.place = 2) : BankCost s.dp.ledger.rebuild s s.reviewLost := by
  by_cases hcap : s.dp.ledger.cap = 0
  · rw [reviewLost_of_none (.inr hcap)]
    exact ⟨rfl, rfl, fun _ => rfl, fun h => absurd hcap h, fun h => absurd hcap h, fun h => absurd hcap h⟩
  · have hexposed := Ledger.exposed_foldl s.exposedSeqs s.dp.ledger
    have hdp := reviewLost_dp hplace hcap
    generalize s.exposedSeqs.foldl Ledger.exposed s.dp.ledger = left at hexposed hdp
    have hledger : s.reviewLost.dp.ledger = s.lossTaken left := congrArg Datapath.ledger hdp
    have hrebuild : s.reviewLost.dp.ledger.rebuild = s.dp.ledger.rebuild :=
      (congrArg Ledger.rebuild hledger).trans hexposed.rebuild
    have hbase : s.reviewLost.dp.ledger.retBase = s.dp.ledger.retBase :=
      (congrArg Ledger.retBase hledger).trans hexposed.retBase
    have hlost : s.reviewLost.lostSlots false = s.lostSlots false :=
      lostSlots_congr (reviewLost_touches.1 .mem (by decide)) hrebuild (congrArg (· * 2 ^ 29) hbase)
    refine ⟨hdp.trans (by rw [hledger]), hrebuild, fun h => absurd h hcap, fun _ => ?_, fun _ x hx => ?_,
      fun _ r hr hsent hin => ?_⟩
    · rw [hlost, hledger]
      rfl
    · rw [hledger] at hx
      obtain ⟨r, hr, hsame⟩ := mem_lossTaken_retention hx
      exact ⟨r, (hexposed.retained r hr).1, hsame⟩
    · have hseq := mem_exposedSeqs hr hsent (hlost ▸ hin)
      rw [hledger]
      refine ⟨hexposed.marked _ (.inl hseq), fun x hx heq => ?_⟩
      obtain ⟨r', hr', hsame, -⟩ := mem_lossTaken_retention hx
      exact (hexposed.retained r' hr').2 (hsame ▸ heq ▸ hseq)

/-- The cost to the ledger as it was before the state's other parts changed. -/
theorem BankCost.of_ledger {banks : List Nat} (h : BankCost banks u t)
    (hdp : u.dp = { s.dp with ledger := { s.dp.ledger with rebuild := banks } }) : BankCost banks s t := by
  have hledger : u.dp.ledger = { s.dp.ledger with rebuild := banks } := congrArg Datapath.ledger hdp
  have hcap : u.dp.ledger.cap = s.dp.ledger.cap := by rw [hledger]
  have hretention : u.dp.ledger.retention = s.dp.ledger.retention := by rw [hledger]
  refine ⟨h.dp.trans (by rw [hdp]), h.rebuild, fun hc => (h.down (hcap.trans hc)).trans (by rw [hledger]),
    fun hc => h.cap (hcap ▸ hc), fun hc => ?_, fun hc => ?_⟩
  · rw [← hretention]
    exact h.retained (hcap ▸ hc)
  · rw [← hretention]
    exact h.givenUp (hcap ▸ hc)

end
end State
end Sys2Proof.Machine
end

section
/-!
O50: the failure of a DRAM bank (R362), and the statement about memory errors.
-/

namespace Sys2Proof.Machine

namespace State

section
variable {s t u : State} {pc bank : Nat}

/-! ## The ledger's stores after a failure -/

/-- What a failure leaves of the datapath: all of it where the ledger's stores do not lie in DRAM, else the ledger at its cost. -/
structure StoresLeft (banks : List Nat) (s t : State) : Prop where
  elsewhere : s.dp.ledger.place ≠ 2 → t.dp = s.dp
  inDram : s.dp.ledger.place = 2 → BankCost banks s t

theorem storesLeft_reviewLost (hdp : u.dp = s.dp) : StoresLeft s.dp.ledger.rebuild s u.reviewLost := by
  refine ⟨fun h => ?_, fun h => ?_⟩
  · rw [reviewLost_of_none (.inl (by rwa [hdp])), hdp]
  · have hcost := bankCost_reviewLost (s := u) (by rwa [hdp])
    rw [hdp] at hcost
    exact hcost.of_ledger hdp

/-- The banks to be rebuilt once `bank` is among them. -/
def rebuildWith (s : State) (bank : Nat) : List Nat := s.dp.ledger.rebuild.filter (· != bank) ++ [bank]

/-- A ledger that is to rebuild a bank. -/
def rebuildAsked (s : State) (bank : Nat) : State :=
  s.onLedger fun l => { l with rebuild := l.rebuild.filter (· != bank) ++ [bank] }

theorem rebuildStart_eq : s.rebuildStart bank = if s.dp.ledger.place = 2 then (s.rebuildAsked bank).reviewLost else s := rfl

theorem storesLeft_rebuildStart (hdp : u.dp = s.dp) : StoresLeft (s.rebuildWith bank) s (u.rebuildStart bank) := by
  rw [rebuildStart_eq, hdp]
  refine ⟨fun h => by rw [if_neg h, hdp], fun h => ?_⟩
  rw [if_pos h]
  have hasked : (u.rebuildAsked bank).dp = { s.dp with ledger := { s.dp.ledger with rebuild := s.rebuildWith bank } } := by
    rw [rebuildAsked, onLedger, onDp, hdp]
    rfl
  have hcost := bankCost_reviewLost (s := u.rebuildAsked bank) (by rw [hasked]; exact h)
  rw [hasked] at hcost
  exact hcost.of_ledger hasked

theorem rebuildStart_touches : Touches [.eng, .evr, .dp] s.lossReg s (s.rebuildStart bank) := by
  rw [rebuildStart_eq]
  exact .ite ((Touches.refl _ _ s).onDp.trans reviewLost_touches) (.refl _ _ _)

theorem lossReg_congr {a : Nat} (hdp : t.dp = s.dp) (h : t.lossReg a) : s.lossReg a := by
  rwa [lossReg, hdp] at h

/-- The registers of MEM do not count the loss. -/
theorem not_lossReg_mem {a : Nat} (h : 0xA0000 ≤ a ∧ a < 0xB0000) : ¬ s.lossReg a := by
  rintro (⟨rfl, -⟩ | hnotice)
  · exact absurd h (by decide)
  · exact not_noticeReg_mem h hnotice

/-! ## A failure is reported (R362) -/

/-- A flag of MEM_INT is set and an event logged. -/
def bankReported (s : State) (f : RField) (code pc bank : Nat) : State := (s.setInt f).logEvent srcMem code pc bank

theorem bankReported_touches {f : RField} {code : Nat} (hf : f.addr = R.MEM_INT) :
    Touches [.eng, .evr] (fun a => a = R.MEM_INT ∨ noticeReg a) s (s.bankReported f code pc bank) :=
  (((Touches.refl _ _ s).setInt (by decide) (.inl hf) fun _ h => .inr (.inr (.inr (.inr h))))).logEvent (by decide) fun _ => .inr

theorem bankReported_flag {f : RField} {code : Nat} (hf : f.addr = R.MEM_INT) (hw : f.width = 1) (hlo : f.lo < 32) :
    (s.bankReported f code pc bank).flag f = true := by
  rw [bankReported, flag_congr (reg_logEvent_of_not_notice (by rw [hf]; exact not_noticeReg_mem (by decide)))]
  exact setInt_flag hw hlo (by rw [hf]; exact not_engReg_mem (by decide))

/-- The registers that a failure and its cost to the ledger are reported in. -/
def reportReg (s : State) (a : Nat) : Prop := a = R.MEM_INT ∨ s.lossReg a

/-- From `u` on, a failure has been reported in flag `f`, and the ledger has borne its cost; beside that the datapath is that of
`s`. -/
structure Reported (f : RField) (banks : List Nat) (s u t : State) : Prop where
  flag : t.flag f = true
  stores : StoresLeft banks s t
  touches : Touches [.eng, .evr, .dp] s.reportReg u t

theorem reported_of_loss {f : RField} {code : Nat} {banks : List Nat} (hf : f.addr = R.MEM_INT) (hw : f.width = 1) (hlo : f.lo < 32)
    (hdp : u.dp = s.dp) (hstores : StoresLeft banks s t)
    (h : Touches [.eng, .evr, .dp] (u.bankReported f code pc bank).lossReg (u.bankReported f code pc bank) t) :
    Reported f banks s u t := by
  have hreport := bankReported_touches (s := u) (pc := pc) (bank := bank) (code := code) hf
  refine ⟨?_, hstores, ?_⟩
  · exact (flag_congr (h.2.1 _ (by rw [hf]; exact not_lossReg_mem (by decide)))).trans (bankReported_flag hf hw hlo)
  · exact (hreport.mono (by decide) fun _ => Or.imp_right .inr).trans
      (h.mono (fun _ h => h) fun _ h => .inr (lossReg_congr ((hreport.1 .dp (by decide)).trans hdp) h))

theorem reported_rebuildStart {f : RField} {code k : Nat} (hf : f.addr = R.MEM_INT) (hw : f.width = 1) (hlo : f.lo < 32)
    (hdp : u.dp = s.dp) : Reported f (s.rebuildWith k) s u ((u.bankReported f code pc bank).rebuildStart k) :=
  reported_of_loss hf hw hlo hdp (storesLeft_rebuildStart (((bankReported_touches hf).1 .dp (by decide)).trans hdp))
    rebuildStart_touches

theorem reported_reviewLost {f : RField} {code : Nat} (hf : f.addr = R.MEM_INT) (hw : f.width = 1) (hlo : f.lo < 32)
    (hdp : u.dp = s.dp) : Reported f s.dp.ledger.rebuild s u (u.bankReported f code pc bank).reviewLost :=
  reported_of_loss hf hw hlo hdp (storesLeft_reviewLost (((bankReported_touches hf).1 .dp (by decide)).trans hdp))
    reviewLost_touches

theorem not_reportReg {a : Nat} (h : 0xA0000 ≤ a ∧ a < 0xB0000) (hint : a ≠ R.MEM_INT) : ¬ s.reportReg a := by
  rintro (ha | ha)
  · exact hint ha
  · exact not_lossReg_mem h ha

namespace Reported

variable {f : RField} {banks : List Nat}

theorem reg (h : Reported f banks s u t) {a : Nat} (hmem : 0xA0000 ≤ a ∧ a < 0xB0000) (hint : a ≠ R.MEM_INT) : t.reg a = u.reg a :=
  h.touches.2.1 a (not_reportReg hmem hint)

theorem mem (h : Reported f banks s u t) : t.mem = u.mem := h.touches.1 .mem (by decide)

end Reported

/-! ## The spare is mapped in -/

theorem rd_congr {f : RField} (h : t.reg f.addr = s.reg f.addr) : t.rd f = s.rd f := congrArg (getField · f.lo f.width) h

theorem wrBit_bit {f : RField} (hlo : f.lo = 0) (hw : f.width = 32) (hpc : pc < 32) :
    bitOf ((s.wrBit f pc true).rd f) pc = true := by
  rw [wrBit, rd_wr_same _ _ _ (by omega), hw, bitOf_mod_two_pow hpc, bitOf_setBit_true]

theorem addRepair_of_room {e : RepairEntry} (h : s.mem.repair.length < 509) :
    s.addRepair e = (s.onMem fun m => { m with repair := m.repair ++ [e] }).reviewRepair := if_pos h

/-- The repair map's entry for a bank that is replaced by its pseudo-channel's spare. -/
def spareEntry (pc bank : Nat) : RepairEntry := { kind := 3, unit := pc, index := bank, spare := 16, source := 1 }

/-- A bank with its spare in place, and its entry in the repair map. -/
def spareMapped (s : State) (pc bank : Nat) : State := (s.mapSpare pc bank 1).writeRepairMap

/-- The spare has been taken, before the repair map is written. -/
def spareTaken (s : State) (pc bank : Nat) : State :=
  ((s.wrBit F.MEM_SPARE_USED_pc pc true).onMem fun m =>
    { m with banksSpared := mapSet false m.banksSpared (16 * pc + bank) true }).dramClearBank pc bank

theorem spareMapped_eq (h : s.mem.repair.length < 509) : s.spareMapped pc bank =
    (((s.spareTaken pc bank).onMem fun m => { m with repair := m.repair ++ [spareEntry pc bank] }).reviewRepair).writeRepairMap :=
  congrArg writeRepairMap (addRepair_of_room (s := s.spareTaken pc bank) h)

theorem dramByte_dramClearBank {a : Nat} : (s.dramClearBank pc bank).dramByte a =
    if bitsOf a 12 5 = pc ∧ bitsOf a 17 4 = bank then 0 else s.dramByte a := by
  refine (mapGet_filter_key 0 (fun a => bitsOf a 12 5 != pc || bitsOf a 17 4 != bank) _ a).trans ?_
  by_cases hin : bitsOf a 12 5 = pc ∧ bitsOf a 17 4 = bank
  · simp [hin]
  · rw [if_neg hin, if_pos (by rw [Bool.or_eq_true, bne_iff_ne, bne_iff_ne]; exact Decidable.not_and_iff_not_or_not.mp hin)]
    rfl

theorem spareTaken_touches : Touches [.mem, .memStore] (· = R.MEM_SPARE_USED) s (s.spareTaken pc bank) := by
  have hnone : Touches [.mem, .memStore] (· = R.MEM_SPARE_USED) s s := .refl _ _ _
  exact ((hnone.wr rfl).onMem).onMem

theorem spareMapped_since_taken (h : s.mem.repair.length < 509) :
    Touches [.mem, .memStore] (· = R.BIST_REPAIR_STAT) (s.spareTaken pc bank) (s.spareMapped pc bank) := by
  have hnone : Touches [.mem, .memStore] (· = R.BIST_REPAIR_STAT) (s.spareTaken pc bank) (s.spareTaken pc bank) := .refl _ _ _
  rw [spareMapped_eq h]
  exact (hnone.onMem.wr rfl).wr rfl

theorem spareMapped_repair (h : s.mem.repair.length < 509) :
    (s.spareMapped pc bank).mem.repair = s.mem.repair ++ [spareEntry pc bank] := by
  rw [spareMapped_eq h]
  rfl

theorem spareMapped_byte (h : s.mem.repair.length < 509) (a : Nat) : (s.spareMapped pc bank).dramByte a =
    if bitsOf a 12 5 = pc ∧ bitsOf a 17 4 = bank then 0 else s.dramByte a := by
  rw [spareMapped_eq h]
  exact dramByte_dramClearBank

/-! ## The failure -/

theorem bankFail_of_lost (h : mapGet false s.mem.banksLost (16 * pc + bank) = true) : s.bankFail pc bank = s := if_pos h

theorem bankFail_of_spare (hlost : mapGet false s.mem.banksLost (16 * pc + bank) = false)
    (hspare : bitOf (s.rd F.MEM_SPARE_USED_pc) pc = false) : s.bankFail pc bank =
      (((s.spareMapped pc bank).bump R.MEM_BANK_FAIL_CNT).bankReported F.MEM_INT_bank_fail 0x3003 pc bank).rebuildStart
        (16 * pc + bank) := by
  rw [bankFail, hlost, if_neg Bool.false_ne_true, hspare, if_neg Bool.false_ne_true]
  rfl

/-- A bank without a spare. -/
def bankGone (s : State) (pc bank : Nat) : State :=
  ((s.onMem fun m => { m with banksLost := mapSet false m.banksLost (16 * pc + bank) true }).wrBit F.MEM_BANK_LOST_pc pc true).wr
    F.MEM_STAT_dram_degraded 1

theorem bankFail_of_none (hlost : mapGet false s.mem.banksLost (16 * pc + bank) = false)
    (hspare : bitOf (s.rd F.MEM_SPARE_USED_pc) pc = true) : s.bankFail pc bank =
      ((s.bankGone pc bank).bankReported F.MEM_INT_spare_exhausted 0x3004 pc bank).reviewLost := by
  rw [bankFail, hlost, if_neg Bool.false_ne_true, hspare, if_pos rfl]
  rfl

/-- A bank that takes its pseudo-channel's spare (R164, R362). -/
structure BankSpared (pc bank : Nat) (s t : State) : Prop where
  used : bitOf (t.rd F.MEM_SPARE_USED_pc) pc = true
  flag : t.flag F.MEM_INT_bank_fail = true
  counted : Claims.counted s t R.MEM_BANK_FAIL_CNT 1
  repair : t.mem.repair = s.mem.repair ++ [spareEntry pc bank]
  byte : ∀ a, t.dramByte a = if bitsOf a 12 5 = pc ∧ bitsOf a 17 4 = bank then 0 else s.dramByte a
  stores : StoresLeft (s.rebuildWith (16 * pc + bank)) s t
  touches : Touches [.mem, .memStore, .eng, .evr, .dp] (fun a => a = R.MEM_SPARE_USED ∨ a = R.MEM_BANK_FAIL_CNT ∨ a = R.MEM_INT
    ∨ a = R.BIST_REPAIR_STAT ∨ s.lossReg a) s t

theorem bankFail_spared (hpc : pc < 32) (hlost : mapGet false s.mem.banksLost (16 * pc + bank) = false)
    (hspare : bitOf (s.rd F.MEM_SPARE_USED_pc) pc = false) (hroom : s.mem.repair.length < 509) :
    BankSpared pc bank s (s.bankFail pc bank) := by
  have hsince := spareMapped_since_taken (pc := pc) (bank := bank) hroom
  have hmapped : Touches [.mem, .memStore] (fun a => a = R.MEM_SPARE_USED ∨ a = R.BIST_REPAIR_STAT) s (s.spareMapped pc bank) :=
    (spareTaken_touches.mono (fun _ h => h) fun _ => .inl).trans (hsince.mono (fun _ h => h) fun _ => .inr)
  have hcounted := counted_bump (s.spareMapped pc bank) R.MEM_BANK_FAIL_CNT
  have hreported := reported_rebuildStart (s := s) (u := (s.spareMapped pc bank).bump R.MEM_BANK_FAIL_CNT) (pc := pc) (bank := bank)
    (f := F.MEM_INT_bank_fail) (code := 0x3003) (k := 16 * pc + bank) rfl rfl (by decide) (hmapped.1 .dp (by decide))
  rw [bankFail_of_spare hlost hspare]
  refine ⟨?_, hreported.flag, ?_, ?_, fun a => ?_, hreported.stores, ?_⟩
  · have hreg := (hreported.reg (a := R.MEM_SPARE_USED) (by decide) (by decide)).trans
      ((reg_bumpBy_ne _ _ _ _ (by decide)).trans (hsince.2.1 R.MEM_SPARE_USED (by decide)))
    rw [rd_congr (f := F.MEM_SPARE_USED_pc) hreg]
    exact wrBit_bit (s := s) rfl rfl hpc
  · exact counted_congr hcounted (hmapped.2.1 _ (by decide)) (hreported.reg (by decide) (by decide))
  · exact (congrArg MemState.repair hreported.mem).trans (spareMapped_repair hroom)
  · exact (congrArg (fun m : MemState => mapGet 0 m.dram a) hreported.mem).trans (spareMapped_byte hroom a)
  · refine Touches.trans (Touches.bump (hmapped.mono (by decide) ?_) (.inr (.inl rfl))) (hreported.touches.mono (by decide) ?_)
    · rintro a (ha | ha)
      · exact .inl ha
      · exact .inr (.inr (.inr (.inl ha)))
    · rintro a (ha | ha)
      · exact .inr (.inr (.inl ha))
      · exact .inr (.inr (.inr (.inr ha)))

/-- A bank that is lost (R362). -/
structure BankLost (pc bank : Nat) (s t : State) : Prop where
  lost : bitOf (t.rd F.MEM_BANK_LOST_pc) pc = true
  degraded : t.flag F.MEM_STAT_dram_degraded = true
  flag : t.flag F.MEM_INT_spare_exhausted = true
  reads : t.dramLost (4096 * pc + 2 ^ 17 * bank) = true
  byte : ∀ a, t.dramByte a = s.dramByte a
  stores : StoresLeft s.dp.ledger.rebuild s t
  touches : Touches [.mem, .memStore, .eng, .evr, .dp] (fun a => a = R.MEM_BANK_LOST ∨ a = R.MEM_STAT ∨ a = R.MEM_INT
    ∨ s.lossReg a) s t

theorem bankFail_lost (hpc : pc < 32) (hbank : bank < 16) (hlost : mapGet false s.mem.banksLost (16 * pc + bank) = false)
    (hspare : bitOf (s.rd F.MEM_SPARE_USED_pc) pc = true) : BankLost pc bank s (s.bankFail pc bank) := by
  have hgone : Touches [.mem, .memStore] (fun a => a = R.MEM_BANK_LOST ∨ a = R.MEM_STAT) s (s.bankGone pc bank) := by
    have hnone : Touches [.mem, .memStore] (fun a => a = R.MEM_BANK_LOST ∨ a = R.MEM_STAT) s s := .refl _ _ _
    exact (hnone.onMem.wr (.inl rfl)).wr (.inr rfl)
  have hreported := reported_reviewLost (s := s) (u := s.bankGone pc bank) (pc := pc) (bank := bank)
    (f := F.MEM_INT_spare_exhausted) (code := 0x3004) rfl rfl (by decide) (hgone.1 .dp (by decide))
  have hbank' : bitsOf (4096 * pc + 2 ^ 17 * bank) 12 5 * 16 + bitsOf (4096 * pc + 2 ^ 17 * bank) 17 4 = 16 * pc + bank := by
    simp only [bitsOf]
    omega
  rw [bankFail_of_none hlost hspare]
  refine ⟨?_, ?_, hreported.flag, ?_, fun a => ?_, hreported.stores, ?_⟩
  · rw [rd_congr (f := F.MEM_BANK_LOST_pc) ((hreported.reg (by decide) (by decide)).trans (reg_wr_ne _ _ _ _ (by decide)))]
    exact wrBit_bit rfl rfl hpc
  · exact (flag_congr (hreported.reg (by decide) (by decide))).trans (flag_wr_one rfl (by decide))
  · have hbanks : (s.bankGone pc bank).mem.banksLost = mapSet false s.mem.banksLost (16 * pc + bank) true := rfl
    rw [dramLost, hreported.mem, hbank', hbanks, mapGet_mapSet_same]
  · rw [dramByte, hreported.mem]
    rfl
  · refine Touches.trans (hgone.mono (by decide) ?_) (hreported.touches.mono (by decide) ?_)
    · rintro a (ha | ha)
      · exact .inl ha
      · exact .inr (.inl ha)
    · rintro a (ha | ha)
      · exact .inr (.inr (.inl ha))
      · exact .inr (.inr (.inr ha))

end
end State

/-! ## O50 -/

theorem Answers.mono {c : Instr} {s : State} {P Q : State → Prop} (h : Answers c s P) (hpq : ∀ t, P t → Q t) : Answers c s Q :=
  let ⟨t, hexec, ht⟩ := h
  ⟨t, hexec, hpq t ht⟩

open State

/-- The units of a word of a valid-bit array, as blocks of DRAM and as lines of SRAM. -/
theorem State.ParityMet.blocks {s t : State} {loc w : Nat} (h : ParityMet true loc w s t) {b : Nat} (hb : b < 2 ^ 20) :
    t.dramBlockValid (4096 * b) = (s.dramBlockValid (4096 * b) || b / 32 == w) := h.valid b hb

theorem State.ParityMet.lines {s t : State} {loc w : Nat} (h : ParityMet false loc w s t) {l : Nat} (hl : l < 2 ^ 21) :
    t.sramLineValid l = (s.sramLineValid l || l / 256 == w) := by
  rw [sramLineValid_eq, sramLineValid_eq, h.valid _ (by change _ < 2 ^ 19; omega), Nat.div_div_eq_div_mul]

/-- Settles O50: a patrol read by the code that stands in its word (`WordCorrected`, `WordLost`) and under a parity error of its valid
bits (`ParityMet`), and a bank's failure as its report and its cost to the ledger (`Reported`, `BankCost`). -/
theorem memoryErrors : Obligations.MemoryErrors := by
  unfold Obligations.MemoryErrors
  intro s port dram loc syn parity v pc bank on words code stands inBank base g stores lossReg
  have hstores {t : State} {banks : List Nat} (h : StoresLeft banks s t) : stores t banks := by
    refine ⟨h.elsewhere, fun hplace => ?_⟩
    obtain ⟨hdp, hrebuild, hdown, hcap, hretained, hgivenUp⟩ := h.inDram hplace
    exact ⟨hdp, hrebuild, hdown, fun hup => ⟨hcap hup, hretained hup, hgivenUp hup⟩⟩
  refine ⟨fun hon hup => ⟨exec_scrubRead_passes hon hup, fun hvalid => ⟨?_, ?_, ?_⟩, ?_⟩, exec_scrubRead_off, fun hready =>
    ⟨memClearGo_clears hready, memClearGo_busy hready⟩, memClearDone_ends, fun hready => ?_, fun hlost => ⟨fun hspare hroom => ?_,
    fun hspare => ?_⟩, fun hlost => congrArg Host.Outcome.next (bankFail_of_lost hlost)⟩
  · rintro hcode rfl
    exact scrubRead_poisons hon hup hvalid hcode
  · exact fun hcode => (scrubRead_corrects hon hup hvalid hcode).mono fun t h => ⟨h.stands, h.counted, h.touches⟩
  · refine fun hcode => (scrubRead_loses hon hup hvalid hcode).mono fun t ⟨y, hpos, hlt, hsyn, h⟩ => ?_
    obtain ⟨hodd, hhi, hlo⟩ := h.info_bounds hpos hlt
    refine ⟨h.stands, h.counted, h.flag, h.place, hodd, hhi, hlo, fun hclean => ?_, h.touches⟩
    rw [h.info, hsyn hclean, Nat.mod_eq_of_lt syn.isLt]
  · refine (scrubRead_parity hon hup).mono fun t h => ⟨?_, ?_, fun a _ => h.byte a, h.code, h.touches.mono (by decide) fun _ h => h⟩
    · rintro rfl b hb
      exact h.blocks hb
    · rintro rfl l hl
      exact h.lines hl
  · exact (memInjArm_written hready).mono fun t h => ⟨h.kind, h.bit, h.armed, h.touches⟩
  · have h := bankFail_spared pc.isLt hlost hspare hroom
    exact ⟨_, rfl, h.used, h.flag, h.counted, h.repair, fun a => ⟨fun hin => (h.byte a).trans (if_pos hin),
      fun hout => (h.byte a).trans (if_neg hout)⟩, hstores h.stores, h.touches⟩
  · have h := bankFail_lost pc.isLt bank.isLt hlost hspare
    exact ⟨_, rfl, h.lost, h.degraded, h.flag, h.reads, h.byte, hstores h.stores, h.touches⟩

end Sys2Proof.Machine
end

section
/-!
A host lane in the datapath, and its way down (R197, R200): what the lane, its ports and its counters are after it.
-/

namespace Sys2Proof.Machine

/-! ## One host lane of the datapath -/

/-- Of the datapath, host lane `n` alone may have changed since `s`, and it is `k` now. -/
def HostNow (n : Fin 16) (s t : State) (k : HostLane) : Prop := t.dp = { s.dp with host := s.dp.host.set n k }

section
variable {n : Fin 16} {s t u : State} {k : HostLane} {ps : List Part} {may : Nat → Prop}

theorem HostNow.refl (n : Fin 16) (s : State) : HostNow n s s s.dp.host[n] :=
  congrArg (fun v : Vector HostLane 16 => ({ s.dp with host := v } : Datapath)) (Vector.set_getElem_self n.isLt).symm

/-- A change of what is beside the datapath. -/
theorem HostNow.same (h : HostNow n s t k) (e : u.dp = t.dp) : HostNow n s u k := e.trans h

theorem HostNow.lane (h : HostNow n s t k) : t.dp.host[n] = k := by
  simp only [HostNow] at h
  simp only [h]
  exact Vector.getElem_set_self _

theorem HostNow.other (h : HostNow n s t k) {m : Fin 16} (hm : m ≠ n) : t.dp.host[m] = s.dp.host[m] := by
  simp only [HostNow] at h
  simp only [h]
  exact Vector.getElem_set_ne n.isLt m.isLt fun e => hm (Fin.ext e.symm)

theorem HostNow.onHost {f : HostLane → HostLane} (h : HostNow n s t k) : HostNow n s (t.onHost n f) (f k) := by
  have hhost : t.dp.host = s.dp.host.set n k := congrArg Datapath.host h
  have hdp : (t.onHost n f).dp = { t.dp with host := t.dp.host.set n (f t.dp.host[n]) } := rfl
  rw [HostNow, hdp, h.lane, hhost, Vector.set_set, h]

theorem HostNow.ports (h : HostNow n s t k) : t.dp.ports = s.dp.ports := (congrArg Datapath.ports h).trans rfl

theorem Touches.onHost (h : Touches ps may s t) {f : HostLane → HostLane} (hdp : .dp ∈ ps := by decide) :
    Touches ps may s (t.onHost n f) := h.onDp hdp

theorem Touches.onPort {p : Fin 16} (h : Touches ps may s t) {f : Port → Port} (hdp : .dp ∈ ps := by decide) :
    Touches ps may s (t.onPort p f) := h.onDp hdp

theorem Touches.raiseEv (h : Touches ps may s t) {e : Fin 9} {i : Nat} (heng : .eng ∈ ps := by decide)
    (hmay : ∀ a, engReg a → may a) : Touches ps may s (t.raiseEv e i) :=
  h.trans ((t.raiseEv_touches e i).mono (by simpa using heng) hmay)

theorem Touches.reviewState (h : Touches ps may s t) (hps : ∀ p ∈ [Part.mgmt, .eng, .evr], p ∈ ps := by decide)
    (hmay : ∀ a, noticeReg a → may a) : Touches ps may s t.reviewState := h.trans (State.reviewState_touches.mono hps hmay)

end

/-! ## The ports of a lane (R200) -/

/-- A port that loses its alignment-marker lock where `lost` says so. -/
def Port.unlocked (q : Port) (lost : Bool) : Port :=
  { q with amLock := q.amLock && !lost, deskew := q.deskew && !(q.amLock && lost) }

theorem Port.unlocked_false (q : Port) : q.unlocked false = q := by simp [Port.unlocked]

/-- A port without the lock has none to lose. -/
theorem Port.unlocked_of_not {q : Port} (h : q.amLock = false) (lost : Bool) : q.unlocked lost = q := by
  cases q
  cases h
  simp [Port.unlocked]

theorem Port.unlocked_unlocked (q : Port) (b c : Bool) : (q.unlocked b).unlocked c = q.unlocked (b || c) := by
  cases b <;> cases c <;> simp [Port.unlocked]

/-- The registers in which ports count the losses of their lock. -/
def lockLossReg (a : Nat) : Prop := ∃ k : Fin 16, a = R.HLn_AM_LOSS_CNT k

namespace State

theorem portUnlock_dp (s : State) (p : Fin 16) :
    (s.portUnlock p).dp = { s.dp with ports := s.dp.ports.set p (s.dp.ports[p].unlocked true) } := by
  unfold portUnlock
  split
  · next h =>
    have hport : s.dp.ports[p].unlocked true = { s.dp.ports[p] with amLock := false, deskew := false } := by
      simp only [Port.unlocked, h, Bool.not_true, Bool.and_false, Bool.and_self]
    rw [hport]
    rfl
  · next h =>
    rw [Port.unlocked_of_not (Bool.eq_false_iff.mpr h)]
    exact congrArg (fun v : Vector Port 16 => ({ s.dp with ports := v } : Datapath)) (Vector.set_getElem_self p.isLt).symm

theorem portUnlock_port (s : State) (p m : Fin 16) : (s.portUnlock p).dp.ports[m] = s.dp.ports[m].unlocked (m == p) := by
  simp only [portUnlock_dp]
  by_cases h : m = p
  · subst h
    rw [beq_self_eq_true]
    exact Vector.getElem_set_self _
  · rw [beq_eq_false_iff_ne.mpr h, Port.unlocked_false]
    exact Vector.getElem_set_ne p.isLt m.isLt fun e => h (Fin.ext e.symm)

/-- Ports that lose their lock, one after the other. -/
theorem foldl_portUnlock_dp (l : List (Fin 16)) (s : State) : (l.foldl portUnlock s).dp = { s.dp with ports := (l.foldl portUnlock s).dp.ports }
    ∧ ∀ m : Fin 16, (l.foldl portUnlock s).dp.ports[m] = s.dp.ports[m].unlocked (l.contains m) := by
  induction l generalizing s with
  | nil => exact ⟨rfl, fun m => (Port.unlocked_false _).symm⟩
  | cons p l ih =>
    obtain ⟨hdp, hport⟩ := ih (s.portUnlock p)
    refine ⟨?_, fun m => ?_⟩
    · rw [List.foldl_cons, hdp, portUnlock_dp]
    · rw [List.foldl_cons, hport m, portUnlock_port, Port.unlocked_unlocked, List.contains_cons]

theorem portUnlock_touches {p : Fin 16} (h : s.portBlock p < 16) : Touches [.dp] lockLossReg s (s.portUnlock p) := by
  unfold portUnlock
  exact .ite (Touches.bump (.onPort (.refl _ _ _)) ⟨⟨_, h⟩, rfl⟩) (.refl _ _ _)

theorem foldl_portUnlock_touches (l : List (Fin 16)) (s : State) (h : ∀ p ∈ l, s.portBlock p < 16) :
    Touches [.dp] lockLossReg s (l.foldl portUnlock s) := by
  induction l generalizing s with
  | nil => exact .refl _ _ _
  | cons p l ih =>
    refine (portUnlock_touches (h p (by simp))).trans (ih _ fun m hm => ?_)
    have hfirst : (s.portUnlock p).portBlock m = s.portBlock m := (congrArg Port.first (portUnlock_port s p m)).trans rfl
    rw [hfirst]
    exact h m (by simp [hm])

/-- The ports of a lane lie in lanes, as their first lane is not above it. -/
theorem portBlock_lt_of_mem {s : State} {n p : Fin 16} (h : p ∈ s.portsOfLane n) : s.portBlock p < 16 := by
  simp only [portsOfLane, List.mem_filter, Bool.and_eq_true, decide_eq_true_eq] at h
  exact Nat.lt_of_le_of_lt h.2.1 n.isLt

theorem dropPorts_touches (s : State) (n : Fin 16) : Touches [.dp] lockLossReg s (s.dropPorts n) :=
  foldl_portUnlock_touches _ _ fun _ => portBlock_lt_of_mem

end State

/-! ## A lane goes down (R197) -/

/-- A lane that has gone down: its taps are discarded. -/
def HostLane.fallen (h : HostLane) : HostLane :=
  { h with st := .down, cdr := false, adapted := false, stored := false, exiting := false, emfValid := false, low := 0,
           coeffs := [], kept := [] }

/-- The registers that a lane's fall writes, beside its own count. -/
def laneFallReg (a : Nat) : Prop := lockLossReg a ∨ noticeReg a

theorem laneFallReg.downReg {n : Fin 16} {a : Nat} (h : laneFallReg a) : Claims.downReg n a := h.imp id .inr

/-- The registers of the host lanes are not those of an event. -/
theorem not_noticeReg_host {a : Nat} (h : 0x100000 ≤ a) : ¬ noticeReg a := by
  simp only [noticeReg, engReg, R.TOP_INT, R.EVR_DROP_CNT, R.EVR_INT]
  omega

theorem not_laneFallReg_downCnt (n : Fin 16) : ¬ laneFallReg (R.HLn_DOWN_CNT n) := by
  rintro (⟨k, h⟩ | h)
  · simp only [R.HLn_DOWN_CNT, R.HLn_AM_LOSS_CNT] at h
    omega
  · exact not_noticeReg_host (by simp only [R.HLn_DOWN_CNT]; omega) h

theorem not_laneFallReg_adaptFail (n : Fin 16) : ¬ laneFallReg (R.HLn_ADAPT_FAIL n) := by
  rintro (⟨k, h⟩ | h)
  · simp only [R.HLn_ADAPT_FAIL, R.HLn_AM_LOSS_CNT] at h
    omega
  · exact not_noticeReg_host (by simp only [R.HLn_ADAPT_FAIL]; omega) h

namespace State

section
variable {s t : State} {n : Fin 16} {k : HostLane}

theorem hostToDown_eq : s.hostToDown n = (((s.onHost n HostLane.fallen).raiseEv (hostEngine n) 11).dropPorts n).reviewState := rfl

theorem hostToDown_touches : Touches [.dp, .mgmt, .eng, .evr] laneFallReg s (s.hostToDown n) := by
  have hraised : Touches [.dp, .mgmt, .eng, .evr] laneFallReg s ((s.onHost n HostLane.fallen).raiseEv (hostEngine n) 11) :=
    Touches.raiseEv (.onHost (.refl _ _ _)) (hmay := fun _ h => .inr (.inr (.inr (.inr h))))
  rw [hostToDown_eq]
  exact (hraised.trans ((dropPorts_touches _ _).mono (by simp) fun _ => .inl)).reviewState (hmay := fun _ => .inr)

/-- What a lane's fall leaves of the datapath: the lane, and its ports without their lock. -/
theorem hostToDown_dp (h : HostNow n s t k) :
    (t.hostToDown n).dp = { s.dp with host := s.dp.host.set n k.fallen, ports := (t.hostToDown n).dp.ports }
    ∧ ∀ m : Fin 16, (t.hostToDown n).dp.ports[m] = s.dp.ports[m].unlocked ((s.portsOfLane n).contains m) := by
  let u := (t.onHost n HostLane.fallen).raiseEv (hostEngine n) 11
  have hfallen : HostNow n s u k.fallen := h.onHost.same raiseEv_dp
  have hports : u.portsOfLane n = s.portsOfLane n := by simp only [portsOfLane, hfallen.ports]
  obtain ⟨hdp, hport⟩ := foldl_portUnlock_dp (u.portsOfLane n) u
  have hdown : (t.hostToDown n).dp = ((u.portsOfLane n).foldl portUnlock u).dp := reviewState_dp
  rw [hdown]
  refine ⟨by rw [hdp, hfallen], fun m => ?_⟩
  rw [hport m, hports, hfallen.ports]

theorem hostToDown_lane (h : HostNow n s t k) : (t.hostToDown n).dp.host[n] = k.fallen := by
  have hhost : (t.hostToDown n).dp.host = s.dp.host.set n k.fallen := congrArg Datapath.host (hostToDown_dp h).1
  simp only [hhost]
  exact Vector.getElem_set_self _

/-- A lane that falls, where it alone has changed before. -/
theorem hostToDown_laneDown (h : HostNow n s t k) : Claims.laneDown s (t.hostToDown n) n := by
  obtain ⟨hdp, hport⟩ := hostToDown_dp h
  have hhost : (t.hostToDown n).dp.host = s.dp.host.set n k.fallen := congrArg Datapath.host hdp
  have hlane := hostToDown_lane h
  refine ⟨?_, ?_, ?_, ?_, ?_, ?_, ?_, hport, fun m hm => ?_, by rw [hhost]; exact hdp⟩
  all_goals first | rw [hlane]; rfl | skip
  simp only [hhost]
  exact Vector.getElem_set_ne n.isLt m.isLt fun e => hm (Fin.ext e.symm)

end
end State
end Sys2Proof.Machine
end

section
/-!
The states of a host lane (R197, R198, R206): detection, adaptation, the eyes that are measured, loss and electrical idle.
-/

namespace Sys2Proof.Machine

section
variable {s t : State} {n : Fin 16} {k : HostLane}

/-! ## Ways up (R197, R198, R206) -/

/-- The figure of the eyes that the statements name. -/
theorem eyeFigure_eq (lower middle upper : Nat) :
    eyeFigure lower middle upper = min 255 (255 * min lower (min middle upper) / 65536) := rfl

/-- A lane whose eyes have been measured. -/
def HostLane.measured (h : HostLane) (lower middle upper : Nat) : HostLane :=
  { h with emf := eyeFigure lower middle upper, worst := worstEye lower middle upper, emfValid := true }

theorem showEye_now (s : State) (n : Fin 16) (lower middle upper : Nat) :
    HostNow n s (s.showEye n lower middle upper) (s.dp.host[n].measured lower middle upper) := (HostNow.refl n s).onHost

theorem showEye_touches (s : State) (n : Fin 16) (lower middle upper : Nat) :
    Touches [.dp] (fun _ => False) s (s.showEye n lower middle upper) := .onHost (.refl _ _ _)

/-- The lane's engine is told of a lane that has come up, and the device's state is reviewed. -/
theorem HostNow.reviewed (h : HostNow n s t k) {e : Fin 9} {i : Nat} : HostNow n s (t.raiseEv e i).reviewState k :=
  h.same (State.reviewState_dp.trans State.raiseEv_dp)

theorem Touches.reviewed (h : Touches [.dp] (fun _ => False) s t) {e : Fin 9} {i : Nat} :
    Touches [.dp, .mgmt, .eng, .evr] noticeReg s (t.raiseEv e i).reviewState :=
  Touches.reviewState (Touches.raiseEv (h.mono (by simp) (by simp)) (hmay := fun _ h => .inr (.inr (.inr h)))) (hmay := fun _ h => h)

/-- A lane has the coefficients that it has. -/
theorem HostNow.coeffs_self (f : List Int → HostLane) (hf : ∀ cs, (f cs).coeffs = cs) {cs : List Int} (h : HostNow n s t (f cs)) :
    HostNow n s t (f t.dp.host[n].coeffs) := by
  rw [h.lane, hf]
  exact h

/-- A lane that has come up, with the coefficients that its adaptation has reached. -/
def HostLane.cameUp (h : HostLane) (cs : List Int) : HostLane :=
  { h with st := .up, cdr := true, adapted := true, low := 0, coeffs := cs }

/-- A lane that is down and sees a signal adapts. -/
theorem hostSignalDetect_adapts (hst : s.dp.host[n].st = .down) (hused : s.hostUsed n = true) (hup : s.pwr.pstate = 0) :
    Answers (.hostSignalDetect n) s fun t =>
      HostNow n s t { s.dp.host[n] with sig := true, st := .adapt, cdr := true } ∧ Touches [.dp, .eng] engReg s t := by
  have hsig : HostNow n s (s.onHost n fun h => { h with sig := true }) { s.dp.host[n] with sig := true } := (HostNow.refl n s).onHost
  have hdown : (s.onHost n fun h => { h with sig := true }).dp.host[n].st = .down := by rw [hsig.lane]; exact hst
  refine ⟨_, if_pos ⟨hdown, hused, hup⟩, hsig.onHost.same State.raiseEv_dp, ?_⟩
  exact Touches.raiseEv (.onHost (.onHost (.refl _ _ _))) (hmay := fun _ h => h)

/-- A lane that adapts and reaches its margin is up. -/
theorem hostAdaptDone_up {lower middle upper : Nat} (hst : s.dp.host[n].st = .adapt)
    (hfig : s.emfMin n ≤ eyeFigure lower middle upper) : Answers (.hostAdaptDone n lower middle upper) s fun t =>
      HostNow n s t ((s.dp.host[n].measured lower middle upper).cameUp t.dp.host[n].coeffs)
      ∧ Touches [.dp, .mgmt, .eng, .evr] noticeReg s t := by
  have hdrew := (showEye_now s n lower middle upper).same (u := (s.showEye n lower middle upper).drew) rfl
  have hup := (hdrew.onHost (f := (·.cameUp (Config.hostTaps s.draws)))).reviewed (e := State.hostEngine n) (i := 11)
  refine ⟨_, (if_pos hst).trans (if_pos hfig), hup.coeffs_self (s.dp.host[n].measured lower middle upper).cameUp fun _ => rfl, Touches.reviewed (.onHost ?_)⟩
  exact (showEye_touches s n lower middle upper).trans ((State.drew_touches _).mono (by simp) (by simp))

/-- Eyes measured on a lane that adapts are shown, where they end the adaptation with too small a margin too. -/
theorem hostAdaptDone_shows {lower middle upper : Nat} (hst : s.dp.host[n].st = .adapt)
    (hfig : eyeFigure lower middle upper < s.emfMin n) : Answers (.hostAdaptDone n lower middle upper) s fun t =>
      HostNow n s t (s.dp.host[n].measured lower middle upper) ∧ Touches [.dp] (fun _ => False) s t :=
  ⟨_, (if_pos hst).trans (if_neg (Nat.not_le.mpr hfig)), showEye_now .., showEye_touches ..⟩

theorem emfMeasure_shows {lower middle upper : Nat} (hst : s.dp.host[n].st = .adapt) :
    Answers (.emfMeasure n lower middle upper) s fun t =>
      HostNow n s t (s.dp.host[n].measured lower middle upper) ∧ Touches [.dp] (fun _ => False) s t :=
  ⟨_, if_pos hst, showEye_now .., showEye_touches ..⟩

/-! ## Ways down (R197, R206) -/

/-- A lane that falls after at most it and the queue's draws have changed. -/
theorem State.hostToDown_downReg (h : Touches [.dp] (fun _ => False) s t) :
    Touches [.dp, .mgmt, .eng, .evr] (Claims.downReg n) s (t.hostToDown n) :=
  (h.mono (by simp) (by simp)).trans (State.hostToDown_touches.mono (fun _ h => h) fun _ => laneFallReg.downReg)

/-- The fall of a lane that was up, counted and logged, after at most the lane itself has changed. -/
structure LaneLost (n : Fin 16) (k : HostLane) (s t : State) : Prop where
  lane : t.dp.host[n] = k.fallen
  down : Claims.laneDown s t n
  counted : Claims.counted s t (R.HLn_DOWN_CNT n) 1
  touches : Touches [.dp, .mgmt, .eng, .evr] (Claims.downReg n) s t

theorem laneLost_hostLoseLane (h : HostNow n s t k) (htouch : Touches [.dp] (fun _ => False) s t) : LaneLost n k s (t.hostLoseLane n) := by
  let u := (t.bump (R.HLn_DOWN_CNT n)).logEvent srcHl 0xA002 n 0
  have hdp : u.dp = t.dp := (State.logEvent_touches _ _ _ _ _).1 .dp (by decide)
  have hreg : (u.hostToDown n).reg (R.HLn_DOWN_CNT n) = (t.bump (R.HLn_DOWN_CNT n)).reg (R.HLn_DOWN_CNT n) :=
    (State.hostToDown_touches.2.1 _ (not_laneFallReg_downCnt n)).trans
      (State.reg_logEvent_of_not_notice (not_noticeReg_host (by simp only [R.HLn_DOWN_CNT]; omega)))
  have hlogged : Touches [.dp, .mgmt, .eng, .evr] (Claims.downReg n) s u :=
    Touches.logEvent (Touches.bump (htouch.mono (by simp) (by simp)) (.inr (.inl rfl))) (hmay := fun _ h => .inr (.inr h))
  exact ⟨State.hostToDown_lane (h.same hdp), State.hostToDown_laneDown (h.same hdp), counted_congr (counted_bump t _) (htouch.2.1 _ id) hreg,
    hlogged.trans (State.hostToDown_touches.mono (fun _ h => h) fun _ => laneFallReg.downReg)⟩

/-- A lane that has not adapted in time. -/
theorem hostAdaptTimeout_down (hst : s.dp.host[n].st = .adapt) : Answers (.hostAdaptTimeout n) s fun t =>
    Claims.laneDown s t n ∧ Claims.counted s t (R.HLn_ADAPT_FAIL n) 1
    ∧ Touches [.dp, .mgmt, .eng, .evr] (fun a => a = R.HLn_ADAPT_FAIL n ∨ Claims.downReg n a) s t := by
  refine ⟨_, if_pos hst, State.hostToDown_laneDown ((HostNow.refl n s).same rfl), ?_, ?_⟩
  · exact counted_congr (counted_bump s _) rfl (State.hostToDown_touches.2.1 _ (not_laneFallReg_adaptFail n))
  · exact (Touches.bump (.refl _ _ _) (.inl rfl)).trans
      (State.hostToDown_touches.mono (fun _ h => h) fun _ h => .inr h.downReg)

/-- A lane that is up and loses its signal. -/
theorem hostLaneDown_lost {signal : Bool} (hst : s.dp.host[n].st = .up) : Answers (.hostLaneDown n signal) s
    (LaneLost n { s.dp.host[n] with sig := signal, cdr := false } s) :=
  ⟨_, congrArg Host.Outcome.next (if_pos (beq_iff_eq.mpr hst)), laneLost_hostLoseLane (HostNow.refl n s).onHost (.onHost (.refl _ _ _))⟩

/-! ## The eyes of a lane that is up (R197, R198) -/

/-- One step of the background adaptation. -/
theorem satI_step (i : Int) : -1 ≤ satI (-1) 1 i ∧ satI (-1) 1 i ≤ 1 := by
  unfold satI
  split
  · decide
  · split <;> omega

/-- Coefficients that have each moved by at most one code. -/
def MovedByOne (l l' : List Int) : Prop := l'.length = l.length ∧ ∀ c ∈ List.zip l l', -1 ≤ c.2 - c.1 ∧ c.2 - c.1 ≤ 1

theorem MovedByOne.refl (l : List Int) : MovedByOne l l := by
  refine ⟨rfl, fun c hc => ?_⟩
  obtain ⟨i, hi, rfl⟩ := List.mem_iff_getElem.mp hc
  simp only [List.getElem_zip, Int.sub_self]
  decide

theorem movedByOne_zipIdx (l : List Int) (f : Nat → Int) : MovedByOne l (l.zipIdx.map fun (c, i) => c + satI (-1) 1 (f i)) := by
  refine ⟨by rw [List.length_map, List.length_zipIdx], fun c hc => ?_⟩
  obtain ⟨i, hi, rfl⟩ := List.mem_iff_getElem.mp hc
  have hstep := satI_step (f i)
  simp only [List.getElem_zip, List.getElem_map, List.getElem_zipIdx, Nat.zero_add]
  omega

/-- What the background adaptation leaves: the lane's coefficients moved by at most one code, and not at all where they are frozen. -/
theorem adaptOn_moved (h : HostNow n s t k) : ∃ cs, HostNow n s (t.adaptOn n) { k with coeffs := cs } ∧ MovedByOne k.coeffs cs
    ∧ (t.cfgOn (F.HLn_RX_ADAPT_freeze n) = true → cs = k.coeffs) := by
  unfold State.adaptOn
  split
  · exact ⟨k.coeffs, h, .refl _, fun _ => rfl⟩
  · next hfree => exact ⟨_, (h.same (u := t.drew) rfl).onHost, movedByOne_zipIdx _ _, fun hfrozen => absurd hfrozen hfree⟩

theorem adaptOn_touches (h : Touches [.dp] (fun _ => False) s t) : Touches [.dp] (fun _ => False) s (t.adaptOn n) := by
  unfold State.adaptOn
  exact .ite h (.onHost (h.trans ((State.drew_touches t).mono (by simp) (by simp))))

/-- How many figures below half the threshold stand in a row. -/
def lowFigures (s : State) (n : Fin 16) (fig : Nat) : Nat := if 2 * fig < s.emfMin n then s.dp.host[n].low + 1 else 0

/-- A lane that is up, after its figures are counted and its coefficients have moved. -/
def HostLane.followed (h : HostLane) (low : Nat) (cs : List Int) : HostLane := { h with low := low, coeffs := cs }

/-- The eyes of a lane that is up are measured. -/
def State.eyesTaken (s : State) (n : Fin 16) (lower middle upper : Nat) : State :=
  ((s.showEye n lower middle upper).adaptOn n).onHost n fun h =>
    { h with low := lowFigures s n (eyeFigure lower middle upper) }

theorem eyesTaken_moved (s : State) (n : Fin 16) (lower middle upper : Nat) :
    ∃ cs, HostNow n s (s.eyesTaken n lower middle upper)
        ((s.dp.host[n].measured lower middle upper).followed (lowFigures s n (eyeFigure lower middle upper)) cs)
      ∧ MovedByOne s.dp.host[n].coeffs cs ∧ (s.cfgOn (F.HLn_RX_ADAPT_freeze n) = true → cs = s.dp.host[n].coeffs) := by
  obtain ⟨cs, hnow, hmoved, hfrozen⟩ := adaptOn_moved (showEye_now s n lower middle upper)
  exact ⟨cs, hnow.onHost, hmoved, hfrozen⟩

theorem eyesTaken_touches (s : State) (n : Fin 16) (lower middle upper : Nat) :
    Touches [.dp] (fun _ => False) s (s.eyesTaken n lower middle upper) := .onHost (adaptOn_touches (showEye_touches ..))

theorem exec_emfMeasure_up {lower middle upper : Nat} (hst : s.dp.host[n].st = .up) : exec (.emfMeasure n lower middle upper) s =
    .next (if 3 ≤ lowFigures s n (eyeFigure lower middle upper) then (s.eyesTaken n lower middle upper).hostLoseLane n
      else s.eyesTaken n lower middle upper) := by
  have hlow : ((s.showEye n lower middle upper).adaptOn n).dp.host[n].low = s.dp.host[n].low := by
    obtain ⟨cs, hnow, -⟩ := adaptOn_moved (showEye_now s n lower middle upper)
    rw [hnow.lane]
    rfl
  have hmin : ((s.showEye n lower middle upper).adaptOn n).emfMin n = s.emfMin n :=
    State.cfg_congr ((adaptOn_touches (showEye_touches ..)).1 .inForce (by decide)) _
  refine (if_neg (by rw [hst]; decide)).trans ((if_neg fun h => h hst).trans ?_)
  dsimp only
  rw [hlow, hmin]
  rfl

/-- The eye that gives the figure: the lower one on a tie, and then the middle one. -/
theorem worstEye_lower {lower middle upper : Nat} (hm : lower ≤ middle) (hu : lower ≤ upper) : worstEye lower middle upper = 0 :=
  if_pos (Nat.min_eq_left (Nat.le_min.mpr ⟨hm, hu⟩)).symm

theorem worstEye_middle {lower middle upper : Nat} (hl : middle < lower) (hu : middle ≤ upper) : worstEye lower middle upper = 1 := by
  have hleast : Nat.min lower (Nat.min middle upper) = middle := by
    rw [show Nat.min middle upper = middle from Nat.min_eq_left hu]
    exact Nat.min_eq_right (Nat.le_of_lt hl)
  unfold worstEye
  dsimp only
  rw [hleast, if_neg (Nat.ne_of_gt hl), if_pos rfl]

theorem worstEye_upper {lower middle upper : Nat} (hl : upper < lower) (hm : upper < middle) : worstEye lower middle upper = 2 := by
  have hleast : Nat.min lower (Nat.min middle upper) = upper := by
    rw [show Nat.min middle upper = upper from Nat.min_eq_right (Nat.le_of_lt hm)]
    exact Nat.min_eq_right (Nat.le_of_lt hl)
  unfold worstEye
  dsimp only
  rw [hleast, if_neg (Nat.ne_of_gt hl), if_neg (Nat.ne_of_gt hm)]

/-! ## Electrical idle (R206) -/

/-- A lane that leaves electrical idle has its signal. -/
def State.signalBack (s : State) (n : Fin 16) : State := s.onHost n fun h => { h with sig := true }

theorem signalBack_now (s : State) (n : Fin 16) : HostNow n s (s.signalBack n) { s.dp.host[n] with sig := true } :=
  (HostNow.refl n s).onHost

theorem signalBack_touches (s : State) (n : Fin 16) : Touches [.dp] (fun _ => False) s (s.signalBack n) := .onHost (.refl _ _ _)

/-- The exit is ordered of a lane that is idle. -/
theorem idle_exits (hst : s.dp.host[n].st = .idle) (hexit : s.idleExitOrdered = true) :
    ¬ (s.dp.host[n].st ≠ .idle ∨ (!s.idleExitOrdered) = true) := by
  rw [hst, hexit]
  decide

/-- A quick estimate that reaches the threshold brings the lane back with its stored settings. -/
theorem hostIdleExit_up {quick : Byte} (hst : s.dp.host[n].st = .idle) (hexit : s.idleExitOrdered = true)
    (hstored : s.dp.host[n].stored = true) (hfast : s.cfgOn (F.HLn_RX_ADAPT_fast_en n) = true) (hfig : s.emfMin n ≤ quick.toNat) :
    Answers (.hostIdleExit n (some quick)) s fun t =>
      HostNow n s t { s.dp.host[n] with
        sig := true, st := .up, cdr := true, exiting := false, low := 0, coeffs := s.dp.host[n].kept }
      ∧ Touches [.dp, .mgmt, .eng, .evr] noticeReg s t :=
  ⟨_, (if_neg (idle_exits hst hexit)).trans ((if_pos ⟨hstored, hfast⟩).trans (if_pos hfig)), (signalBack_now s n).onHost.reviewed,
    Touches.reviewed (.onHost (signalBack_touches s n))⟩

/-- Without an estimate the fast exit runs on. -/
theorem hostIdleExit_exits (hst : s.dp.host[n].st = .idle) (hexit : s.idleExitOrdered = true)
    (hstored : s.dp.host[n].stored = true) (hfast : s.cfgOn (F.HLn_RX_ADAPT_fast_en n) = true) :
    Answers (.hostIdleExit n none) s fun t =>
      HostNow n s t { s.dp.host[n] with sig := true, exiting := true } ∧ Touches [.dp] (fun _ => False) s t :=
  ⟨_, (if_neg (idle_exits hst hexit)).trans (if_pos ⟨hstored, hfast⟩), (signalBack_now s n).onHost, .onHost (signalBack_touches s n)⟩

/-- Without stored settings the lane adapts anew. -/
theorem hostIdleExit_down {quick : Option Byte} (hst : s.dp.host[n].st = .idle) (hexit : s.idleExitOrdered = true)
    (hstored : s.dp.host[n].stored = false) : Answers (.hostIdleExit n quick) s fun t =>
      Claims.laneDown s t n ∧ Touches [.dp, .mgmt, .eng, .evr] (Claims.downReg n) s t :=
  ⟨_, (if_neg (idle_exits hst hexit)).trans (if_neg (by rw [hstored]; simp)), State.hostToDown_laneDown (signalBack_now s n),
    State.hostToDown_downReg (signalBack_touches s n)⟩

/-- So does a lane whose fast exit has taken too long. -/
theorem hostFastExitTimeout_down (hst : s.dp.host[n].st = .idle) (hexiting : s.dp.host[n].exiting = true) :
    Answers (.hostFastExitTimeout n) s fun t =>
      Claims.laneDown s t n ∧ Touches [.dp, .mgmt, .eng, .evr] (Claims.downReg n) s t :=
  ⟨_, if_pos ⟨hst, hexiting⟩, State.hostToDown_laneDown (HostNow.refl n s), State.hostToDown_downReg (.refl _ _ _)⟩

end
end Sys2Proof.Machine
end

section
/-!
A port's write of a host lane's register that acts (R197, R210): it stages nothing new, and the lane takes the order.
-/

namespace Sys2Proof.Machine

namespace State

variable {s t : State} {n : Fin 16} {port : Fin 5}

/-- The write of a host lane's register that acts is the lane's alone. -/
theorem regWrite_host {x : Source} {a : Nat} {v : Word} {bad : Option Nat} (ha : 0x100000 ≤ a ∧ a < 0x200000)
    (ht : s.hostWrite a v = some t) : s.regWrite x a v bad = t := by
  have out (k : Nat) (hk : k < 0x100000 ∨ 0x200000 ≤ k) : ¬ a = k := by omega
  have hargs : ¬ a ≤ R.TOP_CMD_ARGk 3 := by simp only [R.TOP_CMD_ARGk]; omega
  have hmail : ¬ a ≤ R.PEN_MB_TXk 63 := by simp only [R.PEN_MB_TXk]; omega
  have htop : s.topWrite x a v = none := by
    simp only [topWrite, hargs, and_false, if_false, out R.TOP_COMMIT (by decide), out R.TOP_SNAP (by decide),
      out R.TOP_CMD (by decide), out R.PMON_ADDR (by decide)]
  have hbase : s.baseWrite x a v = none := by
    simp only [baseWrite, if_false, out R.CLK_GATE (by decide), out R.CLK_REF_CTRL (by decide), out R.SEC_FUSE_CTRL (by decide),
      out R.EVR_CTRL (by decide), out R.MEM_INJ_CTRL (by decide), out R.MEM_CLEAR_CTRL (by decide), out R.CAP_CTRL (by decide)]
  have hlink : s.linkWrite a v = none := by
    simp only [linkWrite, hmail, false_and, and_false, if_false, out R.TIME_PPS_EXP (by decide), out R.TIME_STEP (by decide),
      out R.TIME_STEP_CTRL (by decide), out R.TIME_SERVO_OFS (by decide), out R.PEN_MB_TX_CTRL (by decide),
      out R.PEN_MB_RX_POP (by decide)]
  have hoptical : s.opticalWrite a v = none := if_pos (.inl ha.2)
  simp only [regWrite, htop, hbase, hlink, hoptical, ht]
  rfl

/-- A register of staged bits alone. -/
theorem plainWrite_staged {a m : Nat} (hstg : (desc a).stg = m) (hm : m ≠ 0) (hrw : (desc a).rw &&& (0xFFFFFFFF - m) = 0)
    (hw1c : (desc a).w1c = 0) (v : Word) : s.plainWrite a v = s.setStaged a (merge (s.stagedReg a) m v) := by
  unfold plainWrite
  dsimp only
  rw [hstg, if_neg hm, if_pos ⟨hrw, hw1c⟩]

theorem desc_rxAdapt : ∀ n : Fin 16, (desc (R.HLn_RX_ADAPT n)).stg = 0x6FF ∧ (desc (R.HLn_RX_ADAPT n)).rw &&& (0xFFFFFFFF - 0x6FF) = 0
    ∧ (desc (R.HLn_RX_ADAPT n)).w1c = 0 := by decide

theorem desc_prbsCtrl : ∀ n : Fin 16, (desc (R.HLn_PRBS_CTRL n)).stg = 0x7F ∧ (desc (R.HLn_PRBS_CTRL n)).rw &&& (0xFFFFFFFF - 0x7F) = 0
    ∧ (desc (R.HLn_PRBS_CTRL n)).w1c = 0 := by decide

/-- The lane of a register of the host lanes. -/
theorem hostLane_of_addr {k : Nat} (hk : k < 0x10000) : Fin.ofNat 16 ((0x100000 + k + 0x10000 * n.val - 0x100000) / 0x10000) = n := by
  refine Fin.ext ?_
  simp only [Fin.ofNat]
  omega

/-! ## HLn_RX_ADAPT (R197) -/

/-- Its restart bit takes a lane in use down. -/
theorem hostWrite_rxAdapt {v : Word} (hv : v.getLsbD 8 = true) (hused : s.hostUsed n = true) (hon : s.dpOff = false) :
    s.hostWrite (R.HLn_RX_ADAPT n) v = some ((s.plainWrite (R.HLn_RX_ADAPT n) v).hostToDown n) := by
  have hoff : (R.HLn_RX_ADAPT n - 0x100000) % 0x10000 = 0xC := by simp only [R.HLn_RX_ADAPT]; omega
  have hlane : Fin.ofNat 16 ((R.HLn_RX_ADAPT n - 0x100000) / 0x10000) = n := hostLane_of_addr (k := 0xC) (by decide)
  unfold hostWrite
  rw [if_neg (by simp only [R.HLn_RX_ADAPT]; omega)]
  dsimp only
  rw [hoff, hlane, if_neg (by omega), if_pos rfl, hv, hused, hon]
  rfl

/-- A port that restarts a lane's receiver takes it down, and stages nothing new. -/
theorem put_restart (h : s.ready port (R.HLn_RX_ADAPT n) = true) (hused : s.hostUsed n = true) (hon : s.dpOff = false) :
    s.put port (R.HLn_RX_ADAPT n) (s.stagedReg (R.HLn_RX_ADAPT n) ||| 0x100) = (s.restaged (R.HLn_RX_ADAPT n)).hostToDown n := by
  have haddr : 0x100000 ≤ R.HLn_RX_ADAPT n ∧ R.HLn_RX_ADAPT n < 0x200000 := by simp only [R.HLn_RX_ADAPT]; omega
  obtain ⟨hstg, hrw, hw1c⟩ := desc_rxAdapt n
  rw [put_ready s port _ _ h (by omega) (by omega), regWrite_host haddr (hostWrite_rxAdapt (s := s.checked _) (by simp) hused hon),
    plainWrite_staged hstg (by decide) hrw hw1c,
    show (s.checked (R.HLn_RX_ADAPT n)).stagedReg (R.HLn_RX_ADAPT n) = s.stagedReg (R.HLn_RX_ADAPT n) from rfl,
    merge_or_self (by decide)]
  rfl

/-! ## HLn_PRBS_CTRL (R210) -/

/-- A step that one of its orders takes. -/
def ordered (s : State) (b : Bool) (f : State → State) : State := if b then f s else s

/-- Its resync and slip bits act in this order on a lane in use. -/
theorem hostWrite_prbsCtrl {v : Word} (hused : s.hostUsed n = true) (hon : s.dpOff = false) :
    s.hostWrite (R.HLn_PRBS_CTRL n) v = some ((((s.plainWrite (R.HLn_PRBS_CTRL n) v).ordered (v.getLsbD 7) (·.prbsSeed n)).ordered
      (v.getLsbD 8) (·.prbsSlipBit n)).ordered (v.getLsbD 9) (·.prbsSlipSym n)) := by
  have hoff : (R.HLn_PRBS_CTRL n - 0x100000) % 0x10000 = 0x14 := by simp only [R.HLn_PRBS_CTRL]; omega
  have hlane : Fin.ofNat 16 ((R.HLn_PRBS_CTRL n - 0x100000) / 0x10000) = n := hostLane_of_addr (k := 0x14) (by decide)
  unfold hostWrite
  rw [if_neg (by simp only [R.HLn_PRBS_CTRL]; omega)]
  dsimp only
  rw [hoff, hlane, if_neg (by omega), if_neg (by decide), if_pos rfl, hused, hon]
  simp only [Bool.not_false, Bool.and_true, ordered]

/-- A port that writes orders of HLn_PRBS_CTRL to a lane in use stages nothing new. -/
theorem put_prbsCtrl {w : Word} (h : s.ready port (R.HLn_PRBS_CTRL n) = true) (hused : s.hostUsed n = true) (hon : s.dpOff = false)
    (hw : w &&& 0x7F = 0) (hstaged : s.stagedReg (R.HLn_PRBS_CTRL n) &&& 0x380 = 0) :
    s.put port (R.HLn_PRBS_CTRL n) (s.stagedReg (R.HLn_PRBS_CTRL n) ||| w) =
      ((((s.restaged (R.HLn_PRBS_CTRL n)).ordered (w.getLsbD 7) (·.prbsSeed n)).ordered
        (w.getLsbD 8) (·.prbsSlipBit n)).ordered (w.getLsbD 9) (·.prbsSlipSym n)) := by
  have haddr : 0x100000 ≤ R.HLn_PRBS_CTRL n ∧ R.HLn_PRBS_CTRL n < 0x200000 := by simp only [R.HLn_PRBS_CTRL]; omega
  have hbit (i : Nat) (hi : (0x380 : Word).getLsbD i = true) : (s.stagedReg (R.HLn_PRBS_CTRL n) ||| w).getLsbD i = w.getLsbD i := by
    have hclear : (s.stagedReg (R.HLn_PRBS_CTRL n) &&& 0x380).getLsbD i = false := by rw [hstaged]; simp
    rw [BitVec.getLsbD_and, hi, Bool.and_true] at hclear
    rw [BitVec.getLsbD_or, hclear, Bool.false_or]
  obtain ⟨hstg, hrw, hw1c⟩ := desc_prbsCtrl n
  rw [put_ready s port _ _ h (by omega) (by omega), regWrite_host haddr (hostWrite_prbsCtrl (s := s.checked _) hused hon),
    plainWrite_staged hstg (by decide) hrw hw1c,
    show (s.checked (R.HLn_PRBS_CTRL n)).stagedReg (R.HLn_PRBS_CTRL n) = s.stagedReg (R.HLn_PRBS_CTRL n) from rfl,
    merge_or_self hw, hbit 7 (by decide), hbit 8 (by decide), hbit 9 (by decide)]
  rfl

end State
end Sys2Proof.Machine
end

section
/-!
The statement about the states of a host lane.
-/

namespace Sys2Proof.Machine

section
variable {s : State} {n : Fin 16} {lower middle upper : Nat}

/-- A port restarts a lane's receiver (R197). -/
theorem hostRxRestart_down {port : Fin 5} (hready : s.ready port (R.HLn_RX_ADAPT n) = true) (hused : s.hostUsed n = true)
    (hon : s.dpOff = false) : Answers (.hostRxRestart port n) s fun t =>
      Claims.laneDown s t n ∧ (∀ a, t.stagedReg a = s.stagedReg a)
      ∧ Touches [.staged, .dp, .mem, .mgmt, .eng, .evr] (Claims.downReg n) s t := by
  have hfall : Touches [.dp, .mgmt, .eng, .evr] (Claims.downReg n) (s.restaged (R.HLn_RX_ADAPT n))
      ((s.restaged (R.HLn_RX_ADAPT n)).hostToDown n) :=
    State.hostToDown_touches.mono (fun _ h => h) fun _ => laneFallReg.downReg
  exact ⟨_, congrArg Host.Outcome.next (State.put_restart hready hused hon), State.hostToDown_laneDown (HostNow.refl n s),
    State.stagedReg_of_restaged hfall, ((State.restaged_touches _).mono (by simp) (by simp)).trans (hfall.mono (by simp) fun _ h => h)⟩

/-- A lane that is up stays up unless this is the third low figure in a row. -/
theorem lowFigures_lt (h : s.emfMin n ≤ 2 * eyeFigure lower middle upper ∨ s.dp.host[n].low < 2) :
    ¬ 3 ≤ lowFigures s n (eyeFigure lower middle upper) := by
  unfold lowFigures
  split <;> omega

/-- The eyes of a lane that is up and stays up (R197, R198). -/
theorem emfMeasure_stays (hst : s.dp.host[n].st = .up)
    (hlow : s.emfMin n ≤ 2 * eyeFigure lower middle upper ∨ s.dp.host[n].low < 2) :
    Answers (.emfMeasure n lower middle upper) s fun t =>
      HostNow n s t ((s.dp.host[n].measured lower middle upper).followed (lowFigures s n (eyeFigure lower middle upper))
        t.dp.host[n].coeffs)
      ∧ MovedByOne s.dp.host[n].coeffs t.dp.host[n].coeffs
      ∧ (s.cfgOn (F.HLn_RX_ADAPT_freeze n) = true → t.dp.host[n].coeffs = s.dp.host[n].coeffs)
      ∧ Touches [.dp] (fun _ => False) s t := by
  obtain ⟨cs, hnow, hmoved, hfrozen⟩ := eyesTaken_moved s n lower middle upper
  have hcoeffs : (s.eyesTaken n lower middle upper).dp.host[n].coeffs = cs := by rw [hnow.lane]; rfl
  refine ⟨_, (exec_emfMeasure_up hst).trans (congrArg Host.Outcome.next (if_neg (lowFigures_lt hlow))), ?_⟩
  dsimp only
  rw [hcoeffs]
  exact ⟨hnow, hmoved, hfrozen, eyesTaken_touches ..⟩

/-- The third low figure in a row takes a lane that is up down (R197). -/
theorem emfMeasure_lost (hst : s.dp.host[n].st = .up) (hfig : 2 * eyeFigure lower middle upper < s.emfMin n)
    (hlow : 2 ≤ s.dp.host[n].low) : Answers (.emfMeasure n lower middle upper) s fun t => ∃ k, LaneLost n k s t := by
  obtain ⟨cs, hnow, -⟩ := eyesTaken_moved s n lower middle upper
  have hthird : 3 ≤ lowFigures s n (eyeFigure lower middle upper) := by
    rw [lowFigures, if_pos hfig]
    omega
  exact ⟨_, (exec_emfMeasure_up hst).trans (congrArg Host.Outcome.next (if_pos hthird)), _,
    laneLost_hostLoseLane hnow (eyesTaken_touches ..)⟩

end

/-- Settles O28: `HostNow` says what becomes of the lane where it stays, and `State.hostToDown_laneDown` and `LaneLost` what its fall
leaves. -/
theorem hostLaneStates : Obligations.HostLaneStates := by
  unfold Obligations.HostLaneStates
  intro s port n quick lower middle upper signal h is fig ups seen
  have hworst {t : State} {k : HostLane} (hnow : HostNow n s t k) (hk : k.worst = worstEye lower middle upper) :
      t.dp.host[n].worst = worstEye lower middle upper := by rw [hnow.lane, hk]
  refine ⟨hostSignalDetect_adapts, hostAdaptDone_up, fun hst => ⟨hostAdaptDone_shows hst, emfMeasure_shows hst⟩, hostAdaptTimeout_down,
    fun hst hlow => ?_, fun hst hfig hlow => ?_, fun hst => ?_, hostRxRestart_down, fun hst hexit => ⟨fun hstored hfast =>
    ⟨hostIdleExit_up hst hexit hstored hfast, hostIdleExit_exits hst hexit hstored hfast⟩, hostIdleExit_down hst hexit⟩,
    hostFastExitTimeout_down⟩
  · refine (emfMeasure_stays hst hlow).mono fun t ⟨hnow, hmoved, hfrozen, htouch⟩ => ?_
    exact ⟨hnow, hmoved.1, hmoved.2, hfrozen, fun hm hu => (hworst hnow rfl).trans (worstEye_lower hm hu),
      fun hl hu => (hworst hnow rfl).trans (worstEye_middle hl hu), fun hl hm => (hworst hnow rfl).trans (worstEye_upper hl hm), htouch⟩
  · exact (emfMeasure_lost hst hfig hlow).mono fun t ⟨k, hlost⟩ => ⟨hlost.down, hlost.counted, hlost.touches⟩
  · refine (hostLaneDown_lost hst).mono fun t hlost =>
      ⟨hlost.down, congrArg HostLane.sig hlost.lane, hlost.counted, hlost.touches⟩

end Sys2Proof.Machine
end

section
/-!
Whether Local Fault is sent is read where a unit is released and where a block leaves (R182, R186), and nowhere on the way that a block
takes through the PCS: each operation of that way does the same with the flag set and without it, and leaves it.
-/

namespace Sys2Proof.Machine

/-- A port with its Local Fault flag as it is given. -/
def Port.lf (q : Port) (b : Bool) : Port := { q with lfOut := b }

namespace State

/-- The state with the Local Fault flag of a port as it is given. -/
def withLf (s : State) (p : Fin 16) (b : Bool) : State := s.onPort p (·.lf b)

section
variable (s : State) (p : Fin 16) (b : Bool)

/-! ## What does not read the flag -/

@[simp] theorem reg_withLf (a : Nat) : (s.withLf p b).reg a = s.reg a := rfl
@[simp] theorem rd_withLf (f : RField) : (s.withLf p b).rd f = s.rd f := rfl
@[simp] theorem flag_withLf (f : RField) : (s.withLf p b).flag f = s.flag f := rfl
@[simp] theorem cfg_withLf (f : CField) : (s.withLf p b).cfg f = s.cfg f := rfl
@[simp] theorem cfgOn_withLf (f : CField) : (s.withLf p b).cfgOn f = s.cfgOn f := rfl
@[simp] theorem eng_withLf : (s.withLf p b).eng = s.eng := rfl
@[simp] theorem freeNat_withLf : (s.withLf p b).freeNat = s.freeNat := rfl
@[simp] theorem ledger_withLf : (s.withLf p b).dp.ledger = s.dp.ledger := rfl
@[simp] theorem framer_withLf : (s.withLf p b).dp.framer = s.dp.framer := rfl
@[simp] theorem host_withLf : (s.withLf p b).dp.host = s.dp.host := rfl
@[simp] theorem tx_withLf : (s.withLf p b).dp.tx = s.dp.tx := rfl
@[simp] theorem summary_withLf : (s.withLf p b).summary = s.summary := rfl
@[simp] theorem cvMode_withLf : (s.withLf p b).cvMode = s.cvMode := rfl

/-! ## Registers, engines and events -/

@[simp] theorem setReg_withLf (a : Nat) (v : Word) : (s.withLf p b).setReg a v = (s.setReg a v).withLf p b := rfl
@[simp] theorem wr_withLf (f : RField) (v : Nat) : (s.withLf p b).wr f v = (s.wr f v).withLf p b := rfl
@[simp] theorem bumpBy_withLf (a n : Nat) : (s.withLf p b).bumpBy a n = (s.bumpBy a n).withLf p b := rfl
@[simp] theorem bump_withLf (a : Nat) : (s.withLf p b).bump a = (s.bump a).withLf p b := rfl
@[simp] theorem bump64_withLf (a n : Nat) : (s.withLf p b).bump64 a n = (s.bump64 a n).withLf p b := rfl
@[simp] theorem drew_withLf : (s.withLf p b).drew = s.drew.withLf p b := rfl
@[simp] theorem onEng_withLf (e : Fin 9) (f : Engine → Engine) : (s.withLf p b).onEng e f = (s.onEng e f).withLf p b := rfl
@[simp] theorem loadSample_withLf (e : Fin 9) (k pc : Nat) : (s.withLf p b).loadSample e k pc = (s.loadSample e k pc).withLf p b := by
  unfold loadSample
  dsimp only
  rw [flag_withLf, flag_withLf, setReg_withLf, onEng_withLf]

/-- A choice between two ways that each do the same. -/
theorem ite_withLf {p : Fin 16} {b : Bool} {c : Prop} [Decidable c] {t u t' u' : State} (ht : t' = t.withLf p b) (hu : u' = u.withLf p b) :
    (if c then t' else u') = (if c then t else u).withLf p b := by
  split
  · exact ht
  · exact hu

@[simp] theorem countOne_withLf (e : Fin 9) (sel n pc : Nat) (w : Bool) (k : Nat) :
    (s.withLf p b).countOne e sel n pc w k = (s.countOne e sel n pc w k).withLf p b := by
  simp only [countOne, rd_withLf, reg_withLf, flag_withLf, freeNat_withLf, setReg_withLf, drew_withLf, onEng_withLf]
  refine ite_withLf rfl (ite_withLf rfl (ite_withLf ?_ rfl))
  cases w with
  | false => exact loadSample_withLf ..
  | true => exact loadSample_withLf ..

@[simp] theorem evCount_withLf (e : Fin 9) (sel n pc : Nat) (w : Bool) :
    (s.withLf p b).evCount e sel n pc w = (s.evCount e sel n pc w).withLf p b := by
  unfold evCount
  exact ite_withLf rfl (List.foldl_hom (withLf · p b) fun _ _ => countOne_withLf ..)

@[simp] theorem cycCount_withLf (e : Fin 9) (n : Nat) : (s.withLf p b).cycCount e n = (s.cycCount e n).withLf p b := by
  unfold cycCount
  exact ite_withLf rfl rfl

@[simp] theorem retire_withLf (e : Fin 9) (pc : Nat) : (s.withLf p b).retire e pc = (s.retire e pc).withLf p b := by
  unfold retire
  dsimp only
  rw [eng_withLf, ← evCount_withLf]
  congr 1
  split
  · rfl
  · rw [loadSample_withLf, onEng_withLf]
    exact ite_withLf rfl rfl

@[simp] theorem wfeReturn_withLf (e : Fin 9) (d : Fin 16) (m : BitVec 16) (n : Nat) :
    (s.withLf p b).wfeReturn e d m n = (s.wfeReturn e d m n).withLf p b := by
  simp only [wfeReturn, eng_withLf, onEng_withLf, cycCount_withLf, evCount_withLf, retire_withLf]

@[simp] theorem wakeWfe_withLf (e : Fin 9) : (s.withLf p b).wakeWfe e = (s.wakeWfe e).withLf p b := by
  unfold wakeWfe
  rw [eng_withLf, drew_withLf, freeNat_withLf]
  split
  · simp only [wfeReturn_withLf]
    exact ite_withLf rfl rfl
  · rfl

@[simp] theorem setEv_withLf (e : Fin 9) (i : Nat) : (s.withLf p b).setEv e i = (s.setEv e i).withLf p b := by
  unfold setEv
  refine ite_withLf ?_ rfl
  simp only [onEng_withLf, evCount_withLf, eng_withLf]

@[simp] theorem raiseEv_withLf (e : Fin 9) (i : Nat) : (s.withLf p b).raiseEv e i = (s.raiseEv e i).withLf p b := by
  simp only [raiseEv, setEv_withLf, wakeWfe_withLf]

@[simp] theorem noticeSummary_withLf (before : Nat) : noticeSummary before (s.withLf p b) = (noticeSummary before s).withLf p b := by
  unfold noticeSummary
  exact ite_withLf rfl (raiseEv_withLf ..)

@[simp] theorem setInt_withLf (f : RField) : (s.withLf p b).setInt f = (s.setInt f).withLf p b := by
  simp only [setInt, summary_withLf, wr_withLf, noticeSummary_withLf]

@[simp] theorem logEvent_withLf (src code x y : Nat) : (s.withLf p b).logEvent src code x y = (s.logEvent src code x y).withLf p b := by
  unfold logEvent
  exact ite_withLf rfl (ite_withLf (by rw [bump_withLf, setInt_withLf]) rfl)

@[simp] theorem raiseMax_withLf (f : RField) (v : Nat) : (s.withLf p b).raiseMax f v = (s.raiseMax f v).withLf p b := by
  unfold raiseMax
  exact ite_withLf rfl rfl

end
end State
end Sys2Proof.Machine
end

section
/-!
The stores of the ledger and the ready queue do the same whether a port sends Local Fault or not (R51, R52, R163, R169).
-/

namespace Sys2Proof.Machine

namespace State

section
variable (s : State) (p : Fin 16) (b : Bool)

/-! ## Memories (R357, R358) -/

@[simp] theorem onMem_withLf (f : MemState → MemState) : (s.withLf p b).onMem f = (s.onMem f).withLf p b := rfl
@[simp] theorem dramCode_withLf (a : Nat) : (s.withLf p b).dramCode a = s.dramCode a := rfl

@[simp] theorem uncorrectable_withLf (d c : Bool) (l y : Nat) :
    (s.withLf p b).uncorrectable d c l y = (s.uncorrectable d c l y).withLf p b := by
  simp only [uncorrectable, bump_withLf, setReg_withLf, setInt_withLf, logEvent_withLf]

@[simp] theorem eccRead_withLf (d : Bool) (l : Option Nat) (c : Nat) :
    (s.withLf p b).eccRead d l c = ((s.eccRead d l c).1.withLf p b, (s.eccRead d l c).2) := by
  match c with
  | 0 => rfl
  | 1 => rfl
  | 2 =>
    cases l with
    | none => simp only [eccRead, freeNat_withLf, drew_withLf, uncorrectable_withLf]
    | some l => simp only [eccRead, freeNat_withLf, drew_withLf, uncorrectable_withLf]
  | n + 3 => rfl

@[simp] theorem eccPart_withLf (d : Bool) (l : Option Nat) (c : Nat) :
    (s.withLf p b).eccPart d l c = ((s.eccPart d l c).1.withLf p b, (s.eccPart d l c).2) := by
  simp only [eccPart, eccRead_withLf]

@[simp] theorem dramWriteWord_withLf (w a n : Nat) : (s.withLf p b).dramWriteWord w a n = (s.dramWriteWord w a n).withLf p b := by
  unfold dramWriteWord
  rw [dramCode_withLf, eccPart_withLf]
  exact ite_withLf rfl (ite_withLf rfl rfl)

@[simp] theorem dramWrite_withLf (a : Nat) (bs : List Byte) : (s.withLf p b).dramWrite a bs = (s.dramWrite a bs).withLf p b := by
  rw [dramWrite_eq, dramWrite_eq, wordsWritten, wordsWritten,
    List.foldl_hom (withLf · p b) fun _ _ => dramWriteWord_withLf .., onMem_withLf]

/-- Free values have been drawn. -/
def drawn (s : State) (k : Nat) : State := { s with draws := s.draws + k }

@[simp] theorem dramStore_withLf (hold : Bool) (q : Nat) (bs : List Block) :
    (s.withLf p b).dramStore hold q bs = (s.dramStore hold q bs).withLf p b := by
  change (((s.drawn 19).withLf p b).dramWrite _ _).dramWrite _ _ = _
  rw [dramWrite_withLf, dramWrite_withLf]
  rfl

@[simp] theorem storeWrite_withLf (hold : Bool) (q : Nat) (bs : List Block) :
    (s.withLf p b).storeWrite hold q bs = (s.storeWrite hold q bs).withLf p b := by
  unfold storeWrite
  exact ite_withLf (dramStore_withLf ..) rfl

/-! ## Ports -/

theorem onPort_port_same (m : Fin 16) (f : Port → Port) : (s.onPort m f).dp.ports[m] = f s.dp.ports[m] := Vector.getElem_set_self _

theorem onPort_port_ne {s : State} {m k : Fin 16} (f : Port → Port) (h : k ≠ m) : (s.onPort m f).dp.ports[k] = s.dp.ports[k] :=
  Vector.getElem_set_ne m.isLt k.isLt fun e => h (Fin.ext e.symm)

/-- Two changes of one port. -/
theorem onPort_onPort (m : Fin 16) (f g : Port → Port) : (s.onPort m f).onPort m g = s.onPort m fun q => g (f q) := by
  have hports : (s.onPort m f).dp.ports.set m (g (s.onPort m f).dp.ports[m]) = s.dp.ports.set m (g (f s.dp.ports[m])) := by
    rw [onPort_port_same]
    exact Vector.set_set ..
  exact congrArg (fun v : Vector Port 16 => { s with dp := { s.dp with ports := v } }) hports

/-- Changes of two ports. -/
theorem onPort_comm {s : State} {m k : Fin 16} (f g : Port → Port) (h : k ≠ m) :
    (s.onPort m f).onPort k g = (s.onPort k g).onPort m f := by
  have hports : (s.onPort m f).dp.ports.set k (g (s.onPort m f).dp.ports[k]) =
      (s.onPort k g).dp.ports.set m (f (s.onPort k g).dp.ports[m]) := by
    rw [onPort_port_ne f h, onPort_port_ne g h.symm]
    exact Vector.set_comm _ _ fun e => h (Fin.ext e.symm)
  exact congrArg (fun v : Vector Port 16 => { s with dp := { s.dp with ports := v } }) hports

/-- A change of a port that goes by the flag. -/
theorem onPort_withLf {m : Fin 16} {f : Port → Port} (hf : ∀ q : Port, f (q.lf b) = (f q).lf b) :
    (s.withLf p b).onPort m f = (s.onPort m f).withLf p b := by
  by_cases h : m = p
  · subst h
    rw [withLf, withLf, onPort_onPort, onPort_onPort, funext hf]
  · exact onPort_comm _ _ h

/-- Of a port the flag alone changes. -/
theorem port_withLf {α : Type} (g : Port → α) (hg : ∀ q : Port, g (q.lf b) = g q) (m : Fin 16) :
    g (s.withLf p b).dp.ports[m] = g s.dp.ports[m] := by
  by_cases h : m = p
  · subst h
    exact (congrArg g (onPort_port_same ..)).trans (hg _)
  · exact congrArg g (onPort_port_ne _ h)

variable (m : Fin 16)

@[simp] theorem first_withLf : (s.withLf p b).dp.ports[m].first = s.dp.ports[m].first := port_withLf s p b (·.first) (fun _ => rfl) m
@[simp] theorem width_withLf : (s.withLf p b).dp.ports[m].width = s.dp.ports[m].width := port_withLf s p b (·.width) (fun _ => rfl) m
@[simp] theorem openBlocks_withLf : (s.withLf p b).dp.ports[m].openBlocks = s.dp.ports[m].openBlocks :=
  port_withLf s p b (·.openBlocks) (fun _ => rfl) m
@[simp] theorem openLf_withLf : (s.withLf p b).dp.ports[m].openLf = s.dp.ports[m].openLf := port_withLf s p b (·.openLf) (fun _ => rfl) m
@[simp] theorem packed_withLf : (s.withLf p b).dp.ports[m].packed = s.dp.ports[m].packed := port_withLf s p b (·.packed) (fun _ => rfl) m

@[simp] theorem portBlock_withLf : (s.withLf p b).portBlock m = s.portBlock m := first_withLf ..
@[simp] theorem portLanes_withLf : (s.withLf p b).portLanes m = s.portLanes m := by simp only [portLanes, first_withLf, width_withLf]
@[simp] theorem packs_withLf : (s.withLf p b).packs m = s.packs m := by
  simp only [packs, portLanes_withLf, width_withLf, cvMode_withLf, cfgOn_withLf, cfg_withLf, host_withLf]

/-! ## The ready queue (R52, R59, R169) -/

@[simp] theorem onLedger_withLf (f : Ledger → Ledger) : (s.withLf p b).onLedger f = (s.onLedger f).withLf p b := rfl
@[simp] theorem onFramer_withLf (f : Framer → Framer) : (s.withLf p b).onFramer f = (s.onFramer f).withLf p b := rfl
@[simp] theorem storeSlots_withLf : (s.withLf p b).storeSlots = s.storeSlots := rfl
@[simp] theorem epoch4_withLf : (s.withLf p b).epoch4 = s.epoch4 := rfl

@[simp] theorem expose_withLf (q : Nat) : (s.withLf p b).expose q = (s.expose q).withLf p b := by
  simp only [expose, onLedger_withLf, bump_withLf, logEvent_withLf]

/-- A fold of steps that each go by the flag. -/
theorem foldl_withLf {β : Type} {g : State → β → State} (hg : ∀ s x, g (withLf s p b) x = (g s x).withLf p b) (l : List β) :
    l.foldl g (s.withLf p b) = (l.foldl g s).withLf p b := List.foldl_hom (withLf · p b) hg

@[simp] theorem retain_withLf (u : TxUnit) (i : Nat) : (s.withLf p b).retain u i = (s.retain u i).withLf p b := by
  unfold retain
  dsimp only
  rw [storeSlots_withLf, ledger_withLf, framer_withLf, foldl_withLf _ _ _ fun s r => expose_withLf s p b r.seq, onLedger_withLf,
    ledger_withLf, foldl_withLf _ _ _ fun s r => storeWrite_withLf s p b false r.seq r.unit.blocks]

@[simp] theorem enqueue_withLf (u : TxUnit) : (s.withLf p b).enqueue u = (s.enqueue u).withLf p b := by
  unfold enqueue
  dsimp only
  rw [framer_withLf, ledger_withLf, retain_withLf,
    ite_withLf (c := s.dp.ledger.retryOn = true) rfl rfl, onFramer_withLf, framer_withLf, raiseMax_withLf]

@[simp] theorem overflowAt_withLf (k : Nat) : (s.withLf p b).overflowAt k = (s.overflowAt k).withLf p b := by
  rw [overflowAt, bump_withLf, onPort_withLf _ _ _ fun _ => rfl]
  rfl

@[simp] theorem queueFull_withLf (u : TxUnit) : (s.withLf p b).queueFull u = (s.queueFull u).withLf p b := by
  unfold queueFull
  rw [framer_withLf]
  split
  · refine ite_withLf (overflowAt_withLf ..) ?_
    dsimp only
    rw [onFramer_withLf, ledger_withLf, onLedger_withLf, ite_withLf (c := (s.onFramer _).dp.ledger.retryOn = true) rfl rfl,
      enqueue_withLf, overflowAt_withLf]
  · exact overflowAt_withLf ..

/-- A unit that is complete is counted where it holds Local Fault fill, and the buffer is empty. -/
def unitTaken (s : State) (m : Fin 16) : State :=
  (if s.dp.ports[m].openLf then s.bump R.FRAMER_CNT_LOCKFILL else s).onPort m fun q => { q with openBlocks := [], openLf := false }

@[simp] theorem unitTaken_withLf : (s.withLf p b).unitTaken m = (s.unitTaken m).withLf p b := by
  unfold unitTaken
  rw [openLf_withLf, bump_withLf, ite_withLf (c := s.dp.ports[m].openLf = true) rfl rfl, onPort_withLf _ _ _ fun _ => rfl]

@[simp] theorem completeUnit_withLf (cyc : Nat) : (s.withLf p b).completeUnit m cyc = (s.completeUnit m cyc).withLf p b := by
  unfold completeUnit
  dsimp only
  rw [epoch4_withLf, openBlocks_withLf, framer_withLf, packed_withLf]
  change (if !((s.withLf p b).unitTaken m).dp.ledger.txRun then ((s.withLf p b).unitTaken m).bump _ else
    if 512 ≤ ((s.withLf p b).unitTaken m).dp.framer.ready.length then ((s.withLf p b).unitTaken m).queueFull _
    else ((s.withLf p b).unitTaken m).enqueue _) = _
  rw [unitTaken_withLf, ledger_withLf, framer_withLf, bump_withLf, queueFull_withLf, enqueue_withLf]
  exact ite_withLf rfl (ite_withLf rfl rfl)

/-- A block goes into the packing buffer of a port (R51). -/
def blockPacked (s : State) (m : Fin 16) (x : Block) (lf : Bool) : State :=
  s.onPort m fun q =>
    { q with openBlocks := q.openBlocks ++ [if q.errNext && q.openBlocks.isEmpty then errorBlock else x],
             openLf := q.openLf || lf, errNext := q.errNext && !q.openBlocks.isEmpty, packed := q.packed + 4 }

@[simp] theorem packBlock_withLf (x : Block) (lf : Bool) (cyc : Nat) :
    (s.withLf p b).packBlock m x lf cyc = (s.packBlock m x lf cyc).withLf p b := by
  unfold packBlock
  rw [packs_withLf]
  refine ite_withLf rfl ?_
  change (if 59 ≤ ((s.withLf p b).blockPacked m x lf).dp.ports[m].openBlocks.length
    then ((s.withLf p b).blockPacked m x lf).completeUnit m cyc else (s.withLf p b).blockPacked m x lf) = _
  have hpacked : (s.withLf p b).blockPacked m x lf = (s.blockPacked m x lf).withLf p b := onPort_withLf _ _ _ fun _ => rfl
  rw [hpacked, openBlocks_withLf, completeUnit_withLf]
  exact ite_withLf rfl rfl

end
end State
end Sys2Proof.Machine
end

section
/-!
The end of the PCS does the same whether a port sends Local Fault or not (R200, R204, R208), and so a block that is fed in Local
Fault's name takes the way of any other (R186).
-/

namespace Sys2Proof.Machine

namespace State

section
variable (s : State) (p : Fin 16) (b : Bool)

/-! ## Host lanes and the line -/

@[simp] theorem onHost_withLf (n : Fin 16) (f : HostLane → HostLane) : (s.withLf p b).onHost n f = (s.onHost n f).withLf p b := rfl
@[simp] theorem onTx_withLf (n : Fin 8) (f : TxLane → TxLane) : (s.withLf p b).onTx n f = (s.onTx n f).withLf p b := rfl
@[simp] theorem prbsChk_withLf (n : Fin 16) : (s.withLf p b).prbsChk n = s.prbsChk n := rfl
@[simp] theorem prbsGen_withLf (n : Fin 16) : (s.withLf p b).prbsGen n = s.prbsGen n := rfl
@[simp] theorem hostLoop_withLf (n : Fin 16) : (s.withLf p b).hostLoop n = s.hostLoop n := rfl
@[simp] theorem hostOut_withLf (n : Fin 16) (ys : List Int) : (s.withLf p b).hostOut n ys = s.hostOut n ys := rfl
@[simp] theorem firField_withLf (n : Fin 16) (f : CField) : (s.withLf p b).firField n f = s.firField n f := rfl
@[simp] theorem perSymbol_withLf : (s.withLf p b).perSymbol = s.perSymbol := rfl
@[simp] theorem lineMode_withLf : (s.withLf p b).lineMode = s.lineMode := rfl
@[simp] theorem lineOutput_withLf (n : Fin 8) : (s.withLf p b).lineOutput n = s.lineOutput n := rfl
@[simp] theorem penOffset_withLf (n : Fin 8) (t : Nat) : (s.withLf p b).penOffset n t = s.penOffset n t := rfl
@[simp] theorem firTaps_withLf (n : Fin 8) : (s.withLf p b).firTaps n = s.firTaps n := rfl
@[simp] theorem pdTable_withLf (n : Fin 8) : (s.withLf p b).pdTable n = s.pdTable n := rfl

@[simp] theorem checkSymbols_withLf (n : Fin 16) (xs : List Nat) :
    (s.withLf p b).checkSymbols n xs = (s.checkSymbols n xs).withLf p b := by
  unfold checkSymbols
  dsimp only
  rw [prbsChk_withLf]
  split
  · rfl
  · rw [host_withLf, cfgOn_withLf, bumpBy_withLf, onHost_withLf]

@[simp] theorem emit_withLf (n : Fin 8) (start : Nat) (raws : List Int) :
    (s.withLf p b).emit n start raws = (s.emit n start raws).withLf p b := by
  unfold emit
  dsimp only
  simp only [perSymbol_withLf, lineOutput_withLf, penOffset_withLf, cfg_withLf]
  rw [bumpBy_withLf, onTx_withLf]
  rfl

@[simp] theorem sendLevels_withLf (n : Fin 8) (start : Nat) (levels next : List Int) :
    (s.withLf p b).sendLevels n start levels next = (s.sendLevels n start levels next).withLf p b := by
  unfold sendLevels
  dsimp only
  rw [tx_withLf, firTaps_withLf, pdTable_withLf, emit_withLf, onTx_withLf]

@[simp] theorem retimeToLine_withLf (n : Fin 8) (xs : List Nat) :
    (s.withLf p b).retimeToLine n xs = (s.retimeToLine n xs).withLf p b := by
  unfold retimeToLine
  dsimp only
  refine ite_withLf rfl ?_
  rw [lineMode_withLf, cfgOn_withLf, cfgOn_withLf, tx_withLf, onTx_withLf, sendLevels_withLf, framer_withLf]

@[simp] theorem loopedBack_withLf (n : Fin 16) (xs : List Nat) : (s.withLf p b).loopedBack n xs = (s.loopedBack n xs).withLf p b := by
  unfold loopedBack
  rw [hostLoop_withLf, checkSymbols_withLf]
  refine ite_withLf ?_ rfl
  dsimp only
  split
  · exact retimeToLine_withLf ..
  · rfl

@[simp] theorem hostShape_withLf (n : Fin 16) (xs : List Nat) : (s.withLf p b).hostShape n xs = (s.hostShape n xs).withLf p b := by
  unfold hostShape
  dsimp only
  simp only [host_withLf, firField_withLf, hostOut_withLf]
  rw [onHost_withLf]

/-- Symbols that are due at a lane's transmitter are sent, and in a near-end loop come back. -/
theorem hostSend_of_none {n : Fin 16} {xs : List Nat} (h : hostPattern (s.prbsGen n) = none) : s.hostSend n xs =
    ((s.onHost n fun l => { l with
        gen := (0, 0),
        txPre := (if s.cfgOn (F.HLn_CTRL_tx_precode n) then precode xs s.dp.host[n].txPre else (xs, s.dp.host[n].txPre)).2 }).hostShape n
      (if s.cfgOn (F.HLn_CTRL_tx_precode n) then precode xs s.dp.host[n].txPre else (xs, s.dp.host[n].txPre)).1).loopedBack n xs := by
  unfold hostSend
  simp only [h]
  rfl

theorem hostSend_of_some {n : Fin 16} {xs : List Nat} {g : Pattern} (h : hostPattern (s.prbsGen n) = some g) : s.hostSend n xs =
    (s.onHost n fun l => { l with
        gen := (s.prbsGen n, (g.run xs.length (if s.dp.host[n].gen.1 = s.prbsGen n then s.dp.host[n].gen.2 else g.start)).2),
        out := s.hostOut n ((g.run xs.length (if s.dp.host[n].gen.1 = s.prbsGen n then s.dp.host[n].gen.2 else g.start)).1.map
          fun x => 64 * symLevel x) }).loopedBack n
      (g.run xs.length (if s.dp.host[n].gen.1 = s.prbsGen n then s.dp.host[n].gen.2 else g.start)).1 := by
  unfold hostSend
  simp only [h]
  rfl

@[simp] theorem hostSend_withLf (n : Fin 16) (xs : List Nat) : (s.withLf p b).hostSend n xs = (s.hostSend n xs).withLf p b := by
  cases h : hostPattern (s.prbsGen n) with
  | none =>
    rw [hostSend_of_none _ h, hostSend_of_none _ ((congrArg hostPattern (prbsGen_withLf ..)).trans h), cfgOn_withLf, host_withLf,
      onHost_withLf, hostShape_withLf, loopedBack_withLf]
  | some g =>
    rw [hostSend_of_some _ h, hostSend_of_some _ ((congrArg hostPattern (prbsGen_withLf ..)).trans h), host_withLf, prbsGen_withLf,
      hostOut_withLf, onHost_withLf, loopedBack_withLf]

/-! ## The PCS (R200, R204) -/

variable (m : Fin 16)

@[simp] theorem amLock_withLf : (s.withLf p b).dp.ports[m].amLock = s.dp.ports[m].amLock := port_withLf s p b (·.amLock) (fun _ => rfl) m
@[simp] theorem deskew_withLf : (s.withLf p b).dp.ports[m].deskew = s.dp.ports[m].deskew := port_withLf s p b (·.deskew) (fun _ => rfl) m
@[simp] theorem rxScr_withLf : (s.withLf p b).dp.ports[m].rxScr = s.dp.ports[m].rxScr := port_withLf s p b (·.rxScr) (fun _ => rfl) m
@[simp] theorem gather_withLf : (s.withLf p b).dp.ports[m].gather = s.dp.ports[m].gather := port_withLf s p b (·.gather) (fun _ => rfl) m
@[simp] theorem blocks_withLf : (s.withLf p b).dp.ports[m].blocks = s.dp.ports[m].blocks := port_withLf s p b (·.blocks) (fun _ => rfl) m
@[simp] theorem marks_withLf : (s.withLf p b).dp.ports[m].marks = s.dp.ports[m].marks := port_withLf s p b (·.marks) (fun _ => rfl) m

@[simp] theorem portLoop_withLf (k : Nat) : (s.withLf p b).portLoop m k = s.portLoop m k := by
  simp only [portLoop, width_withLf, portLanes_withLf, hostLoop_withLf]

@[simp] theorem portUp_withLf : (s.withLf p b).portUp m = s.portUp m := by
  simp only [portUp, portLanesUp, portMixed, amLock_withLf, deskew_withLf, width_withLf, portLanes_withLf, host_withLf, portLoop_withLf]
  rfl

@[simp] theorem portIngress_withLf (cyc : Nat) (word : List Nat) (markers : Nat) :
    (s.withLf p b).portIngress m cyc word markers = (s.portIngress m cyc word markers).withLf p b := by
  have hpack (l : List Block) (t : State) :
      l.foldl (fun t x => t.packBlock m x false cyc) (t.withLf p b) = (l.foldl (fun t x => t.packBlock m x false cyc) t).withLf p b :=
    foldl_withLf t p b (fun t x => packBlock_withLf t p b m x false cyc) l
  unfold portIngress
  dsimp only
  rw [rxScr_withLf, portBlock_withLf]
  split
  · rw [bump_withLf, onPort_withLf _ _ _ fun _ => rfl, cvMode_withLf, hpack]
    exact ite_withLf rfl rfl
  · rw [bump64_withLf, bump64_withLf, ite_withLf rfl rfl, onPort_withLf _ _ _ fun _ => rfl, cvMode_withLf, hpack]
    exact ite_withLf rfl rfl

@[simp] theorem sendCodeword_withLf (cyc : Nat) : (s.withLf p b).sendCodeword m cyc = (s.sendCodeword m cyc).withLf p b := by
  have hsend (l : List (Fin 16 × List Nat)) (t : State) :
      l.foldl (fun t x => t.hostSend x.1 x.2) (t.withLf p b) = (l.foldl (fun t x => t.hostSend x.1 x.2) t).withLf p b :=
    foldl_withLf t p b (fun t x => hostSend_withLf t p b x.1 x.2) l
  unfold sendCodeword
  dsimp only
  rw [blocks_withLf, width_withLf, marks_withLf, onPort_withLf _ _ _ fun _ => rfl, portLanes_withLf, hsend]
  simp only [portLoop_withLf, portUp_withLf, portLanes_withLf, prbsGen_withLf]
  exact ite_withLf (portIngress_withLf ..) rfl

end

section
variable {s : State} {p : Fin 16} {b : Bool}

/-- A change of a port rests on what the port was. -/
theorem onPort_congr {f g : Port → Port} (h : f s.dp.ports[p] = g s.dp.ports[p]) : s.onPort p f = s.onPort p g :=
  congrArg (fun q : Port => { s with dp := { s.dp with ports := s.dp.ports.set p q } }) h

end
end State

/-! ## Four blocks become one (R204) -/

/-- The alignment markers that go before a port's next transcoded block. -/
def Port.markers (q : Port) : List Block :=
  if q.blocks.isEmpty && decide (Config.amEvery q.width ≤ q.since) then (Config.amBlocks q.width).take 19 else []

/-- The bits of a transcoded block, scrambled, with the scrambler's state after them. -/
def Port.scrambled (q : Port) (x : BitVec 66) : List Bool × Nat := pcsScramble (blockBits (transcode (q.gather ++ [x]))) q.txScr

/-- A scrambled block joins those that wait for the rest of a codeword. -/
def Port.joined (q : Port) (c : List Bool × Nat) : Port :=
  { q with gather := [], txScr := c.2, blocks := q.markers ++ q.blocks ++ bitBlocks c.1,
           marks := if q.blocks.isEmpty then q.markers.length else q.marks,
           since := if q.blocks.isEmpty && decide (Config.amEvery q.width ≤ q.since) then 0
             else if q.blocks.isEmpty then q.since + 1 else q.since }

theorem Port.joined_lf (q : Port) (b : Bool) (x : BitVec 66) :
    (q.lf b).joined ((q.lf b).scrambled x) = (q.joined (q.scrambled x)).lf b := by
  rw [show (q.lf b).scrambled x = q.scrambled x from rfl]
  generalize q.scrambled x = c
  rfl

namespace State

section
variable {s : State} {m : Fin 16} {cyc : Nat} {x : BitVec 66}

theorem regenerate_of_lt (h : s.dp.ports[m].gather.length < 3) :
    s.regenerate m cyc x = s.onPort m fun q => { q with gather := q.gather ++ [x] } := by
  refine (if_pos ?_).trans (onPort_congr rfl)
  rw [List.length_append, List.length_singleton]
  omega

/-- The fourth block completes a transcoded block of the port. -/
def fourthBlock (s : State) (m : Fin 16) (x : BitVec 66) : State := s.onPort m fun q => q.joined (q.scrambled x)

theorem regenerate_of_ge (h : 3 ≤ s.dp.ports[m].gather.length) : s.regenerate m cyc x =
    if 20 ≤ (s.fourthBlock m x).dp.ports[m].blocks.length then (s.fourthBlock m x).sendCodeword m cyc else s.fourthBlock m x := by
  have hlong : ¬ (s.dp.ports[m].gather ++ [x]).length < 4 := by
    rw [List.length_append, List.length_singleton]
    omega
  unfold regenerate
  dsimp only
  rw [if_neg hlong, onPort_congr (s := s) (p := m) (g := fun q => q.joined (q.scrambled x))
    (by simp only [Port.joined, Port.scrambled, Port.markers])]
  rfl

theorem regenerate_withLf (s : State) (p : Fin 16) (b : Bool) (m : Fin 16) (cyc : Nat) (x : BitVec 66) :
    (s.withLf p b).regenerate m cyc x = (s.regenerate m cyc x).withLf p b := by
  rcases Nat.lt_or_ge s.dp.ports[m].gather.length 3 with h | h
  · rw [regenerate_of_lt h, regenerate_of_lt (by rw [gather_withLf]; exact h), onPort_withLf _ _ _ fun _ => rfl]
  · have hfourth : (s.withLf p b).fourthBlock m x = (s.fourthBlock m x).withLf p b := onPort_withLf _ _ _ fun q => q.joined_lf b x
    rw [regenerate_of_ge h, regenerate_of_ge (by rw [gather_withLf]; exact h), hfourth, blocks_withLf, sendCodeword_withLf]
    exact ite_withLf rfl rfl

end

/-! ## The elastic buffer (R202, R203) -/

section
variable (s : State) (p : Fin 16) (b : Bool) (m : Fin 16)

@[simp] theorem eb_withLf : (s.withLf p b).dp.ports[m].eb = s.dp.ports[m].eb := port_withLf s p b (·.eb) (fun _ => rfl) m
@[simp] theorem refill_withLf : (s.withLf p b).dp.ports[m].refill = s.dp.ports[m].refill := port_withLf s p b (·.refill) (fun _ => rfl) m
@[simp] theorem lastOut_withLf : (s.withLf p b).dp.ports[m].lastOut = s.dp.ports[m].lastOut :=
  port_withLf s p b (·.lastOut) (fun _ => rfl) m
@[simp] theorem inserted_withLf : (s.withLf p b).dp.ports[m].inserted = s.dp.ports[m].inserted :=
  port_withLf s p b (·.inserted) (fun _ => rfl) m
@[simp] theorem ebCentre_withLf (w : Nat) : (s.withLf p b).ebCentre w = s.ebCentre w := rfl

@[simp] theorem sendBlock_withLf (x : BitVec 66) (ins : Bool) :
    (s.withLf p b).sendBlock m x ins = (s.sendBlock m x ins).withLf p b := onPort_withLf _ _ _ fun _ => rfl

@[simp] theorem ebSlip_withLf (why : Nat) : (s.withLf p b).ebSlip m why = (s.ebSlip m why).withLf p b := by
  rw [ebSlip, portBlock_withLf, bump_withLf, logEvent_withLf]
  rfl

end

section
variable {s : State} {p : Fin 16}

/-- The buffer refills, and has not reached its centre again. -/
def refills (s : State) (p : Fin 16) : Prop :=
  s.dp.ports[p].refill = true ∧ s.dp.ports[p].eb.length < 4 * s.ebCentre s.dp.ports[p].width

/-- What deletion leaves of the buffer, and how many blocks it has taken. -/
def ebLeft (s : State) (p : Fin 16) : List (BitVec 66) × Nat :=
  ebDelete (4 * (s.ebCentre s.dp.ports[p].width + 4 * s.dp.ports[p].width)) s.dp.ports[p].lastOut s.dp.ports[p].eb

/-- The buffer after deletion. -/
def trimmed (s : State) (p : Fin 16) : State :=
  (s.onPort p fun q => { q with refill := false, eb := (s.ebLeft p).1 }).bumpBy (R.HLn_IDLE_DEL (s.portBlock p)) (s.ebLeft p).2

/-- What is inserted after a block that has been sent (R202). -/
def insertAfter (x : BitVec 66) : Option (BitVec 66) :=
  if isIdle66 x || isTerm66 x then some idle66 else if isOrdered66 x then some x else none

/-- The block that is inserted into a buffer that is too empty, where one may be. -/
def insertion (s : State) (p : Fin 16) : Option (BitVec 66) :=
  if decide ((s.ebLeft p).1.length < 4 * (s.ebCentre s.dp.ports[p].width - 4 * s.dp.ports[p].width)) && !s.dp.ports[p].inserted
  then s.dp.ports[p].lastOut.bind insertAfter else none

/-- A port that sends Local Fault has fed one block of it into its buffer (R186). -/
def localFaultFed (s : State) (p : Fin 16) : State :=
  if s.dp.ports[p].lfOut then s.onPort p fun q => { q with eb := q.eb ++ [localFault66], shown := q.shown + 1 } else s

theorem localFaultFed_of_off (h : s.dp.ports[p].lfOut = false) : s.localFaultFed p = s :=
  if_neg (by rw [h]; exact Bool.false_ne_true)

theorem localFaultFed_place :
    s.portBlock p = (s.localFaultFed p).portBlock p ∧ s.dp.ports[p].width = (s.localFaultFed p).dp.ports[p].width := by
  unfold localFaultFed portBlock
  split
  · rw [onPort_port_same]
    exact ⟨rfl, rfl⟩
  · exact ⟨rfl, rfl⟩

/-- The fill block leaves while the buffer refills. -/
theorem egressOne_refills (h : (s.localFaultFed p).refills p) :
    s.egressOne p = (s.localFaultFed p).sendBlock p (fillBlock (s.localFaultFed p).dp.ports[p].lastOut) false := by
  obtain ⟨hblock, hwidth⟩ := localFaultFed_place (s := s) (p := p)
  unfold egressOne
  rw [← localFaultFed, hblock, hwidth]
  exact if_pos h

/-- Else the buffer is trimmed. One that is empty slips, and refills. -/
theorem egressOne_slips (h : ¬ (s.localFaultFed p).refills p) (heb : ((s.localFaultFed p).ebLeft p).1 = []) : s.egressOne p =
    ((((s.localFaultFed p).trimmed p).onPort p fun q => { q with refill := true }).ebSlip p 1).sendBlock p
      (fillBlock (s.localFaultFed p).dp.ports[p].lastOut) false := by
  obtain ⟨hblock, hwidth⟩ := localFaultFed_place (s := s) (p := p)
  unfold egressOne
  rw [← localFaultFed, hblock, hwidth]
  refine (if_neg h).trans ?_
  generalize s.localFaultFed p = u at heb ⊢
  rw [trimmed, ← onPort_onPort u p (fun q => { q with refill := false }) fun q => { q with eb := (u.ebLeft p).1 }]
  unfold ebLeft at heb ⊢
  simp only [heb]

/-- Else the next block is sent, or one is inserted. -/
theorem egressOne_sends (h : ¬ (s.localFaultFed p).refills p) {x : BitVec 66} {t : List (BitVec 66)}
    (heb : ((s.localFaultFed p).ebLeft p).1 = x :: t) : s.egressOne p =
    ((s.localFaultFed p).insertion p).elim ((((s.localFaultFed p).trimmed p).onPort p fun q => { q with eb := t }).sendBlock p x false)
      fun y => (((s.localFaultFed p).trimmed p).bump (R.HLn_IDLE_INS ((s.localFaultFed p).portBlock p))).sendBlock p y true := by
  obtain ⟨hblock, hwidth⟩ := localFaultFed_place (s := s) (p := p)
  unfold egressOne
  rw [← localFaultFed, hblock, hwidth]
  refine (if_neg h).trans ?_
  generalize s.localFaultFed p = u at heb ⊢
  rw [trimmed, ← onPort_onPort u p (fun q => { q with refill := false }) fun q => { q with eb := (u.ebLeft p).1 }, insertion]
  unfold ebLeft at heb ⊢
  simp only [heb]
  split
  · next y hbelow hlast =>
    rw [if_pos hbelow, hlast, Option.bind_some, insertAfter]
    split
    · rfl
    · split
      · rfl
      · rfl
  · next hother =>
    split
    · next hbelow =>
      cases hlast : u.dp.ports[p].lastOut with
      | none => rfl
      | some y => exact absurd hlast (hother y hbelow)
    · rfl

/-! ## Local Fault is fed first (R186) -/

/-- A block of Local Fault is in the buffer, and the flag is put aside. -/
def lfPutAside (s : State) (p : Fin 16) : State :=
  s.onPort p fun q => { q with eb := q.eb ++ [localFault66], shown := q.shown + 1, lfOut := false }

theorem lfPutAside_off : (s.lfPutAside p).dp.ports[p].lfOut = false := by rw [lfPutAside, onPort_port_same]

theorem localFaultFed_of_on (h : s.dp.ports[p].lfOut = true) : s.localFaultFed p = (s.lfPutAside p).withLf p true := by
  rw [localFaultFed, if_pos h, withLf, lfPutAside, onPort_onPort]
  refine onPort_congr ?_
  simp only [Port.lf, h]

/-- What leaves a port that sends Local Fault is what leaves it once the block is fed. -/
theorem egressOne_of_on (h : s.dp.ports[p].lfOut = true) : s.egressOne p = ((s.lfPutAside p).egressOne p).withLf p true := by
  have hon := localFaultFed_of_on h
  have hoff := localFaultFed_of_off (lfPutAside_off (s := s) (p := p))
  generalize s.lfPutAside p = u at hon hoff ⊢
  have hrefills : (u.withLf p true).refills p ↔ u.refills p := by
    simp only [refills, refill_withLf, eb_withLf, ebCentre_withLf, width_withLf]
  have hleft : (u.withLf p true).ebLeft p = u.ebLeft p := by
    simp only [ebLeft, eb_withLf, ebCentre_withLf, width_withLf, lastOut_withLf]
  have hinsert : (u.withLf p true).insertion p = u.insertion p := by
    simp only [insertion, hleft, ebCentre_withLf, width_withLf, lastOut_withLf, inserted_withLf]
  have htrim : (u.withLf p true).trimmed p = (u.trimmed p).withLf p true := by
    rw [trimmed, hleft, portBlock_withLf, onPort_withLf _ _ _ fun _ => rfl, bumpBy_withLf]
    rfl
  by_cases hr : u.refills p
  · rw [egressOne_refills (hon ▸ hrefills.mpr hr), egressOne_refills (hoff.symm ▸ hr), hon, hoff, lastOut_withLf, sendBlock_withLf]
  · have hr' : ¬ (s.localFaultFed p).refills p := by rw [hon]; exact fun h => hr (hrefills.mp h)
    have hr'' : ¬ (u.localFaultFed p).refills p := by rw [hoff]; exact hr
    cases heb : (u.ebLeft p).1 with
    | nil =>
      rw [egressOne_slips hr' (by rw [hon, hleft, heb]), egressOne_slips hr'' (by rw [hoff, heb]), hon, hoff, htrim, lastOut_withLf,
        onPort_withLf _ _ _ fun _ => rfl, ebSlip_withLf, sendBlock_withLf]
    | cons x t =>
      rw [egressOne_sends hr' (by rw [hon, hleft, heb]), egressOne_sends hr'' (by rw [hoff, heb]), hon, hoff, htrim, hinsert,
        portBlock_withLf, onPort_withLf _ _ _ fun _ => rfl, bump_withLf]
      cases u.insertion p with
      | none => exact sendBlock_withLf ..
      | some y => exact sendBlock_withLf ..

end
end State
end Sys2Proof.Machine
end

section
/-!
A block that leaves the elastic buffer (R202, R203), and the transcoded blocks and codewords that it completes (R200, R204).
-/

namespace Sys2Proof.Machine

/-! ## One port of the datapath -/

/-- Of the datapath, port `p` alone may have changed since `s`, and it is `k` now. -/
def PortNow (p : Fin 16) (s t : State) (k : Port) : Prop := t.dp = { s.dp with ports := s.dp.ports.set p k }

section
variable {p : Fin 16} {s t u : State} {k : Port}

theorem PortNow.refl (p : Fin 16) (s : State) : PortNow p s s s.dp.ports[p] :=
  congrArg (fun v : Vector Port 16 => ({ s.dp with ports := v } : Datapath)) (Vector.set_getElem_self p.isLt).symm

/-- A change of what is beside the datapath. -/
theorem PortNow.same (h : PortNow p s t k) (e : u.dp = t.dp) : PortNow p s u k := e.trans h

theorem PortNow.bump {a : Nat} (h : PortNow p s t k) : PortNow p s (t.bump a) k := h

theorem PortNow.logEvent {src code x y : Nat} (h : PortNow p s t k) : PortNow p s (t.logEvent src code x y) k := h.same State.logEvent_dp

theorem PortNow.portsEq (h : PortNow p s t k) : t.dp.ports = s.dp.ports.set p k := (congrArg Datapath.ports h).trans rfl

theorem PortNow.port (h : PortNow p s t k) : t.dp.ports[p] = k := by
  simp only [h.portsEq]
  exact Vector.getElem_set_self _

theorem PortNow.onPort {f : Port → Port} (h : PortNow p s t k) : PortNow p s (t.onPort p f) (f k) := by
  have hdp : (t.onPort p f).dp = { t.dp with ports := t.dp.ports.set p (f t.dp.ports[p]) } := rfl
  rw [PortNow, hdp, h.port, h.portsEq, Vector.set_set, h]

end

/-! ## One block leaves the buffer -/

/-- A port with its buffer as it is given. -/
def Port.buffered (q : Port) (refill : Bool) (eb : List (BitVec 66)) : Port := { q with refill := refill, eb := eb }

/-- A port that has sent a block. -/
def Port.sent (q : Port) (b : BitVec 66) (ins : Bool) : Port := { q with lastOut := some b, inserted := ins }

namespace State

/-- A counter to which nothing is added is what it was. -/
theorem bumpBy_zero_touches (s : State) (a : Nat) : Touches [] (fun _ => False) s (s.bumpBy a 0) := by
  obtain ⟨hparts, hregs, hpending⟩ := s.bumpBy_touches a 0
  refine ⟨hparts, fun b _ => ?_, hpending⟩
  by_cases h : b = a
  · subst h
    refine BitVec.eq_of_toNat_eq ((reg_bumpBy_same ..).trans ?_)
    exact Nat.min_eq_right (Nat.le_of_lt_succ (s.reg b).isLt)
  · exact hregs b h

section
variable {s : State} {p : Fin 16} {cyc : Nat} {x b : BitVec 66} {rest l : List (BitVec 66)}

/-- A port whose buffer sends blocks: in a CV mode, not in electrical idle, and its lanes select one loop, which is not the far-end
loop (R206, R208). -/
def egresses (s : State) (p : Fin 16) : Bool :=
  s.cvMode && decide (0 < s.dp.ports[p].width) && !(s.portLanes p).any (fun n => s.dp.host[n].idle)
    && !s.portLoop p 3 && !s.portMixed p

/-- A buffer that is not too full keeps its blocks. -/
theorem ebDelete_of_le {limit : Nat} {last : Option (BitVec 66)} (h : l.length ≤ limit) : ebDelete limit last l = (l, 0) := by
  cases l with
  | nil => rfl
  | cons x t => exact if_neg fun hdel => absurd hdel.1 (Nat.not_lt.mpr h)

/-- Of a buffer that is too full the idle goes that follows an idle. -/
theorem ebDelete_idle {limit : Nat} (h : limit < rest.length + 2) (hx : x ≠ idle66) :
    ebDelete limit (some idle66) (idle66 :: x :: rest) = (x :: rest, 1) := by
  have hkeeps : ebDelete limit (some idle66) (x :: rest) = (x :: rest, 0) := if_neg fun hdel => hx (Option.some.inj hdel.2.1).symm
  refine (if_pos ⟨h, rfl, .inl (beq_self_eq_true _)⟩).trans ?_
  rw [hkeeps]

theorem trimmed_now : PortNow p s (s.trimmed p) (s.dp.ports[p].buffered false (s.ebLeft p).1) :=
  ((PortNow.refl p s).onPort (f := (·.buffered false (s.ebLeft p).1))).same rfl

theorem trimmed_touches : Touches [.dp] (· = R.HLn_IDLE_DEL (s.portBlock p)) s (s.trimmed p) :=
  .bumpBy (.onPort (.refl _ _ _)) rfl

theorem trimmed_keeps (h : (s.ebLeft p).2 = 0) : Touches [.dp] (fun _ => False) s (s.trimmed p) := by
  rw [trimmed, h]
  exact (Touches.onPort (.refl _ _ _)).trans ((bumpBy_zero_touches ..).mono (by simp) (by simp))

theorem insertion_of_le (h : 4 * (s.ebCentre s.dp.ports[p].width - 4 * s.dp.ports[p].width) ≤ (s.ebLeft p).1.length) :
    s.insertion p = none := by
  rw [insertion, decide_eq_false (Nat.not_lt.mpr h)]
  rfl

/-- An idle is inserted after an idle. -/
theorem insertion_idle (h : (s.ebLeft p).1.length < 4 * (s.ebCentre s.dp.ports[p].width - 4 * s.dp.ports[p].width))
    (hlast : s.dp.ports[p].lastOut = some idle66) (hins : s.dp.ports[p].inserted = false) : s.insertion p = some idle66 := by
  rw [insertion, decide_eq_true h, hins, hlast, Option.bind_some, insertAfter, isIdle66, beq_self_eq_true, Bool.true_or, if_pos rfl]
  exact if_pos rfl

/-- A block that leaves a port whose Local Fault is off. -/
theorem egressOne_next (hlf : s.dp.ports[p].lfOut = false) (hr : ¬ s.refills p) (heb : (s.ebLeft p).1 = x :: rest)
    (hins : s.insertion p = none) : PortNow p s (s.egressOne p) ((s.dp.ports[p].buffered false rest).sent x false)
    ∧ (∀ a, (s.egressOne p).reg a = (s.trimmed p).reg a)
    ∧ ∀ may, Touches [.dp] may s (s.trimmed p) → Touches [.dp] may s (s.egressOne p) := by
  have hfed := localFaultFed_of_off hlf
  rw [egressOne_sends (t := rest) (by rwa [hfed]) (by rwa [hfed]), hfed, hins, Option.elim_none]
  exact ⟨(trimmed_now.onPort (f := fun q => { q with eb := rest })).onPort (f := (·.sent x false)), fun _ => rfl,
    fun _ h => h.onPort.onPort⟩

/-- A block that is inserted into the buffer of a port whose Local Fault is off. -/
theorem egressOne_inserts (hlf : s.dp.ports[p].lfOut = false) (hr : ¬ s.refills p) (heb : (s.ebLeft p).1 = x :: rest)
    (hdel : (s.ebLeft p).2 = 0) (hins : s.insertion p = some b) :
    PortNow p s (s.egressOne p) ((s.dp.ports[p].buffered false (x :: rest)).sent b true)
    ∧ Claims.counted s (s.egressOne p) (R.HLn_IDLE_INS (s.portBlock p)) 1
    ∧ Touches [.dp] (· = R.HLn_IDLE_INS (s.portBlock p)) s (s.egressOne p) := by
  have hfed := localFaultFed_of_off hlf
  have hkeeps : Touches [.dp] (· = R.HLn_IDLE_INS (s.portBlock p)) s (s.trimmed p) := (trimmed_keeps hdel).mono (by simp) (by simp)
  rw [egressOne_sends (t := rest) (by rwa [hfed]) (by rwa [hfed]), hfed, hins, Option.elim_some]
  refine ⟨?_, ?_, (hkeeps.bump rfl).onPort⟩
  · have hnow := trimmed_now (s := s) (p := p)
    rw [heb] at hnow
    exact hnow.bump.onPort (f := (·.sent b true))
  · have hcount := counted_bump (s.trimmed p) (R.HLn_IDLE_INS (s.portBlock p))
    rw [Claims.counted, (trimmed_keeps hdel).2.1 _ id] at hcount
    exact hcount

/-- A port that slips, whose Local Fault is off. -/
theorem egressOne_empty (hlf : s.dp.ports[p].lfOut = false) (hr : ¬ s.refills p) (heb : s.dp.ports[p].eb = []) :
    PortNow p s (s.egressOne p) ((s.dp.ports[p].buffered true []).sent (fillBlock s.dp.ports[p].lastOut) false)
    ∧ Claims.counted s (s.egressOne p) (R.HLn_EB_SLIP_CNT (s.portBlock p)) 1
    ∧ Touches [.dp, .eng, .evr] (fun a => a = R.HLn_EB_SLIP_CNT (s.portBlock p) ∨ noticeReg a) s (s.egressOne p) := by
  have hfed := localFaultFed_of_off hlf
  have hleft : s.ebLeft p = ([], 0) := by rw [ebLeft, heb]; rfl
  have hblock : ((s.trimmed p).onPort p fun q => { q with refill := true }).portBlock p = s.portBlock p := by
    rw [portBlock, (trimmed_now (p := p) (s := s)).onPort.port]
    rfl
  have hkeeps := trimmed_keeps (s := s) (p := p) (congrArg Prod.snd hleft)
  have hlog (v : State) (x y z w : Nat) : ((v.logEvent x y z w).reg (R.HLn_EB_SLIP_CNT (s.portBlock p))) =
      v.reg (R.HLn_EB_SLIP_CNT (s.portBlock p)) :=
    (logEvent_touches ..).2.1 _ (not_noticeReg_host (by simp only [R.HLn_EB_SLIP_CNT]; omega))
  rw [egressOne_slips (by rwa [hfed]) (by rw [hfed, hleft]), hfed, ebSlip, hblock]
  refine ⟨?_, ?_, ?_⟩
  · have hnow := trimmed_now (s := s) (p := p)
    rw [hleft] at hnow
    have hslip := (hnow.onPort (f := fun q => { q with refill := true })).bump (a := R.HLn_EB_SLIP_CNT (s.portBlock p))
    exact hslip.logEvent.onPort (f := (·.sent (fillBlock s.dp.ports[p].lastOut) false))
  · have hcount := counted_bump (s.trimmed p) (R.HLn_EB_SLIP_CNT (s.portBlock p))
    rw [Claims.counted, hkeeps.2.1 _ id] at hcount
    exact (congrArg BitVec.toNat (hlog ..)).trans hcount
  · refine Touches.onPort (Touches.logEvent (Touches.bump (Touches.onPort ?_) (.inl rfl)) (hmay := fun _ => .inr))
    exact hkeeps.mono (by simp) (by simp)

/-- A fill block, while the buffer refills and no Local Fault is sent. -/
theorem egressOne_fills (hlf : s.dp.ports[p].lfOut = false) (hr : s.refills p) :
    PortNow p s (s.egressOne p) (s.dp.ports[p].sent (fillBlock s.dp.ports[p].lastOut) false)
    ∧ Touches [.dp] (fun _ => False) s (s.egressOne p) := by
  have hfed := localFaultFed_of_off hlf
  rw [egressOne_refills (by rwa [hfed]), hfed]
  exact ⟨(PortNow.refl p s).onPort (f := (·.sent _ false)), .onPort (.refl _ _ _)⟩

end
end State
end Sys2Proof.Machine
end

section
/-!
What EGRESS_BLOCK_OUT answers (R186, R202–R204, R206, R208).
-/

namespace Sys2Proof.Machine

open State

/-! ## A block is gathered -/

/-- A port that does not refill, and goes on so. -/
theorem Port.buffered_false {q : Port} (h : q.refill = false) (eb : List (BitVec 66)) :
    q.buffered false eb = q.buffered q.refill eb := by rw [h]

/-- A port that has gathered one more block. -/
def Port.gathered (q : Port) (b : BitVec 66) : Port := { q with gather := q.gather ++ [b] }

section
variable {s : State} {p : Fin 16} {cyc : Nat} {x b : BitVec 66} {rest l : List (BitVec 66)} {r ins : Bool}

/-- A port that does not send blocks of its buffer. -/
theorem exec_egressBlockOut_of_not (h : s.egresses p = false) : exec (.egressBlockOut p cyc) s = .next s :=
  if_neg (by rw [← egresses, h]; exact Bool.false_ne_true)

theorem exec_egressBlockOut (h : s.egresses p = true) (hlast : (s.egressOne p).dp.ports[p].lastOut = some b) :
    exec (.egressBlockOut p cyc) s = .next ((s.egressOne p).regenerate p cyc b) := by
  refine (if_pos h).trans ?_
  rw [hlast]

/-- Fewer than four blocks wait. -/
theorem exec_egressBlockOut_gathers (h : s.egresses p = true) (hg : s.dp.ports[p].gather.length < 3)
    (hnow : PortNow p s (s.egressOne p) ((s.dp.ports[p].buffered r l).sent b ins)) :
    exec (.egressBlockOut p cyc) s = .next ((s.egressOne p).onPort p (·.gathered b)) := by
  have hlt : (s.egressOne p).dp.ports[p].gather.length < 3 := by rw [hnow.port]; exact hg
  rw [exec_egressBlockOut h (by rw [hnow.port]; rfl), regenerate_of_lt hlt]
  rfl

section
variable (h : s.egresses p = true) (hlf : s.dp.ports[p].lfOut = false) (hg : s.dp.ports[p].gather.length < 3)
include h hlf hg

/-- A block leaves a buffer that is neither too full nor too empty. -/
theorem egressBlockOut_sends (hr : s.dp.ports[p].refill = false) (heb : s.dp.ports[p].eb = x :: rest)
    (hfull : s.dp.ports[p].eb.length ≤ 4 * (s.ebCentre s.dp.ports[p].width + 4 * s.dp.ports[p].width))
    (hempty : 4 * (s.ebCentre s.dp.ports[p].width - 4 * s.dp.ports[p].width) ≤ s.dp.ports[p].eb.length) :
    Answers (.egressBlockOut p cyc) s fun t =>
      PortNow p s t (((s.dp.ports[p].buffered s.dp.ports[p].refill rest).sent x false).gathered x)
      ∧ Touches [.dp] (fun _ => False) s t := by
  have hleft : s.ebLeft p = (s.dp.ports[p].eb, 0) := ebDelete_of_le hfull
  have hstays : ¬ s.refills p := fun hrefills => Bool.false_ne_true (hr.symm.trans hrefills.1)
  obtain ⟨hnow, -, htouch⟩ := egressOne_next hlf hstays ((congrArg Prod.fst hleft).trans heb) (insertion_of_le (by rwa [hleft]))
  rw [Port.buffered_false hr] at hnow
  exact ⟨_, exec_egressBlockOut_gathers h hg hnow, hnow.onPort, (htouch _ (trimmed_keeps (congrArg Prod.snd hleft))).onPort⟩

/-- Of two idles in a buffer that is too full the one is deleted that follows an idle. -/
theorem egressBlockOut_deletes (hr : s.dp.ports[p].refill = false) (heb : s.dp.ports[p].eb = idle66 :: x :: rest)
    (hlast : s.dp.ports[p].lastOut = some idle66) (hx : x ≠ idle66)
    (hfull : 4 * (s.ebCentre s.dp.ports[p].width + 4 * s.dp.ports[p].width) < s.dp.ports[p].eb.length) :
    Answers (.egressBlockOut p cyc) s fun t =>
      PortNow p s t (((s.dp.ports[p].buffered s.dp.ports[p].refill rest).sent x false).gathered x)
      ∧ Claims.counted s t (R.HLn_IDLE_DEL s.dp.ports[p].first) 1
      ∧ Touches [.dp] (· = R.HLn_IDLE_DEL s.dp.ports[p].first) s t := by
  rw [heb, List.length_cons, List.length_cons] at hfull
  have hleft : s.ebLeft p = (x :: rest, 1) := by rw [ebLeft, heb, hlast, ebDelete_idle hfull hx]
  have hstays : ¬ s.refills p := fun hrefills => Bool.false_ne_true (hr.symm.trans hrefills.1)
  obtain ⟨hnow, hreg, htouch⟩ := egressOne_next hlf hstays (congrArg Prod.fst hleft)
    (insertion_of_le (by rw [hleft, List.length_cons]; omega))
  have hcount : Claims.counted s (s.egressOne p) (R.HLn_IDLE_DEL s.dp.ports[p].first) 1 := by
    rw [Claims.counted, hreg, trimmed, hleft]
    exact reg_bumpBy_same ..
  rw [Port.buffered_false hr] at hnow
  exact ⟨_, exec_egressBlockOut_gathers h hg hnow, hnow.onPort, hcount, (htouch _ trimmed_touches).onPort⟩

/-- An idle is inserted after an idle where the buffer is too empty. -/
theorem egressBlockOut_inserts (hr : s.dp.ports[p].refill = false) (heb : s.dp.ports[p].eb = x :: rest)
    (hlast : s.dp.ports[p].lastOut = some idle66) (hins : s.dp.ports[p].inserted = false)
    (hempty : s.dp.ports[p].eb.length < 4 * (s.ebCentre s.dp.ports[p].width - 4 * s.dp.ports[p].width)) :
    Answers (.egressBlockOut p cyc) s fun t =>
      PortNow p s t (((s.dp.ports[p].buffered s.dp.ports[p].refill s.dp.ports[p].eb).sent idle66 true).gathered idle66)
      ∧ Claims.counted s t (R.HLn_IDLE_INS s.dp.ports[p].first) 1
      ∧ Touches [.dp] (· = R.HLn_IDLE_INS s.dp.ports[p].first) s t := by
  have hleft : s.ebLeft p = (s.dp.ports[p].eb, 0) := ebDelete_of_le (by omega)
  have hstays : ¬ s.refills p := fun hrefills => Bool.false_ne_true (hr.symm.trans hrefills.1)
  obtain ⟨hnow, hcount, htouch⟩ := egressOne_inserts hlf hstays ((congrArg Prod.fst hleft).trans heb) (congrArg Prod.snd hleft)
    (insertion_idle (by rwa [hleft]) hlast hins)
  rw [Port.buffered_false hr, ← heb] at hnow
  exact ⟨_, exec_egressBlockOut_gathers h hg hnow, hnow.onPort, hcount, htouch.onPort⟩

/-- An empty buffer slips, and a fill block is sent. -/
theorem egressBlockOut_slips (hr : s.dp.ports[p].refill = false) (heb : s.dp.ports[p].eb = []) :
    Answers (.egressBlockOut p cyc) s fun t =>
      PortNow p s t (((s.dp.ports[p].buffered true s.dp.ports[p].eb).sent (fillBlock s.dp.ports[p].lastOut) false).gathered
        (fillBlock s.dp.ports[p].lastOut))
      ∧ Claims.counted s t (R.HLn_EB_SLIP_CNT s.dp.ports[p].first) 1
      ∧ Touches [.dp, .eng, .evr] (fun a => a = R.HLn_EB_SLIP_CNT s.dp.ports[p].first ∨ noticeReg a) s t := by
  have hstays : ¬ s.refills p := fun hrefills => Bool.false_ne_true (hr.symm.trans hrefills.1)
  obtain ⟨hnow, hcount, htouch⟩ := egressOne_empty hlf hstays heb
  rw [← heb] at hnow
  exact ⟨_, exec_egressBlockOut_gathers h hg hnow, hnow.onPort, hcount, htouch.onPort⟩

/-- A fill block is sent while the buffer refills. -/
theorem egressBlockOut_fills (hr : s.dp.ports[p].refill = true)
    (heb : s.dp.ports[p].eb.length < 4 * s.ebCentre s.dp.ports[p].width) : Answers (.egressBlockOut p cyc) s fun t =>
      PortNow p s t ((s.dp.ports[p].sent (fillBlock s.dp.ports[p].lastOut) false).gathered (fillBlock s.dp.ports[p].lastOut))
      ∧ Touches [.dp] (fun _ => False) s t := by
  obtain ⟨hnow, htouch⟩ := egressOne_fills hlf ⟨hr, heb⟩
  exact ⟨_, exec_egressBlockOut_gathers (r := s.dp.ports[p].refill) (l := s.dp.ports[p].eb) h hg hnow, hnow.onPort, htouch.onPort⟩

end

/-! ## Local Fault (R186) -/

namespace State

/-- Something leaves the buffer whatever stands in it. -/
theorem egressOne_lastOut (s : State) (p : Fin 16) : ∃ b, (s.egressOne p).dp.ports[p].lastOut = some b := by
  have hsent (u : State) (y : BitVec 66) (ins : Bool) : ∃ b, (u.sendBlock p y ins).dp.ports[p].lastOut = some b :=
    ⟨y, by rw [sendBlock, onPort_port_same]⟩
  by_cases hr : (s.localFaultFed p).refills p
  · rw [egressOne_refills hr]
    exact hsent ..
  · cases heb : ((s.localFaultFed p).ebLeft p).1 with
    | nil =>
      rw [egressOne_slips hr heb]
      exact hsent ..
    | cons x t =>
      rw [egressOne_sends hr heb]
      cases (s.localFaultFed p).insertion p with
      | none => exact hsent ..
      | some y => exact hsent ..

theorem portLanes_congr {s t : State} {p : Fin 16} (hfirst : t.dp.ports[p].first = s.dp.ports[p].first)
    (hwidth : t.dp.ports[p].width = s.dp.ports[p].width) : t.portLanes p = s.portLanes p := by
  rw [portLanes, portLanes, hfirst, hwidth]

theorem portLoop_congr {s t : State} {p : Fin 16} {k : Nat} (hfirst : t.dp.ports[p].first = s.dp.ports[p].first)
    (hwidth : t.dp.ports[p].width = s.dp.ports[p].width) (hloop : ∀ n, t.hostLoop n = s.hostLoop n) : t.portLoop p k = s.portLoop p k := by
  simp only [portLoop, hwidth, portLanes_congr hfirst hwidth, hloop]

/-- Feeding Local Fault does not decide whether a port sends. -/
theorem egresses_lfPutAside (s : State) (p : Fin 16) : (s.lfPutAside p).egresses p = s.egresses p := by
  have hfirst : (s.lfPutAside p).dp.ports[p].first = s.dp.ports[p].first := by rw [lfPutAside, onPort_port_same]
  have hwidth : (s.lfPutAside p).dp.ports[p].width = s.dp.ports[p].width := by rw [lfPutAside, onPort_port_same]
  have hloop (k : Nat) : (s.lfPutAside p).portLoop p k = s.portLoop p k := portLoop_congr hfirst hwidth fun _ => rfl
  simp only [egresses, portMixed, portLanes_congr hfirst hwidth, hwidth, hloop]
  rfl

end State

/-- A port that sends Local Fault sends what it sends once one block of it is fed. -/
theorem egressBlockOut_localFault (h : s.egresses p = true) (hlf : s.dp.ports[p].lfOut = true) :
    Answers (.egressBlockOut p cyc) (s.lfPutAside p) fun u => Answers (.egressBlockOut p cyc) s (· = u.withLf p true) := by
  obtain ⟨b, hlast⟩ := egressOne_lastOut (s.lfPutAside p) p
  have hon := egressOne_of_on hlf
  refine ⟨_, exec_egressBlockOut ((egresses_lfPutAside s p).trans h) hlast, _, exec_egressBlockOut (b := b) h ?_, ?_⟩
  · rw [hon, lastOut_withLf, hlast]
  · rw [hon, regenerate_withLf]

end
end Sys2Proof.Machine
end

section
/-!
The fourth block completes a transcoded block, and the 20th of these a codeword, which goes to the lanes of the port (R204).
-/

namespace Sys2Proof.Machine

open State

/-! ## Codewords go to the lanes (R200) -/

/-- Between two states at most host lanes have changed, and the loops that act on them have not. -/
structure HostsOnly (s t : State) : Prop where
  touches : Touches [.dp] (fun _ => False) s t
  dp : t.dp = { s.dp with host := t.dp.host }
  loops : ∀ n, t.hostLoop n = s.hostLoop n

section
variable {s t u : State} {n p : Fin 16}

theorem HostsOnly.refl (s : State) : HostsOnly s s := ⟨.refl _ _ _, rfl, fun _ => rfl⟩

theorem HostsOnly.trans (h : HostsOnly s t) (k : HostsOnly t u) : HostsOnly s u :=
  ⟨h.touches.trans k.touches, by rw [k.dp, h.dp], fun n => (k.loops n).trans (h.loops n)⟩

theorem HostsOnly.ports (h : HostsOnly s t) : t.dp.ports = s.dp.ports := (congrArg Datapath.ports h.dp).trans rfl

theorem HostsOnly.onHost {f : HostLane → HostLane} (hheld : ∀ l, (f l).held = l.held) : HostsOnly s (s.onHost n f) := by
  refine ⟨.onHost (.refl _ _ _), rfl, fun m => ?_⟩
  have hlane : (s.onHost n f).dp.host[m].held = s.dp.host[m].held := by
    by_cases h : m = n
    · subst h
      exact (congrArg HostLane.held (Vector.getElem_set_self _)).trans (hheld _)
    · exact congrArg HostLane.held (Vector.getElem_set_ne n.isLt m.isLt fun e => h (Fin.ext e.symm))
  rw [hostLoop, hostLoop, ctlField, ctlField, hlane]
  rfl

theorem HostsOnly.hostShape {ys : List Nat} : HostsOnly s (s.hostShape n ys) := by
  unfold State.hostShape
  refine .onHost ?_
  exact fun _ => rfl

/-- A lane on which no loop acts sends. -/
theorem HostsOnly.hostSend {xs : List Nat} (h : s.hostLoop n = 0) : HostsOnly s (s.hostSend n xs) := by
  have hback (v : State) (ys : List Nat) (hv : HostsOnly s v) : HostsOnly s (v.loopedBack n ys) := by
    rw [loopedBack, if_neg (by rw [hv.loops, h]; decide)]
    exact hv
  cases hp : hostPattern (s.prbsGen n) with
  | some g =>
    rw [hostSend_of_some s hp]
    refine hback _ _ (.onHost ?_)
    exact fun _ => rfl
  | none =>
    rw [hostSend_of_none s hp]
    refine hback _ _ (.trans (.onHost ?_) .hostShape)
    exact fun _ => rfl

theorem HostsOnly.hostSends {l : List (Fin 16 × List Nat)} (h : ∀ x ∈ l, s.hostLoop x.1 = 0) :
    HostsOnly s (l.foldl (fun s x => s.hostSend x.1 x.2) s) := by
  induction l generalizing s with
  | nil => exact .refl s
  | cons x l ih =>
    have hfirst := HostsOnly.hostSend (xs := x.2) (h x (List.mem_cons_self ..))
    exact hfirst.trans (ih fun y hy => (hfirst.loops y.1).trans (h y (List.mem_cons_of_mem _ hy)))

/-- The codeword of the blocks that a port has gathered. -/
def Port.codeword (q : Port) : List Nat := rsEncode (bitSymbols ((q.blocks.take 20).flatMap blockBits))

/-- A port that has encoded a codeword. -/
def Port.encoded (q : Port) : Port := { q with blocks := q.blocks.drop 20, marks := 0, word := q.codeword }

/-- A codeword is distributed to the lanes of its port. -/
def State.distributed (s : State) (p : Fin 16) : State :=
  (((s.onPort p Port.encoded).portLanes p).zip (Config.laneSymbols s.dp.ports[p].width s.dp.ports[p].codeword)).foldl
    (fun s x => s.hostSend x.1 x.2) (s.onPort p Port.encoded)

theorem sendCodeword_distributes {cyc : Nat} (h1 : (s.distributed p).portLoop p 1 = false) (h2 : (s.distributed p).portLoop p 2 = false) :
    s.sendCodeword p cyc = s.distributed p := by
  have hset : (s.onPort p fun q => { q with blocks := q.blocks.drop 20, marks := 0, word := s.dp.ports[p].codeword }) =
      s.onPort p Port.encoded := onPort_congr rfl
  unfold sendCodeword
  dsimp only
  rw [← Port.codeword, hset, ← distributed, h1, h2]
  rfl

/-- A port without a loop sends a codeword. -/
theorem sendCodeword_plain {cyc : Nat} (hloop : ∀ n ∈ s.portLanes p, s.hostLoop n = 0)
    (h1 : s.portLoop p 1 = false) (h2 : s.portLoop p 2 = false) : HostsOnly (s.onPort p Port.encoded) (s.sendCodeword p cyc) := by
  have hfirst : (s.onPort p Port.encoded).dp.ports[p].first = s.dp.ports[p].first := by rw [onPort_port_same]; rfl
  have hwidth : (s.onPort p Port.encoded).dp.ports[p].width = s.dp.ports[p].width := by rw [onPort_port_same]; rfl
  have hsent : HostsOnly (s.onPort p Port.encoded) (s.distributed p) :=
    .hostSends fun x hx => hloop _ (portLanes_congr hfirst hwidth ▸ (List.of_mem_zip hx).1)
  have hloops (k : Nat) : (s.distributed p).portLoop p k = s.portLoop p k :=
    portLoop_congr (by rw [hsent.ports, hfirst]) (by rw [hsent.ports, hwidth]) hsent.loops
  rw [sendCodeword_distributes ((hloops 1).trans h1) ((hloops 2).trans h2)]
  exact hsent

/-! ## The fourth block -/

theorem length_pcsScramble (l : List Bool) (st : Nat) : (pcsScramble l st).1.length = l.length := by
  induction l generalizing st with
  | nil => rfl
  | cons b l ih => exact congrArg (· + 1) (ih _)

/-- A transcoded block, scrambled, is one block of a codeword. -/
theorem length_bitBlocks_scrambled (q : Port) (x : BitVec 66) : (bitBlocks (q.scrambled x).1).length = 1 := by
  rw [bitBlocks, List.length_map, List.length_range, Port.scrambled, length_pcsScramble, blockBits, msbBits, List.length_map,
    List.length_range]

/-- A block that is not the first of its codeword joins without alignment markers. -/
theorem Port.joined_of_blocks {q : Port} (h : q.blocks ≠ []) (c : List Bool × Nat) :
    q.joined c = { q with gather := [], txScr := c.2, blocks := q.blocks ++ bitBlocks c.1 } := by
  have hempty : q.blocks.isEmpty = false := by rwa [List.isEmpty_eq_false_iff]
  simp [Port.joined, Port.markers, hempty]

/-- A port that sends its buffer and selects no near-end loop selects none. -/
theorem hostLoop_of_egresses (h : s.egresses p = true) (h1 : s.portLoop p 1 = false) (h2 : s.portLoop p 2 = false) :
    ∀ n ∈ s.portLanes p, s.hostLoop n = 0 := by
  simp only [egresses, Bool.and_eq_true, Bool.not_eq_true', decide_eq_true_eq] at h
  obtain ⟨⟨⟨⟨-, hwidth⟩, -⟩, h3⟩, hmixed⟩ := h
  have h0 : s.portLoop p 0 = true := by
    rw [portMixed, decide_eq_true hwidth] at hmixed
    simpa [List.range_succ, h1, h2, h3] using hmixed
  simp only [portLoop, Bool.and_eq_true, List.all_eq_true, beq_iff_eq] at h0
  exact h0.2

section
variable {cyc : Nat} {x : BitVec 66} {k : Port}

theorem fourthBlock_now (hnow : PortNow p s t k) (hblocks : k.blocks ≠ []) : PortNow p s (t.fourthBlock p x)
    { k with gather := [], txScr := (k.scrambled x).2, blocks := k.blocks ++ bitBlocks (k.scrambled x).1 } := by
  rw [← Port.joined_of_blocks hblocks]
  exact hnow.onPort (f := fun q => q.joined (q.scrambled x))

/-- A codeword is not complete. -/
theorem regenerate_joins (hnow : PortNow p s t k) (hg : k.gather.length = 3) (hblocks : k.blocks ≠ []) (hfew : k.blocks.length < 19) :
    PortNow p s (t.regenerate p cyc x)
      { k with gather := [], txScr := (k.scrambled x).2, blocks := k.blocks ++ bitBlocks (k.scrambled x).1 }
    ∧ ∀ may, Touches [.dp] may s t → Touches [.dp] may s (t.regenerate p cyc x) := by
  have hfourth := fourthBlock_now (x := x) hnow hblocks
  have hlen : ¬ 20 ≤ (t.fourthBlock p x).dp.ports[p].blocks.length := by
    rw [hfourth.port, List.length_append, length_bitBlocks_scrambled]
    omega
  rw [regenerate_of_ge (by rw [hnow.port, hg]), if_neg hlen]
  exact ⟨hfourth, fun _ h => h.onPort⟩

/-- The 20th block completes a codeword. -/
theorem regenerate_sends (hnow : PortNow p s t k) (hg : k.gather.length = 3) (hblocks : k.blocks.length = 19)
    (hfirst : k.first = s.dp.ports[p].first) (hwidth : k.width = s.dp.ports[p].width) (hloops : ∀ n, t.hostLoop n = s.hostLoop n)
    (h : s.egresses p = true) (h1 : s.portLoop p 1 = false) (h2 : s.portLoop p 2 = false) :
    (t.regenerate p cyc x).dp.ports = s.dp.ports.set p
      { k with gather := [], txScr := (k.scrambled x).2, blocks := [], marks := 0,
               word := rsEncode (bitSymbols ((k.blocks ++ bitBlocks (k.scrambled x).1).flatMap blockBits)) }
    ∧ (t.regenerate p cyc x).dp = { s.dp with ports := (t.regenerate p cyc x).dp.ports, host := (t.regenerate p cyc x).dp.host }
    ∧ ∀ may, Touches [.dp] may s t → Touches [.dp] may s (t.regenerate p cyc x) := by
  have hfourth := fourthBlock_now (x := x) hnow (List.ne_nil_of_length_pos (by omega))
  have hlen : (k.blocks ++ bitBlocks (k.scrambled x).1).length = 20 := by
    rw [List.length_append, length_bitBlocks_scrambled, hblocks]
  have hloop (j : Nat) : (t.fourthBlock p x).portLoop p j = s.portLoop p j :=
    portLoop_congr (by rw [hfourth.port, ← hfirst]) (by rw [hfourth.port, ← hwidth]) hloops
  have hlanes : (t.fourthBlock p x).portLanes p = s.portLanes p :=
    portLanes_congr (by rw [hfourth.port, ← hfirst]) (by rw [hfourth.port, ← hwidth])
  have hsent := sendCodeword_plain (s := t.fourthBlock p x) (p := p) (cyc := cyc)
    (by rw [hlanes]; exact fun n hn => (hloops n).trans (hostLoop_of_egresses h h1 h2 n hn)) ((hloop 1).trans h1) ((hloop 2).trans h2)
  have hcoded := hfourth.onPort (f := Port.encoded)
  rw [regenerate_of_ge (by rw [hnow.port, hg]), if_pos (by rw [hfourth.port]; exact hlen.ge)]
  refine ⟨?_, ?_, fun _ ht => (Touches.onPort (Touches.onPort ht)).trans (hsent.touches.mono (fun _ h => h) (fun _ h => h.elim))⟩
  · rw [hsent.dp, hcoded.portsEq, Port.encoded, Port.codeword, List.take_of_length_le hlen.le, List.drop_of_length_le hlen.le]
  · rw [hsent.dp, hcoded]

end
end
end Sys2Proof.Machine
end

section
/-!
The pattern checker of a host lane (R209, R210): its orders, the symbols that continue its pattern, and the error that takes its lock.
-/

namespace Sys2Proof.Machine

open State

/-! ## Bits and symbols that continue the pattern -/

/-- A checker that compares bits with its pattern, in step with the symbol stream. -/
structure HostLane.Compares (h : HostLane) : Prop where
  seeded : h.seeded = true
  need : h.need = 0
  skip : h.skip = 0
  delay : h.delay = 0
  swapped : h.swapped = false

/-- A checker with its place in the pattern, its counts of bits and its lock as they are given. -/
def HostLane.moved (h : HostLane) (place bits clean : Nat) (locked : Bool) : HostLane :=
  { h with place := place, bits := bits, clean := clean, prbsLocked := locked }

/-- A checker that has received one bit of its pattern. -/
def HostLane.matched (p : Pattern) (h : HostLane) : HostLane :=
  h.moved (p.bit h.place).2 (h.bits + 1) (h.clean + 1) (h.prbsLocked || decide (4096 ≤ h.clean + 1))

/-- A checker that has received so many symbols of its pattern. -/
def HostLane.followedOn (p : Pattern) (k : Nat) (h : HostLane) : HostLane :=
  h.moved (p.run k h.place).2 (h.bits + 2 * k) (h.clean + 2 * k)
    (h.prbsLocked || (decide (0 < k) && decide (4096 ≤ h.clean + 2 * k)))

/-- The two bits of a label are checked, b1 first unless the pairing is exchanged. -/
def HostLane.bothBits (p : Pattern) (auto : Bool) (h : HostLane) (errs lab : Nat) : HostLane × Nat :=
  let c1 := h.checkBit p auto (bitOf lab (if h.swapped then 0 else 1))
  let c0 := c1.1.checkBit p auto (bitOf lab (if c1.1.swapped then 1 else 0))
  (c0.1, errs + b2n c1.2 + b2n c0.2)

/-- The next symbol of a pattern. -/
def Pattern.symbol (p : Pattern) (st : Nat) : Nat := labelSym (2 * b2n (p.bit st).1 + b2n (p.bit (p.bit st).2).1)

theorem Pattern.run_succ (p : Pattern) (k st : Nat) : p.run (k + 1) st =
    (p.symbol st :: (p.run k (p.bit (p.bit st).2).2).1, (p.run k (p.bit (p.bit st).2).2).2) := rfl

/-- A symbol's label is the one it was made of. -/
theorem symLabel_labelSym (b1 b0 : Bool) : symLabel (labelSym (2 * b2n b1 + b2n b0)) = 2 * b2n b1 + b2n b0 := by
  cases b1 <;> cases b0 <;> decide

theorem bitOf_label_one (b1 b0 : Bool) : bitOf (2 * b2n b1 + b2n b0) 1 = b1 := by cases b1 <;> cases b0 <;> decide

theorem bitOf_label_zero (b1 b0 : Bool) : bitOf (2 * b2n b1 + b2n b0) 0 = b0 := by cases b1 <;> cases b0 <;> decide

section
variable {p : Pattern} {auto : Bool} {h : HostLane} {b : Bool} {errs : Nat}

theorem HostLane.Compares.matched (hc : h.Compares) : (h.matched p).Compares := ⟨hc.seeded, hc.need, hc.skip, hc.delay, hc.swapped⟩

theorem HostLane.checkBit_same (hc : h.Compares) : h.checkBit p auto (p.bit h.place).1 = (h.matched p, false) := by
  unfold HostLane.checkBit
  rw [if_neg (by rw [hc.skip]; decide), if_neg (by rw [hc.seeded]; decide), if_neg (by rw [hc.need]; decide)]
  exact if_pos rfl

/-- Streams that are in step stay so. -/
theorem HostLane.Compares.inStep (hc : h.Compares) :
    { h with place := if h.need = 0 then p.skipBits (2 * h.delay) h.place else h.place, delay := 0 } = h := by
  have hplace : (if h.need = 0 then p.skipBits (2 * h.delay) h.place else h.place) = h.place := by
    rw [if_pos hc.need, hc.delay]
    rfl
  have hdelay := hc.delay
  rw [hplace]
  cases h
  cases hdelay
  rfl

/-- Where the streams are in step, a symbol's two bits are checked as they come. -/
theorem HostLane.checkSymbol_compares (hc : h.Compares) {x : Nat} :
    HostLane.checkSymbol p auto (h, errs) x = h.bothBits p auto errs (symLabel x) :=
  congrArg (fun g : HostLane => g.bothBits p auto errs (symLabel x)) hc.inStep

/-- A symbol of the pattern. -/
theorem HostLane.checkSymbol_same (hc : h.Compares) :
    HostLane.checkSymbol p auto (h, errs) (p.symbol h.place) = ((h.matched p).matched p, errs) := by
  have hsecond : (h.matched p).swapped = false := hc.matched.swapped
  have hplace : (h.matched p).place = (p.bit h.place).2 := rfl
  rw [checkSymbol_compares hc, Pattern.symbol, symLabel_labelSym, bothBits, hc.swapped, if_neg Bool.false_ne_true, bitOf_label_one,
    checkBit_same hc]
  dsimp only
  rw [hsecond, if_neg Bool.false_ne_true, bitOf_label_zero, ← hplace, checkBit_same hc.matched]
  rfl

theorem HostLane.followedOn_zero : h.followedOn p 0 = h := by simp [followedOn, moved, Pattern.run]

theorem HostLane.followedOn_succ {k : Nat} : ((h.matched p).matched p).followedOn p k = h.followedOn p (k + 1) := by
  have hlocked : (((h.prbsLocked || decide (4096 ≤ h.clean + 1)) || decide (4096 ≤ h.clean + 1 + 1))
      || (decide (0 < k) && decide (4096 ≤ h.clean + 1 + 1 + 2 * k))) =
      (h.prbsLocked || (decide (0 < k + 1) && decide (4096 ≤ h.clean + 2 * (k + 1)))) := by
    cases h.prbsLocked
    · simp only [Bool.false_or, ← Bool.decide_or, ← Bool.decide_and]
      exact decide_eq_decide.mpr (by omega)
    · rfl
  have hcount (m : Nat) : m + 1 + 1 + 2 * k = m + 2 * (k + 1) := by omega
  calc ((h.matched p).matched p).followedOn p k
    _ = h.moved (p.run (k + 1) h.place).2 (h.bits + 1 + 1 + 2 * k) (h.clean + 1 + 1 + 2 * k)
          (((h.prbsLocked || decide (4096 ≤ h.clean + 1)) || decide (4096 ≤ h.clean + 1 + 1))
            || (decide (0 < k) && decide (4096 ≤ h.clean + 1 + 1 + 2 * k))) := rfl
    _ = h.followedOn p (k + 1) := by rw [hlocked, hcount, hcount, followedOn]

/-- Symbols that continue the pattern count no error. -/
theorem HostLane.checkSymbols_same (hc : h.Compares) {xs : List Nat} (hxs : xs = (p.run xs.length h.place).1) :
    xs.foldl (HostLane.checkSymbol p auto) (h, errs) = (h.followedOn p xs.length, errs) := by
  induction xs generalizing h with
  | nil => rw [List.foldl_nil, List.length_nil, followedOn_zero]
  | cons x xs ih =>
    rw [List.length_cons, Pattern.run_succ] at hxs
    obtain ⟨hx, hrest⟩ := List.cons.inj hxs
    rw [List.foldl_cons, hx, checkSymbol_same hc, ih hc.matched.matched hrest, followedOn_succ, List.length_cons]

/-! ## The error that takes the lock -/

/-- A checker that loses its lock: with auto_sync it takes a new seed. -/
def HostLane.lostLock (p : Pattern) (auto : Bool) (h : HostLane) : HostLane :=
  let m := { h with place := (p.bit h.place).2, bits := h.bits + 1, clean := 0, errors := (h.bits + 1) :: h.errors }
  if auto then m.seed p else { m with prbsLocked := false, errors := [] }

/-- The 64th error within 4,096 bits. -/
theorem HostLane.checkBit_lost (hc : h.Compares) (hlocked : h.prbsLocked = true) (herrors : h.errors.length = 63)
    (hnear : h.bits + 1 - h.errors.getLastD 0 < 4096) (hb : b ≠ (p.bit h.place).1) :
    h.checkBit p auto b = (h.lostLock p auto, true) := by
  have htake : ((h.bits + 1) :: h.errors).take 64 = (h.bits + 1) :: h.errors :=
    List.take_of_length_le (by rw [List.length_cons, herrors])
  have hlast : ((h.bits + 1) :: h.errors).getLastD 0 = h.errors.getLastD 0 := by
    cases he : h.errors with
    | nil => rw [he] at herrors; cases herrors
    | cons e l => rfl
  unfold HostLane.checkBit
  rw [if_neg (by rw [hc.skip]; decide), if_neg (by rw [hc.seeded]; decide), if_neg (by rw [hc.need]; decide)]
  dsimp only
  rw [if_neg (Ne.symm hb), if_pos hlocked, htake, hlast, List.length_cons, herrors, decide_eq_true hnear, if_neg (by decide),
    HostLane.lostLock]
  cases auto
  · rfl
  · rfl

/-- A bit of a seed that is not its last. -/
theorem HostLane.checkBit_seeds (hskip : h.skip = 0) (hseeded : h.seeded = true) (hneed : 1 < h.need) :
    h.checkBit p auto b = ({ h with need := h.need - 1, place := 2 * h.place + b2n b }, false) := by
  unfold HostLane.checkBit
  rw [if_neg (by rw [hskip]; decide), if_neg (by rw [hseeded]; decide), if_pos (by omega)]
  exact if_neg (by omega)

/-- A checker without lock and without auto_sync counts no error, and one bit does not bring lock. -/
theorem HostLane.checkBit_unlocked (hc : h.Compares) (hlocked : h.prbsLocked = false) (hclean : h.clean = 0) :
    (h.checkBit p false b).2 = false ∧ (h.checkBit p false b).1.prbsLocked = false := by
  unfold HostLane.checkBit
  rw [if_neg (by rw [hc.skip]; decide), if_neg (by rw [hc.seeded]; decide), if_neg (by rw [hc.need]; decide)]
  dsimp only
  rw [hlocked, hclean]
  split
  · exact ⟨rfl, rfl⟩
  · exact ⟨rfl, rfl⟩

/-- The second bit of the symbol whose first has taken the lock. -/
theorem HostLane.lostLock_second (hc : h.Compares) (hp : 1 < p.seedBits) :
    ((h.lostLock p auto).checkBit p auto b).2 = false ∧ ((h.lostLock p auto).checkBit p auto b).1.prbsLocked = false
    ∧ (auto = true → ((h.lostLock p auto).checkBit p auto b).1.seeded = true
      ∧ 0 < ((h.lostLock p auto).checkBit p auto b).1.need) := by
  cases auto with
  | false =>
    obtain ⟨herr, hlocked⟩ := HostLane.checkBit_unlocked (h := h.lostLock p false) (p := p) (b := b)
      ⟨hc.seeded, hc.need, hc.skip, hc.delay, hc.swapped⟩ rfl rfl
    exact ⟨herr, hlocked, fun hauto => absurd hauto Bool.false_ne_true⟩
  | true =>
    rw [HostLane.checkBit_seeds (h := h.lostLock p true) hc.skip rfl hp]
    exact ⟨rfl, rfl, fun _ => ⟨rfl, Nat.sub_pos_of_lt hp⟩⟩

/-- A symbol whose first bit takes the lock counts one error. -/
theorem HostLane.checkSymbol_lost (hc : h.Compares) (hlocked : h.prbsLocked = true) (herrors : h.errors.length = 63)
    (hnear : h.bits + 1 - h.errors.getLastD 0 < 4096) {x : Nat} (hx : bitOf (symLabel x) 1 ≠ (p.bit h.place).1) (hp : 1 < p.seedBits) :
    ∃ k, HostLane.checkSymbol p auto (h, 0) x = (k, 1) ∧ k.prbsLocked = false ∧ (auto = true → k.seeded = true ∧ 0 < k.need) := by
  obtain ⟨herr, hlock, hseed⟩ := HostLane.lostLock_second (auto := auto)
    (b := bitOf (symLabel x) (if (h.lostLock p auto).swapped then 1 else 0)) hc hp
  refine ⟨_, ?_, hlock, hseed⟩
  rw [checkSymbol_compares hc, bothBits, hc.swapped, if_neg Bool.false_ne_true, checkBit_lost hc hlocked herrors hnear hx]
  dsimp only
  rw [herr]
  rfl

end
end Sys2Proof.Machine
end

section
/-!
What the orders of a checker leave, and the symbols that reach a lane (R209–R211).
-/

namespace Sys2Proof.Machine

open State

/-! ## Orders of the checker (R210) -/

section
variable {s : State} {port : Fin 5} {n : Fin 16}

/-- A checker without lock and without errors. -/
def HostLane.cleared (h : HostLane) : HostLane := { h with prbsLocked := false, clean := 0, errors := [] }

/-- An order to slip clears the errors and drops lock. -/
theorem prbsSlip_clears {t : State} {f : HostLane → HostLane} (ht : t = (s.restaged (R.HLn_PRBS_CTRL n)).prbsSlip n f) :
    HostNow n s t (f s.dp.host[n]).cleared ∧ t.reg (R.HLn_PRBS_ERR n) = 0 ∧ (∀ a, t.stagedReg a = s.stagedReg a)
    ∧ Touches [.staged, .dp, .mem] (· = R.HLn_PRBS_ERR n) s t := by
  have htouch : Touches [.dp] (· = R.HLn_PRBS_ERR n) (s.restaged (R.HLn_PRBS_CTRL n)) ((s.restaged (R.HLn_PRBS_CTRL n)).prbsSlip n f) :=
    .setReg (.onHost (.refl _ _ _)) rfl
  subst ht
  refine ⟨?_, reg_setReg_same _ _ _, stagedReg_of_restaged htouch,
    ((restaged_touches _).mono (by simp) (by simp)).trans (htouch.mono (by simp) fun _ h => h)⟩
  exact ((HostNow.refl n s).same (u := s.restaged _) rfl).onHost (f := fun h => (f h).cleared)

section
variable (hready : s.ready port (R.HLn_PRBS_CTRL n) = true) (hused : s.hostUsed n = true) (hon : s.dpOff = false)
  (hstaged : s.stagedReg (R.HLn_PRBS_CTRL n) &&& 0x380 = 0)
include hready hused hon hstaged

/-- An order seeds the checker. -/
theorem prbsResync_seeds {pat : Pattern} (hpat : hostPattern (s.prbsChk n) = some pat) : Answers (.prbsResync port n) s fun t =>
    HostNow n s t { s.dp.host[n].seed pat with chk := s.prbsChk n }
    ∧ (∀ a, t.stagedReg a = s.stagedReg a) ∧ Touches [.staged, .dp, .mem] (fun _ => False) s t := by
  have hput : s.put port (R.HLn_PRBS_CTRL n) (s.stagedReg (R.HLn_PRBS_CTRL n) ||| 0x80) = (s.restaged (R.HLn_PRBS_CTRL n)).prbsSeed n :=
    put_prbsCtrl hready hused hon (by decide) hstaged
  have htouch : Touches [.dp] (fun _ => False) (s.restaged (R.HLn_PRBS_CTRL n)) ((s.restaged (R.HLn_PRBS_CTRL n)).prbsSeed n) :=
    .onHost (.refl _ _ _)
  refine ⟨_, congrArg Host.Outcome.next hput, ?_, stagedReg_of_restaged htouch,
    ((restaged_touches _).mono (by simp) (by simp)).trans (htouch.mono (by simp) fun _ h => h)⟩
  have hchk : (s.restaged (R.HLn_PRBS_CTRL n)).prbsChk n = s.prbsChk n := rfl
  unfold prbsSeed
  rw [hchk, hpat]
  exact ((HostNow.refl n s).same (u := s.restaged _) rfl).onHost

/-- An order slips the bit stream. -/
theorem prbsSlipBit_clears : Answers (.prbsSlipBit port n) s fun t =>
    HostNow n s t { s.dp.host[n] with swapped := !s.dp.host[n].swapped, skip := s.dp.host[n].skip + 1 }.cleared
    ∧ t.reg (R.HLn_PRBS_ERR n) = 0 ∧ (∀ a, t.stagedReg a = s.stagedReg a)
    ∧ Touches [.staged, .dp, .mem] (· = R.HLn_PRBS_ERR n) s t := by
  have hput : s.put port (R.HLn_PRBS_CTRL n) (s.stagedReg (R.HLn_PRBS_CTRL n) ||| 0x100) =
      (s.restaged (R.HLn_PRBS_CTRL n)).prbsSlipBit n := put_prbsCtrl hready hused hon (by decide) hstaged
  exact ⟨_, rfl, prbsSlip_clears hput⟩

/-- An order slips the symbol stream. -/
theorem prbsSlipSym_clears : Answers (.prbsSlipSym port n) s fun t =>
    HostNow n s t { s.dp.host[n] with delay := s.dp.host[n].delay + 1 }.cleared
    ∧ t.reg (R.HLn_PRBS_ERR n) = 0 ∧ (∀ a, t.stagedReg a = s.stagedReg a)
    ∧ Touches [.staged, .dp, .mem] (· = R.HLn_PRBS_ERR n) s t := by
  have hput : s.put port (R.HLn_PRBS_CTRL n) (s.stagedReg (R.HLn_PRBS_CTRL n) ||| 0x200) =
      (s.restaged (R.HLn_PRBS_CTRL n)).prbsSlipSym n := put_prbsCtrl hready hused hon (by decide) hstaged
  exact ⟨_, rfl, prbsSlip_clears hput⟩

end
end

/-! ## Symbols that reach the checker (R208, R211) -/

namespace State

/-- What a lane that is up has received goes on to the line. -/
def sentOn (s : State) (n : Fin 16) (xs : List Nat) : State :=
  if h8 : n.val < 8 then if s.dp.host[n].st = .up then s.retimeToLine ⟨n.val, h8⟩ xs else s else s

section
variable {s : State} {n : Fin 16} {xs : List Nat}

/-- The registers of the line that symbols reach in a standard mode. -/
def lineReg (s : State) (a : Nat) : Prop := s.stdMode = true ∧ ∃ k : Fin 8, a = R.OLn_TX_SAT_CNT k

theorem retimeToLine_of_not {k : Fin 8} (h : s.stdMode = false) : s.retimeToLine k xs = s := if_pos (by rw [h]; rfl)

theorem sentOn_of_not (h : s.stdMode = false) : s.sentOn n xs = s := by
  unfold sentOn
  split
  · rw [retimeToLine_of_not h, ite_self]
  · rfl

theorem retimeToLine_touches {k : Fin 8} : Touches [.dp] s.lineReg s (s.retimeToLine k xs) := by
  cases h : s.stdMode with
  | false =>
    rw [retimeToLine_of_not h]
    exact .refl _ _ _
  | true =>
    unfold retimeToLine sendLevels emit
    exact .ite (.refl _ _ _) (.onDp (.onDp (.bumpBy (.onDp (.refl _ _ _)) ⟨h, k, rfl⟩)))

theorem retimeToLine_host {k : Fin 8} : (s.retimeToLine k xs).dp.host = s.dp.host := by
  unfold retimeToLine
  dsimp only
  split
  · rfl
  · rfl

theorem sentOn_touches : Touches [.dp] s.lineReg s (s.sentOn n xs) := by
  unfold sentOn
  split
  · exact .ite retimeToLine_touches (.refl _ _ _)
  · exact .refl _ _ _

theorem sentOn_host : (s.sentOn n xs).dp.host = s.dp.host := by
  unfold sentOn
  split
  · split
    · exact retimeToLine_host
    · rfl
  · rfl

theorem onHost_self {f : HostLane → HostLane} (h : f s.dp.host[n] = s.dp.host[n]) : s.onHost n f = s := by
  have hset : s.dp.host.set n (f s.dp.host[n]) = s.dp.host := by
    rw [h]
    exact Vector.set_getElem_self n.isLt
  exact congrArg (fun v : Vector HostLane 16 => ({ s with dp := { s.dp with host := v } } : State)) hset

/-- A lane without a loop, an inverter and a precoder: its symbols reach its checker as they come. -/
theorem laneReceives_plain {symbols : List (Fin 4)} (hplain : (s.hostLoop n == 0 && !s.cfgOn (F.HLn_CTRL_rx_invert n)
    && !s.cfgOn (F.HLn_CTRL_rx_precode n)) = true) :
    s.laneReceives n symbols = (s.checkSymbols n (symbols.map (·.val))).sentOn n (symbols.map (·.val)) := by
  simp only [Bool.and_eq_true, Bool.not_eq_true', beq_iff_eq] at hplain
  obtain ⟨⟨hloop, hinvert⟩, hprecode⟩ := hplain
  have hself : (s.onHost n fun h => { h with rxPre := s.dp.host[n].rxPre }) = s := onHost_self rfl
  unfold laneReceives
  dsimp only
  rw [hloop, if_neg (by decide), if_neg (by decide), hinvert, hprecode]
  simp only [Bool.false_eq_true, if_false, hself]
  rfl

/-- Symbols reach a checker that has its seed. -/
theorem checkSymbols_seeded {pat : Pattern} {k : HostLane} {errs : Nat} (hpat : hostPattern (s.prbsChk n) = some pat)
    (hchk : s.dp.host[n].chk = s.prbsChk n) (hseeded : s.dp.host[n].seeded = true)
    (hrun : xs.foldl (HostLane.checkSymbol pat (s.cfgOn (F.HLn_PRBS_CTRL_auto_sync n))) (s.dp.host[n], 0) = (k, errs)) :
    s.checkSymbols n xs = (s.bumpBy (R.HLn_PRBS_ERR n) errs).onHost n fun _ => k := by
  unfold checkSymbols
  dsimp only
  rw [hpat]
  dsimp only
  rw [if_pos hchk, hseeded, Bool.not_true, Bool.and_false, if_neg Bool.false_ne_true, hrun]

/-- What a checker that has its seed leaves, and the line after it. -/
theorem laneReceives_checked {pat : Pattern} {k : HostLane} {errs : Nat} {symbols : List (Fin 4)} (hplain : (s.hostLoop n == 0
    && !s.cfgOn (F.HLn_CTRL_rx_invert n) && !s.cfgOn (F.HLn_CTRL_rx_precode n)) = true)
    (hpat : hostPattern (s.prbsChk n) = some pat) (hchk : s.dp.host[n].chk = s.prbsChk n) (hseeded : s.dp.host[n].seeded = true)
    (hrun : (symbols.map (·.val)).foldl (HostLane.checkSymbol pat (s.cfgOn (F.HLn_PRBS_CTRL_auto_sync n))) (s.dp.host[n], 0) = (k, errs)) :
    (s.laneReceives n symbols).dp.host[n] = k ∧ (∀ m : Fin 16, m ≠ n → (s.laneReceives n symbols).dp.host[m] = s.dp.host[m])
    ∧ (s.stdMode = false → HostNow n s (s.laneReceives n symbols) (s.laneReceives n symbols).dp.host[n])
    ∧ Touches [.dp] s.lineReg (s.bumpBy (R.HLn_PRBS_ERR n) errs) (s.laneReceives n symbols) := by
  rw [laneReceives_plain hplain, checkSymbols_seeded hpat hchk hseeded hrun]
  have hnow : HostNow n s ((s.bumpBy (R.HLn_PRBS_ERR n) errs).onHost n fun _ => k) k :=
    ((HostNow.refl n s).same (u := s.bumpBy _ _) rfl).onHost (f := fun _ => k)
  have htouch : Touches [.dp] s.lineReg (s.bumpBy (R.HLn_PRBS_ERR n) errs) ((s.bumpBy (R.HLn_PRBS_ERR n) errs).onHost n fun _ => k) :=
    .onHost (.refl _ _ _)
  have hstd : ((s.bumpBy (R.HLn_PRBS_ERR n) errs).onHost n fun _ => k).stdMode = s.stdMode := rfl
  have hline : ((s.bumpBy (R.HLn_PRBS_ERR n) errs).onHost n fun _ => k).lineReg = s.lineReg := rfl
  generalize (s.bumpBy (R.HLn_PRBS_ERR n) errs).onHost n (fun _ => k) = u at hnow htouch hstd hline ⊢
  have hsent := sentOn_touches (s := u) (n := n) (xs := symbols.map (·.val))
  rw [hline] at hsent
  have hhost := sentOn_host (s := u) (n := n) (xs := symbols.map (·.val))
  refine ⟨?_, fun m hm => ?_, fun hnot => ?_, htouch.trans hsent⟩
  · simp only [hhost]
    exact hnow.lane
  · simp only [hhost]
    exact hnow.other hm
  · rw [sentOn_of_not (hstd.trans hnot), hnow.lane]
    exact hnow

/-- A checker's pattern takes a seed of more than one bit: the square wave is no pattern of a checker (R209). -/
theorem seedBits_of_prbsChk {pat : Pattern} (h : hostPattern (s.prbsChk n) = some pat) : 1 < pat.seedBits := by
  have hcode : s.prbsChk n ≤ 4 := by
    unfold prbsChk
    dsimp only
    split <;> omega
  generalize s.prbsChk n = code at h hcode
  match code, hcode with
  | 0, _ => cases h
  | 1, _ => cases h; decide
  | 2, _ => cases h; decide
  | 3, _ => cases h; decide
  | 4, _ => cases h; decide

end
end State
end Sys2Proof.Machine
end

section
/-!
The statement about egress and patterns.
-/

namespace Sys2Proof.Machine

open State

section
variable {s : State} {p : Fin 16} {cyc : Nat}

/-! ## The fourth fill block -/

section
variable (h : s.egresses p = true) (hlf : s.dp.ports[p].lfOut = false) (hg : s.dp.ports[p].gather.length = 3)
  (hr : s.dp.ports[p].refill = true) (heb : s.dp.ports[p].eb.length < 4 * s.ebCentre s.dp.ports[p].width)
include h hlf hg hr heb

theorem egressBlockOut_joins (hblocks : s.dp.ports[p].blocks ≠ []) (hfew : s.dp.ports[p].blocks.length < 19) :
    let q := s.dp.ports[p].sent (fillBlock s.dp.ports[p].lastOut) false
    let c := q.scrambled (fillBlock s.dp.ports[p].lastOut)
    Answers (.egressBlockOut p cyc) s fun t =>
      PortNow p s t { q with gather := [], txScr := c.2, blocks := q.blocks ++ bitBlocks c.1 } ∧ Touches [.dp] (fun _ => False) s t := by
  obtain ⟨hnow, htouch⟩ := egressOne_fills hlf ⟨hr, heb⟩
  obtain ⟨hjoined, hkeeps⟩ := regenerate_joins (cyc := cyc) (x := fillBlock s.dp.ports[p].lastOut) hnow hg hblocks hfew
  exact ⟨_, exec_egressBlockOut h (by rw [hnow.port]; rfl), hjoined, hkeeps _ htouch⟩

theorem egressBlockOut_encodes (hblocks : s.dp.ports[p].blocks.length = 19) (h1 : s.portLoop p 1 = false) (h2 : s.portLoop p 2 = false) :
    let q := s.dp.ports[p].sent (fillBlock s.dp.ports[p].lastOut) false
    let c := q.scrambled (fillBlock s.dp.ports[p].lastOut)
    Answers (.egressBlockOut p cyc) s fun t =>
      t.dp.ports = s.dp.ports.set p { q with
        gather := [], txScr := c.2, blocks := [], marks := 0,
        word := rsEncode (bitSymbols ((q.blocks ++ bitBlocks c.1).flatMap blockBits)) }
      ∧ t.dp = { s.dp with ports := t.dp.ports, host := t.dp.host } ∧ Touches [.dp] (fun _ => False) s t := by
  obtain ⟨hnow, htouch⟩ := egressOne_fills hlf ⟨hr, heb⟩
  have hloops (n : Fin 16) : (s.egressOne p).hostLoop n = s.hostLoop n := by
    rw [egressOne_refills (by rw [localFaultFed_of_off hlf]; exact ⟨hr, heb⟩), localFaultFed_of_off hlf]
    rfl
  obtain ⟨hports, hdp, hkeeps⟩ := regenerate_sends (cyc := cyc) (x := fillBlock s.dp.ports[p].lastOut) hnow hg hblocks rfl rfl hloops
    h h1 h2
  exact ⟨_, exec_egressBlockOut h (by rw [hnow.port]; rfl), hports, hdp, hkeeps _ htouch⟩

end
end

/-! ## What the checker's symbols answer -/

section
variable {s : State} {n : Fin 16} {pat : Pattern} {symbols : List (Fin 4)} {y : Fin 4}

section
variable (hpat : hostPattern (s.prbsChk n) = some pat) (hplain : (s.hostLoop n == 0 && !s.cfgOn (F.HLn_CTRL_rx_invert n)
  && !s.cfgOn (F.HLn_CTRL_rx_precode n)) = true) (hchk : s.dp.host[n].chk = s.prbsChk n) (hc : s.dp.host[n].Compares)
include hpat hplain hchk hc

/-- Symbols that continue the pattern. -/
theorem prbsCheckLock_follows (hsome : symbols ≠ []) (hsame : symbols.map (·.val) = (pat.run symbols.length s.dp.host[n].place).1) :
    Answers (.prbsCheckLock n symbols) s fun t =>
      t.dp.host[n].clean = s.dp.host[n].clean + 2 * symbols.length
      ∧ t.dp.host[n].prbsLocked = (s.dp.host[n].prbsLocked || decide (4096 ≤ s.dp.host[n].clean + 2 * symbols.length))
      ∧ t.dp.host[n].place = (pat.run symbols.length s.dp.host[n].place).2
      ∧ (∀ m : Fin 16, m ≠ n → t.dp.host[m] = s.dp.host[m]) ∧ (s.stdMode = false → HostNow n s t t.dp.host[n])
      ∧ Touches [.dp] s.lineReg s t := by
  have hrun := HostLane.checkSymbols_same (auto := s.cfgOn (F.HLn_PRBS_CTRL_auto_sync n)) (errs := 0) hc
    (xs := symbols.map (·.val)) (by rw [List.length_map, hsame])
  rw [List.length_map] at hrun
  obtain ⟨hlane, hother, hstd, htouch⟩ := laneReceives_checked hplain hpat hchk hc.seeded hrun
  have hlocked : (s.dp.host[n].followedOn pat symbols.length).prbsLocked =
      (s.dp.host[n].prbsLocked || decide (4096 ≤ s.dp.host[n].clean + 2 * symbols.length)) := by
    rw [HostLane.followedOn, HostLane.moved, decide_eq_true (List.length_pos_of_ne_nil hsome), Bool.true_and]
  refine ⟨_, rfl, ?_, ?_, ?_, hother, hstd, ((bumpBy_zero_touches ..).mono (by simp) (by simp)).trans htouch⟩
  · rw [hlane]
    rfl
  · rw [hlane, hlocked]
  · rw [hlane]
    rfl

/-- The 64th error within 4,096 bits. -/
theorem prbsLockLoss_loses (hlocked : s.dp.host[n].prbsLocked = true) (herrors : s.dp.host[n].errors.length = 63)
    (hnear : s.dp.host[n].bits + 1 - s.dp.host[n].errors.getLastD 0 < 4096)
    (hy : bitOf (symLabel y) 1 ≠ (pat.bit s.dp.host[n].place).1) : Answers (.prbsLockLoss n [y]) s fun t =>
      t.dp.host[n].prbsLocked = false ∧ Claims.counted s t (R.HLn_PRBS_ERR n) 1
      ∧ (s.cfgOn (F.HLn_PRBS_CTRL_auto_sync n) = true → t.dp.host[n].seeded = true ∧ 0 < t.dp.host[n].need)
      ∧ (∀ m : Fin 16, m ≠ n → t.dp.host[m] = s.dp.host[m]) ∧ (s.stdMode = false → HostNow n s t t.dp.host[n])
      ∧ Touches [.dp] (fun a => a = R.HLn_PRBS_ERR n ∨ s.lineReg a) s t := by
  obtain ⟨k, hrun, hlost, hseeds⟩ := HostLane.checkSymbol_lost (auto := s.cfgOn (F.HLn_PRBS_CTRL_auto_sync n)) hc hlocked herrors hnear hy
    (seedBits_of_prbsChk hpat)
  obtain ⟨hlane, hother, hstd, htouch⟩ := laneReceives_checked (symbols := [y]) hplain hpat hchk hc.seeded hrun
  have hapart : ¬ s.lineReg (R.HLn_PRBS_ERR n) := by
    rintro ⟨-, k, hk⟩
    simp only [R.HLn_PRBS_ERR, R.OLn_TX_SAT_CNT] at hk
    omega
  refine ⟨_, rfl, ?_, ?_, ?_, hother, hstd, ?_⟩
  · rw [hlane, hlost]
  · rw [Claims.counted, htouch.2.1 _ hapart]
    exact reg_bumpBy_same ..
  · rw [hlane]
    exact hseeds
  · exact ((s.bumpBy_touches _ _).mono (by simp) fun _ h => .inl h).trans (htouch.mono (fun _ h => h) fun _ => .inr)

end
end

/-- Settles O29: `PortNow` and `HostNow` say what becomes of the port and of the lane. -/
theorem egressAndPatterns : Obligations.EgressAndPatterns := by
  unfold Obligations.EgressAndPatterns
  constructor
  · intro s p cyc x rest q c is sends fill
    refine ⟨exec_egressBlockOut_of_not, fun hs _ hlf => ⟨fun hg => ⟨egressBlockOut_sends hs hlf hg, egressBlockOut_deletes hs hlf hg,
      egressBlockOut_inserts hs hlf hg, egressBlockOut_slips hs hlf hg, egressBlockOut_fills hs hlf hg⟩, fun hg hr heb hblocks => ?_⟩,
      egressBlockOut_localFault⟩
    exact ⟨egressBlockOut_joins hs hlf hg hr heb hblocks, egressBlockOut_encodes hs hlf hg hr heb⟩
  · intro s port n pat symbols y h is auto plain compares lineReg
    refine ⟨fun hready hused hon hstaged => ⟨prbsResync_seeds hready hused hon hstaged,
      prbsSlipBit_clears hready hused hon hstaged, prbsSlipSym_clears hready hused hon hstaged⟩, ?_, ?_⟩
    · rintro hpat hplain ⟨hchk, hseeded, hneed, hskip, hdelay, hswapped⟩
      exact prbsCheckLock_follows hpat hplain hchk ⟨hseeded, hneed, hskip, hdelay, hswapped⟩
    · rintro hpat hplain ⟨hchk, hseeded, hneed, hskip, hdelay, hswapped⟩
      exact prbsLockLoss_loses hpat hplain hchk ⟨hseeded, hneed, hskip, hdelay, hswapped⟩

end Sys2Proof.Machine
end
